-- ==== Sys2Proof/Word.lean ====
section
/-! DEFINITION. The word types of the Vaosh 3 parts: the sides of an Ikisa link and the byte, word and
double-word types that memories and clocks hold. -/

namespace Sys2Proof

/-- A byte of a memory (R9). -/
abbrev Byte := BitVec 8

/-- A 32-bit little-endian word (R9). -/
abbrev Word := BitVec 32

/-- A 64-bit value: a nanosecond count (R44), a stitch register (R404). -/
abbrev DWord := BitVec 64

/-- The two parts the model holds: the ITU of one die and the Lamulo it is linked to. -/
inductive Side where
  /-- Ikisa 3.4.0, the block of one die. -/
  | itu
  /-- Lamulo LT-3 B1. -/
  | lam
deriving DecidableEq, Repr

/-- The authority levels of the manual (00 "Authority levels", R3). -/
inductive Auth where
  /-- Software on one host partition of a die. -/
  | partition
  /-- The host attached to one Lamulo, or a command issued at tray level. -/
  | tray
  /-- Fleet software through the Crown. -/
  | fleet
deriving DecidableEq, Repr

end Sys2Proof
end

