-- ==== Sys2Proof/Machine/Types.lean ====
section
/-! DEFINITION. The data that the links carry and that commands name as operands: records (R193), envelopes
(R198), mains announcements (R67), command packets (R377) and their parts. -/

namespace Sys2Proof.Machine

/-- A record (R193): header fields, payload words and trailer. LENGTH counts header and payload in 16-byte
units. ALIVE and the trailer are zero until hand-over (R175). -/
structure Rec where
  fmt : Nat := 3
  cls : Nat
  typ : Nat
  len : Nat
  alive : Nat := 0
  die : Nat
  part : Nat := 0
  gen : Nat
  seq : Nat := 0
  short : Nat
  body : List Nat
  trailer : Nat := 0
  /-- full local time of SHORT at the ITU that made the record; not carried (R47) -/
  born : Nat := 0
deriving DecidableEq, Repr

/-- A forwarding envelope (R198); ENV_CRC is held as received or computed. -/
structure Env where
  rank : Nat := 0
  job : Nat := 0
  cohort : Nat := 0
  bound : Bool := false
  srcRole : Nat
  replica : Nat := 0
  epoch : Nat
  fmt : Nat := 3
  missed : Bool := false
  failover : Bool := false
  ftHi : Nat
  hopT : Nat := 0
  hopK : Nat := 0
  hopW : Nat := 0
  crc : Nat := 0
deriving DecidableEq, Repr

/-- A mains announcement (R67). START is held in units of 2^-32 ns (64-bit ns and 32-bit fraction), LENGTH as
its 32.32 value. -/
structure Ann where
  mc : Nat
  start : Nat
  length : Nat
  flags : Nat
deriving DecidableEq, Repr

/-- Header of a command packet (R377). -/
structure CmdHdr where
  pver : Nat := 1
  opcode : Nat
  len16 : Nat := 3
  auth : Nat
  amode : Nat
  noReply : Bool := false
  inTxn : Bool := false
  target : Nat := 0
  epoch : Nat := 0
  cmdId : Nat := 0
  origin : Nat := 0
  issuer : Nat := 0
  txn : Nat := 0
  ownerDie : Nat := 0
  ownerPart : Nat := 0
  ownerGen : Nat := 0
  ownerIsPart : Bool := false
  issue : Nat := 0
  tagSeq : Nat := 0
  tag : Nat := 0
  resolved : Nat := 0
  resolvedValid : Bool := false
deriving DecidableEq, Repr

/-- A command packet: header and the parameter words from packet word 12 on. -/
structure Pkt where
  hdr : CmdHdr
  params : List Nat := []
deriving DecidableEq, Repr

/-- Where a packet enters a Lamulo or the ITU (R378). -/
inductive Entry where
  /-- the PCIe command queue -/
  | pcie
  /-- a Crown port of ROLE 4 -/
  | fleet
  /-- the port p to a parent -/
  | parent (p : Nat)
  /-- the child port p (ROLE 3) -/
  | child (p : Nat)
  /-- generated by this Lamulo itself -/
  | own
  /-- IKL VC 4 at the ITU -/
  | ikl
deriving DecidableEq, Repr

/-- The path of a register access (R386): the ITU's host port and IKL, the Lamulo's PCIe BAR0 and commands. -/
inductive Path where
  /-- the ITU's host register port -/
  | host
  /-- IKL, at the ITU -/
  | ikl
  /-- PCIe BAR0, at the Lamulo -/
  | pcie
  /-- command packets, at the Lamulo -/
  | cmd
deriving DecidableEq, Repr

/-- Who makes a register access: the path, the authority and, for PARTITION authority, the partition. -/
structure Issuer where
  path : Path
  auth : Auth
  part : Nat := 0
deriving DecidableEq, Repr

/-- Memory response statuses of the host memory port (03 port groups). -/
inductive MemStatus where
  | ok
  | error
  | poison
deriving DecidableEq, Repr

/-- ECC outcomes of a DDR read (R460). -/
inductive Ecc where
  | clean
  | corrected
  | uncorrectable
deriving DecidableEq, Repr

/-- IEEE 1588 messages a port may receive (R53). Times in ns with a 2^-16 ns fraction, corrections in ns * 2^16. -/
inductive PtpKind where
  /-- one-step Sync, or two-step with twoStep set -/
  | sync (twoStep : Bool)
  | followUp
  | delayReq
  | delayResp
  | pdelayReq
  | pdelayResp (twoStep : Bool)
  | pdelayRespFollowUp
  | announce
deriving DecidableEq, Repr

/-- A received IEEE 1588 message: kind, domain, sequence, its origin or receive timestamp, correctionField (s64,
held modulo 2^64) and the uncorrected ingress timestamp; fwd is the egress timestamp of a transparent clock. -/
structure PtpMsg where
  kind : PtpKind
  domain : Nat := 0
  seq : Nat := 0
  t : Nat := 0
  f : Nat := 0
  /-- second timestamp of a Pdelay_Resp exchange -/
  t' : Nat := 0
  f' : Nat := 0
  corr : Nat := 0
  rxT : Nat := 0
  rxF : Nat := 0
  fwdT : Nat := 0
  fwdF : Nat := 0
deriving DecidableEq, Repr

/-- What the Tray Lamulo reads over IKL in the rejoin procedure (R158). -/
structure RejoinReads where
  stepUsed : Bool
  state : Nat
  mainsCurrent : Bool
  /-- PART_STAT.STATE and HELD of each partition -/
  parts : List (Nat × Bool)
  /-- step the servo took, s32 ns -/
  stepNs : Nat := 0
  /-- PART_CNT_REFUSED shows that the last write of ADV_ALL was refused (R159) -/
  advRefused : Bool := false
deriving DecidableEq, Repr

/-- The item a cell or frame carries upward or downward (R173, R360). -/
inductive Item where
  /-- a record with its envelope -/
  | fwd (e : Env) (r : Rec)
  /-- a record alone, on IKL -/
  | rcd (r : Rec)
  /-- a command packet -/
  | cmd (p : Pkt)
  /-- a ledger message, as words -/
  | ledger (ws : List Nat)
  /-- a mains announcement -/
  | mains (a : Ann)
deriving DecidableEq, Repr

/-- A Vaosh frame (R360), its items laid out: channel, RESENT, COLOUR, RESTART, FSEQ, the sender, CREDIT and ACK with their
channels, and for a LINK frame whether it is a NAK. -/
structure Frame where
  chan : Nat
  resent : Bool := false
  colour : Nat := 0
  restart : Bool := false
  fseq : Nat := 0
  src : Nat := 0
  standby : Bool := false
  items : List Item := []
  credit : Option (Nat × Nat) := none
  ack : Option (Nat × Nat) := none
  nak : Bool := false
deriving DecidableEq, Repr

end Sys2Proof.Machine
end

