-- ==== Sys2Proof/Syntax.lean ====
section
/-! DEFINITION. The commands of the block: one constructor per row of spec/opcode_table.json, with the row's
operands. A command is a write or read of a register, an event on a link, a pin or a timer, or the execution of a
command packet. -/

namespace Sys2Proof

open Sys2Proof.Machine

/-- The commands (spec/opcode_table.json). -/
inductive Instr where
  /-- REGISTER_WRITE (R12): A write to a register field that has no row of its own takes effect according to its access code. -/
  | registerWrite (sd : Side) (iss : Issuer) (addr data strb : Nat)
  /-- SLOT_BOUNDARY (R68): The local clock reaches a phase slot boundary computed from the current mains announcement, and the slot-scheduled acts of that boundary run. -/
  | slotBoundary (sd : Side)
  /-- MC_START (R65): The start of a mains cycle: the Crown fixes and announces the next length, and every node runs its once-per-MC work. -/
  | mcStart (sd : Side) (polls : List (Nat × List Nat))
  /-- TIME_INCR_HI_WRITE (R45): A write of the high increment word applies both increment words together if the servo is disabled and the value lies within plus or minus 200 ppm. -/
  | timeIncrHiWrite (sd : Side) (iss : Issuer) (data : Nat)
  /-- TIME_CTL_ENABLE_WRITE (R48): A write of the servo enable starts or stops the servo, entering ACQUIRE when a source is selected. -/
  | timeCtlEnableWrite (sd : Side) (iss : Issuer) (v : Bool)
  /-- TIME_CTL_REARM (R48): A FLEET write of REARM clears STEP_USED, permits one further step and puts an enabled clock into ACQUIRE. -/
  | timeCtlRearm (sd : Side) (iss : Issuer)
  /-- SOURCE_LOST (R48): Loss of the selected time source puts the clock into HOLDOVER after its step, or back to FREE before it. -/
  | sourceLost (sd : Side)
  /-- HOLDOVER_DEGRADED (R51): After 1,000 ms in HOLDOVER the clock sets DEGRADED and its ledger stops moving bands. -/
  | holdoverDegraded (sd : Side)
  /-- PTP_MESSAGE_RX (R53): An IEEE 1588 message is received and timestamped on a port and processed according to the port's mode. -/
  | ptpMessageRx (port : Nat) (m : PtpMsg)
  /-- PTP_SYNC_TX (R53): A master port sends a one-step Sync at its configured interval. -/
  | ptpSyncTx (port : Nat) (t f : Nat)
  /-- PTP_DELAY_REQ_TX (R53): A slave or listening port sends a Delay_Req or Pdelay_Req at its configured interval. -/
  | ptpDelayReqTx (port : Nat) (t f : Nat)
  /-- PORT_SETTLE_END (R58): One millisecond after a port's synthesiser reports lock, the port leaves settling. -/
  | portSettleEnd (port : Nat)
  /-- MZC_EDGE (R62): A rising edge on MZC is timestamped and ignored as a glitch, accepted for the period filter, or accepted for phase only. -/
  | mzcEdge (t : Nat)
  /-- ANN_LOST (R69): No announcement for three nominal cycles sets ANN_LOST. -/
  | annLost (sd : Side)
  /-- CONSERVATIVE_ENTRY (R73): After 10,000 ms in HOLDOVER or with ANN_LOST, the node enters conservative mode. -/
  | conservativeEntry (sd : Side)
  /-- MAINS_CTL_ENABLE_WRITE (R70): Setting or clearing the mains enable discards any held chain and makes the node hold no chain. -/
  | mainsCtlEnableWrite (iss : Issuer) (v : Bool)
  /-- ITU_PD_CTL_WRITE (R81): A TRAY write to ITU_PD_CTL requests domains IPD1 to IPD4 on or off, switching off in the order of R83. -/
  | ituPdCtlWrite (iss : Issuer) (v : Nat)
  /-- PD_SW_ACK (R83): The host acknowledges a domain switch on pd_sw_ack. -/
  | pdSwAck (n : Nat) (level : Bool)
  /-- PD_SW_ACK_TIMEOUT (R91): No pd_sw_ack within 10 us: the domain is taken as off and TIMEOUT is set. -/
  | pdSwAckTimeout (n : Nat)
  /-- ITU_FN_EN_WRITE (R82): A TRAY write to ITU_FN_EN sets or clears function enables, refusing bits whose domain is off. -/
  | ituFnEnWrite (iss : Issuer) (v : Nat)
  /-- PWR_MEAS_PULSE (R350): A power measurement pulse is classed as pressed or pinned, counted and added to the energy counters. -/
  | pwrMeasPulse (w temp : Nat)
  /-- ITU_CLK_MEASURE (R90): Every 10 us the ITU measures the itu_clk period against itu_tclk for barrier timestamp correction. -/
  | ituClkMeasure (cycles : Nat)
  /-- BARRIER_EVENT (R225): A barrier entry or exit on bar_valid is timestamped and paired into the open table, yielding a BAR_EVENT on completion. -/
  | barrierEvent (exit : Bool) (part coll : Nat)
  /-- BAR_ENTRY_TIMEOUT (R226): An entry open for 1,000 ms is emitted with OPEN = 1 and removed. -/
  | barEntryTimeout (part coll : Nat)
  /-- MEM_RESPONSE (R87): A memory response is delivered to its tag or discarded by the Cuff if its generation is stale. -/
  | memResponse (tag gen : Nat) (status : MemStatus) (data : List Nat) (last : Bool)
  /-- MEM_TIMEOUT (R87): A memory request without response in 20 us ends with MEM_TIMEOUT and its tag is retired. -/
  | memTimeout (tag : Nat)
  /-- ROW_RESPONSE (R128): A returned row's last beat makes one ROW_SAMPLE record. -/
  | rowResponse (data : List Nat) (err : Bool)
  /-- QSCAN_DESCRIPTOR (R119): A Visor descriptor is stored, counted or discarded, and qscan_last closes the scan. -/
  | qscanDescriptor (desc : Nat) (last : Bool)
  /-- CANARY_OUTPUT_BEAT (R323): A canary output beat is fed to the CRC-64 unit and the last beat decides PASS or FAIL. -/
  | canaryOutputBeat (data : Nat) (last : Bool)
  /-- SR_ACK (R325): The host acknowledges or errs a save or restore request, moving the slice to RUN or to its result. -/
  | srAck (err : Bool)
  /-- QUIESCE_ACK (R147): part_quiesce_ack moves the partition from QUIESCE to FENCE with the Cuff raised. -/
  | quiesceAck (p : Nat)
  /-- QUIESCE_TIMEOUT (R147): No quiesce acknowledgement within 100 us: the ITU proceeds to FENCE with QUIESCE_TO. -/
  | quiesceTimeout (p : Nat)
  /-- PART_RST_DONE (R147): part_rst_done ends RESET: requests fall, the Cuff lowers, PART_DONE is emitted and the partition returns to RUN. -/
  | partRstDone (p : Nat)
  /-- RESET_TIMEOUT (R147): 10 ms in RESET without done puts the partition in HUNG and emits PART_DONE with HUNG = 1. -/
  | resetTimeout (p : Nat)
  /-- COUNTER_SELECT_WRITE (R99): A write to a counter select entry takes effect next cycle, clears the counter and marks RESTART. -/
  | counterSelectWrite (iss : Issuer) (sel data : Nat)
  /-- SMP_CTL_CLEAR (R99): A write of SMP_CTL.CLEAR clears all 4,096 counters in one cycle. -/
  | smpCtlClear (iss : Issuer)
  /-- SMP_CTL_RUN_WRITE (R109): A write of SMP_CTL.RUN starts or stops latching, refused while COUNTERS is disabled. -/
  | smpCtlRunWrite (iss : Issuer) (v : Bool)
  /-- RECORD_HANDOVER (R175): The ITU hands a queued record to IKL when credit allows, setting ALIVE, the trailer and any carried skip counts. -/
  | recordHandover (vc : Nat)
  /-- SMP_RD_LO_READ (R108): A read of SMP_RD_LO returns the low counter bits and latches the high bits for that path. -/
  | smpRdLoRead (iss : Issuer)
  /-- VIRTUAL_HEAD_ARRIVAL (R114): A virtual tracker head returns from DDR and the pending update is applied, late or after poison restart. -/
  | virtualHeadArrival (j : Nat) (poison : Bool)
  /-- TRK_SNAP_CMD_WRITE (R115): A write of a tracker index copies that tracker into TRK_SNAP_DATA between updates and sets DONE. -/
  | trkSnapCmdWrite (iss : Issuer) (idx : Nat)
  /-- TRK_ASSIGN (R117): The command writes a tracker's KEY and clears its state, or frees it. -/
  | trkAssign (h : CmdHdr) (tracker die counter : Nat) (free : Bool)
  /-- VIS_CTL_TRIG (R118): A TRAY write of VIS_CTL.TRIG starts a Visor snapshot of a partition or is refused. -/
  | visCtlTrig (iss : Issuer) (part : Nat)
  /-- VISOR_SNAP (R118): The command starts a Visor snapshot of the named partition. -/
  | visorSnap (h : CmdHdr) (p : Nat) (hold emit : Bool)
  /-- VIS_CTL_RELEASE (R123): A write of VIS_CTL.RELEASE releases a held snapshot. -/
  | visCtlRelease (iss : Issuer)
  /-- VIS_RD_DATA0_READ (R125): A read of VIS_RD_DATA0 returns descriptor bits and latches the other three words. -/
  | visRdData0Read (iss : Issuer)
  /-- ROW_CTL_TRIG (R126): A TRAY write of ROW_CTL.TRIG starts a scratchpad row sample or is refused. -/
  | rowCtlTrig (iss : Issuer) (part : Nat)
  /-- ROW_SAMPLE (R126): The command starts a scratchpad row sample of a partition. -/
  | rowSample (h : CmdHdr) (p first count stride : Nat)
  /-- TRACE_PACKET_CAPTURE (R133): Trace sources in an itu_clk cycle yield up to eight packets into the trace buffer, the rest counted lost. -/
  | tracePacketCapture (taps : List (Nat × Nat)) (bars : List (Nat × Bool × Nat)) (addrs : List (Nat × Nat))
  /-- TRACE_CHUNK_WRITE (R132): A filled 512-byte chunk of a partition is written through the memory port and WPTR advances. -/
  | traceChunkWrite (p tag : Nat)
  /-- TRC_PCTL_FLUSH (R138): A write of FLUSH pads and writes the current chunk and continues in the next. -/
  | trcPctlFlush (iss : Issuer) (p : Nat)
  /-- TRC_PCTL_EN_WRITE (R137): Setting EN resets WPTR and flags and begins capture with a SYNC. -/
  | trcPctlEnWrite (iss : Issuer) (p : Nat) (v : Bool)
  /-- TRC_MARK_WRITE (R142): A write of TRC_MARK emits a MARK packet if the partition's trace is enabled. -/
  | trcMarkWrite (iss : Issuer) (p v : Nat)
  /-- PART_CTL_RESET (R145): A TRAY write of PART_CTL.RESET triggers a partition reset sequence, held or refused as R145 states. -/
  | partCtlReset (iss : Issuer) (p : Nat)
  /-- PART_RESET (R145): The command triggers a partition reset sequence and answers OK, BAD_PARAM or BUSY. -/
  | partReset (h : CmdHdr) (p : Nat)
  /-- RESET_TRIGGER_RELEASE (R145): A trigger held for the 16 ms generation gap starts when the gap has passed. -/
  | resetTriggerRelease (p : Nat)
  /-- CAPTURE_END (R147): When qscan_req is low and the row sample has ended, the partition leaves CAPTURE for QUIESCE. -/
  | captureEnd (p : Nat)
  /-- CAPTURE_TIMEOUT (R147): 1 ms after the trigger, CAPTURE ends with the row sample cut. -/
  | captureTimeout (p : Nat)
  /-- GENERATION_ADVANCE (R149): Once R124 is met, the partition's generation advances, tags are freed, old records discarded and PART_GEN emitted. -/
  | generationAdvance (p : Nat)
  /-- PREV_GEN_RELEASE (R153): At the start of the second MC after PART_GEN, the previous generation is no longer held. -/
  | prevGenRelease (q p : Nat)
  /-- PART_CTL_ADV_ALL (R159): A write of ADV_ALL advances every partition's generation at once, or is refused or held. -/
  | partCtlAdvAll (iss : Issuer)
  /-- REJOIN_STEP (R158): The Tray Lamulo advances the rejoin procedure once the condition of the current step is met. -/
  | rejoinStep (q : Nat) (reads : RejoinReads)
  /-- REJOIN_TIMEOUT (R158): No lock and mains within 10 s of link-up leaves the port in REJOIN with an alarm. -/
  | rejoinTimeout (q : Nat)
  /-- REJOIN_GRANT (R158): The command grants the Tray Lamulo authority to rearm a rejoining die's clock. -/
  | rejoinGrant (h : CmdHdr) (q : Option Nat) (grant : Bool)
  /-- GEN_NOTICE (R154): The command tells every Lamulo of a new generation, releasing abandoned locks. -/
  | genNotice (h : CmdHdr) (isNode : Bool) (id part gen : Nat)
  /-- EPOCH_SYNC (R160): The command sends the current epoch and banks to a rejoining or uncertain child. -/
  | epochSync (h : CmdHdr) (ws : List Nat)
  /-- LINK_TRAIN_START (R183): After 1 ms in DOWN with the link enabled, the link enters TRAIN. -/
  | linkTrainStart (sd : Side) (q : Nat)
  /-- BLOCK_LOCK_ACQUIRED (R183): Both lanes report lock and deskew and the link moves from TRAIN to SETTLE. -/
  | blockLockAcquired (sd : Side) (q : Nat)
  /-- SETTLE_END (R183): 1 ms after lock the link moves from SETTLE to NEGOTIATE. -/
  | settleEnd (sd : Side) (q : Nat)
  /-- HELLO_RX (R186): A received HELLO yields the agreed format and check, or NO_COMMON. -/
  | helloRx (sd : Side) (q ver maxFmt minFmt checks : Nat)
  /-- READY_RX (R186): A READY equal to the end's own takes the link to UP and emits LINK_UP. -/
  | readyRx (sd : Side) (q fmt check : Nat) (valid degraded : Bool)
  /-- LOSS_OF_SIGNAL (R184): Loss of signal on a lane takes an UP link down and emits LINK_DOWN. -/
  | lossOfSignal (sd : Side) (q lane : Nat)
  /-- BLOCK_LOCK_LOSS (R184): Loss of block lock or a BER alarm takes the link down. -/
  | blockLockLoss (sd : Side) (q lane : Nat)
  /-- NO_VALID_BLOCK_TIMEOUT (R184): 1 ms with no valid block takes the link down. -/
  | noValidBlockTimeout (sd : Side) (q : Nat)
  /-- LNK_CTL_RETRAIN (R184): A write of RETRAIN at the Lamulo takes the link down with CAUSE 6. -/
  | lnkCtlRetrain (iss : Issuer) (q : Nat)
  /-- ILNK_CTL_RETRAIN (R184): A write of RETRAIN at the ITU takes the link down. -/
  | ilnkCtlRetrain (iss : Issuer)
  /-- LNK_CTL_ENABLE_WRITE (R184): Clearing ENABLE takes the port to DOWN and holds it; setting it lets the link train. -/
  | lnkCtlEnableWrite (iss : Issuer) (q : Nat) (v : Bool)
  /-- CELL_RX (R170): A received cell is accepted if its check and CSEQ are right, else discarded with one NAK per gap. -/
  | cellRx (sd : Side) (q : Nat) (octets : List Nat) (badBlocks : Nat)
  /-- NAK_RX (R170): A NAK makes the sender resend every unacknowledged cell from the named CSEQ. -/
  | nakRx (sd : Side) (q cseq : Nat)
  /-- ACK_RX (R170): An ACK releases cells acknowledged up to its CSEQ. -/
  | ackRx (sd : Side) (q cseq : Nat)
  /-- CREDIT_RX (R171): A cumulative CREDIT block raises a VC's send limit. -/
  | creditRx (sd : Side) (q vc freed : Nat)
  /-- CELL_TX (R172): Between cells the sender chooses a due TIME cell, LINK blocks, replays or a new cell by priority. -/
  | cellTx (sd : Side) (q : Nat)
  /-- LINK_BLOCK_TX (R167): Periodic CREDIT, ACK or HELLO LINK blocks are sent when due. -/
  | linkBlockTx (sd : Side) (q kind vc : Nat)
  /-- RECORD_ARRIVAL_IKL (R175): A whole record arriving at the Tray Lamulo is checked for format and seeded trailer, then through R153, R30 and R176. -/
  | recordArrivalIkl (q : Nat) (r : Rec)
  /-- TIME_SYNC_TX (R181): Every IKL_TIME_PERIOD the Lamulo sends a one-step SYNC time cell. -/
  | timeSyncTx (q t f : Nat)
  /-- TIME_SYNC_RX (R181): The ITU receives a SYNC, keeps t2 and sends a DREQ. -/
  | timeSyncRx (exch t1 f1 asym t2 f2 t3 f3 : Nat)
  /-- TIME_DREQ_RX (R181): The Lamulo answers a DREQ with a DRESP carrying t4. -/
  | timeDreqRx (q exch t4 f4 : Nat)
  /-- TIME_DRESP_RX (R181): The ITU holding t1 to t4 of one exchange runs the servo. -/
  | timeDrespRx (exch t4 f4 : Nat)
  /-- MAINS_CELL_RX (R182): The ITU applies the announcement checks to a received MAINS cell, ignoring duplicates. -/
  | mainsCellRx (a : Ann)
  /-- CRC_SEL_WRITE (R178): A write of CRC_SEL selects the algorithm and loads its initial value. -/
  | crcSelWrite (sd : Side) (iss : Issuer) (u v : Nat)
  /-- CRC_DATA_WRITE (R178): A write of CRC_DATA feeds the strobed bytes into the CRC unit. -/
  | crcDataWrite (sd : Side) (iss : Issuer) (u data strb : Nat)
  /-- RECORD_ARRIVAL_UPLINK (R199): A Lamulo above the tray checks an arriving envelope and record, drops and names corrupt ones, and forwards the rest. -/
  | recordArrivalUplink (p : Nat) (e : Env) (r : Rec)
  /-- PARTIAL_ARRIVAL (R208): A child's reduction partial is merged into its cell, or counted late, duplicate, mismatched or without a cell. -/
  | partialArrival (e : Env) (r : Rec) (poison : Bool)
  /-- STAT_CELL_CLOSE (R207): At latch instant plus STAT_CLOSE_US a cell closes and emits its partial or, at the Crown, its result. -/
  | statCellClose (spec gid t : Nat) (poison : Bool) (lost : List Nat)
  /-- BAR_PARTIAL_ARRIVAL (R229): A child's BAR_PARTIAL is merged into the barrier cell by the exact merge of R229. -/
  | barPartialArrival (e : Env) (r : Rec)
  /-- BARRIER_CELL_CLOSE (R230): A barrier cell closes at its earliest exit plus DET_BAR_CLOSE_US and is emitted, at the Crown scored and sent as BAR_REF. -/
  | barrierCellClose (cohort coll : Nat)
  /-- BAR_REF (R233): The command updates the straggler state of each port with a pending entry for the collective and evaluates its verdict. -/
  | barRef (h : CmdHdr) (words : List Nat)
  /-- QREF (R237): The command stores the latest cohort quantile reference for a detector set. -/
  | qref (h : CmdHdr) (words : List Nat)
  /-- STRAG_VERDICT_REPEAT (R243): Every 3,000 MC a port remaining STRAGGLER or EXIT_SLOW has its verdict repeated. -/
  | stragVerdictRepeat (q : Nat)
  /-- FOREST_PASS_START (R269): An eligible slot opens a pass taking a batch of vectors of one bank into a free buffer. -/
  | forestPassStart (slot : Nat)
  /-- FOREST_SEGMENT_END (R269): A segment completes and the scheduler picks the next segment by deficit round robin. -/
  | forestSegmentEnd (slot cycles : Nat)
  /-- FOREST_PASS_END (R261): At the end of a pass each valid vector updates its subject's verdict state and may emit FOREST_VERDICT. -/
  | forestPassEnd (slot : Nat)
  /-- VECTOR_AGE_OUT (R271): A queued vector not taken within MAX_AGE_MS of its latch is dropped. -/
  | vectorAgeOut (slot : Nat)
  /-- FOREST_FAULT (R273): Poison, cache error or bad leaf puts a slot in FAULT, discarding its pass and queue. -/
  | forestFault (slot kind : Nat)
  /-- FST_RESUME_WRITE (R267): A FLEET write of a slot number returns a suspended slot to RUN. -/
  | fstResumeWrite (iss : Issuer) (v : Nat)
  /-- FST_CTL_QUARTERS_WRITE (R274): A write of QUARTERS powers forest quarters when ENABLE is 0 and no pass or pinned bank forbids it. -/
  | fstCtlQuartersWrite (iss : Issuer) (v : Nat)
  /-- FOREST_LOAD (R275): The command starts loading a forest image into a slot's shadow bank. -/
  | forestLoad (h : CmdHdr) (slot base len : Nat)
  /-- FOREST_LOAD_DONE (R291): The image checks end with the shadow bank VERIFIED or REJECTED with its status. -/
  | forestLoadDone (slot : Nat) (poison : Bool)
  /-- FOREST_UNLOAD (R275): The command stages an empty shadow bank for a slot within a transaction. -/
  | forestUnload (h : CmdHdr) (slot : Nat)
  /-- FOREST_BANK_RELEASE (R276): A retiring forest bank is released once no queued vector or open pass refers to it. -/
  | forestBankRelease (slot : Nat)
  /-- BANK_SWAP (R383): The command stages a forest slot or Gauntlet package bank swap within a transaction. -/
  | bankSwap (h : CmdHdr) (obj slot : Nat)
  /-- DIG_STEP_WRITE (R303): A write of DIG_STEP arms a digest window when conditions hold, closes an armed one as OVERRUN, or is skipped. -/
  | digStepWrite (iss : Issuer) (step : Nat)
  /-- DIG_UNSTABLE_WRITE (R303): A write of DIG_UNSTABLE closes an armed or reading window as OVERRUN. -/
  | digUnstableWrite (iss : Issuer)
  /-- DIG_CTL_ABORT (R305): A write of ABORT closes the armed or open window as ABORTED. -/
  | digCtlAbort (iss : Issuer)
  /-- DIG_PARTIAL_ARRIVAL (R308): A child's DIG_PARTIAL is merged into the digest cell. -/
  | digPartialArrival (e : Env) (r : Rec)
  /-- DIGEST_CELL_CLOSE (R308): A digest cell closes on reaching N_EXPECTED shards or at its timer and emits DIG_PARTIAL. -/
  | digestCellClose (cohort replica step lo hi : Nat)
  /-- DIGEST_COMPARE (R310): The Crown evaluates a comparison group and emits DIG_RESULT with each replica's status. -/
  | digestCompare (cohort step lo hi : Nat)
  /-- GAUNTLET_LOAD (R320): The command makes the Crown check a package into its shadow bank and push it down. -/
  | gauntletLoad (h : CmdHdr) (base len : Nat)
  /-- GNT_PUSH (R320): The command carries package bytes to a Lamulo, which forwards them and checks the package. -/
  | gntPush (h : CmdHdr) (off len : Nat) (bs : List Nat)
  /-- PACKAGE_CHECK_DONE (R319): Package load checks end VERIFIED or with a failing status. -/
  | packageCheckDone (poison : Bool)
  /-- GNT_STAGE (R322): The command copies item data into the ITU test buffer. -/
  | gntStage (h : CmdHdr) (off : Nat) (bs : List Nat)
  /-- GNT_RUN (R322): The command starts a staged canary or slice item, or is refused. -/
  | gntRun (h : CmdHdr) (item pkg load : Nat) (retest : Bool) (entry : List Nat)
  /-- SLICE_PATTERN_END (R325): The END op ends RUN and the slice moves to RESTORE. -/
  | slicePatternEnd (wso : List (List Nat))
  /-- SLICE_OVERTIME (R325): DURATION_US after RUN begins, the pattern stops and the slice goes to RESTORE as SKIPPED OVERTIME. -/
  | sliceOvertime (wso : List (List Nat))
  /-- GNT_CTL_ABORT (R328): A FLEET write of ABORT ends the running item, restoring after a completed save. -/
  | gntCtlAbort (iss : Issuer) (wso : List (List Nat))
  /-- GNT_SUSPECT (R332): The command updates a port's suspect entry at its Tray. -/
  | gntSuspect (h : CmdHdr) (port : Nat) (entry : List Nat)
  /-- SUSPECT_SET (R332): The command marks a die suspect at the Crown with a given condition. -/
  | suspectSet (h : CmdHdr) (tbin load : Nat)
  /-- SUSPECT_CLEAR (R334): The command clears a die's suspect entry with cause OPERATOR. -/
  | suspectClear (h : CmdHdr)
  /-- LDG_GRANT_RX (R341): The ITU applies a ledger grant's tokens, slot and HOLD causes, ending FRESH or a freeze. -/
  | ldgGrantRx (ws : List Nat)
  /-- LDG_REPORT_RX (R345): The Tray accounts a die's report and answers at once with one LDG_GRANT. -/
  | ldgReportRx (q : Nat) (ws : List Nat)
  /-- LDG_FILL_RX (R344): A Row or Rack receives its fill for the MC and divides credit, or banks a late fill. -/
  | ldgFillRx (ws : List Nat)
  /-- LDG_SUM_RX (R346): A parent records a child's sums and HELD values. -/
  | ldgSumRx (p : Nat) (ws : List Nat)
  /-- LDG_CTL_FREEZE (R351): A write of LDG_CTL.FREEZE holds or releases the band by cause CMD. -/
  | ldgCtlFreeze (iss : Issuer) (v : Bool)
  /-- ETH_FRAME_RX (R360): A received Vaosh frame is checked, policed, acknowledged and its items processed. -/
  | ethFrameRx (p : Nat) (f : Frame) (bad : Bool)
  /-- ETH_LINK_FRAME_RX (R362): A LINK frame refreshes liveness and carries credit, acknowledgement or NAK. -/
  | ethLinkFrameRx (p : Nat) (f : Frame)
  /-- ETH_FRAME_TX (R366): Among eligible frames under gate and shaper the port sends the next by priority. -/
  | ethFrameTx (p : Nat)
  /-- ETH_LINK_FRAME_TX (R360): Every 10 us a port sends a LINK frame. -/
  | ethLinkFrameTx (p : Nat)
  /-- GATE_ENTRY_CHANGE (R365): The gate control list moves to its next entry or restarts at a slot boundary. -/
  | gateEntryChange (p : Nat)
  /-- PARENT_LOS (R369): Loss of signal on the primary port fails the child over to its secondary parent. -/
  | parentLos (p : Nat)
  /-- LIVENESS_TIMEOUT (R369): No LINK frame for EGR_LIVE_US on the primary port fails the child over. -/
  | livenessTimeout (p : Nat)
  /-- PARENT_SET (R369): The command moves a child to its primary or secondary parent. -/
  | parentSet (h : CmdHdr) (sec : Bool)
  /-- PARENT_CHANGE_RX (R371): A Lamulo forwarding PARENT_CHANGE routes the child's subtree to the arriving port. -/
  | parentChangeRx (p : Nat) (r : Rec)
  /-- COMMAND_PACKET_RX (R381): A node checks a command packet in order and executes, forwards or refuses it. -/
  | commandPacketRx (sd : Side) (entry : Entry) (ws : List Nat)
  /-- CMD_REPLY_RX (R382): A CMD_REPLY from the subtree is merged, and the merged reply sent when all expected responders answered. -/
  | cmdReplyRx (fromDie : Bool) (p : Nat) (body : List Nat)
  /-- CMD_MERGE_TIMEOUT (R382): CMD_MERGE_US after forwarding, silent responders count as TIMEOUT and the merged reply is sent. -/
  | cmdMergeTimeout (origin issuer cmdId : Nat)
  /-- CMDQ_TAIL_WRITE (R400): Advancing CMDQ_TAIL lets the Lamulo take host packets from the ring in order. -/
  | cmdqTailWrite (iss : Issuer) (v : Nat)
  /-- NOP (R383): The command does nothing and is replied to. -/
  | nop (sd : Side) (h : CmdHdr)
  /-- REG_READ (R385): The command reads up to 16 words coherently from an ITU window or a BAR0. -/
  | regRead (sd : Side) (h : CmdHdr) (space addr count : Nat)
  /-- REG_WRITE (R385): The command writes up to 16 strobed words as one write, or stages them in a transaction. -/
  | regWrite (sd : Side) (h : CmdHdr) (space addr count strb : Nat) (data : List Nat)
  /-- TXN_BEGIN (R390): The command opens a FLEET or TRAY transaction at its coordinator. -/
  | txnBegin (h : CmdHdr) (fleet : Bool)
  /-- TXN_COMMIT (R392): The command fixes the commit instant and sends TXN_PREPARE. -/
  | txnCommit (h : CmdHdr)
  /-- TXN_ABORT (R391): The command rolls a transaction back. -/
  | txnAbort (h : CmdHdr)
  /-- TXN_STATUS (R383): The command returns a transaction's state from its coordinator. -/
  | txnStatus (h : CmdHdr)
  /-- TXN_PREPARE (R392): The command makes every participant check its staged values and vote. -/
  | txnPrepare (sd : Side) (h : CmdHdr) (c mc : Nat)
  /-- TXN_DECIDE (R393): The command delivers the commit or abort decision to every participant. -/
  | txnDecide (sd : Side) (h : CmdHdr) (commit : Bool)
  /-- TXN_VOTE_RX (R392): A node merges a child's vote and, when complete, sends its own vote or the Crown decides. -/
  | txnVoteRx (fromDie : Bool) (p : Nat) (body : List Nat)
  /-- VOTE_DEADLINE (R392): At a node's vote deadline silent children count as TIMEOUT and the vote is sent. -/
  | voteDeadline (txn : Nat)
  /-- DECIDE_DEADLINE (R393): At C minus TXN_DECIDE_US with any row unvoted, the Crown decides ABORT. -/
  | decideDeadline (txn : Nat)
  /-- COMMIT_INSTANT (R394): At C each participant holding COMMIT applies staged fields, swaps banks and advances the epoch, or goes in doubt. -/
  | commitInstant (sd : Side)
  /-- TXN_IDLE_TIMEOUT (R391): An open transaction without a command for TXN_IDLE_MS is rolled back. -/
  | txnIdleTimeout (txn : Nat)
  /-- WATCHDOG_EXPIRY (R397): A wait exceeding TXN_WDOG_MS aborts the youngest transaction involved or refuses the waiting command. -/
  | watchdogExpiry (sd : Side)
  /-- LOCK_ACQUIRE (R398): The command grants, queues or refuses a hardware lock. -/
  | lockAcquire (h : CmdHdr) (idx waitMs : Nat)
  /-- LOCK_RELEASE (R399): The command releases a lock by its holder, or as abandoned with FORCE. -/
  | lockRelease (h : CmdHdr) (idx : Nat) (force : Bool)
  /-- LOCK_QUERY (R398): The command returns a lock's state. -/
  | lockQuery (h : CmdHdr) (idx : Nat)
  /-- LOCK_WAIT_TIMEOUT (R399): A waiting acquire is refused with LOCK_TIMEOUT after WAIT_MS. -/
  | lockWaitTimeout (idx : Nat)
  /-- MAINS_ANN (R67): The command carries a mains announcement down the tree to every node and ITU. -/
  | mainsAnn (sd : Side) (h : CmdHdr) (a : Ann)
  /-- ADMIT_SET (R201): The command sets an ITU class bucket's rate and burst. -/
  | admitSet (h : CmdHdr) (c rate burst : Nat)
  /-- ADMIT_GET (R201): The command returns an ITU class bucket's rate, burst and level. -/
  | admitGet (h : CmdHdr) (c : Nat)
  /-- HALT (R407): The instruction stops the context with cause HALT. -/
  | halt (sd : Side) (c : Nat)
  /-- NOP_INSTR (R407): The stitch NOP instruction does nothing. -/
  | nopInstr (sd : Side) (c : Nat)
  /-- LDI (R407): The instruction loads a sign-extended immediate. -/
  | ldi (sd : Side) (c : Nat)
  /-- LDH (R407): The instruction shifts a register left 16 and ors in an immediate. -/
  | ldh (sd : Side) (c : Nat)
  /-- ADD (R407): The instruction adds two registers. -/
  | add (sd : Side) (c : Nat)
  /-- SUB (R407): The instruction subtracts two registers. -/
  | sub (sd : Side) (c : Nat)
  /-- AND (R407): The instruction ands two registers. -/
  | and (sd : Side) (c : Nat)
  /-- OR (R407): The instruction ors two registers. -/
  | or (sd : Side) (c : Nat)
  /-- XOR (R407): The instruction exclusive-ors two registers. -/
  | xor (sd : Side) (c : Nat)
  /-- SHL (R407): The instruction shifts left. -/
  | shl (sd : Side) (c : Nat)
  /-- SHR (R407): The instruction shifts logically right. -/
  | shr (sd : Side) (c : Nat)
  /-- SRA (R407): The instruction shifts arithmetically right. -/
  | sra (sd : Side) (c : Nat)
  /-- MUL (R407): The instruction multiplies, keeping the low 64 bits. -/
  | mul (sd : Side) (c : Nat)
  /-- ADDI (R407): The instruction adds a sign-extended immediate. -/
  | addi (sd : Side) (c : Nat)
  /-- SLT (R407): The instruction sets 1 on signed less-than. -/
  | slt (sd : Side) (c : Nat)
  /-- SLTU (R407): The instruction sets 1 on unsigned less-than. -/
  | sltu (sd : Side) (c : Nat)
  /-- FADD (R407): The instruction adds in FP32. -/
  | fadd (sd : Side) (c : Nat)
  /-- FSUB (R407): The instruction subtracts in FP32. -/
  | fsub (sd : Side) (c : Nat)
  /-- FMUL (R407): The instruction multiplies in FP32. -/
  | fmul (sd : Side) (c : Nat)
  /-- FDIV (R407): The instruction divides in FP32. -/
  | fdiv (sd : Side) (c : Nat)
  /-- FMIN (R407): The instruction takes the FP32 minimumNumber. -/
  | fmin (sd : Side) (c : Nat)
  /-- FMAX (R407): The instruction takes the FP32 maximumNumber. -/
  | fmax (sd : Side) (c : Nat)
  /-- FCVT (R407): The instruction converts s64 to FP32. -/
  | fcvt (sd : Side) (c : Nat)
  /-- FTOI (R407): The instruction converts FP32 to s64, truncated and saturated. -/
  | ftoi (sd : Side) (c : Nat)
  /-- BEQ (R407): The instruction branches if equal. -/
  | beq (sd : Side) (c : Nat)
  /-- BNE (R407): The instruction branches if not equal. -/
  | bne (sd : Side) (c : Nat)
  /-- BLT (R407): The instruction branches if signed less. -/
  | blt (sd : Side) (c : Nat)
  /-- JMP (R407): The instruction jumps by a sign-extended offset. -/
  | jmp (sd : Side) (c : Nat)
  /-- LD (R407): The instruction loads a local memory word. -/
  | ld (sd : Side) (c : Nat)
  /-- ST (R407): The instruction stores a local memory word. -/
  | st (sd : Side) (c : Nat)
  /-- SRD (R412): The instruction reads and empties a slot buffer, stalling until full or timeout. -/
  | srd (sd : Side) (c : Nat)
  /-- SWR (R412): The instruction fills a slot buffer, dropping or stalling when full. -/
  | swr (sd : Side) (c : Nat)
  /-- SLOT_WAIT_TIMEOUT (R412): A context stalled on a slot buffer completes with EMPTY_TO or FULL_TO at the slot's timeout. -/
  | slotWaitTimeout (sd : Side) (c : Nat)
  /-- WAITS (R410): The instruction waits for a matching slot boundary. -/
  | waits (sd : Side) (c : Nat)
  /-- WAITS_RELEASE (R410): A waiting context is released after the matching boundary's latch and LATCH is set. -/
  | waitsRelease (sd : Side) (c : Nat)
  /-- WAITT (R411): The instruction waits until local time reaches a target, or completes LATE or WAIT_TO. -/
  | waitt (sd : Side) (c : Nat)
  /-- WAITT_RELEASE (R411): The local time reaches a WAITT target and the context resumes. -/
  | waittRelease (sd : Side) (c : Nat)
  /-- RDC (R408): The instruction reads a latched or live counter. -/
  | rdc (c : Nat)
  /-- RDT (R407): The instruction reads a tracker word as TRK_SNAP does. -/
  | rdt (c : Nat)
  /-- RDW (R407): The instruction reads a register word under the context's authority. -/
  | rdw (sd : Side) (c : Nat)
  /-- SYS (R408): The instruction reads a selected system value. -/
  | sys (sd : Side) (c : Nat)
  /-- CRC (R408): The instruction selects, feeds or reads an ITU CRC unit. -/
  | crc (c : Nat)
  /-- PUTV (R414): The instruction publishes an FP32 value on a channel for the latch, as a record or into Tray cells. -/
  | putv (sd : Side) (c : Nat)
  /-- EMIT (R415): The instruction makes a record from local memory. -/
  | emit (sd : Side) (c : Nat)
  /-- BUDGET_REFILL (R409): While R52 fails, a context's instruction budget refills every 260,000 ns. -/
  | budgetRefill (sd : Side) (c : Nat)
  /-- STITCH_PUT (R419): The command writes image bytes into a Lamulo's stitch image store. -/
  | stitchPut (h : CmdHdr) (off : Nat) (bs : List Nat)
  /-- STITCH_LOAD (R419): The command verifies an image and loads a context's program and memory, optionally starting it. -/
  | stitchLoad (h : CmdHdr) (c : Nat) (isLam start : Bool) (off : Nat)
  /-- STITCH_START (R404): The command starts a context at ENTRY with registers cleared. -/
  | stitchStart (h : CmdHdr) (c : Nat) (isLam : Bool)
  /-- STITCH_STOP (R404): The command stops a context with cause STOP. -/
  | stitchStop (h : CmdHdr) (c : Nat) (isLam : Bool)
  /-- SLOT_WRITE (R413): The command fills an empty slot buffer or answers STC_SLOT_FULL. -/
  | slotWrite (h : CmdHdr) (n : Nat) (isLam : Bool) (v : Nat)
  /-- SLOT_READ (R413): The command empties a full slot buffer or answers STC_SLOT_EMPTY. -/
  | slotRead (h : CmdHdr) (n : Nat) (isLam : Bool)
  /-- STITCH_QUERY (R420): The command returns a context's status. -/
  | stitchQuery (h : CmdHdr) (c : Nat) (isLam : Bool)
  /-- STC_CTL_STOP (R421): A write of a stop bit stops the named context with cause STOP. -/
  | stcCtlStop (sd : Side) (iss : Issuer) (mask : Nat)
  /-- STC_CTL_ENABLE_WRITE (R424): Clearing the Lamulo stitch enable stops every context with cause DISABLED. -/
  | stcCtlEnableWrite (iss : Issuer) (v : Bool)
  /-- SLOT_DATA_LO_READ (R413): A register read of SLOT_DATA_LO pops a full slot and latches the high word. -/
  | slotDataLoRead (sd : Side) (iss : Issuer) (n : Nat)
  /-- SLOT_DATA_HI_WRITE (R413): A write of SLOT_DATA_HI completes the held write and fills an empty slot. -/
  | slotDataHiWrite (sd : Side) (iss : Issuer) (n data : Nat)
  /-- COMPRESS_DESCRIPTOR (R427): The engine takes a compress descriptor and encodes its input into VLZ blocks. -/
  | compressDescriptor (r n : Nat)
  /-- DECOMPRESS_DESCRIPTOR (R426): The engine takes a decompress descriptor and decodes VLZ blocks within the output limits. -/
  | decompressDescriptor (r n : Nat)
  /-- CMP_CTL_ENABLE_WRITE (R444): Clearing CMP_CTL.ENABLE aborts running descriptors; setting it serves the rings. -/
  | cmpCtlEnableWrite (iss : Issuer) (v : Bool)
  /-- REC_CTL_ENABLE_WRITE (R441): Setting REC_CTL.ENABLE starts the boot scan of the recorder region. -/
  | recCtlEnableWrite (iss : Issuer) (v : Bool)
  /-- REC_CTL_FLUSH (R434): A write of REC_CTL.FLUSH starts a flush. -/
  | recCtlFlush (iss : Issuer)
  /-- REC_READ (R442): The command returns bytes of the recorder region. -/
  | recRead (h : CmdHdr) (off n : Nat)
  /-- REC_FREEZE (R439): The command freezes or releases the recorder. -/
  | recFreeze (h : CmdHdr) (on : Bool)
  /-- REC_FLUSH (R434): The command starts a recorder flush. -/
  | recFlush (h : CmdHdr)
  /-- REC_CLEAR (R440): The command starts a new log and erases every log sector. -/
  | recClear (h : CmdHdr)
  /-- REC_NOTE (R442): The command appends a NOTE record, optionally flushing. -/
  | recNote (h : CmdHdr) (flush : Bool) (text : List Nat)
  /-- POR_N_RISE (R453): The rise of POR_N samples the straps and runs the boot ROM to select and start a boot image. -/
  | porNRise (role : Nat) (standby prov bootAlt : Bool)
  /-- PD_CTL_WRITE (R451): A write of PD_CTL switches Lamulo domains one at a time, refusing those that break their conditions. -/
  | pdCtlWrite (iss : Issuer) (v : Nat)
  /-- PFW_ASSERT (R466): A PFW channel asserts and the monitor declares power failure or waits for the other channel. -/
  | pfwAssert (b : Bool)
  /-- DDR_CTL_ENABLE (R459): Setting DDR_CTL.ENABLE trains every channel in use. -/
  | ddrCtlEnable (iss : Issuer) (v : Bool)
  /-- DDR_READ (R460): A DDR read is corrected, marked poisoned or returned poisoned by its ECC outcome. -/
  | ddrRead (line : Nat) (e : Ecc)
  /-- LAM_POS_WRITE (R449): A write of LAM_POS sets the node's position while every port is idle. -/
  | lamPosWrite (iss : Issuer) (row rack tray : Nat)
  /-- COUNTER_INCREMENT (R98): On every itu_clk cycle with COUNTERS enabled, each counter adds the tap class, stall reason or event line it selects. -/
  | counterIncrement (taps : List (Nat × Nat)) (evts : List Nat) (n : Nat)
  /-- TIME_CLOCK_TICK (R44): On every time-clock tick the local clock adds TIME_INCR to its 96-bit nanosecond value. -/
  | timeClockTick (sd : Side) (n : Nat)
  /-- REGISTER_READ (R12): A read of an RC field clears it, or a read of a read-first word latches the value's other words, as its access code states. -/
  | registerRead (sd : Side) (iss : Issuer) (addr : Nat)
  /-- PFW_DEASSERT (R466): A PFW channel deasserts, and a lone assertion that ends within D is ignored and counted in PFW_CNT_DISC. -/
  | pfwDeassert (b : Bool)
  /-- CHILD_PORT_LOSS (R370): A parent loses signal or liveness on a child port, answers unacknowledged CMD frames with LINK_DOWN and strands the child's HELD. -/
  | childPortLoss (p : Nat) (signal : Bool)
  /-- READ_LATCH_EXPIRY (R386): A multi-word read latch is released 1 us after it was taken. -/
  | readLatchExpiry (path : Path)
  /-- TRACE_WRITE_ERROR (R139): A trace write returning error, poison or timeout stops the partition's trace and sets WERR. -/
  | traceWriteError (p : Nat) (status : MemStatus)
  /-- TRAIN_TIMEOUT (R183): 50 ms in TRAIN without lock returns the link to DOWN. -/
  | trainTimeout (sd : Side) (q : Nat)
  /-- NEGOTIATE_TIMEOUT (R186): 10 ms in NEGOTIATE without agreement takes the link to DOWN with CAUSE 7. -/
  | negotiateTimeout (sd : Side) (q : Nat)
  /-- ALIGN_RX (R166): An ALIGN block is used to deskew the lanes, the link falling on excess skew or missing pairs. -/
  | alignRx (sd : Side) (q skew : Nat) (paired : Bool)
  /-- TIME_EXCHANGE_VOID (R181): An exchange not complete 200 us after its SYNC is void and counted. -/
  | timeExchangeVoid (sd : Side) (q : Nat)
  /-- MARGIN_SWEEP (R188): Every margin period the eye values are stored, the peer's read, and a MARGIN record emitted on a fall below minimum. -/
  | marginSweep (q : Nat) (own peer : List (Nat × Nat))
  /-- FAULT_INJECTION (R189): At the injection slot of every nth MC the next enabled port receives the selected fault, or the injection is skipped. -/
  | faultInjection (testing : List Nat)
  /-- INJECTION_END (R189): After the injection duration, withheld credit or a squelched lane is restored. -/
  | injectionEnd (q : Nat)
  /-- PENDING_EXPIRY (R232): A pending barrier entry with no BAR_REF within DET_HOLD_MS is discarded. -/
  | pendingExpiry (q : Nat)
  /-- RETEST_ABANDON (R333): A retest not complete within RETEST_STEPS of its first launch is abandoned and falls due again. -/
  | retestAbandon (q : Nat)
  /-- STRAND_EXPIRY (R346): A lost child's HELD stops being counted after STRAND_MC cycles. -/
  | strandExpiry (c : Nat)
  /-- PAUSE_FRAME_RX (R361): A received PAUSE or PFC frame is discarded and counted. -/
  | pauseFrameRx (p : Nat)
  /-- CMP_RING_FLUSH (R428): A write of FLUSH ends the current compress block at the input consumed. -/
  | cmpRingFlush (iss : Issuer) (r : Nat)
  /-- CMP_RING_ABORT (R429): A write of ABORT ends the ring's running descriptor ABORTED. -/
  | cmpRingAbort (iss : Issuer) (r : Nat)
  /-- UNIT_COMMIT (R435): When every program of a unit succeeds, its COMMIT byte is programmed. -/
  | unitCommit (ok : Bool)
  /-- NOR_ERASE_DONE (R440): A sector erase completes and its header and journal DONE are written. -/
  | norEraseDone (ok : Bool)
  /-- LAM_BOOT_CMD_RUN (R456): In RECOVERY a write of RUN checks and starts the host-supplied image. -/
  | lamBootCmdRun (iss : Issuer)
  /-- THERMAL_TRIP (R468): Above 110 C THERM_TRIP_N falls, a FAULT is flushed and domains other than D0 to D2 switch off. -/
  | thermalTrip (temp : Nat)
  /-- DDR_PARTIAL_WRITE (R461): A partial-line write is made by read, merge and write with its ECC outcome. -/
  | ddrPartialWrite (line off : Nat) (bs : List Nat) (e : Ecc)
  /-- PATROL_SCRUB (R462): The patrol scrub reads a line and writes it back corrected unless a write intervened. -/
  | patrolScrub (line : Nat) (e : Ecc) (intervened last : Bool)
  /-- BAR2_ACCESS (R464): A PCIe access through BAR2 reaches DDR or reads zero and counts as bad. -/
  | bar2Access (write : Bool) (off n : Nat) (bs : List Nat)
  /-- KEY_PROG_GO (R457): A write of GO programs a key slot from KEY_PROG_DATA when permitted. -/
  | keyProgGo (iss : Issuer) (slot : Nat)
  /-- KEY_REVOKE_WRITE (R457): A FLEET write sets revoke bits irreversibly. -/
  | keyRevokeWrite (iss : Issuer) (v : Nat)
  /-- WRITE_HOLD_EXPIRY (R387): A held low word of a multi-word RW write is discarded 1 us after it was written. -/
  | writeHoldExpiry (path : Path)
  /-- CORE_WDOG (R469): A control core watchdog expires, a FAULT record is written with a flush, and BOARD_EVENT follows after the restart. -/
  | coreWdog (core : Nat)
  /-- DDR_TRAINING_DONE (R459): Channel training ends and DDR_STAT.TRAINED sets the bit of each channel that succeeded. -/
  | ddrTrainingDone (mask : Nat)
  /-- RETIRING_BANK_RELEASE (R29): One mains cycle after a commit, the retiring bank of a double-banked table is released and its shadow becomes writable. -/
  | retiringBankRelease
  /-- MAINS_HOLDOVER_ENTRY (R72): No accepted edge for three periods puts the Crown's mains capture into HOLDOVER with an alarm. -/
  | mainsHoldoverEntry
  /-- CROWN_TAKEOVER (R71): The standby Crown takes over, continuing the announced chain and rolling back undecided transactions. -/
  | crownTakeover
  /-- ITU_RESET (R80): Assertion of itu_rst_n resets the whole ITU, and its release samples the straps. -/
  | ituReset
  /-- PWR_STALE_TIMEOUT (R91): No power measurement for 30 us sets PWR_STALE, raises an alarm and freezes the band. -/
  | pwrStaleTimeout
  /-- ROW_REQUEST_ISSUE (R127): The ITU issues the next row request once the previous row is done and the row buffer has room. -/
  | rowRequestIssue
  /-- ROW_TIMEOUT (R127): A row not returned within 2 us is recorded as MISSING. -/
  | rowTimeout
  /-- QSCAN_TIMEOUT (R119): 64 us after qscan_req rises without qscan_last, the scan closes as PARTIAL. -/
  | qscanTimeout
  /-- CANARY_TIMEOUT (R323): A canary tile without its last output beat within 500 us ends INCOMPLETE. -/
  | canaryTimeout
  /-- SR_TIMEOUT (R325): A save or restore not acknowledged within 50 us ends the slice SKIPPED. -/
  | srTimeout
  /-- VISOR_RECORD_EMIT (R123): A Visor summary or descriptor record is offered to admission once its class bucket holds credit. -/
  | visorRecordEmit
  /-- ADV_ALL_HELD_RELEASE (R159): A held ADV_ALL advances every partition at the first instant all meet the 16 ms gap. -/
  | advAllHeldRelease
  /-- MAINS_CELL_RESEND (R182): 1 ms after sending a MAINS cell the Tray Lamulo sends it again. -/
  | mainsCellResend
  /-- DIG_WINDOW_OPEN (R303): An armed window opens at the next slot boundary where R52 holds, recording keys, range and generation. -/
  | digWindowOpen
  /-- DIG_WINDOW_CLOSE (R305): A window closes with its result when every run is digested or an error, reset or abort occurs. -/
  | digWindowClose
  /-- DIG_SHARD_EMIT (R306): A closed window's DIG_SHARD is offered to admission from the digest store, held under reset until RUN. -/
  | digShardEmit
  /-- SLICE_POWER_READY (R325): At the first slot boundary after the full test raise stands, the slice leaves WAIT_POWER for SAVE. -/
  | slicePowerReady
  /-- SLICE_POWER_TIMEOUT (R325): A slice still in WAIT_POWER after GNT_WAIT_MC cycles ends SKIPPED POWER. -/
  | slicePowerTimeout
  /-- FILL_WAIT_TIMEOUT (R344): 4 ms after the MC start with no fill, the node divides what it holds. -/
  | fillWaitTimeout
  /-- LDG_DIE_REPORT_EMIT (R355): Every REPORT_MC cycles the ITU emits its energy and token report. -/
  | ldgDieReportEmit
  /-- FAILBACK (R372): After EGR_FAILBACK_MS of primary liveness the child returns to its primary, or the failback is refused. -/
  | failback
  /-- REPLY_RING_WRITE (R400): A reply to a PCIe-origin packet is written into the reply ring when a slot is free, with MSI-X. -/
  | replyRingWrite
  /-- RECORDER_RECORD_ENTRY (R434): A recorder record enters the buffer and takes its SEQ, or is lost. -/
  | recorderRecordEntry
  /-- RECORDER_FLUSH_START (R434): A flush begins writing every unwritten buffered record as units. -/
  | recorderFlushStart
  /-- REC_FREEZE_TIMEOUT (R439): A freeze ends after REC_FREEZE_MS and recording resumes with a LOST record. -/
  | recFreezeTimeout
  /-- DOMAIN_SWITCH_DONE (R451): After its 20 us ramp a domain's isolation is released, its logic reset and PD_STAT set. -/
  | domainSwitchDone
  /-- PFW_DISCREPANCY_TIMEOUT (R466): D after one channel asserts alone, power failure is declared and the other channel latched faulty. -/
  | pfwDiscrepancyTimeout
  /-- PFW_CLEAR (R467): Both channels deasserted for CLEAR_MS clears the declaration. -/
  | pfwClear
  /-- PERST_N (R463): PERST_N resets the PCIe endpoint alone. -/
  | perstN
  /-- POR_N_ASSERT (R453): POR_N falls and the whole Lamulo returns to reset, losing its state until the next rise. -/
  | porNAssert
  /-- FAILBACK_ACK_TIMEOUT (R372): 2 ms after failback begins, frames still unacknowledged on the secondary are resent on the primary and the change completes. -/
  | failbackAckTimeout
deriving DecidableEq, Repr

end Sys2Proof
end

