-- ==== Sys2Proof/WellFormed.lean ====
section
/-! DEFINITION. Well-formed commands: every operand within the width that the manual gives the field it stands for. -/

namespace Sys2Proof

open Sys2Proof.Machine

/-- Every value lies below its bound. -/
def within (l : List (Nat × Nat)) : Bool := l.all fun x => decide (x.1 < x.2)

/-- Words of 32 bits. -/
def wordsOk (l : List Nat) : Bool := l.all fun w => decide (w < 2 ^ 32)

/-- Bytes. -/
def bytesOk (l : List Nat) : Bool := l.all fun b => decide (b < 256)

/-- A PARTITION issuer's partition is one of 16 (R3). -/
def issOk (i : Issuer) : Bool := decide (i.part < 16)

/-- Fields of a command packet's header (R377). -/
def hdrOk (h : CmdHdr) : Bool :=
  within [(h.pver, 16), (h.opcode, 256), (h.len16, 256), (h.auth, 4), (h.amode, 8), (h.target, 2 ^ 21), (h.epoch, 2 ^ 16), (h.cmdId, 2 ^ 16),
    (h.origin, 2 ^ 19), (h.issuer, 16), (h.txn, 2 ^ 24), (h.ownerDie, 2 ^ 17), (h.ownerPart, 16), (h.ownerGen, 256), (h.issue, 2 ^ 32),
    (h.tagSeq, 2 ^ 32), (h.tag, 2 ^ 64), (h.resolved, 2 ^ 17)]

/-- Fields of a record (R193). -/
def recOk (r : Rec) : Bool :=
  within [(r.fmt, 16), (r.cls, 4), (r.typ, 2 ^ 10), (r.len, 256), (r.alive, 256), (r.die, 2 ^ 17), (r.part, 16), (r.gen, 256), (r.seq, 2 ^ 32),
    (r.short, 2 ^ 32), (r.trailer, 2 ^ 32)] && wordsOk r.body

/-- Fields of a forwarding envelope (R198). -/
def envOk (e : Env) : Bool :=
  within [(e.rank, 2 ^ 15), (e.job, 64), (e.cohort, 128), (e.srcRole, 8), (e.replica, 16), (e.epoch, 2 ^ 16), (e.fmt, 16), (e.ftHi, 2 ^ 32),
    (e.hopT, 2 ^ 16), (e.hopK, 2 ^ 16), (e.hopW, 2 ^ 16), (e.crc, 2 ^ 32)]

/-- Fields of a mains announcement (R67). -/
def annOk (a : Ann) : Bool := within [(a.mc, 2 ^ 48), (a.start, 2 ^ 96), (a.length, 2 ^ 64), (a.flags, 256)]

/-- Items of a frame. -/
def itemOk : Item → Bool
  | .fwd e r => envOk e && recOk r
  | .rcd r => recOk r
  | .cmd p => hdrOk p.hdr && wordsOk p.params
  | .ledger ws => wordsOk ws
  | .mains a => annOk a

/-- Fields of a Vaosh frame (R360). -/
def frameOk (f : Frame) : Bool :=
  within [(f.chan, 16), (f.colour, 4), (f.fseq, 2 ^ 16), (f.src, 2 ^ 19), (f.items.length, 256)] && f.items.all itemOk

/-- A well-formed command. -/
def Instr.wf : Instr → Bool
  | .registerWrite _ iss addr data strb => within [(addr, 2 ^ 28), (data, 2 ^ 32), (strb, 16)] && issOk iss
  | .slotBoundary _ => true
  | .mcStart _ polls => polls.all (fun x => decide (x.1 < 16) && wordsOk x.2)
  | .timeIncrHiWrite _ iss data => within [(data, 2 ^ 32)] && issOk iss
  | .timeCtlEnableWrite _ iss _ => issOk iss
  | .timeCtlRearm _ iss => issOk iss
  | .sourceLost _ => true
  | .holdoverDegraded _ => true
  | .ptpMessageRx port _ => within [(port, 24)]
  | .ptpSyncTx port t f => within [(port, 24), (t, 2 ^ 64), (f, 2 ^ 32)]
  | .ptpDelayReqTx port t f => within [(port, 24), (t, 2 ^ 64), (f, 2 ^ 32)]
  | .portSettleEnd port => within [(port, 24)]
  | .mzcEdge t => within [(t, 2 ^ 64)]
  | .annLost _ => true
  | .conservativeEntry _ => true
  | .mainsCtlEnableWrite iss _ => issOk iss
  | .ituPdCtlWrite iss v => within [(v, 2 ^ 32)] && issOk iss
  | .pdSwAck n _ => within [(n, 8)]
  | .pdSwAckTimeout n => within [(n, 8)]
  | .ituFnEnWrite iss v => within [(v, 2 ^ 32)] && issOk iss
  | .pwrMeasPulse w temp => within [(w, 2 ^ 16), (temp, 2 ^ 10)]
  | .ituClkMeasure _ => true
  | .barrierEvent _ part coll => within [(part, 16), (coll, 2 ^ 16)]
  | .barEntryTimeout part coll => within [(part, 16), (coll, 2 ^ 16)]
  | .memResponse tag gen _ data _ => within [(tag, 64), (gen, 256)] && wordsOk data
  | .memTimeout tag => within [(tag, 64)]
  | .rowResponse data _ => wordsOk data
  | .qscanDescriptor desc _ => within [(desc, 2 ^ 64)]
  | .canaryOutputBeat data _ => within [(data, 2 ^ 64)]
  | .srAck _ => true
  | .quiesceAck p => within [(p, 16)]
  | .quiesceTimeout p => within [(p, 16)]
  | .partRstDone p => within [(p, 16)]
  | .resetTimeout p => within [(p, 16)]
  | .counterSelectWrite iss sel data => within [(sel, 2 ^ 12), (data, 2 ^ 32)] && issOk iss
  | .smpCtlClear iss => issOk iss
  | .smpCtlRunWrite iss _ => issOk iss
  | .recordHandover vc => within [(vc, 8)]
  | .smpRdLoRead iss => issOk iss
  | .virtualHeadArrival j _ => within [(j, 2 ^ 17)]
  | .trkSnapCmdWrite iss idx => within [(idx, 2 ^ 18)] && issOk iss
  | .trkAssign h tracker die counter _ => within [(tracker, 2 ^ 21), (die, 2 ^ 17), (counter, 2 ^ 12)] && hdrOk h
  | .visCtlTrig iss part => within [(part, 16)] && issOk iss
  | .visorSnap h p _ _ => within [(p, 16)] && hdrOk h
  | .visCtlRelease iss => issOk iss
  | .visRdData0Read iss => issOk iss
  | .rowCtlTrig iss part => within [(part, 16)] && issOk iss
  | .rowSample h p first count stride => within [(p, 16), (first, 2 ^ 24), (count, 2 ^ 11), (stride, 2 ^ 16)] && hdrOk h
  | .tracePacketCapture _ _ _ => true
  | .traceChunkWrite p tag => within [(p, 16), (tag, 64)]
  | .trcPctlFlush iss p => within [(p, 16)] && issOk iss
  | .trcPctlEnWrite iss p _ => within [(p, 16)] && issOk iss
  | .trcMarkWrite iss p v => within [(p, 16), (v, 2 ^ 32)] && issOk iss
  | .partCtlReset iss p => within [(p, 16)] && issOk iss
  | .partReset h p => within [(p, 16)] && hdrOk h
  | .resetTriggerRelease p => within [(p, 16)]
  | .captureEnd p => within [(p, 16)]
  | .captureTimeout p => within [(p, 16)]
  | .generationAdvance p => within [(p, 16)]
  | .prevGenRelease q p => within [(q, 16), (p, 16)]
  | .partCtlAdvAll iss => issOk iss
  | .rejoinStep q _ => within [(q, 16)]
  | .rejoinTimeout q => within [(q, 16)]
  | .rejoinGrant h q _ => within [(q.getD 0, 16)] && hdrOk h
  | .genNotice h _ id part gen => within [(id, 2 ^ 19), (part, 16), (gen, 256)] && hdrOk h
  | .epochSync h ws => hdrOk h && wordsOk ws
  | .linkTrainStart _ q => within [(q, 16)]
  | .blockLockAcquired _ q => within [(q, 16)]
  | .settleEnd _ q => within [(q, 16)]
  | .helloRx _ q ver maxFmt minFmt checks => within [(q, 16), (ver, 256), (maxFmt, 256), (minFmt, 256), (checks, 2 ^ 16)]
  | .readyRx _ q fmt check _ _ => within [(q, 16), (fmt, 256), (check, 256)]
  | .lossOfSignal _ q lane => within [(q, 16), (lane, 16)]
  | .blockLockLoss _ q lane => within [(q, 16), (lane, 16)]
  | .noValidBlockTimeout _ q => within [(q, 16)]
  | .lnkCtlRetrain iss q => within [(q, 16)] && issOk iss
  | .ilnkCtlRetrain iss => issOk iss
  | .lnkCtlEnableWrite iss q _ => within [(q, 16)] && issOk iss
  | .cellRx _ q octets _ => within [(q, 16)] && bytesOk octets
  | .nakRx _ q cseq => within [(q, 16), (cseq, 2 ^ 16)]
  | .ackRx _ q cseq => within [(q, 16), (cseq, 2 ^ 16)]
  | .creditRx _ q vc freed => within [(q, 16), (vc, 8), (freed, 2 ^ 32)]
  | .cellTx _ q => within [(q, 16)]
  | .linkBlockTx _ q kind vc => within [(q, 16), (kind, 16), (vc, 8)]
  | .recordArrivalIkl q r => within [(q, 16)] && recOk r
  | .timeSyncTx q t f => within [(q, 16), (t, 2 ^ 64), (f, 2 ^ 32)]
  | .timeSyncRx exch t1 f1 asym t2 f2 t3 f3 =>
    within [(exch, 256), (t1, 2 ^ 64), (f1, 2 ^ 32), (asym, 2 ^ 32), (t2, 2 ^ 64), (f2, 2 ^ 32), (t3, 2 ^ 64), (f3, 2 ^ 32)]
  | .timeDreqRx q exch t4 f4 => within [(q, 16), (exch, 256), (t4, 2 ^ 64), (f4, 2 ^ 32)]
  | .timeDrespRx exch t4 f4 => within [(exch, 256), (t4, 2 ^ 64), (f4, 2 ^ 32)]
  | .mainsCellRx a => annOk a
  | .crcSelWrite _ iss u v => within [(u, 2), (v, 2 ^ 32)] && issOk iss
  | .crcDataWrite _ iss u data strb => within [(u, 2), (data, 2 ^ 32), (strb, 16)] && issOk iss
  | .recordArrivalUplink p e r => within [(p, 24)] && envOk e && recOk r
  | .partialArrival e r _ => envOk e && recOk r
  | .statCellClose spec gid t _ _ => within [(spec, 512), (gid, 2 ^ 32), (t, 2 ^ 64)]
  | .barPartialArrival e r => envOk e && recOk r
  | .barrierCellClose cohort coll => within [(cohort, 128), (coll, 2 ^ 16)]
  | .barRef h words => hdrOk h && wordsOk words
  | .qref h words => hdrOk h && wordsOk words
  | .stragVerdictRepeat q => within [(q, 16)]
  | .forestPassStart slot => within [(slot, 64)]
  | .forestSegmentEnd slot _ => within [(slot, 64)]
  | .forestPassEnd slot => within [(slot, 64)]
  | .vectorAgeOut slot => within [(slot, 64)]
  | .forestFault slot kind => within [(slot, 64), (kind, 16)]
  | .fstResumeWrite iss v => within [(v, 2 ^ 32)] && issOk iss
  | .fstCtlQuartersWrite iss v => within [(v, 2 ^ 32)] && issOk iss
  | .forestLoad h slot base len => within [(slot, 64), (base, 2 ^ 64), (len, 2 ^ 64)] && hdrOk h
  | .forestLoadDone slot _ => within [(slot, 64)]
  | .forestUnload h slot => within [(slot, 64)] && hdrOk h
  | .forestBankRelease slot => within [(slot, 64)]
  | .bankSwap h obj slot => within [(obj, 2), (slot, 64)] && hdrOk h
  | .digStepWrite iss step => within [(step, 2 ^ 32)] && issOk iss
  | .digUnstableWrite iss => issOk iss
  | .digCtlAbort iss => issOk iss
  | .digPartialArrival e r => envOk e && recOk r
  | .digestCellClose cohort replica step lo hi => within [(cohort, 128), (replica, 16), (step, 2 ^ 32), (lo, 2 ^ 32), (hi, 2 ^ 32)]
  | .digestCompare cohort step lo hi => within [(cohort, 128), (step, 2 ^ 32), (lo, 2 ^ 32), (hi, 2 ^ 32)]
  | .gauntletLoad h base len => within [(base, 2 ^ 64), (len, 2 ^ 64)] && hdrOk h
  | .gntPush h off len bs => within [(off, 2 ^ 32), (len, 2 ^ 64)] && hdrOk h && bytesOk bs
  | .packageCheckDone _ => true
  | .gntStage h off bs => within [(off, 2 ^ 32)] && hdrOk h && bytesOk bs
  | .gntRun h item pkg load _ entry => within [(item, 2 ^ 12), (pkg, 2 ^ 16), (load, 16)] && hdrOk h && wordsOk entry
  | .slicePatternEnd wso => wso.all wordsOk
  | .sliceOvertime wso => wso.all wordsOk
  | .gntCtlAbort iss wso => issOk iss && wso.all wordsOk
  | .gntSuspect h port entry => within [(port, 16)] && hdrOk h && wordsOk entry
  | .suspectSet h tbin load => within [(tbin, 64), (load, 16)] && hdrOk h
  | .suspectClear h => hdrOk h
  | .ldgGrantRx ws => wordsOk ws
  | .ldgReportRx q ws => within [(q, 16)] && wordsOk ws
  | .ldgFillRx ws => wordsOk ws
  | .ldgSumRx p ws => within [(p, 24)] && wordsOk ws
  | .ldgCtlFreeze iss _ => issOk iss
  | .ethFrameRx p f _ => within [(p, 24)] && frameOk f
  | .ethLinkFrameRx p f => within [(p, 24)] && frameOk f
  | .ethFrameTx p => within [(p, 24)]
  | .ethLinkFrameTx p => within [(p, 24)]
  | .gateEntryChange p => within [(p, 24)]
  | .parentLos p => within [(p, 24)]
  | .livenessTimeout p => within [(p, 24)]
  | .parentSet h _ => hdrOk h
  | .parentChangeRx p r => within [(p, 24)] && recOk r
  | .commandPacketRx _ _ ws => wordsOk ws
  | .cmdReplyRx _ p body => within [(p, 24)] && wordsOk body
  | .cmdMergeTimeout origin issuer cmdId => within [(origin, 2 ^ 19), (issuer, 16), (cmdId, 2 ^ 16)]
  | .cmdqTailWrite iss v => within [(v, 2 ^ 32)] && issOk iss
  | .nop _ h => hdrOk h
  | .regRead _ h space addr count => within [(space, 4), (addr, 2 ^ 28), (count, 32)] && hdrOk h
  | .regWrite _ h space addr count strb data => within [(space, 4), (addr, 2 ^ 28), (count, 32), (strb, 2 ^ 64)] && hdrOk h && wordsOk data
  | .txnBegin h _ => hdrOk h
  | .txnCommit h => hdrOk h
  | .txnAbort h => hdrOk h
  | .txnStatus h => hdrOk h
  | .txnPrepare _ h c mc => within [(c, 2 ^ 32), (mc, 2 ^ 32)] && hdrOk h
  | .txnDecide _ h _ => hdrOk h
  | .txnVoteRx _ p body => within [(p, 24)] && wordsOk body
  | .voteDeadline txn => within [(txn, 2 ^ 24)]
  | .decideDeadline txn => within [(txn, 2 ^ 24)]
  | .commitInstant _ => true
  | .txnIdleTimeout txn => within [(txn, 2 ^ 24)]
  | .watchdogExpiry _ => true
  | .lockAcquire h idx waitMs => within [(idx, 256), (waitMs, 2 ^ 10)] && hdrOk h
  | .lockRelease h idx _ => within [(idx, 256)] && hdrOk h
  | .lockQuery h idx => within [(idx, 256)] && hdrOk h
  | .lockWaitTimeout idx => within [(idx, 256)]
  | .mainsAnn _ h a => hdrOk h && annOk a
  | .admitSet h c rate burst => within [(c, 4), (rate, 2 ^ 32), (burst, 2 ^ 24)] && hdrOk h
  | .admitGet h c => within [(c, 4)] && hdrOk h
  | .halt _ c => within [(c, 32)]
  | .nopInstr _ c => within [(c, 32)]
  | .ldi _ c => within [(c, 32)]
  | .ldh _ c => within [(c, 32)]
  | .add _ c => within [(c, 32)]
  | .sub _ c => within [(c, 32)]
  | .and _ c => within [(c, 32)]
  | .or _ c => within [(c, 32)]
  | .xor _ c => within [(c, 32)]
  | .shl _ c => within [(c, 32)]
  | .shr _ c => within [(c, 32)]
  | .sra _ c => within [(c, 32)]
  | .mul _ c => within [(c, 32)]
  | .addi _ c => within [(c, 32)]
  | .slt _ c => within [(c, 32)]
  | .sltu _ c => within [(c, 32)]
  | .fadd _ c => within [(c, 32)]
  | .fsub _ c => within [(c, 32)]
  | .fmul _ c => within [(c, 32)]
  | .fdiv _ c => within [(c, 32)]
  | .fmin _ c => within [(c, 32)]
  | .fmax _ c => within [(c, 32)]
  | .fcvt _ c => within [(c, 32)]
  | .ftoi _ c => within [(c, 32)]
  | .beq _ c => within [(c, 32)]
  | .bne _ c => within [(c, 32)]
  | .blt _ c => within [(c, 32)]
  | .jmp _ c => within [(c, 32)]
  | .ld _ c => within [(c, 32)]
  | .st _ c => within [(c, 32)]
  | .srd _ c => within [(c, 32)]
  | .swr _ c => within [(c, 32)]
  | .slotWaitTimeout _ c => within [(c, 32)]
  | .waits _ c => within [(c, 32)]
  | .waitsRelease _ c => within [(c, 32)]
  | .waitt _ c => within [(c, 32)]
  | .waittRelease _ c => within [(c, 32)]
  | .rdc c => within [(c, 32)]
  | .rdt c => within [(c, 32)]
  | .rdw _ c => within [(c, 32)]
  | .sys _ c => within [(c, 32)]
  | .crc c => within [(c, 32)]
  | .putv _ c => within [(c, 32)]
  | .emit _ c => within [(c, 32)]
  | .budgetRefill _ c => within [(c, 32)]
  | .stitchPut h off bs => within [(off, 2 ^ 32)] && hdrOk h && bytesOk bs
  | .stitchLoad h c _ _ off => within [(c, 32), (off, 2 ^ 32)] && hdrOk h
  | .stitchStart h c _ => within [(c, 32)] && hdrOk h
  | .stitchStop h c _ => within [(c, 32)] && hdrOk h
  | .slotWrite h n _ v => within [(n, 2 ^ 10), (v, 2 ^ 64)] && hdrOk h
  | .slotRead h n _ => within [(n, 2 ^ 10)] && hdrOk h
  | .stitchQuery h c _ => within [(c, 32)] && hdrOk h
  | .stcCtlStop _ iss mask => within [(mask, 2 ^ 32)] && issOk iss
  | .stcCtlEnableWrite iss _ => issOk iss
  | .slotDataLoRead _ iss n => within [(n, 2 ^ 10)] && issOk iss
  | .slotDataHiWrite _ iss n data => within [(n, 2 ^ 10), (data, 2 ^ 32)] && issOk iss
  | .compressDescriptor r _ => within [(r, 2)]
  | .decompressDescriptor r _ => within [(r, 2)]
  | .cmpCtlEnableWrite iss _ => issOk iss
  | .recCtlEnableWrite iss _ => issOk iss
  | .recCtlFlush iss => issOk iss
  | .recRead h off _ => within [(off, 2 ^ 32)] && hdrOk h
  | .recFreeze h _ => hdrOk h
  | .recFlush h => hdrOk h
  | .recClear h => hdrOk h
  | .recNote h _ text => hdrOk h && bytesOk text
  | .porNRise role _ _ _ => within [(role, 4)]
  | .pdCtlWrite iss v => within [(v, 2 ^ 32)] && issOk iss
  | .pfwAssert _ => true
  | .ddrCtlEnable iss _ => issOk iss
  | .ddrRead line _ => within [(line, 2 ^ 58)]
  | .lamPosWrite iss row rack tray => within [(row, 32), (rack, 16), (tray, 16)] && issOk iss
  | .counterIncrement _ _ _ => true
  | .timeClockTick _ _ => true
  | .registerRead _ iss addr => within [(addr, 2 ^ 28)] && issOk iss
  | .pfwDeassert _ => true
  | .childPortLoss p _ => within [(p, 24)]
  | .readLatchExpiry _ => true
  | .traceWriteError p _ => within [(p, 16)]
  | .trainTimeout _ q => within [(q, 16)]
  | .negotiateTimeout _ q => within [(q, 16)]
  | .alignRx _ q _ _ => within [(q, 16)]
  | .timeExchangeVoid _ q => within [(q, 16)]
  | .marginSweep q _ _ => within [(q, 16)]
  | .faultInjection _ => true
  | .injectionEnd q => within [(q, 16)]
  | .pendingExpiry q => within [(q, 16)]
  | .retestAbandon q => within [(q, 16)]
  | .strandExpiry c => within [(c, 24)]
  | .pauseFrameRx p => within [(p, 24)]
  | .cmpRingFlush iss r => within [(r, 2)] && issOk iss
  | .cmpRingAbort iss r => within [(r, 2)] && issOk iss
  | .unitCommit _ => true
  | .norEraseDone _ => true
  | .lamBootCmdRun iss => issOk iss
  | .thermalTrip temp => within [(temp, 2 ^ 10)]
  | .ddrPartialWrite line off bs _ => within [(line, 2 ^ 58), (off, 2 ^ 32)] && bytesOk bs
  | .patrolScrub line _ _ _ => within [(line, 2 ^ 58)]
  | .bar2Access _ off _ bs => within [(off, 2 ^ 32)] && bytesOk bs
  | .keyProgGo iss slot => within [(slot, 64)] && issOk iss
  | .keyRevokeWrite iss v => within [(v, 2 ^ 32)] && issOk iss
  | .writeHoldExpiry _ => true
  | .coreWdog core => within [(core, 16)]
  | .ddrTrainingDone mask => within [(mask, 2 ^ 32)]
  | .retiringBankRelease => true
  | .mainsHoldoverEntry => true
  | .crownTakeover => true
  | .ituReset => true
  | .pwrStaleTimeout => true
  | .rowRequestIssue => true
  | .rowTimeout => true
  | .qscanTimeout => true
  | .canaryTimeout => true
  | .srTimeout => true
  | .visorRecordEmit => true
  | .advAllHeldRelease => true
  | .mainsCellResend => true
  | .digWindowOpen => true
  | .digWindowClose => true
  | .digShardEmit => true
  | .slicePowerReady => true
  | .slicePowerTimeout => true
  | .fillWaitTimeout => true
  | .ldgDieReportEmit => true
  | .failback => true
  | .replyRingWrite => true
  | .recorderRecordEntry => true
  | .recorderFlushStart => true
  | .recFreezeTimeout => true
  | .domainSwitchDone => true
  | .pfwDiscrepancyTimeout => true
  | .pfwClear => true
  | .perstN => true
  | .porNAssert => true
  | .failbackAckTimeout => true

end Sys2Proof
end

