-- ==== Sys2Proof/Decode.lean ====
section
/-! DEFINITION. The table of operations and events gives no row any bits: a command of the block is no word of an instruction stream.
(The instruction words of stitch contexts are decoded by their own commands, Sys2Proof/Machine/StcCore.lean.) -/

namespace Sys2Proof

/-- The command that a word of the table spells: no row of the table has bits, so none. -/
def decodeTableWord (_nbits _w : Nat) : Option Instr := none

end Sys2Proof
end

