-- ==== Sys2Proof/Config.lean ====
section
/-! DEFINITION. What the manual leaves to an implementation: the free values. -/

namespace Sys2Proof

/-- The n-th free value taken: a value the manual does not fix. Nothing constrains it (log entry 1). -/
opaque Config.freeValue : Nat → Nat

/-- Dies of a group under a child from which no partial came: epoch, leaf, GROUP, GROUP_ID. R210 says that a node knows
the number; the manual gives no table that holds it (log entry 32). -/
opaque Config.diesUnder : Nat → Nat → Nat → Nat → Nat

/-- SAMPLE_SLOT of a cohort's dies (R32), by epoch and cohort, as the Crown knows it: the manual gives no table at the Crown
that holds it (log entry 32). -/
opaque Config.cohortSlot : Nat → Nat → Nat

/-- Bound dies of a cohort's replica under a node, by epoch, node number, cohort and replica, as a node above the Tray knows
it (R308, R310); the manual gives no table that holds it (log entry 32). -/
opaque Config.replicaDies : Nat → Nat → Nat → Nat → Nat

/-- Rate and burst of the ledger bucket of the child on an Ethernet port, W: epoch, port, 0 rate up, 1 rate down, 2 burst up, 3
burst down. R344 uses them at the parent, and the manual gives no register or message that tells it (log entry 42). -/
opaque Config.childBucket : Nat → Nat → Nat → Nat

/-- DDR address of bank 0 or 1 of the Crown's rank directory. R28 places 16 MiB of it in the Crown's DDR and gives no address
(log entry 32). -/
opaque Config.rankDirBase : Nat → Nat

/-- Brim entry that a parent holds for its child in an epoch: epoch, child node, IKL port. EPOCH_SYNC hands the banks over
(R160), and the manual gives no table of them at the parent (log entry 32). -/
opaque Config.childBrim : Nat → Nat → Nat → Nat

/-- The signed log2(1 + |v|) of R249 on FP32 codes: faithfully rounded, and which neighbour is taken is left open (log entry
36). -/
opaque Config.log2p : Nat → Nat

end Sys2Proof
end

