-- ==== Sys2Proof/Machine/Bits.lean ====
section
/-! DEFINITION. Bit fields, wrapping differences and sign extension on the naturals that registers and record
words are read as (R7, R9, and the pseudocode conventions of 00). -/

namespace Sys2Proof.Machine

/-- Bits [lo+w-1:lo] of v (R9). -/
def bits (v lo w : Nat) : Nat := v >>> lo % 2 ^ w

/-- v with its bits [lo+w-1:lo] replaced by x. -/
def setBits (v lo w x : Nat) : Nat :=
  v - bits v lo w <<< lo + (x % 2 ^ w) <<< lo

/-- Bit n of v. -/
def bitAt (v n : Nat) : Bool := v.testBit n

/-- The two's-complement reading of the low w bits of v. -/
def toS (w v : Nat) : Int :=
  let u := v % 2 ^ w
  if u < 2 ^ (w - 1) then u else (u : Int) - 2 ^ w

/-- The low w bits of the integer z, as two's complement wraps it. -/
def ofS (w : Nat) (z : Int) : Nat := (z % (2 ^ w : Int)).toNat

/-- The signed 32-bit difference of two short times (R7). -/
def sdiff32 (a b : Nat) : Int := toS 32 (ofS 32 ((a : Int) - b))

/-- The signed 16-bit difference of two epochs (R160, R381). -/
def sdiff16 (a b : Nat) : Int := toS 16 (ofS 16 ((a : Int) - b))

/-- z held within [lo, hi] (pseudocode "clamp"). -/
def clampZ (z lo hi : Int) : Int := if z < lo then lo else if hi < z then hi else z

/-- v, saturating at the largest value of w bits. -/
def satN (w v : Nat) : Nat := min v (2 ^ w - 1)

/-- z saturated to a signed value of w bits, held as w bits. -/
def satS (w : Nat) (z : Int) : Nat := ofS w (clampZ z (-(2 ^ (w - 1) : Int)) (2 ^ (w - 1) - 1))

/-- Arithmetic shift right, rounding down (00 "Pseudocode": ">>" on a signed value). -/
def sar (z : Int) (n : Nat) : Int := z / 2 ^ n

/-- Division truncating toward zero (00 "Pseudocode"). -/
def tdiv (a b : Int) : Int := Int.tdiv a b

/-- The low 32 bits of a time: its short form (00 "Fleet time"). -/
def short (t : Nat) : Nat := t % 2 ^ 32

/-- The bytes of v, least significant first, n of them (R9). -/
def leBytes : Nat → Nat → List Nat
  | 0, _ => []
  | n + 1, v => v % 256 :: leBytes n (v / 256)

/-- The number whose little-endian bytes are bs (R9). -/
def ofLeBytes : List Nat → Nat
  | [] => 0
  | b :: bs => b % 256 + 256 * ofLeBytes bs

/-- The bytes of a list of 32-bit little-endian words. -/
def wordsToBytes (ws : List Nat) : List Nat := ws.flatMap (leBytes 4)

/-- The 32-bit words of a list of bytes; a last partial word is filled with zeros. -/
def bytesToWords : List Nat → List Nat
  | a :: b :: c :: d :: r => ofLeBytes [a, b, c, d] :: bytesToWords r
  | [] => []
  | r => [ofLeBytes r]

/-- The least q with b * q at least a. -/
def ceilDiv (a b : Nat) : Nat := (a + b - 1) / b

/-- Entry i of a list of numbers, 0 beyond its end. -/
def nth (l : List Nat) (i : Nat) : Nat := l.getD i 0

/-- The list with entry i replaced; a list shorter than i is first filled with d. -/
def setNth {α : Type} (d : α) : List α → Nat → α → List α
  | [], 0, v => [v]
  | [], i + 1, v => d :: setNth d [] i v
  | _ :: l, 0, v => v :: l
  | x :: l, i + 1, v => x :: setNth d l i v

/-- A Bool as a bit. -/
def b2n (b : Bool) : Nat := if b then 1 else 0

end Sys2Proof.Machine
end

