-- ==== Sys2Proof/Machine/Crc.lean ====
section
/-! DEFINITION. The CRC algorithms of R177 and R178, and the seeded record trailer of R175 and R193. -/

namespace Sys2Proof.Machine

/-- n shifts of a right-shifting (reflected) CRC register. -/
def crcShiftR (poly : Nat) : Nat → Nat → Nat
  | 0, c => c
  | n + 1, c => crcShiftR poly n (if c % 2 = 1 then (c >>> 1) ^^^ poly else c >>> 1)

/-- n shifts of a left-shifting CRC register of w bits. -/
def crcShiftL (w poly : Nat) : Nat → Nat → Nat
  | 0, c => c
  | n + 1, c =>
    crcShiftL w poly n (if c.testBit (w - 1) then ((c <<< 1) ^^^ poly) % 2 ^ w else (c <<< 1) % 2 ^ w)

/-- Width of the algorithm selected (R177). -/
def crcWidth (sel : Nat) : Nat := if sel = 2 then 16 else if sel = 3 then 64 else 32

/-- Initial value (R177). -/
def crcInit (sel : Nat) : Nat := if sel = 2 then 0xFFFF else if sel = 3 then 0 else 0xFFFFFFFF

/-- Final XOR (R177). -/
def crcXor (sel : Nat) : Nat := if sel < 2 then 0xFFFFFFFF else 0

/-- One byte through the register of algorithm sel (R177, R178). -/
def crcByte (sel c b : Nat) : Nat :=
  if sel = 0 then crcShiftR 0x82F63B78 8 (c ^^^ (b % 256))
  else if sel = 1 then crcShiftR 0xEDB88320 8 (c ^^^ (b % 256))
  else if sel = 2 then crcShiftL 16 0x1021 8 (c ^^^ ((b % 256) <<< 8))
  else crcShiftL 64 0x42F0E1EBA9EA3693 8 (c ^^^ ((b % 256) <<< 56))

/-- The bytes of a list through the register. -/
def crcFeed (sel : Nat) : Nat → List Nat → Nat
  | c, [] => c
  | c, b :: bs => crcFeed sel (crcByte sel c b) bs

/-- CRC of a byte list with the standard initial value. -/
def crcOf (sel : Nat) (bs : List Nat) : Nat := crcFeed sel (crcInit sel) bs ^^^ crcXor sel

/-- crc32c_seeded (R175): the running value starts at the seed. -/
def crc32cSeeded (seed : Nat) (bs : List Nat) : Nat := crcFeed 0 (seed % 2 ^ 32) bs ^^^ 0xFFFFFFFF

/-- The four header words of a record (R193; R196 for format 2, whose GEN field is reserved). -/
def Rec.header (r : Rec) : List Nat :=
  [ r.fmt % 16 <<< 28 ||| r.cls % 4 <<< 26 ||| r.typ % 1024 <<< 16 ||| r.len % 256 <<< 8 ||| r.alive % 256,
    r.die % 2 ^ 17 <<< 15 ||| r.part % 16 <<< 11 ||| (if r.fmt = 2 then 0 else r.gen % 256 <<< 3),
    r.seq % 2 ^ 32, r.short % 2 ^ 32 ]

/-- The bytes a trailer covers: header and payload. -/
def Rec.bytes (r : Rec) : List Nat := wordsToBytes (r.header ++ r.body)

/-- Bytes of a record with its trailer (R193). -/
def Rec.size (r : Rec) : Nat := 16 * r.len + 4

/-- The trailer of a record: seeded with its own DIE and SEQ for format 3, unseeded for format 2 (R193, R196). -/
def Rec.trailerOf (r : Rec) : Nat :=
  if r.fmt = 2 then crcOf 0 r.bytes else crc32cSeeded ((r.die % 2 ^ 17 <<< 15) ^^^ (r.seq % 2 ^ 32)) r.bytes

/-- The words of an envelope before its check (R198). -/
def Env.words (e : Env) : List Nat :=
  [ e.rank % 2 ^ 15 ||| e.job % 64 <<< 15 ||| e.cohort % 128 <<< 21 ||| b2n e.bound <<< 28 ||| e.srcRole % 8 <<< 29,
    e.replica % 256 ||| e.epoch % 65536 <<< 8 ||| e.fmt % 16 <<< 24 ||| b2n e.missed <<< 28 ||| b2n e.failover <<< 29,
    e.ftHi % 2 ^ 32, e.hopT % 65536 ||| e.hopK % 65536 <<< 16, e.hopW % 65536, 0, 0 ]

/-- ENV_CRC (R198). -/
def Env.crcOf (e : Env) : Nat := Sys2Proof.Machine.crcOf 0 (wordsToBytes e.words)

/-- The envelope with its check computed. -/
def Env.seal (e : Env) : Env := { e with crc := e.crcOf }

end Sys2Proof.Machine
end

