-- ==== Sys2Proof/Machine/Sparse.lean ====
section
/-! DEFINITION. Sparse stores: lists of key and value in one canonical form (keys strictly rising, no entry
equal to what an unlisted key reads as), so that equal stores are equal data. Memories, register files and
counter arrays are held so. -/

namespace Sys2Proof.Machine

/-- What key k reads as; d is what an unlisted key reads as. -/
def Sparse.get {α : Type} (d : α) : List (Nat × α) → Nat → α
  | [], _ => d
  | (k', v) :: m, k => if k' = k then v else Sparse.get d m k

/-- The store with the entry of k removed. -/
def Sparse.erase {α : Type} : List (Nat × α) → Nat → List (Nat × α)
  | [], _ => []
  | (k', v) :: m, k => if k' = k then Sparse.erase m k else (k', v) :: Sparse.erase m k

/-- The store with an entry of k put in place, keys rising. -/
def Sparse.insert {α : Type} : List (Nat × α) → Nat → α → List (Nat × α)
  | [], k, v => [(k, v)]
  | (k', v') :: m, k, v =>
    if k < k' then (k, v) :: (k', v') :: m
    else if k = k' then (k, v) :: m
    else (k', v') :: Sparse.insert m k v

/-- The store with k holding v: writing what an unlisted key reads as removes the entry. -/
def Sparse.set {α : Type} [DecidableEq α] (d : α) (m : List (Nat × α)) (k : Nat) (v : α) : List (Nat × α) :=
  if v = d then Sparse.erase m k else Sparse.insert m k v

/-- Every key of m lies above k. -/
def Sparse.above {α : Type} (k : Nat) (m : List (Nat × α)) : Prop := ∀ p ∈ m, k < p.1

/-- The canonical form: keys strictly rising and no entry equal to d. -/
def Sparse.wf {α : Type} [DecidableEq α] (d : α) : List (Nat × α) → Bool
  | [] => true
  | [(_, v)] => decide (v ≠ d)
  | (k, v) :: (k', v') :: m => decide (v ≠ d) && decide (k < k') && Sparse.wf d ((k', v') :: m)

end Sys2Proof.Machine
end

