-- ==== Sys2Proof/Machine/Fld.lean ====
section
/-! DEFINITION. Register fields and the register file. A field is named by its place in a register space: byte
offset, low bit and instance numbers. The file keeps, per field instance, the exclusive-or of its value with
its reset value, as a sparse store with default 0, so that a file with nothing listed is the file at reset. -/

namespace Sys2Proof.Machine

/-- The access codes of R12. -/
inductive Access where
  /-- Reads the current value; a write sets it. -/
  | rw
  /-- Reads the current value; a write does nothing. -/
  | ro
  /-- Reads zero; a write sets the value or starts the action. -/
  | wo
  /-- Each 1 written clears its bit. -/
  | w1c
  /-- Each 1 written sets its bit. -/
  | w1s
  /-- A read clears it in the same access. -/
  | rc
  /-- A write is staged until the commit of its transaction. -/
  | rwc
deriving DecidableEq, Repr

/-- One field of a register map: its place, access code, reset value and the values a write accepts. -/
structure Fld where
  /-- byte offset of the word, at instance (0, 0) -/
  addr : Nat
  /-- lowest bit of the field in its word -/
  lo : Nat := 0
  width : Nat
  acc : Access
  /-- the reset value of the map -/
  reset : Nat := 0
  /-- byte stride and number of the outer instances -/
  s1 : Nat := 0
  n1 : Nat := 1
  /-- byte stride and number of the inner instances -/
  s2 : Nat := 0
  n2 : Nat := 1
  /-- growth of the reset value per outer instance -/
  rstep : Nat := 0
  /-- reset values per outer instance, where they follow no step -/
  rlist : List Nat := []
  /-- least and greatest value a write accepts -/
  min : Nat := 0
  max : Nat := 2 ^ 32 - 1
  /-- a range of reserved values within them; (1, 0) is none -/
  hole : Nat × Nat := (1, 0)
  /-- low bits that must be written zero -/
  align : Nat := 0
  /-- roles in which the field exists, bit n for role n -/
  roles : Nat := 15
  /-- write authority where the field's map names one: 1 PARTITION, 2 TRAY, 3 FLEET; 0 the block's -/
  auth : Nat := 0
deriving DecidableEq, Repr

/-- The bit address of a field instance: its key in the register file. -/
def Fld.key (F : Fld) (i j : Nat) : Nat := 8 * (F.addr + F.s1 * i + F.s2 * j) + F.lo

/-- The reset value of a field instance (R10). -/
def Fld.rst (F : Fld) (i : Nat) : Nat := (if F.rlist = [] then F.reset + F.rstep * i else F.rlist.getD i 0) % 2 ^ F.width

/-- A value that a write of the field accepts. -/
def Fld.ok (F : Fld) (v : Nat) : Bool :=
  decide (F.min ≤ v) && decide (v ≤ F.max) && !(decide (F.hole.1 ≤ v) && decide (v ≤ F.hole.2)) &&
    decide (v % 2 ^ F.align = 0)

/-- The instance of a field that lies in the word at byte offset a, if any. -/
def Fld.at (F : Fld) (a : Nat) : Option (Nat × Nat) :=
  if a < F.addr then none else
  let off := a - F.addr
  let i := if F.s1 = 0 then 0 else off / F.s1
  let r := off - F.s1 * i
  let j := if F.s2 = 0 then 0 else r / F.s2
  if i < F.n1 ∧ j < F.n2 ∧ r = F.s2 * j then some (i, j) else none

/-- A register file. -/
abbrev Regs := List (Nat × Nat)

/-- The value of a field instance. -/
def Regs.rd (r : Regs) (F : Fld) (i : Nat := 0) (j : Nat := 0) : Nat :=
  Sparse.get 0 r (F.key i j) ^^^ F.rst i

/-- The file with a field instance holding v, cut to the field's width. -/
def Regs.wr (r : Regs) (F : Fld) (v : Nat) (i : Nat := 0) (j : Nat := 0) : Regs :=
  Sparse.set 0 r (F.key i j) ((v % 2 ^ F.width) ^^^ F.rst i)

/-- The file with a counter advanced by n, saturating at the field's largest value. -/
def Regs.inc (r : Regs) (F : Fld) (n : Nat := 1) (i : Nat := 0) (j : Nat := 0) : Regs :=
  r.wr F (satN F.width (r.rd F i j + n)) i j

end Sys2Proof.Machine
end

