-- ==== Sys2Proof/Machine/RegMapItu.lean ====
section
/-! DEFINITION. The register fields of the ITU register window (R92), one definition per named field of the spec's
register maps: offset, bit range, access code, reset value and accepted values. -/

namespace Sys2Proof.Machine.I

/-- ITIME_CTL.ENABLE (R77): 1 = run the servo on IKL time messages -/
def ITIME_CTL_ENABLE : Fld :=
  { addr := 0x400, width := 1, acc := .rw }

/-- ITIME_CTL.REARM (R77): 1 = permit one further step -/
def ITIME_CTL_REARM : Fld :=
  { addr := 0x400, lo := 1, width := 1, acc := .wo, auth := 3 }

/-- ITIME_CTL.KP_SHIFT (R77): proportional shift -/
def ITIME_CTL_KP_SHIFT : Fld :=
  { addr := 0x400, lo := 4, width := 4, acc := .rw, reset := 1 }

/-- ITIME_CTL.KI_SHIFT (R77): integral shift -/
def ITIME_CTL_KI_SHIFT : Fld :=
  { addr := 0x400, lo := 8, width := 4, acc := .rw, reset := 4 }

/-- ITIME_STAT.STATE (R77): clock state -/
def ITIME_STAT_STATE : Fld :=
  { addr := 0x404, width := 3, acc := .ro }

/-- ITIME_STAT.STEP_USED (R77): step taken -/
def ITIME_STAT_STEP_USED : Fld :=
  { addr := 0x404, lo := 3, width := 1, acc := .ro }

/-- ITIME_STAT.JUMP_REFUSED (R77): offset above threshold refused -/
def ITIME_STAT_JUMP_REFUSED : Fld :=
  { addr := 0x404, lo := 4, width := 1, acc := .w1c }

/-- ITIME_STAT.DEGRADED (R77): over 1,000 ms in HOLDOVER -/
def ITIME_STAT_DEGRADED : Fld :=
  { addr := 0x404, lo := 5, width := 1, acc := .ro }

/-- ITIME_STAT.SETTLING (R77): IKL in DOWN, TRAIN or SETTLE (R183) -/
def ITIME_STAT_SETTLING : Fld :=
  { addr := 0x404, lo := 6, width := 1, acc := .ro, reset := 1 }

/-- ITIME_STAT.MAINS_CURRENT (R77): a mains chain is held, its current MC announced or extrapolated (R52, R67) -/
def ITIME_STAT_MAINS_CURRENT : Fld :=
  { addr := 0x404, lo := 7, width := 1, acc := .ro }

/-- ITIME_INCR_LO (R77): increment, fraction; writes under R45 -/
def ITIME_INCR_LO : Fld :=
  { addr := 0x408, width := 32, acc := .rw }

/-- ITIME_INCR_HI (R77): increment, integer -/
def ITIME_INCR_HI : Fld :=
  { addr := 0x40C, width := 32, acc := .rw, reset := 1 }

/-- ITIME_NS_LO (R77): local time, ns [31:0]; read first -/
def ITIME_NS_LO : Fld :=
  { addr := 0x410, width := 32, acc := .ro }

/-- ITIME_NS_HI (R77): local time, ns [63:32] -/
def ITIME_NS_HI : Fld :=
  { addr := 0x414, width := 32, acc := .ro }

/-- ITIME_JUMP_THR (R77): ns, 100 to 1,000,000 -/
def ITIME_JUMP_THR : Fld :=
  { addr := 0x418, width := 32, acc := .rw, reset := 1000, min := 100, max := 1000000 }

/-- ITIME_OFFSET (R77): last offset, s32 ns, saturating -/
def ITIME_OFFSET : Fld :=
  { addr := 0x41C, width := 32, acc := .ro }

/-- ITIME_MC_LO (R77): current MC [31:0]; read first -/
def ITIME_MC_LO : Fld :=
  { addr := 0x420, width := 32, acc := .ro }

/-- ITIME_MC_HI (R77): current MC [47:32] -/
def ITIME_MC_HI : Fld :=
  { addr := 0x424, width := 16, acc := .ro }

/-- ITIME_SLOT (R77): current slot -/
def ITIME_SLOT : Fld :=
  { addr := 0x424, lo := 16, width := 6, acc := .ro }

/-- ITIME_CONSERVATIVE (R77): conservative flag of the current announcement -/
def ITIME_CONSERVATIVE : Fld :=
  { addr := 0x424, lo := 22, width := 1, acc := .ro }

/-- ITIME_CNT_STALE (R77): records dropped under R47 -/
def ITIME_CNT_STALE : Fld :=
  { addr := 0x428, width := 32, acc := .rc }

/-- ITIME_CNT_SETTLE (R77): time messages discarded in settling -/
def ITIME_CNT_SETTLE : Fld :=
  { addr := 0x42C, width := 32, acc := .rc }

/-- ITU_ID.PART (R93): Ikisa part code -/
def ITU_ID_PART : Fld :=
  { addr := 0x0, width := 16, acc := .ro, reset := 7251 }

/-- ITU_ID.VENDOR (R93): Sollevon vendor code -/
def ITU_ID_VENDOR : Fld :=
  { addr := 0x0, lo := 16, width := 16, acc := .ro, reset := 20695 }

/-- ITU_VERSION.PATCH (R93): patch version -/
def ITU_VERSION_PATCH : Fld :=
  { addr := 0x4, width := 8, acc := .ro }

/-- ITU_VERSION.MINOR (R93): minor version -/
def ITU_VERSION_MINOR : Fld :=
  { addr := 0x4, lo := 8, width := 8, acc := .ro, reset := 4 }

/-- ITU_VERSION.MAJOR (R93): major version -/
def ITU_VERSION_MAJOR : Fld :=
  { addr := 0x4, lo := 16, width := 8, acc := .ro, reset := 3 }

/-- ITU_VERSION.REC_FMT (R93): highest record format version spoken -/
def ITU_VERSION_REC_FMT : Fld :=
  { addr := 0x4, lo := 24, width := 4, acc := .ro, reset := 3 }

/-- ITU_PARAM0.PARTITIONS (R93): ITU_PARTITIONS - 1 -/
def ITU_PARAM0_PARTITIONS : Fld :=
  { addr := 0x8, width := 4, acc := .ro }

/-- ITU_PARAM0.TAPS (R93): ITU_TAPS - 1 -/
def ITU_PARAM0_TAPS : Fld :=
  { addr := 0x8, lo := 4, width := 8, acc := .ro }

/-- ITU_PARAM0.EVENTS (R93): ITU_EVENTS / 32, 0 to 32 -/
def ITU_PARAM0_EVENTS : Fld :=
  { addr := 0x8, lo := 12, width := 6, acc := .ro }

/-- ITU_PARAM0.MEM_W (R93): 0 = 512 bits, 1 = 1,024 bits -/
def ITU_PARAM0_MEM_W : Fld :=
  { addr := 0x8, lo := 18, width := 1, acc := .ro }

/-- ITU_PARAM0.ADDR_W (R93): ITU_MEM_ADDR_W -/
def ITU_PARAM0_ADDR_W : Fld :=
  { addr := 0x8, lo := 19, width := 6, acc := .ro }

/-- ITU_PARAM1.OUTSTANDING (R93): log2 ITU_MEM_OUTSTANDING, 4 to 8 -/
def ITU_PARAM1_OUTSTANDING : Fld :=
  { addr := 0xC, width := 4, acc := .ro }

/-- ITU_PARAM1.ROW_IDX_W (R93): ITU_ROW_IDX_W -/
def ITU_PARAM1_ROW_IDX_W : Fld :=
  { addr := 0xC, lo := 4, width := 5, acc := .ro }

/-- ITU_PARAM1.VISOR (R93): log2 ITU_VISOR_DESC, 8 to 12 -/
def ITU_PARAM1_VISOR : Fld :=
  { addr := 0xC, lo := 9, width := 4, acc := .ro }

/-- ITU_PARAM1.CANARY (R93): ITU_CANARY_ENGINES - 1 -/
def ITU_PARAM1_CANARY : Fld :=
  { addr := 0xC, lo := 13, width := 6, acc := .ro }

/-- ITU_PARAM1.TEST_PORTS (R93): ITU_TEST_PORTS - 1 -/
def ITU_PARAM1_TEST_PORTS : Fld :=
  { addr := 0xC, lo := 19, width := 4, acc := .ro }

/-- ITU_PARAM1.TAP_LAT (R93): ITU_TAP_LAT -/
def ITU_PARAM1_TAP_LAT : Fld :=
  { addr := 0xC, lo := 23, width := 4, acc := .ro }

/-- ITU_PARAM2.BAR_LAT (R93): ITU_BAR_LAT -/
def ITU_PARAM2_BAR_LAT : Fld :=
  { addr := 0x10, width := 6, acc := .ro }

/-- ITU_PARAM2.SYNC (R93): ITU_SYNC_STAGES - 2: 0, 1 or 2 for 2, 3 or 4 stages; 3 never reported -/
def ITU_PARAM2_SYNC : Fld :=
  { addr := 0x10, lo := 6, width := 2, acc := .ro }

/-- ITU_HOST_CAP0.TDP_W (R93): cap_tdp_w -/
def ITU_HOST_CAP0_TDP_W : Fld :=
  { addr := 0x14, width := 16, acc := .ro }

/-- ITU_HOST_CAP0.BALLAST_MAX_W (R93): cap_ballast_max_w -/
def ITU_HOST_CAP0_BALLAST_MAX_W : Fld :=
  { addr := 0x14, lo := 16, width := 16, acc := .ro }

/-- ITU_HOST_CAP1.IDLE_W (R93): cap_idle_w -/
def ITU_HOST_CAP1_IDLE_W : Fld :=
  { addr := 0x18, width := 16, acc := .ro }

/-- ITU_HOST_CAP1.LICENSEE (R93): cap_licensee -/
def ITU_HOST_CAP1_LICENSEE : Fld :=
  { addr := 0x18, lo := 16, width := 16, acc := .ro }

/-- ITU_DIE_ID.ID (R93): physical die ID; written over IKL (R18) -/
def ITU_DIE_ID_ID : Fld :=
  { addr := 0x1C, width := 17, acc := .rw }

/-- ITU_DIE_ID.VALID (R93): 1 = ID written; no record is emitted while 0 -/
def ITU_DIE_ID_VALID : Fld :=
  { addr := 0x1C, lo := 17, width := 1, acc := .rw }

/-- ITU_FN_EN.COUNTERS (R93): counters and sampler (IPD1) -/
def ITU_FN_EN_COUNTERS : Fld :=
  { addr := 0x20, width := 1, acc := .rw }

/-- ITU_FN_EN.VISOR (R93): Visor snapshots (IPD1) -/
def ITU_FN_EN_VISOR : Fld :=
  { addr := 0x20, lo := 1, width := 1, acc := .rw }

/-- ITU_FN_EN.ROWS (R93): scratchpad rows (IPD1) -/
def ITU_FN_EN_ROWS : Fld :=
  { addr := 0x20, lo := 2, width := 1, acc := .rw }

/-- ITU_FN_EN.TRACE (R93): trace (IPD1) -/
def ITU_FN_EN_TRACE : Fld :=
  { addr := 0x20, lo := 3, width := 1, acc := .rw }

/-- ITU_FN_EN.DIGEST (R93): digest engine (IPD2) -/
def ITU_FN_EN_DIGEST : Fld :=
  { addr := 0x20, lo := 4, width := 1, acc := .rw }

/-- ITU_FN_EN.GAUNTLET (R93): Gauntlet and self-test (IPD3) -/
def ITU_FN_EN_GAUNTLET : Fld :=
  { addr := 0x20, lo := 5, width := 1, acc := .rw }

/-- ITU_FN_EN.CANARY (R93): canary path (IPD3) -/
def ITU_FN_EN_CANARY : Fld :=
  { addr := 0x20, lo := 6, width := 1, acc := .rw }

/-- ITU_FN_EN.STITCH (R93): stitch contexts (IPD4) -/
def ITU_FN_EN_STITCH : Fld :=
  { addr := 0x20, lo := 7, width := 1, acc := .rw }

/-- ITU_PD_CTL.BASE (R93): IPD0, always on -/
def ITU_PD_CTL_BASE : Fld :=
  { addr := 0x24, width := 1, acc := .ro, reset := 1 }

/-- ITU_PD_CTL.ON (R93): bit n: request IPDn on -/
def ITU_PD_CTL_ON : Fld :=
  { addr := 0x24, lo := 1, width := 4, acc := .rw }

/-- ITU_PD_STAT.ON (R93): bit n: IPDn on -/
def ITU_PD_STAT_ON : Fld :=
  { addr := 0x28, width := 5, acc := .ro, reset := 1 }

/-- ITU_PD_STAT.BUSY (R93): register bit 5 + n, n = 0 to 4: IPDn switching; bit 5 (IPD0) reads 0 -/
def ITU_PD_STAT_BUSY : Fld :=
  { addr := 0x28, lo := 5, width := 5, acc := .ro }

/-- ITU_PD_STAT.TIMEOUT (R93): register bit 10 + n, n = 0 to 4: IPDn missed H4; bit 10 (IPD0) reads 0 -/
def ITU_PD_STAT_TIMEOUT : Fld :=
  { addr := 0x28, lo := 10, width := 5, acc := .w1c }

/-- ITU_FAULT.PWR_STALE (R93): H10 missed -/
def ITU_FAULT_PWR_STALE : Fld :=
  { addr := 0x2C, width := 1, acc := .w1c }

/-- ITU_FAULT.CEIL_BREACH (R93): H11 missed -/
def ITU_FAULT_CEIL_BREACH : Fld :=
  { addr := 0x2C, lo := 1, width := 1, acc := .w1c }

/-- ITU_FAULT.FLOOR_SHORT (R93): H12 missed -/
def ITU_FAULT_FLOOR_SHORT : Fld :=
  { addr := 0x2C, lo := 2, width := 1, acc := .w1c }

/-- ITU_FAULT.MEM_TO (R93): H9 missed -/
def ITU_FAULT_MEM_TO : Fld :=
  { addr := 0x2C, lo := 3, width := 1, acc := .w1c }

/-- ITU_FAULT.ROW_TO (R93): H8 missed -/
def ITU_FAULT_ROW_TO : Fld :=
  { addr := 0x2C, lo := 4, width := 1, acc := .w1c }

/-- ITU_FAULT.QSCAN_PARTIAL (R93): H7 missed -/
def ITU_FAULT_QSCAN_PARTIAL : Fld :=
  { addr := 0x2C, lo := 5, width := 1, acc := .w1c }

/-- ITU_FAULT.CANARY_TO (R93): H13 missed -/
def ITU_FAULT_CANARY_TO : Fld :=
  { addr := 0x2C, lo := 6, width := 1, acc := .w1c }

/-- ITU_FAULT.SR_TO (R93): H14 missed -/
def ITU_FAULT_SR_TO : Fld :=
  { addr := 0x2C, lo := 7, width := 1, acc := .w1c }

/-- ITU_FAULT.QUIESCE_TO (R93): H15 missed -/
def ITU_FAULT_QUIESCE_TO : Fld :=
  { addr := 0x2C, lo := 8, width := 1, acc := .w1c }

/-- ITU_FAULT.RESET_TO (R93): H16 missed -/
def ITU_FAULT_RESET_TO : Fld :=
  { addr := 0x2C, lo := 9, width := 1, acc := .w1c }

/-- ITU_FAULT.PD_TO (R93): H4 missed -/
def ITU_FAULT_PD_TO : Fld :=
  { addr := 0x2C, lo := 10, width := 1, acc := .w1c }

/-- ITU_FAULT.PD_OFF_ACCESS (R93): access to, or enable of, a domain that is off (R82, R83) -/
def ITU_FAULT_PD_OFF_ACCESS : Fld :=
  { addr := 0x2C, lo := 11, width := 1, acc := .w1c }

/-- ITU_IRQ_EN (R93): bit n enables ITU_FAULT bit n onto itu_irq -/
def ITU_IRQ_EN : Fld :=
  { addr := 0x30, width := 12, acc := .rw }

/-- ITU_PWR_NOW.W (R93): last pwr_meas_w -/
def ITU_PWR_NOW_W : Fld :=
  { addr := 0x34, width := 16, acc := .ro }

/-- ITU_PWR_NOW.TEMP (R93): last pwr_temp -/
def ITU_PWR_NOW_TEMP : Fld :=
  { addr := 0x34, lo := 16, width := 10, acc := .ro }

/-- ITU_TST_CTL.DIV (R93): tst_wrck divider, 5 to 12; other writes ignored (R88) -/
def ITU_TST_CTL_DIV : Fld :=
  { addr := 0x38, width := 4, acc := .rw, reset := 8, min := 5, max := 12 }

/-- ITU_CNT_PWR_STALE (R93): H10 misses -/
def ITU_CNT_PWR_STALE : Fld :=
  { addr := 0x40, width := 32, acc := .rc }

/-- ITU_CNT_CEIL (R93): H11 misses -/
def ITU_CNT_CEIL : Fld :=
  { addr := 0x44, width := 32, acc := .rc }

/-- ITU_CNT_FLOOR (R93): H12 misses -/
def ITU_CNT_FLOOR : Fld :=
  { addr := 0x48, width := 32, acc := .rc }

/-- ITU_CNT_MEM_TO (R93): H9 misses -/
def ITU_CNT_MEM_TO : Fld :=
  { addr := 0x4C, width := 32, acc := .rc }

/-- ITU_CNT_MEM_LATE (R93): responses discarded under R87 -/
def ITU_CNT_MEM_LATE : Fld :=
  { addr := 0x50, width := 32, acc := .rc }

/-- ITU_CNT_ROW_TO (R93): H8 misses -/
def ITU_CNT_ROW_TO : Fld :=
  { addr := 0x54, width := 32, acc := .rc }

/-- ITU_CNT_QSCAN_PARTIAL (R93): H7 misses -/
def ITU_CNT_QSCAN_PARTIAL : Fld :=
  { addr := 0x58, width := 32, acc := .rc }

/-- ITU_CNT_CANARY_TO (R93): H13 misses -/
def ITU_CNT_CANARY_TO : Fld :=
  { addr := 0x5C, width := 32, acc := .rc }

/-- ITU_CNT_SR_TO (R93): H14 misses -/
def ITU_CNT_SR_TO : Fld :=
  { addr := 0x60, width := 32, acc := .rc }

/-- ITU_CNT_QUIESCE_TO (R93): H15 misses -/
def ITU_CNT_QUIESCE_TO : Fld :=
  { addr := 0x64, width := 32, acc := .rc }

/-- ITU_CNT_RESET_TO (R93): H16 misses -/
def ITU_CNT_RESET_TO : Fld :=
  { addr := 0x68, width := 32, acc := .rc }

/-- ITU_CNT_PD_TO (R93): H4 misses -/
def ITU_CNT_PD_TO : Fld :=
  { addr := 0x6C, width := 32, acc := .rc }

/-- SRC (R97): 0 off; 1 tap class; 2 tap stall reason; 3 event line -/
def CSEL_SRC : Fld :=
  { addr := 0x1000, width := 2, acc := .rw, s1 := 0x4, n1 := 4096 }

/-- INDEX (R97): tap 0 to ITU_TAPS - 1 (SRC 1, 2) or event line 0 to ITU_EVENTS - 1 (SRC 3) -/
def CSEL_INDEX : Fld :=
  { addr := 0x1000, lo := 2, width := 10, acc := .rw, s1 := 0x4, n1 := 4096 }

/-- CLASS_MASK (R97): SRC 1: bit n counts cycles of class n -/
def CSEL_CLASS_MASK : Fld :=
  { addr := 0x1000, lo := 12, width := 4, acc := .rw, s1 := 0x4, n1 := 4096 }

/-- REASON (R97): SRC 2: counts cycles of class 2 with this reason -/
def CSEL_REASON : Fld :=
  { addr := 0x1000, lo := 16, width := 6, acc := .rw, s1 := 0x4, n1 := 4096 }

/-- SMP_CTL.RUN (R109): 1 = latch blocks on schedule -/
def SMP_CTL_RUN : Fld :=
  { addr := 0x800, width := 1, acc := .rw }

/-- SMP_CTL.CLEAR (R109): 1 = clear all counters (R99) -/
def SMP_CTL_CLEAR : Fld :=
  { addr := 0x800, lo := 1, width := 1, acc := .wo }

/-- SMP_STAT.ACTIVE (R109): at least one block latched in the current MC -/
def SMP_STAT_ACTIVE : Fld :=
  { addr := 0x804, width := 1, acc := .ro }

/-- SMP_STAT.SEL_RANGE (R109): an entry with INDEX out of range was written -/
def SMP_STAT_SEL_RANGE : Fld :=
  { addr := 0x804, lo := 1, width := 1, acc := .w1c }

/-- SMP_STAT.DROP (R109): a record was not made or was refused (R106) -/
def SMP_STAT_DROP : Fld :=
  { addr := 0x804, lo := 2, width := 1, acc := .w1c }

/-- SMP_STAT.NO_SLOTS (R109): the conditions of R52 do not hold -/
def SMP_STAT_NO_SLOTS : Fld :=
  { addr := 0x804, lo := 3, width := 1, acc := .ro, reset := 1 }

/-- SMP_PHASE (R109): sampling phase (R101) -/
def SMP_PHASE : Fld :=
  { addr := 0x808, width := 6, acc := .rw }

/-- SMP_BUF_LEVEL (R109): bytes held in the local buffer -/
def SMP_BUF_LEVEL : Fld :=
  { addr := 0x80C, width := 18, acc := .ro }

/-- SMP_CNT_DROP (R109): records not made or refused, saturating -/
def SMP_CNT_DROP : Fld :=
  { addr := 0x810, width := 32, acc := .rc }

/-- SMP_CNT_REFUSED (R109): of those, refused by admission or R47, saturating -/
def SMP_CNT_REFUSED : Fld :=
  { addr := 0x814, width := 32, acc := .rc }

/-- SMP_RD_IDX (R109): counter for live read -/
def SMP_RD_IDX : Fld :=
  { addr := 0x818, width := 12, acc := .rw }

/-- SMP_RD_LO (R109): VALUE [31:0]; read first -/
def SMP_RD_LO : Fld :=
  { addr := 0x81C, width := 32, acc := .ro }

/-- SMP_RD_HI (R109): VALUE [47:32] -/
def SMP_RD_HI : Fld :=
  { addr := 0x820, width := 16, acc := .ro }

/-- SMP_CYC_LO (R109): itu_clk cycle counter [31:0]; read first -/
def SMP_CYC_LO : Fld :=
  { addr := 0x824, width := 32, acc := .ro }

/-- SMP_CYC_HI (R109): itu_clk cycle counter [63:32] -/
def SMP_CYC_HI : Fld :=
  { addr := 0x828, width := 32, acc := .ro }

/-- SMP_BLOCK_CFG.EN (R109): block b = 0 to 15 latched -/
def SMP_BLOCK_CFG_EN : Fld :=
  { addr := 0x840, width := 1, acc := .rw, s1 := 0x4, n1 := 16 }

/-- SMP_BLOCK_CFG.DIV (R109): period 2^DIV slots, 0 to 10 -/
def SMP_BLOCK_CFG_DIV : Fld :=
  { addr := 0x840, lo := 1, width := 4, acc := .rw, s1 := 0x4, n1 := 16, max := 10 }

/-- VIS_CTL.TRIG (R143): 1 = start a snapshot (R118) -/
def VIS_CTL_TRIG : Fld :=
  { addr := 0x5000, width := 1, acc := .wo }

/-- VIS_CTL.PART (R143): partition to scan -/
def VIS_CTL_PART : Fld :=
  { addr := 0x5000, lo := 1, width := 4, acc := .rw }

/-- VIS_CTL.HOLD (R143): 1 = hold after emission (R123) -/
def VIS_CTL_HOLD : Fld :=
  { addr := 0x5000, lo := 5, width := 1, acc := .rw }

/-- VIS_CTL.RELEASE (R143): 1 = release a held snapshot -/
def VIS_CTL_RELEASE : Fld :=
  { addr := 0x5000, lo := 6, width := 1, acc := .wo }

/-- VIS_CTL.EMIT (R143): 1 = send VISOR_DESC records -/
def VIS_CTL_EMIT : Fld :=
  { addr := 0x5000, lo := 7, width := 1, acc := .rw, reset := 1 }

/-- VIS_STAT.STATE (R143): 0 IDLE, 1 SCANNING, 2 EMITTING, 3 HELD -/
def VIS_STAT_STATE : Fld :=
  { addr := 0x5004, width := 2, acc := .ro }

/-- VIS_STAT.RESULT (R143): last result, table "Visor result encoding" -/
def VIS_STAT_RESULT : Fld :=
  { addr := 0x5004, lo := 2, width := 2, acc := .ro }

/-- VIS_STAT.BUSY_REFUSED (R143): a trigger was refused -/
def VIS_STAT_BUSY_REFUSED : Fld :=
  { addr := 0x5004, lo := 4, width := 1, acc := .w1c }

/-- VIS_STAT.PART (R143): partition of the snapshot held (R125) -/
def VIS_STAT_PART : Fld :=
  { addr := 0x5004, lo := 5, width := 4, acc := .ro }

/-- VIS_STORED (R143): descriptors stored -/
def VIS_STORED : Fld :=
  { addr := 0x5008, width := 13, acc := .ro }

/-- VIS_RECEIVED (R143): descriptors received, saturating -/
def VIS_RECEIVED : Fld :=
  { addr := 0x500C, width := 32, acc := .ro }

/-- VIS_SNAP_ID (R143): number of the last snapshot -/
def VIS_SNAP_ID : Fld :=
  { addr := 0x5010, width := 16, acc := .ro }

/-- VIS_FREEZE_NS (R143): FREEZE_NS of the last snapshot -/
def VIS_FREEZE_NS : Fld :=
  { addr := 0x5014, width := 32, acc := .ro }

/-- VIS_RD_IDX (R143): descriptor to read -/
def VIS_RD_IDX : Fld :=
  { addr := 0x5018, width := 12, acc := .rw }

/-- VIS_RD_DATA0 (R143): descriptor bits [31:0]; read first -/
def VIS_RD_DATA0 : Fld :=
  { addr := 0x501C, width := 32, acc := .ro }

/-- VIS_RD_DATA1 (R143): bits [63:32] -/
def VIS_RD_DATA1 : Fld :=
  { addr := 0x5020, width := 32, acc := .ro }

/-- VIS_RD_DATA2 (R143): bits [95:64] -/
def VIS_RD_DATA2 : Fld :=
  { addr := 0x5024, width := 32, acc := .ro }

/-- VIS_RD_DATA3 (R143): bits [127:96] -/
def VIS_RD_DATA3 : Fld :=
  { addr := 0x5028, width := 32, acc := .ro }

/-- VIS_CNT_REFUSED (R143): triggers refused -/
def VIS_CNT_REFUSED : Fld :=
  { addr := 0x5030, width := 32, acc := .rc }

/-- VIS_CNT_FOREIGN (R143): descriptors of another partition -/
def VIS_CNT_FOREIGN : Fld :=
  { addr := 0x5034, width := 32, acc := .rc }

/-- VIS_CNT_DISCARD (R143): Visor records discarded (R123, R124) -/
def VIS_CNT_DISCARD : Fld :=
  { addr := 0x5038, width := 32, acc := .rc }

/-- ROW_CTL.TRIG (R143): 1 = start a sample (R126) -/
def ROW_CTL_TRIG : Fld :=
  { addr := 0x5100, width := 1, acc := .wo }

/-- ROW_CTL.PART (R143): partition to sample -/
def ROW_CTL_PART : Fld :=
  { addr := 0x5100, lo := 1, width := 4, acc := .rw }

/-- ROW_FIRST (R143): first row index -/
def ROW_FIRST : Fld :=
  { addr := 0x5104, width := 24, acc := .rw }

/-- ROW_COUNT (R143): rows, 1 to 1,024; larger writes ignored -/
def ROW_COUNT : Fld :=
  { addr := 0x5108, width := 11, acc := .rw, reset := 1, min := 1, max := 1024 }

/-- ROW_STRIDE (R143): 1 to 65,535; a write of 0 is ignored -/
def ROW_STRIDE : Fld :=
  { addr := 0x510C, width := 16, acc := .rw, reset := 1, min := 1, max := 65535 }

/-- ROW_RST_FIRST (R143): reset-sequence first row -/
def ROW_RST_FIRST : Fld :=
  { addr := 0x5110, width := 24, acc := .rw }

/-- ROW_RST_COUNT (R143): reset-sequence rows, 0 to 1,024; 0 = no sample -/
def ROW_RST_COUNT : Fld :=
  { addr := 0x5114, width := 11, acc := .rw, max := 1024 }

/-- ROW_RST_STRIDE (R143): reset-sequence stride, 1 to 65,535 -/
def ROW_RST_STRIDE : Fld :=
  { addr := 0x5118, width := 16, acc := .rw, reset := 1, min := 1, max := 65535 }

/-- ROW_STAT.BUSY (R143): a sample is in progress -/
def ROW_STAT_BUSY : Fld :=
  { addr := 0x511C, width := 1, acc := .ro }

/-- ROW_STAT.REFUSED (R143): a trigger was refused -/
def ROW_STAT_REFUSED : Fld :=
  { addr := 0x511C, lo := 1, width := 1, acc := .w1c }

/-- ROW_STAT.CUT (R143): a sample was ended by R129 -/
def ROW_STAT_CUT : Fld :=
  { addr := 0x511C, lo := 2, width := 1, acc := .w1c }

/-- ROW_STAT.TRUNC (R143): index range cut the count -/
def ROW_STAT_TRUNC : Fld :=
  { addr := 0x511C, lo := 3, width := 1, acc := .w1c }

/-- ROW_DONE (R143): rows completed in the current or last sample -/
def ROW_DONE : Fld :=
  { addr := 0x5120, width := 11, acc := .ro }

/-- ROW_SAMPLE_ID (R143): number of the current or last sample -/
def ROW_SAMPLE_ID : Fld :=
  { addr := 0x5120, lo := 16, width := 16, acc := .ro }

/-- ROW_CNT_MISSING (R143): rows MISSING -/
def ROW_CNT_MISSING : Fld :=
  { addr := 0x5124, width := 32, acc := .rc }

/-- ROW_CNT_ERR (R143): rows ERR -/
def ROW_CNT_ERR : Fld :=
  { addr := 0x5128, width := 32, acc := .rc }

/-- ROW_CNT_REFUSED (R143): triggers refused -/
def ROW_CNT_REFUSED : Fld :=
  { addr := 0x512C, width := 32, acc := .rc }

/-- ROW_CNT_DISCARD (R143): row records discarded -/
def ROW_CNT_DISCARD : Fld :=
  { addr := 0x5130, width := 32, acc := .rc }

/-- TRC_CTL.SYNC_INT (R143): lines between SYNCs, 1 to 255; 0 ignored -/
def TRC_CTL_SYNC_INT : Fld :=
  { addr := 0x5200, width := 8, acc := .rw, reset := 64, min := 1, max := 255 }

/-- TRC_STAT.LEVEL (R143): bytes in the trace buffer -/
def TRC_STAT_LEVEL : Fld :=
  { addr := 0x5204, width := 15, acc := .ro }

/-- TRC_STAT.CFG_ERR (R143): a channel could not be enabled (R131) -/
def TRC_STAT_CFG_ERR : Fld :=
  { addr := 0x5204, lo := 15, width := 1, acc := .w1c }

/-- TRC_OWN_TAP (R143): w = 0 to 31: owner of tap 8w + j in bits [4j+3:4j] -/
def TRC_OWN_TAP : Fld :=
  { addr := 0x5210, width := 32, acc := .rw, s1 := 0x4, n1 := 32 }

/-- TRC_TAP_EN (R143): w = 0 to 7: bit j traces tap 32w + j -/
def TRC_TAP_EN : Fld :=
  { addr := 0x5290, width := 32, acc := .rw, s1 := 0x4, n1 := 8 }

/-- TRC_ACH.GROUP (R143): channel c = 0 to 3: first of two 32-line groups -/
def TRC_ACH_GROUP : Fld :=
  { addr := 0x52C0, width := 5, acc := .rw, s1 := 0x4, n1 := 4 }

/-- TRC_ACH.STROBE (R143): strobe event line -/
def TRC_ACH_STROBE : Fld :=
  { addr := 0x52C0, lo := 5, width := 10, acc := .rw, s1 := 0x4, n1 := 4 }

/-- TRC_ACH.PART (R143): owning partition -/
def TRC_ACH_PART : Fld :=
  { addr := 0x52C0, lo := 15, width := 4, acc := .rw, s1 := 0x4, n1 := 4 }

/-- TRC_ACH.EN (R143): channel enabled -/
def TRC_ACH_EN : Fld :=
  { addr := 0x52C0, lo := 19, width := 1, acc := .rw, s1 := 0x4, n1 := 4 }

/-- TRC_PCTL.EN (R143): trace partition p -/
def TRC_PCTL_EN : Fld :=
  { addr := 0x5400, width := 1, acc := .rw, s1 := 0x20, n1 := 16 }

/-- TRC_PCTL.MODE (R143): 0 WRAP, 1 STOP -/
def TRC_PCTL_MODE : Fld :=
  { addr := 0x5400, lo := 1, width := 1, acc := .rw, s1 := 0x20, n1 := 16 }

/-- TRC_PCTL.BAR (R143): 1 = trace p's barrier events -/
def TRC_PCTL_BAR : Fld :=
  { addr := 0x5400, lo := 2, width := 1, acc := .rw, s1 := 0x20, n1 := 16 }

/-- TRC_PCTL.FLUSH (R143): 1 = flush (R138) -/
def TRC_PCTL_FLUSH : Fld :=
  { addr := 0x5400, lo := 3, width := 1, acc := .wo, s1 := 0x20, n1 := 16 }

/-- TRC_PSTAT.ACTIVE (R143): capture running -/
def TRC_PSTAT_ACTIVE : Fld :=
  { addr := 0x5404, width := 1, acc := .ro, s1 := 0x20, n1 := 16 }

/-- TRC_PSTAT.FULL (R143): STOP mode region full -/
def TRC_PSTAT_FULL : Fld :=
  { addr := 0x5404, lo := 1, width := 1, acc := .ro, s1 := 0x20, n1 := 16 }

/-- TRC_PSTAT.WRAPPED (R143): WRAP mode has wrapped -/
def TRC_PSTAT_WRAPPED : Fld :=
  { addr := 0x5404, lo := 2, width := 1, acc := .ro, s1 := 0x20, n1 := 16 }

/-- TRC_PSTAT.WERR (R143): stopped by R139 -/
def TRC_PSTAT_WERR : Fld :=
  { addr := 0x5404, lo := 3, width := 1, acc := .w1c, s1 := 0x20, n1 := 16 }

/-- TRC_PSTAT.RESET_STOP (R143): stopped by R140 -/
def TRC_PSTAT_RESET_STOP : Fld :=
  { addr := 0x5404, lo := 4, width := 1, acc := .w1c, s1 := 0x20, n1 := 16 }

/-- TRC_PSTAT.LOST (R143): packets lost (R136) -/
def TRC_PSTAT_LOST : Fld :=
  { addr := 0x5404, lo := 5, width := 1, acc := .w1c, s1 := 0x20, n1 := 16 }

/-- TRC_PSTAT.FLUSH_BUSY (R143): flush write outstanding -/
def TRC_PSTAT_FLUSH_BUSY : Fld :=
  { addr := 0x5404, lo := 6, width := 1, acc := .ro, s1 := 0x20, n1 := 16 }

/-- TRC_BASE_LO (R143): region base [31:12] -/
def TRC_BASE_LO : Fld :=
  { addr := 0x5408, lo := 12, width := 20, acc := .rw, s1 := 0x20, n1 := 16 }

/-- TRC_BASE_HI (R143): region base [63:32]; bits above ITU_MEM_ADDR_W ignored -/
def TRC_BASE_HI : Fld :=
  { addr := 0x540C, width := 32, acc := .rw, s1 := 0x20, n1 := 16 }

/-- TRC_SIZE (R143): 4 KiB units, 0 to 2^26 -/
def TRC_SIZE : Fld :=
  { addr := 0x5410, width := 27, acc := .rw, s1 := 0x20, n1 := 16, max := 67108864 }

/-- TRC_WPTR (R143): next 64-byte line to write, counted from TRC_BASE; advances by 8 per chunk (R132, R138) -/
def TRC_WPTR : Fld :=
  { addr := 0x5414, width := 32, acc := .ro, s1 := 0x20, n1 := 16 }

/-- TRC_LOST (R143): packets lost -/
def TRC_LOST : Fld :=
  { addr := 0x5418, width := 32, acc := .rc, s1 := 0x20, n1 := 16 }

/-- TRC_MARK (R143): emit a MARK (R142) -/
def TRC_MARK : Fld :=
  { addr := 0x541C, width := 32, acc := .wo, s1 := 0x20, n1 := 16, auth := 1 }

/-- PART_CTL.RESET (R163): 1 = start a reset sequence of PART (R145) -/
def PART_CTL_RESET : Fld :=
  { addr := 0x5800, width := 1, acc := .wo }

/-- PART_CTL.PART (R163): partition to reset -/
def PART_CTL_PART : Fld :=
  { addr := 0x5800, lo := 1, width := 4, acc := .rw }

/-- PART_CTL.ADV_ALL (R163): 1 = advance every generation with no reset (R158, R159) -/
def PART_CTL_ADV_ALL : Fld :=
  { addr := 0x5800, lo := 5, width := 1, acc := .wo }

/-- CUFF_EPOCH (R163): configuration epoch in force (R160) -/
def CUFF_EPOCH : Fld :=
  { addr := 0x5804, width := 16, acc := .rw }

/-- PART_CNT_REFUSED (R163): reset triggers refused -/
def PART_CNT_REFUSED : Fld :=
  { addr := 0x5808, width := 32, acc := .rc }

/-- PART_STAT.STATE (R163): table "Partition states" -/
def PART_STAT_STATE : Fld :=
  { addr := 0x5900, width := 3, acc := .ro, s1 := 0x20, n1 := 16 }

/-- PART_STAT.GEN (R163): current generation -/
def PART_STAT_GEN : Fld :=
  { addr := 0x5900, lo := 3, width := 8, acc := .ro, s1 := 0x20, n1 := 16 }

/-- PART_STAT.HANG (R163): hang declared (R146) -/
def PART_STAT_HANG : Fld :=
  { addr := 0x5900, lo := 11, width := 1, acc := .w1c, s1 := 0x20, n1 := 16 }

/-- PART_STAT.CUFF (R163): Cuff raised -/
def PART_STAT_CUFF : Fld :=
  { addr := 0x5900, lo := 12, width := 1, acc := .ro, s1 := 0x20, n1 := 16 }

/-- PART_STAT.HELD (R163): a trigger, or ADV_ALL, waits for the 16 ms gap (R145, R159) -/
def PART_STAT_HELD : Fld :=
  { addr := 0x5900, lo := 13, width := 1, acc := .ro, s1 := 0x20, n1 := 16 }

/-- PART_HANG_CFG.COUNTER (R163): progress counter -/
def PART_HANG_CFG_COUNTER : Fld :=
  { addr := 0x5904, width := 12, acc := .rw, s1 := 0x20, n1 := 16 }

/-- PART_HANG_CFG.WINDOW (R163): MCs without change; 0 = off -/
def PART_HANG_CFG_WINDOW : Fld :=
  { addr := 0x5904, lo := 12, width := 8, acc := .rw, s1 := 0x20, n1 := 16 }

/-- PART_HANG_CFG.AUTO (R163): 1 = reset on hang -/
def PART_HANG_CFG_AUTO : Fld :=
  { addr := 0x5904, lo := 20, width := 1, acc := .rw, s1 := 0x20, n1 := 16 }

/-- PART_LAST_ADV_LO (R163): fleet time of the last advance, ns [31:0]; read first -/
def PART_LAST_ADV_LO : Fld :=
  { addr := 0x5908, width := 32, acc := .ro, s1 := 0x20, n1 := 16 }

/-- PART_LAST_ADV_HI (R163): ns [63:32] -/
def PART_LAST_ADV_HI : Fld :=
  { addr := 0x590C, width := 32, acc := .ro, s1 := 0x20, n1 := 16 }

/-- PART_CNT_RESET (R163): generation advances -/
def PART_CNT_RESET : Fld :=
  { addr := 0x5910, width := 32, acc := .rc, s1 := 0x20, n1 := 16 }

/-- CUFF_CNT_REG (R163): register accesses fenced -/
def CUFF_CNT_REG : Fld :=
  { addr := 0x5914, width := 32, acc := .rc, s1 := 0x20, n1 := 16 }

/-- CUFF_CNT_BAR (R163): barrier events fenced -/
def CUFF_CNT_BAR : Fld :=
  { addr := 0x5918, width := 32, acc := .rc, s1 := 0x20, n1 := 16 }

/-- CUFF_CNT_DROP (R163): buffered old-generation records discarded -/
def CUFF_CNT_DROP : Fld :=
  { addr := 0x591C, width := 32, acc := .rc, s1 := 0x20, n1 := 16 }

/-- ILNK_CTL.RETRAIN (R192): 1 = take the link down -/
def ILNK_CTL_RETRAIN : Fld :=
  { addr := 0x6000, width := 1, acc := .wo }

/-- ILNK_STAT.STATE (R192): table "Link states" -/
def ILNK_STAT_STATE : Fld :=
  { addr := 0x6004, width := 3, acc := .ro }

/-- ILNK_STAT.LOS (R192): loss of signal, bit per lane -/
def ILNK_STAT_LOS : Fld :=
  { addr := 0x6004, lo := 3, width := 2, acc := .ro, reset := 3 }

/-- ILNK_STAT.SETTLING (R192): DOWN, TRAIN or SETTLE (R183) -/
def ILNK_STAT_SETTLING : Fld :=
  { addr := 0x6004, lo := 5, width := 1, acc := .ro, reset := 1 }

/-- ILNK_STAT.FMT (R192): agreed format -/
def ILNK_STAT_FMT : Fld :=
  { addr := 0x6004, lo := 6, width := 4, acc := .ro }

/-- ILNK_STAT.CHECK (R192): 0 CRC-32C, 1 CRC-32 -/
def ILNK_STAT_CHECK : Fld :=
  { addr := 0x6004, lo := 10, width := 1, acc := .ro }

/-- ILNK_PEER (R192): the Lamulo's HELLO, as LNK_PEER -/
def ILNK_PEER : Fld :=
  { addr := 0x6008, width := 18, acc := .ro }

/-- ILNK_CNT_CELL_BAD (R192): cells failing check, or discarded -/
def ILNK_CNT_CELL_BAD : Fld :=
  { addr := 0x6010, width := 32, acc := .rc }

/-- ILNK_CNT_REPLAY (R192): cells resent -/
def ILNK_CNT_REPLAY : Fld :=
  { addr := 0x6014, width := 32, acc := .rc }

/-- ILNK_CNT_DOWN (R192): exits from UP -/
def ILNK_CNT_DOWN : Fld :=
  { addr := 0x6018, width := 32, acc := .rc }

/-- ILNK_CNT_Q_REFUSED (R192): records refused with QUEUE_FULL -/
def ILNK_CNT_Q_REFUSED : Fld :=
  { addr := 0x601C, width := 32, acc := .rc }

/-- ILNK_CNT_FMT_DROP (R192): R187 drops -/
def ILNK_CNT_FMT_DROP : Fld :=
  { addr := 0x6020, width := 32, acc := .rc }

/-- ILNK_CNT_TIME_LOST (R192): TIME cells discarded or exchanges void -/
def ILNK_CNT_TIME_LOST : Fld :=
  { addr := 0x6024, width := 32, acc := .rc }

/-- ILNK_CNT_BAD_BLOCK (R192): R165, R167 -/
def ILNK_CNT_BAD_BLOCK : Fld :=
  { addr := 0x6028, width := 32, acc := .rc }

/-- ILNK_CREDIT (R192): VC v = 0 to 7: cells the ITU may still send -/
def ILNK_CREDIT : Fld :=
  { addr := 0x6040, width := 12, acc := .ro, s1 := 0x4, n1 := 8 }

/-- ILNK_EYE.H (R192): lane l = 0, 1: eye height, mV -/
def ILNK_EYE_H : Fld :=
  { addr := 0x6060, width := 8, acc := .ro, s1 := 0x4, n1 := 2 }

/-- ILNK_EYE.W (R192): eye width, 1/64 UI -/
def ILNK_EYE_W : Fld :=
  { addr := 0x6060, lo := 8, width := 6, acc := .ro, s1 := 0x4, n1 := 2 }

/-- DIG_CTL.ABORT (R314): 1 = close the armed or open window as ABORTED -/
def DIG_CTL_ABORT : Fld :=
  { addr := 0x6800, width := 1, acc := .wo }

/-- DIG_CFG.PART (R314): partition digested -/
def DIG_CFG_PART : Fld :=
  { addr := 0x6804, width := 4, acc := .rwc }

/-- DIG_CFG.EVERY (R314): steps between windows, 1 to 65,535; 0 fails at prepare -/
def DIG_CFG_EVERY : Fld :=
  { addr := 0x6804, lo := 4, width := 16, acc := .rwc, reset := 16, min := 1, max := 65535 }

/-- DIG_STAT.STATE (R314): 0 IDLE, 1 ARMED, 2 READING, 3 EMITTING -/
def DIG_STAT_STATE : Fld :=
  { addr := 0x6808, width := 2, acc := .ro }

/-- DIG_STAT.RESULT (R314): RESULT of the last window -/
def DIG_STAT_RESULT : Fld :=
  { addr := 0x6808, lo := 2, width := 3, acc := .ro }

/-- DIG_STEP (R314): step; a write arms under R303 -/
def DIG_STEP : Fld :=
  { addr := 0x680C, width := 32, acc := .rw, auth := 1 }

/-- DIG_UNSTABLE (R314): 1 = weights about to change (R302) -/
def DIG_UNSTABLE : Fld :=
  { addr := 0x6810, width := 1, acc := .wo, auth := 1 }

/-- DIG_RATE (R314): GB/s, 1 to 128; other writes ignored -/
def DIG_RATE : Fld :=
  { addr := 0x6814, width := 8, acc := .rw, reset := 32, min := 1, max := 128 }

/-- DIG_RUNS_BASE_LO (R314): run list address [31:0]; a write with [4:0] non-zero is ignored -/
def DIG_RUNS_BASE_LO : Fld :=
  { addr := 0x6818, width := 32, acc := .rw, align := 5, auth := 1 }

/-- DIG_RUNS_BASE_HI (R314): [63:32] -/
def DIG_RUNS_BASE_HI : Fld :=
  { addr := 0x681C, width := 32, acc := .rw, auth := 1 }

/-- DIG_RUNS_COUNT (R314): runs, 0 to 1,048,576 -/
def DIG_RUNS_COUNT : Fld :=
  { addr := 0x6820, width := 21, acc := .rw, max := 1048576, auth := 1 }

/-- DIG_RANGE_LO_LO (R314): range start [31:0] -/
def DIG_RANGE_LO_LO : Fld :=
  { addr := 0x6828, width := 32, acc := .rwc }

/-- DIG_RANGE_LO_HI (R314): [46:32] -/
def DIG_RANGE_LO_HI : Fld :=
  { addr := 0x682C, width := 15, acc := .rwc }

/-- DIG_RANGE_HI_LO (R314): range end [31:0] -/
def DIG_RANGE_HI_LO : Fld :=
  { addr := 0x6830, width := 32, acc := .rwc }

/-- DIG_RANGE_HI_HI (R314): [47:32]; prepare fails if end <= start or end > 2^47 -/
def DIG_RANGE_HI_HI : Fld :=
  { addr := 0x6834, width := 16, acc := .rwc, reset := 32768 }

/-- DIG_KEY1_LO (R314): k1 [31:0] -/
def DIG_KEY1_LO : Fld :=
  { addr := 0x6840, width := 32, acc := .rwc }

/-- DIG_KEY1_HI (R314): k1 [60:32] -/
def DIG_KEY1_HI : Fld :=
  { addr := 0x6844, width := 29, acc := .rwc }

/-- DIG_KEY2_LO (R314): k2 [31:0] -/
def DIG_KEY2_LO : Fld :=
  { addr := 0x6848, width := 32, acc := .rwc }

/-- DIG_KEY2_HI (R314): k2 [60:32] -/
def DIG_KEY2_HI : Fld :=
  { addr := 0x684C, width := 29, acc := .rwc }

/-- DIG_KEY_SEQ (R314): names the keys -/
def DIG_KEY_SEQ : Fld :=
  { addr := 0x6850, width := 8, acc := .rwc }

/-- DIG_LAST_STEP (R314): STEP of the last closed window -/
def DIG_LAST_STEP : Fld :=
  { addr := 0x6860, width := 32, acc := .ro }

/-- DIG_LAST_D1_LO (R314): D1 [31:0]; read first -/
def DIG_LAST_D1_LO : Fld :=
  { addr := 0x6864, width := 32, acc := .ro }

/-- DIG_LAST_D1_HI (R314): D1 [63:32] -/
def DIG_LAST_D1_HI : Fld :=
  { addr := 0x6868, width := 32, acc := .ro }

/-- DIG_LAST_D2_LO (R314): D2 [31:0]; read first -/
def DIG_LAST_D2_LO : Fld :=
  { addr := 0x686C, width := 32, acc := .ro }

/-- DIG_LAST_D2_HI (R314): D2 [63:32] -/
def DIG_LAST_D2_HI : Fld :=
  { addr := 0x6870, width := 32, acc := .ro }

/-- DIG_LAST_V_LO (R314): V [31:0]; read first -/
def DIG_LAST_V_LO : Fld :=
  { addr := 0x6874, width := 32, acc := .ro }

/-- DIG_LAST_V_HI (R314): V [63:32] -/
def DIG_LAST_V_HI : Fld :=
  { addr := 0x6878, width := 32, acc := .ro }

/-- DIG_LAST_N_LO (R314): N [31:0]; read first -/
def DIG_LAST_N_LO : Fld :=
  { addr := 0x687C, width := 32, acc := .ro }

/-- DIG_LAST_N_HI (R314): N [63:32] -/
def DIG_LAST_N_HI : Fld :=
  { addr := 0x6880, width := 32, acc := .ro }

/-- DIG_CNT_WINDOWS (R314): windows closed -/
def DIG_CNT_WINDOWS : Fld :=
  { addr := 0x6890, width := 32, acc := .rc }

/-- DIG_CNT_SKIPPED (R314): R303 -/
def DIG_CNT_SKIPPED : Fld :=
  { addr := 0x6894, width := 32, acc := .rc }

/-- DIG_CNT_OVERRUN (R314): windows closed OVERRUN -/
def DIG_CNT_OVERRUN : Fld :=
  { addr := 0x6898, width := 32, acc := .rc }

/-- DIG_CNT_ERR (R314): windows closed MEM_ERROR, POISON, TIMEOUT or RUN_BAD -/
def DIG_CNT_ERR : Fld :=
  { addr := 0x689C, width := 32, acc := .rc }

/-- DIG_CNT_DISCARD (R314): R306 -/
def DIG_CNT_DISCARD : Fld :=
  { addr := 0x68A0, width := 32, acc := .rc }

/-- GNT_CTL.ABORT (R336): 1 = end the current item (R328) -/
def GNT_CTL_ABORT : Fld :=
  { addr := 0x7000, width := 1, acc := .wo }

/-- GNT_STAT.STATE (R336): 0 IDLE, 1 STAGED, 2 WAIT_POWER, 3 SAVE, 4 RUN, 5 RESTORE, 6 EMIT; 7 never reported; a canary uses 1, 4 and 6 -/
def GNT_STAT_STATE : Fld :=
  { addr := 0x7004, width := 3, acc := .ro }

/-- GNT_STAT.REFUSED (R336): a GNT_RUN was refused (R322) -/
def GNT_STAT_REFUSED : Fld :=
  { addr := 0x7004, lo := 3, width := 1, acc := .w1c }

/-- GNT_BUF_LEVEL (R336): bytes staged, 0 to 131,072 -/
def GNT_BUF_LEVEL : Fld :=
  { addr := 0x7008, width := 18, acc := .ro }

/-- GNT_CUR.ITEM (R336): item staged or running -/
def GNT_CUR_ITEM : Fld :=
  { addr := 0x700C, width := 12, acc := .ro }

/-- GNT_CUR.PART (R336): its partition -/
def GNT_CUR_PART : Fld :=
  { addr := 0x700C, lo := 12, width := 4, acc := .ro }

/-- GNT_CUR.PKG_ID (R336): its package -/
def GNT_CUR_PKG_ID : Fld :=
  { addr := 0x700C, lo := 16, width := 16, acc := .ro }

/-- GNT_MISMATCH (R336): mismatches of the current or last slice -/
def GNT_MISMATCH : Fld :=
  { addr := 0x7010, width := 32, acc := .ro }

/-- GNT_DIG_LO (R336): last canary CRC-64 [31:0]; read first -/
def GNT_DIG_LO : Fld :=
  { addr := 0x7014, width := 32, acc := .ro }

/-- GNT_DIG_HI (R336): [63:32] -/
def GNT_DIG_HI : Fld :=
  { addr := 0x7018, width := 32, acc := .ro }

/-- GNT_WAIT_MC (R336): R325; 1 to 15, a write of 0 ignored -/
def GNT_WAIT_MC : Fld :=
  { addr := 0x701C, width := 4, acc := .rw, reset := 4, min := 1, max := 15 }

/-- GNT_CNT_CANARY (R336): canary tiles ended -/
def GNT_CNT_CANARY : Fld :=
  { addr := 0x7020, width := 32, acc := .rc }

/-- GNT_CNT_SLICE (R336): slices ended -/
def GNT_CNT_SLICE : Fld :=
  { addr := 0x7024, width := 32, acc := .rc }

/-- GNT_CNT_FAIL (R336): FAIL results -/
def GNT_CNT_FAIL : Fld :=
  { addr := 0x7028, width := 32, acc := .rc }

/-- GNT_CNT_SKIPPED (R336): SKIPPED slices -/
def GNT_CNT_SKIPPED : Fld :=
  { addr := 0x702C, width := 32, acc := .rc }

/-- GNT_CNT_INCOMPLETE (R336): INCOMPLETE canaries -/
def GNT_CNT_INCOMPLETE : Fld :=
  { addr := 0x7030, width := 32, acc := .rc }

/-- GNT_CNT_REFUSED (R336): GNT_RUN refused -/
def GNT_CNT_REFUSED : Fld :=
  { addr := 0x7034, width := 32, acc := .rc }

/-- LDG_CTL.FREEZE (R356): 1 = hold the band (cause CMD) -/
def LDG_CTL_FREEZE : Fld :=
  { addr := 0x7800, width := 1, acc := .rw }

/-- LDG_STAT.STATE (R356): 0 START, 1 LIVE, 2 FROZEN; 3 never reported -/
def LDG_STAT_STATE : Fld :=
  { addr := 0x7804, width := 2, acc := .ro }

/-- LDG_STAT.FROZEN (R356): table "Freeze causes" -/
def LDG_STAT_FROZEN : Fld :=
  { addr := 0x7804, lo := 2, width := 7, acc := .ro }

/-- LDG_STAT.BREACH (R356): rises withheld (H11) -/
def LDG_STAT_BREACH : Fld :=
  { addr := 0x7804, lo := 9, width := 1, acc := .ro }

/-- LDG_STAT.CAPPED (R356): floor held at cap_ballast_max_w -/
def LDG_STAT_CAPPED : Fld :=
  { addr := 0x7804, lo := 10, width := 1, acc := .w1c }

/-- LDG_STAT.FRESH (R356): waiting for a grant (R351) -/
def LDG_STAT_FRESH : Fld :=
  { addr := 0x7804, lo := 11, width := 1, acc := .ro }

/-- LDG_LEVEL (R356): L, W -/
def LDG_LEVEL : Fld :=
  { addr := 0x7808, width := 16, acc := .ro }

/-- LDG_SLOT (R356): LEDGER_SLOT of the last grant -/
def LDG_SLOT : Fld :=
  { addr := 0x7808, lo := 16, width := 6, acc := .ro }

/-- LDG_OUT.CEIL (R356): pwr_ceiling_w; cap_idle_w at reset -/
def LDG_OUT_CEIL : Fld :=
  { addr := 0x780C, width := 16, acc := .ro }

/-- LDG_OUT.FLOOR (R356): pwr_ballast_w -/
def LDG_OUT_FLOOR : Fld :=
  { addr := 0x780C, lo := 16, width := 16, acc := .ro }

/-- LDG_TOK.UP (R356): up tokens held -/
def LDG_TOK_UP : Fld :=
  { addr := 0x7810, width := 8, acc := .ro }

/-- LDG_TOK.DN (R356): down tokens held -/
def LDG_TOK_DN : Fld :=
  { addr := 0x7810, lo := 8, width := 8, acc := .ro }

/-- LDG_TOK.TR (R356): test raise in force, quanta -/
def LDG_TOK_TR : Fld :=
  { addr := 0x7810, lo := 16, width := 8, acc := .ro }

/-- LDG_TOK.ASK_TR (R356): test raise asked (R329) -/
def LDG_TOK_ASK_TR : Fld :=
  { addr := 0x7810, lo := 24, width := 8, acc := .ro }

/-- LDG_CFG.ABOVE (R356): 0 to 15 -/
def LDG_CFG_ABOVE : Fld :=
  { addr := 0x7814, width := 4, acc := .rwc, reset := 1 }

/-- LDG_CFG.BELOW (R356): 0 to 15 -/
def LDG_CFG_BELOW : Fld :=
  { addr := 0x7814, lo := 4, width := 4, acc := .rwc, reset := 2 }

/-- LDG_CFG.RAMP_UP (R356): 1 to 15 -/
def LDG_CFG_RAMP_UP : Fld :=
  { addr := 0x7814, lo := 8, width := 4, acc := .rwc, reset := 5, min := 1, max := 15 }

/-- LDG_CFG.RAMP_DN (R356): 1 to 15 -/
def LDG_CFG_RAMP_DN : Fld :=
  { addr := 0x7814, lo := 12, width := 4, acc := .rwc, reset := 5, min := 1, max := 15 }

/-- LDG_CFG.BURST_UP (R356): 1 to 255 -/
def LDG_CFG_BURST_UP : Fld :=
  { addr := 0x7814, lo := 16, width := 8, acc := .rwc, reset := 8, min := 1, max := 255 }

/-- LDG_CFG.BURST_DN (R356): 1 to 255 -/
def LDG_CFG_BURST_DN : Fld :=
  { addr := 0x7814, lo := 24, width := 8, acc := .rwc, reset := 8, min := 1, max := 255 }

/-- LDG_CFG2.PRESS_N (R356): 1 to 1,000 -/
def LDG_CFG2_PRESS_N : Fld :=
  { addr := 0x7818, width := 10, acc := .rwc, reset := 32, min := 1, max := 1000 }

/-- LDG_CFG2.PIN_N (R356): 1 to 1,000 -/
def LDG_CFG2_PIN_N : Fld :=
  { addr := 0x7818, lo := 10, width := 10, acc := .rwc, reset := 16, min := 1, max := 1000 }

/-- LDG_CFG2.REPORT_MC (R356): 1 to 255 -/
def LDG_CFG2_REPORT_MC : Fld :=
  { addr := 0x7818, lo := 20, width := 8, acc := .rwc, reset := 50, min := 1, max := 255 }

/-- LDG_CMAX (R356): cap_tdp_w; cap_idle_w to cap_tdp_w -/
def LDG_CMAX : Fld :=
  { addr := 0x781C, width := 16, acc := .rwc }

/-- LDG_E_TOTAL_LO (R356): nJ [31:0]; read first -/
def LDG_E_TOTAL_LO : Fld :=
  { addr := 0x7840, width := 32, acc := .ro }

/-- LDG_E_TOTAL_HI (R356): nJ [63:32] -/
def LDG_E_TOTAL_HI : Fld :=
  { addr := 0x7844, width := 32, acc := .ro }

/-- LDG_E_BAL_LO (R356): nJ [31:0]; read first -/
def LDG_E_BAL_LO : Fld :=
  { addr := 0x7848, width := 32, acc := .ro }

/-- LDG_E_BAL_HI (R356): nJ [63:32] -/
def LDG_E_BAL_HI : Fld :=
  { addr := 0x784C, width := 32, acc := .ro }

/-- LDG_E_PIN_LO (R356): nJ [31:0]; read first -/
def LDG_E_PIN_LO : Fld :=
  { addr := 0x7850, width := 32, acc := .ro }

/-- LDG_E_PIN_HI (R356): nJ [63:32] -/
def LDG_E_PIN_HI : Fld :=
  { addr := 0x7854, width := 32, acc := .ro }

/-- LDG_CNT_PIN_US (R356): us pinned -/
def LDG_CNT_PIN_US : Fld :=
  { addr := 0x7858, width := 32, acc := .rc }

/-- LDG_CNT_PRESS_US (R356): us pressed -/
def LDG_CNT_PRESS_US : Fld :=
  { addr := 0x785C, width := 32, acc := .rc }

/-- LDG_CNT_UP (R356): up tokens spent -/
def LDG_CNT_UP : Fld :=
  { addr := 0x7860, width := 32, acc := .rc }

/-- LDG_CNT_DN (R356): down tokens spent -/
def LDG_CNT_DN : Fld :=
  { addr := 0x7864, width := 32, acc := .rc }

/-- LDG_CNT_FORFEIT (R356): tokens discarded (R351) -/
def LDG_CNT_FORFEIT : Fld :=
  { addr := 0x7868, width := 32, acc := .rc }

/-- LDG_CNT_FROZEN_MC (R356): enactments skipped -/
def LDG_CNT_FROZEN_MC : Fld :=
  { addr := 0x786C, width := 32, acc := .rc }

/-- LDG_CNT_GRANT_BAD (R356): grants carrying excess tokens (R341) and messages dropped (R354), one count per message -/
def LDG_CNT_GRANT_BAD : Fld :=
  { addr := 0x7870, width := 32, acc := .rc }

/-- PRIV_CNT_PART (R402): R4 events by PARTITION authority, including Cuff-fenced accesses (R148) -/
def PRIV_CNT_PART : Fld :=
  { addr := 0xF000, width := 32, acc := .rc }

/-- PRIV_CNT_TRAY (R402): R4 events by TRAY authority -/
def PRIV_CNT_TRAY : Fld :=
  { addr := 0xF004, width := 32, acc := .rc }

/-- PRIV_CNT_FLEET (R402): R4 events by FLEET authority -/
def PRIV_CNT_FLEET : Fld :=
  { addr := 0xF008, width := 32, acc := .rc }

/-- PRIV_LAST.ADDR (R402): word address [15:2] of the last event -/
def PRIV_LAST_ADDR : Fld :=
  { addr := 0xF00C, width := 14, acc := .rc }

/-- PRIV_LAST.PART (R402): reg_part of a host access -/
def PRIV_LAST_PART : Fld :=
  { addr := 0xF00C, lo := 14, width := 4, acc := .rc }

/-- PRIV_LAST.LEVEL (R402): 0 PARTITION, 1 TRAY, 2 FLEET -/
def PRIV_LAST_LEVEL : Fld :=
  { addr := 0xF00C, lo := 18, width := 2, acc := .rc }

/-- PRIV_LAST.WRITE (R402): the access was a write -/
def PRIV_LAST_WRITE : Fld :=
  { addr := 0xF00C, lo := 20, width := 1, acc := .rc }

/-- ICMD_CNT_STALE_EPOCH (R402): R160 refusals -/
def ICMD_CNT_STALE_EPOCH : Fld :=
  { addr := 0xF010, width := 32, acc := .rc }

/-- ICMD_CNT_REFUSED (R402): commands refused for any other status -/
def ICMD_CNT_REFUSED : Fld :=
  { addr := 0xF014, width := 32, acc := .rc }

/-- ITXN_CNT_COMMIT (R402): commits applied -/
def ITXN_CNT_COMMIT : Fld :=
  { addr := 0xF018, width := 32, acc := .rc }

/-- ITXN_CNT_ROLLBACK (R402): roll-backs -/
def ITXN_CNT_ROLLBACK : Fld :=
  { addr := 0xF01C, width := 32, acc := .rc }

/-- ITXN_CNT_IN_DOUBT (R402): R396 -/
def ITXN_CNT_IN_DOUBT : Fld :=
  { addr := 0xF020, width := 32, acc := .rc }

/-- STC_CTL.STOP (R421): bit c: stop context c, cause STOP -/
def STC_CTL_STOP : Fld :=
  { addr := 0x8000, width := 4, acc := .wo }

/-- STC_STAT.ACTIVE (R421): bit c: context neither STOPPED nor in FAULT -/
def STC_STAT_ACTIVE : Fld :=
  { addr := 0x8004, width := 4, acc := .ro }

/-- STC_STAT.FAULT (R421): bit c: context entered FAULT -/
def STC_STAT_FAULT : Fld :=
  { addr := 0x8004, lo := 4, width := 4, acc := .w1c }

/-- STC_CTX_CFG.BASE (R421): context c = 0 to 3: first store instruction -/
def STC_CTX_CFG_BASE : Fld :=
  { addr := 0x8100, width := 10, acc := .rw, s1 := 0x40, n1 := 4, rstep := 256 }

/-- STC_CTX_CFG.LEN (R421): instructions, 1 to 1,024 -/
def STC_CTX_CFG_LEN : Fld :=
  { addr := 0x8100, lo := 10, width := 11, acc := .rw, reset := 256, s1 := 0x40, n1 := 4, min := 1, max := 1024 }

/-- STC_CTX_CFG.OWNER (R421): owner partition -/
def STC_CTX_CFG_OWNER : Fld :=
  { addr := 0x8100, lo := 21, width := 4, acc := .rw, s1 := 0x40, n1 := 4 }

/-- STC_CTX_BUDGET (R421): 256 to 65,535; other writes ignored -/
def STC_CTX_BUDGET : Fld :=
  { addr := 0x8104, width := 16, acc := .rw, reset := 4096, s1 := 0x40, n1 := 4, min := 256, max := 65535 }

/-- STC_CTX_STAT.STATE (R421): table "Context states" -/
def STC_CTX_STAT_STATE : Fld :=
  { addr := 0x8108, width := 3, acc := .ro, s1 := 0x40, n1 := 4 }

/-- STC_CTX_STAT.LOADED (R421): a program is loaded -/
def STC_CTX_STAT_LOADED : Fld :=
  { addr := 0x8108, lo := 3, width := 1, acc := .ro, s1 := 0x40, n1 := 4 }

/-- STC_CTX_STAT.CAUSE (R421): table "Stop causes" -/
def STC_CTX_STAT_CAUSE : Fld :=
  { addr := 0x8108, lo := 4, width := 4, acc := .ro, s1 := 0x40, n1 := 4 }

/-- STC_CTX_STAT.LAST (R421): status (R416) -/
def STC_CTX_STAT_LAST : Fld :=
  { addr := 0x8108, lo := 8, width := 4, acc := .ro, s1 := 0x40, n1 := 4 }

/-- STC_CTX_PC (R421): PC -/
def STC_CTX_PC : Fld :=
  { addr := 0x810C, width := 14, acc := .ro, s1 := 0x40, n1 := 4 }

/-- STC_CTX_PROG (R421): PROG_ID -/
def STC_CTX_PROG : Fld :=
  { addr := 0x8110, width := 16, acc := .ro, s1 := 0x40, n1 := 4 }

/-- STC_CNT_INSTR (R421): instructions issued -/
def STC_CNT_INSTR : Fld :=
  { addr := 0x8114, width := 32, acc := .rc, s1 := 0x40, n1 := 4 }

/-- STC_CNT_BUDGET (R421): budgets spent (R409) -/
def STC_CNT_BUDGET : Fld :=
  { addr := 0x8118, width := 32, acc := .rc, s1 := 0x40, n1 := 4 }

/-- STC_CNT_EMPTY_TO (R421): EMPTY_TO results -/
def STC_CNT_EMPTY_TO : Fld :=
  { addr := 0x811C, width := 32, acc := .rc, s1 := 0x40, n1 := 4 }

/-- STC_CNT_FULL (R421): FULL_TO and FULL_DROP results -/
def STC_CNT_FULL : Fld :=
  { addr := 0x8120, width := 32, acc := .rc, s1 := 0x40, n1 := 4 }

/-- STC_CNT_EMIT (R421): records made -/
def STC_CNT_EMIT : Fld :=
  { addr := 0x8124, width := 32, acc := .rc, s1 := 0x40, n1 := 4 }

/-- STC_CNT_REFUSED (R421): R416 -/
def STC_CNT_REFUSED : Fld :=
  { addr := 0x8128, width := 32, acc := .rc, s1 := 0x40, n1 := 4 }

/-- STC_CNT_VAL_DUP (R421): R414 -/
def STC_CNT_VAL_DUP : Fld :=
  { addr := 0x812C, width := 32, acc := .rc, s1 := 0x40, n1 := 4 }

/-- STC_X_LO (R421): register x = 1 to 15, [31:0]; read first; zero unless STOPPED or FAULT -/
def STC_X_LO : Fld :=
  { addr := 0x8200, width := 32, acc := .ro, s1 := 0x80, n1 := 4, s2 := 0x8, n2 := 16 }

/-- STC_X_HI (R421): [63:32] -/
def STC_X_HI : Fld :=
  { addr := 0x8204, width := 32, acc := .ro, s1 := 0x80, n1 := 4, s2 := 0x8, n2 := 16 }

/-- SLOT_CFG.LOSSY (R423): 0 blocking, 1 lossy -/
def SLOT_CFG_LOSSY : Fld :=
  { addr := 0xA000, width := 1, acc := .rw, s1 := 0x10, n1 := 64 }

/-- SLOT_CFG.TO_US (R423): 1 to 1,000 us; other writes ignored -/
def SLOT_CFG_TO_US : Fld :=
  { addr := 0xA000, lo := 1, width := 10, acc := .rw, reset := 100, s1 := 0x10, n1 := 64, min := 1, max := 1000 }

/-- SLOT_STAT.FULL (R423): slot full -/
def SLOT_STAT_FULL : Fld :=
  { addr := 0xA004, width := 1, acc := .ro, s1 := 0x10, n1 := 64 }

/-- SLOT_DATA_LO (R423): [31:0]; read first; pops a full slot (R413) -/
def SLOT_DATA_LO : Fld :=
  { addr := 0xA008, width := 32, acc := .rw, s1 := 0x10, n1 := 64 }

/-- SLOT_DATA_HI (R423): [63:32]; a write fills (R413) -/
def SLOT_DATA_HI : Fld :=
  { addr := 0xA00C, width := 32, acc := .rw, s1 := 0x10, n1 := 64 }

/-- SLOT_CNT_DROP (R423): lossy and register writes discarded -/
def SLOT_CNT_DROP : Fld :=
  { addr := 0xA400, width := 32, acc := .rc }

/-- SLOT_CNT_EMPTY_READ (R423): register reads of empty slots -/
def SLOT_CNT_EMPTY_READ : Fld :=
  { addr := 0xA404, width := 32, acc := .rc }

/-- CRC_SEL of CRC unit u (R192, meaning R191) -/
def CRC_SEL : Fld :=
  { addr := 0x6100, width := 2, acc := .rw, s1 := 0x20, n1 := 4 }

/-- CRC_VAL_LO of CRC unit u (R192, meaning R191) -/
def CRC_VAL_LO : Fld :=
  { addr := 0x6104, width := 32, acc := .rw, reset := 0xFFFFFFFF, s1 := 0x20, n1 := 4 }

/-- CRC_VAL_HI of CRC unit u (R192, meaning R191) -/
def CRC_VAL_HI : Fld :=
  { addr := 0x6108, width := 32, acc := .rw, s1 := 0x20, n1 := 4 }

/-- CRC_RESULT_LO of CRC unit u (R192, meaning R191) -/
def CRC_RESULT_LO : Fld :=
  { addr := 0x610C, width := 32, acc := .ro, s1 := 0x20, n1 := 4 }

/-- CRC_RESULT_HI of CRC unit u (R192, meaning R191) -/
def CRC_RESULT_HI : Fld :=
  { addr := 0x6110, width := 32, acc := .ro, s1 := 0x20, n1 := 4 }

/-- CRC_DATA of CRC unit u (R192, meaning R191) -/
def CRC_DATA : Fld :=
  { addr := 0x6114, width := 32, acc := .wo, s1 := 0x20, n1 := 4 }

/-- The fields of the block "ITU time block". -/
def fieldsItuTimeBlock : List Fld :=
  [ITIME_CTL_ENABLE, ITIME_CTL_REARM, ITIME_CTL_KP_SHIFT, ITIME_CTL_KI_SHIFT, ITIME_STAT_STATE, ITIME_STAT_STEP_USED] ++
  [ITIME_STAT_JUMP_REFUSED, ITIME_STAT_DEGRADED, ITIME_STAT_SETTLING, ITIME_STAT_MAINS_CURRENT, ITIME_INCR_LO, ITIME_INCR_HI] ++
  [ITIME_NS_LO, ITIME_NS_HI, ITIME_JUMP_THR, ITIME_OFFSET, ITIME_MC_LO, ITIME_MC_HI] ++
  [ITIME_SLOT, ITIME_CONSERVATIVE, ITIME_CNT_STALE, ITIME_CNT_SETTLE]

/-- The fields of the block "ITU identity". -/
def fieldsItuIdentity : List Fld :=
  [ITU_ID_PART, ITU_ID_VENDOR, ITU_VERSION_PATCH, ITU_VERSION_MINOR, ITU_VERSION_MAJOR, ITU_VERSION_REC_FMT] ++
  [ITU_PARAM0_PARTITIONS, ITU_PARAM0_TAPS, ITU_PARAM0_EVENTS, ITU_PARAM0_MEM_W, ITU_PARAM0_ADDR_W, ITU_PARAM1_OUTSTANDING] ++
  [ITU_PARAM1_ROW_IDX_W, ITU_PARAM1_VISOR, ITU_PARAM1_CANARY, ITU_PARAM1_TEST_PORTS, ITU_PARAM1_TAP_LAT, ITU_PARAM2_BAR_LAT] ++
  [ITU_PARAM2_SYNC, ITU_HOST_CAP0_TDP_W, ITU_HOST_CAP0_BALLAST_MAX_W, ITU_HOST_CAP1_IDLE_W, ITU_HOST_CAP1_LICENSEE, ITU_DIE_ID_ID] ++
  [ITU_DIE_ID_VALID, ITU_FN_EN_COUNTERS, ITU_FN_EN_VISOR, ITU_FN_EN_ROWS, ITU_FN_EN_TRACE, ITU_FN_EN_DIGEST] ++
  [ITU_FN_EN_GAUNTLET, ITU_FN_EN_CANARY, ITU_FN_EN_STITCH, ITU_PD_CTL_BASE, ITU_PD_CTL_ON, ITU_PD_STAT_ON] ++
  [ITU_PD_STAT_BUSY, ITU_PD_STAT_TIMEOUT, ITU_FAULT_PWR_STALE, ITU_FAULT_CEIL_BREACH, ITU_FAULT_FLOOR_SHORT, ITU_FAULT_MEM_TO] ++
  [ITU_FAULT_ROW_TO, ITU_FAULT_QSCAN_PARTIAL, ITU_FAULT_CANARY_TO, ITU_FAULT_SR_TO, ITU_FAULT_QUIESCE_TO, ITU_FAULT_RESET_TO] ++
  [ITU_FAULT_PD_TO, ITU_FAULT_PD_OFF_ACCESS, ITU_IRQ_EN, ITU_PWR_NOW_W, ITU_PWR_NOW_TEMP, ITU_TST_CTL_DIV] ++
  [ITU_CNT_PWR_STALE, ITU_CNT_CEIL, ITU_CNT_FLOOR, ITU_CNT_MEM_TO, ITU_CNT_MEM_LATE, ITU_CNT_ROW_TO] ++
  [ITU_CNT_QSCAN_PARTIAL, ITU_CNT_CANARY_TO, ITU_CNT_SR_TO, ITU_CNT_QUIESCE_TO, ITU_CNT_RESET_TO, ITU_CNT_PD_TO]

/-- The fields of the block "Counter select". -/
def fieldsCounterSelect : List Fld :=
  [CSEL_SRC, CSEL_INDEX, CSEL_CLASS_MASK, CSEL_REASON]

/-- The fields of the block "ITU sampler". -/
def fieldsItuSampler : List Fld :=
  [SMP_CTL_RUN, SMP_CTL_CLEAR, SMP_STAT_ACTIVE, SMP_STAT_SEL_RANGE, SMP_STAT_DROP, SMP_STAT_NO_SLOTS] ++
  [SMP_PHASE, SMP_BUF_LEVEL, SMP_CNT_DROP, SMP_CNT_REFUSED, SMP_RD_IDX, SMP_RD_LO] ++
  [SMP_RD_HI, SMP_CYC_LO, SMP_CYC_HI, SMP_BLOCK_CFG_EN, SMP_BLOCK_CFG_DIV]

/-- The fields of the block "ITU Visor". -/
def fieldsItuVisor : List Fld :=
  [VIS_CTL_TRIG, VIS_CTL_PART, VIS_CTL_HOLD, VIS_CTL_RELEASE, VIS_CTL_EMIT, VIS_STAT_STATE] ++
  [VIS_STAT_RESULT, VIS_STAT_BUSY_REFUSED, VIS_STAT_PART, VIS_STORED, VIS_RECEIVED, VIS_SNAP_ID] ++
  [VIS_FREEZE_NS, VIS_RD_IDX, VIS_RD_DATA0, VIS_RD_DATA1, VIS_RD_DATA2, VIS_RD_DATA3] ++
  [VIS_CNT_REFUSED, VIS_CNT_FOREIGN, VIS_CNT_DISCARD, ROW_CTL_TRIG, ROW_CTL_PART, ROW_FIRST] ++
  [ROW_COUNT, ROW_STRIDE, ROW_RST_FIRST, ROW_RST_COUNT, ROW_RST_STRIDE, ROW_STAT_BUSY] ++
  [ROW_STAT_REFUSED, ROW_STAT_CUT, ROW_STAT_TRUNC, ROW_DONE, ROW_SAMPLE_ID, ROW_CNT_MISSING] ++
  [ROW_CNT_ERR, ROW_CNT_REFUSED, ROW_CNT_DISCARD, TRC_CTL_SYNC_INT, TRC_STAT_LEVEL, TRC_STAT_CFG_ERR] ++
  [TRC_OWN_TAP, TRC_TAP_EN, TRC_ACH_GROUP, TRC_ACH_STROBE, TRC_ACH_PART, TRC_ACH_EN] ++
  [TRC_PCTL_EN, TRC_PCTL_MODE, TRC_PCTL_BAR, TRC_PCTL_FLUSH, TRC_PSTAT_ACTIVE, TRC_PSTAT_FULL] ++
  [TRC_PSTAT_WRAPPED, TRC_PSTAT_WERR, TRC_PSTAT_RESET_STOP, TRC_PSTAT_LOST, TRC_PSTAT_FLUSH_BUSY, TRC_BASE_LO] ++
  [TRC_BASE_HI, TRC_SIZE, TRC_WPTR, TRC_LOST, TRC_MARK]

/-- The fields of the block "ITU partitions". -/
def fieldsItuPartitions : List Fld :=
  [PART_CTL_RESET, PART_CTL_PART, PART_CTL_ADV_ALL, CUFF_EPOCH, PART_CNT_REFUSED, PART_STAT_STATE] ++
  [PART_STAT_GEN, PART_STAT_HANG, PART_STAT_CUFF, PART_STAT_HELD, PART_HANG_CFG_COUNTER, PART_HANG_CFG_WINDOW] ++
  [PART_HANG_CFG_AUTO, PART_LAST_ADV_LO, PART_LAST_ADV_HI, PART_CNT_RESET, CUFF_CNT_REG, CUFF_CNT_BAR] ++
  [CUFF_CNT_DROP]

/-- The fields of the block "ITU IKL". -/
def fieldsItuIkl : List Fld :=
  [ILNK_CTL_RETRAIN, ILNK_STAT_STATE, ILNK_STAT_LOS, ILNK_STAT_SETTLING, ILNK_STAT_FMT, ILNK_STAT_CHECK] ++
  [ILNK_PEER, ILNK_CNT_CELL_BAD, ILNK_CNT_REPLAY, ILNK_CNT_DOWN, ILNK_CNT_Q_REFUSED, ILNK_CNT_FMT_DROP] ++
  [ILNK_CNT_TIME_LOST, ILNK_CNT_BAD_BLOCK, ILNK_CREDIT, ILNK_EYE_H, ILNK_EYE_W, CRC_SEL] ++
  [CRC_VAL_LO, CRC_VAL_HI, CRC_RESULT_LO, CRC_RESULT_HI, CRC_DATA]

/-- The fields of the block "ITU digest". -/
def fieldsItuDigest : List Fld :=
  [DIG_CTL_ABORT, DIG_CFG_PART, DIG_CFG_EVERY, DIG_STAT_STATE, DIG_STAT_RESULT, DIG_STEP] ++
  [DIG_UNSTABLE, DIG_RATE, DIG_RUNS_BASE_LO, DIG_RUNS_BASE_HI, DIG_RUNS_COUNT, DIG_RANGE_LO_LO] ++
  [DIG_RANGE_LO_HI, DIG_RANGE_HI_LO, DIG_RANGE_HI_HI, DIG_KEY1_LO, DIG_KEY1_HI, DIG_KEY2_LO] ++
  [DIG_KEY2_HI, DIG_KEY_SEQ, DIG_LAST_STEP, DIG_LAST_D1_LO, DIG_LAST_D1_HI, DIG_LAST_D2_LO] ++
  [DIG_LAST_D2_HI, DIG_LAST_V_LO, DIG_LAST_V_HI, DIG_LAST_N_LO, DIG_LAST_N_HI, DIG_CNT_WINDOWS] ++
  [DIG_CNT_SKIPPED, DIG_CNT_OVERRUN, DIG_CNT_ERR, DIG_CNT_DISCARD]

/-- The fields of the block "ITU Gauntlet". -/
def fieldsItuGauntlet : List Fld :=
  [GNT_CTL_ABORT, GNT_STAT_STATE, GNT_STAT_REFUSED, GNT_BUF_LEVEL, GNT_CUR_ITEM, GNT_CUR_PART] ++
  [GNT_CUR_PKG_ID, GNT_MISMATCH, GNT_DIG_LO, GNT_DIG_HI, GNT_WAIT_MC, GNT_CNT_CANARY] ++
  [GNT_CNT_SLICE, GNT_CNT_FAIL, GNT_CNT_SKIPPED, GNT_CNT_INCOMPLETE, GNT_CNT_REFUSED]

/-- The fields of the block "ITU ledger". -/
def fieldsItuLedger : List Fld :=
  [LDG_CTL_FREEZE, LDG_STAT_STATE, LDG_STAT_FROZEN, LDG_STAT_BREACH, LDG_STAT_CAPPED, LDG_STAT_FRESH] ++
  [LDG_LEVEL, LDG_SLOT, LDG_OUT_CEIL, LDG_OUT_FLOOR, LDG_TOK_UP, LDG_TOK_DN] ++
  [LDG_TOK_TR, LDG_TOK_ASK_TR, LDG_CFG_ABOVE, LDG_CFG_BELOW, LDG_CFG_RAMP_UP, LDG_CFG_RAMP_DN] ++
  [LDG_CFG_BURST_UP, LDG_CFG_BURST_DN, LDG_CFG2_PRESS_N, LDG_CFG2_PIN_N, LDG_CFG2_REPORT_MC, LDG_CMAX] ++
  [LDG_E_TOTAL_LO, LDG_E_TOTAL_HI, LDG_E_BAL_LO, LDG_E_BAL_HI, LDG_E_PIN_LO, LDG_E_PIN_HI] ++
  [LDG_CNT_PIN_US, LDG_CNT_PRESS_US, LDG_CNT_UP, LDG_CNT_DN, LDG_CNT_FORFEIT, LDG_CNT_FROZEN_MC] ++
  [LDG_CNT_GRANT_BAD]

/-- The fields of the block "ITU privileged". -/
def fieldsItuPrivileged : List Fld :=
  [PRIV_CNT_PART, PRIV_CNT_TRAY, PRIV_CNT_FLEET, PRIV_LAST_ADDR, PRIV_LAST_PART, PRIV_LAST_LEVEL] ++
  [PRIV_LAST_WRITE, ICMD_CNT_STALE_EPOCH, ICMD_CNT_REFUSED, ITXN_CNT_COMMIT, ITXN_CNT_ROLLBACK, ITXN_CNT_IN_DOUBT]

/-- The fields of the block "ITU stitch control". -/
def fieldsItuStitchControl : List Fld :=
  [STC_CTL_STOP, STC_STAT_ACTIVE, STC_STAT_FAULT, STC_CTX_CFG_BASE, STC_CTX_CFG_LEN, STC_CTX_CFG_OWNER] ++
  [STC_CTX_BUDGET, STC_CTX_STAT_STATE, STC_CTX_STAT_LOADED, STC_CTX_STAT_CAUSE, STC_CTX_STAT_LAST, STC_CTX_PC] ++
  [STC_CTX_PROG, STC_CNT_INSTR, STC_CNT_BUDGET, STC_CNT_EMPTY_TO, STC_CNT_FULL, STC_CNT_EMIT] ++
  [STC_CNT_REFUSED, STC_CNT_VAL_DUP, STC_X_LO, STC_X_HI]

/-- The fields of the block "ITU slot". -/
def fieldsItuSlot : List Fld :=
  [SLOT_CFG_LOSSY, SLOT_CFG_TO_US, SLOT_STAT_FULL, SLOT_DATA_LO, SLOT_DATA_HI, SLOT_CNT_DROP] ++
  [SLOT_CNT_EMPTY_READ]

/-- Every field of the space. -/
def fields : List Fld :=
  fieldsItuTimeBlock ++
  fieldsItuIdentity ++
  fieldsCounterSelect ++
  fieldsItuSampler ++
  fieldsItuVisor ++
  fieldsItuPartitions ++
  fieldsItuIkl ++
  fieldsItuDigest ++
  fieldsItuGauntlet ++
  fieldsItuLedger ++
  fieldsItuPrivileged ++
  fieldsItuStitchControl ++
  fieldsItuSlot

end Sys2Proof.Machine.I
end

