-- ==== Sys2Proof/Machine/RegMapLam.lean ====
section
/-! DEFINITION. The register fields of the Lamulo BAR0 (R470), one definition per named field of the spec's
register maps: offset, bit range, access code, reset value and accepted values. -/

namespace Sys2Proof.Machine.L

/-- TIME_CTL.ENABLE (R76): 1 = run the servo of R50 -/
def TIME_CTL_ENABLE : Fld :=
  { addr := 0x20000, width := 1, acc := .rw }

/-- TIME_CTL.REARM (R76): 1 = permit one further step (R48) -/
def TIME_CTL_REARM : Fld :=
  { addr := 0x20000, lo := 1, width := 1, acc := .wo, auth := 3 }

/-- TIME_CTL.FREERUN (R76): Crown only: grandmaster on own clock -/
def TIME_CTL_FREERUN : Fld :=
  { addr := 0x20000, lo := 2, width := 1, acc := .rw }

/-- TIME_CTL.KP_SHIFT (R76): proportional shift, 0 to 15 -/
def TIME_CTL_KP_SHIFT : Fld :=
  { addr := 0x20000, lo := 4, width := 4, acc := .rw, reset := 1 }

/-- TIME_CTL.KI_SHIFT (R76): integral shift, 0 to 15 -/
def TIME_CTL_KI_SHIFT : Fld :=
  { addr := 0x20000, lo := 8, width := 4, acc := .rw, reset := 4 }

/-- TIME_STAT.STATE (R76): clock state, table "Clock states" -/
def TIME_STAT_STATE : Fld :=
  { addr := 0x20004, width := 3, acc := .ro }

/-- TIME_STAT.STEP_USED (R76): the permitted step has been taken -/
def TIME_STAT_STEP_USED : Fld :=
  { addr := 0x20004, lo := 3, width := 1, acc := .ro }

/-- TIME_STAT.JUMP_REFUSED (R76): an offset above threshold was refused -/
def TIME_STAT_JUMP_REFUSED : Fld :=
  { addr := 0x20004, lo := 4, width := 1, acc := .w1c }

/-- TIME_STAT.DEGRADED (R76): over 1,000 ms in HOLDOVER (R51) -/
def TIME_STAT_DEGRADED : Fld :=
  { addr := 0x20004, lo := 5, width := 1, acc := .ro }

/-- TIME_STAT.SETTLING (R76): an active port is settling (R58) -/
def TIME_STAT_SETTLING : Fld :=
  { addr := 0x20004, lo := 6, width := 1, acc := .ro, reset := 1 }

/-- TIME_STAT.SOURCE (R76): 0 primary, 1 secondary, 2 external reference, 0xF none; 3 to 0xE never reported -/
def TIME_STAT_SOURCE : Fld :=
  { addr := 0x20004, lo := 8, width := 4, acc := .ro, reset := 15 }

/-- TIME_INCR_LO (R76): increment, fraction part; writes under R45 -/
def TIME_INCR_LO : Fld :=
  { addr := 0x20008, width := 32, acc := .rw }

/-- TIME_INCR_HI (R76): increment, integer part -/
def TIME_INCR_HI : Fld :=
  { addr := 0x2000C, width := 32, acc := .rw, reset := 1 }

/-- TIME_NS_LO (R76): local time, ns [31:0]; read first -/
def TIME_NS_LO : Fld :=
  { addr := 0x20010, width := 32, acc := .ro }

/-- TIME_NS_HI (R76): local time, ns [63:32] -/
def TIME_NS_HI : Fld :=
  { addr := 0x20014, width := 32, acc := .ro }

/-- TIME_FRAC (R76): local time fraction -/
def TIME_FRAC : Fld :=
  { addr := 0x20018, width := 32, acc := .ro }

/-- TIME_JUMP_THR (R76): jump threshold, ns, 100 to 1,000,000 -/
def TIME_JUMP_THR : Fld :=
  { addr := 0x2001C, width := 32, acc := .rw, reset := 1000, min := 100, max := 1000000 }

/-- TIME_OFFSET (R76): last off of R50, s32 ns, saturating -/
def TIME_OFFSET : Fld :=
  { addr := 0x20020, width := 32, acc := .ro }

/-- TIME_HOLD_MS (R76): ms in current HOLDOVER, saturating -/
def TIME_HOLD_MS : Fld :=
  { addr := 0x20024, width := 32, acc := .ro }

/-- TIME_CNT_SETTLE (R76): event messages discarded in settling -/
def TIME_CNT_SETTLE : Fld :=
  { addr := 0x20028, width := 32, acc := .rc }

/-- TIME_CNT_REFUSED (R76): refused offsets and unchanged TC frames -/
def TIME_CNT_REFUSED : Fld :=
  { addr := 0x2002C, width := 32, acc := .rc }

/-- TIME_PORT_CFG.MODE (R76): port p, 0 to 23: 0 off, 1 master, 2 slave, 3 listening, 4 TC pair, 5 BMCA reference; 6 and 7 reserved -/
def TIME_PORT_CFG_MODE : Fld :=
  { addr := 0x20100, width := 3, acc := .rw, s1 := 0x20, n1 := 24, max := 5 }

/-- TIME_PORT_CFG.PDELAY (R76): 0 delay request-response, 1 peer delay -/
def TIME_PORT_CFG_PDELAY : Fld :=
  { addr := 0x20100, lo := 3, width := 1, acc := .rw, s1 := 0x20, n1 := 24 }

/-- TIME_PORT_CFG.LOG_SYNC (R76): log2 Sync interval, s4, -7 to 0; other values reserved -/
def TIME_PORT_CFG_LOG_SYNC : Fld :=
  { addr := 0x20100, lo := 4, width := 4, acc := .rw, reset := 12, s1 := 0x20, n1 := 24, hole := (1, 8) }

/-- TIME_PORT_CFG.DOMAIN (R76): domain number 0 to 127 -/
def TIME_PORT_CFG_DOMAIN : Fld :=
  { addr := 0x20100, lo := 8, width := 7, acc := .rw, s1 := 0x20, n1 := 24 }

/-- TIME_PORT_CFG.PAIR (R76): MODE 4: partner port 0 to 23; 24 to 31 reserved -/
def TIME_PORT_CFG_PAIR : Fld :=
  { addr := 0x20100, lo := 15, width := 5, acc := .rw, s1 := 0x20, n1 := 24, max := 23 }

/-- TIME_PORT_ASYM (R76): delayAsymmetry, s32, ns * 2^16 -/
def TIME_PORT_ASYM : Fld :=
  { addr := 0x20104, width := 32, acc := .rw, s1 := 0x20, n1 := 24 }

/-- TIME_PORT_LAT_RX (R76): ingress latency, ns * 2^16 -/
def TIME_PORT_LAT_RX : Fld :=
  { addr := 0x20108, width := 32, acc := .ro, s1 := 0x20, n1 := 24 }

/-- TIME_PORT_LAT_TX (R76): egress latency, ns * 2^16 -/
def TIME_PORT_LAT_TX : Fld :=
  { addr := 0x2010C, width := 32, acc := .ro, s1 := 0x20, n1 := 24 }

/-- TIME_PORT_MPD (R76): mean path or link delay, ns * 2^16 -/
def TIME_PORT_MPD : Fld :=
  { addr := 0x20110, width := 32, acc := .ro, s1 := 0x20, n1 := 24 }

/-- TIME_PORT_OFFSET (R76): listening or slave offset, s32 ns, saturating -/
def TIME_PORT_OFFSET : Fld :=
  { addr := 0x20114, width := 32, acc := .ro, s1 := 0x20, n1 := 24 }

/-- MAINS_CTL.ENABLE (R76): 1 = compute slots and relay announcements; 0 = no chain held, announcements ignored without count (R70) -/
def MAINS_CTL_ENABLE : Fld :=
  { addr := 0x20400, width := 1, acc := .rw, auth := 3 }

/-- MAINS_CTL.CAPTURE (R76): Crown only: capture MZC -/
def MAINS_CTL_CAPTURE : Fld :=
  { addr := 0x20400, lo := 1, width := 1, acc := .rw, auth := 3 }

/-- MAINS_STAT.STATE (R76): mains state, table "Mains states" -/
def MAINS_STAT_STATE : Fld :=
  { addr := 0x20404, width := 3, acc := .ro }

/-- MAINS_STAT.CONSERVATIVE (R76): conservative mode (R73) -/
def MAINS_STAT_CONSERVATIVE : Fld :=
  { addr := 0x20404, lo := 3, width := 1, acc := .ro }

/-- MAINS_STAT.ANN_LOST (R76): no announcement for three cycles -/
def MAINS_STAT_ANN_LOST : Fld :=
  { addr := 0x20404, lo := 4, width := 1, acc := .ro }

/-- MAINS_STAT.ANN_MISMATCH (R76): an inconsistent announcement was refused -/
def MAINS_STAT_ANN_MISMATCH : Fld :=
  { addr := 0x20404, lo := 5, width := 1, acc := .w1c }

/-- MAINS_STAT.STANDBY (R76): standby Crown following the active Crown -/
def MAINS_STAT_STANDBY : Fld :=
  { addr := 0x20404, lo := 6, width := 1, acc := .ro }

/-- MAINS_OFS (R76): s32 ns, ±1,000,000 -/
def MAINS_OFS : Fld :=
  { addr := 0x20408, width := 32, acc := .rw }

/-- MAINS_SLEW_LIMIT (R76): ns, 1,000 to 1,000,000 -/
def MAINS_SLEW_LIMIT : Fld :=
  { addr := 0x2040C, width := 32, acc := .rw, reset := 0x30D40, min := 1000, max := 1000000 }

/-- MAINS_PERIOD_LO (R76): period, fraction [31:0]; read first -/
def MAINS_PERIOD_LO : Fld :=
  { addr := 0x20410, width := 32, acc := .ro }

/-- MAINS_PERIOD_HI (R76): period, ns -/
def MAINS_PERIOD_HI : Fld :=
  { addr := 0x20414, width := 32, acc := .ro }

/-- MAINS_MC_LO (R76): current MC [31:0]; read first -/
def MAINS_MC_LO : Fld :=
  { addr := 0x20418, width := 32, acc := .ro }

/-- MAINS_MC_HI (R76): current MC [47:32] -/
def MAINS_MC_HI : Fld :=
  { addr := 0x2041C, width := 16, acc := .ro }

/-- MAINS_START_LO (R76): START of current MC, ns [31:0]; read first -/
def MAINS_START_LO : Fld :=
  { addr := 0x20420, width := 32, acc := .ro }

/-- MAINS_START_HI (R76): START, ns [63:32] -/
def MAINS_START_HI : Fld :=
  { addr := 0x20424, width := 32, acc := .ro }

/-- MAINS_SLOT (R76): current slot -/
def MAINS_SLOT : Fld :=
  { addr := 0x20428, width := 6, acc := .ro }

/-- MAINS_PHASE_ERR (R76): last e of R64, s32 ns -/
def MAINS_PHASE_ERR : Fld :=
  { addr := 0x2042C, width := 32, acc := .ro }

/-- MAINS_MC_BASE_LO (R76): first MC number (R66), [31:0] -/
def MAINS_MC_BASE_LO : Fld :=
  { addr := 0x20430, width := 32, acc := .rw }

/-- MAINS_MC_BASE_HI (R76): first MC number, [47:32] -/
def MAINS_MC_BASE_HI : Fld :=
  { addr := 0x20434, width := 16, acc := .rw }

/-- MAINS_HOLD_MS (R76): ms in HOLDOVER or ANN_LOST, saturating -/
def MAINS_HOLD_MS : Fld :=
  { addr := 0x20438, width := 32, acc := .ro }

/-- MAINS_CNT_GLITCH (R76): edges ignored as glitches -/
def MAINS_CNT_GLITCH : Fld :=
  { addr := 0x2043C, width := 32, acc := .rc }

/-- MAINS_CNT_MISSED (R76): edges accepted for phase only -/
def MAINS_CNT_MISSED : Fld :=
  { addr := 0x20440, width := 32, acc := .rc }

/-- MAINS_CNT_LATE_ANN (R76): late or refused announcements -/
def MAINS_CNT_LATE_ANN : Fld :=
  { addr := 0x20444, width := 32, acc := .rc }

/-- MAINS_STBY_DIFF (R76): standby: own START - announced START, s32 ns -/
def MAINS_STBY_DIFF : Fld :=
  { addr := 0x20448, width := 32, acc := .ro }

/-- TRK_CTL.ENABLE (R116): 1 = apply updates -/
def TRK_CTL_ENABLE : Fld :=
  { addr := 0x80000, width := 1, acc := .rw }

/-- TRK_CTL.VIRT_EN (R116): 1 = virtual trackers in use (R113) -/
def TRK_CTL_VIRT_EN : Fld :=
  { addr := 0x80000, lo := 1, width := 1, acc := .rw }

/-- TRK_CTL.MAP_DEFAULT (R116): 1 = Tray-role default mapping (R110) -/
def TRK_CTL_MAP_DEFAULT : Fld :=
  { addr := 0x80000, lo := 2, width := 1, acc := .rw }

/-- TRK_STAT.RUNNING (R116): pipeline enabled and idle-free -/
def TRK_STAT_RUNNING : Fld :=
  { addr := 0x80004, width := 1, acc := .ro }

/-- TRK_STAT.VIRT_BEHIND (R116): a virtual update was late (R114) -/
def TRK_STAT_VIRT_BEHIND : Fld :=
  { addr := 0x80004, lo := 1, width := 1, acc := .w1c }

/-- TRK_STAT.POISON (R116): a poisoned virtual head was restarted -/
def TRK_STAT_POISON : Fld :=
  { addr := 0x80004, lo := 2, width := 1, acc := .w1c }

/-- TRK_VIRT_BASE_LO (R116): DDR byte address [31:0]; [11:0] must be zero, write ignored otherwise -/
def TRK_VIRT_BASE_LO : Fld :=
  { addr := 0x80008, width := 32, acc := .rw, align := 12 }

/-- TRK_VIRT_BASE_HI (R116): DDR byte address [63:32] -/
def TRK_VIRT_BASE_HI : Fld :=
  { addr := 0x8000C, width := 32, acc := .rw }

/-- TRK_VIRT_COUNT (R116): virtual trackers, 0 to 1,048,576 -/
def TRK_VIRT_COUNT : Fld :=
  { addr := 0x80010, width := 21, acc := .rw, max := 1048576 }

/-- TRK_CNT_UPD (R116): updates applied -/
def TRK_CNT_UPD : Fld :=
  { addr := 0x80014, width := 32, acc := .rc }

/-- TRK_CNT_DISCONT (R116): restarts -/
def TRK_CNT_DISCONT : Fld :=
  { addr := 0x80018, width := 32, acc := .rc }

/-- TRK_CNT_OLD (R116): records not newer than LAST_TIME -/
def TRK_CNT_OLD : Fld :=
  { addr := 0x8001C, width := 32, acc := .rc }

/-- TRK_CNT_NOKEY (R116): entries with no tracker -/
def TRK_CNT_NOKEY : Fld :=
  { addr := 0x80020, width := 32, acc := .rc }

/-- TRK_CNT_VIRT_LATE (R116): late virtual updates -/
def TRK_CNT_VIRT_LATE : Fld :=
  { addr := 0x80024, width := 32, acc := .rc }

/-- TRK_CNT_POISON (R116): poisoned virtual heads -/
def TRK_CNT_POISON : Fld :=
  { addr := 0x80028, width := 32, acc := .rc }

/-- TRK_SNAP_CMD (R116): tracker index to copy, 0 to 1,114,111 -/
def TRK_SNAP_CMD : Fld :=
  { addr := 0x80030, width := 21, acc := .wo }

/-- TRK_SNAP_STAT.DONE (R116): copy complete -/
def TRK_SNAP_STAT_DONE : Fld :=
  { addr := 0x80034, width := 1, acc := .ro }

/-- TRK_SNAP_STAT.BAD_IDX (R116): index not in use -/
def TRK_SNAP_STAT_BAD_IDX : Fld :=
  { addr := 0x80034, lo := 1, width := 1, acc := .ro }

/-- TRK_SNAP_DATA (R116): 96 words: the copied 384 B -/
def TRK_SNAP_DATA : Fld :=
  { addr := 0x80200, width := 32, acc := .ro, s1 := 0x4, n1 := 96 }

/-- LNK_CTL.ENABLE (R191): 1 = train and run the link; 0 = take the link to DOWN and hold it there (R184) -/
def LNK_CTL_ENABLE : Fld :=
  { addr := 0x40000, width := 1, acc := .rw, s1 := 0x1000, n1 := 16 }

/-- LNK_CTL.RETRAIN (R191): 1 = take the link down (CAUSE 6) -/
def LNK_CTL_RETRAIN : Fld :=
  { addr := 0x40000, lo := 1, width := 1, acc := .wo, s1 := 0x1000, n1 := 16 }

/-- LNK_CTL.REPAIR (R191): port marked REPAIR (R157); cleared when the port becomes ACTIVE -/
def LNK_CTL_REPAIR : Fld :=
  { addr := 0x40000, lo := 2, width := 1, acc := .rw, s1 := 0x1000, n1 := 16 }

/-- LNK_CTL.INJ_EN (R191): port takes part in injection -/
def LNK_CTL_INJ_EN : Fld :=
  { addr := 0x40000, lo := 3, width := 1, acc := .rw, s1 := 0x1000, n1 := 16 }

/-- LNK_STAT.STATE (R191): table "Link states" -/
def LNK_STAT_STATE : Fld :=
  { addr := 0x40004, width := 3, acc := .ro, s1 := 0x1000, n1 := 16 }

/-- LNK_STAT.PORT (R191): 0 not UP, 1 REJOIN, 2 ACTIVE; 3 never reported -/
def LNK_STAT_PORT : Fld :=
  { addr := 0x40004, lo := 3, width := 2, acc := .ro, s1 := 0x1000, n1 := 16 }

/-- LNK_STAT.LOS (R191): loss of signal, bit per lane -/
def LNK_STAT_LOS : Fld :=
  { addr := 0x40004, lo := 5, width := 2, acc := .ro, reset := 3, s1 := 0x1000, n1 := 16 }

/-- LNK_STAT.BLOCK_LOCK (R191): block lock, bit per lane -/
def LNK_STAT_BLOCK_LOCK : Fld :=
  { addr := 0x40004, lo := 7, width := 2, acc := .ro, s1 := 0x1000, n1 := 16 }

/-- LNK_STAT.SETTLING (R191): DOWN, TRAIN or SETTLE (R183) -/
def LNK_STAT_SETTLING : Fld :=
  { addr := 0x40004, lo := 9, width := 1, acc := .ro, reset := 1, s1 := 0x1000, n1 := 16 }

/-- LNK_STAT.UNOBSERVED (R191): die unobserved (R185) -/
def LNK_STAT_UNOBSERVED : Fld :=
  { addr := 0x40004, lo := 10, width := 1, acc := .ro, reset := 1, s1 := 0x1000, n1 := 16 }

/-- LNK_STAT.FMT (R191): agreed format; 0 none -/
def LNK_STAT_FMT : Fld :=
  { addr := 0x40004, lo := 11, width := 4, acc := .ro, s1 := 0x1000, n1 := 16 }

/-- LNK_STAT.CHECK (R191): 0 CRC-32C, 1 CRC-32 -/
def LNK_STAT_CHECK : Fld :=
  { addr := 0x40004, lo := 15, width := 1, acc := .ro, s1 := 0x1000, n1 := 16 }

/-- LNK_STAT.NO_COMMON (R191): no common format (R186) -/
def LNK_STAT_NO_COMMON : Fld :=
  { addr := 0x40004, lo := 16, width := 1, acc := .w1c, s1 := 0x1000, n1 := 16 }

/-- LNK_STAT.DOWN_CAUSE (R191): CAUSE of the last exit to DOWN from NEGOTIATE or UP (R185) -/
def LNK_STAT_DOWN_CAUSE : Fld :=
  { addr := 0x40004, lo := 17, width := 4, acc := .ro, s1 := 0x1000, n1 := 16 }

/-- LNK_REJOIN_MS (R191): rejoin threshold, 10 to 60,000 ms; other writes ignored -/
def LNK_REJOIN_MS : Fld :=
  { addr := 0x40008, width := 16, acc := .rw, reset := 1000, s1 := 0x1000, n1 := 16, min := 10, max := 60000 }

/-- IKL_TIME_PERIOD (R191): ns, 125,000 to 4,000,000; other writes ignored -/
def IKL_TIME_PERIOD : Fld :=
  { addr := 0x4000C, width := 32, acc := .rw, reset := 0xF4240, s1 := 0x1000, n1 := 16, min := 125000, max := 4000000 }

/-- IKL_TIME_ASYM (R191): s32, ns * 2^16 -/
def IKL_TIME_ASYM : Fld :=
  { addr := 0x40010, width := 32, acc := .rw, s1 := 0x1000, n1 := 16 }

/-- IKL_LAT_RX (R191): ns * 2^16 -/
def IKL_LAT_RX : Fld :=
  { addr := 0x40014, width := 32, acc := .ro, s1 := 0x1000, n1 := 16 }

/-- IKL_LAT_TX (R191): ns * 2^16 -/
def IKL_LAT_TX : Fld :=
  { addr := 0x40018, width := 32, acc := .ro, s1 := 0x1000, n1 := 16 }

/-- LNK_UNOBS_MS (R191): ms unobserved, saturating -/
def LNK_UNOBS_MS : Fld :=
  { addr := 0x4001C, width := 32, acc := .ro, s1 := 0x1000, n1 := 16 }

/-- LNK_PEER.IKL_VER (R191): from the peer's HELLO -/
def LNK_PEER_IKL_VER : Fld :=
  { addr := 0x40020, width := 8, acc := .ro, s1 := 0x1000, n1 := 16 }

/-- LNK_PEER.MAX_FMT (R191): peer's highest format -/
def LNK_PEER_MAX_FMT : Fld :=
  { addr := 0x40020, lo := 8, width := 4, acc := .ro, s1 := 0x1000, n1 := 16 }

/-- LNK_PEER.MIN_FMT (R191): peer's lowest format -/
def LNK_PEER_MIN_FMT : Fld :=
  { addr := 0x40020, lo := 12, width := 4, acc := .ro, s1 := 0x1000, n1 := 16 }

/-- LNK_PEER.CHECKS (R191): bit 16 CRC-32C, bit 17 CRC-32 -/
def LNK_PEER_CHECKS : Fld :=
  { addr := 0x40020, lo := 16, width := 2, acc := .ro, s1 := 0x1000, n1 := 16 }

/-- BRIM_LO (R191): brim entry [31:0], layout R25 -/
def BRIM_LO : Fld :=
  { addr := 0x40030, width := 32, acc := .rwc, s1 := 0x1000, n1 := 16 }

/-- BRIM_HI (R191): brim entry [63:32], layout R25 -/
def BRIM_HI : Fld :=
  { addr := 0x40034, width := 32, acc := .rwc, s1 := 0x1000, n1 := 16 }

/-- LNK_CNT_CELL_BAD (R191): cells failing check, or discarded under R169 -/
def LNK_CNT_CELL_BAD : Fld :=
  { addr := 0x40040, width := 32, acc := .rc, s1 := 0x1000, n1 := 16 }

/-- LNK_CNT_REPLAY (R191): cells resent -/
def LNK_CNT_REPLAY : Fld :=
  { addr := 0x40044, width := 32, acc := .rc, s1 := 0x1000, n1 := 16 }

/-- LNK_CNT_RESYNC (R191): partial items discarded (R174) -/
def LNK_CNT_RESYNC : Fld :=
  { addr := 0x40048, width := 32, acc := .rc, s1 := 0x1000, n1 := 16 }

/-- LNK_CNT_BAD_REC (R191): R175 step 1 -/
def LNK_CNT_BAD_REC : Fld :=
  { addr := 0x4004C, width := 32, acc := .rc, s1 := 0x1000, n1 := 16 }

/-- LNK_CNT_REC_CRC (R191): trailer failures -/
def LNK_CNT_REC_CRC : Fld :=
  { addr := 0x40050, width := 32, acc := .rc, s1 := 0x1000, n1 := 16 }

/-- LNK_CNT_DIE_MISMATCH (R191): misdirected records -/
def LNK_CNT_DIE_MISMATCH : Fld :=
  { addr := 0x40054, width := 32, acc := .rc, s1 := 0x1000, n1 := 16 }

/-- LNK_CNT_ALIVE_GAP (R191): records missing by ALIVE -/
def LNK_CNT_ALIVE_GAP : Fld :=
  { addr := 0x40058, width := 32, acc := .rc, s1 := 0x1000, n1 := 16 }

/-- LNK_CNT_REPEAT (R191): repeats (R176) -/
def LNK_CNT_REPEAT : Fld :=
  { addr := 0x4005C, width := 32, acc := .rc, s1 := 0x1000, n1 := 16 }

/-- LNK_CNT_STALE_GEN (R191): cnt_stale_gen of R153 -/
def LNK_CNT_STALE_GEN : Fld :=
  { addr := 0x40060, width := 32, acc := .rc, s1 := 0x1000, n1 := 16 }

/-- LNK_CNT_REJOIN (R191): cnt_rejoin of R153 -/
def LNK_CNT_REJOIN : Fld :=
  { addr := 0x40064, width := 32, acc := .rc, s1 := 0x1000, n1 := 16 }

/-- LNK_CNT_DOWN (R191): exits from UP -/
def LNK_CNT_DOWN : Fld :=
  { addr := 0x40068, width := 32, acc := .rc, s1 := 0x1000, n1 := 16 }

/-- LNK_CNT_FMT_DROP (R191): R187 drops -/
def LNK_CNT_FMT_DROP : Fld :=
  { addr := 0x4006C, width := 32, acc := .rc, s1 := 0x1000, n1 := 16 }

/-- LNK_CNT_CMD_REFUSED (R191): commands refused (R183) -/
def LNK_CNT_CMD_REFUSED : Fld :=
  { addr := 0x40070, width := 32, acc := .rc, s1 := 0x1000, n1 := 16 }

/-- LNK_CNT_TIME_LOST (R191): TIME cells discarded or exchanges void -/
def LNK_CNT_TIME_LOST : Fld :=
  { addr := 0x40074, width := 32, acc := .rc, s1 := 0x1000, n1 := 16 }

/-- LNK_CNT_BAD_BLOCK (R191): R165, R167 -/
def LNK_CNT_BAD_BLOCK : Fld :=
  { addr := 0x40078, width := 32, acc := .rc, s1 := 0x1000, n1 := 16 }

/-- GEN_CUR (R191): partition p = 0 to 15, R153 -/
def GEN_CUR : Fld :=
  { addr := 0x40080, width := 8, acc := .ro, s1 := 0x1000, n1 := 16, s2 := 0x8, n2 := 16 }

/-- GEN_PRV (R191): previous generation -/
def GEN_PRV : Fld :=
  { addr := 0x40080, lo := 8, width := 8, acc := .ro, s1 := 0x1000, n1 := 16, s2 := 0x8, n2 := 16 }

/-- GEN_HELD (R191): previous generation held -/
def GEN_HELD : Fld :=
  { addr := 0x40080, lo := 16, width := 1, acc := .ro, s1 := 0x1000, n1 := 16, s2 := 0x8, n2 := 16 }

/-- GEN_ADV (R191): short time of the last advance -/
def GEN_ADV : Fld :=
  { addr := 0x40084, width := 32, acc := .ro, s1 := 0x1000, n1 := 16, s2 := 0x8, n2 := 16 }

/-- LNK_CREDIT (R191): VC v = 0 to 7: cells the Lamulo may still send -/
def LNK_CREDIT : Fld :=
  { addr := 0x40100, width := 12, acc := .ro, s1 := 0x1000, n1 := 16, s2 := 0x4, n2 := 8 }

/-- LNK_EYE.H_LOCAL (R191): lane l = 0, 1: eye height, mV -/
def LNK_EYE_H_LOCAL : Fld :=
  { addr := 0x40140, width := 8, acc := .ro, s1 := 0x1000, n1 := 16, s2 := 0x4, n2 := 2 }

/-- LNK_EYE.W_LOCAL (R191): eye width, 1/64 UI -/
def LNK_EYE_W_LOCAL : Fld :=
  { addr := 0x40140, lo := 8, width := 6, acc := .ro, s1 := 0x1000, n1 := 16, s2 := 0x4, n2 := 2 }

/-- LNK_EYE.H_PEER (R191): ITU's eye height, mV -/
def LNK_EYE_H_PEER : Fld :=
  { addr := 0x40140, lo := 14, width := 8, acc := .ro, s1 := 0x1000, n1 := 16, s2 := 0x4, n2 := 2 }

/-- LNK_EYE.W_PEER (R191): ITU's eye width, 1/64 UI -/
def LNK_EYE_W_PEER : Fld :=
  { addr := 0x40140, lo := 22, width := 6, acc := .ro, s1 := 0x1000, n1 := 16, s2 := 0x4, n2 := 2 }

/-- LNK_MARGIN_MIN.H (R191): mV -/
def LNK_MARGIN_MIN_H : Fld :=
  { addr := 0x40148, width := 8, acc := .rw, reset := 30, s1 := 0x1000, n1 := 16 }

/-- LNK_MARGIN_MIN.W (R191): 1/64 UI -/
def LNK_MARGIN_MIN_W : Fld :=
  { addr := 0x40148, lo := 8, width := 6, acc := .rw, reset := 16, s1 := 0x1000, n1 := 16 }

/-- LNK_MARGIN_PERIOD (R191): ms, 100 to 60,000; other writes ignored -/
def LNK_MARGIN_PERIOD : Fld :=
  { addr := 0x4014C, width := 16, acc := .rw, reset := 1000, s1 := 0x1000, n1 := 16, min := 100, max := 60000 }

/-- INJ_CFG.KIND (R191): table "Injected faults" -/
def INJ_CFG_KIND : Fld :=
  { addr := 0x40180, width := 2, acc := .rw, auth := 3 }

/-- INJ_CFG.SLOT (R191): slot of injection -/
def INJ_CFG_SLOT : Fld :=
  { addr := 0x40180, lo := 2, width := 6, acc := .rw, auth := 3 }

/-- INJ_CFG.PERIOD_MC (R191): MCs between injections; 0 off -/
def INJ_CFG_PERIOD_MC : Fld :=
  { addr := 0x40180, lo := 8, width := 16, acc := .rw, auth := 3 }

/-- INJ_DUR_US (R191): us, 1 to 5,000; other writes ignored -/
def INJ_DUR_US : Fld :=
  { addr := 0x40184, width := 13, acc := .rw, reset := 1000, min := 1, max := 5000, auth := 3 }

/-- INJ_CNT_DONE (R191): injections made -/
def INJ_CNT_DONE : Fld :=
  { addr := 0x40188, width := 32, acc := .rc }

/-- INJ_CNT_SKIPPED (R191): injections skipped (R190) -/
def INJ_CNT_SKIPPED : Fld :=
  { addr := 0x4018C, width := 32, acc := .rc }

/-- CRC_SEL (R191): table "CRC algorithms"; a write loads the initial value -/
def CRC_SEL : Fld :=
  { addr := 0x401C0, width := 2, acc := .rw, s1 := 0x1000, n1 := 16 }

/-- CRC_VAL_LO (R191): running value [31:0] (R178) -/
def CRC_VAL_LO : Fld :=
  { addr := 0x401C4, width := 32, acc := .rw, reset := 0xFFFFFFFF, s1 := 0x1000, n1 := 16 }

/-- CRC_VAL_HI (R191): running value [63:32] -/
def CRC_VAL_HI : Fld :=
  { addr := 0x401C8, width := 32, acc := .rw, s1 := 0x1000, n1 := 16 }

/-- CRC_RESULT_LO (R191): result [31:0]; read first -/
def CRC_RESULT_LO : Fld :=
  { addr := 0x401CC, width := 32, acc := .ro, s1 := 0x1000, n1 := 16 }

/-- CRC_RESULT_HI (R191): result [63:32] -/
def CRC_RESULT_HI : Fld :=
  { addr := 0x401D0, width := 32, acc := .ro, s1 := 0x1000, n1 := 16 }

/-- CRC_DATA (R191): bytes to feed, by byte strobe -/
def CRC_DATA : Fld :=
  { addr := 0x401D4, width := 32, acc := .wo, s1 := 0x1000, n1 := 16 }

/-- STAT_CTL.ENABLE (R224): 1 = open cells and merge -/
def STAT_CTL_ENABLE : Fld :=
  { addr := 0xA0000, width := 1, acc := .rw }

/-- STAT_STAT.RUNNING (R224): engine running -/
def STAT_STAT_RUNNING : Fld :=
  { addr := 0xA0004, width := 1, acc := .ro }

/-- STAT_STAT.NOCELL (R224): a cell could not open (R210) -/
def STAT_STAT_NOCELL : Fld :=
  { addr := 0xA0004, lo := 1, width := 1, acc := .w1c }

/-- STAT_STAT.MIXED (R224): a MIXED cell was emitted -/
def STAT_STAT_MIXED : Fld :=
  { addr := 0xA0004, lo := 2, width := 1, acc := .w1c }

/-- STAT_STAT.POISON (R224): R221 applied -/
def STAT_STAT_POISON : Fld :=
  { addr := 0xA0004, lo := 3, width := 1, acc := .w1c }

/-- STAT_CLOSE_US (R224): R207; writes outside 1,000 to 60,000 fail at prepare -/
def STAT_CLOSE_US : Fld :=
  { addr := 0xA0008, width := 16, acc := .rwc, reset := 8000, min := 1000, max := 60000 }

/-- STAT_NODE_GEN (R224): restart generation (R194) -/
def STAT_NODE_GEN : Fld :=
  { addr := 0xA000C, width := 8, acc := .ro }

/-- STAT_ADMIT_RATE (R224): class c = 0 to 2, kB/s -/
def STAT_ADMIT_RATE : Fld :=
  { addr := 0xA0010, width := 32, acc := .rw, s1 := 0x8, n1 := 3, rlist := [16000, 1000000, 2000000] }

/-- STAT_ADMIT_BURST (R224): bytes -/
def STAT_ADMIT_BURST : Fld :=
  { addr := 0xA0014, width := 24, acc := .rw, s1 := 0x8, n1 := 3, rlist := [1048576, 8388608, 8388608] }

/-- STAT_CNT_UPD (R224): inputs merged -/
def STAT_CNT_UPD : Fld :=
  { addr := 0xA0040, width := 32, acc := .rc }

/-- STAT_CNT_LATE (R224): R208 -/
def STAT_CNT_LATE : Fld :=
  { addr := 0xA0044, width := 32, acc := .rc }

/-- STAT_CNT_NOCELL (R224): R210 -/
def STAT_CNT_NOCELL : Fld :=
  { addr := 0xA0048, width := 32, acc := .rc }

/-- STAT_CNT_DUP (R224): R208 -/
def STAT_CNT_DUP : Fld :=
  { addr := 0xA004C, width := 32, acc := .rc }

/-- STAT_CNT_SPEC (R224): R208 -/
def STAT_CNT_SPEC : Fld :=
  { addr := 0xA0050, width := 32, acc := .rc }

/-- STAT_CNT_POISON (R224): R221 -/
def STAT_CNT_POISON : Fld :=
  { addr := 0xA0054, width := 32, acc := .rc }

/-- STAT_CNT_ADMIT_REFUSED (R224): own records refused -/
def STAT_CNT_ADMIT_REFUSED : Fld :=
  { addr := 0xA0058, width := 32, acc := .rc }

/-- FWD_CNT_CRC (R224): R199 -/
def FWD_CNT_CRC : Fld :=
  { addr := 0xA005C, width := 32, acc := .rc }

/-- FWD_CNT_BAD_TYPE (R224): R195 -/
def FWD_CNT_BAD_TYPE : Fld :=
  { addr := 0xA0060, width := 32, acc := .rc }

/-- STAT_CNT_MISS (R224): DEADLINE_MISS records emitted -/
def STAT_CNT_MISS : Fld :=
  { addr := 0xA0064, width := 32, acc := .rc }

/-- STAT_CNT_MISS_SUPPRESSED (R224): R205 -/
def STAT_CNT_MISS_SUPPRESSED : Fld :=
  { addr := 0xA0068, width := 32, acc := .rc }

/-- STAT_CELLS.SCALAR (R224): scalar cells open -/
def STAT_CELLS_SCALAR : Fld :=
  { addr := 0xA0070, width := 13, acc := .ro }

/-- STAT_CELLS.SKETCH (R224): sketch cells open -/
def STAT_CELLS_SKETCH : Fld :=
  { addr := 0xA0070, lo := 16, width := 12, acc := .ro }

/-- RED_SPEC_LO (R224): entry s = 0 to 511, bits [31:0] (R206) -/
def RED_SPEC_LO : Fld :=
  { addr := 0xA0400, width := 32, acc := .rwc, s1 := 0x8, n1 := 512 }

/-- RED_SPEC_HI (R224): bits [63:32] -/
def RED_SPEC_HI : Fld :=
  { addr := 0xA0404, width := 32, acc := .rwc, s1 := 0x8, n1 := 512 }

/-- DET_CTL.STRAG_EN (R245): 1 = merge barrier cells and score dies -/
def DET_CTL_STRAG_EN : Fld :=
  { addr := 0x200000, width := 1, acc := .rw }

/-- DET_CTL.DRIFT_EN (R245): 1 = run detector sets -/
def DET_CTL_DRIFT_EN : Fld :=
  { addr := 0x200000, lo := 1, width := 1, acc := .rw }

/-- DET_STAT.REF_STALE (R245): an update found no usable reference -/
def DET_STAT_REF_STALE : Fld :=
  { addr := 0x200004, width := 1, acc := .w1c }

/-- DET_STAT.EVICT (R245): a pending entry was evicted -/
def DET_STAT_EVICT : Fld :=
  { addr := 0x200004, lo := 1, width := 1, acc := .w1c }

/-- DET_STAT.INCOMPARABLE (R245): a MIXED or EPOCH_MIX reference was met -/
def DET_STAT_INCOMPARABLE : Fld :=
  { addr := 0x200004, lo := 2, width := 1, acc := .w1c }

/-- DET_BAR_CLOSE_US (R245): R230; 100 to 5,000 -/
def DET_BAR_CLOSE_US : Fld :=
  { addr := 0x200008, width := 16, acc := .rwc, reset := 150, min := 100, max := 5000 }

/-- DET_HOLD_MS (R245): R232; 10 to 1,000 -/
def DET_HOLD_MS : Fld :=
  { addr := 0x200008, lo := 16, width := 10, acc := .rwc, reset := 100, min := 10, max := 1000 }

/-- DET_LOAD_CFG.BUSY (R245): busy counter (R242) -/
def DET_LOAD_CFG_BUSY : Fld :=
  { addr := 0x20000C, width := 12, acc := .rwc }

/-- DET_LOAD_CFG.WAIT (R245): wait counter (R242) -/
def DET_LOAD_CFG_WAIT : Fld :=
  { addr := 0x20000C, lo := 12, width := 12, acc := .rwc }

/-- DET_REF_AGE_MS (R245): R237; 20 to 2,000 -/
def DET_REF_AGE_MS : Fld :=
  { addr := 0x200010, width := 16, acc := .rwc, reset := 200, min := 20, max := 2000 }

/-- DET_CNT_BAR (R245): BAR_EVENTs merged -/
def DET_CNT_BAR : Fld :=
  { addr := 0x200020, width := 32, acc := .rc }

/-- DET_CNT_BAR_OPEN (R245): BAR_EVENTs with OPEN -/
def DET_CNT_BAR_OPEN : Fld :=
  { addr := 0x200024, width := 32, acc := .rc }

/-- DET_CNT_BAR_LATE (R245): late barrier inputs (R230) -/
def DET_CNT_BAR_LATE : Fld :=
  { addr := 0x200028, width := 32, acc := .rc }

/-- DET_CNT_EVICT (R245): R232 evictions -/
def DET_CNT_EVICT : Fld :=
  { addr := 0x20002C, width := 32, acc := .rc }

/-- DET_CNT_EXPIRED (R245): R232 expiries -/
def DET_CNT_EXPIRED : Fld :=
  { addr := 0x200030, width := 32, acc := .rc }

/-- DET_CNT_UNSCORED (R245): R231 -/
def DET_CNT_UNSCORED : Fld :=
  { addr := 0x200034, width := 32, acc := .rc }

/-- DET_CNT_REF_NONE (R245): R238 skips -/
def DET_CNT_REF_NONE : Fld :=
  { addr := 0x200038, width := 32, acc := .rc }

/-- DET_CNT_VERDICT (R245): verdict records emitted -/
def DET_CNT_VERDICT : Fld :=
  { addr := 0x20003C, width := 32, acc := .rc }

/-- STRAG_CFG.BAR_PART (R245): cohort c = 0 to 127: partition scored -/
def STRAG_CFG_BAR_PART : Fld :=
  { addr := 0x200400, width := 4, acc := .rwc, s1 := 0x10, n1 := 128 }

/-- STRAG_CFG.K (R245): window, 8 to 32 -/
def STRAG_CFG_K : Fld :=
  { addr := 0x200400, lo := 4, width := 6, acc := .rwc, reset := 32, s1 := 0x10, n1 := 128, min := 8, max := 32 }

/-- STRAG_CFG.LAST_MIN (R245): 1 to K -/
def STRAG_CFG_LAST_MIN : Fld :=
  { addr := 0x200400, lo := 10, width := 6, acc := .rwc, reset := 4, s1 := 0x10, n1 := 128, min := 1, max := 32 }

/-- STRAG_CFG.MIN_DIES (R245): 2 to 20,480 -/
def STRAG_CFG_MIN_DIES : Fld :=
  { addr := 0x200400, lo := 16, width := 16, acc := .rwc, reset := 64, s1 := 0x10, n1 := 128, min := 2, max := 20480 }

/-- STRAG_LATE_NS (R245): ns, 100 to 100,000,000 -/
def STRAG_LATE_NS : Fld :=
  { addr := 0x200404, width := 32, acc := .rwc, reset := 50000, s1 := 0x10, n1 := 128, min := 100, max := 100000000 }

/-- STRAG_XLATE_NS (R245): ns, 100 to 100,000,000 -/
def STRAG_XLATE_NS : Fld :=
  { addr := 0x200408, width := 32, acc := .rwc, reset := 20000, s1 := 0x10, n1 := 128, min := 100, max := 100000000 }

/-- STRAG_CFG2.MARGIN_NS (R245): 100 to 65,535 -/
def STRAG_CFG2_MARGIN_NS : Fld :=
  { addr := 0x20040C, width := 16, acc := .rwc, reset := 1000, s1 := 0x10, n1 := 128, min := 100, max := 65535 }

/-- STRAG_CFG2.EWMA_SHIFT (R245): 1 to 10 -/
def STRAG_CFG2_EWMA_SHIFT : Fld :=
  { addr := 0x20040C, lo := 16, width := 4, acc := .rwc, reset := 4, s1 := 0x10, n1 := 128, min := 1, max := 10 }

/-- DET_SET.COUNTER (R245): set d = 0 to 63 (R236) -/
def DET_SET_COUNTER : Fld :=
  { addr := 0x201000, width := 12, acc := .rwc, s1 := 0x20, n1 := 64 }

/-- DET_SET.FIELD (R245): 1 RATE, 2 FRAC; 0 and 3 fail at prepare -/
def DET_SET_FIELD : Fld :=
  { addr := 0x201000, lo := 12, width := 2, acc := .rwc, reset := 2, s1 := 0x20, n1 := 64 }

/-- DET_SET.SPEC (R245): cohort sketch specification -/
def DET_SET_SPEC : Fld :=
  { addr := 0x201000, lo := 14, width := 9, acc := .rwc, s1 := 0x20, n1 := 64 }

/-- DET_SET.SUSPECT (R245): 1 = HIGH or LOW marks suspect (R244) -/
def DET_SET_SUSPECT : Fld :=
  { addr := 0x201000, lo := 23, width := 1, acc := .rwc, s1 := 0x20, n1 := 64 }

/-- DET_SET.EN (R245): set in use -/
def DET_SET_EN : Fld :=
  { addr := 0x201000, lo := 24, width := 1, acc := .rwc, s1 := 0x20, n1 := 64 }

/-- DET_SET.EWMA_SHIFT (R245): 1 to 10 -/
def DET_SET_EWMA_SHIFT : Fld :=
  { addr := 0x201000, lo := 25, width := 4, acc := .rwc, reset := 5, s1 := 0x20, n1 := 64, min := 1, max := 10 }

/-- DET_K (R245): CUSUM k, FP32, 0 to 8 -/
def DET_K : Fld :=
  { addr := 0x201004, width := 32, acc := .rwc, reset := 0x3F000000, s1 := 0x20, n1 := 64, max := 1090519040 }

/-- DET_H (R245): CUSUM h, FP32, 1 to 1,000 -/
def DET_H : Fld :=
  { addr := 0x201008, width := 32, acc := .rwc, reset := 0x41400000, s1 := 0x20, n1 := 64, min := 1065353216, max := 1148846080 }

/-- DET_H_EWMA (R245): EWMA threshold, FP32, 0.01 to 16 -/
def DET_H_EWMA : Fld :=
  { addr := 0x20100C, width := 32, acc := .rwc, reset := 0x3F000000, s1 := 0x20, n1 := 64, min := 1008981770, max := 1098907648 }

/-- DET_WARM (R245): updates, 16 to 65,535 -/
def DET_WARM : Fld :=
  { addr := 0x201010, width := 16, acc := .rwc, reset := 64, s1 := 0x20, n1 := 64, min := 16, max := 65535 }

/-- DET_MIN_N (R245): values, 16 to 65,535 -/
def DET_MIN_N : Fld :=
  { addr := 0x201010, lo := 16, width := 16, acc := .rwc, reset := 256, s1 := 0x20, n1 := 64, min := 16, max := 65535 }

/-- DET_FLOOR (R245): relative scale floor, FP32, 2^-12 to 1 -/
def DET_FLOOR : Fld :=
  { addr := 0x201014, width := 32, acc := .rwc, reset := 0x3C800000, s1 := 0x20, n1 := 64, min := 964689920, max := 1065353216 }

/-- DET_ZCLAMP (R245): z clamp, FP32, 1 to 64; default 8 (R238) -/
def DET_ZCLAMP : Fld :=
  { addr := 0x201018, width := 32, acc := .rwc, reset := 0x41000000, s1 := 0x20, n1 := 64, min := 1065353216, max := 1115684864 }

/-- STRAG_STATE (R245): port q = 0 to 15: 16 words, table "Straggler state"; low word first (16_control_plane.md) -/
def STRAG_STATE : Fld :=
  { addr := 0x202000, width := 32, acc := .ro, s1 := 0x40, n1 := 16, s2 := 0x4, n2 := 16, roles := 1 }

/-- FST_CTL.ENABLE (R277): 1 = form vectors and run passes -/
def FST_CTL_ENABLE : Fld :=
  { addr := 0xC0000, width := 1, acc := .rw, auth := 3 }

/-- FST_CTL.QUARTERS (R277): bit n: domain D11 + n on (R274) -/
def FST_CTL_QUARTERS : Fld :=
  { addr := 0xC0000, lo := 1, width := 4, acc := .rw, reset := 15, auth := 3 }

/-- FST_STAT.QUARTERS_ON (R277): quarters powered -/
def FST_STAT_QUARTERS_ON : Fld :=
  { addr := 0xC0004, width := 4, acc := .ro }

/-- FST_STAT.RUNNING (R277): a pass is open -/
def FST_STAT_RUNNING : Fld :=
  { addr := 0xC0004, lo := 4, width := 1, acc := .ro }

/-- FST_STAT.SHADOW_ERR (R277): a shadow disagreement (R267) -/
def FST_STAT_SHADOW_ERR : Fld :=
  { addr := 0xC0004, lo := 5, width := 1, acc := .w1c }

/-- FST_STAT.FAULT (R277): a slot entered FAULT (R273) -/
def FST_STAT_FAULT : Fld :=
  { addr := 0xC0004, lo := 6, width := 1, acc := .w1c }

/-- FST_STAT.DROP (R277): a vector was dropped (R252) -/
def FST_STAT_DROP : Fld :=
  { addr := 0xC0004, lo := 7, width := 1, acc := .w1c }

/-- FST_CACHE_FREE (R277): KiB of cache unallocated -/
def FST_CACHE_FREE : Fld :=
  { addr := 0xC0008, width := 16, acc := .ro, reset := 32768 }

/-- FST_RESUME.SLOT (R277): resume a SUSPENDED slot (R267) -/
def FST_RESUME_SLOT : Fld :=
  { addr := 0xC000C, width := 6, acc := .wo, auth := 3 }

/-- FST_SHADOW_LIMIT (R277): 1 to 255; a write of 0 is ignored -/
def FST_SHADOW_LIMIT : Fld :=
  { addr := 0xC0010, width := 8, acc := .rw, reset := 4, min := 1, max := 255, auth := 3 }

/-- FST_CNT_VEC (R277): vectors scored -/
def FST_CNT_VEC : Fld :=
  { addr := 0xC0040, width := 32, acc := .rc }

/-- FST_CNT_NOVERDICT (R277): R251 -/
def FST_CNT_NOVERDICT : Fld :=
  { addr := 0xC0044, width := 32, acc := .rc }

/-- FST_CNT_NONFINITE (R277): R249 -/
def FST_CNT_NONFINITE : Fld :=
  { addr := 0xC0048, width := 32, acc := .rc }

/-- FST_CNT_SAT (R277): values outside the trained range -/
def FST_CNT_SAT : Fld :=
  { addr := 0xC004C, width := 32, acc := .rc }

/-- FST_CNT_OVF (R277): INVALID vectors (R260) -/
def FST_CNT_OVF : Fld :=
  { addr := 0xC0050, width := 32, acc := .rc }

/-- FST_CNT_NEAR (R277): R259 -/
def FST_CNT_NEAR : Fld :=
  { addr := 0xC0054, width := 32, acc := .rc }

/-- FST_CNT_SHADOW (R277): vectors rescored -/
def FST_CNT_SHADOW : Fld :=
  { addr := 0xC0058, width := 32, acc := .rc }

/-- FST_CNT_SHADOW_ERR (R277): disagreements -/
def FST_CNT_SHADOW_ERR : Fld :=
  { addr := 0xC005C, width := 32, acc := .rc }

/-- FST_CNT_QDROP (R277): R252 -/
def FST_CNT_QDROP : Fld :=
  { addr := 0xC0060, width := 32, acc := .rc }

/-- FST_CNT_AGED (R277): R271 -/
def FST_CNT_AGED : Fld :=
  { addr := 0xC0064, width := 32, acc := .rc }

/-- FST_CNT_STALE (R277): R250 -/
def FST_CNT_STALE : Fld :=
  { addr := 0xC0068, width := 32, acc := .rc }

/-- FST_CNT_FAULT_DROP (R277): R273 -/
def FST_CNT_FAULT_DROP : Fld :=
  { addr := 0xC006C, width := 32, acc := .rc }

/-- FST_SLOT_CFG.EN (R277): slot in use -/
def FST_SLOT_CFG_EN : Fld :=
  { addr := 0xC0400, width := 1, acc := .rwc, s1 := 0x40, n1 := 64 }

/-- FST_SLOT_CFG.SCOPE (R277): 0 STREAM, 1 DIE (R246) -/
def FST_SLOT_CFG_SCOPE : Fld :=
  { addr := 0xC0400, lo := 1, width := 1, acc := .rwc, s1 := 0x40, n1 := 64 }

/-- FST_SLOT_CFG.UNBOUND (R277): 1 = score unbound subjects -/
def FST_SLOT_CFG_UNBOUND : Fld :=
  { addr := 0xC0400, lo := 2, width := 1, acc := .rwc, s1 := 0x40, n1 := 64 }

/-- FST_SLOT_CFG.PIN (R277): 1 = pin trees (R272) -/
def FST_SLOT_CFG_PIN : Fld :=
  { addr := 0xC0400, lo := 3, width := 1, acc := .rwc, reset := 1, s1 := 0x40, n1 := 64 }

/-- FST_SLOT_CFG.SUSPECT (R277): 1 = flags mark suspect (R264) -/
def FST_SLOT_CFG_SUSPECT : Fld :=
  { addr := 0xC0400, lo := 4, width := 1, acc := .rwc, s1 := 0x40, n1 := 64 }

/-- FST_SLOT_CFG.DIV (R277): 0 to 10 (R247) -/
def FST_SLOT_CFG_DIV : Fld :=
  { addr := 0xC0400, lo := 5, width := 4, acc := .rwc, s1 := 0x40, n1 := 64, max := 10 }

/-- FST_SLOT_CFG.WEIGHT (R277): 1 to 255 -/
def FST_SLOT_CFG_WEIGHT : Fld :=
  { addr := 0xC0400, lo := 9, width := 8, acc := .rwc, reset := 16, s1 := 0x40, n1 := 64, min := 1, max := 255 }

/-- FST_SLOT_CFG.SHADOW_SHIFT (R277): 0 off, 4 to 15; 1 to 3 fail at prepare -/
def FST_SLOT_CFG_SHADOW_SHIFT : Fld :=
  { addr := 0xC0400, lo := 17, width := 4, acc := .rwc, reset := 10, s1 := 0x40, n1 := 64, hole := (1, 3) }

/-- FST_SLOT_CFG.CONFIRM (R277): 1 to 15 -/
def FST_SLOT_CFG_CONFIRM : Fld :=
  { addr := 0xC0400, lo := 21, width := 4, acc := .rwc, reset := 2, s1 := 0x40, n1 := 64, min := 1, max := 15 }

/-- FST_SLOT_BATCH.SIZE (R277): 128 to 2,048, multiple of 128 -/
def FST_SLOT_BATCH_SIZE : Fld :=
  { addr := 0xC0404, width := 12, acc := .rwc, reset := 2048, s1 := 0x40, n1 := 64, min := 128, max := 2048, align := 7 }

/-- FST_SLOT_BATCH.MAX_WAIT_US (R277): 100 to 1,000,000 -/
def FST_SLOT_BATCH_MAX_WAIT_US : Fld :=
  { addr := 0xC0404, lo := 12, width := 20, acc := .rwc, reset := 40000, s1 := 0x40, n1 := 64, min := 100, max := 1000000 }

/-- FST_SLOT_AGE.MAX_AGE_MS (R277): 10 to 10,000 -/
def FST_SLOT_AGE_MAX_AGE_MS : Fld :=
  { addr := 0xC0408, width := 16, acc := .rwc, reset := 1000, s1 := 0x40, n1 := 64, min := 10, max := 10000 }

/-- FST_SLOT_AGE.STALE_MS (R277): 1 to 60,000 -/
def FST_SLOT_AGE_STALE_MS : Fld :=
  { addr := 0xC0408, lo := 16, width := 16, acc := .rwc, reset := 20, s1 := 0x40, n1 := 64, min := 1, max := 60000 }

/-- FST_SLOT_MIN_PRESENT (R277): 0 to 1,024 -/
def FST_SLOT_MIN_PRESENT : Fld :=
  { addr := 0xC040C, width := 11, acc := .rwc, reset := 1, s1 := 0x40, n1 := 64, max := 1024 }

/-- FST_SLOT_QBASE_LO (R277): queue base [31:0]; [11:0] must be zero, else prepare fails -/
def FST_SLOT_QBASE_LO : Fld :=
  { addr := 0xC0410, width := 32, acc := .rwc, s1 := 0x40, n1 := 64, align := 12 }

/-- FST_SLOT_QBASE_HI (R277): queue base [63:32] -/
def FST_SLOT_QBASE_HI : Fld :=
  { addr := 0xC0414, width := 32, acc := .rwc, s1 := 0x40, n1 := 64 }

/-- FST_SLOT_QDEPTH (R277): log2 of queue lines, 14 to 28 -/
def FST_SLOT_QDEPTH : Fld :=
  { addr := 0xC0418, width := 5, acc := .rwc, reset := 14, s1 := 0x40, n1 := 64, min := 14, max := 28 }

/-- FST_SLOT_VBASE_LO (R277): verdict state base [31:0]; [11:0] must be zero -/
def FST_SLOT_VBASE_LO : Fld :=
  { addr := 0xC041C, width := 32, acc := .rwc, s1 := 0x40, n1 := 64, align := 12 }

/-- FST_SLOT_VBASE_HI (R277): verdict state base [63:32] -/
def FST_SLOT_VBASE_HI : Fld :=
  { addr := 0xC0420, width := 32, acc := .rwc, s1 := 0x40, n1 := 64 }

/-- FST_SLOT_STAT.STATE (R277): 0 IDLE, 1 RUN, 2 SUSPENDED, 3 FAULT; 4 to 7 never reported -/
def FST_SLOT_STAT_STATE : Fld :=
  { addr := 0xC0424, width := 3, acc := .ro, s1 := 0x40, n1 := 64 }

/-- FST_SLOT_STAT.SHADOW (R277): 0 EMPTY, 1 LOADING, 2 VERIFIED, 3 REJECTED -/
def FST_SLOT_STAT_SHADOW : Fld :=
  { addr := 0xC0424, lo := 3, width := 2, acc := .ro, s1 := 0x40, n1 := 64 }

/-- FST_SLOT_STAT.RETIRING (R277): retiring bank held -/
def FST_SLOT_STAT_RETIRING : Fld :=
  { addr := 0xC0424, lo := 5, width := 1, acc := .ro, s1 := 0x40, n1 := 64 }

/-- FST_SLOT_STAT.OPEN_PASS (R277): a pass of this slot is open -/
def FST_SLOT_STAT_OPEN_PASS : Fld :=
  { addr := 0xC0424, lo := 6, width := 1, acc := .ro, s1 := 0x40, n1 := 64 }

/-- FST_SLOT_STAT.PINNED (R277): active bank pinned -/
def FST_SLOT_STAT_PINNED : Fld :=
  { addr := 0xC0424, lo := 7, width := 1, acc := .ro, s1 := 0x40, n1 := 64 }

/-- FST_SLOT_STAT.SWAPS (R277): swaps, wrapping -/
def FST_SLOT_STAT_SWAPS : Fld :=
  { addr := 0xC0424, lo := 8, width := 8, acc := .ro, s1 := 0x40, n1 := 64 }

/-- FST_SLOT_STAT.LOAD_STATUS (R277): status of the last load (11_forest_images.md) -/
def FST_SLOT_STAT_LOAD_STATUS : Fld :=
  { addr := 0xC0424, lo := 16, width := 8, acc := .ro, s1 := 0x40, n1 := 64 }

/-- FST_SLOT_MODEL.ACTIVE (R277): MODEL_ID of the active bank -/
def FST_SLOT_MODEL_ACTIVE : Fld :=
  { addr := 0xC0428, width := 16, acc := .ro, s1 := 0x40, n1 := 64 }

/-- FST_SLOT_MODEL.SHADOW (R277): MODEL_ID of the shadow bank -/
def FST_SLOT_MODEL_SHADOW : Fld :=
  { addr := 0xC0428, lo := 16, width := 16, acc := .ro, s1 := 0x40, n1 := 64 }

/-- FST_SLOT_QLEVEL (R277): vectors queued -/
def FST_SLOT_QLEVEL : Fld :=
  { addr := 0xC042C, width := 21, acc := .ro, s1 := 0x40, n1 := 64 }

/-- FST_SLOT_CNT_VEC (R277): vectors scored -/
def FST_SLOT_CNT_VEC : Fld :=
  { addr := 0xC0430, width := 32, acc := .rc, s1 := 0x40, n1 := 64 }

/-- FST_SLOT_CNT_DROP (R277): dropped: queue full, aged or no bank -/
def FST_SLOT_CNT_DROP : Fld :=
  { addr := 0xC0434, width := 32, acc := .rc, s1 := 0x40, n1 := 64 }

/-- FST_SLOT_CNT_SHADOW_ERR (R277): disagreements -/
def FST_SLOT_CNT_SHADOW_ERR : Fld :=
  { addr := 0xC0438, width := 32, acc := .rc, s1 := 0x40, n1 := 64 }

/-- FST_SLOT_CACHE_KIB (R277): cache held by both banks, KiB -/
def FST_SLOT_CACHE_KIB : Fld :=
  { addr := 0xC043C, width := 16, acc := .ro, s1 := 0x40, n1 := 64 }

/-- FST_ON (R277): ON threshold of output o, FP32 -/
def FST_ON : Fld :=
  { addr := 0xC1400, width := 32, acc := .rwc, reset := 0x7F800000, s1 := 0x20, n1 := 64, s2 := 0x4, n2 := 4 }

/-- FST_OFF (R277): OFF threshold of output o, FP32; not above FST_ON -/
def FST_OFF : Fld :=
  { addr := 0xC1410, width := 32, acc := .rwc, reset := 0x7F800000, s1 := 0x20, n1 := 64, s2 := 0x4, n2 := 4 }

/-- DIGF_CTL.ENABLE (R315): 1 = merge digest cells; at the Crown, compare -/
def DIGF_CTL_ENABLE : Fld :=
  { addr := 0xE0000, width := 1, acc := .rw }

/-- DIGF_CTL.FORWARD (R315): Tray: forward DIG_SHARD records (R307) -/
def DIGF_CTL_FORWARD : Fld :=
  { addr := 0xE0000, lo := 1, width := 1, acc := .rw }

/-- DIGF_STAT.KEY_MIX (R315): a cell met two KEY_SEQ values -/
def DIGF_STAT_KEY_MIX : Fld :=
  { addr := 0xE0004, width := 1, acc := .w1c }

/-- DIGF_STAT.COVERAGE (R315): Crown: a replica was COVERAGE -/
def DIGF_STAT_COVERAGE : Fld :=
  { addr := 0xE0004, lo := 1, width := 1, acc := .w1c }

/-- DIGF_STAT.DIVERGED (R315): Crown: a replica was DIVERGED -/
def DIGF_STAT_DIVERGED : Fld :=
  { addr := 0xE0004, lo := 2, width := 1, acc := .w1c }

/-- DIGF_STAT.NOCELL (R315): a cell could not open -/
def DIGF_STAT_NOCELL : Fld :=
  { addr := 0xE0004, lo := 3, width := 1, acc := .w1c }

/-- DIGF_CLOSE_MS (R315): R308; 10 to 60,000 -/
def DIGF_CLOSE_MS : Fld :=
  { addr := 0xE0008, width := 16, acc := .rwc, reset := 2000, min := 10, max := 60000 }

/-- DIGF_KEEP (R315): Crown: windows of shard records kept, 1 to 64 -/
def DIGF_KEEP : Fld :=
  { addr := 0xE000C, width := 7, acc := .rw, reset := 4, min := 1, max := 64 }

/-- DIGF_CELLS (R315): digest cells open -/
def DIGF_CELLS : Fld :=
  { addr := 0xE0010, width := 11, acc := .ro }

/-- DIGF_CNT_SHARD (R315): shards merged -/
def DIGF_CNT_SHARD : Fld :=
  { addr := 0xE0020, width := 32, acc := .rc }

/-- DIGF_CNT_LATE (R315): R308 -/
def DIGF_CNT_LATE : Fld :=
  { addr := 0xE0024, width := 32, acc := .rc }

/-- DIGF_CNT_DUP (R315): R308 -/
def DIGF_CNT_DUP : Fld :=
  { addr := 0xE0028, width := 32, acc := .rc }

/-- DIGF_CNT_NOCELL (R315): R308 -/
def DIGF_CNT_NOCELL : Fld :=
  { addr := 0xE002C, width := 32, acc := .rc }

/-- DIGF_CNT_UNBOUND (R315): R307 -/
def DIGF_CNT_UNBOUND : Fld :=
  { addr := 0xE0030, width := 32, acc := .rc }

/-- DIGF_CNT_RESULT (R315): DIG_RESULT records emitted -/
def DIGF_CNT_RESULT : Fld :=
  { addr := 0xE0034, width := 32, acc := .rc }

/-- DIGF_CNT_LOCATED (R315): DIG_LOCATE records emitted -/
def DIGF_CNT_LOCATED : Fld :=
  { addr := 0xE0038, width := 32, acc := .rc }

/-- DIGF_EXPECT_N_LO (R315): cohort c: coefficient count [31:0] (R297) -/
def DIGF_EXPECT_N_LO : Fld :=
  { addr := 0xE0400, width := 32, acc := .rwc, s1 := 0x20, n1 := 128, roles := 8 }

/-- DIGF_EXPECT_N_HI (R315): [46:32] -/
def DIGF_EXPECT_N_HI : Fld :=
  { addr := 0xE0404, width := 15, acc := .rwc, s1 := 0x20, n1 := 128, roles := 8 }

/-- DIGF_COH_KEY1_LO (R315): k1 of the cohort [31:0] -/
def DIGF_COH_KEY1_LO : Fld :=
  { addr := 0xE0408, width := 32, acc := .rwc, s1 := 0x20, n1 := 128, roles := 8 }

/-- DIGF_COH_KEY1_HI (R315): [60:32] -/
def DIGF_COH_KEY1_HI : Fld :=
  { addr := 0xE040C, width := 29, acc := .rwc, s1 := 0x20, n1 := 128, roles := 8 }

/-- DIGF_COH.KEY_SEQ (R315): current KEY_SEQ -/
def DIGF_COH_KEY_SEQ : Fld :=
  { addr := 0xE0410, width := 8, acc := .rwc, s1 := 0x20, n1 := 128, roles := 8 }

/-- DIGF_COH.EN (R315): compare this cohort -/
def DIGF_COH_EN : Fld :=
  { addr := 0xE0410, lo := 8, width := 1, acc := .rwc, s1 := 0x20, n1 := 128, roles := 8 }

/-- DIGF_COH.PREV_SEQ (R315): previous KEY_SEQ, still accepted (R310) -/
def DIGF_COH_PREV_SEQ : Fld :=
  { addr := 0xE0410, lo := 9, width := 8, acc := .ro, s1 := 0x20, n1 := 128, roles := 8 }

/-- GNTF_CTL.ENABLE (R337): 1 = schedule items (R331) -/
def GNTF_CTL_ENABLE : Fld :=
  { addr := 0x150000, width := 1, acc := .rw }

/-- GNTF_CTL.SWEEP_EN (R337): 1 = run the sweep -/
def GNTF_CTL_SWEEP_EN : Fld :=
  { addr := 0x150000, lo := 1, width := 1, acc := .rw }

/-- GNTF_CTL.RETEST_EN (R337): 1 = run retests -/
def GNTF_CTL_RETEST_EN : Fld :=
  { addr := 0x150000, lo := 2, width := 1, acc := .rw }

/-- GNTF_STAT.SHADOW (R337): 0 EMPTY, 1 LOADING, 2 VERIFIED, 3 REJECTED -/
def GNTF_STAT_SHADOW : Fld :=
  { addr := 0x150004, width := 2, acc := .ro }

/-- GNTF_STAT.ACTIVE (R337): a package is active -/
def GNTF_STAT_ACTIVE : Fld :=
  { addr := 0x150004, lo := 2, width := 1, acc := .ro }

/-- GNTF_STAT.RETIRING (R337): retiring bank held -/
def GNTF_STAT_RETIRING : Fld :=
  { addr := 0x150004, lo := 3, width := 1, acc := .ro }

/-- GNTF_STAT.LOAD_STATUS (R337): table "Package load statuses" -/
def GNTF_STAT_LOAD_STATUS : Fld :=
  { addr := 0x150004, lo := 8, width := 8, acc := .ro }

/-- GNTF_PKG.ACTIVE_ID (R337): PKG_ID active -/
def GNTF_PKG_ACTIVE_ID : Fld :=
  { addr := 0x150008, width := 16, acc := .ro }

/-- GNTF_PKG.SHADOW_ID (R337): PKG_ID in the shadow bank -/
def GNTF_PKG_SHADOW_ID : Fld :=
  { addr := 0x150008, lo := 16, width := 16, acc := .ro }

/-- GNTF_STORE_BASE_LO (R337): package store, 512 MiB, [31:0]; [11:0] must be zero, write ignored otherwise -/
def GNTF_STORE_BASE_LO : Fld :=
  { addr := 0x15000C, width := 32, acc := .rw, align := 12 }

/-- GNTF_STORE_BASE_HI (R337): [63:32]; both written only with ENABLE = 0 -/
def GNTF_STORE_BASE_HI : Fld :=
  { addr := 0x150010, width := 32, acc := .rw }

/-- GNTF_CFG.SWEEP_STEPS (R337): 256 to 65,535, at least the sweep item count -/
def GNTF_CFG_SWEEP_STEPS : Fld :=
  { addr := 0x150014, width := 16, acc := .rwc, reset := 4096, min := 256, max := 65535 }

/-- GNTF_CFG.RETEST_STEPS (R337): 16 to 65,535 -/
def GNTF_CFG_RETEST_STEPS : Fld :=
  { addr := 0x150014, lo := 16, width := 16, acc := .rwc, reset := 256, min := 16, max := 65535 }

/-- GNTF_CFG2.STEP_MC (R337): 1 to 255 (R330) -/
def GNTF_CFG2_STEP_MC : Fld :=
  { addr := 0x150018, width := 8, acc := .rwc, reset := 25, min := 1, max := 255 }

/-- GNTF_CFG2.MAX_PAR (R337): 1 to 15 -/
def GNTF_CFG2_MAX_PAR : Fld :=
  { addr := 0x150018, lo := 8, width := 4, acc := .rwc, reset := 1, min := 1, max := 15 }

/-- GNTF_CFG2.PASSES (R337): 1 to 15 -/
def GNTF_CFG2_PASSES : Fld :=
  { addr := 0x150018, lo := 12, width := 4, acc := .rwc, reset := 2, min := 1, max := 15 }

/-- GNTF_SUSP_BASE_LO (R337): Crown suspect store [31:0]; [11:0] must be zero -/
def GNTF_SUSP_BASE_LO : Fld :=
  { addr := 0x15001C, width := 32, acc := .rw, align := 12, roles := 8 }

/-- GNTF_SUSP_BASE_HI (R337): [63:32] -/
def GNTF_SUSP_BASE_HI : Fld :=
  { addr := 0x150020, width := 32, acc := .rw, roles := 8 }

/-- GNTF_CNT_RUN (R337): items launched -/
def GNTF_CNT_RUN : Fld :=
  { addr := 0x150040, width := 32, acc := .rc }

/-- GNTF_CNT_FAIL (R337): FAIL results received -/
def GNTF_CNT_FAIL : Fld :=
  { addr := 0x150044, width := 32, acc := .rc }

/-- GNTF_CNT_SKIP (R337): SKIPPED or INCOMPLETE results received -/
def GNTF_CNT_SKIP : Fld :=
  { addr := 0x150048, width := 32, acc := .rc }

/-- GNTF_CNT_COND_WAIT (R337): R333 -/
def GNTF_CNT_COND_WAIT : Fld :=
  { addr := 0x15004C, width := 32, acc := .rc }

/-- GNTF_CNT_UNTESTABLE (R337): R321 -/
def GNTF_CNT_UNTESTABLE : Fld :=
  { addr := 0x150050, width := 32, acc := .rc }

/-- GNTF_CNT_SUSPECT_SET (R337): Crown: markings -/
def GNTF_CNT_SUSPECT_SET : Fld :=
  { addr := 0x150054, width := 32, acc := .rc }

/-- GNTF_CNT_SUSPECT_CLEARED (R337): Crown: clearings -/
def GNTF_CNT_SUSPECT_CLEARED : Fld :=
  { addr := 0x150058, width := 32, acc := .rc }

/-- OBS.SUSPECT (R337): port q = 0 to 15: die suspect -/
def OBS_SUSPECT : Fld :=
  { addr := 0x150100, width := 1, acc := .ro, s1 := 0x10, n1 := 16, roles := 1 }

/-- OBS.TBIN (R337): failing condition -/
def OBS_TBIN : Fld :=
  { addr := 0x150100, lo := 1, width := 6, acc := .ro, s1 := 0x10, n1 := 16, roles := 1 }

/-- OBS.LOAD (R337): failing condition -/
def OBS_LOAD : Fld :=
  { addr := 0x150100, lo := 7, width := 4, acc := .ro, s1 := 0x10, n1 := 16, roles := 1 }

/-- OBS.PASSES (R337): passing retests counted -/
def OBS_PASSES : Fld :=
  { addr := 0x150100, lo := 11, width := 4, acc := .ro, s1 := 0x10, n1 := 16, roles := 1 }

/-- OBS.DUE (R337): retest due -/
def OBS_DUE : Fld :=
  { addr := 0x150100, lo := 15, width := 1, acc := .ro, s1 := 0x10, n1 := 16, roles := 1 }

/-- OBS.UNTESTABLE (R337): R321 -/
def OBS_UNTESTABLE : Fld :=
  { addr := 0x150100, lo := 16, width := 1, acc := .ro, s1 := 0x10, n1 := 16, roles := 1 }

/-- GNTF_STEP (R337): step count (R330) -/
def GNTF_STEP : Fld :=
  { addr := 0x150104, width := 32, acc := .ro, s1 := 0x10, n1 := 16, roles := 1 }

/-- GNTF_SWEEP_DONE (R337): done[q] of R331 -/
def GNTF_SWEEP_DONE : Fld :=
  { addr := 0x150108, width := 12, acc := .ro, s1 := 0x10, n1 := 16, roles := 1 }

/-- GNTF_RETEST_STEP (R337): step at which the current or last retest started -/
def GNTF_RETEST_STEP : Fld :=
  { addr := 0x15010C, width := 32, acc := .ro, s1 := 0x10, n1 := 16, roles := 1 }

/-- LDGF_CTL.ENABLE (R357): 1 = run buckets, fills and grants -/
def LDGF_CTL_ENABLE : Fld :=
  { addr := 0x30000, width := 1, acc := .rw, auth := 3 }

/-- LDGF_CTL.FREEZE_ALL (R357): 1 = HOLD in every grant below this node -/
def LDGF_CTL_FREEZE_ALL : Fld :=
  { addr := 0x30000, lo := 1, width := 1, acc := .rw, auth := 3 }

/-- LDGF_STAT.RUNNING (R357): ledger running -/
def LDGF_STAT_RUNNING : Fld :=
  { addr := 0x30004, width := 1, acc := .ro }

/-- LDGF_STAT.CONSERVATIVE (R357): R353 -/
def LDGF_STAT_CONSERVATIVE : Fld :=
  { addr := 0x30004, lo := 1, width := 1, acc := .ro }

/-- LDGF_STAT.WITHHELD (R357): Crown: R343 limited an addition -/
def LDGF_STAT_WITHHELD : Fld :=
  { addr := 0x30004, lo := 2, width := 1, acc := .w1c }

/-- LDGF_STAT.STRANDED (R357): a lost child's credit is counted (R346) -/
def LDGF_STAT_STRANDED : Fld :=
  { addr := 0x30004, lo := 3, width := 1, acc := .ro }

/-- LDGF_STAT.SUM_LATE (R357): a child sent no LDG_SUM (R344) -/
def LDGF_STAT_SUM_LATE : Fld :=
  { addr := 0x30004, lo := 4, width := 1, acc := .w1c }

/-- LDGF_RATE_UP (R357): W per MC -/
def LDGF_RATE_UP : Fld :=
  { addr := 0x30008, width := 32, acc := .rwc }

/-- LDGF_RATE_DN (R357): W per MC -/
def LDGF_RATE_DN : Fld :=
  { addr := 0x3000C, width := 32, acc := .rwc }

/-- LDGF_BURST_UP (R357): W -/
def LDGF_BURST_UP : Fld :=
  { addr := 0x30010, width := 32, acc := .rwc }

/-- LDGF_BURST_DN (R357): W -/
def LDGF_BURST_DN : Fld :=
  { addr := 0x30014, width := 32, acc := .rwc }

/-- LDGF_LEVEL_UP (R357): W held in this node's bucket -/
def LDGF_LEVEL_UP : Fld :=
  { addr := 0x30018, width := 32, acc := .ro }

/-- LDGF_LEVEL_DN (R357): W -/
def LDGF_LEVEL_DN : Fld :=
  { addr := 0x3001C, width := 32, acc := .ro }

/-- LDGF_HELD_UP (R357): R346, W -/
def LDGF_HELD_UP : Fld :=
  { addr := 0x30020, width := 32, acc := .ro }

/-- LDGF_HELD_DN (R357): R346, W -/
def LDGF_HELD_DN : Fld :=
  { addr := 0x30024, width := 32, acc := .ro }

/-- LDGF_DIE.RATE_UP (R357): quanta per MC, 1 to 15 -/
def LDGF_DIE_RATE_UP : Fld :=
  { addr := 0x30028, width := 4, acc := .rwc, reset := 1, min := 1, max := 15, roles := 1 }

/-- LDGF_DIE.RATE_DN (R357): quanta per MC, 1 to 15 -/
def LDGF_DIE_RATE_DN : Fld :=
  { addr := 0x30028, lo := 4, width := 4, acc := .rwc, reset := 1, min := 1, max := 15, roles := 1 }

/-- LDGF_DIE.STRAND_MC (R357): 8 to 255 -/
def LDGF_DIE_STRAND_MC : Fld :=
  { addr := 0x30028, lo := 8, width := 8, acc := .rwc, reset := 64, min := 8, max := 255 }

/-- LDGF_SLEW_KW (R357): contracted slew, kW per MC -/
def LDGF_SLEW_KW : Fld :=
  { addr := 0x3002C, width := 32, acc := .rwc, roles := 8 }

/-- LDGF_TREE_CAP (R357): W -/
def LDGF_TREE_CAP : Fld :=
  { addr := 0x30030, width := 32, acc := .rwc, roles := 8 }

/-- LDGF_ENV (R357): W_env of the subtree -/
def LDGF_ENV : Fld :=
  { addr := 0x30034, width := 32, acc := .ro }

/-- LDGF_SUM_LEVEL (R357): sum  L, W -/
def LDGF_SUM_LEVEL : Fld :=
  { addr := 0x30038, width := 32, acc := .ro }

/-- LDGF_SUM_FLOOR (R357): sum  floor, W -/
def LDGF_SUM_FLOOR : Fld :=
  { addr := 0x3003C, width := 32, acc := .ro }

/-- LDGF_SUM_CEIL (R357): sum  ceiling, W -/
def LDGF_SUM_CEIL : Fld :=
  { addr := 0x30040, width := 32, acc := .ro }

/-- LDGF_SUM_MEAN (R357): sum  mean draw, W -/
def LDGF_SUM_MEAN : Fld :=
  { addr := 0x30044, width := 32, acc := .ro }

/-- LDGF_LIVE (R357): dies LIVE -/
def LDGF_LIVE : Fld :=
  { addr := 0x30048, width := 18, acc := .ro }

/-- LDGF_FROZEN (R357): dies frozen -/
def LDGF_FROZEN : Fld :=
  { addr := 0x3004C, width := 18, acc := .ro }

/-- LDGF_CNT_FILL (R357): fills sent -/
def LDGF_CNT_FILL : Fld :=
  { addr := 0x30050, width := 32, acc := .rc }

/-- LDGF_CNT_GRANT (R357): grants sent -/
def LDGF_CNT_GRANT : Fld :=
  { addr := 0x30054, width := 32, acc := .rc }

/-- LDGF_CNT_MSG_BAD (R357): R354 -/
def LDGF_CNT_MSG_BAD : Fld :=
  { addr := 0x30058, width := 32, acc := .rc }

/-- LDGF_CNT_WITHHELD_W (R357): R343, W -/
def LDGF_CNT_WITHHELD_W : Fld :=
  { addr := 0x3005C, width := 32, acc := .rc }

/-- LDGF_CNT_FORFEIT_W (R357): forfeited credit reported by dies, and fill credit discarded above the burst (R344), W -/
def LDGF_CNT_FORFEIT_W : Fld :=
  { addr := 0x30060, width := 32, acc := .rc }

/-- LDGF_PORT.LEVEL (R357): port q = 0 to 15: L of the die -/
def LDGF_PORT_LEVEL : Fld :=
  { addr := 0x30100, width := 16, acc := .ro, s1 := 0x10, n1 := 16, roles := 1 }

/-- LDGF_PORT.LIVE (R357): die LIVE -/
def LDGF_PORT_LIVE : Fld :=
  { addr := 0x30100, lo := 16, width := 1, acc := .ro, s1 := 0x10, n1 := 16, roles := 1 }

/-- LDGF_PORT.FROZEN (R357): die frozen -/
def LDGF_PORT_FROZEN : Fld :=
  { addr := 0x30100, lo := 17, width := 1, acc := .ro, s1 := 0x10, n1 := 16, roles := 1 }

/-- LDGF_PORT_TOK.UP (R357): tokens held, as reported -/
def LDGF_PORT_TOK_UP : Fld :=
  { addr := 0x30104, width := 8, acc := .ro, s1 := 0x10, n1 := 16, roles := 1 }

/-- LDGF_PORT_TOK.DN (R357): tokens held, as reported -/
def LDGF_PORT_TOK_DN : Fld :=
  { addr := 0x30104, lo := 8, width := 8, acc := .ro, s1 := 0x10, n1 := 16, roles := 1 }

/-- LDGF_PORT_TOK.TR (R357): test raise in force -/
def LDGF_PORT_TOK_TR : Fld :=
  { addr := 0x30104, lo := 16, width := 8, acc := .ro, s1 := 0x10, n1 := 16, roles := 1 }

/-- LDGF_PORT_EBAL_KJ (R357): ballast energy from LDG_DIE_REPORT, kJ, wrapping -/
def LDGF_PORT_EBAL_KJ : Fld :=
  { addr := 0x30108, width := 32, acc := .ro, s1 := 0x10, n1 := 16, roles := 1 }

/-- ETH_ETYPE (R375): EtherType (R360) -/
def ETH_ETYPE : Fld :=
  { addr := 0x50000, width := 16, acc := .rwc, reset := 34997 }

/-- ETH_UDP_PORT (R375): UDP port -/
def ETH_UDP_PORT : Fld :=
  { addr := 0x50000, lo := 16, width := 16, acc := .rwc, reset := 51742 }

/-- ETH_MTU (R375): 4,200 to 9,600 -/
def ETH_MTU : Fld :=
  { addr := 0x50004, width := 14, acc := .rwc, reset := 9000, min := 4200, max := 9600 }

/-- ETH_GRP_CFG.MODE (R375): group g in bits [2g+1:2g] (R358) -/
def ETH_GRP_CFG_MODE : Fld :=
  { addr := 0x50008, width := 12, acc := .rw, reset := 4095 }

/-- EGR_LIVE_US (R375): 20 to 1,000 -/
def EGR_LIVE_US : Fld :=
  { addr := 0x5000C, width := 10, acc := .rwc, reset := 50, min := 20, max := 1000 }

/-- EGR_FAILBACK_MS (R375): 1,000 to 600,000 -/
def EGR_FAILBACK_MS : Fld :=
  { addr := 0x50010, width := 32, acc := .rwc, reset := 10000, min := 1000, max := 600000 }

/-- EGR_CNT_FAILBACK_REFUSED (R375): R372 -/
def EGR_CNT_FAILBACK_REFUSED : Fld :=
  { addr := 0x50014, width := 32, acc := .rc }

/-- ETH_PORT_CFG.ROLE (R375): R359 -/
def ETH_PORT_CFG_ROLE : Fld :=
  { addr := 0x50100, width := 3, acc := .rwc, s1 := 0x100, n1 := 24 }

/-- ETH_PORT_CFG.ENCAP (R375): 0 Ethernet, 1 UDP/IPv4, 2 UDP/IPv6; 3 fails at prepare -/
def ETH_PORT_CFG_ENCAP : Fld :=
  { addr := 0x50100, lo := 3, width := 2, acc := .rwc, s1 := 0x100, n1 := 24, max := 2 }

/-- ETH_PORT_CFG.VLAN_EN (R375): send a tag -/
def ETH_PORT_CFG_VLAN_EN : Fld :=
  { addr := 0x50100, lo := 5, width := 1, acc := .rwc, s1 := 0x100, n1 := 24 }

/-- ETH_PORT_CFG.VID (R375): VLAN ID -/
def ETH_PORT_CFG_VID : Fld :=
  { addr := 0x50100, lo := 6, width := 12, acc := .rwc, s1 := 0x100, n1 := 24 }

/-- ETH_PORT_CFG.PCP (R375): priority code point -/
def ETH_PORT_CFG_PCP : Fld :=
  { addr := 0x50100, lo := 18, width := 3, acc := .rwc, s1 := 0x100, n1 := 24 }

/-- ETH_PORT_PEER.NODE (R375): peer node number -/
def ETH_PORT_PEER_NODE : Fld :=
  { addr := 0x50104, width := 19, acc := .rwc, s1 := 0x100, n1 := 24 }

/-- ETH_PORT_PEER.STANDBY (R375): peer is the standby Crown -/
def ETH_PORT_PEER_STANDBY : Fld :=
  { addr := 0x50104, lo := 19, width := 1, acc := .rwc, s1 := 0x100, n1 := 24 }

/-- ETH_PORT_STAT.UP (R375): PCS link up -/
def ETH_PORT_STAT_UP : Fld :=
  { addr := 0x50108, width := 1, acc := .ro, s1 := 0x100, n1 := 24 }

/-- ETH_PORT_STAT.LIVE (R375): LINK frames within EGR_LIVE_US -/
def ETH_PORT_STAT_LIVE : Fld :=
  { addr := 0x50108, lo := 1, width := 1, acc := .ro, s1 := 0x100, n1 := 24 }

/-- ETH_PORT_STAT.CARRYING (R375): parent port now in use -/
def ETH_PORT_STAT_CARRYING : Fld :=
  { addr := 0x50108, lo := 2, width := 1, acc := .ro, s1 := 0x100, n1 := 24 }

/-- ETH_CNT_FCS (R375): frames with bad FCS, checksum or VER -/
def ETH_CNT_FCS : Fld :=
  { addr := 0x5010C, width := 32, acc := .rc, s1 := 0x100, n1 := 24 }

/-- ETH_CNT_PAUSE (R375): PAUSE or PFC frames discarded -/
def ETH_CNT_PAUSE : Fld :=
  { addr := 0x50110, width := 32, acc := .rc, s1 := 0x100, n1 := 24 }

/-- ETH_CNT_RESENT (R375): frames resent -/
def ETH_CNT_RESENT : Fld :=
  { addr := 0x50114, width := 32, acc := .rc, s1 := 0x100, n1 := 24 }

/-- ETH_CNT_NAK (R375): NAKs sent -/
def ETH_CNT_NAK : Fld :=
  { addr := 0x50118, width := 32, acc := .rc, s1 := 0x100, n1 := 24 }

/-- ETH_PEER_MAC (R375): peer MAC [47:0] -/
def ETH_PEER_MAC : Fld :=
  { addr := 0x50120, width := 32, acc := .rwc, s1 := 0x100, n1 := 24, s2 := 0x4, n2 := 2 }

/-- ETH_LOCAL_IP (R375): local address; IPv4 in the first word -/
def ETH_LOCAL_IP : Fld :=
  { addr := 0x50128, width := 32, acc := .rwc, s1 := 0x100, n1 := 24, s2 := 0x4, n2 := 4 }

/-- ETH_PEER_IP (R375): peer address; IPv4 in the first word -/
def ETH_PEER_IP : Fld :=
  { addr := 0x50138, width := 32, acc := .rwc, s1 := 0x100, n1 := 24, s2 := 0x4, n2 := 4 }

/-- GATE_CTL.EN (R376): 0 = all gates open (R365) -/
def GATE_CTL_EN : Fld :=
  { addr := 0x60000, width := 1, acc := .rwc, s1 := 0x1000, n1 := 24 }

/-- GATE_CTL.LEN (R376): entries, 1 to 256 -/
def GATE_CTL_LEN : Fld :=
  { addr := 0x60000, lo := 1, width := 9, acc := .rwc, reset := 1, s1 := 0x1000, n1 := 24, min := 1, max := 256 }

/-- GATE_STAT.STATES (R376): gates open now -/
def GATE_STAT_STATES : Fld :=
  { addr := 0x60004, width := 6, acc := .ro, reset := 63, s1 := 0x1000, n1 := 24 }

/-- GATE_STAT.ENTRY (R376): current entry -/
def GATE_STAT_ENTRY : Fld :=
  { addr := 0x60004, lo := 8, width := 8, acc := .ro, s1 := 0x1000, n1 := 24 }

/-- GATE_STAT.RETIRING (R376): retiring bank held -/
def GATE_STAT_RETIRING : Fld :=
  { addr := 0x60004, lo := 16, width := 1, acc := .ro, s1 := 0x1000, n1 := 24 }

/-- SHP_RATE (R376): kB/s; 0 unshaped -/
def SHP_RATE : Fld :=
  { addr := 0x60010, width := 32, acc := .rwc, s1 := 0x1000, n1 := 24, s2 := 0x8, n2 := 6 }

/-- SHP_BURST (R376): bytes -/
def SHP_BURST : Fld :=
  { addr := 0x60014, width := 32, acc := .rwc, reset := 0x10000, s1 := 0x1000, n1 := 24, s2 := 0x8, n2 := 6 }

/-- POL_CFG.MODE (R376): 0 off, 1 RFC 2697, 2 RFC 2698; 3 fails at prepare -/
def POL_CFG_MODE : Fld :=
  { addr := 0x60040, width := 2, acc := .rwc, s1 := 0x1000, n1 := 24, s2 := 0x20, n2 := 4, max := 2 }

/-- POL_CFG.AWARE (R376): colour-aware -/
def POL_CFG_AWARE : Fld :=
  { addr := 0x60040, lo := 2, width := 1, acc := .rwc, s1 := 0x1000, n1 := 24, s2 := 0x20, n2 := 4 }

/-- POL_CFG.YELLOW_PCT (R376): 1 to 100 -/
def POL_CFG_YELLOW_PCT : Fld :=
  { addr := 0x60040, lo := 3, width := 7, acc := .rwc, reset := 75, s1 := 0x1000, n1 := 24, s2 := 0x20, n2 := 4, min := 1, max := 100 }

/-- POL_CIR (R376): kB/s -/
def POL_CIR : Fld :=
  { addr := 0x60044, width := 32, acc := .rwc, s1 := 0x1000, n1 := 24, s2 := 0x20, n2 := 4 }

/-- POL_CBS (R376): bytes, at least ETH_MTU + 64 -/
def POL_CBS : Fld :=
  { addr := 0x60048, width := 32, acc := .rwc, s1 := 0x1000, n1 := 24, s2 := 0x20, n2 := 4 }

/-- POL_PIR (R376): kB/s, mode 2; at least POL_CIR -/
def POL_PIR : Fld :=
  { addr := 0x6004C, width := 32, acc := .rwc, s1 := 0x1000, n1 := 24, s2 := 0x20, n2 := 4 }

/-- POL_EBS_PBS (R376): EBS (mode 1) or PBS (mode 2), bytes -/
def POL_EBS_PBS : Fld :=
  { addr := 0x60050, width := 32, acc := .rwc, s1 := 0x1000, n1 := 24, s2 := 0x20, n2 := 4 }

/-- EGR_CNT_GATE_WAIT (R376): R366 -/
def EGR_CNT_GATE_WAIT : Fld :=
  { addr := 0x600C0, width := 32, acc := .rc, s1 := 0x1000, n1 := 24 }

/-- POL_CNT_YELLOW (R376): yellow frames dropped -/
def POL_CNT_YELLOW : Fld :=
  { addr := 0x600C4, width := 32, acc := .rc, s1 := 0x1000, n1 := 24 }

/-- POL_CNT_RED (R376): red frames dropped -/
def POL_CNT_RED : Fld :=
  { addr := 0x600C8, width := 32, acc := .rc, s1 := 0x1000, n1 := 24 }

/-- GCL (R376): entry e = 0 to 255 (R365) -/
def GCL : Fld :=
  { addr := 0x60800, width := 32, acc := .rwc, reset := 0xFFFFFF3F, s1 := 0x1000, n1 := 24, s2 := 0x4, n2 := 256 }

/-- CMDQ_CTL.ENABLE (R401): 1 = take packets from the host ring -/
def CMDQ_CTL_ENABLE : Fld :=
  { addr := 0x120000, width := 1, acc := .rw }

/-- CMDQ_STAT.RUNNING (R401): ring in service -/
def CMDQ_STAT_RUNNING : Fld :=
  { addr := 0x120004, width := 1, acc := .ro }

/-- CMDQ_STAT.IN_DOUBT (R401): R396 -/
def CMDQ_STAT_IN_DOUBT : Fld :=
  { addr := 0x120004, lo := 1, width := 1, acc := .ro }

/-- CMDQ_STAT.WDOG (R401): R397 acted -/
def CMDQ_STAT_WDOG : Fld :=
  { addr := 0x120004, lo := 2, width := 1, acc := .w1c }

/-- CMDQ_STAT.AUTH_FAIL (R401): R379 refused a packet -/
def CMDQ_STAT_AUTH_FAIL : Fld :=
  { addr := 0x120004, lo := 3, width := 1, acc := .w1c }

/-- CMDQ_BASE_LO (R401): ring base [31:0]; [11:0] must be zero, write ignored otherwise -/
def CMDQ_BASE_LO : Fld :=
  { addr := 0x120008, width := 32, acc := .rw, align := 12 }

/-- CMDQ_BASE_HI (R401): [63:32]; both written only with ENABLE = 0 -/
def CMDQ_BASE_HI : Fld :=
  { addr := 0x12000C, width := 32, acc := .rw }

/-- CMDQ_SLOTS (R401): 16 to 1,024 -/
def CMDQ_SLOTS : Fld :=
  { addr := 0x120010, width := 11, acc := .rw, reset := 16, min := 16, max := 1024 }

/-- CMDQ_TAIL (R401): next slot the host fills -/
def CMDQ_TAIL : Fld :=
  { addr := 0x120014, width := 10, acc := .rw }

/-- CMDQ_HEAD (R401): next slot the Lamulo takes -/
def CMDQ_HEAD : Fld :=
  { addr := 0x120018, width := 10, acc := .ro }

/-- RPLQ_BASE_LO (R401): reply ring base [31:0]; [11:0] must be zero -/
def RPLQ_BASE_LO : Fld :=
  { addr := 0x12001C, width := 32, acc := .rw, align := 12 }

/-- RPLQ_BASE_HI (R401): [63:32] -/
def RPLQ_BASE_HI : Fld :=
  { addr := 0x120020, width := 32, acc := .rw }

/-- RPLQ_SLOTS (R401): 16 to 1,024 -/
def RPLQ_SLOTS : Fld :=
  { addr := 0x120024, width := 11, acc := .rw, reset := 16, min := 16, max := 1024 }

/-- RPLQ_HEAD (R401): next reply the host consumes -/
def RPLQ_HEAD : Fld :=
  { addr := 0x120028, width := 10, acc := .rw }

/-- RPLQ_TAIL (R401): next reply slot written -/
def RPLQ_TAIL : Fld :=
  { addr := 0x12002C, width := 10, acc := .ro }

/-- RPLQ_VEC (R401): MSI-X vector, 0 to 63 -/
def RPLQ_VEC : Fld :=
  { addr := 0x120030, width := 6, acc := .rw }

/-- CMD_TTL_MS (R401): 10 to 2,000 -/
def CMD_TTL_MS : Fld :=
  { addr := 0x120034, width := 11, acc := .rw, reset := 1000, min := 10, max := 2000, auth := 3 }

/-- TXN_LEAD_US (R401): Crown; 8,000 to 1,000,000 -/
def TXN_LEAD_US : Fld :=
  { addr := 0x120038, width := 20, acc := .rw, reset := 10000, min := 8000, max := 1000000, auth := 3 }

/-- TXN_WDOG_MS (R401): 10 to 1,000 -/
def TXN_WDOG_MS : Fld :=
  { addr := 0x12003C, width := 10, acc := .rw, reset := 100, min := 10, max := 1000, auth := 3 }

/-- TXN_IDLE_MS (R401): 100 to 60,000 -/
def TXN_IDLE_MS : Fld :=
  { addr := 0x120040, width := 16, acc := .rw, reset := 10000, min := 100, max := 60000, auth := 3 }

/-- CMD_MERGE_US (R401): R382; 100 to 60,000 -/
def CMD_MERGE_US : Fld :=
  { addr := 0x120044, width := 16, acc := .rw, reset := 1000, min := 100, max := 60000, auth := 3 }

/-- CFG_EPOCH (R401): epoch in force -/
def CFG_EPOCH : Fld :=
  { addr := 0x120048, width := 16, acc := .ro }

/-- TXN_OPEN (R401): transactions open or staging here -/
def TXN_OPEN : Fld :=
  { addr := 0x12004C, width := 5, acc := .ro }

/-- TXN_LAST_C (R401): short time of the last commit applied -/
def TXN_LAST_C : Fld :=
  { addr := 0x120050, width := 32, acc := .ro }

/-- CMD_CNT_RX (R401): packets received -/
def CMD_CNT_RX : Fld :=
  { addr := 0x120080, width := 32, acc := .rc }

/-- CMD_CNT_REFUSED (R401): packets refused or discarded -/
def CMD_CNT_REFUSED : Fld :=
  { addr := 0x120084, width := 32, acc := .rc }

/-- CMD_CNT_AUTH_FAIL (R401): R379 -/
def CMD_CNT_AUTH_FAIL : Fld :=
  { addr := 0x120088, width := 32, acc := .rc }

/-- CMD_CNT_REPLAY (R401): R380 replay and freshness -/
def CMD_CNT_REPLAY : Fld :=
  { addr := 0x12008C, width := 32, acc := .rc }

/-- TXN_CNT_COMMIT (R401): commits applied -/
def TXN_CNT_COMMIT : Fld :=
  { addr := 0x120090, width := 32, acc := .rc }

/-- TXN_CNT_ROLLBACK (R401): roll-backs -/
def TXN_CNT_ROLLBACK : Fld :=
  { addr := 0x120094, width := 32, acc := .rc }

/-- TXN_CNT_WDOG (R401): R397 -/
def TXN_CNT_WDOG : Fld :=
  { addr := 0x120098, width := 32, acc := .rc }

/-- TXN_CNT_IN_DOUBT (R401): R396 -/
def TXN_CNT_IN_DOUBT : Fld :=
  { addr := 0x12009C, width := 32, acc := .rc }

/-- LOCK_CNT_ABANDONED (R401): R399 -/
def LOCK_CNT_ABANDONED : Fld :=
  { addr := 0x1200A0, width := 32, acc := .rc }

/-- LOCK_CNT_ORDER (R401): LOCK_ORDER refusals -/
def LOCK_CNT_ORDER : Fld :=
  { addr := 0x1200A4, width := 32, acc := .rc }

/-- CMDQ_CNT_RWC_IGNORED (R401): R388 -/
def CMDQ_CNT_RWC_IGNORED : Fld :=
  { addr := 0x1200A8, width := 32, acc := .rc }

/-- PRIV_CNT_TRAY (R401): R389, TRAY issuers -/
def PRIV_CNT_TRAY : Fld :=
  { addr := 0x1200C0, width := 32, acc := .rc }

/-- PRIV_CNT_FLEET (R401): R389, FLEET issuers -/
def PRIV_CNT_FLEET : Fld :=
  { addr := 0x1200C4, width := 32, acc := .rc }

/-- PRIV_LAST.ADDR (R401): word address of the last event -/
def PRIV_LAST_ADDR : Fld :=
  { addr := 0x1200C8, width := 24, acc := .rc }

/-- PRIV_LAST.LEVEL (R401): 1 TRAY, 2 FLEET -/
def PRIV_LAST_LEVEL : Fld :=
  { addr := 0x1200C8, lo := 24, width := 2, acc := .rc }

/-- PRIV_LAST.WRITE (R401): the access was a write -/
def PRIV_LAST_WRITE : Fld :=
  { addr := 0x1200C8, lo := 26, width := 1, acc := .rc }

/-- LOCK_STATE_LO.OWNER (R401): lock i = 0 to 255: die ID or origin node -/
def LOCK_STATE_LO_OWNER : Fld :=
  { addr := 0x120800, width := 19, acc := .ro, s1 := 0x8, n1 := 256 }

/-- LOCK_STATE_LO.SUB (R401): partition or issuer -/
def LOCK_STATE_LO_SUB : Fld :=
  { addr := 0x120800, lo := 19, width := 4, acc := .ro, s1 := 0x8, n1 := 256 }

/-- LOCK_STATE_LO.IS_PART (R401): owner kind -/
def LOCK_STATE_LO_IS_PART : Fld :=
  { addr := 0x120800, lo := 23, width := 1, acc := .ro, s1 := 0x8, n1 := 256 }

/-- LOCK_STATE_LO.GEN (R401): owner generation -/
def LOCK_STATE_LO_GEN : Fld :=
  { addr := 0x120800, lo := 24, width := 8, acc := .ro, s1 := 0x8, n1 := 256 }

/-- LOCK_STATE_HI.HELD (R401): lock held -/
def LOCK_STATE_HI_HELD : Fld :=
  { addr := 0x120804, width := 1, acc := .ro, s1 := 0x8, n1 := 256 }

/-- LOCK_STATE_HI.ABANDONED (R401): last holder abandoned -/
def LOCK_STATE_HI_ABANDONED : Fld :=
  { addr := 0x120804, lo := 1, width := 1, acc := .ro, s1 := 0x8, n1 := 256 }

/-- LOCK_STATE_HI.WAITERS (R401): 0 to 4 -/
def LOCK_STATE_HI_WAITERS : Fld :=
  { addr := 0x120804, lo := 2, width := 3, acc := .ro, s1 := 0x8, n1 := 256 }

/-- LOCK_STATE_HI.ACQ_MC (R401): MC of the grant, [23:0] -/
def LOCK_STATE_HI_ACQ_MC : Fld :=
  { addr := 0x120804, lo := 8, width := 24, acc := .ro, s1 := 0x8, n1 := 256 }

/-- STC_CTL.ENABLE (R424): 1 = contexts may run; clearing stops all with cause DISABLED -/
def STC_CTL_ENABLE : Fld :=
  { addr := 0x130000, width := 1, acc := .rw, auth := 3 }

/-- STC_STAT.ACTIVE (R424): bit c = 0 to 31, as R421 -/
def STC_STAT_ACTIVE : Fld :=
  { addr := 0x130004, width := 32, acc := .ro }

/-- STC_STAT.FAULT (R424): bit c, as R421 -/
def STC_STAT_FAULT : Fld :=
  { addr := 0x130008, width := 32, acc := .w1c }

/-- STC_CTL_STOP (R424): bit c: stop context c -/
def STC_CTL_STOP : Fld :=
  { addr := 0x13000C, width := 32, acc := .wo }

/-- STC_STORE_BASE_LO (R424): image store [31:0]; [11:0] must be zero, write ignored otherwise -/
def STC_STORE_BASE_LO : Fld :=
  { addr := 0x130010, width := 32, acc := .rw, align := 12, auth := 3 }

/-- STC_STORE_BASE_HI (R424): [63:32] -/
def STC_STORE_BASE_HI : Fld :=
  { addr := 0x130014, width := 32, acc := .rw, auth := 3 }

/-- STC_CTX_CFG.BASE (R424): context c = 0 to 31 -/
def STC_CTX_CFG_BASE : Fld :=
  { addr := 0x130100, width := 14, acc := .rw, s1 := 0x40, n1 := 32, rstep := 512 }

/-- STC_CTX_CFG.LEN (R424): 1 to 16,384 -/
def STC_CTX_CFG_LEN : Fld :=
  { addr := 0x130100, lo := 14, width := 15, acc := .rw, reset := 512, s1 := 0x40, n1 := 32, min := 1, max := 16384 }

/-- CMP_CTL.ENABLE (R444): 1 = serve the rings; clearing aborts running descriptors -/
def CMP_CTL_ENABLE : Fld :=
  { addr := 0x100000, width := 1, acc := .rw }

/-- CMP_STAT.RUNNING (R444): a descriptor is running -/
def CMP_STAT_RUNNING : Fld :=
  { addr := 0x100004, width := 1, acc := .ro }

/-- CMP_STAT.ERROR (R444): a descriptor ended other than OK -/
def CMP_STAT_ERROR : Fld :=
  { addr := 0x100004, lo := 1, width := 1, acc := .w1c }

/-- CMP_CNT_DESC (R444): descriptors ended -/
def CMP_CNT_DESC : Fld :=
  { addr := 0x100040, width := 32, acc := .rc }

/-- CMP_CNT_ERR (R444): descriptors ended other than OK -/
def CMP_CNT_ERR : Fld :=
  { addr := 0x100044, width := 32, acc := .rc }

/-- CMP_CNT_IN_KIB (R444): input consumed, KiB -/
def CMP_CNT_IN_KIB : Fld :=
  { addr := 0x100048, width := 32, acc := .rc }

/-- CMP_CNT_OUT_KIB (R444): output written, KiB -/
def CMP_CNT_OUT_KIB : Fld :=
  { addr := 0x10004C, width := 32, acc := .rc }

/-- CMP_RING_BASE_LO (R444): ring base [31:0]; [11:0] must be zero, write ignored otherwise -/
def CMP_RING_BASE_LO : Fld :=
  { addr := 0x100100, width := 32, acc := .rw, s1 := 0x40, n1 := 2, align := 12 }

/-- CMP_RING_BASE_HI (R444): [63:32] -/
def CMP_RING_BASE_HI : Fld :=
  { addr := 0x100104, width := 32, acc := .rw, s1 := 0x40, n1 := 2 }

/-- CMP_RING_SLOTS (R444): 16 to 4,096 -/
def CMP_RING_SLOTS : Fld :=
  { addr := 0x100108, width := 13, acc := .rw, reset := 16, s1 := 0x40, n1 := 2, min := 16, max := 4096 }

/-- CMP_RING_TAIL (R444): next slot firmware fills -/
def CMP_RING_TAIL : Fld :=
  { addr := 0x10010C, width := 12, acc := .rw, s1 := 0x40, n1 := 2 }

/-- CMP_RING_HEAD (R444): next slot the engine takes -/
def CMP_RING_HEAD : Fld :=
  { addr := 0x100110, width := 12, acc := .ro, s1 := 0x40, n1 := 2 }

/-- CMP_OUT_LIMIT (R444): output cap per descriptor (R430) -/
def CMP_OUT_LIMIT : Fld :=
  { addr := 0x100114, width := 32, acc := .rw, reset := 0xFFFFFFFF, s1 := 0x40, n1 := 2 }

/-- CMP_RING.FLUSH (R444): end the current block (R428) -/
def CMP_RING_FLUSH : Fld :=
  { addr := 0x100118, width := 1, acc := .wo, s1 := 0x40, n1 := 2 }

/-- CMP_RING.ABORT (R444): end the running descriptor ABORTED -/
def CMP_RING_ABORT : Fld :=
  { addr := 0x100118, lo := 1, width := 1, acc := .wo, s1 := 0x40, n1 := 2 }

/-- CMP_RING.VEC (R444): MSI-X vector, 0 to 63 -/
def CMP_RING_VEC : Fld :=
  { addr := 0x100118, lo := 2, width := 6, acc := .rw, s1 := 0x40, n1 := 2 }

/-- CMP_RING_STAT.BUSY (R444): descriptor running -/
def CMP_RING_STAT_BUSY : Fld :=
  { addr := 0x10011C, width := 1, acc := .ro, s1 := 0x40, n1 := 2 }

/-- CMP_RING_STAT.HELD (R444): open block held (R429) -/
def CMP_RING_STAT_HELD : Fld :=
  { addr := 0x10011C, lo := 1, width := 1, acc := .ro, s1 := 0x40, n1 := 2 }

/-- CMP_RING_STAT.LAST (R444): STATUS of the last descriptor -/
def CMP_RING_STAT_LAST : Fld :=
  { addr := 0x10011C, lo := 2, width := 8, acc := .ro, s1 := 0x40, n1 := 2 }

/-- REC_CTL.ENABLE (R445): 1 = scan (R441), then record -/
def REC_CTL_ENABLE : Fld :=
  { addr := 0x110000, width := 1, acc := .rw }

/-- REC_CTL.FLUSH (R445): 1 = flush (R434) -/
def REC_CTL_FLUSH : Fld :=
  { addr := 0x110000, lo := 1, width := 1, acc := .wo }

/-- REC_STAT.STATE (R445): 0 OFF, 1 SCAN, 2 RECORD, 3 FROZEN, 4 FULL, 5 PFW, 6 PFW_DONE; 7 never reported -/
def REC_STAT_STATE : Fld :=
  { addr := 0x110004, width := 3, acc := .ro }

/-- REC_STAT.FLUSHING (R445): a unit is being written -/
def REC_STAT_FLUSHING : Fld :=
  { addr := 0x110004, lo := 3, width := 1, acc := .ro }

/-- REC_STAT.ERASING (R445): an erase is running -/
def REC_STAT_ERASING : Fld :=
  { addr := 0x110004, lo := 4, width := 1, acc := .ro }

/-- REC_STAT.NOR_ERR (R445): a program or erase failed -/
def REC_STAT_NOR_ERR : Fld :=
  { addr := 0x110004, lo := 5, width := 1, acc := .w1c }

/-- REC_STAT.FORMATTED (R445): the region was formatted at boot -/
def REC_STAT_FORMATTED : Fld :=
  { addr := 0x110004, lo := 6, width := 1, acc := .w1c }

/-- REC_NOR_BASE (R445): flash byte offset; [15:0] must be zero, write ignored otherwise -/
def REC_NOR_BASE : Fld :=
  { addr := 0x110008, width := 32, acc := .rw, align := 16, auth := 3 }

/-- REC_NOR_SECTORS (R445): 3 to 4,096; other writes ignored -/
def REC_NOR_SECTORS : Fld :=
  { addr := 0x11000C, width := 13, acc := .rw, min := 3, max := 4096, auth := 3 }

/-- REC_CFG.HIGH (R445): KiB, 8 to 64 -/
def REC_CFG_HIGH : Fld :=
  { addr := 0x110010, width := 7, acc := .rw, reset := 56, min := 8, max := 64 }

/-- REC_CFG.COPY (R445): bit n copies class n: A, B, C, control -/
def REC_CFG_COPY : Fld :=
  { addr := 0x110010, lo := 7, width := 4, acc := .rw, reset := 1 }

/-- REC_CFG.COPY_FWD (R445): also copy forwarded records (R433) -/
def REC_CFG_COPY_FWD : Fld :=
  { addr := 0x110010, lo := 11, width := 1, acc := .rw }

/-- REC_FREEZE_MS (R445): 100 to 600,000 -/
def REC_FREEZE_MS : Fld :=
  { addr := 0x110014, width := 20, acc := .rw, reset := 10000, min := 100, max := 600000 }

/-- REC_NEXT_SEQ_LO (R445): next SEQ [31:0]; read first -/
def REC_NEXT_SEQ_LO : Fld :=
  { addr := 0x110018, width := 32, acc := .ro }

/-- REC_NEXT_SEQ_HI (R445): [39:32] -/
def REC_NEXT_SEQ_HI : Fld :=
  { addr := 0x11001C, width := 8, acc := .ro }

/-- REC_LOG_ID (R445): current log -/
def REC_LOG_ID : Fld :=
  { addr := 0x110020, width := 16, acc := .ro }

/-- REC_JSEQ (R445): JSEQ of the active journal -/
def REC_JSEQ : Fld :=
  { addr := 0x110024, width := 32, acc := .ro }

/-- REC_BUF_LEVEL (R445): bytes held, 0 to 65,536 -/
def REC_BUF_LEVEL : Fld :=
  { addr := 0x110028, width := 17, acc := .ro }

/-- REC_WPTR (R445): region offset of the next unit -/
def REC_WPTR : Fld :=
  { addr := 0x11002C, width := 32, acc := .ro }

/-- REC_BOOTS (R445): boot count, from the last ANCHOR found + 1 -/
def REC_BOOTS : Fld :=
  { addr := 0x110030, width := 32, acc := .ro }

/-- REC_CNT_RECORDS (R445): records numbered -/
def REC_CNT_RECORDS : Fld :=
  { addr := 0x110040, width := 32, acc := .rc }

/-- REC_CNT_LOST_BUF (R445): R434 -/
def REC_CNT_LOST_BUF : Fld :=
  { addr := 0x110044, width := 32, acc := .rc }

/-- REC_CNT_LOST_FROZEN (R445): R439 -/
def REC_CNT_LOST_FROZEN : Fld :=
  { addr := 0x110048, width := 32, acc := .rc }

/-- REC_CNT_LOST_FULL (R445): R438 -/
def REC_CNT_LOST_FULL : Fld :=
  { addr := 0x11004C, width := 32, acc := .rc }

/-- REC_CNT_FLUSH (R445): units committed -/
def REC_CNT_FLUSH : Fld :=
  { addr := 0x110050, width := 32, acc := .rc }

/-- REC_CNT_REERASE (R445): sectors re-erased at boot -/
def REC_CNT_REERASE : Fld :=
  { addr := 0x110054, width := 32, acc := .rc }

/-- REC_CNT_UNCOMMITTED (R445): units skipped at boot -/
def REC_CNT_UNCOMMITTED : Fld :=
  { addr := 0x110058, width := 32, acc := .rc }

/-- REC_CNT_NOR_ERR (R445): R440 -/
def REC_CNT_NOR_ERR : Fld :=
  { addr := 0x11005C, width := 32, acc := .rc }

/-- LAM_ID.PART (R471): Lamulo part code -/
def LAM_ID_PART : Fld :=
  { addr := 0x0, width := 16, acc := .ro, reset := 6718 }

/-- LAM_ID.VENDOR (R471): Sollevon vendor code -/
def LAM_ID_VENDOR : Fld :=
  { addr := 0x0, lo := 16, width := 16, acc := .ro, reset := 20695 }

/-- LAM_VERSION.STEPPING (R471): stepping -/
def LAM_VERSION_STEPPING : Fld :=
  { addr := 0x4, width := 8, acc := .ro, reset := 177 }

/-- LAM_VERSION.REC_FMT (R471): highest record format -/
def LAM_VERSION_REC_FMT : Fld :=
  { addr := 0x4, lo := 8, width := 4, acc := .ro, reset := 3 }

/-- LAM_VERSION.MIN_FMT (R471): lowest record format -/
def LAM_VERSION_MIN_FMT : Fld :=
  { addr := 0x4, lo := 12, width := 4, acc := .ro, reset := 2 }

/-- LAM_VERSION.IKL_VER (R471): IKL version -/
def LAM_VERSION_IKL_VER : Fld :=
  { addr := 0x4, lo := 16, width := 8, acc := .ro, reset := 3 }

/-- LAM_STRAP.ROLE (R471): 0 Tray, 1 Rack, 2 Row, 3 Crown -/
def LAM_STRAP_ROLE : Fld :=
  { addr := 0x8, width := 2, acc := .ro }

/-- LAM_STRAP.STANDBY (R471): standby Crown -/
def LAM_STRAP_STANDBY : Fld :=
  { addr := 0x8, lo := 2, width := 1, acc := .ro }

/-- LAM_STRAP.PROV (R471): provisioning permitted -/
def LAM_STRAP_PROV : Fld :=
  { addr := 0x8, lo := 3, width := 1, acc := .ro }

/-- LAM_STRAP.BOOT_ALT (R471): B wins a tie -/
def LAM_STRAP_BOOT_ALT : Fld :=
  { addr := 0x8, lo := 4, width := 1, acc := .ro }

/-- LAM_POS.ROW (R471): R449 -/
def LAM_POS_ROW : Fld :=
  { addr := 0xC, width := 5, acc := .rw }

/-- LAM_POS.RACK (R471): R449 -/
def LAM_POS_RACK : Fld :=
  { addr := 0xC, lo := 5, width := 4, acc := .rw }

/-- LAM_POS.TRAY (R471): R449 -/
def LAM_POS_TRAY : Fld :=
  { addr := 0xC, lo := 9, width := 4, acc := .rw }

/-- LAM_NODE (R471): node number (R156) -/
def LAM_NODE : Fld :=
  { addr := 0x10, width := 19, acc := .ro }

/-- LAM_BOOT.STATE (R471): 0 ROM, 1 RUNNING, 2 RECOVERY; 3 never reported -/
def LAM_BOOT_STATE : Fld :=
  { addr := 0x14, width := 2, acc := .ro }

/-- LAM_BOOT.IMAGE (R471): 0 A, 1 B, 2 recovery; 3 never reported -/
def LAM_BOOT_IMAGE : Fld :=
  { addr := 0x14, lo := 2, width := 2, acc := .ro }

/-- LAM_BOOT.LAST_CHECK (R471): R456 -/
def LAM_BOOT_LAST_CHECK : Fld :=
  { addr := 0x14, lo := 4, width := 8, acc := .ro }

/-- LAM_FW_VERSION (R471): FW_VERSION of the image running -/
def LAM_FW_VERSION : Fld :=
  { addr := 0x18, width := 32, acc := .ro }

/-- LAM_BOOT_CMD.RUN (R471): RECOVERY only (R456) -/
def LAM_BOOT_CMD_RUN : Fld :=
  { addr := 0x1C, width := 1, acc := .wo }

/-- LAM_TEMP (R471): s10, 0.25 C -/
def LAM_TEMP : Fld :=
  { addr := 0x20, width := 10, acc := .ro }

/-- LAM_FAULT.PFW_CHAN_A (R471): R466 -/
def LAM_FAULT_PFW_CHAN_A : Fld :=
  { addr := 0x24, width := 1, acc := .w1c }

/-- LAM_FAULT.PFW_CHAN_B (R471): R466 -/
def LAM_FAULT_PFW_CHAN_B : Fld :=
  { addr := 0x24, lo := 1, width := 1, acc := .w1c }

/-- LAM_FAULT.THERM (R471): R468 -/
def LAM_FAULT_THERM : Fld :=
  { addr := 0x24, lo := 2, width := 1, acc := .w1c }

/-- LAM_FAULT.DDR_UE (R471): R460 -/
def LAM_FAULT_DDR_UE : Fld :=
  { addr := 0x24, lo := 3, width := 1, acc := .w1c }

/-- LAM_FAULT.BOOT_FALLBACK (R471): R455 -/
def LAM_FAULT_BOOT_FALLBACK : Fld :=
  { addr := 0x24, lo := 4, width := 1, acc := .w1c }

/-- LAM_IRQ_EN (R471): bit n enables LAM_FAULT bit n onto vector 0 -/
def LAM_IRQ_EN : Fld :=
  { addr := 0x28, width := 5, acc := .rw }

/-- KEY_STAT.PROG (R471): [3:0] boot, [11:4] forest, [19:12] Gauntlet, [27:20] stitch -/
def KEY_STAT_PROG : Fld :=
  { addr := 0x30, width := 28, acc := .ro }

/-- KEY_REVOKE (R471): layout of KEY_STAT.PROG; irreversible -/
def KEY_REVOKE : Fld :=
  { addr := 0x34, width := 28, acc := .w1s, auth := 3 }

/-- FLEET_KEY.PROG (R471): bit per fleet slot -/
def FLEET_KEY_PROG : Fld :=
  { addr := 0x38, width := 16, acc := .ro }

/-- FLEET_KEY.SEL (R471): fleet slot in use (R457) -/
def FLEET_KEY_SEL : Fld :=
  { addr := 0x38, lo := 16, width := 4, acc := .rwc, auth := 3 }

/-- KEY_MIN_FW (R471): lowest FW_VERSION started -/
def KEY_MIN_FW : Fld :=
  { addr := 0x3C, width := 32, acc := .ro }

/-- KEY_PROG.SLOT (R471): 0-27 public slots in KEY_STAT order; 32-47 fleet slots; others ignored -/
def KEY_PROG_SLOT : Fld :=
  { addr := 0x40, width := 6, acc := .wo }

/-- KEY_PROG.GO (R471): program the slot from KEY_PROG_DATA -/
def KEY_PROG_GO : Fld :=
  { addr := 0x40, lo := 6, width := 1, acc := .wo }

/-- KEY_PROG_DATA (R471): 24 words; fleet key in the first 8 -/
def KEY_PROG_DATA : Fld :=
  { addr := 0x100, width := 32, acc := .wo, s1 := 0x4, n1 := 24 }

/-- MSI-X table (R471): 64 entries (R465) -/
def MSI_X_table : Fld :=
  { addr := 0x8000, width := 32, acc := .rw, s1 := 0x4, n1 := 256 }

/-- MSI-X pending bits (R471): 64 bits -/
def MSI_X_pending_bits : Fld :=
  { addr := 0x9000, width := 32, acc := .ro, s1 := 0x4, n1 := 2 }

/-- PD_CTL (R472): bit n requests Dn on; bits 0 to 2 read 1 and ignore writes -/
def PD_CTL : Fld :=
  { addr := 0x10000, width := 20, acc := .rw, reset := 0x40007 }

/-- PD_STAT (R472): bit n: Dn on -/
def PD_STAT : Fld :=
  { addr := 0x10004, width := 20, acc := .ro, reset := 0x40007 }

/-- PD_BUSY (R472): bit n: Dn switching -/
def PD_BUSY : Fld :=
  { addr := 0x10008, width := 20, acc := .ro }

/-- PD_REFUSED (R472): bit n: a switch of Dn was refused (R451) -/
def PD_REFUSED : Fld :=
  { addr := 0x1000C, width := 20, acc := .w1c }

/-- PFW_CFG.DISC_US (R472): 20 to 5,000; other writes ignored -/
def PFW_CFG_DISC_US : Fld :=
  { addr := 0x10010, width := 13, acc := .rw, reset := 200, min := 20, max := 5000 }

/-- PFW_CFG.CLEAR_MS (R472): 1 to 1,000 -/
def PFW_CFG_CLEAR_MS : Fld :=
  { addr := 0x10010, lo := 13, width := 10, acc := .rw, reset := 10, min := 1, max := 1000 }

/-- PFW_STAT.A (R472): PFW_A asserted -/
def PFW_STAT_A : Fld :=
  { addr := 0x10014, width := 1, acc := .ro }

/-- PFW_STAT.B (R472): PFW_B asserted -/
def PFW_STAT_B : Fld :=
  { addr := 0x10014, lo := 1, width := 1, acc := .ro }

/-- PFW_STAT.DECLARED (R472): power failure declared -/
def PFW_STAT_DECLARED : Fld :=
  { addr := 0x10014, lo := 2, width := 1, acc := .ro }

/-- PFW_CNT_DISC (R472): disagreements ignored -/
def PFW_CNT_DISC : Fld :=
  { addr := 0x10018, width := 32, acc := .rc }

/-- PD_CNT_OFF_ACCESS (R472): R452 -/
def PD_CNT_OFF_ACCESS : Fld :=
  { addr := 0x1001C, width := 32, acc := .rc }

/-- DDR_CTL.ENABLE (R473): 1 = train and serve (R459) -/
def DDR_CTL_ENABLE : Fld :=
  { addr := 0x140000, width := 1, acc := .rw }

/-- DDR_CFG.CHANNELS (R473): 0 eight channels, 1 four -/
def DDR_CFG_CHANNELS : Fld :=
  { addr := 0x140004, width := 1, acc := .rw }

/-- DDR_CFG.SPEED (R473): 0 6400, 1 5600, 2 4800 MT/s; 3 write ignored -/
def DDR_CFG_SPEED : Fld :=
  { addr := 0x140004, lo := 1, width := 2, acc := .rw, max := 2 }

/-- DDR_CFG.SCRUB_H (R473): 1 to 255 hours -/
def DDR_CFG_SCRUB_H : Fld :=
  { addr := 0x140004, lo := 3, width := 8, acc := .rw, reset := 24, min := 1, max := 255 }

/-- DDR_STAT.TRAINED (R473): bit per channel -/
def DDR_STAT_TRAINED : Fld :=
  { addr := 0x140008, width := 8, acc := .ro }

/-- DDR_WIN_BASE_LO (R473): BAR2 window [31:0]; [29:0] must be zero (R464) -/
def DDR_WIN_BASE_LO : Fld :=
  { addr := 0x14000C, width := 32, acc := .rw, align := 30 }

/-- DDR_WIN_BASE_HI (R473): [63:32] -/
def DDR_WIN_BASE_HI : Fld :=
  { addr := 0x140010, width := 32, acc := .rw }

/-- DDR_UE_ADDR_LO (R473): last uncorrectable line [31:0]; read first -/
def DDR_UE_ADDR_LO : Fld :=
  { addr := 0x140014, width := 32, acc := .ro }

/-- DDR_UE_ADDR_HI (R473): [63:32] -/
def DDR_UE_ADDR_HI : Fld :=
  { addr := 0x140018, width := 32, acc := .ro }

/-- DDR_CNT_WIN_BAD (R473): R464 -/
def DDR_CNT_WIN_BAD : Fld :=
  { addr := 0x14001C, width := 32, acc := .rc }

/-- DDR_CNT_PCIE_POISON (R473): R464 -/
def DDR_CNT_PCIE_POISON : Fld :=
  { addr := 0x140020, width := 32, acc := .rc }

/-- DDR_CNT_POISON_CLEARED (R473): R461 -/
def DDR_CNT_POISON_CLEARED : Fld :=
  { addr := 0x140024, width := 32, acc := .rc }

/-- DDR_CNT_CE (R473): channel c: corrected reads -/
def DDR_CNT_CE : Fld :=
  { addr := 0x140100, width := 32, acc := .rc, s1 := 0x20, n1 := 8 }

/-- DDR_CNT_UE (R473): uncorrectable reads -/
def DDR_CNT_UE : Fld :=
  { addr := 0x140104, width := 32, acc := .rc, s1 := 0x20, n1 := 8 }

/-- DDR_CNT_RMW_CE (R473): R461 -/
def DDR_CNT_RMW_CE : Fld :=
  { addr := 0x140108, width := 32, acc := .rc, s1 := 0x20, n1 := 8 }

/-- DDR_CNT_RMW_UE (R473): R461 -/
def DDR_CNT_RMW_UE : Fld :=
  { addr := 0x14010C, width := 32, acc := .rc, s1 := 0x20, n1 := 8 }

/-- DDR_SCRUB_PASS (R473): scrub passes completed, wrapping -/
def DDR_SCRUB_PASS : Fld :=
  { addr := 0x140110, width := 32, acc := .ro, s1 := 0x20, n1 := 8 }

/-- STC_CTX_BUDGET (R424, layout R421): 256 to 65,535; other writes ignored -/
def STC_CTX_BUDGET : Fld :=
  { addr := 0x130104, width := 16, acc := .rw, reset := 4096, s1 := 0x40, n1 := 32, min := 256, max := 65535 }

/-- STC_CTX_STAT.STATE (R424, layout R421): table "Context states" -/
def STC_CTX_STAT_STATE : Fld :=
  { addr := 0x130108, width := 3, acc := .ro, s1 := 0x40, n1 := 32 }

/-- STC_CTX_STAT.LOADED (R424, layout R421): a program is loaded -/
def STC_CTX_STAT_LOADED : Fld :=
  { addr := 0x130108, lo := 3, width := 1, acc := .ro, s1 := 0x40, n1 := 32 }

/-- STC_CTX_STAT.CAUSE (R424, layout R421): table "Stop causes" -/
def STC_CTX_STAT_CAUSE : Fld :=
  { addr := 0x130108, lo := 4, width := 4, acc := .ro, s1 := 0x40, n1 := 32 }

/-- STC_CTX_STAT.LAST (R424, layout R421): status (R416) -/
def STC_CTX_STAT_LAST : Fld :=
  { addr := 0x130108, lo := 8, width := 4, acc := .ro, s1 := 0x40, n1 := 32 }

/-- STC_CTX_PC (R424, layout R421): PC -/
def STC_CTX_PC : Fld :=
  { addr := 0x13010C, width := 14, acc := .ro, s1 := 0x40, n1 := 32 }

/-- STC_CTX_PROG (R424, layout R421): PROG_ID -/
def STC_CTX_PROG : Fld :=
  { addr := 0x130110, width := 16, acc := .ro, s1 := 0x40, n1 := 32 }

/-- STC_CNT_INSTR (R424, layout R421): instructions issued -/
def STC_CNT_INSTR : Fld :=
  { addr := 0x130114, width := 32, acc := .rc, s1 := 0x40, n1 := 32 }

/-- STC_CNT_BUDGET (R424, layout R421): budgets spent (R409) -/
def STC_CNT_BUDGET : Fld :=
  { addr := 0x130118, width := 32, acc := .rc, s1 := 0x40, n1 := 32 }

/-- STC_CNT_EMPTY_TO (R424, layout R421): EMPTY_TO results -/
def STC_CNT_EMPTY_TO : Fld :=
  { addr := 0x13011C, width := 32, acc := .rc, s1 := 0x40, n1 := 32 }

/-- STC_CNT_FULL (R424, layout R421): FULL_TO and FULL_DROP results -/
def STC_CNT_FULL : Fld :=
  { addr := 0x130120, width := 32, acc := .rc, s1 := 0x40, n1 := 32 }

/-- STC_CNT_EMIT (R424, layout R421): records made -/
def STC_CNT_EMIT : Fld :=
  { addr := 0x130124, width := 32, acc := .rc, s1 := 0x40, n1 := 32 }

/-- STC_CNT_REFUSED (R424, layout R421): R416 -/
def STC_CNT_REFUSED : Fld :=
  { addr := 0x130128, width := 32, acc := .rc, s1 := 0x40, n1 := 32 }

/-- STC_CNT_VAL_DUP (R424, layout R421): R414 -/
def STC_CNT_VAL_DUP : Fld :=
  { addr := 0x13012C, width := 32, acc := .rc, s1 := 0x40, n1 := 32 }

/-- SLOT_CFG.LOSSY (R424, layout R423): 0 blocking, 1 lossy -/
def SLOT_CFG_LOSSY : Fld :=
  { addr := 0x132000, width := 1, acc := .rw, s1 := 0x10, n1 := 1024 }

/-- SLOT_CFG.TO_US (R424, layout R423): 1 to 1,000 us; other writes ignored -/
def SLOT_CFG_TO_US : Fld :=
  { addr := 0x132000, lo := 1, width := 10, acc := .rw, reset := 100, s1 := 0x10, n1 := 1024, min := 1, max := 1000 }

/-- SLOT_STAT.FULL (R424, layout R423): slot full -/
def SLOT_STAT_FULL : Fld :=
  { addr := 0x132004, width := 1, acc := .ro, s1 := 0x10, n1 := 1024 }

/-- SLOT_DATA_LO (R424, layout R423): [31:0]; read first; pops a full slot (R413) -/
def SLOT_DATA_LO : Fld :=
  { addr := 0x132008, width := 32, acc := .rw, s1 := 0x10, n1 := 1024 }

/-- SLOT_DATA_HI (R424, layout R423): [63:32]; a write fills (R413) -/
def SLOT_DATA_HI : Fld :=
  { addr := 0x13200C, width := 32, acc := .rw, s1 := 0x10, n1 := 1024 }

/-- SLOT_CNT_DROP (R424): lossy and register writes discarded -/
def SLOT_CNT_DROP : Fld :=
  { addr := 0x136000, width := 32, acc := .rc }

/-- SLOT_CNT_EMPTY_READ (R424): register reads of empty slots -/
def SLOT_CNT_EMPTY_READ : Fld :=
  { addr := 0x136004, width := 32, acc := .rc }

/-- STC_X_LO (R424): register x of context c, zero unless STOPPED or FAULT -/
def STC_X_LO : Fld :=
  { addr := 0x131000, width := 32, acc := .ro, s1 := 0x80, n1 := 32, s2 := 0x8, n2 := 16 }

/-- STC_X_HI (R424): register x of context c, zero unless STOPPED or FAULT -/
def STC_X_HI : Fld :=
  { addr := 0x131004, width := 32, acc := .ro, s1 := 0x80, n1 := 32, s2 := 0x8, n2 := 16 }

/-- The fields of the block "Lamulo time and mains". -/
def fieldsLamuloTimeAndMains : List Fld :=
  [TIME_CTL_ENABLE, TIME_CTL_REARM, TIME_CTL_FREERUN, TIME_CTL_KP_SHIFT, TIME_CTL_KI_SHIFT, TIME_STAT_STATE] ++
  [TIME_STAT_STEP_USED, TIME_STAT_JUMP_REFUSED, TIME_STAT_DEGRADED, TIME_STAT_SETTLING, TIME_STAT_SOURCE, TIME_INCR_LO] ++
  [TIME_INCR_HI, TIME_NS_LO, TIME_NS_HI, TIME_FRAC, TIME_JUMP_THR, TIME_OFFSET] ++
  [TIME_HOLD_MS, TIME_CNT_SETTLE, TIME_CNT_REFUSED, TIME_PORT_CFG_MODE, TIME_PORT_CFG_PDELAY, TIME_PORT_CFG_LOG_SYNC] ++
  [TIME_PORT_CFG_DOMAIN, TIME_PORT_CFG_PAIR, TIME_PORT_ASYM, TIME_PORT_LAT_RX, TIME_PORT_LAT_TX, TIME_PORT_MPD] ++
  [TIME_PORT_OFFSET, MAINS_CTL_ENABLE, MAINS_CTL_CAPTURE, MAINS_STAT_STATE, MAINS_STAT_CONSERVATIVE, MAINS_STAT_ANN_LOST] ++
  [MAINS_STAT_ANN_MISMATCH, MAINS_STAT_STANDBY, MAINS_OFS, MAINS_SLEW_LIMIT, MAINS_PERIOD_LO, MAINS_PERIOD_HI] ++
  [MAINS_MC_LO, MAINS_MC_HI, MAINS_START_LO, MAINS_START_HI, MAINS_SLOT, MAINS_PHASE_ERR] ++
  [MAINS_MC_BASE_LO, MAINS_MC_BASE_HI, MAINS_HOLD_MS, MAINS_CNT_GLITCH, MAINS_CNT_MISSED, MAINS_CNT_LATE_ANN] ++
  [MAINS_STBY_DIFF]

/-- The fields of the block "Lamulo tracker". -/
def fieldsLamuloTracker : List Fld :=
  [TRK_CTL_ENABLE, TRK_CTL_VIRT_EN, TRK_CTL_MAP_DEFAULT, TRK_STAT_RUNNING, TRK_STAT_VIRT_BEHIND, TRK_STAT_POISON] ++
  [TRK_VIRT_BASE_LO, TRK_VIRT_BASE_HI, TRK_VIRT_COUNT, TRK_CNT_UPD, TRK_CNT_DISCONT, TRK_CNT_OLD] ++
  [TRK_CNT_NOKEY, TRK_CNT_VIRT_LATE, TRK_CNT_POISON, TRK_SNAP_CMD, TRK_SNAP_STAT_DONE, TRK_SNAP_STAT_BAD_IDX] ++
  [TRK_SNAP_DATA]

/-- The fields of the block "Lamulo IKL port". -/
def fieldsLamuloIklPort : List Fld :=
  [LNK_CTL_ENABLE, LNK_CTL_RETRAIN, LNK_CTL_REPAIR, LNK_CTL_INJ_EN, LNK_STAT_STATE, LNK_STAT_PORT] ++
  [LNK_STAT_LOS, LNK_STAT_BLOCK_LOCK, LNK_STAT_SETTLING, LNK_STAT_UNOBSERVED, LNK_STAT_FMT, LNK_STAT_CHECK] ++
  [LNK_STAT_NO_COMMON, LNK_STAT_DOWN_CAUSE, LNK_REJOIN_MS, IKL_TIME_PERIOD, IKL_TIME_ASYM, IKL_LAT_RX] ++
  [IKL_LAT_TX, LNK_UNOBS_MS, LNK_PEER_IKL_VER, LNK_PEER_MAX_FMT, LNK_PEER_MIN_FMT, LNK_PEER_CHECKS] ++
  [BRIM_LO, BRIM_HI, LNK_CNT_CELL_BAD, LNK_CNT_REPLAY, LNK_CNT_RESYNC, LNK_CNT_BAD_REC] ++
  [LNK_CNT_REC_CRC, LNK_CNT_DIE_MISMATCH, LNK_CNT_ALIVE_GAP, LNK_CNT_REPEAT, LNK_CNT_STALE_GEN, LNK_CNT_REJOIN] ++
  [LNK_CNT_DOWN, LNK_CNT_FMT_DROP, LNK_CNT_CMD_REFUSED, LNK_CNT_TIME_LOST, LNK_CNT_BAD_BLOCK, GEN_CUR] ++
  [GEN_PRV, GEN_HELD, GEN_ADV, LNK_CREDIT, LNK_EYE_H_LOCAL, LNK_EYE_W_LOCAL] ++
  [LNK_EYE_H_PEER, LNK_EYE_W_PEER, LNK_MARGIN_MIN_H, LNK_MARGIN_MIN_W, LNK_MARGIN_PERIOD, INJ_CFG_KIND] ++
  [INJ_CFG_SLOT, INJ_CFG_PERIOD_MC, INJ_DUR_US, INJ_CNT_DONE, INJ_CNT_SKIPPED, CRC_SEL] ++
  [CRC_VAL_LO, CRC_VAL_HI, CRC_RESULT_LO, CRC_RESULT_HI, CRC_DATA]

/-- The fields of the block "Lamulo statistics". -/
def fieldsLamuloStatistics : List Fld :=
  [STAT_CTL_ENABLE, STAT_STAT_RUNNING, STAT_STAT_NOCELL, STAT_STAT_MIXED, STAT_STAT_POISON, STAT_CLOSE_US] ++
  [STAT_NODE_GEN, STAT_ADMIT_RATE, STAT_ADMIT_BURST, STAT_CNT_UPD, STAT_CNT_LATE, STAT_CNT_NOCELL] ++
  [STAT_CNT_DUP, STAT_CNT_SPEC, STAT_CNT_POISON, STAT_CNT_ADMIT_REFUSED, FWD_CNT_CRC, FWD_CNT_BAD_TYPE] ++
  [STAT_CNT_MISS, STAT_CNT_MISS_SUPPRESSED, STAT_CELLS_SCALAR, STAT_CELLS_SKETCH, RED_SPEC_LO, RED_SPEC_HI]

/-- The fields of the block "Lamulo detector". -/
def fieldsLamuloDetector : List Fld :=
  [DET_CTL_STRAG_EN, DET_CTL_DRIFT_EN, DET_STAT_REF_STALE, DET_STAT_EVICT, DET_STAT_INCOMPARABLE, DET_BAR_CLOSE_US] ++
  [DET_HOLD_MS, DET_LOAD_CFG_BUSY, DET_LOAD_CFG_WAIT, DET_REF_AGE_MS, DET_CNT_BAR, DET_CNT_BAR_OPEN] ++
  [DET_CNT_BAR_LATE, DET_CNT_EVICT, DET_CNT_EXPIRED, DET_CNT_UNSCORED, DET_CNT_REF_NONE, DET_CNT_VERDICT] ++
  [STRAG_CFG_BAR_PART, STRAG_CFG_K, STRAG_CFG_LAST_MIN, STRAG_CFG_MIN_DIES, STRAG_LATE_NS, STRAG_XLATE_NS] ++
  [STRAG_CFG2_MARGIN_NS, STRAG_CFG2_EWMA_SHIFT, DET_SET_COUNTER, DET_SET_FIELD, DET_SET_SPEC, DET_SET_SUSPECT] ++
  [DET_SET_EN, DET_SET_EWMA_SHIFT, DET_K, DET_H, DET_H_EWMA, DET_WARM] ++
  [DET_MIN_N, DET_FLOOR, DET_ZCLAMP, STRAG_STATE]

/-- The fields of the block "Lamulo forest". -/
def fieldsLamuloForest : List Fld :=
  [FST_CTL_ENABLE, FST_CTL_QUARTERS, FST_STAT_QUARTERS_ON, FST_STAT_RUNNING, FST_STAT_SHADOW_ERR, FST_STAT_FAULT] ++
  [FST_STAT_DROP, FST_CACHE_FREE, FST_RESUME_SLOT, FST_SHADOW_LIMIT, FST_CNT_VEC, FST_CNT_NOVERDICT] ++
  [FST_CNT_NONFINITE, FST_CNT_SAT, FST_CNT_OVF, FST_CNT_NEAR, FST_CNT_SHADOW, FST_CNT_SHADOW_ERR] ++
  [FST_CNT_QDROP, FST_CNT_AGED, FST_CNT_STALE, FST_CNT_FAULT_DROP, FST_SLOT_CFG_EN, FST_SLOT_CFG_SCOPE] ++
  [FST_SLOT_CFG_UNBOUND, FST_SLOT_CFG_PIN, FST_SLOT_CFG_SUSPECT, FST_SLOT_CFG_DIV, FST_SLOT_CFG_WEIGHT, FST_SLOT_CFG_SHADOW_SHIFT] ++
  [FST_SLOT_CFG_CONFIRM, FST_SLOT_BATCH_SIZE, FST_SLOT_BATCH_MAX_WAIT_US, FST_SLOT_AGE_MAX_AGE_MS, FST_SLOT_AGE_STALE_MS, FST_SLOT_MIN_PRESENT] ++
  [FST_SLOT_QBASE_LO, FST_SLOT_QBASE_HI, FST_SLOT_QDEPTH, FST_SLOT_VBASE_LO, FST_SLOT_VBASE_HI, FST_SLOT_STAT_STATE] ++
  [FST_SLOT_STAT_SHADOW, FST_SLOT_STAT_RETIRING, FST_SLOT_STAT_OPEN_PASS, FST_SLOT_STAT_PINNED, FST_SLOT_STAT_SWAPS, FST_SLOT_STAT_LOAD_STATUS] ++
  [FST_SLOT_MODEL_ACTIVE, FST_SLOT_MODEL_SHADOW, FST_SLOT_QLEVEL, FST_SLOT_CNT_VEC, FST_SLOT_CNT_DROP, FST_SLOT_CNT_SHADOW_ERR] ++
  [FST_SLOT_CACHE_KIB, FST_ON, FST_OFF]

/-- The fields of the block "Lamulo digest". -/
def fieldsLamuloDigest : List Fld :=
  [DIGF_CTL_ENABLE, DIGF_CTL_FORWARD, DIGF_STAT_KEY_MIX, DIGF_STAT_COVERAGE, DIGF_STAT_DIVERGED, DIGF_STAT_NOCELL] ++
  [DIGF_CLOSE_MS, DIGF_KEEP, DIGF_CELLS, DIGF_CNT_SHARD, DIGF_CNT_LATE, DIGF_CNT_DUP] ++
  [DIGF_CNT_NOCELL, DIGF_CNT_UNBOUND, DIGF_CNT_RESULT, DIGF_CNT_LOCATED, DIGF_EXPECT_N_LO, DIGF_EXPECT_N_HI] ++
  [DIGF_COH_KEY1_LO, DIGF_COH_KEY1_HI, DIGF_COH_KEY_SEQ, DIGF_COH_EN, DIGF_COH_PREV_SEQ]

/-- The fields of the block "Lamulo Gauntlet". -/
def fieldsLamuloGauntlet : List Fld :=
  [GNTF_CTL_ENABLE, GNTF_CTL_SWEEP_EN, GNTF_CTL_RETEST_EN, GNTF_STAT_SHADOW, GNTF_STAT_ACTIVE, GNTF_STAT_RETIRING] ++
  [GNTF_STAT_LOAD_STATUS, GNTF_PKG_ACTIVE_ID, GNTF_PKG_SHADOW_ID, GNTF_STORE_BASE_LO, GNTF_STORE_BASE_HI, GNTF_CFG_SWEEP_STEPS] ++
  [GNTF_CFG_RETEST_STEPS, GNTF_CFG2_STEP_MC, GNTF_CFG2_MAX_PAR, GNTF_CFG2_PASSES, GNTF_SUSP_BASE_LO, GNTF_SUSP_BASE_HI] ++
  [GNTF_CNT_RUN, GNTF_CNT_FAIL, GNTF_CNT_SKIP, GNTF_CNT_COND_WAIT, GNTF_CNT_UNTESTABLE, GNTF_CNT_SUSPECT_SET] ++
  [GNTF_CNT_SUSPECT_CLEARED, OBS_SUSPECT, OBS_TBIN, OBS_LOAD, OBS_PASSES, OBS_DUE] ++
  [OBS_UNTESTABLE, GNTF_STEP, GNTF_SWEEP_DONE, GNTF_RETEST_STEP]

/-- The fields of the block "Lamulo ledger". -/
def fieldsLamuloLedger : List Fld :=
  [LDGF_CTL_ENABLE, LDGF_CTL_FREEZE_ALL, LDGF_STAT_RUNNING, LDGF_STAT_CONSERVATIVE, LDGF_STAT_WITHHELD, LDGF_STAT_STRANDED] ++
  [LDGF_STAT_SUM_LATE, LDGF_RATE_UP, LDGF_RATE_DN, LDGF_BURST_UP, LDGF_BURST_DN, LDGF_LEVEL_UP] ++
  [LDGF_LEVEL_DN, LDGF_HELD_UP, LDGF_HELD_DN, LDGF_DIE_RATE_UP, LDGF_DIE_RATE_DN, LDGF_DIE_STRAND_MC] ++
  [LDGF_SLEW_KW, LDGF_TREE_CAP, LDGF_ENV, LDGF_SUM_LEVEL, LDGF_SUM_FLOOR, LDGF_SUM_CEIL] ++
  [LDGF_SUM_MEAN, LDGF_LIVE, LDGF_FROZEN, LDGF_CNT_FILL, LDGF_CNT_GRANT, LDGF_CNT_MSG_BAD] ++
  [LDGF_CNT_WITHHELD_W, LDGF_CNT_FORFEIT_W, LDGF_PORT_LEVEL, LDGF_PORT_LIVE, LDGF_PORT_FROZEN, LDGF_PORT_TOK_UP] ++
  [LDGF_PORT_TOK_DN, LDGF_PORT_TOK_TR, LDGF_PORT_EBAL_KJ]

/-- The fields of the block "Lamulo Ethernet port". -/
def fieldsLamuloEthernetPort : List Fld :=
  [ETH_ETYPE, ETH_UDP_PORT, ETH_MTU, ETH_GRP_CFG_MODE, EGR_LIVE_US, EGR_FAILBACK_MS] ++
  [EGR_CNT_FAILBACK_REFUSED, ETH_PORT_CFG_ROLE, ETH_PORT_CFG_ENCAP, ETH_PORT_CFG_VLAN_EN, ETH_PORT_CFG_VID, ETH_PORT_CFG_PCP] ++
  [ETH_PORT_PEER_NODE, ETH_PORT_PEER_STANDBY, ETH_PORT_STAT_UP, ETH_PORT_STAT_LIVE, ETH_PORT_STAT_CARRYING, ETH_CNT_FCS] ++
  [ETH_CNT_PAUSE, ETH_CNT_RESENT, ETH_CNT_NAK, ETH_PEER_MAC, ETH_LOCAL_IP, ETH_PEER_IP]

/-- The fields of the block "Lamulo shaping". -/
def fieldsLamuloShaping : List Fld :=
  [GATE_CTL_EN, GATE_CTL_LEN, GATE_STAT_STATES, GATE_STAT_ENTRY, GATE_STAT_RETIRING, SHP_RATE] ++
  [SHP_BURST, POL_CFG_MODE, POL_CFG_AWARE, POL_CFG_YELLOW_PCT, POL_CIR, POL_CBS] ++
  [POL_PIR, POL_EBS_PBS, EGR_CNT_GATE_WAIT, POL_CNT_YELLOW, POL_CNT_RED, GCL]

/-- The fields of the block "Lamulo command queues". -/
def fieldsLamuloCommandQueues : List Fld :=
  [CMDQ_CTL_ENABLE, CMDQ_STAT_RUNNING, CMDQ_STAT_IN_DOUBT, CMDQ_STAT_WDOG, CMDQ_STAT_AUTH_FAIL, CMDQ_BASE_LO] ++
  [CMDQ_BASE_HI, CMDQ_SLOTS, CMDQ_TAIL, CMDQ_HEAD, RPLQ_BASE_LO, RPLQ_BASE_HI] ++
  [RPLQ_SLOTS, RPLQ_HEAD, RPLQ_TAIL, RPLQ_VEC, CMD_TTL_MS, TXN_LEAD_US] ++
  [TXN_WDOG_MS, TXN_IDLE_MS, CMD_MERGE_US, CFG_EPOCH, TXN_OPEN, TXN_LAST_C] ++
  [CMD_CNT_RX, CMD_CNT_REFUSED, CMD_CNT_AUTH_FAIL, CMD_CNT_REPLAY, TXN_CNT_COMMIT, TXN_CNT_ROLLBACK] ++
  [TXN_CNT_WDOG, TXN_CNT_IN_DOUBT, LOCK_CNT_ABANDONED, LOCK_CNT_ORDER, CMDQ_CNT_RWC_IGNORED, PRIV_CNT_TRAY] ++
  [PRIV_CNT_FLEET, PRIV_LAST_ADDR, PRIV_LAST_LEVEL, PRIV_LAST_WRITE, LOCK_STATE_LO_OWNER, LOCK_STATE_LO_SUB] ++
  [LOCK_STATE_LO_IS_PART, LOCK_STATE_LO_GEN, LOCK_STATE_HI_HELD, LOCK_STATE_HI_ABANDONED, LOCK_STATE_HI_WAITERS, LOCK_STATE_HI_ACQ_MC]

/-- The fields of the block "Lamulo stitch". -/
def fieldsLamuloStitch : List Fld :=
  [STC_CTL_ENABLE, STC_STAT_ACTIVE, STC_STAT_FAULT, STC_CTL_STOP, STC_STORE_BASE_LO, STC_STORE_BASE_HI] ++
  [STC_CTX_CFG_BASE, STC_CTX_CFG_LEN, STC_CTX_BUDGET, STC_CTX_STAT_STATE, STC_CTX_STAT_LOADED, STC_CTX_STAT_CAUSE] ++
  [STC_CTX_STAT_LAST, STC_CTX_PC, STC_CTX_PROG, STC_CNT_INSTR, STC_CNT_BUDGET, STC_CNT_EMPTY_TO] ++
  [STC_CNT_FULL, STC_CNT_EMIT, STC_CNT_REFUSED, STC_CNT_VAL_DUP, SLOT_CFG_LOSSY, SLOT_CFG_TO_US] ++
  [SLOT_STAT_FULL, SLOT_DATA_LO, SLOT_DATA_HI, SLOT_CNT_DROP, SLOT_CNT_EMPTY_READ, STC_X_LO] ++
  [STC_X_HI]

/-- The fields of the block "Lamulo compression". -/
def fieldsLamuloCompression : List Fld :=
  [CMP_CTL_ENABLE, CMP_STAT_RUNNING, CMP_STAT_ERROR, CMP_CNT_DESC, CMP_CNT_ERR, CMP_CNT_IN_KIB] ++
  [CMP_CNT_OUT_KIB, CMP_RING_BASE_LO, CMP_RING_BASE_HI, CMP_RING_SLOTS, CMP_RING_TAIL, CMP_RING_HEAD] ++
  [CMP_OUT_LIMIT, CMP_RING_FLUSH, CMP_RING_ABORT, CMP_RING_VEC, CMP_RING_STAT_BUSY, CMP_RING_STAT_HELD] ++
  [CMP_RING_STAT_LAST]

/-- The fields of the block "Lamulo recorder". -/
def fieldsLamuloRecorder : List Fld :=
  [REC_CTL_ENABLE, REC_CTL_FLUSH, REC_STAT_STATE, REC_STAT_FLUSHING, REC_STAT_ERASING, REC_STAT_NOR_ERR] ++
  [REC_STAT_FORMATTED, REC_NOR_BASE, REC_NOR_SECTORS, REC_CFG_HIGH, REC_CFG_COPY, REC_CFG_COPY_FWD] ++
  [REC_FREEZE_MS, REC_NEXT_SEQ_LO, REC_NEXT_SEQ_HI, REC_LOG_ID, REC_JSEQ, REC_BUF_LEVEL] ++
  [REC_WPTR, REC_BOOTS, REC_CNT_RECORDS, REC_CNT_LOST_BUF, REC_CNT_LOST_FROZEN, REC_CNT_LOST_FULL] ++
  [REC_CNT_FLUSH, REC_CNT_REERASE, REC_CNT_UNCOMMITTED, REC_CNT_NOR_ERR]

/-- The fields of the block "Lamulo identity". -/
def fieldsLamuloIdentity : List Fld :=
  [LAM_ID_PART, LAM_ID_VENDOR, LAM_VERSION_STEPPING, LAM_VERSION_REC_FMT, LAM_VERSION_MIN_FMT, LAM_VERSION_IKL_VER] ++
  [LAM_STRAP_ROLE, LAM_STRAP_STANDBY, LAM_STRAP_PROV, LAM_STRAP_BOOT_ALT, LAM_POS_ROW, LAM_POS_RACK] ++
  [LAM_POS_TRAY, LAM_NODE, LAM_BOOT_STATE, LAM_BOOT_IMAGE, LAM_BOOT_LAST_CHECK, LAM_FW_VERSION] ++
  [LAM_BOOT_CMD_RUN, LAM_TEMP, LAM_FAULT_PFW_CHAN_A, LAM_FAULT_PFW_CHAN_B, LAM_FAULT_THERM, LAM_FAULT_DDR_UE] ++
  [LAM_FAULT_BOOT_FALLBACK, LAM_IRQ_EN, KEY_STAT_PROG, KEY_REVOKE, FLEET_KEY_PROG, FLEET_KEY_SEL] ++
  [KEY_MIN_FW, KEY_PROG_SLOT, KEY_PROG_GO, KEY_PROG_DATA, MSI_X_table, MSI_X_pending_bits]

/-- The fields of the block "Lamulo power domain". -/
def fieldsLamuloPowerDomain : List Fld :=
  [PD_CTL, PD_STAT, PD_BUSY, PD_REFUSED, PFW_CFG_DISC_US, PFW_CFG_CLEAR_MS] ++
  [PFW_STAT_A, PFW_STAT_B, PFW_STAT_DECLARED, PFW_CNT_DISC, PD_CNT_OFF_ACCESS]

/-- The fields of the block "Lamulo DDR". -/
def fieldsLamuloDdr : List Fld :=
  [DDR_CTL_ENABLE, DDR_CFG_CHANNELS, DDR_CFG_SPEED, DDR_CFG_SCRUB_H, DDR_STAT_TRAINED, DDR_WIN_BASE_LO] ++
  [DDR_WIN_BASE_HI, DDR_UE_ADDR_LO, DDR_UE_ADDR_HI, DDR_CNT_WIN_BAD, DDR_CNT_PCIE_POISON, DDR_CNT_POISON_CLEARED] ++
  [DDR_CNT_CE, DDR_CNT_UE, DDR_CNT_RMW_CE, DDR_CNT_RMW_UE, DDR_SCRUB_PASS]

/-- Every field of the space. -/
def fields : List Fld :=
  fieldsLamuloTimeAndMains ++
  fieldsLamuloTracker ++
  fieldsLamuloIklPort ++
  fieldsLamuloStatistics ++
  fieldsLamuloDetector ++
  fieldsLamuloForest ++
  fieldsLamuloDigest ++
  fieldsLamuloGauntlet ++
  fieldsLamuloLedger ++
  fieldsLamuloEthernetPort ++
  fieldsLamuloShaping ++
  fieldsLamuloCommandQueues ++
  fieldsLamuloStitch ++
  fieldsLamuloCompression ++
  fieldsLamuloRecorder ++
  fieldsLamuloIdentity ++
  fieldsLamuloPowerDomain ++
  fieldsLamuloDdr

end Sys2Proof.Machine.L
end

