-- ==== Sys2Proof/Machine/Mem.lean ====
section
/-! DEFINITION. Byte memories: the Lamulo's DDR and its boot NOR, as sparse lists of address and byte in canonical
form. -/

namespace Sys2Proof.Machine

/-- A byte memory. -/
abbrev Memory := List Host.Cell

/-- What an unlisted byte of DDR reads as (log entry 15). -/
def ddrDefault : Byte := 0

/-- What an erased byte of NOR reads as (R434). -/
def norDefault : Byte := 255

/-- The canonical form of a memory with default d. -/
def Memory.wf (d : Byte) (m : Memory) : Bool := Sparse.wf d m

/-- The byte at address a. -/
def Memory.byte (d : Byte) (m : Memory) (a : Nat) : Nat := (Sparse.get d m a).toNat

/-- n bytes from address a on. -/
def Memory.read (d : Byte) (m : Memory) (a : Nat) : Nat → List Nat
  | 0 => []
  | n + 1 => m.byte d a :: Memory.read d m (a + 1) n

/-- The memory with the bytes bs stored from address a on. -/
def Memory.write (d : Byte) (m : Memory) (a : Nat) : List Nat → Memory
  | [] => m
  | b :: bs => Memory.write d (Sparse.set d m a (BitVec.ofNat 8 b)) (a + 1) bs

end Sys2Proof.Machine
end

