-- ==== Sys2Proof/Machine/StCtl.lean ====
section
/-! DEFINITION. State types of the control plane (16): transactions, staging, votes, merged replies, locks. -/

namespace Sys2Proof.Machine

/-- An owner of a lock or a transaction (R377, R398). -/
structure Owner where
  isPart : Bool
  /-- die ID, or origin node -/
  id : Nat
  /-- partition, or issuer -/
  sub : Nat
  gen : Nat
deriving DecidableEq, Repr

/-- State of a transaction at its coordinator (R391). -/
inductive TxnState where
  | opened
  | preparing
  | committed
  | rolledBack
deriving DecidableEq, Repr

/-- A transaction that this Lamulo coordinates. -/
structure Txn where
  num : Nat
  state : TxnState := .opened
  owner : Owner
  /-- local times of TXN_BEGIN and of the last command of it -/
  begun : Nat
  last : Nat
  /-- commit instant, full time, and its MC -/
  c : Nat := 0
  mc : Nat := 0
  /-- header of the TXN_COMMIT to be answered -/
  commit : Option CmdHdr := none
deriving DecidableEq, Repr

/-- What a participant has staged for a transaction (R391). -/
structure Stg where
  txn : Nat
  /-- TXN_BEGIN where it is coordinated here, else the first staging (log entry 48) -/
  begun : Nat
  /-- staged words: byte offset, value, mask of staged bits -/
  words : List (Nat × Nat × Nat) := []
  /-- staged bank changes: 0 forest swap, 1 Gauntlet swap, 2 forest unload; and slot -/
  swaps : List (Nat × Nat) := []
  /-- a staging limit was met -/
  full : Bool := false
  /-- aborted by the watchdog before the vote -/
  wdog : Bool := false
  /-- voted PREPARED -/
  voted : Bool := false
  /-- holds COMMIT -/
  commit : Bool := false
  c : Nat := 0
  mc : Nat := 0
  /-- in doubt (R396) -/
  doubt : Bool := false
  /-- the configuration is to be taken from the parent once applied (R396) -/
  sync : Bool := false
deriving DecidableEq, Repr

/-- A staging write that waits: its header and parameters, and since when. -/
structure StgWait where
  pkt : Pkt
  since : Nat
deriving DecidableEq, Repr

/-- Votes gathered at a node for a transaction (R392): children awaited as (is a die, port). -/
structure Votes where
  txn : Nat
  c : Nat
  mc : Nat
  due : Nat
  wait : List (Bool × Nat) := []
  nPrep : Nat := 0
  nFail : Nat := 0
  nExp : Nat := 0
  /-- FIRST_IS_DIE, FIRST_FAIL, FIRST_STATUS -/
  first : Option (Bool × Nat × Nat) := none
deriving DecidableEq, Repr

/-- Replies gathered at a node for a packet of AMODE 3 to 5 (R382). -/
structure Merge where
  hdr : CmdHdr
  due : Nat
  wait : List (Bool × Nat) := []
  nOk : Nat := 0
  nFail : Nat := 0
  first : Option (Bool × Nat × Nat) := none
  /-- the answer of the only responder so far: status, RESULT and DATA -/
  result : Nat := 0
  data : List Nat := []
deriving DecidableEq, Repr

/-- An acquire that waits for a lock (R399). -/
structure LockWait where
  idx : Nat
  hdr : CmdHdr
  owner : Owner
  since : Nat
  waitMs : Nat
deriving DecidableEq, Repr

/-- The control plane of a Lamulo beside its registers. -/
structure Ctl where
  txns : List Txn := []
  /-- number of the last transaction begun, TXN[22:0] -/
  txnLast : Nat := 0
  /-- last FLEET commit instant, full time -/
  fleetC : Option Nat := none
  stg : List Stg := []
  waits : List StgWait := []
  votes : List Votes := []
  merges : List Merge := []
  lockWaits : List LockWait := []
  /-- decisions kept, newest first: TXN and whether it committed (R393) -/
  decided : List (Nat × Bool) := []
  /-- last accepted TAG_SEQ per (ORIGIN, ISSUER) (R380) -/
  replay : List (Nat × Nat × Nat) := []
  /-- generations learned: is a node, ID, partition, generation (R398) -/
  gens : List (Bool × Nat × Nat × Nat) := []
  /-- dies and children to which staging writes have gone: is a die, port, TXN -/
  staged : List (Bool × Nat × Nat) := []
deriving DecidableEq, Repr

/-- The staging of an ITU (R390, R391). -/
structure IStg where
  stg : Option Stg := none
  waits : List StgWait := []
  /-- transactions that the watchdog aborted here, until their decision (R397) -/
  dead : List Nat := []
deriving DecidableEq, Repr

end Sys2Proof.Machine
end

