-- ==== Sys2Proof/Machine/StRed.lean ====
section
/-! DEFINITION. State types of in-fabric reduction (R206 to R223). -/

namespace Sys2Proof.Machine

/-- What a DEADLINE_MISS says of the record it names (R205). -/
structure Src where
  die : Nat
  srcRole : Nat := 0
  cls : Nat
  typ : Nat
  seq : Nat
  short : Nat
  hopT : Nat := 0
  hopK : Nat := 0
  hopW : Nat := 0
deriving DecidableEq, Repr

/-- State of MIN or MAX: the value's code and ARG. -/
structure Extreme where
  val : Nat
  arg : Nat
deriving DecidableEq, Repr

/-- State of MOM_FP32 or MOM_FP64 (R215): n, mean and M2 as codes. -/
structure Mom where
  n : Nat := 0
  mean : Nat := 0
  m2 : Nat := 0
deriving DecidableEq, Repr

/-- A sketch (R217): buckets in the order of R217, ZERO, COLLAPSED. -/
structure Sketch where
  keys : List (Nat × Nat) := []
  zero : Nat := 0
  collapsed : Nat := 0
deriving DecidableEq, Repr

/-- A partial: counts and operator states (R210 to R219, R222). An operator state that no input has reached is
none. -/
structure Partial where
  nIn : Nat := 0
  nMissing : Nat := 0
  nNan : Nat := 0
  nInf : Nat := 0
  nPoison : Nat := 0
  nV2 : Nat := 0
  nExpected : Nat := 0
  epochMin : Option Nat := none
  epochMax : Option Nat := none
  mixed : Bool := false
  epochMix : Bool := false
  poisonSeen : Bool := false
  ovf : Bool := false
  invalid : Bool := false
  /-- NaN-propagating semantics were used (R222) -/
  nanProp : Bool := false
  sum : Option Nat := none
  min : Option Extreme := none
  max : Option Extreme := none
  /-- MOM_INT64: S1 and S2 -/
  s1 : Int := 0
  s2 : Nat := 0
  m32 : Mom := {}
  m64 : Mom := {}
  sk : Sketch := {}
deriving DecidableEq, Repr

/-- An input of a cell: a die's value, or a child's partial. -/
inductive CellVal where
  | die (v : Nat) (fmt2 : Bool) (epoch : Nat)
  | part (p : Partial)
deriving DecidableEq, Repr

/-- An input held at a leaf (R209): scalar says that the RED_SCALAR has come, parts which RED_SKETCH records. -/
structure LeafIn where
  leaf : Nat
  src : Src
  val : CellVal
  scalar : Bool := true
  parts : List Nat := []
deriving DecidableEq, Repr

/-- An open cell (R207): key, MC and slot of the latch, RED_SPEC entry in force, dies of the group (Tray). -/
structure Cell where
  spec : Nat
  gid : Nat
  t : Nat
  mc : Nat
  slot : Nat
  word : Nat
  expected : Nat := 0
  ins : List LeafIn := []
deriving DecidableEq, Repr

end Sys2Proof.Machine
end

