-- ==== Sys2Proof/Machine/StDet.lean ====
section
/-! DEFINITION. State types of straggler and drift detection (R228 to R243). -/

namespace Sys2Proof.Machine

/-- A barrier partial (R229). e2nd of 0 means none. -/
structure Bar where
  n : Nat := 0
  eMin : Nat := 0
  eSum : Nat := 0
  eMax : Nat := 0
  e2nd : Nat := 0
  arg : Nat := 0
  xMin : Nat := 0
  xSum : Nat := 0
  xMax : Nat := 0
  mixed : Bool := false
  epochMix : Bool := false
  epochMin : Nat := 0
  epochMax : Nat := 0
deriving DecidableEq, Repr

/-- An open barrier cell (R229): cohort, COLL, inputs by leaf. -/
structure BarCell where
  cohort : Nat
  coll : Nat
  ins : List (Nat × Bar) := []
deriving DecidableEq, Repr

/-- A pending entry of a die (R232). -/
structure PendBar where
  coll : Nat
  e : Nat
  x : Nat
  temp : Nat
deriving DecidableEq, Repr

/-- Straggler state of a port (R235). EWMAs and LAST_L are s32 ns. -/
structure Strag where
  rank : Nat := 0
  job : Nat := 0
  cohort : Nat := 0
  valid : Bool := false
  epoch : Nat := 0
  scored : Nat := 0
  lastMap : Nat := 0
  late : Int := 0
  xlate : Int := 0
  state : Nat := 0
  cause : Nat := 0
  tbin : Nat := 0
  load : Nat := 0
  lastColl : Nat := 0
  lastL : Int := 0
  changeMc : Nat := 0
deriving DecidableEq, Repr

/-- A cohort reference (R237), with the latch instant that its MC and SLOT name. -/
structure Qref where
  set : Nat
  cohort : Nat
  mixed : Bool := false
  epochMix : Bool := false
  thin : Bool := false
  mc : Nat := 0
  slot : Nat := 0
  collapsed : Nat := 0
  q25 : Nat := 0
  q50 : Nat := 0
  q75 : Nat := 0
  t : Nat := 0
deriving DecidableEq, Repr

/-- What a Tray holds of a die's condition and scores, per port. -/
structure DetPort where
  pend : List PendBar := []
  strag : Strag := {}
  /-- last TEMP read (R241) -/
  temp : Option Nat := none
  /-- last W read, and the MC of the last reading -/
  watts : Nat := 0
  readMc : Option Nat := none
  /-- load class (R242) and its MC -/
  load : Nat := 0
  loadMc : Option Nat := none
  /-- MC in which the band last moved, and the ballast level in force, by the last report -/
  level : Option Nat := none
  bandMc : Option Nat := none
  ballast : Nat := 0
  /-- MC in which a slice or canary tile was last launched -/
  testMc : Option Nat := none
  /-- MC of the last STRAG_VERDICT -/
  saidMc : Nat := 0
deriving DecidableEq, Repr

end Sys2Proof.Machine
end

