-- ==== Sys2Proof/Machine/StEth.lean ====
section
/-! DEFINITION. State types of the Ethernet ports of a Lamulo (15). -/

namespace Sys2Proof.Machine

/-- One credited channel of a port: A, B, C, CTRL, CMD, LEDGER (R361). -/
structure EthChan where
  /-- items waiting to be laid into frames -/
  queue : List Item := []
  /-- frames taken over at a change of parent, to be sent as new with RESENT = 1 (R369) -/
  moved : List Frame := []
  /-- frames to be sent again after a NAK (R362) -/
  again : List Frame := []
  /-- frames sent and not acknowledged, FSEQ order (R362) -/
  kept : List Frame := []
  /-- FSEQ of the next new frame, which is the count of new frames sent -/
  fseq : Nat := 0
  /-- last cumulative count of frames freed by the peer -/
  lim : Nat := 0
  /-- shaper level in millionths of a byte, and local time of its last refill (R363) -/
  level : Nat := 65536 * 1000000
  at0 : Nat := 0
  /-- the frame at the head has been counted in EGR_CNT_GATE_WAIT (R366) -/
  waited : Bool := false
  /-- FSEQ expected, frames freed, frames that occupy the receive buffer, a NAK is out for the present gap -/
  rxSeq : Nat := 0
  rxFreed : Nat := 0
  rxHeld : Nat := 0
  naked : Bool := false
deriving DecidableEq, Repr

/-- A policer (R364): what its two buckets lack to be full, in millionths of a byte, and the time of the last refill. -/
structure Policer where
  c : Nat := 0
  e : Nat := 0
  at0 : Nat := 0
deriving DecidableEq, Repr

/-- An Ethernet port beside its registers. -/
structure EthPort where
  chans : List EthChan := List.replicate 6 {}
  /-- local time of the last LINK frame received, and since when liveness has been continuous -/
  lastLink : Nat := 0
  liveFrom : Option Nat := none
  /-- channel whose credit and acknowledgement the next frame carries -/
  turn : Nat := 0
  /-- an acknowledgement has been received since boot: RESTART is no longer sent -/
  heard : Bool := false
  /-- a frame has been received from the peer -/
  estab : Bool := false
  pol : List Policer := List.replicate 4 {}
  /-- local time at which the gate entry in force began (R365) -/
  gateAt : Nat := 0
  /-- the last frame put on the wire -/
  out : Option Frame := none
deriving DecidableEq, Repr

/-- The Ethernet side of a Lamulo. -/
structure Eth where
  ports : List EthPort := List.replicate 24 {}
  /-- downward routes set by PARENT_CHANGE: child and port (R371) -/
  routes : List (Nat × Nat) := []
  /-- the secondary parent is in use (R369) -/
  onSec : Bool := false
  /-- local time at which a failback began to wait for acknowledgement (R372) -/
  failback : Option Nat := none
deriving DecidableEq, Repr

end Sys2Proof.Machine
end

