-- ==== Sys2Proof/Machine/StTrk.lean ====
section
/-! DEFINITION. Stream trackers (R110 to R114). -/

namespace Sys2Proof.Machine

/-- Logical binding a brim entry gives (R112 BIND). -/
structure Bind where
  rank : Nat := 0
  job : Nat := 0
  cohort : Nat := 0
  bound : Bool := false
deriving DecidableEq, Repr

/-- Tracker state (R110, table "Tracker state"). -/
structure Tracker where
  die : Nat := 0
  counter : Nat := 0
  valid : Bool := false
  isVirtual : Bool := false
  gen : Nat := 0
  epoch : Nat := 0
  lastVal : Nat := 0
  lastTime : Nat := 0
  lastCyc : Nat := 0
  warm : Nat := 0
  head : Nat := 0
  discont : Bool := false
  nocyc : Bool := false
  rate : Nat := 0
  frac : Nat := 0
  total : Nat := 0
  totalNs : Nat := 0
  bind : Bind := {}
  /-- detector area, 16 words (R239) -/
  detect : List Nat := List.replicate 16 0
  /-- history: DV and DT, 32 entries -/
  ring : List (Nat × Nat) := List.replicate 32 (0, 0)
deriving DecidableEq, Repr

/-- The inputs of a tracker update (R112): entry, full time, CYC, generation, source, binding and its epoch. -/
structure TrkIn where
  x : Nat
  full : Nat
  cyc : Nat
  gen : Nat
  die : Nat
  counter : Nat
  bind : Bind
  epoch : Nat
deriving DecidableEq, Repr

/-- A virtual update waiting for its head (R114): tracker, inputs, end of the slot of its arrival. -/
structure VirtUpd where
  j : Nat
  inp : TrkIn
  slotEnd : Nat
deriving DecidableEq, Repr

end Sys2Proof.Machine
end

