-- ==== Sys2Proof/Machine/StFst.lean ====
section
/-! DEFINITION. State types of the forest engine (R246 to R277). -/

namespace Sys2Proof.Machine

/-- A bank of a model slot: the image as verified, its place in DDR, the KiB it holds of each cache quarter, and the
thresholds committed with it. -/
structure FBank where
  img : List Nat
  base : Nat
  pinned : Bool := false
  cache : List Nat := [0, 0, 0, 0]
  on : List Nat := []
  off : List Nat := []
deriving DecidableEq, Repr

/-- A formed vector (R247 to R252), with the SWAPS value of its bank. ys holds none for missing. -/
structure FVec where
  subject : Nat
  mc : Nat
  slot : Nat
  t : Nat
  formed : Nat
  swaps : Nat
  codes : List Nat
  ys : List (Option Nat)
  present : Nat
  gen : Nat
  bind : Bind
  epoch : Nat
  tbin : Nat
  load : Nat
  die : Nat
  counter : Nat
  /-- number of the vector since the slot's last swap, modulo 2^16 (R266) -/
  k : Nat
deriving DecidableEq, Repr

/-- An open pass (R269): its vectors, of one bank, and the segments it has run. -/
structure FPass where
  vecs : List FVec
  swaps : Nat
  done : Nat := 0
deriving DecidableEq, Repr

/-- A model slot. What its registers show is kept there: STATE, SHADOW, SWAPS, LOAD_STATUS, MODEL. -/
structure FSlot where
  active : Option FBank := none
  retiring : Option FBank := none
  shadow : Option FBank := none
  /-- base and length of the load in progress -/
  loading : Option (Nat × Nat) := none
  queue : List FVec := []
  pass : Option FPass := none
  /-- vectors formed since the last swap -/
  k : Nat := 0
  /-- disagreements in the window, and the window (R267) -/
  errs : Nat := 0
  errWin : Nat := 0
  /-- short time of the last swap -/
  commit : Option Nat := none
  /-- lane-cycles to its credit (R269) -/
  deficit : Int := 0
deriving DecidableEq, Repr

/-- The latest latch of a die's samples: MC, slot, latch instant; done: DIE vectors have been formed (R247). -/
structure FLatch where
  mc : Nat
  slot : Nat
  t : Nat
  done : Bool := false
deriving DecidableEq, Repr

/-- The forest engine. -/
structure Forest where
  slots : List FSlot := List.replicate 64 {}
  /-- slot whose segment runs -/
  run : Option Nat := none
  /-- slot served last -/
  last : Nat := 63
  /-- latest latch of the die on each port -/
  latches : List (Option FLatch) := List.replicate 16 none
  /-- values of stitch channels: port, channel, latch instant, value (R414) -/
  stv : List (Nat × Nat × Nat × Nat) := []
deriving DecidableEq, Repr

end Sys2Proof.Machine
end

