-- ==== Sys2Proof/Machine/StGnt.lean ====
section
/-! DEFINITION. State types of the Lamulo's digest and Gauntlet functions (R307 to R334). -/

namespace Sys2Proof.Machine

/-- A digest cell (R308): key, sums and the leaves heard. closed: it has closed and waits for its comparison (Crown) or
stands so that late inputs are known. -/
structure DigCell where
  cohort : Nat
  replica : Nat
  step : Nat
  lo : Nat
  hi : Nat
  keySeq : Nat
  keyMix : Bool := false
  mixed : Bool := false
  shards : Nat := 0
  nBad : Nat := 0
  d1 : Nat := 0
  d2 : Nat := 0
  v : Nat := 0
  n : Nat := 0
  openMin : Nat
  epochMin : Nat
  epochMax : Nat
  leaves : List Nat := []
  closed : Bool := false
deriving DecidableEq, Repr

/-- A forwarded DIG_SHARD that the Crown holds (R312). -/
structure HeldShard where
  die : Nat
  cohort : Nat
  replica : Nat
  body : List Nat
deriving DecidableEq, Repr

/-- A Gauntlet package in a bank: its bytes and the half of the store it lies in. -/
structure GPkg where
  img : List Nat
  half : Nat
deriving DecidableEq, Repr

/-- What a Tray knows of the tests of the die on a port (R330 to R333), beside its registers. -/
structure GPort where
  /-- item between GNT_RUN and its result: item, package, part of a retest -/
  running : Option (Nat × Nat × Bool) := none
  /-- items of the retest in progress that have not passed; none: no retest in progress -/
  retest : Option (List Nat) := none
  /-- step of the first launch of the retest in progress -/
  firstLaunch : Option Nat := none
  /-- step of the die's marking -/
  markStep : Nat := 0
  /-- mains cycles since the step count last moved (R330) -/
  mcCount : Nat := 0
deriving DecidableEq, Repr

/-- The Lamulo's Gauntlet (R316 to R334). -/
structure GntF where
  active : Option GPkg := none
  shadow : Option GPkg := none
  retiring : Option GPkg := none
  /-- base and length of the package being checked -/
  loading : Option (Nat × Nat) := none
  /-- bytes of a push received so far -/
  got : Nat := 0
  ports : List GPort := List.replicate 16 {}
  /-- Crown: per die, the items that its retest in progress has passed -/
  passed : List (Nat × List Nat) := []
deriving DecidableEq, Repr

/-- A suspect entry (R332). due: a retest is ordered at once (R161); mark: the change is a marking. -/
structure Susp where
  suspect : Bool := false
  tbin : Nat := 0
  load : Nat := 0
  passes : Nat := 0
  cause : Nat := 0
  due : Bool := false
  mark : Bool := false
  sinceMc : Nat := 0
deriving DecidableEq, Repr

end Sys2Proof.Machine
end

