-- ==== Sys2Proof/Machine/StCore.lean ====
section
/-! DEFINITION. State types both parts share: the local clock and its servo (R44 to R51), the mains chain
(R67 to R73), token buckets (R200), one end of an Ikisa link (R168 to R186), read latches and write holds
(R386, R387). -/

namespace Sys2Proof.Machine

/-- A local clock (R44) with its servo (R50). STATE, STEP_USED and the other visible bits are registers. -/
structure Clock where
  /-- TIME_NS, 64 bits -/
  ns : Nat := 0
  /-- TIME_FRAC, 32 bits -/
  frac : Nat := 0
  /-- TIME_INCR, 32.32 -/
  incr : Nat := 0x100000000
  /-- time-clock ticks since power-up, against which ivl is counted (R50) -/
  ticks : Nat := 0
  /-- the servo's integral term -/
  integral : Int := 0
  /-- consecutive measurements below 100 ns -/
  good : Nat := 0
  /-- tick count at the local receive instant of the last applied measurement, if any -/
  lastTick : Option Nat := none
  /-- local time at entry to HOLDOVER -/
  holdFrom : Option Nat := none
  /-- a source is selected (R48) -/
  source : Bool := false
deriving DecidableEq, Repr

/-- A four-timestamp exchange in progress (R181): the timestamps held so far, in ns and 2^-16 ns. -/
structure Exch where
  exch : Nat
  t1 : Nat := 0
  f1 : Nat := 0
  t2 : Nat := 0
  f2 : Nat := 0
  t3 : Nat := 0
  f3 : Nat := 0
  asym : Nat := 0
  /-- ticks at t2 -/
  tick2 : Nat := 0
  /-- local time of the SYNC -/
  at0 : Nat := 0
deriving DecidableEq, Repr

/-- The mains chain a node holds (R67 to R73). -/
structure Mains where
  /-- announcement or extrapolation that describes the current MC -/
  cur : Option Ann := none
  /-- accepted announcements of coming MCs, the next one first -/
  next : List Ann := []
  /-- the current MC is extrapolated (R69) -/
  extrap : Bool := false
  /-- mismatching announcements consistent with one another, last one and count (R69) -/
  cand : Option (Ann × Nat) := none
  /-- consecutive MCs each described by an accepted announcement (R73) -/
  good : Nat := 0
  /-- local conservative mode (R73) -/
  localCons : Bool := false
  /-- MCs without an announcement in a row -/
  missed : Nat := 0
  /-- local time at which ANN_LOST was set -/
  lostFrom : Option Nat := none
  /-- next slot boundary to be reached in the current MC -/
  slot : Nat := 0
  /-- announcement relayed over IKL and due to be sent again (R182) -/
  resend : Option Ann := none
deriving DecidableEq, Repr

/-- The Crown's mains capture (R62 to R66, R71, R74, R75). Times in ns; lengths and errors in 2^-32 ns. -/
structure Mzc where
  /-- last accepted edge -/
  last : Option Nat := none
  /-- the last eight intervals that entered the period filter, newest first -/
  intervals : List Nat := []
  /-- consecutive intervals that entered the filter since the last (re)acquisition -/
  run : Nat := 0
  /-- phase error of the latest accepted edge and the MC it was measured against -/
  eLast : Int := 0
  eMc : Nat := 0
  /-- phase error last measured against an earlier MC than eMc -/
  ePrev : Int := 0
  /-- announced lengths by MC, newest first -/
  lengths : List (Nat × Nat) := []
  /-- the next edge sets START directly (R66) -/
  firstSet : Bool := false
  /-- local time of the entry to HOLDOVER -/
  holdFrom : Option Nat := none
  /-- the Crown is in conservative mode -/
  cons : Bool := false
  /-- consecutive MCs in TRACK with |e| below 5,000 ns (R75) -/
  trackRun : Nat := 0
  /-- this Crown has taken over (FLAGS.STANDBY) -/
  tookOver : Bool := false
deriving DecidableEq, Repr

/-- A class bucket (R200). The level is held in millionths of a byte, the unit in which kB/s times ns counts. -/
structure Bucket where
  rate : Nat
  burst : Nat
  level : Nat
  /-- local time of the last refill -/
  at0 : Nat := 0
  /-- refusals not yet reported by an ADMIT_LOST (R202) -/
  refused : Nat := 0
deriving DecidableEq, Repr

/-- The sending side of one virtual channel. -/
structure VcTx where
  /-- items waiting to be laid into cells, as bytes; the first may be partly sent -/
  items : List (List Nat) := []
  /-- the first item has begun in an earlier cell -/
  begun : Bool := false
  /-- new cells sent, cumulative (R171) -/
  sent : Nat := 0
  /-- last cumulative CREDIT received (R171) -/
  lim : Nat := 0
deriving DecidableEq, Repr

/-- The receiving side of one virtual channel. -/
structure VcRx where
  /-- bytes of the item in progress; none between items -/
  part : List Nat := []
  /-- cells freed, cumulative mod 4,096 (R171) -/
  freed : Nat := 0
  /-- a CREDIT block is due (R167) -/
  due : Bool := false
deriving DecidableEq, Repr

/-- One end of an IKL link: cell sequence, replay, credits, negotiation (R166 to R186). -/
structure LinkEnd where
  /-- local time of the entry to the present state -/
  since : Nat := 0
  /-- format and check agreed (R186) -/
  agreed : Option (Nat × Nat) := none
  /-- a READY has been sent -/
  readySent : Bool := false
  /-- CSEQ of the next new cell -/
  txSeq : Nat := 0
  /-- cells sent and not acknowledged, oldest first, as octets with their CSEQ -/
  unacked : List (Nat × List Nat) := []
  /-- cells to send again -/
  replay : List (Nat × List Nat) := []
  /-- CSEQ named by the last NAK received and the NAKs for it -/
  nakSeq : Nat := 0
  nakCnt : Nat := 0
  /-- CSEQ expected -/
  rxSeq : Nat := 0
  /-- a NAK has been sent for the present gap -/
  naked : Bool := false
  nakDue : Bool := false
  /-- good cells since the last ACK sent -/
  ackCnt : Nat := 0
  tx : List VcTx := List.replicate 8 {}
  rx : List VcRx := List.replicate 8 {}
  /-- items received whole and not yet taken, oldest first: virtual channel and bytes -/
  got : List (Nat × List Nat) := []
  /-- ALIGN periods unpaired in a row (R166) -/
  alignMiss : Nat := 0
  /-- local time of the last valid block -/
  lastBlock : Nat := 0
  /-- MAINS cells due (R182) -/
  mainsCells : List Ann := []
  /-- a TIME cell due, as octets -/
  timeCell : Option (List Nat) := none
  /-- octets of the last cell put on the link -/
  wire : List Nat := []
  /-- body of the last LINK block put on the link -/
  wireBlk : Nat := 0
  /-- next cell on VC 4 leaves with a corrupt check (R189) -/
  corrupt : Bool := false
  /-- credit return withheld until this time (R189) -/
  withhold : Option Nat := none
  /-- lane 1 squelched until this time (R189) -/
  squelch : Option Nat := none
  /-- the last exit from UP was injected (R185) -/
  injected : Bool := false
  /-- ENABLE last rose, or the port last left UP, at -/
  downFrom : Nat := 0
  /-- a failure of negotiation has been reported since then (R185) -/
  negoSaid : Bool := false
deriving DecidableEq, Repr

/-- A held read latch (R386): path, word address of the value's first word, the words latched by address, and
the time it was taken. -/
structure Latch where
  path : Path
  base : Nat
  words : List (Nat × Nat)
  at0 : Nat
deriving DecidableEq, Repr

/-- A held low word of a multi-word write (R387). -/
structure Hold where
  path : Path
  addr : Nat
  data : Nat
  strb : Nat
  at0 : Nat
deriving DecidableEq, Repr

/-- What a stitch context waits for (R410 to R412). -/
inductive StcWait where
  | none
  /-- WAITS: S, D, PH, and the boundary once it has come: fleet time, latch index, clock count -/
  | slot (s d : Nat) (ph : Bool) (hit : Option (Nat × Nat × Nat))
  /-- WAITT: the target -/
  | time (t : Nat)
  /-- SRD stalled: slot, destination register -/
  | read (slot d : Nat)
  /-- SWR stalled: slot, value -/
  | write (slot v : Nat)
deriving DecidableEq, Repr

/-- A stitch context beside its registers (R404, R409). -/
structure StcCtx where
  /-- x0 to x15 -/
  x : List Nat := List.replicate 16 0
  /-- LATCH: fleet time, latch index, clock count; clear after STITCH_START -/
  latch : Option (Nat × Nat × Nat) := Option.none
  pc : Nat := 0
  /-- size and ENTRY of the image loaded -/
  nInstr : Nat := 0
  entry : Nat := 0
  /-- instructions issued in the present budget interval, and local time of the last refill -/
  spent : Nat := 0
  refillAt : Nat := 0
  /-- local time at which the present wait began -/
  since : Nat := 0
  wait : StcWait := .none
  /-- STITCH_FAULT held until the owner returns to RUN (R417) -/
  held : Option Rec := Option.none
deriving DecidableEq, Repr

/-- The stitch contexts of a part (R403 to R412): program store, local memories at 8192 * context + word, slot
buffer words, contexts, contexts stalled on slots in order, values published by channel (of a Tray: 4,096 times the
port, plus the channel) and latch. -/
structure Stc where
  store : List (Nat × Nat) := []
  mem : List (Nat × Nat) := []
  slots : List (Nat × Nat) := []
  ctx : List StcCtx := List.replicate 32 {}
  stalled : List Nat := []
  published : List (Nat × Nat) := []
deriving DecidableEq, Repr

end Sys2Proof.Machine
end

