-- ==== Sys2Proof/Machine/StItu.lean ====
section
/-! DEFINITION. State types of the ITU's base, observation and partition functions (03 to 07). -/

namespace Sys2Proof.Machine

/-- Synthesis parameters (R78). -/
structure Params where
  partitions : Nat := 1
  taps : Nat := 64
  events : Nat := 256
  memW : Nat := 1024
  addrW : Nat := 48
  outstanding : Nat := 256
  rowIdxW : Nat := 16
  visorDesc : Nat := 4096
  canary : Nat := 8
  testPorts : Nat := 4
  tapLat : Nat := 2
  barLat : Nat := 8
  syncStages : Nat := 3
deriving DecidableEq, Repr

/-- The cap_ straps (R80), W and part code. -/
structure Straps where
  tdpW : Nat := 0
  idleW : Nat := 0
  ballastW : Nat := 0
  licensee : Nat := 0
deriving DecidableEq, Repr

/-- Output pins of the ITU (03, port groups). -/
structure IPins where
  /-- pd_sw_req, bit n - 1 for IPDn -/
  pdReq : Nat := 0
  /-- domain clamped and waiting for its acknowledge; time of the request -/
  pdSince : List (Nat × Nat) := []
  /-- qscan_req and qscan_part -/
  qscan : Option Nat := none
  /-- part_quiesce_req, part_rst_req, one bit per partition -/
  quiesce : Nat := 0
  rst : Nat := 0
  /-- sr_req with op and region -/
  sr : Option (Nat × Nat) := none
  /-- cnry_req in progress, engine -/
  cnry : Option Nat := none
  /-- pwr_ceiling_w and pwr_ballast_w (R89) -/
  ceil : Nat := 0
  ballast : Nat := 0
deriving DecidableEq, Repr

/-- Who issued a memory request. -/
inductive MemUser where
  | trace (part : Nat)
  | digest
  | digestList
deriving DecidableEq, Repr

/-- A memory tag in use (R87). A retired tag has timed out and waits for its response. -/
structure Tag where
  tag : Nat
  part : Nat
  gen : Nat
  user : MemUser
  addr : Nat
  bytes : Nat
  write : Bool
  /-- time of acceptance -/
  at0 : Nat
  retired : Bool := false
  /-- worst status of the beats so far -/
  bad : MemStatus := .ok
  /-- read data received so far, or the bytes written -/
  data : List Nat := []
  /-- trace packets in the chunk written -/
  packets : Nat := 0
deriving DecidableEq, Repr

/-- A barrier entry in the open table (R225). -/
structure BarOpen where
  part : Nat
  coll : Nat
  entry : Nat
  temp : Nat
deriving DecidableEq, Repr

/-- The ledger client beside its registers: measurements (R339, R350, R91 H10 to H12, R475), grants (R351),
reports (R354, R355). -/
structure Pwr where
  /-- local time of the last measurement -/
  last : Option Nat := none
  /-- timely measurements in a row since PWR_STALE -/
  timely : Nat := 0
  /-- the band is frozen by PWR_STALE -/
  stale : Bool := false
  /-- measurements over the ceiling, and under the floor, in a row -/
  overRun : Nat := 0
  underRun : Nat := 0
  /-- complying measurements in a row since BREACH was set -/
  comply : Nat := 0
  /-- pressed and pinned measurements since the last enactment, class of the latest -/
  np : Nat := 0
  nn : Nat := 0
  lastPress : Bool := false
  /-- measurements since the last report: number, sum, highest, lowest -/
  nMeas : Nat := 0
  sumW : Nat := 0
  hi : Nat := 0
  lo : Nat := 65535
  /-- time of the last ceiling change and of the last ballast change -/
  ceilAt : Nat := 0
  floorAt : Nat := 0
  /-- the die has been seated: START is over -/
  seated : Bool := false
  /-- HOLD_WHY of the last grant -/
  hold : Nat := 0
  /-- partitions that freeze the band (cause PART) -/
  parts : List Nat := []
  /-- tokens forfeited since the last report; SEQ of the last grant applied, and of the next report -/
  forfeit : Nat := 0
  grantSeq : Nat := 0
  reportSeq : Nat := 0
  /-- MC of the last enactment or skipped enactment -/
  enactMc : Option Nat := none
  /-- energies, nJ -/
  eTotal : Nat := 0
  eBal : Nat := 0
  ePin : Nat := 0
  /-- ns pinned and pressed not yet counted as whole us -/
  pinNs : Nat := 0
  pressNs : Nat := 0
  /-- the period of LDG_DIE_REPORT: MCs, us pinned and pressed, tokens spent -/
  perMc : Nat := 0
  perPin : Nat := 0
  perPress : Nat := 0
  perUp : Nat := 0
  perDn : Nat := 0
deriving DecidableEq, Repr

/-- Account of one sample block (R104, R106). -/
structure BlkAcct where
  /-- latches not made into a record since the last record made -/
  skipped : Nat := 0
  /-- slot boundary of the last latch made into a record -/
  lastAt : Option Nat := none
  /-- counters with a RESTART to report in the next record made -/
  restart : List Nat := []
  /-- the block has been latched since it last opened a new account: its copies are valid (R408) -/
  copied : Bool := false
  /-- RESTART on every entry of the next record -/
  restartAll : Bool := true
  /-- carry of records made and then discarded: count, ELAPSED_NS, marks -/
  carryCnt : Nat := 0
  carryNs : Nat := 0
  carryMarks : List Nat := []
  carryAll : Bool := false
deriving DecidableEq, Repr

/-- The sampler (04). -/
structure Smp where
  /-- counter values, sparse, unlisted 0 -/
  vals : List (Nat × Nat) := []
  /-- SMP_CYC, 64 bits -/
  cyc : Nat := 0
  /-- copies taken at the last latch of each counter's block (R102), unlisted 0 -/
  copies : List (Nat × Nat) := []
  blks : List BlkAcct := List.replicate 16 {}
  /-- counter named by SMP_RD_IDX of the host register port; the register itself is that of IKL (R108) -/
  hostIdx : Nat := 0
  /-- SMP_PHASE in force (a new one applies from the next MC, R101) -/
  phase : Nat := 0
  /-- MC in which a block was last latched -/
  lastMc : Option Nat := none
deriving DecidableEq, Repr

/-- A partition's reset sequence (R145 to R150). -/
structure PartSeq where
  /-- time of the trigger -/
  trigAt : Nat := 0
  cause : Nat := 0
  /-- time of entry to the present state -/
  since : Nat := 0
  qto : Bool := false
  cut : Bool := false
  snap : Option Nat := none
  rows : Option Nat := none
  /-- cause of a trigger held for the 16 ms gap -/
  held : Option Nat := none
  /-- generation advanced at, if ever -/
  lastAdv : Option Nat := none
  /-- progress counter at the last MC start, unchanged MCs, and HANG declared since it advanced -/
  hangVal : Option Nat := none
  hangCnt : Nat := 0
  hangSaid : Bool := false
  /-- the next MC start begins the count of unchanged MCs anew (R146) -/
  hangFresh : Bool := true
deriving DecidableEq, Repr

/-- A Visor snapshot (R118 to R125). -/
structure Visor where
  part : Nat := 0
  gen : Nat := 0
  cause : Nat := 0
  /-- fleet time of the rise of qscan_req, and MC -/
  at0 : Nat := 0
  mc : Nat := 0
  snapId : Nat := 0
  /-- descriptors stored, index order -/
  descs : List Nat := []
  received : Nat := 0
  result : Nat := 0
  /-- a snapshot is scanning or held in the store -/
  valid : Bool := false
  hold : Bool := false
  emit : Bool := true
  /-- records still to be offered to admission -/
  todo : List Rec := []
deriving DecidableEq, Repr

/-- A scratchpad row sample (R126 to R129). -/
structure RowSmp where
  busy : Bool := false
  part : Nat := 0
  cause : Nat := 0
  first : Nat := 0
  n : Nat := 0
  stride : Nat := 1
  sampleId : Nat := 0
  /-- ordinal of the next row to request -/
  next : Nat := 0
  /-- outstanding request: index, acceptance time, generation, frozen, MC -/
  out : Option (Nat × Nat × Nat × Bool × Nat) := none
  /-- end after the current row -/
  cutting : Bool := false
  /-- row records waiting for admission (16-row buffer) -/
  todo : List Rec := []
  /-- reset sample to start when the present one ends: partition -/
  after : Option Nat := none
deriving DecidableEq, Repr

/-- Trace of one partition (R131 to R142). -/
structure Trc where
  /-- bytes of the chunk being assembled, and the packets in it -/
  chunk : List Nat := []
  packets : Nat := 0
  /-- lines since the last SYNC -/
  lines : Nat := 0
  /-- time of the previous packet or SYNC -/
  last : Nat := 0
  /-- packets lost since the previous SYNC -/
  lost : Nat := 0
  needSync : Bool := false
  /-- previous address per channel -/
  prev : List Nat := [0, 0, 0, 0]
  /-- filled chunks not yet issued, with their packet counts -/
  full : List (List Nat × Nat) := []
deriving DecidableEq, Repr

/-- A run of coefficients (R301): address, first index, count. -/
structure DigRun where
  addr : Nat
  index : Nat
  count : Nat
deriving DecidableEq, Repr

/-- The digest engine beside its registers (R303 to R306). -/
structure Dig where
  /-- step of the armed or open window, and the time it was armed -/
  step : Nat := 0
  armAt : Nat := 0
  /-- recorded at the opening instant -/
  openAt : Option Nat := none
  part : Nat := 0
  gen : Nat := 0
  k1 : Nat := 0
  k2 : Nat := 0
  keySeq : Nat := 0
  lo : Nat := 0
  hi : Nat := 0
  base : Nat := 0
  count : Nat := 0
  /-- run descriptors read -/
  runs : List DigRun := []
  /-- run being digested, coefficients of it done, powers of the keys for the next one -/
  cur : Nat := 0
  pos : Nat := 0
  w1 : Nat := 0
  w2 : Nat := 0
  /-- sums so far -/
  d1 : Nat := 0
  d2 : Nat := 0
  v : Nat := 0
  n : Nat := 0
  /-- tag of the request in flight -/
  tag : Option Nat := none
  /-- records waiting for admission, and those that wait for their partition's RUN -/
  todo : List Rec := []
  held : List Rec := []
deriving DecidableEq, Repr

/-- The item GNT_RUN started (R322): its number, package, LOAD, RETEST and the eight words of its directory
entry (R317). -/
structure GntItem where
  item : Nat := 0
  pkg : Nat := 0
  load : Nat := 0
  retest : Bool := false
  entry : List Nat := []
deriving DecidableEq, Repr

/-- The Gauntlet beside its registers (R322 to R329). -/
structure Gnt where
  /-- test buffer, bytes staged -/
  buf : List Nat := []
  /-- the item running -/
  cur : GntItem := {}
  /-- time of the entry to the present state -/
  since : Nat := 0
  /-- time spent in WAIT_POWER and in RUN, and pwr_temp at the end of RUN -/
  waitNs : Nat := 0
  runNs : Nat := 0
  temp : Option Nat := none
  /-- SKIPPED cause already decided while RESTORE runs -/
  cause : Nat := 0
  /-- op index and bit of the first mismatch -/
  first : Option (Nat × Nat) := none
  /-- canary output: beats and running CRC-64 -/
  beats : Nat := 0
  crc : Nat := 0
  /-- result that waits for its partition's RUN (R328) -/
  held : Option Rec := none
deriving DecidableEq, Repr

/-- The ITU's send queues and counters (R41, R176, R183). -/
structure SendQ where
  a : List Rec := []
  /-- class B: the 256 KiB sample buffer (R106) and the ITU's other class B records -/
  b : List Rec := []
  c : List Rec := []
  ctrl : List Rec := []
  /-- ledger messages waiting, as words -/
  ledger : List (List Nat) := []
  /-- next SEQ -/
  seq : Nat := 0
  /-- last ALIVE handed over per VC -/
  alive : List Nat := [0, 0, 0, 0, 0, 0, 0, 0]
  /-- buckets of classes A, B, C -/
  bkt : List Bucket
  /-- records held while partition 0 is fenced (R474): type, cause, record -/
  held : List (Nat × Nat × Rec) := []
  /-- statuses returned to the ITU's own producers, last one -/
  last : Nat := 0
deriving DecidableEq, Repr

end Sys2Proof.Machine
end

