-- ==== Sys2Proof/Machine/StLam.lean ====
section
/-! DEFINITION. State types of the Lamulo's tree, time and link functions (01, 02, 06, 07). -/

namespace Sys2Proof.Machine

/-- An Ethernet port's time function (R53 to R58). -/
structure PtpPort where
  /-- the port has left settling (R58) -/
  settled : Bool := false
  /-- sequence number of the next event message sent -/
  seq : Nat := 0
  /-- timestamps of the exchange in progress: t1, t2 of the Sync; t3, t4 of the delay request -/
  t1 : Option (Nat × Nat) := none
  t2 : Option (Nat × Nat) := none
  t3 : Option (Nat × Nat) := none
  t4 : Option (Nat × Nat) := none
  tick2 : Nat := 0
  cms : Int := 0
  csm : Int := 0
  /-- correctionField of a two-step Sync waiting for its Follow_Up -/
  syncCorr : Option Int := none
  /-- mean link delay of the peer-delay mechanism, ns * 2^16 -/
  link : Option Int := none
  /-- receive time of the peer in a two-step Pdelay exchange, and local receive time of its response -/
  pd2 : Option (Nat × Nat) := none
  /-- the last message put out -/
  out : Option PtpMsg := none
deriving DecidableEq, Repr

/-- Rejoin of a port (R157, R158). -/
structure Rejoin where
  /-- next step of R158, 1 to 6; 0 outside REJOIN -/
  step : Nat := 0
  cause : Nat := 0
  /-- time of link-up -/
  upAt : Nat := 0
  /-- time at which the die became unobserved -/
  unobsFrom : Nat := 0
  granted : Bool := false
  /-- partitions whose PART_GEN with CAUSE 3 has arrived -/
  gens : List Nat := []
  /-- REARM has been written in step 2 -/
  rearmed : Bool := false
  stepNs : Nat := 0
deriving DecidableEq, Repr

/-- One IKL port of the Tray Lamulo. -/
structure IklPort where
  link : LinkEnd := {}
  /-- EXCH and local time of the last SYNC -/
  exch : Nat := 0
  exchAt : Option Nat := none
  /-- exchanges that wait for their DREQ: EXCH and local time of the SYNC -/
  exchs : List (Nat × Nat) := []
  /-- local time of the last margin sweep (R188) -/
  marginAt : Nat := 0
  /-- MC of the receipt of PART_GEN per partition, while the previous generation is held -/
  genMc : List (Nat × Nat) := []
  /-- fresh, last ALIVE and last SEQ per VC (R176) -/
  fresh : List Bool := List.replicate 8 true
  alive : List Nat := List.replicate 8 0
  seq : List Nat := List.replicate 8 0
  rejoin : Rejoin := {}
  /-- the die is observed: the port has been ACTIVE since it last left UP -/
  observed : Bool := false
  /-- command packets waiting for VC 4, oldest first (R183) -/
  cmds : List Pkt := []
  /-- partitions whose PART_GEN has come with no PART_DONE yet (R152) -/
  frozen : List Nat := []
  /-- partitions reported HUNG (R150) -/
  hung : List Nat := []
  /-- lanes whose margin is reported low: lane and end (R188) -/
  lowEye : List (Nat × Nat) := []
  /-- last ITU_FAULT, counters and power read (R94) -/
  polled : List Nat := []
  /-- local time of the entry to UP -/
  upFrom : Nat := 0
deriving DecidableEq, Repr

/-- Where an upward or downward item goes. -/
inductive Dst where
  /-- the parent in use; at the Crown, the result interface -/
  | up
  /-- the child on port p -/
  | down (p : Nat)
  /-- every child -/
  | all
  /-- every child that takes its commands from this node -/
  | kids
  /-- a named node -/
  | node (n : Nat)
  /-- the standby Crown -/
  | standby
deriving DecidableEq, Repr

/-- An item queued for egress: channel 0 A, 1 B, 2 C, 3 CTRL, 4 CMD, 5 LEDGER (R365). -/
structure EgItem where
  dst : Dst
  chan : Nat
  item : Item
deriving DecidableEq, Repr

/-- A bank of brim entries (R25), one 64-bit entry per IKL port, with its epoch. -/
structure BrimBank where
  entries : List Nat := List.replicate 16 0
  epoch : Nat := 0
deriving DecidableEq, Repr

/-- The brim (R29 to R31). -/
structure Brim where
  active : BrimBank := {}
  /-- former active bank, while it is held -/
  retiring : Option BrimBank := none
  /-- short time of the last commit, if any -/
  commit : Option Nat := none
  /-- MC of the commit that made the retiring banks -/
  commitMc : Nat := 0
  /-- records dropped as stale (R30); the manual names no register for the count -/
  stale : Nat := 0
deriving DecidableEq, Repr

/-- The pins of the Lamulo (19). -/
structure LPins where
  role : Nat := 0
  standby : Bool := false
  prov : Bool := false
  bootAlt : Bool := false
  /-- POR_N is high -/
  por : Bool := false
  thermTripN : Bool := true
deriving DecidableEq, Repr

end Sys2Proof.Machine
end

