-- ==== Sys2Proof/Machine/StLdg.lean ====
section
/-! DEFINITION. State types of the Lamulo's ledger (R342 to R354). -/

namespace Sys2Proof.Machine

/-- What a Tray holds of the die on a port. -/
structure LdgPort where
  /-- MC in which the port last became ACTIVE -/
  activeMc : Option Nat := none
  /-- MC in which its link went down, while its credit is stranded -/
  lostMc : Option Nat := none
  /-- words of the last LDG_REPORT -/
  rep : List Nat := []
  /-- L and TR against which the next report counts spending -/
  base : Option (Nat × Nat) := none
  /-- the next report is the first since the entry to ACTIVE -/
  first : Bool := true
  /-- SEQ of the last grant; grants not reported applied: SEQ, W up, W down -/
  seq : Nat := 0
  pend : List (Nat × Nat × Nat) := []
  /-- HOLD_WHY of the last grant -/
  why : Nat := 0
deriving DecidableEq, Repr

/-- What a node holds of the child on an Ethernet port. -/
structure LdgChild where
  port : Nat
  /-- words of the last LDG_SUM, and the MCs in which the last two came -/
  sum : List Nat := []
  sumMc : Nat := 0
  prevMc : Option Nat := none
  seq : Nat := 0
  pend : List (Nat × Nat × Nat) := []
  lostMc : Option Nat := none
deriving DecidableEq, Repr

/-- The ledger of a Lamulo beside its registers. -/
structure LdgF where
  ports : List LdgPort := List.replicate 16 {}
  kids : List LdgChild := []
  /-- shares per die of the last division (Tray), W -/
  shareUp : Nat := 0
  shareDn : Nat := 0
  /-- MC of the last division -/
  divMc : Option Nat := none
  /-- SEQ of the last fill applied, and of the last LDG_SUM sent -/
  fillSeq : Nat := 0
  sumSeq : Nat := 0
  /-- tokens spent by the dies of a Tray, cumulative W -/
  spentUp : Nat := 0
  spentDn : Nat := 0
deriving DecidableEq, Repr

end Sys2Proof.Machine
end

