-- ==== Sys2Proof/Machine/StRec.lean ====
section
/-! DEFINITION. State types of the compression engine and the flight recorder (18), and of the board functions (19). -/

namespace Sys2Proof.Machine

/-- A descriptor that the compression engine is running: its first twelve words, bytes consumed and written, blocks. -/
structure CmpRun where
  words : List Nat
  pos : Nat := 0
  outPos : Nat := 0
  blocks : Nat := 0
deriving DecidableEq, Repr

/-- A ring of the compression engine beside its registers (R429). -/
structure CmpRing where
  run : Option CmpRun := none
  /-- a stream is open; it is a compressed one that this engine writes -/
  opened : Bool := false
  /-- bytes of the stream that a match may reach, newest first, each with the hash of the group that begins there -/
  hist : List (Nat × Option Nat) := []
  /-- input of the open block, oldest first (R428) -/
  block : List Nat := []
  /-- no block of the stream has ended -/
  first : Bool := true
  /-- input consumed and output written by the stream a decompressor reads (R430) -/
  inTotal : Nat := 0
  outTotal : Nat := 0
  /-- bytes consumed and written that make no whole KiB yet (R444) -/
  inRem : Nat := 0
  outRem : Nat := 0
deriving DecidableEq, Repr

/-- A record offered to the recorder (R431): kind, flush cause if it flushes, TRUNC, payload bytes. -/
structure RecOffer where
  kind : Nat
  flush : Option Nat := none
  trunc : Bool := false
  payload : List Nat
deriving DecidableEq, Repr

/-- The unit being written (R435): region offset, records in it. -/
structure RecUnit where
  at0 : Nat
  recs : Nat
deriving DecidableEq, Repr

/-- The flight recorder beside its registers (R431 to R441). -/
structure Rcd where
  /-- records offered and not yet in the buffer, oldest first -/
  inbox : List RecOffer := []
  /-- the buffer: records as bytes, oldest first (R434) -/
  buf : List (List Nat) := []
  /-- SEQ of the first record of the buffer -/
  seq0 : Nat := 0
  /-- losses not yet reported in a LOST record: buffer, frozen, full -/
  lost : Nat × Nat × Nat := (0, 0, 0)
  /-- records lost in the current MC (R443) -/
  lostMc : Nat := 0
  /-- flush cause asked for, flush in progress with the records left to write and its cause -/
  want : Option Nat := none
  left : Nat := 0
  cause : Nat := 0
  unit : Option RecUnit := none
  /-- frozen since -/
  frozen : Option Nat := none
  /-- sectors to be erased, the first in progress, with the erase count its header will carry -/
  erases : List (Nat × Nat) := []
  /-- a CLEAR is running: REC_EVENT CLEARED follows -/
  clearing : Bool := false
  /-- the boot scan waits for its erases: sectors re-erased, units skipped -/
  scan : Option (Nat × Nat) := none
  /-- active journal sector and its next entry -/
  jSector : Nat := 0
  jNext : Nat := 0
  /-- current sector and the next byte in it -/
  sector : Nat := 2
  wptr : Nat := 256
  /-- sectors not used until the next clear -/
  skip : List Nat := []
deriving DecidableEq, Repr

/-- The power-fail monitor (R466, R467): local times of assertion, latched first assertion, time from which both have been
deasserted. -/
structure Pfw where
  a : Option Nat := none
  b : Option Nat := none
  clearFrom : Option Nat := none
deriving DecidableEq, Repr

/-- The board side of the Lamulo (19). -/
structure Brd where
  pfw : Pfw := {}
  /-- NOR flash (R440, R453) -/
  nor : Memory := []
  /-- packet-buffer SRAM as recovery uses it (R456) -/
  sram : Memory := []
  /-- the last MSI-X vector sent (R465) -/
  msi : Option Nat := none
  /-- board events that wait for a restart: code, DETAIL (R469) -/
  due : List (Nat × Nat × Nat) := []
deriving DecidableEq, Repr

end Sys2Proof.Machine
end

