-- ==== Sys2Proof/Machine/State.lean ====
section
/-! DEFINITION. The state of the block, its reset value, and the reasons a step can stop. -/

namespace Sys2Proof.Machine

/-- Reasons a command faults. -/
inductive Fault where
  /-- Raised by a direct access to a byte outside the Lamulo's DDR address space; safe: the model stops. -/
  | noSuchAddress
deriving DecidableEq, Repr

/-- Reasons a command is refused. -/
inductive Refusal where
  /-- Raised by exec for a command that has no meaning yet; safe: the model stops. -/
  | notModelled (mnemonic : String)
deriving DecidableEq, Repr

/-- The ITU of one die. -/
structure Itu where
  regs : Regs := []
  par : Params := {}
  /-- the cap_ pins and the values sampled at reset -/
  straps : Straps := {}
  caps : Straps := {}
  clk : Clock := {}
  mains : Mains := {}
  /-- four-timestamp exchanges in progress (R181) -/
  exchs : List Exch := []
  link : LinkEnd := {}
  txq : SendQ
  pins : IPins := {}
  tags : List Tag := []
  bars : List BarOpen := []
  /-- barrier events lost per partition (R226) -/
  barLost : List Nat := List.replicate 16 0
  pwr : Pwr := {}
  /-- the itu_clk period measured against itu_tclk, in 2^-16 ns (R90) -/
  clkPeriod : Nat := 65536
  smp : Smp := {}
  parts : List PartSeq := List.replicate 16 {}
  /-- ADV_ALL is held since (R159) -/
  advHeld : Bool := false
  vis : Visor := {}
  row : RowSmp := {}
  trc : List Trc := List.replicate 16 {}
  /-- class of each tap in the last cycle traced, unlisted 0 (R133) -/
  tapCls : List (Nat × Nat) := []
  dig : Dig := {}
  gnt : Gnt := {}
  stc : Stc := {}
  /-- staged values (R391) -/
  txn : IStg := {}
deriving DecidableEq, Repr

/-- The Lamulo. -/
structure Lam where
  regs : Regs := []
  pins : LPins := {}
  clk : Clock := {}
  mains : Mains := {}
  mzc : Mzc := {}
  ptp : List PtpPort := List.replicate 24 {}
  ports : List IklPort := List.replicate 16 {}
  brim : Brim := {}
  bkt : List Bucket
  seq : Nat := 0
  egress : List EgItem := []
  /-- an ANCHOR is due after a clock step (R432) -/
  anchorDue : Bool := false
  /-- DDR, and its poisoned 64-byte lines (R460) -/
  ddr : Memory := []
  poison : List Nat := []
  /-- replies waiting for the PCIe reply ring, as words (R382, R400) -/
  replies : List (List Nat) := []
  /-- hardware trackers by index (R110) -/
  trk : List (Nat × Tracker) := []
  /-- streams of the virtual trackers in use: j, die, counter (R113) -/
  virt : List (Nat × Nat × Nat) := []
  /-- virtual updates waiting for their heads (R114) -/
  virtQ : List VirtUpd := []
  /-- TRK_SNAP_DATA (R115) -/
  trkSnap : List Nat := List.replicate 96 0
  stc : Stc := {}
  /-- open reduction cells (R207) -/
  cells : List Cell := []
  /-- open barrier cells (R229) -/
  barCells : List BarCell := []
  /-- barrier cells closed within DET_HOLD_MS: cohort, COLL, time of the close (R208, R230) -/
  barDone : List (Nat × Nat × Nat) := []
  /-- condition and scores of the dies (R232, R235, R241, R242) -/
  det : List DetPort := List.replicate 16 {}
  /-- latest reference per set and cohort (R237) -/
  qrefs : List Qref := []
  /-- sets and cohorts reported incomparable (R243) -/
  incomp : List (Nat × Nat) := []
  /-- the forest engine (R246 to R276) -/
  fst : Forest := {}
  /-- digest cells, forwarded shards held, and the former k1 per cohort (R308, R310, R312) -/
  digCells : List DigCell := []
  digHeld : List HeldShard := []
  digPrev : List (Nat × Nat) := []
  /-- the ledger (R342 to R354) -/
  ldg : LdgF := {}
  /-- the Gauntlet (R316 to R334) -/
  gnt : GntF := {}
  /-- Ethernet ports (15) -/
  eth : Eth := {}
  /-- transactions, replies and locks (16) -/
  ctl : Ctl := {}
  /-- compression engine (18) -/
  cmp : List CmpRing := List.replicate 2 {}
  /-- flight recorder (18) -/
  rcd : Rcd := {}
  /-- board functions (19) -/
  brd : Brd := {}
  /-- local time at which the domain switch in progress began (R451) -/
  pdFrom : Nat := 0
  /-- TAG_SEQ of the last own packet (R377) -/
  tagSeq : Nat := 0
  /-- the recorder scan has ended; epoch and banks have been taken from the parent (R458) -/
  scanned : Bool := false
  synced : Bool := false
  /-- misses not reported since the last DEADLINE_MISS (R205) -/
  missSupp : Nat := 0
  /-- register file before the last FLEET commit, while the retiring banks are held (R29) -/
  oldRegs : Option Regs := none
  /-- active bank of the rank directory at the Crown (R28, R29) -/
  dirBank : Nat := 0
  /-- last port injected and MC of the last injection (R189) -/
  injPort : Nat := 15
  injMc : Option Nat := none
  /-- keys programmed (R457): slots 0 to 27 public in KEY_STAT order, 96 bytes; 32 to 47 fleet, 32 bytes -/
  keys : List (Nat × List Nat) := []
deriving DecidableEq, Repr

/-- The whole block: the ITU of one die, the Lamulo, and the queue of waiting commands. -/
structure State where
  itu : Itu
  lam : Lam
  /-- held read latches and low words of writes, of every path (R386, R387) -/
  latches : List Latch := []
  holds : List Hold := []
  /-- commands waiting, first in first out -/
  pending : List Instr := []
  /-- data of the last register or memory read that a path was answered -/
  rdata : List Nat := []
  /-- number of free values taken -/
  freeN : Nat := 0
deriving DecidableEq, Repr

/-- Admission buckets of the ITU after itu_rst_n (R201): they start full. -/
def ituBuckets : List Bucket :=
  [{ rate := 4000, burst := 65536, level := 65536 * 1000000 },
   { rate := 160000, burst := 262144, level := 262144 * 1000000 },
   { rate := 1000000, burst := 524288, level := 524288 * 1000000 }]

/-- Admission buckets of the Lamulo after boot (R201). -/
def lamBuckets : List Bucket :=
  [{ rate := 16000, burst := 1048576, level := 1048576 * 1000000 },
   { rate := 1000000, burst := 8388608, level := 8388608 * 1000000 },
   { rate := 2000000, burst := 8388608, level := 8388608 * 1000000 }]

/-- The block right after reset: every register at its map's reset value. -/
def State.reset : State :=
  { itu := { txq := { bkt := ituBuckets } }, lam := { bkt := lamBuckets } }

end Sys2Proof.Machine
end

