-- ==== Sys2Proof/Machine/Ops.lean ====
section
/-! DEFINITION. The named operations over the state that every meaning uses: register fields of the two parts,
clocks and slots, free values, authority (R3, R4, R92), making and admitting records (R41, R193 to R202). -/

namespace Sys2Proof.Machine

/-- The outcome of every command that has its effect and goes on. -/
abbrev Out := Host.Outcome State Fault Refusal

/-- The state with its ITU changed. -/
def State.onItu (s : State) (f : Itu → Itu) : State := { s with itu := f s.itu }

/-- The state with its Lamulo changed. -/
def State.onLam (s : State) (f : Lam → Lam) : State := { s with lam := f s.lam }

/-- Read an ITU register field. -/
def State.ri (s : State) (F : Fld) (i : Nat := 0) (j : Nat := 0) : Nat := s.itu.regs.rd F i j

/-- Set an ITU register field. -/
def State.wi (s : State) (F : Fld) (v : Nat) (i : Nat := 0) (j : Nat := 0) : State :=
  { s with itu := { s.itu with regs := s.itu.regs.wr F v i j } }

/-- Advance an ITU counter field, saturating. -/
def State.ii (s : State) (F : Fld) (n : Nat := 1) (i : Nat := 0) (j : Nat := 0) : State :=
  { s with itu := { s.itu with regs := s.itu.regs.inc F n i j } }

/-- Read a Lamulo register field. -/
def State.rl (s : State) (F : Fld) (i : Nat := 0) (j : Nat := 0) : Nat := s.lam.regs.rd F i j

/-- Set a Lamulo register field. -/
def State.wl (s : State) (F : Fld) (v : Nat) (i : Nat := 0) (j : Nat := 0) : State :=
  { s with lam := { s.lam with regs := s.lam.regs.wr F v i j } }

/-- Advance a Lamulo counter field, saturating. -/
def State.il (s : State) (F : Fld) (n : Nat := 1) (i : Nat := 0) (j : Nat := 0) : State :=
  { s with lam := { s.lam with regs := s.lam.regs.inc F n i j } }

/-- Take one free value: a value the manual leaves open (log entry 1). -/
def State.free (s : State) : Nat × State := (Config.freeValue s.freeN, { s with freeN := s.freeN + 1 })

/-- s if c holds, else t: a conditional effect. -/
def State.when (s : State) (c : Bool) (f : State → State) : State := if c then f s else s

/-! ### Clocks and slots -/

/-- The local clock of a part. -/
def State.clk (s : State) : Side → Clock
  | .itu => s.itu.clk
  | .lam => s.lam.clk

/-- The state with the local clock of a part replaced. -/
def State.setClk (s : State) (sd : Side) (c : Clock) : State :=
  match sd with
  | .itu => { s with itu := { s.itu with clk := c } }
  | .lam => { s with lam := { s.lam with clk := c } }

/-- TIME_NS of a part. -/
def State.now (s : State) (sd : Side) : Nat := (s.clk sd).ns

/-- The mains chain of a part. -/
def State.mains (s : State) : Side → Mains
  | .itu => s.itu.mains
  | .lam => s.lam.mains

/-- The state with the mains chain of a part replaced. -/
def State.setMains (s : State) (sd : Side) (m : Mains) : State :=
  match sd with
  | .itu => { s with itu := { s.itu with mains := m } }
  | .lam => { s with lam := { s.lam with mains := m } }

/-- Clock state FREE, ACQUIRE, LOCKED, HOLDOVER as TIME_STAT.STATE or ITIME_STAT.STATE codes it. -/
def State.clkState (s : State) : Side → Nat
  | .itu => s.ri I.ITIME_STAT_STATE
  | .lam => s.rl L.TIME_STAT_STATE

/-- DEGRADED of a part's clock (R51). -/
def State.degraded (s : State) : Side → Nat
  | .itu => s.ri I.ITIME_STAT_DEGRADED
  | .lam => s.rl L.TIME_STAT_DEGRADED

/-- The part is an active Crown on its own clock (R54): fleet time is its clock, so it counts as LOCKED
(DEDUCED, log entry 5). -/
def State.grandmaster (s : State) : Side → Bool
  | .itu => false
  | .lam => s.rl L.LAM_STRAP_ROLE == 3 && (s.rl L.LAM_STRAP_STANDBY == 0 || s.lam.mzc.tookOver) &&
      s.rl L.TIME_CTL_FREERUN == 1

/-- The two conditions of R52: the clock is LOCKED, or in HOLDOVER without DEGRADED, and a chain is held whose
current MC is described by an announcement or extrapolated. -/
def State.slotsOk (s : State) (sd : Side) : Bool :=
  (s.clkState sd == 2 || (s.clkState sd == 3 && s.degraded sd == 0) || s.grandmaster sd) && (s.mains sd).cur.isSome

/-- Number of the current MC, 0 where no chain is held. -/
def State.mc (s : State) (sd : Side) : Nat :=
  match (s.mains sd).cur with
  | some a => a.mc
  | none => 0

/-- The current MC's [31:0] as records carry it. -/
def State.mc32 (s : State) (sd : Side) : Nat := s.mc sd % 2 ^ 32

/-- The time at which slot n of an announced MC begins, whole ns (R68). -/
def Ann.slotAt (a : Ann) (n : Nat) : Nat := (a.start + n * a.length / 64) / 2 ^ 32

/-- Start of an announced MC in whole ns. -/
def Ann.startNs (a : Ann) : Nat := a.start / 2 ^ 32

/-- The first slot boundary at or after time t in the chain of a: MC offset and slot, searched over the slots of
one MC after another of equal length (R68, R69). -/
def Ann.boundary (a : Ann) (t : Nat) : Nat :=
  if a.length = 0 then t else
  let rel := t * 2 ^ 32 - a.start
  let k := rel / a.length
  let base := a.start + k * a.length
  let n := ceilDiv ((t * 2 ^ 32 - base) * 64) a.length
  let b := (base + n * a.length / 64) / 2 ^ 32
  if t ≤ b then b else (base + (n + 1) * a.length / 64) / 2 ^ 32

/-! ### The node's place in the tree -/

/-- Role of the Lamulo: 0 Tray, 1 Rack, 2 Row, 3 Crown (R448). -/
def State.role (s : State) : Nat := s.rl L.LAM_STRAP_ROLE

/-- The Lamulo is the active Crown. -/
def State.isCrown (s : State) : Bool := s.role == 3 && (s.rl L.LAM_STRAP_STANDBY == 0 || s.lam.mzc.tookOver)

/-- The Lamulo is the standby Crown and has not taken over. -/
def State.isStandby (s : State) : Bool := s.role == 3 && !(s.rl L.LAM_STRAP_STANDBY == 0 || s.lam.mzc.tookOver)

/-- ROW, RACK and TRAY of LAM_POS that the role has, at the bit places of R17; PORT zero (R194). -/
def State.nodeId (s : State) : Nat :=
  let row := s.rl L.LAM_POS_ROW <<< 12
  let rack := s.rl L.LAM_POS_RACK <<< 8
  let tray := s.rl L.LAM_POS_TRAY <<< 4
  match s.role with
  | 0 => row ||| rack ||| tray
  | 1 => row ||| rack
  | 2 => row
  | _ => 0

/-- The node number of R156: role rank times 2^17 plus the position. -/
def State.nodeNo (s : State) : Nat := (3 - s.role) <<< 17 ||| s.nodeId

/-- Role rank of a node number (R156). -/
def nodeRank (n : Nat) : Nat := n / 2 ^ 17

/-- Node n is anc, or lies below it by the ID fields of R17. -/
def nodeUnder (anc n : Nat) : Bool :=
  let r := nodeRank anc
  let cut := if r = 0 then 17 else 16 - 4 * r
  decide (r ≤ nodeRank n) && decide ((n % 2 ^ 17) >>> cut = (anc % 2 ^ 17) >>> cut)

/-- SRC_ROLE of the node's own records (R198). -/
def State.srcRole (s : State) : Nat :=
  if s.role = 3 && s.rl L.LAM_STRAP_STANDBY == 1 && !s.lam.mzc.tookOver then 5 else s.role + 1

/-- Physical die ID of the die on IKL port q (R17, R18). -/
def State.dieId (s : State) (q : Nat) : Nat :=
  s.rl L.LAM_POS_ROW <<< 12 ||| s.rl L.LAM_POS_RACK <<< 8 ||| s.rl L.LAM_POS_TRAY <<< 4 ||| q % 16

/-! ### Authority (R3, R4, R92, R389) -/

/-- An authority as a number, growing with nesting (R3). -/
def authLvl : Auth → Nat
  | .partition => 1
  | .tray => 2
  | .fleet => 3

/-- Read authority, write authority and domain of the ITU window block at a byte offset (R92). -/
def ituBlock (a : Nat) : Nat × Nat × Nat :=
  if a < 0x800 then (1, 2, 0)
  else if a < 0x5800 then (1, 2, 1)
  else if a < 0x6000 then (1, 2, 0)
  else if a < 0x6800 then (2, 2, 0)
  else if a < 0x7000 then (1, 2, 2)
  else if a < 0x7800 then (2, 3, 3)
  else if a < 0x8000 then (1, 3, 0)
  else if a < 0xB000 then (2, 2, 4)
  else if a < 0xF000 then (2, 3, 4)
  else (3, 4, 0)

/-- The partition whose own registers lie at the offset, in the blocks marked "own partition" (R92, R143, R163). -/
def ituOwnPart (a : Nat) : Option Nat :=
  if 0x5400 ≤ a && a < 0x5600 then some ((a - 0x5400) / 0x20)
  else if 0x5900 ≤ a && a < 0x5B00 then some ((a - 0x5900) / 0x20)
  else none

/-- An ITU power domain is on. -/
def State.ipdOn (s : State) (n : Nat) : Bool := bitAt (s.ri I.ITU_PD_STAT_ON) n

/-- An out-of-authority access at the ITU is recorded in the privileged counters and nowhere else (R4, R389). -/
def State.ituPriv (s : State) (iss : Issuer) (a : Nat) (write : Bool) : State :=
  let s := match iss.auth with
    | .partition => s.ii I.PRIV_CNT_PART
    | .tray => s.ii I.PRIV_CNT_TRAY
    | .fleet => s.ii I.PRIV_CNT_FLEET
  (((s.wi I.PRIV_LAST_ADDR (a / 4)).wi I.PRIV_LAST_PART iss.part).wi I.PRIV_LAST_LEVEL (authLvl iss.auth - 1)).wi
    I.PRIV_LAST_WRITE (b2n write)

/-- An out-of-authority access or refusal at the Lamulo is recorded in its privileged counters (R4, R389). -/
def State.lamPriv (s : State) (a : Auth) (addr : Nat) (write : Bool) : State :=
  let s := match a with
    | .fleet => s.il L.PRIV_CNT_FLEET
    | _ => s.il L.PRIV_CNT_TRAY
  ((s.wl L.PRIV_LAST_ADDR (addr / 4)).wl L.PRIV_LAST_LEVEL (authLvl a - 1)).wl L.PRIV_LAST_WRITE (b2n write)

/-- ITU_FAULT.PD_OFF_ACCESS is set by an access to a domain that is off (R83). -/
def State.ituOffAccess (s : State) : State := s.wi I.ITU_FAULT_PD_OFF_ACCESS 1

/-- The test every register access at the ITU passes first: authority (R4, R86, R92), the Cuff (R148, R402), the power
domain (R83). Answers the state after the test's own effects and whether the access goes on. -/
def State.ituGuard (s : State) (iss : Issuer) (a : Nat) (write : Bool) (fauth : Nat) : State × Bool :=
  let b := ituBlock a
  let need := if write then (if fauth = 0 then b.2.1 else fauth) else b.1
  let own := match ituOwnPart a with
    | some p => iss.auth ≠ .partition || iss.part = p
    | none => true
  let cuffed := iss.path = .host && s.ri I.PART_STAT_CUFF iss.part == 1
  if authLvl iss.auth < need || !own then (s.ituPriv iss a write, false)
  else if cuffed then ((s.ituPriv iss a write).ii I.CUFF_CNT_REG 1 iss.part, false)
  else if !s.ipdOn b.2.2 then (s.ituOffAccess, false)
  else match ituOwnPart a with
    | some p => (s, decide (p < s.itu.par.partitions))
    | none => (s, true)

/-- Lamulo power domain of the BAR0 block at a byte offset (R470). -/
def lamDomain (a : Nat) : Nat :=
  if a < 0x30000 then 0
  else if a < 0x40000 then 19
  else if a < 0x50000 then 5 + (a - 0x40000) / 0x4000
  else if a < 0x60000 then (if a < 0x50D00 then 9 else 10)
  else if a < 0x80000 then 19
  else if a < 0xA0000 then 1
  else if a < 0xC0000 then 15
  else if a < 0xE0000 then 1
  else if a < 0x100000 then 18
  else if a < 0x110000 then 17
  else if a < 0x120000 then 2
  else if 0x200000 ≤ a && a < 0x210000 then 15
  else 1

/-- A Lamulo power domain is on. -/
def State.pdOn (s : State) (n : Nat) : Bool := bitAt (s.rl L.PD_STAT) n

/-- The test every register access at the Lamulo passes first: authority (R4), then domain (R452). -/
def State.lamGuard (s : State) (iss : Issuer) (a : Nat) (write : Bool) (fauth : Nat) : State × Bool :=
  let privRead := !write && 0x1200C0 ≤ a && a ≤ 0x1200C8
  let need := if privRead then 3 else if write then (if fauth = 0 then 2 else fauth) else 2
  if authLvl iss.auth < need then (s.lamPriv iss.auth a write, false)
  else if !s.pdOn (lamDomain a) then (s.il L.PD_CNT_OFF_ACCESS, false)
  else (s, true)

/-! ### Making records at the ITU -/

/-- A bucket refilled to time t (R200). -/
def Bucket.refill (b : Bucket) (t : Nat) : Bucket :=
  { b with level := min (b.burst * 1000000) (b.level + b.rate * (t - b.at0)), at0 := t }

/-- A refilled bucket holds credit for a record of n bytes. -/
def Bucket.has (b : Bucket) (n : Nat) : Bool := decide (n * 1000000 ≤ b.level)

/-- The bucket after a record of n bytes is admitted. -/
def Bucket.take (b : Bucket) (n : Nat) : Bucket := { b with level := b.level - n * 1000000 }

/-- The bucket after a refusal (R202). -/
def Bucket.refuse (b : Bucket) : Bucket := { b with refused := satN 32 (b.refused + 1) }

/-- The empty bucket that stands where a class has none. -/
def Bucket.none : Bucket := { rate := 0, burst := 0, level := 0 }

/-- Admission test of class c at the ITU for n bytes at its local time (R200, R202): the state with the bucket
charged or the refusal counted, and whether the record is admitted. Control class is always admitted. -/
def State.ituAdmit (s : State) (c n : Nat) : State × Bool :=
  if 3 ≤ c then (s, true) else
  let b := (s.itu.txq.bkt.getD c Bucket.none).refill (s.now .itu)
  let ok := b.has n
  let b' := if ok then b.take n else b.refuse
  ({ s with itu := { s.itu with txq := { s.itu.txq with bkt := setNth Bucket.none s.itu.txq.bkt c b' } } }, ok)

/-- Bytes that records hold in a queue. -/
def recBytes (l : List Rec) : Nat := l.foldl (fun n r => n + r.size) 0

/-- Send queue of a class at the ITU: A, B, C, control (R106, R183). -/
def SendQ.q (t : SendQ) (c : Nat) : List Rec :=
  if c = 0 then t.a else if c = 1 then t.b else if c = 2 then t.c else t.ctrl

/-- The queue of a class replaced. -/
def SendQ.setQ (t : SendQ) (c : Nat) (l : List Rec) : SendQ :=
  if c = 0 then { t with a := l } else if c = 1 then { t with b := l } else if c = 2 then { t with c := l } else { t with ctrl := l }

/-- Capacity of the send queue of a class, bytes (R106, R183). -/
def sendCap (c : Nat) : Nat := if c = 3 then 8192 else if c = 1 then 262144 else 16384

/-- Full time of a record from its short time and the receiver's local time (R46). -/
def fullTime (localNs short : Nat) : Nat := ofS 64 ((localNs : Int) + sdiff32 short localNs)

/-- Put a made record into its send queue, giving it the next SEQ (R41). -/
def State.ituQueue (s : State) (r : Rec) : State :=
  let t := s.itu.txq.setQ r.cls (s.itu.txq.q r.cls ++ [{ r with seq := s.itu.txq.seq, born := fullTime (s.now .itu) r.short }])
  { s with itu := { s.itu with txq := { t with seq := (s.itu.txq.seq + 1) % 2 ^ 32 } } }

/-- Status codes of R384 that producers and replies use. -/
def St.ok : Nat := 0
def St.okAbandoned : Nat := 1
def St.prepared : Nat := 2
def St.committed : Nat := 3
def St.rolledBack : Nat := 4
def St.badPacket : Nat := 0x10
def St.badOpcode : Nat := 0x11
def St.badParam : Nat := 0x12
def St.badTarget : Nat := 0x13
def St.staleBinding : Nat := 0x14
def St.staleEpoch : Nat := 0x15
def St.staleTime : Nat := 0x16
def St.staleGen : Nat := 0x17
def St.badOrigin : Nat := 0x18
def St.authFail : Nat := 0x20
def St.denied : Nat := 0x21
def St.replay : Nat := 0x22
def St.linkDown : Nat := 0x30
def St.queueFull : Nat := 0x31
def St.admitRefused : Nat := 0x32
def St.memTimeout : Nat := 0x33
def St.timeout : Nat := 0x34
def St.busy : Nat := 0x35
def St.domainOff : Nat := 0x36
def St.txnUnknown : Nat := 0x40
def St.txnState : Nat := 0x41
def St.txnFull : Nat := 0x42
def St.prepareFailed : Nat := 0x43
def St.watchdog : Nat := 0x44
def St.inDoubt : Nat := 0x45
def St.notInTxn : Nat := 0x46
def St.fleetField : Nat := 0x47
def St.lockHeld : Nat := 0x50
def St.lockOrder : Nat := 0x51
def St.notOwner : Nat := 0x52
def St.lockTimeout : Nat := 0x53

/-- A record of the ITU before SEQ: the die's ID, the partition's current generation. -/
def State.ituRec (s : State) (cls typ part short : Nat) (body : List Nat) : Rec :=
  { cls := cls, typ := typ, len := 1 + ceilDiv body.length 4, die := s.ri I.ITU_DIE_ID_ID, part := part,
    gen := s.ri I.PART_STAT_GEN part, short := short % 2 ^ 32, body := body }

/-- Hold a die-wide record while partition 0 is fenced: one per type and cause (R474). -/
def State.ituHold (s : State) (cause : Nat) (r : Rec) : State :=
  { s with itu := { s.itu with txq := { s.itu.txq with held :=
    (s.itu.txq.held.filter (fun h => !(h.1 == r.typ && h.2.1 == cause)) ++ [(r.typ, cause, r)]) } } }

/-- Offer a record of class A, C or control to its send queue: room in the queue (R183), then admission (R200),
then SEQ and the queue. Answers the status given to the producer. -/
def State.ituOffer (s : State) (r : Rec) : State × Nat :=
  if sendCap r.cls < recBytes (s.itu.txq.q r.cls) + r.size then (s.ii I.ILNK_CNT_Q_REFUSED, St.queueFull)
  else
    let a := s.ituAdmit r.cls r.size
    if a.2 then (a.1.ituQueue r, St.ok) else (a.1, St.admitRefused)

/-- Emit a record of partition part: nothing while the Cuff is raised for it (R148). -/
def State.ituEmit (s : State) (cls typ part short : Nat) (body : List Nat) : State × Nat :=
  if s.ri I.PART_STAT_CUFF part == 1 then (s, St.ok)
  else s.ituOffer (s.ituRec cls typ part short body)

/-- Emit a record of a partition whatever the Cuff: PART_GEN and PART_DONE (R147, R149). -/
def State.ituEmitFenced (s : State) (cls typ part short : Nat) (body : List Nat) : State :=
  (s.ituOffer (s.ituRec cls typ part short body)).1

/-- Emit a record that describes the die as a whole: partition 0, held while partition 0 is fenced (R474). -/
def State.ituEmitDie (s : State) (cls typ cause short : Nat) (body : List Nat) : State :=
  if s.ri I.PART_STAT_CUFF 0 == 1 then s.ituHold cause (s.ituRec cls typ 0 short body)
  else (s.ituOffer (s.ituRec cls typ 0 short body)).1

/-- Emit the records held for partition 0, with the generation now current (R474). -/
def State.ituEmitHeld (s : State) : State :=
  s.itu.txq.held.foldl (fun s h => (s.ituOffer { h.2.2 with gen := s.ri I.PART_STAT_GEN 0 }).1)
    { s with itu := { s.itu with txq := { s.itu.txq with held := [] } } }

/-! ### Making records at the Lamulo -/

/-- Bucket of class c at the Lamulo refilled, and the admission test (R200, R201). -/
def State.lamAdmit (s : State) (c n : Nat) : State × Bool :=
  if 3 ≤ c then (s, true) else
  let b := (s.lam.bkt.getD c Bucket.none).refill (s.now .lam)
  let ok := b.has n
  let b' := if ok then b.take n else b.refuse
  let s := { s with lam := { s.lam with bkt := setNth Bucket.none s.lam.bkt c b' } }
  (if ok then s else s.il L.STAT_CNT_ADMIT_REFUSED, ok)

/-- Queue an item for egress. -/
def State.send (s : State) (d : Dst) (chan : Nat) (i : Item) : State :=
  { s with lam := { s.lam with egress := s.lam.egress ++ [⟨d, chan, i⟩] } }

/-- A record is offered to the recorder as a COPY where REC_CFG selects it (R431, R433): at most 1,024 bytes. -/
def State.recCopy (s : State) (r : Rec) (forwarded : Bool) : State :=
  if bitAt (s.rl L.REC_CFG_COPY) r.cls && r.typ != 0x0F8 && (!forwarded || s.rl L.REC_CFG_COPY_FWD == 1) then
    let bs := r.bytes ++ leBytes 4 r.trailer
    let o : RecOffer := { kind := 2, trunc := decide (1024 < bs.length), payload := bs.take 1024 }
    { s with lam := { s.lam with rcd := { s.lam.rcd with inbox := s.lam.rcd.inbox ++ [o] } } }
  else s

/-- The node originates records: the recorder scan has ended and, in any role but Crown, the epoch and banks have been
taken from the parent (R458). -/
def State.originates (s : State) : Bool := s.lam.scanned && (s.lam.synced || s.role == 3)

/-- A record the Lamulo originates is queued upward with its envelope and trailer (R194, R198), if admitted. -/
def State.lamRec (s : State) (cls typ die gen short : Nat) (body : List Nat) (d : Dst := .up) : State × Bool :=
  if !s.originates then (s, false) else
  let r : Rec := { cls := cls, typ := typ, len := 1 + ceilDiv body.length 4, die := die, gen := gen,
                   seq := s.lam.seq, short := short % 2 ^ 32, body := body }
  let a := s.lamAdmit cls r.size
  if a.2 then
    let s := { a.1 with lam := { a.1.lam with seq := (a.1.lam.seq + 1) % 2 ^ 32 } }
    let e : Env := { srcRole := s.srcRole, epoch := s.rl L.CFG_EPOCH,
                     ftHi := fullTime (s.now .lam) (short % 2 ^ 32) / 2 ^ 32 }
    let r := { r with trailer := r.trailerOf }
    ((s.send d cls (.fwd e.seal r)).recCopy r false, true)
  else (a.1, false)

/-- A record of the node itself: DIE its node ID, GEN its restart generation (R194). -/
def State.lamEmit (s : State) (cls typ short : Nat) (body : List Nat) (d : Dst := .up) : State :=
  (s.lamRec cls typ s.nodeId (s.rl L.STAT_NODE_GEN) short body d).1

/-- Emit a TIME_ALARM or MAINS_ALARM of a part (R197). -/
def State.alarm (s : State) (sd : Side) (typ cause w1 w2 : Nat) : State :=
  let body := [cause, w1 % 2 ^ 32, w2 % 2 ^ 32, 0]
  match sd with
  | .itu => s.ituEmitDie 0 typ cause (s.now .itu) body
  | .lam => s.lamEmit 0 typ (s.now .lam) body

/-- TIME_ALARM (R197): CAUSE 0 jump refused, 1 DEGRADED set, 2 HOLDOVER entered. -/
def State.timeAlarm (s : State) (sd : Side) (cause : Nat) (off : Int) : State :=
  s.alarm sd 0x001 cause (satS 32 off) (s.mc32 sd)

/-- MAINS_ALARM (R197): word 1 the MC, word 2 MAINS_HOLD_MS. An ITU has no MAINS_HOLD_MS register. -/
def State.mainsAlarm (s : State) (sd : Side) (cause : Nat) : State :=
  s.alarm sd 0x002 cause (s.mc32 sd) (match sd with | .lam => s.rl L.MAINS_HOLD_MS | .itu => 0)

end Sys2Proof.Machine
end

