-- ==== Sys2Proof/Machine/GntEnd.lean ====
section
/-! DEFINITION. How a Gauntlet item ends at the die (R325, R327, R328, R335): its result record and the release
of the test raise. -/

namespace Sys2Proof.Machine

/-- The Gauntlet replaced. -/
def State.setGnt (s : State) (g : Gnt) : State := { s with itu := { s.itu with gnt := g } }

/-- Word k of the running item's directory entry. -/
def State.gntWord (s : State) (k : Nat) : Nat := nth s.itu.gnt.cur.entry k

/-- Partition, kind and EXPECT of the running item (R317). -/
def State.gntPart (s : State) : Nat := bits (s.gntWord 0) 18 4
def State.gntSlice (s : State) : Bool := bits (s.gntWord 0) 0 2 == 1
def State.gntExpect (s : State) : Nat := s.gntWord 6 * 2 ^ 32 + s.gntWord 5

/-- The Gauntlet enters a state. -/
def State.gntState (s : State) (st : Nat) : State :=
  (s.wi I.GNT_STAT_STATE st).setGnt { s.itu.gnt with since := s.now .itu }

/-- A result record of the running item (R335), its short time the end of the item. -/
def State.gntRec (s : State) (typ : Nat) (body : List Nat) : Rec :=
  s.ituRec 0 typ s.gntPart (s.now .itu) body

/-- The engine returns to IDLE: the buffer is free, the raise is no longer asked (R325, R329). -/
def State.gntIdle (s : State) : State :=
  let s := ((s.gntState 0).wi I.GNT_BUF_LEVEL 0).wi I.LDG_TOK_ASK_TR 0
  s.setGnt { s.itu.gnt with buf := [] }

/-- EMIT: the record is offered and the engine goes to IDLE, or both wait for the partition's RUN (R328). -/
def State.gntEmit (s : State) (r : Rec) (hold : Bool) : State :=
  if hold then ((s.gntState 6).wi I.LDG_TOK_ASK_TR 0).setGnt { s.itu.gnt with held := some r }
  else (s.ituOffer r).1.gntIdle

/-- A slice ends with RESULT and CAUSE (R335). A slice that never ran has no end of RUN: its TEMP is a free value
(log entry 20). -/
def State.sliceEnd (s : State) (result cause : Nat) (hold : Bool) : State :=
  let g := s.itu.gnt
  let c := g.cur
  let s := s.ii I.GNT_CNT_SLICE
  let s := if result = 1 then s.ii I.GNT_CNT_FAIL else if result = 2 then s.ii I.GNT_CNT_SKIPPED else s
  let fr := s.free
  let temp := match g.temp with | some t => t | none => fr.1 % 1024
  let s := if g.temp.isSome then s else fr.2
  let f := g.first.getD (0, 0)
  let body := [c.item ||| result <<< 12 ||| cause <<< 14 ||| b2n c.retest <<< 18 ||| c.load <<< 19,
    c.pkg ||| bits (s.gntWord 0) 10 8 <<< 16, s.ri I.GNT_MISMATCH, f.1 % 65536 ||| f.2 % 65536 <<< 16,
    bits (s.gntWord 1) 16 16 ||| bits (s.gntWord 2) 0 16 <<< 16, satN 32 g.runNs, temp, satN 32 g.waitNs]
  let s := { s with itu := { s.itu with pins := { s.itu.pins with sr := none } } }
  s.gntEmit (s.gntRec 0x0B1 body) hold

/-- A canary tile ends with RESULT (R335); its digest is zero where it is INCOMPLETE. -/
def State.canaryEnd (s : State) (result : Nat) (hold : Bool) : State :=
  let g := s.itu.gnt
  let c := g.cur
  let s := s.ii I.GNT_CNT_CANARY
  let s := if result = 1 then s.ii I.GNT_CNT_FAIL else if result = 2 then s.ii I.GNT_CNT_INCOMPLETE else s
  let d := if result = 2 then 0 else g.crc
  let s := if result = 2 then s else (s.wi I.GNT_DIG_LO (d % 2 ^ 32)).wi I.GNT_DIG_HI (d / 2 ^ 32)
  let body := [c.item ||| bits (s.gntWord 0) 4 6 <<< 12 ||| result <<< 18 ||| b2n c.retest <<< 21 |||
      bits (s.gntWord 0) 22 2 <<< 22 ||| c.load <<< 24, c.pkg ||| min 2047 g.beats <<< 16, d % 2 ^ 32, d / 2 ^ 32,
    s.gntWord 5, s.gntWord 6, s.ri I.ITU_PWR_NOW_TEMP, satN 32 (s.now .itu - g.since)]
  let s := { s with itu := { s.itu with pins := { s.itu.pins with cnry := none } } }
  s.gntEmit (s.gntRec 0x0B0 body) hold

/-- WAIT_POWER is left with its duration recorded. -/
def State.gntWaited (s : State) : State :=
  s.setGnt { s.itu.gnt with waitNs := s.now .itu - s.itu.gnt.since }

/-- RUN is left with its duration and the temperature recorded. -/
def State.gntRan (s : State) : State :=
  s.setGnt { s.itu.gnt with runNs := s.now .itu - s.itu.gnt.since, temp := some (s.ri I.ITU_PWR_NOW_TEMP) }

/-- A slice that waits for power while the band is frozen ends SKIPPED POWER (R329). Conservative mode and DEGRADED
are causes of a frozen band (R351). -/
def State.gntPowerLost (s : State) : State :=
  if s.ri I.GNT_STAT_STATE = 2 ∧ s.ri I.LDG_STAT_FROZEN ≠ 0 then s.gntWaited.sliceEnd 2 1 false else s

end Sys2Proof.Machine
end

