-- ==== Sys2Proof/Machine/Freeze.lean ====
section
/-! DEFINITION. The ledger client's freeze causes (R351) and its alarm (R355), which clock, link, partition and
power events re-evaluate. -/

namespace Sys2Proof.Machine

/-- The step quantum (03, "Host obligations"): 1% of cap_tdp_w in whole watts, at least 1 W. -/
def State.quantum (s : State) : Nat := max 1 (s.itu.caps.tdpW / 100)

/-- The ledger client's part of the state replaced. -/
def State.setPwr (s : State) (p : Pwr) : State := { s with itu := { s.itu with pwr := p } }

/-- LDG_ALARM (R355), held while partition 0 is fenced (R474). -/
def State.ldgAlarm (s : State) (cause : Nat) : State :=
  s.ituEmitDie 0 0x0C0 cause (s.now .itu)
    [cause ||| s.ri I.LDG_STAT_FROZEN <<< 4, s.ri I.LDG_LEVEL ||| s.itu.pins.ceil <<< 16,
     s.itu.pins.ballast ||| s.ri I.ITU_PWR_NOW_W <<< 16, s.mc32 .itu]

/-- ITIME_CONSERVATIVE: the flag of a current announcement of the ITU (R77, R67). -/
def State.ituCons (s : State) : Bool :=
  s.itu.mains.cur.any (fun a => bitAt a.flags 1) || s.itu.mains.next.any (fun a => bitAt a.flags 1)

/-- The freeze causes that hold now (R351). -/
def State.freezeCauses (s : State) : Nat :=
  let p := s.itu.pwr
  b2n (s.ri I.ILNK_STAT_STATE != 4 || bitAt p.hold 0) ||| b2n (!p.parts.isEmpty) <<< 1 ||| b2n p.stale <<< 2 |||
    b2n (s.degraded .itu == 1 || !s.slotsOk .itu) <<< 3 ||| b2n (s.ituCons || bitAt p.hold 1) <<< 4 |||
    b2n (s.ri I.ILNK_STAT_FMT == 2) <<< 5 ||| b2n (s.ri I.LDG_CTL_FREEZE == 1 || bitAt p.hold 2) <<< 6

/-- Tokens discarded: LDG_CNT_FORFEIT, and the sum the next report carries. -/
def State.forfeit (s : State) (n : Nat) : State :=
  (s.ii I.LDG_CNT_FORFEIT n).setPwr { s.itu.pwr with forfeit := satN 8 (s.itu.pwr.forfeit + n) }

/-- LDG_STAT.STATE follows from FROZEN and the seat (R356). -/
def State.ldgState (s : State) : State :=
  s.wi I.LDG_STAT_STATE (if s.ri I.LDG_STAT_FROZEN ≠ 0 then 2 else b2n s.itu.pwr.seated)

/-- Freeze causes re-evaluated (R351). byGrant: the exit, if any, is made by the grant being applied, which then
clears FRESH itself. -/
def State.refreeze (s : State) (byGrant : Bool) : State :=
  let was := s.ri I.LDG_STAT_FROZEN
  let now := s.freezeCauses
  if was = now then s else
  let s := s.wi I.LDG_STAT_FROZEN now
  if was = 0 then (s.ldgState.ldgAlarm 0).gntPowerLost
  else if now = 0 then
    let held := s.ri I.LDG_TOK_UP + s.ri I.LDG_TOK_DN
    let s := ((s.forfeit held).wi I.LDG_TOK_UP 0).wi I.LDG_TOK_DN 0
    ((s.wi I.LDG_STAT_FRESH (b2n (!byGrant))).ldgState).ldgAlarm 1
  else s

/-- While the conditions of R52 fail, the counts of unchanged MCs are void (R146). -/
def State.hangVoid (s : State) : State :=
  { s with itu := { s.itu with parts := s.itu.parts.map fun p => { p with hangFresh := true } } }

/-- What follows from an event of a part's clock, chain or link: the ITU's freeze causes and hang counts; those of
the Lamulo touch no client. -/
def State.after (s : State) (sd : Side) : State :=
  match sd with
  | .itu => (if s.slotsOk .itu then s else s.hangVoid).refreeze false
  | .lam => s

end Sys2Proof.Machine
end

