-- ==== Sys2Proof/Machine/Ports.lean ====
section
/-! DEFINITION. Ports of the ITU (03): power domains (R81 to R83), clock measurement (R90), barrier events
(R90, R225, R226). -/

namespace Sys2Proof.Machine

/-- The ITU's output pins replaced. -/
def State.setPins (s : State) (p : IPins) : State := { s with itu := { s.itu with pins := p } }

/-- itu_irq: an enabled ITU_FAULT bit is set (R80). -/
def State.ituIrq (s : State) : Bool :=
  [I.ITU_FAULT_PWR_STALE, I.ITU_FAULT_CEIL_BREACH, I.ITU_FAULT_FLOOR_SHORT, I.ITU_FAULT_MEM_TO, I.ITU_FAULT_ROW_TO,
   I.ITU_FAULT_QSCAN_PARTIAL, I.ITU_FAULT_CANARY_TO, I.ITU_FAULT_SR_TO, I.ITU_FAULT_QUIESCE_TO, I.ITU_FAULT_RESET_TO,
   I.ITU_FAULT_PD_TO, I.ITU_FAULT_PD_OFF_ACCESS].any fun F => s.ri F == 1 && bitAt (s.ri I.ITU_IRQ_EN) F.lo

/-- The tags of a power domain's functions (R83). -/
def MemUser.domain : MemUser → Nat
  | .trace _ => 1
  | .digest | .digestList => 2

/-- A transaction of domain n is outstanding (R83): memory, row or canary. -/
def State.pdInFlight (s : State) (n : Nat) : Bool :=
  (s.itu.tags.any fun t => !t.retired && t.user.domain == n) || (n == 1 && s.itu.row.out.isSome) ||
    (n == 3 && s.itu.pins.cnry.isSome)

/-- Domain n waits to switch off: BUSY, requested off, pd_sw_req still high. -/
def State.pdDraining (s : State) (n : Nat) : Bool :=
  bitAt (s.ri I.ITU_PD_STAT_BUSY) n && !bitAt (s.ri I.ITU_PD_CTL_ON) (n - 1) && bitAt s.itu.pins.pdReq (n - 1)

/-- Steps 3 and 4 of R83 for domain n once its transactions have ended: outputs clamped, pd_sw_req low. -/
def State.pdTryOff (s : State) (n : Nat) : State :=
  if s.pdDraining n && !s.pdInFlight n then
    let p := s.itu.pins
    s.setPins { p with pdReq := setBits p.pdReq (n - 1) 1 0,
                       pdSince := p.pdSince.filter (fun x => x.1 != n) ++ [(n, s.now .itu)] }
  else s

/-- R83's wait re-examined for every domain after a transaction ended. -/
def State.pdTryAll (s : State) : State := (((s.pdTryOff 1).pdTryOff 2).pdTryOff 3).pdTryOff 4

/-- State inside domain n is lost (R81): its registers and what its functions hold. -/
def State.pdLose (s : State) (n : Nat) : State :=
  let i := { s.itu with regs := s.itu.regs.filter fun p => (ituBlock (p.1 / 8)).2.2 != n,
                        tags := s.itu.tags.filter fun t => t.user.domain != n }
  match n with
  | 1 => { s with itu := { i with txq := { i.txq with b := [] }, smp := {}, vis := {}, row := {}, trc := List.replicate 16 {}, tapCls := [], bars := [],
                                  barLost := List.replicate 16 0 } }
  | 2 => { s with itu := { i with dig := {} } }
  | 3 => ({ s with itu := { i with gnt := {}, pins := { i.pins with sr := none, cnry := none } } } : State).wi I.LDG_TOK_ASK_TR 0
  | 4 => { s with itu := { i with stc := {} } }
  | _ => s

/-- A bit of a vector register field of the ITU set or cleared. -/
def State.wiBit (s : State) (F : Fld) (n : Nat) (v : Bool) : State := s.wi F (setBits (s.ri F) n 1 (b2n v))

/-- Domain n is no longer switching. -/
def State.pdDone (s : State) (n : Nat) (on : Bool) : State :=
  let s := (s.wiBit I.ITU_PD_STAT_ON n on).wiBit I.ITU_PD_STAT_BUSY n false
  let s := s.setPins { s.itu.pins with pdSince := s.itu.pins.pdSince.filter fun x => x.1 != n }
  if on then s else s.pdLose n

/-- PD_SW_ACK (R83): pd_sw_ack answers the level requested. -/
def execPdSwAck (n : Nat) (level : Bool) (s : State) : Out :=
  if 1 ≤ n ∧ n ≤ 4 ∧ bitAt (s.ri I.ITU_PD_STAT_BUSY) n ∧ bitAt s.itu.pins.pdReq (n - 1) = level ∧
      !s.pdDraining n then
    .next (s.pdDone n level)
  else .next s

/-- PD_SW_ACK_TIMEOUT (R91 H4): no acknowledge within 10 us: taken as off. -/
def execPdSwAckTimeout (n : Nat) (s : State) : Out :=
  match s.itu.pins.pdSince.find? (fun x => x.1 == n) with
  | some (_, t) =>
    if 10000 ≤ s.now .itu - t then
      .next ((((s.pdDone n false).wiBit I.ITU_PD_STAT_TIMEOUT n true).ii I.ITU_CNT_PD_TO).wi I.ITU_FAULT_PD_TO 1)
    else .next s
  | none => .next s

/-- ITU_CLK_MEASURE (R90): cycles of itu_clk counted in 10 us of itu_tclk give its period, 2^-16 ns. -/
def execItuClkMeasure (cycles : Nat) (s : State) : Out :=
  if cycles = 0 then .next s
  else .next { s with itu := { s.itu with clkPeriod := 10000 * 65536 / cycles } }

/-! ### Barrier events -/

/-- Time of a barrier event (R90): local time less ITU_BAR_LAT cycles of itu_clk, whole ns. -/
def State.barTime (s : State) : Nat :=
  (s.itu.clk.ns * 65536 + s.itu.clk.frac / 65536 - s.itu.par.barLat * s.itu.clkPeriod) / 65536

/-- Number of the MC that holds time t, in the chain of a part, earlier and later MCs taken at the current
length (log entry 14); bits [31:0]. -/
def State.mcAt (s : State) (sd : Side) (t : Nat) : Nat :=
  match (s.mains sd).cur with
  | some a =>
    if a.length = 0 then a.mc % 2 ^ 32
    else ofS 32 ((a.mc : Int) + ((t * 2 ^ 32 : Nat) - (a.start : Int)) / a.length)
  | none => 0

/-- Barrier events lost, counted for the next BAR_EVENT of the partition (R226). -/
def State.barDrop (s : State) (p : Nat) : State :=
  { s with itu := { s.itu with barLost := setNth 0 s.itu.barLost p (satN 16 (nth s.itu.barLost p + 1)) } }

/-- BAR_EVENT (R226). -/
def State.barEmit (s : State) (p coll : Nat) (opn : Bool) (t wait temp : Nat) : State :=
  let o := s.ituEmit 0 0x060 p t
    [coll ||| b2n opn <<< 16, satN 32 wait, temp ||| nth s.itu.barLost p <<< 10, s.mcAt .itu t]
  if o.2 = St.ok then { o.1 with itu := { o.1.itu with barLost := setNth 0 o.1.itu.barLost p 0 } } else o.1

/-- Remove the open entry of (partition, collective). -/
def State.barRemove (s : State) (p coll : Nat) : State :=
  { s with itu := { s.itu with bars := s.itu.bars.filter fun b => !(b.part == p && b.coll == coll) } }

/-- The open entry of (partition, collective). -/
def State.barFind (s : State) (p coll : Nat) : Option BarOpen :=
  s.itu.bars.find? fun b => b.part == p && b.coll == coll

/-- A barrier entry (R225, R226). -/
def State.barEntry (s : State) (p coll : Nat) : State :=
  let t := s.barTime
  let e : BarOpen := ⟨p, coll, t, s.ri I.ITU_PWR_NOW_TEMP⟩
  match s.barFind p coll with
  | some o =>
    let s := (s.barEmit p coll true o.entry 0 o.temp).barRemove p coll
    { s with itu := { s.itu with bars := s.itu.bars ++ [e] } }
  | none =>
    if 16 ≤ s.itu.bars.length then s.barDrop p
    else { s with itu := { s.itu with bars := s.itu.bars ++ [e] } }

/-- A barrier exit (R225, R226). -/
def State.barExit (s : State) (p coll : Nat) : State :=
  let t := s.barTime
  match s.barFind p coll with
  | some o => (s.barEmit p coll false t (t - o.entry) (s.ri I.ITU_PWR_NOW_TEMP)).barRemove p coll
  | none => s.barDrop p

/-- BARRIER_EVENT (R225): fenced events are ignored and counted (R148). -/
def execBarrierEvent (exit : Bool) (part coll : Nat) (s : State) : Out :=
  if s.ri I.ITU_FN_EN_COUNTERS = 0 ∨ s.itu.par.partitions ≤ part then .next s
  else if s.ri I.PART_STAT_CUFF part = 1 then .next (s.ii I.CUFF_CNT_BAR 1 part)
  else if exit then .next (s.barExit part (coll % 65536)) else .next (s.barEntry part (coll % 65536))

/-- BAR_ENTRY_TIMEOUT (R226): an entry open for 1,000 ms is emitted with OPEN = 1. -/
def execBarEntryTimeout (part coll : Nat) (s : State) : Out :=
  match s.barFind part coll with
  | some o =>
    if 1000000000 ≤ s.now .itu - o.entry then
      .next ((s.barEmit part coll true o.entry 0 o.temp).barRemove part coll)
    else .next s
  | none => .next s

end Sys2Proof.Machine
end

