-- ==== Sys2Proof/Machine/Trace.lean ====
section
/-! DEFINITION. Trace of the ITU's partitions (R131 to R142). -/

namespace Sys2Proof.Machine

/-- The trace of partition p. -/
def State.trc (s : State) (p : Nat) : Trc := s.itu.trc.getD p {}

/-- The trace of partition p replaced. -/
def State.setTrc (s : State) (p : Nat) (t : Trc) : State :=
  { s with itu := { s.itu with trc := setNth {} s.itu.trc p t } }

/-- An unsigned LEB128 number (R133); fuel bounds the groups of a 64-bit value. -/
def leb128 : Nat → Nat → List Nat
  | 0, v => [v % 128]
  | n + 1, v => if v < 128 then [v] else (v % 128 + 128) :: leb128 n (v / 128)

/-- zigzag of R133 on a 64-bit difference. -/
def zigzag (d : Int) : Nat := if 0 ≤ d then (2 * d).toNat else (-2 * d - 1).toNat

/-- A packet before its DT is known (R133). -/
inductive TrcPkt where
  | tap (i st : Nat)
  | bar (exit : Bool) (coll : Nat)
  | addr (c a : Nat)
  | mark (v : Nat)
deriving DecidableEq, Repr

/-- The signed 64-bit step from a channel's previous address. -/
def addrDelta (prev a : Nat) : Int := toS 64 (ofS 64 ((a : Int) - prev))

/-- The bytes of a packet (R133). -/
def TrcPkt.bytes (k : TrcPkt) (dt : Nat) (prev : List Nat) : List Nat :=
  match k with
  | .tap i st => 0x20 :: leb128 9 dt ++ [i % 256, st % 256]
  | .bar exit coll => (0x30 + 8 * b2n exit) :: leb128 9 dt ++ leBytes 2 coll
  | .addr c a => (0x40 + c % 4) :: leb128 9 dt ++ leb128 9 (zigzag (addrDelta (nth prev c) a))
  | .mark v => 0x50 :: leb128 9 dt ++ leBytes 4 v

/-- The SYNC packet of partition p at time t (R133). -/
def State.syncBytes (s : State) (p t : Nat) : List Nat :=
  [0x10 + p % 16, s.ri I.PART_STAT_GEN p] ++ leBytes 8 t ++ [s.ri I.ITIME_STAT_STATE, 0] ++
    leBytes 4 (satN 32 (s.trc p).lost)

/-- Bytes left in the line being assembled. -/
def Trc.room (t : Trc) : Nat := (64 - t.chunk.length % 64) % 64

/-- The rest of the line filled with PAD (R134). -/
def Trc.padLine (t : Trc) : Trc :=
  if t.room = 0 then t else { t with chunk := t.chunk ++ List.replicate t.room 0, lines := t.lines + 1 }

/-- A full chunk joins those waiting to be written (R132). -/
def Trc.close (t : Trc) : Trc :=
  if t.chunk.length < 512 then t else { t with full := t.full ++ [(t.chunk, t.packets)], chunk := [], packets := 0 }

/-- A SYNC at the start of a line (R134). -/
def State.putSync (s : State) (p tm : Nat) : State :=
  let t := ((s.trc p).padLine).close
  let b := s.syncBytes p tm
  s.setTrc p { t with chunk := t.chunk ++ b, lines := 0, last := tm, lost := 0, needSync := false, prev := [0, 0, 0, 0] }

/-- A SYNC is due before the next packet, which would open a line or not (R134). -/
def State.syncDue (s : State) (t : Trc) : Bool :=
  t.needSync || (t.chunk.length % 64 == 0 && (t.chunk == [] || decide (s.ri I.TRC_CTL_SYNC_INT ≤ t.lines)))

/-- Bytes in the trace buffer (R136). -/
def State.trcLevel (s : State) : Nat :=
  s.itu.trc.foldl (fun n t => n + t.chunk.length + 512 * t.full.length) 0

/-- A packet lost (R136). -/
def State.trcLose (s : State) (p n : Nat) : State :=
  if n = 0 then s else
  let t := s.trc p
  ((s.setTrc p { t with lost := t.lost + n, needSync := true }).ii I.TRC_LOST n p).wi I.TRC_PSTAT_LOST 1 p

/-- Capture runs for partition p. -/
def State.trcActive (s : State) (p : Nat) : Bool :=
  s.ri I.TRC_PCTL_EN p == 1 && s.ri I.ITU_FN_EN_TRACE == 1 && s.ri I.TRC_PSTAT_FULL p == 0

/-- A packet of partition p at time tm laid into its chunk (R133, R134). -/
def State.trcPut (s : State) (p tm : Nat) (k : TrcPkt) : State :=
  let s := if s.syncDue (s.trc p) then s.putSync p tm else s
  let t := s.trc p
  let b := k.bytes (tm - t.last) t.prev
  let s := if t.room ≠ 0 ∧ t.room < b.length then
      let s := s.setTrc p (t.padLine).close
      if s.syncDue (s.trc p) then s.putSync p tm else s
    else s
  let t := s.trc p
  let b := k.bytes (tm - t.last) t.prev
  let c := t.chunk ++ b
  let prev := match k with | .addr c a => setNth 0 t.prev c a | _ => t.prev
  let lines := if c.length % 64 = 0 then t.lines + 1 else t.lines
  s.setTrc p ({ t with chunk := c, packets := t.packets + 1, lines := lines, last := tm, prev := prev } : Trc).close

/-- The packets of one cycle taken in order, eight at most, lost where the 16 KiB buffer has no room for them (R136). -/
def State.trcPutAll (s : State) (tm : Nat) : Nat → List (Nat × TrcPkt) → State
  | _, [] => s
  | n, (p, k) :: l =>
    let t := s.trcPut p tm k
    if n = 0 ∨ 16384 < t.trcLevel then State.trcPutAll (s.trcLose p 1) tm n l
    else State.trcPutAll t tm (n - 1) l

/-- A list kept in ascending order of its first components. -/
def insertAsc {α : Type} (x : Nat × α) : List (Nat × α) → List (Nat × α)
  | [] => [x]
  | y :: l => if x.1 < y.1 then x :: y :: l else y :: insertAsc x l

/-- A list sorted by first components. -/
def sortAsc {α : Type} (l : List (Nat × α)) : List (Nat × α) := l.foldr insertAsc []

/-- Owner of tap t (R131, TRC_OWN_TAP). -/
def State.tapOwner (s : State) (t : Nat) : Nat := bits (s.ri I.TRC_OWN_TAP (t / 8)) (4 * (t % 8)) 4

/-- Tap t is traced. -/
def State.tapTraced (s : State) (t : Nat) : Bool := bitAt (s.ri I.TRC_TAP_EN (t / 32)) (t % 32)

/-- TAP packets of a cycle: class changes of traced taps, by ascending tap (R131, R135). -/
def State.tapPkts (s : State) (taps : List (Nat × Nat)) : List (Nat × TrcPkt) :=
  (sortAsc taps).filterMap fun x =>
    if s.tapTraced x.1 && decide (x.1 < s.itu.par.taps) && s.trcActive (s.tapOwner x.1) &&
        (Sparse.get 0 s.itu.tapCls x.1 != bits x.2 6 2) then some (s.tapOwner x.1, .tap x.1 x.2) else none

/-- BAR packets of a cycle: barrier events of partitions that trace them, unless fenced (R131, R148). -/
def State.barPkts (s : State) (bars : List (Nat × Bool × Nat)) : List (Nat × TrcPkt) :=
  bars.filterMap fun x =>
    if s.trcActive x.1 && s.ri I.TRC_PCTL_BAR x.1 == 1 && s.ri I.PART_STAT_CUFF x.1 == 0 then
      some (x.1, .bar x.2.1 x.2.2) else none

/-- ADDR packets of a cycle, by ascending channel (R131, R135). -/
def State.addrPkts (s : State) (addrs : List (Nat × Nat)) : List (Nat × TrcPkt) :=
  (sortAsc addrs).filterMap fun x =>
    let p := s.ri I.TRC_ACH_PART x.1
    if decide (x.1 < 4) && s.ri I.TRC_ACH_EN x.1 == 1 && s.trcActive p then some (p, .addr x.1 (x.2 % 2 ^ 64)) else none

/-- TRACE_PACKET_CAPTURE (R131 to R136): the tap states, barrier events and channel addresses of one itu_clk cycle,
at their aligned time. -/
def execTracePacketCapture (taps : List (Nat × Nat)) (bars : List (Nat × Bool × Nat)) (addrs : List (Nat × Nat))
    (s : State) : Out :=
  let ks := s.tapPkts taps ++ s.barPkts bars ++ s.addrPkts addrs
  let cls := taps.foldl (fun m x => Sparse.set 0 m x.1 (bits x.2 6 2)) s.itu.tapCls
  let s := { s with itu := { s.itu with tapCls := cls } }
  .next (s.trcPutAll (s.now .itu) 8 ks)

/-! ### Writing chunks -/

/-- Lines of partition p's region (R137). -/
def State.trcLines (s : State) (p : Nat) : Nat := s.ri I.TRC_SIZE p * 64

/-- Base address of partition p's region; bits above ITU_MEM_ADDR_W are ignored. -/
def State.trcBase (s : State) (p : Nat) : Nat :=
  (s.ri I.TRC_BASE_HI p * 2 ^ 32 + s.ri I.TRC_BASE_LO p * 4096) % 2 ^ s.itu.par.addrW

/-- A memory tag may be issued (R87, R148): free, within the outstanding transactions, partition not fenced. -/
def State.tagFree (s : State) (p tag : Nat) : Bool :=
  decide (tag < 256) && !(s.itu.tags.any fun t => t.tag == tag) && decide (s.itu.tags.length < s.itu.par.outstanding) &&
    s.ri I.PART_STAT_CUFF p == 0

/-- Chunks waiting are discarded, with the chunk being assembled; every packet counts as lost (R137, R139, R140). -/
def State.trcDiscard (s : State) (p extra : Nat) : State :=
  let t := s.trc p
  let n := t.full.foldl (fun n c => n + c.2) t.packets
  (s.setTrc p { t with full := [], chunk := [], packets := 0 }).trcLose p (n + extra)

/-- WPTR after a chunk, with the end of the region (R137). -/
def State.trcAdvance (s : State) (p : Nat) : State :=
  let w := s.ri I.TRC_WPTR p + 8
  if s.trcLines p ≤ w then
    if s.ri I.TRC_PCTL_MODE p = 0 then (s.wi I.TRC_WPTR 0 p).wi I.TRC_PSTAT_WRAPPED 1 p
    else ((s.wi I.TRC_WPTR w p).wi I.TRC_PSTAT_FULL 1 p).trcDiscard p 0
  else s.wi I.TRC_WPTR w p

/-- TRACE_CHUNK_WRITE (R132, R137): the oldest filled chunk of p is written under a free tag. -/
def execTraceChunkWrite (p tag : Nat) (s : State) : Out :=
  match (s.trc p).full with
  | [] => .next s
  | (bs, n) :: rest =>
    if s.tagFree p tag then
      let a := s.trcBase p + 64 * s.ri I.TRC_WPTR p
      let s := s.setTrc p { s.trc p with full := rest }
      let g : Tag := { tag := tag, part := p, gen := s.ri I.PART_STAT_GEN p, user := .trace p, addr := a, bytes := 512,
                       write := true, at0 := s.now .itu, data := bs, packets := n }
      .next (({ s with itu := { s.itu with tags := s.itu.tags ++ [g] } } : State).trcAdvance p)
    else .next s

/-- FLUSH_BUSY clears once no chunk of p waits or is in flight (R138). -/
def State.trcFlushed (s : State) (p : Nat) : State :=
  if (s.trc p).full = [] ∧ !(s.itu.tags.any fun t => t.user == .trace p && !t.retired) then s.wi I.TRC_PSTAT_FLUSH_BUSY 0 p
  else s

/-- A failed trace write stops the partition's trace (R139); n packets were in the failed chunk. -/
def State.trcFail (s : State) (p n : Nat) : State :=
  (((s.wi I.TRC_PCTL_EN 0 p).wi I.TRC_PSTAT_WERR 1 p).trcDiscard p n).trcFlushed p

/-- TRACE_WRITE_ERROR (R139): the oldest trace write of p ends in ERROR or POISON. -/
def execTraceWriteError (p : Nat) (status : MemStatus) (s : State) : Out :=
  match status, s.itu.tags.find? (fun t => t.user == .trace p && !t.retired) with
  | .ok, _ => .next s
  | _, none => .next s
  | _, some t =>
    let s := { s with itu := { s.itu with tags := s.itu.tags.erase t } }
    .next ((s.trcFail p t.packets).pdTryAll)

/-- FLUSH (R138): the current chunk padded and queued for writing. -/
def State.trcFlush (s : State) (p : Nat) : State :=
  let t := s.trc p
  if t.chunk = [] then s else
  let c := t.chunk ++ List.replicate (512 - t.chunk.length) 0
  (s.setTrc p { t with full := t.full ++ [(c, t.packets)], chunk := [], packets := 0 }).wi I.TRC_PSTAT_FLUSH_BUSY 1 p

/-- TRC_PCTL_FLUSH (R138). -/
def execTrcPctlFlush (iss : Issuer) (p : Nat) (s : State) : Out :=
  let g := s.ituGuard iss (I.TRC_PCTL_FLUSH.addr + 0x20 * p) true 0
  if g.2 then .next (g.1.trcFlush p) else .next g.1

/-- TRC_PCTL.EN written (R134, R137): set only with a region; a rise starts the region afresh with a SYNC. -/
def State.setTrcEn (s : State) (p : Nat) (v : Bool) : State :=
  if v then
    if s.ri I.TRC_SIZE p = 0 ∨ s.ri I.TRC_PCTL_EN p = 1 then s else
    let s := (((s.wi I.TRC_PCTL_EN 1 p).wi I.TRC_WPTR 0 p).wi I.TRC_PSTAT_FULL 0 p).wi I.TRC_PSTAT_WRAPPED 0 p
    s.putSync p (s.now .itu)
  else s.wi I.TRC_PCTL_EN 0 p

/-- TRC_PCTL_EN_WRITE (R137). -/
def execTrcPctlEnWrite (iss : Issuer) (p : Nat) (v : Bool) (s : State) : Out :=
  let g := s.ituGuard iss (I.TRC_PCTL_EN.addr + 0x20 * p) true 0
  if g.2 then .next (g.1.setTrcEn p v) else .next g.1

/-- A MARK of partition p (R142). -/
def State.trcMark (s : State) (p v : Nat) : State :=
  if s.trcActive p then s.trcPutAll (s.now .itu) 1 [(p, .mark v)] else s

/-- TRC_MARK_WRITE (R142): PARTITION authority of p suffices. -/
def execTrcMarkWrite (iss : Issuer) (p v : Nat) (s : State) : Out :=
  let g := s.ituGuard iss (I.TRC_MARK.addr + 0x20 * p) true 1
  if g.2 then .next (g.1.trcMark p (v % 2 ^ 32)) else .next g.1

/-- The reset sequence stops p's trace (R140). -/
def State.trcResetStop (s : State) (p : Nat) : State :=
  if s.ri I.TRC_PCTL_EN p = 1 then
    ((s.wi I.TRC_PCTL_EN 0 p).wi I.TRC_PSTAT_RESET_STOP 1 p).trcDiscard p 0
  else s.trcDiscard p 0

/-- Clearing ITU_FN_EN.TRACE: FLUSH, then EN = 0, for every partition (R141). -/
def State.trcDisable (s : State) : State :=
  (List.range 16).foldl (fun s p => (s.trcFlush p).wi I.TRC_PCTL_EN 0 p) s

end Sys2Proof.Machine
end

