-- ==== Sys2Proof/Machine/Sampler.lean ====
section
/-! DEFINITION. Counters and the sampler of the ITU (R95 to R109). -/

namespace Sys2Proof.Machine

/-- The sampler replaced. -/
def State.setSmp (s : State) (v : Smp) : State := { s with itu := { s.itu with smp := v } }

/-- Account of block b. -/
def State.blk (s : State) (b : Nat) : BlkAcct := s.itu.smp.blks.getD b {}

/-- Account of block b replaced. -/
def State.setBlk (s : State) (b : Nat) (v : BlkAcct) : State :=
  s.setSmp { s.itu.smp with blks := setNth {} s.itu.smp.blks b v }

/-- An entry of the counter select table (R97). -/
structure CSel where
  src : Nat
  index : Nat
  mask : Nat
  reason : Nat
deriving DecidableEq, Repr

/-- Entry i of the counter select table. -/
def State.csel (s : State) (i : Nat) : CSel :=
  ⟨s.ri I.CSEL_SRC i, s.ri I.CSEL_INDEX i, s.ri I.CSEL_CLASS_MASK i, s.ri I.CSEL_REASON i⟩

/-- The entry's INDEX lies in the synthesised range of its source (R98). -/
def State.cselInRange (s : State) (c : CSel) : Bool :=
  match c.src with
  | 0 => true
  | 3 => decide (c.index < s.itu.par.events)
  | _ => decide (c.index < s.itu.par.taps)

/-- Counters whose entry is not off: their SRC field is listed in the register file. -/
def State.cselUsed (s : State) : List Nat :=
  s.itu.regs.filterMap fun p =>
    if 0x8000 ≤ p.1 ∧ p.1 < 0x28000 ∧ p.1 % 32 = 0 then some ((p.1 - 0x8000) / 32) else none

/-- State of tap t in an engine cycle; taps not named are idle. -/
def tapState (taps : List (Nat × Nat)) (t : Nat) : Nat :=
  match taps.find? (fun p => p.1 == t) with
  | some p => p.2 % 256
  | none => 0

/-- The increment of R98 for one cycle. -/
def State.cselInc (s : State) (c : CSel) (taps : List (Nat × Nat)) (evts : List Nat) : Nat :=
  if !s.cselInRange c then 0 else
  let st := tapState taps c.index
  match c.src with
  | 0 => 0
  | 1 => b2n (bitAt c.mask (bits st 6 2))
  | 2 => b2n (bits st 6 2 == 2 && bits st 0 6 == c.reason)
  | _ => b2n (evts.contains c.index)

/-- COUNTER_INCREMENT (R95, R98): n cycles of itu_clk in which the taps and the event lines stand as given; the
taps are named by engine cycle, ITU_TAP_LAT removed (R102). SMP_CYC runs whatever the enables (R109). -/
def execCounterIncrement (taps : List (Nat × Nat)) (evts : List Nat) (n : Nat) (s : State) : Out :=
  let s := s.setSmp { s.itu.smp with cyc := (s.itu.smp.cyc + n) % 2 ^ 64 }
  if s.ri I.ITU_FN_EN_COUNTERS = 0 then .next s else
  .next (s.cselUsed.foldl (fun s i =>
    let v := (Sparse.get 0 s.itu.smp.vals i + n * s.cselInc (s.csel i) taps evts) % 2 ^ 48
    s.setSmp { s.itu.smp with vals := Sparse.set 0 s.itu.smp.vals i v }) s)

/-- An entry written (R98, R99): the counter is cleared, RESTART marks its next sample. -/
def State.writeCsel (s : State) (i data : Nat) : State :=
  let s := (((s.wi I.CSEL_SRC (bits data 0 2) i).wi I.CSEL_INDEX (bits data 2 10) i).wi I.CSEL_CLASS_MASK
    (bits data 12 4) i).wi I.CSEL_REASON (bits data 16 6) i
  let s := s.setSmp { s.itu.smp with vals := Sparse.set 0 s.itu.smp.vals i 0 }
  let b := s.blk (i / 256)
  let s := s.setBlk (i / 256) { b with restart := i % 256 :: b.restart.filter (· != i % 256) }
  if s.cselInRange (s.csel i) then s else s.wi I.SMP_STAT_SEL_RANGE 1

/-- COUNTER_SELECT_WRITE (R97, R99). -/
def execCounterSelectWrite (iss : Issuer) (i data : Nat) (s : State) : Out :=
  if 4096 ≤ i then .next s else
  let g := s.ituGuard iss (0x1000 + 4 * i) true 0
  if g.2 then .next (g.1.writeCsel i data) else .next g.1

/-- All counters cleared (R99). -/
def State.clearCounters (s : State) : State :=
  s.setSmp { s.itu.smp with vals := [], blks := s.itu.smp.blks.map fun b => { b with restartAll := true } }

/-- SMP_CTL_CLEAR (R99). -/
def execSmpCtlClear (iss : Issuer) (s : State) : Out :=
  let g := s.ituGuard iss I.SMP_CTL_CLEAR.addr true 0
  if g.2 then .next g.1.clearCounters else .next g.1

/-- The next record of a block opens a new account (R104). -/
def BlkAcct.reopen (b : BlkAcct) : BlkAcct := { b with lastAt := none, restartAll := true, copied := false }

/-- Every block's next record opens a new account. -/
def State.reopenBlocks (s : State) : State := s.setSmp { s.itu.smp with blks := s.itu.smp.blks.map BlkAcct.reopen }

/-- SMP_CTL.RUN written (R104, R109). -/
def State.setRun (s : State) (v : Bool) : State :=
  if v && s.ri I.ITU_FN_EN_COUNTERS == 0 then s.wi I.SMP_CTL_RUN 0
  else if v && s.ri I.SMP_CTL_RUN == 0 then (s.wi I.SMP_CTL_RUN 1).reopenBlocks
  else s.wi I.SMP_CTL_RUN (b2n v)

/-- SMP_CTL_RUN_WRITE (R109). -/
def execSmpCtlRunWrite (iss : Issuer) (v : Bool) (s : State) : Out :=
  let g := s.ituGuard iss I.SMP_CTL_RUN.addr true 0
  if g.2 then .next (g.1.setRun v) else .next g.1

/-- SMP_BLOCK_CFG[b] written (R104, R109): DIV 11 to 15 is ignored in full. -/
def State.writeBlockCfg (s : State) (b data : Nat) : State :=
  let en := bits data 0 1
  let div := bits data 1 4
  if 10 < div then s else
  let s := if en = 1 ∧ s.ri I.SMP_BLOCK_CFG_EN b = 0 then s.setBlk b (s.blk b).reopen else s
  (s.wi I.SMP_BLOCK_CFG_EN en b).wi I.SMP_BLOCK_CFG_DIV div b

/-! ### Latching -/

/-- Block with divider d is due at slot n of MC k under phase p (R100). -/
def latchDue (d p k n : Nat) : Bool :=
  if d ≤ 6 then n % 2 ^ d == p % 2 ^ d else n == p && k % 2 ^ (d - 6) == 0

/-- Entry k of a SAMPLE_BLOCK of block b (R103), as two words. -/
def State.smpEntry (s : State) (b k : Nat) : List Nat :=
  let i := 256 * b + k
  let c := s.csel i
  let a := s.blk b
  let mark := b2n (a.restartAll || a.restart.contains k) <<< 16
  if c.src = 0 ∨ !s.cselInRange c then [0, mark ||| 1 <<< 17]
  else
    let v := Sparse.get 0 s.itu.smp.vals i
    [v % 2 ^ 32, v / 2 ^ 32 ||| mark]

/-- Payload of a SAMPLE_BLOCK (R103) latched at boundary time t, slot n. -/
def State.smpBody (s : State) (b n t : Nat) : List Nat :=
  let a := s.blk b
  let el := match a.lastAt with
    | some u => if 0xFFFFFFFE < t - u then 0xFFFFFFFF else t - u
    | none => 0xFFFFFFFF
  [n ||| b <<< 6 ||| s.ri I.SMP_BLOCK_CFG_DIV b <<< 10 ||| satN 16 a.skipped <<< 16, s.mc32 .itu, el,
    s.itu.smp.cyc % 2 ^ 32] ++ (List.range 256).flatMap (s.smpEntry b)

/-- A latch that makes no record counts in SKIPPED of the next (R106). -/
def State.smpSkip (s : State) (b : Nat) : State := s.setBlk b { s.blk b with skipped := (s.blk b).skipped + 1 }

/-- The copy of block b at its latch edge (R102). -/
def State.smpCopy (s : State) (b : Nat) : State :=
  let m := s.itu.smp
  let c := (List.range 256).foldl (fun c k => Sparse.set 0 c (256 * b + k) (Sparse.get 0 m.vals (256 * b + k))) m.copies
  (s.setSmp { m with copies := c, lastMc := some (s.mc .itu) }).setBlk b { s.blk b with copied := true }

/-- SAMPLE_LATCH (R102, R103, R106): block b at slot n, whose boundary lies at t. -/
def State.latch (s : State) (b n t : Nat) : State :=
  let s := s.smpCopy b
  if s.ri I.PART_STAT_CUFF 0 = 1 then s.smpSkip b
  else if 262144 < recBytes s.itu.txq.b + 2084 then ((s.ii I.SMP_CNT_DROP).wi I.SMP_STAT_DROP 1).smpSkip b
  else
    let a := s.ituAdmit 1 2084
    if a.2 then
      let r := a.1.ituRec 1 0x010 0 (short t) (a.1.smpBody b n t)
      let s := a.1.ituQueue r
      let k := s.blk b
      s.setBlk b { k with skipped := 0, lastAt := some t, restart := [], restartAll := false }
    else (((a.1.ii I.SMP_CNT_DROP).ii I.SMP_CNT_REFUSED).wi I.SMP_STAT_DROP 1).smpSkip b

/-- The blocks due at slot n whose boundary lies at t are latched, in block order (R100). -/
def State.latchSlot (s : State) (n t : Nat) : State :=
  if s.ri I.ITU_FN_EN_COUNTERS = 1 ∧ s.ri I.SMP_CTL_RUN = 1 ∧ s.slotsOk .itu then
    (List.range 16).foldl (fun s b =>
      if s.ri I.SMP_BLOCK_CFG_EN b = 1 ∧ latchDue (s.ri I.SMP_BLOCK_CFG_DIV b) s.itu.smp.phase (s.mc .itu) n then
        s.latch b n t
      else s) s
  else s

/-- A sample record discarded after it was made (R106): the block's carry takes what it accounted for. -/
def State.smpDiscard (s : State) (r : Rec) : State :=
  let b := bits (nth r.body 0) 6 4
  let a := s.blk b
  let sk := bits (nth r.body 0) 16 16
  let el := nth r.body 2
  let marks := (List.range 256).filter fun k => bitAt (nth r.body (4 + 2 * k + 1)) 16
  let sum := if a.carryNs = 0xFFFFFFFF ∨ el = 0xFFFFFFFF ∨ 0xFFFFFFFE < a.carryNs + el then 0xFFFFFFFF else a.carryNs + el
  s.setBlk b { a with carryCnt := satN 16 (a.carryCnt + 1 + sk), carryNs := sum,
                      carryMarks := a.carryMarks.filter (fun k => !marks.contains k) ++ marks }

/-- The carry of a block joined to its next record at hand-over (R106), and cleared. -/
def State.smpCarry (s : State) (r : Rec) : State × Rec :=
  let w0 := nth r.body 0
  let b := bits w0 6 4
  let a := s.blk b
  if a.carryCnt = 0 then (s, r) else
  let el := nth r.body 2
  let el' := if a.carryNs = 0xFFFFFFFF ∨ el = 0xFFFFFFFF ∨ 0xFFFFFFFE < a.carryNs + el then 0xFFFFFFFF else a.carryNs + el
  let body := setNth 0 (setNth 0 r.body 0 (setBits w0 16 16 (satN 16 (bits w0 16 16 + a.carryCnt)))) 2 el'
  let body := a.carryMarks.foldl (fun bd k => setNth 0 bd (5 + 2 * k) (nth bd (5 + 2 * k) ||| 1 <<< 16)) body
  (s.setBlk b { a with carryCnt := 0, carryNs := 0, carryMarks := [] }, { r with body := body })

/-! ### Live reads -/

/-- A read latch of a path set; it releases the one the path held (R386). -/
def State.setLatch (s : State) (path : Path) (base : Nat) (ws : List (Nat × Nat)) (t : Nat) : State :=
  { s with latches := s.latches.filter (fun l => l.path != path) ++ [⟨path, base, ws, t⟩] }

/-- Local time of the part that a path reaches. -/
def State.pathNow (s : State) (path : Path) : Nat :=
  match path with
  | .host | .ikl => s.now .itu
  | .pcie | .cmd => s.now .lam

/-- The counter that SMP_RD_IDX of a path names (R108). -/
def State.rdIdx (s : State) (path : Path) : Nat :=
  if path = .host then s.itu.smp.hostIdx else s.ri I.SMP_RD_IDX

/-- A read of SMP_RD_LO (R108): the low word, and the high bits latched for the path. -/
def State.readCounterLo (s : State) (path : Path) : Nat × State :=
  let v := Sparse.get 0 s.itu.smp.vals (s.rdIdx path)
  (v % 2 ^ 32, s.setLatch path I.SMP_RD_LO.addr [(I.SMP_RD_HI.addr, v / 2 ^ 32)] (s.now .itu))

/-- SMP_RD_LO_READ (R108). -/
def execSmpRdLoRead (iss : Issuer) (s : State) : Out :=
  let g := s.ituGuard iss I.SMP_RD_LO.addr false 0
  if g.2 then
    let r := g.1.readCounterLo iss.path
    .next { r.2 with rdata := [r.1] }
  else .next { g.1 with rdata := [0] }

/-- READ_LATCH_EXPIRY (R108, R386): latches of a path held for 1 us are released. -/
def execReadLatchExpiry (path : Path) (s : State) : Out :=
  .next { s with latches := s.latches.filter fun l =>
    !(l.path == path && decide (1000 ≤ s.pathNow path - l.at0)) }

end Sys2Proof.Machine
end

