-- ==== Sys2Proof/Machine/Cmd.lean ====
section
/-! DEFINITION. Results of commands and their replies (R382, R384). -/

namespace Sys2Proof.Machine

/-- What a command answers: status, RESULT and the DATA words. -/
structure CmdRes where
  status : Nat := St.ok
  result : Nat := 0
  data : List Nat := []
deriving DecidableEq, Repr

/-- Words padded with zeros to a multiple of four. -/
def pad4 (ws : List Nat) : List Nat := ws ++ List.replicate ((4 - ws.length % 4) % 4) 0

/-- Payload of a CMD_REPLY (R382). -/
def replyBody (h : CmdHdr) (r : CmdRes) (merged : Bool) (nOk nFail ff : Nat) (ffDie : Bool) (epoch : Nat) : List Nat :=
  pad4 ([h.cmdId ||| h.opcode <<< 16 ||| r.status <<< 24, h.origin ||| h.issuer <<< 19 ||| b2n merged <<< 23, h.txn,
    nOk, nFail, ff ||| b2n ffDie <<< 19, epoch, if merged then 0 else r.result] ++ r.data)

/-- A status that counts the responder in N_OK: OK, and the successes of R384 (0x00 to 0x04). -/
def stOk (st : Nat) : Bool := decide (st < 0x10)

/-- No reply is due: NOREPLY with status OK (R382). -/
def silent (h : CmdHdr) (st : Nat) : Bool := h.noReply && st == St.ok

/-- A command that the ITU refuses is counted (R402). -/
def State.ituRefused (s : State) (st : Nat) : State :=
  if stOk st then s else if st = St.staleEpoch then s.ii I.ICMD_CNT_STALE_EPOCH else s.ii I.ICMD_CNT_REFUSED

/-- The ITU's reply, a control-class record of partition 0, sent whatever the Cuff (log entry 16). -/
def State.ituReply (s : State) (h : CmdHdr) (r : CmdRes) : State :=
  let s := s.ituRefused r.status
  if silent h r.status then s else
  let ok := stOk r.status
  let die := s.ri I.ITU_DIE_ID_ID
  let body := replyBody h r false (b2n ok) (b2n !ok) (if ok then 0 else die) (!ok) (s.ri I.CUFF_EPOCH)
  (s.ituOffer (s.ituRec 3 0x0E0 0 (s.now .itu) body)).1

/-- A reply on its way to ORIGIN (R382): the reply ring of this node's PCIe host, the fleet interface, the parent, or a node
below. A reply to the node's own packet ends here. -/
def State.replyRoute (s : State) (h : CmdHdr) (body : List Nat) : State :=
  if h.origin = s.nodeNo ∧ h.issuer = 15 then s
  else if h.origin = s.nodeNo ∧ h.issuer = 0 ∧ (h.auth = 1 ∨ !s.isCrown) then
    { s with lam := { s.lam with replies := s.lam.replies ++ [body] } }
  else s.lamEmit 3 0x0E0 (s.now .lam) body
    (if h.origin ≠ s.nodeNo ∧ nodeUnder s.nodeNo h.origin then .node h.origin else .up)

/-! ### Merged replies (R382) -/

/-- The node itself among the responders that a merge awaits; children are (is a die, port). -/
def ownResp : Bool × Nat := (false, 99)

/-- The merge of a packet, if the node forwarded it to a subtree. -/
def State.mergeOf (s : State) (origin issuer cmdId : Nat) : Option Merge :=
  s.lam.ctl.merges.find? fun m => m.hdr.origin == origin && m.hdr.issuer == issuer && m.hdr.cmdId == cmdId

/-- The merges without that of a header. -/
def State.dropMerge (s : State) (h : CmdHdr) : State :=
  { s with lam := { s.lam with ctl := { s.lam.ctl with
      merges := s.lam.ctl.merges.filter fun m => !(m.hdr.origin == h.origin && m.hdr.issuer == h.issuer && m.hdr.cmdId == h.cmdId) } } }

/-- The failing responder of the lower number, dies before nodes: (is a die, number, status). -/
def firstFail : Option (Bool × Nat × Nat) → Option (Bool × Nat × Nat) → Option (Bool × Nat × Nat)
  | none, b => b
  | a, none => a
  | some a, some b =>
    if a.1 = b.1 then (if b.2.1 < a.2.1 then some b else some a) else if a.1 then some a else some b

/-- The responder w is heard: its counts, its first failure, and the answer of a single responder. -/
def Merge.hear (m : Merge) (w : Bool × Nat) (nOk nFail : Nat) (ff : Option (Bool × Nat × Nat)) (result : Nat) (data : List Nat) : Merge :=
  { m with wait := m.wait.filter (· != w), nOk := m.nOk + nOk, nFail := m.nFail + nFail, first := firstFail m.first ff,
           result := result, data := data }

/-- The reply of a merge (R382). -/
def Merge.body (m : Merge) (epoch : Nat) : List Nat :=
  let st := match m.first with | some f => f.2.2 | none => St.ok
  replyBody m.hdr { status := st, result := m.result, data := if 1 < m.nOk + m.nFail then [] else m.data } (decide (1 < m.nOk + m.nFail))
    (satN 18 m.nOk) (satN 18 m.nFail) (match m.first with | some f => f.2.1 | none => 0) (match m.first with | some f => f.1 | none => false) epoch

/-- A merge put in place; its reply is sent once every responder has answered. -/
def State.putMerge (s : State) (m : Merge) : State :=
  let s := s.dropMerge m.hdr
  if m.wait = [] then s.replyRoute m.hdr (m.body (s.rl L.CFG_EPOCH))
  else { s with lam := { s.lam with ctl := { s.lam.ctl with merges := s.lam.ctl.merges ++ [m] } } }

/-- The Lamulo's reply for itself: into the merge of a packet that it forwarded, else alone. A refusal is counted (R401). -/
def State.lamReply (s : State) (h : CmdHdr) (r : CmdRes) : State :=
  let ok := stOk r.status
  let s := if ok then s else s.il L.CMD_CNT_REFUSED
  match s.mergeOf h.origin h.issuer h.cmdId with
  | some m =>
    if m.wait.contains ownResp then
      s.putMerge (m.hear ownResp (b2n ok) (b2n !ok) (if ok then none else some (false, s.nodeNo, r.status)) r.result r.data)
    else s
  | none =>
    if silent h r.status then s else
    s.replyRoute h (replyBody h r false (b2n ok) (b2n !ok) (if ok then 0 else s.nodeNo) false (s.rl L.CFG_EPOCH))

/-- A command executed by the ITU and answered. -/
def State.cmdItu (s : State) (h : CmdHdr) (op : State → State × CmdRes) : State := (op s).1.ituReply h (op s).2

/-- A command executed by the Lamulo and answered. -/
def State.cmdLam (s : State) (h : CmdHdr) (op : State → State × CmdRes) : State := (op s).1.lamReply h (op s).2

end Sys2Proof.Machine
end

