-- ==== Sys2Proof/Machine/Pd.lean ====
section
/-! DEFINITION. Lamulo power domains as other blocks see them (R450, R451). -/

namespace Sys2Proof.Machine

/-- Domains that PD_CTL asks for; a forest quarter also needs its bit of FST_CTL.QUARTERS (R451). -/
def State.pdTarget (s : State) : Nat :=
  s.rl L.PD_CTL &&& (s.rl L.FST_CTL_QUARTERS <<< 11 ||| 0xF87FF)

/-- Set PD_BUSY to the domains that are to switch; a switch that starts takes its time from now. -/
def State.pdRetarget (s : State) : State :=
  let b := s.pdTarget ^^^ s.rl L.PD_STAT
  let s := if s.rl L.PD_BUSY = 0 then { s with lam := { s.lam with pdFrom := s.now .lam } } else s
  s.wl L.PD_BUSY b

/-- A forest quarter is powered. -/
def State.quarterOn (s : State) (n : Nat) : Bool := s.pdOn (11 + n)

/-- Any forest quarter is powered. -/
def State.forestOn (s : State) : Bool := (List.range 4).any s.quarterOn

/-- Memory is usable: every channel in use has trained (R459). -/
def State.ddrOk (s : State) : Bool :=
  let n := if s.rl L.DDR_CFG_CHANNELS = 1 then 15 else 255
  s.rl L.DDR_STAT_TRAINED &&& n == n

/-- Bytes of memory installed: 64 GiB a channel in use (R459). -/
def State.ddrSize (s : State) : Nat := (if s.rl L.DDR_CFG_CHANNELS = 1 then 4 else 8) * 2 ^ 36

end Sys2Proof.Machine
end

