-- ==== Sys2Proof/Machine/Ddr.lean ====
section
/-! DEFINITION. Reads and writes of DDR by the engines (R459 to R461). -/

namespace Sys2Proof.Machine

/-- Channel that holds an address: 4 KiB units in ascending channel order (R459). -/
def State.ddrChan (s : State) (a : Nat) : Nat := a / 4096 % (if s.rl L.DDR_CFG_CHANNELS = 1 then 4 else 8)

/-- A poisoned line lies in n bytes from address a. -/
def State.poisoned (s : State) (a n : Nat) : Bool :=
  s.lam.poison.any fun l => decide (a / 64 ≤ l) && decide (64 * l < a + n)

/-- n bytes from address a. -/
def State.ddrBytes (s : State) (a n : Nat) : List Nat := s.lam.ddr.read ddrDefault a n

/-- n words from address a. -/
def State.ddrWords (s : State) (a n : Nat) : List Nat := bytesToWords (s.ddrBytes a (4 * n))

/-- Bytes stored from address a (R461): a poisoned line wholly covered is cleared and counted; one covered in part stays
poisoned, and the write is counted. -/
def State.ddrPut (s : State) (a : Nat) (bs : List Nat) : State :=
  let e := a + bs.length
  let whole := fun l => decide (a ≤ 64 * l) && decide (64 * l + 64 ≤ e)
  let cut := fun l => !whole l && decide (a < 64 * l + 64) && decide (64 * l < e)
  let p := s.lam.poison
  let s := (p.filter cut).foldl (fun s l => s.il L.DDR_CNT_RMW_UE 1 (s.ddrChan (64 * l))) s
  let s := s.il L.DDR_CNT_POISON_CLEARED (p.filter whole).length
  { s with lam := { s.lam with ddr := s.lam.ddr.write ddrDefault a bs, poison := p.filter fun l => !whole l } }

end Sys2Proof.Machine
end

