-- ==== Sys2Proof/Machine/Fp.lean ====
section
/-! DEFINITION. IEEE 754 values of the binary formats (00 "Pseudocode"): decoded exactly, computed exactly and
rounded once. -/

namespace Sys2Proof.Machine

/-- A decoded floating-point value: fin neg m e stands for (-1)^neg * m * 2^e. -/
inductive Fp where
  | nan
  | inf (neg : Bool)
  | fin (neg : Bool) (m : Nat) (e : Int)
deriving DecidableEq, Repr

/-- A binary format: width of exponent and of fraction. -/
structure Fmt where
  eb : Nat
  mb : Nat
deriving DecidableEq, Repr

/-- binary16, binary32, binary64. -/
def f16 : Fmt := ⟨5, 10⟩
def f32 : Fmt := ⟨8, 23⟩
def f64 : Fmt := ⟨11, 52⟩

/-- Exponent bias. -/
def Fmt.bias (f : Fmt) : Nat := 2 ^ (f.eb - 1) - 1

/-- Exponent of the last place of the smallest values. -/
def Fmt.umin (f : Fmt) : Int := 1 - (f.bias : Int) - f.mb

/-- The value that a code stands for. -/
def Fmt.dec (f : Fmt) (b : Nat) : Fp :=
  let neg := b.testBit (f.eb + f.mb)
  let ex := bits b f.mb f.eb
  let fr := bits b 0 f.mb
  if ex = 2 ^ f.eb - 1 then (if fr = 0 then .inf neg else .nan)
  else if ex = 0 then .fin neg fr f.umin
  else .fin neg (2 ^ f.mb + fr) (f.umin + (ex - 1 : Nat))

/-- Code of an infinity. -/
def Fmt.infBits (f : Fmt) : Nat := (2 ^ f.eb - 1) <<< f.mb

/-- The canonical NaN: quiet, payload zero, sign zero. -/
def Fmt.nanBits (f : Fmt) : Nat := f.infBits ||| 2 ^ (f.mb - 1)

/-- The sign bit. -/
def Fmt.signBit (f : Fmt) (neg : Bool) : Nat := b2n neg <<< (f.eb + f.mb)

/-- a * 2^e as a fraction of naturals. -/
def scaleFrac (num den : Nat) (e : Int) : Nat × Nat :=
  if 0 ≤ e then (num * 2 ^ e.toNat, den) else (num, den * 2 ^ (-e).toNat)

/-- floor(log2(num / den)) for positive num and den. -/
def fracLog2 (num den : Nat) : Int :=
  let d : Int := (Nat.log2 num : Int) - Nat.log2 den
  let s := scaleFrac num den (-d)
  if s.1 < s.2 then d - 1 else d

/-- The magnitude num / den * 2^e as a code, rounded to nearest even, or up with up. -/
def Fmt.roundMag (f : Fmt) (up : Bool) (num den : Nat) (e : Int) : Nat :=
  if num = 0 ∨ den = 0 then 0 else
  let lg := fracLog2 num den + e
  let u := max (lg - f.mb) f.umin
  let s := scaleFrac num den (e - u)
  let q := s.1 / s.2
  let r := s.1 % s.2
  let q' := if up then (if r = 0 then q else q + 1)
            else if 2 * r < s.2 then q
            else if s.2 < 2 * r then q + 1
            else q + q % 2
  min (((u - f.umin).toNat <<< f.mb) + q') f.infBits

/-- A signed fraction num / den * 2^e rounded to nearest even. -/
def Fmt.round (f : Fmt) (neg : Bool) (num den : Nat) (e : Int) : Nat :=
  f.signBit neg ||| f.roundMag false num den e

/-- A value rounded into a format; a NaN becomes the canonical NaN. -/
def Fmt.enc (f : Fmt) : Fp → Nat
  | .nan => f.nanBits
  | .inf neg => f.signBit neg ||| f.infBits
  | .fin neg m e => f.round neg m 1 e

/-- The signed integer significand of a finite value brought to exponent e0, e0 not above e. -/
def signedAt (neg : Bool) (m : Nat) (e e0 : Int) : Int :=
  let v : Int := (m * 2 ^ (e - e0).toNat : Nat)
  if neg then -v else v

/-- Exact sum. Two zeros of unlike sign, and a sum that cancels, give +0 (round to nearest). -/
def Fp.add : Fp → Fp → Fp
  | .nan, _ => .nan
  | _, .nan => .nan
  | .inf a, .inf b => if a = b then .inf a else .nan
  | .inf a, .fin .. => .inf a
  | .fin .., .inf b => .inf b
  | .fin a m e, .fin b n k =>
    let e0 := min e k
    let z := signedAt a m e e0 + signedAt b n k e0
    if z = 0 then .fin (a && b) 0 e0 else .fin (decide (z < 0)) z.natAbs e0

/-- The value with its sign changed. -/
def Fp.neg : Fp → Fp
  | .nan => .nan
  | .inf a => .inf !a
  | .fin a m e => .fin (!a) m e

/-- Exact product. -/
def Fp.mul : Fp → Fp → Fp
  | .nan, _ => .nan
  | _, .nan => .nan
  | .inf a, .inf b => .inf (a != b)
  | .inf a, .fin b n _ => if n = 0 then .nan else .inf (a != b)
  | .fin a m _, .inf b => if m = 0 then .nan else .inf (a != b)
  | .fin a m e, .fin b n k => .fin (a != b) (m * n) (e + k)

/-- Sum of two codes, rounded once. -/
def Fmt.add (f : Fmt) (a b : Nat) : Nat := f.enc ((f.dec a).add (f.dec b))

/-- Difference of two codes. -/
def Fmt.sub (f : Fmt) (a b : Nat) : Nat := f.enc ((f.dec a).add (f.dec b).neg)

/-- Product of two codes. -/
def Fmt.mul (f : Fmt) (a b : Nat) : Nat := f.enc ((f.dec a).mul (f.dec b))

/-- Quotient of two codes, rounded once. -/
def Fmt.div (f : Fmt) (a b : Nat) : Nat :=
  match f.dec a, f.dec b with
  | .nan, _ => f.nanBits
  | _, .nan => f.nanBits
  | .inf _, .inf _ => f.nanBits
  | .inf x, .fin y _ _ => f.signBit (x != y) ||| f.infBits
  | .fin x _ _, .inf y => f.signBit (x != y)
  | .fin x m e, .fin y n k =>
    if n = 0 then (if m = 0 then f.nanBits else f.signBit (x != y) ||| f.infBits)
    else f.round (x != y) m n (e - k)

/-- a < b as reals; false with a NaN. -/
def Fp.lt : Fp → Fp → Bool
  | .nan, _ => false
  | _, .nan => false
  | .inf a, .inf b => a && !b
  | .inf a, .fin .. => a
  | .fin .., .inf b => !b
  | .fin a m e, .fin b n k =>
    let e0 := min e k
    decide (signedAt a m e e0 < signedAt b n k e0)

/-- a <= b as reals; false with a NaN. -/
def Fp.le (a b : Fp) : Bool :=
  match a, b with
  | .nan, _ => false
  | _, .nan => false
  | a, b => !(b.lt a)

/-- Sign of a value. -/
def Fp.isNeg : Fp → Bool
  | .nan => false
  | .inf a => a
  | .fin a _ _ => a

/-- The value is a NaN. -/
def Fp.isNan : Fp → Bool
  | .nan => true
  | _ => false

/-- The value is finite. -/
def Fp.isFin : Fp → Bool
  | .fin .. => true
  | _ => false

/-- a precedes b in the order with -0 below +0 (minimumNumber). -/
def Fp.before (a b : Fp) : Bool := a.lt b || (!(b.lt a) && a.isNeg && !b.isNeg)

/-- minimumNumber of two codes: a NaN is ignored; two give the canonical NaN. -/
def Fmt.minNum (f : Fmt) (a b : Nat) : Nat :=
  match f.dec a, f.dec b with
  | .nan, .nan => f.nanBits
  | .nan, _ => b
  | _, .nan => a
  | x, y => if y.before x then b else a

/-- maximumNumber of two codes. -/
def Fmt.maxNum (f : Fmt) (a b : Nat) : Nat :=
  match f.dec a, f.dec b with
  | .nan, .nan => f.nanBits
  | .nan, _ => b
  | _, .nan => a
  | x, y => if x.before y then b else a

/-- Comparisons of codes. -/
def Fmt.lt (f : Fmt) (a b : Nat) : Bool := (f.dec a).lt (f.dec b)
def Fmt.le (f : Fmt) (a b : Nat) : Bool := (f.dec a).le (f.dec b)

/-- An integer rounded into a format. -/
def Fmt.ofInt (f : Fmt) (z : Int) : Nat := f.round (decide (z < 0)) z.natAbs 1 0

/-- The magnitude of a code. -/
def Fmt.abs (f : Fmt) (a : Nat) : Nat := a % 2 ^ (f.eb + f.mb)

/-- The code with its sign changed. -/
def Fmt.neg (f : Fmt) (a : Nat) : Nat := a ^^^ f.signBit true

/-- A code of one format rounded into another. -/
def Fmt.conv (f g : Fmt) (a : Nat) : Nat := g.enc (f.dec a)

/-- The integer nearest zero's side of a code, within s64; NaN gives 0 (R407 FTOI). -/
def Fmt.toInt64 (f : Fmt) (a : Nat) : Int :=
  match f.dec a with
  | .nan => 0
  | .inf neg => if neg then -(2 ^ 63) else 2 ^ 63 - 1
  | .fin neg m e =>
    let s := scaleFrac m 1 e
    let q : Int := (s.1 / s.2 : Nat)
    clampZ (if neg then -q else q) (-(2 ^ 63)) (2 ^ 63 - 1)

/-- fp32_rne of a quotient of naturals (R112). -/
def fp32Quot (num den : Nat) : Nat := f32.round false num den 0

end Sys2Proof.Machine
end

