-- ==== Sys2Proof/Machine/Tracker.lean ====
section
/-! DEFINITION. Stream trackers of the Lamulo (R110 to R117). -/

namespace Sys2Proof.Machine

/-- Word i of a 64-bit value's pair. -/
def lo32 (v : Nat) : Nat := v % 2 ^ 32
def hi32 (v : Nat) : Nat := v / 2 ^ 32 % 2 ^ 32

/-- BIND as one 64-bit value (R112). -/
def Bind.word (b : Bind) : Nat := b.rank % 2 ^ 15 ||| b.job % 64 <<< 15 ||| b.cohort % 128 <<< 21 ||| b2n b.bound <<< 28

/-- BIND from its 64-bit value. -/
def Bind.ofWord (v : Nat) : Bind := ⟨bits v 0 15, bits v 15 6, bits v 21 7, bitAt v 28⟩

/-- KEY as one 64-bit value. -/
def Tracker.key (t : Tracker) : Nat :=
  t.die % 2 ^ 17 ||| t.counter % 4096 <<< 17 ||| b2n t.valid <<< 29 ||| b2n t.isVirtual <<< 30 ||| t.gen % 256 <<< 31 |||
    t.epoch % 65536 <<< 39

/-- The 32 words of the head (offsets 0x000 to 0x07F). -/
def Tracker.headWords (t : Tracker) : List Nat :=
  let b := t.bind.word
  [lo32 t.key, hi32 t.key, lo32 t.lastVal, hi32 t.lastVal, lo32 t.lastTime, hi32 t.lastTime, t.lastCyc % 2 ^ 32,
   t.warm % 65536 ||| t.head % 32 <<< 16 ||| b2n t.discont <<< 21 ||| b2n t.nocyc <<< 22, t.rate, t.frac, lo32 t.total,
   hi32 t.total, lo32 t.totalNs, hi32 t.totalNs, lo32 b, hi32 b] ++ t.detect.take 16

/-- The 96 words of tracker state. -/
def Tracker.words (t : Tracker) : List Nat := t.headWords ++ t.ring.flatMap fun p => [p.1, p.2]

/-- Tracker state from its 96 words. -/
def Tracker.ofWords (w : List Nat) : Tracker :=
  let u64 := fun i => nth w i + nth w (i + 1) * 2 ^ 32
  let key := u64 0
  { die := bits key 0 17, counter := bits key 17 12, valid := bitAt key 29, isVirtual := bitAt key 30,
    gen := bits key 31 8, epoch := bits key 39 16, lastVal := u64 2 % 2 ^ 48, lastTime := u64 4, lastCyc := nth w 6,
    warm := bits (nth w 7) 0 16, head := bits (nth w 7) 16 5, discont := bitAt (nth w 7) 21, nocyc := bitAt (nth w 7) 22,
    rate := nth w 8, frac := nth w 9, total := u64 10, totalNs := u64 12, bind := Bind.ofWord (u64 14),
    detect := (w.drop 16).take 16,
    ring := (List.range 32).map fun i => (nth w (32 + 2 * i), nth w (33 + 2 * i)) }

/-- ring_put of R112. -/
def Tracker.put (t : Tracker) (dv dt : Nat) : Tracker :=
  { t with ring := setNth (0, 0) t.ring t.head (dv, dt), head := (t.head + 1) % 32 }

/-- restart of R112; it clears the detector area (R240). -/
def Tracker.restart (t : Tracker) (full cyc v : Nat) : Tracker :=
  { t with lastVal := v, lastTime := full, lastCyc := cyc, warm := 0, discont := true, total := 0, totalNs := 0,
           detect := List.replicate 16 0 }.put 0 0

/-- What an update did (R112). -/
inductive TrkRes where
  | invalid
  | restarted
  | old
  /-- an accepted interval, with its dv -/
  | interval (dv : Nat)
deriving DecidableEq, Repr

/-- The last lines of R112: a change of binding clears the detector area. -/
def Tracker.rebind (t : Tracker) (i : TrkIn) : Tracker :=
  let t := if i.bind = t.bind then t else
    { t with bind := i.bind, detect := List.replicate 16 0, warm := 0, discont := true }
  { t with gen := i.gen, epoch := i.epoch }

/-- An accepted interval of dv counts, dt ns, dc cycles (R112). -/
def Tracker.advance (t : Tracker) (i : TrkIn) (dv dt dc : Nat) : Tracker :=
  { t with rate := fp32Quot (dv * 1000000000) dt, frac := if 0 < dc then fp32Quot dv dc else t.frac,
           nocyc := decide (dc = 0), total := (t.total + dv) % 2 ^ 64, totalNs := (t.totalNs + dt) % 2 ^ 64,
           warm := min (t.warm + 1) 65535, discont := false, lastVal := i.x % 2 ^ 48, lastTime := i.full,
           lastCyc := i.cyc }.put (min dv 0xFFFFFFFF) dt

/-- Assigned and not yet updated: the first record restarts the tracker (R117). -/
def Tracker.unused (t : Tracker) : Bool := t.warm == 0 && !t.discont

/-- A tracker update (R112). -/
def Tracker.update (t : Tracker) (i : TrkIn) : Tracker × TrkRes :=
  let v := i.x % 2 ^ 48
  if bitAt i.x 49 then (t, .invalid)
  else if t.valid = false ∨ t.unused ∨ bitAt i.x 48 ∨ i.gen ≠ t.gen then ((t.restart i.full i.cyc v).rebind i, .restarted)
  else
    let d := toS 64 (ofS 64 ((i.full : Int) - t.lastTime))
    if d ≤ 0 then (t, .old)
    else if 2000000000 < d then ((t.restart i.full i.cyc v).rebind i, .restarted)
    else
      let dv := ofS 48 ((v : Int) - t.lastVal)
      let dc := ofS 32 ((i.cyc : Int) - t.lastCyc)
      ((t.advance i dv d.toNat dc).rebind i, .interval dv)

/-- Hardware tracker i. -/
def State.trkAt (s : State) (i : Nat) : Tracker := Sparse.get {} s.lam.trk i

/-- Hardware tracker i replaced. -/
def State.setTrk (s : State) (i : Nat) (t : Tracker) : State :=
  { s with lam := { s.lam with trk := Sparse.set {} s.lam.trk i t } }

/-- The counters of an update's outcome (R116). -/
def State.trkCount (s : State) (r : TrkRes) : State :=
  match r with
  | .invalid => s
  | .restarted => (s.il L.TRK_CNT_UPD).il L.TRK_CNT_DISCONT
  | .old => s.il L.TRK_CNT_OLD
  | .interval _ => s.il L.TRK_CNT_UPD

/-- A hardware tracker updated. Under the default mapping an unassigned tracker takes the stream's KEY
(log entry 17). -/
def State.trkApply (s : State) (i : Nat) (inp : TrkIn) : State × TrkRes :=
  let u := (s.trkAt i).update inp
  let t := if u.1.valid || u.2 == .invalid then u.1 else
    { u.1 with die := inp.die, counter := inp.counter, valid := true }
  ((s.setTrk i t).trkCount u.2, u.2)

/-- The hardware trackers of a stream that arrives on port q (R110). -/
def State.trkOf (s : State) (q : Option Nat) (die counter : Nat) : List Nat :=
  match q with
  | some p =>
    if s.rl L.TRK_CTL_MAP_DEFAULT = 1 ∧ s.role = 0 then [p * 4096 + counter] else
    (s.lam.trk.filter fun e => e.2.valid && e.2.die == die && e.2.counter == counter).map Prod.fst
  | none => (s.lam.trk.filter fun e => e.2.valid && e.2.die == die && e.2.counter == counter).map Prod.fst

/-! ### Virtual trackers -/

/-- DDR byte address of virtual tracker j (R113). -/
def State.virtAddr (s : State) (j : Nat) : Nat :=
  s.rl L.TRK_VIRT_BASE_HI * 2 ^ 32 + s.rl L.TRK_VIRT_BASE_LO + 384 * j

/-- Virtual tracker j as DDR holds it. -/
def State.virtAt (s : State) (j : Nat) : Tracker := Tracker.ofWords (s.ddrWords (s.virtAddr j) 96)

/-- Write back the head and the one line of RING that the new entry falls in (R113). -/
def State.virtPut (s : State) (j old : Nat) (t : Tracker) : State :=
  let a := s.virtAddr j
  let line := old / 8
  let ring := ((t.ring.drop (8 * line)).take 8).flatMap fun p => [p.1, p.2]
  (s.ddrPut a (wordsToBytes t.headWords)).ddrPut (a + 128 + 64 * line) (wordsToBytes ring)

/-- A virtual update applied (R113, R114). A poisoned head restarts the tracker and is written back whole. -/
def State.virtApply (s : State) (u : VirtUpd) (poison : Bool) : State :=
  if poison then
    let t : Tracker := { die := u.inp.die, counter := u.inp.counter, valid := true, isVirtual := true }
    let t := (t.restart u.inp.full u.inp.cyc (u.inp.x % 2 ^ 48)).rebind u.inp
    (((s.ddrPut (s.virtAddr u.j) (wordsToBytes t.words)).il L.TRK_CNT_POISON).wl L.TRK_STAT_POISON 1).trkCount .restarted
  else
    let t := s.virtAt u.j
    let r := t.update u.inp
    let s := s.trkCount r.2
    if r.2 = .invalid ∨ r.2 = .old then s else s.virtPut u.j t.head r.1

/-- VIRTUAL_HEAD_ARRIVAL (R114): the head of virtual tracker j is back from DDR; its oldest update is applied. -/
def execVirtualHeadArrival (j : Nat) (poison : Bool) (s : State) : Out :=
  match s.lam.virtQ.find? (fun u => u.j == j) with
  | some u =>
    let s := { s with lam := { s.lam with virtQ := s.lam.virtQ.erase u } }
    let s := if u.slotEnd < s.now .lam then (s.il L.TRK_CNT_VIRT_LATE).wl L.TRK_STAT_VIRT_BEHIND 1 else s
    .next (s.virtApply u (poison || s.lam.poison.contains (s.virtAddr j / 64)))
  | none => .next s

/-- End of the slot in which time t falls, in the Lamulo's chain. -/
def State.slotEnd (s : State) (t : Nat) : Nat :=
  match s.lam.mains.cur with
  | some a => ((List.range 65).map a.slotAt).foldr (fun b e => if t < b then b else e) t
  | none => t

/-- Virtual trackers that an entry of latch n updates (R113). -/
def State.virtOf (s : State) (die counter n : Nat) : List Nat :=
  if s.rl L.TRK_CTL_VIRT_EN = 0 then [] else
  (s.lam.virt.filter fun v => decide (v.1 < s.rl L.TRK_VIRT_COUNT) && v.2.1 == die && v.2.2 == counter &&
    v.1 % 16 == n % 16).map Prod.fst

/-- An entry queued for the virtual trackers of its stream. -/
def State.virtQueue (s : State) (inp : TrkIn) (n : Nat) : State :=
  let now := s.now .lam
  (s.virtOf inp.die inp.counter n).foldl (fun s j =>
    { s with lam := { s.lam with virtQ := s.lam.virtQ ++ [⟨j, inp, s.slotEnd now⟩] } }) s

/-! ### Access and assignment -/

/-- The index names a tracker in use (R115). -/
def State.trkInUse (s : State) (i : Nat) : Bool :=
  decide (i < 65536) || (s.rl L.TRK_CTL_VIRT_EN == 1 && decide (i < 65536 + s.rl L.TRK_VIRT_COUNT))

/-- A copy into TRK_SNAP_DATA (R115). -/
def State.trkSnapCopy (s : State) (i : Nat) : State :=
  let ok := s.trkInUse i
  let ws := if !ok then List.replicate 96 0 else if i < 65536 then (s.trkAt i).words else (s.virtAt (i - 65536)).words
  ({ s with lam := { s.lam with trkSnap := ws } }.wl L.TRK_SNAP_STAT_DONE 1).wl L.TRK_SNAP_STAT_BAD_IDX (b2n (!ok))

/-- TRK_SNAP_CMD_WRITE (R115). -/
def execTrkSnapCmdWrite (iss : Issuer) (idx : Nat) (s : State) : Out :=
  let g := s.lamGuard iss L.TRK_SNAP_CMD.addr true 0
  if g.2 then .next (g.1.trkSnapCopy (idx % 2 ^ 21)) else .next g.1

/-- TRK_ASSIGN (R117): KEY with VALID = 1 and the rest cleared; or the tracker is freed. -/
def State.opTrkAssign (s : State) (i die counter : Nat) (free : Bool) : State × CmdRes :=
  if !s.trkInUse i then (s, { status := St.badParam })
  else if i < 65536 then
    let t : Tracker := if free then { s.trkAt i with valid := false } else { die := die, counter := counter, valid := true }
    (s.setTrk i t, {})
  else
    let j := i - 65536
    let t : Tracker := if free then { s.virtAt j with valid := false } else
      { die := die, counter := counter, valid := true, isVirtual := true }
    let v := s.lam.virt.filter fun e => e.1 != j
    let s := s.ddrPut (s.virtAddr j) (wordsToBytes t.words)
    ({ s with lam := { s.lam with virt := if free then v else v ++ [(j, die, counter)] } }, {})

/-- TRK_ASSIGN (R117, opcode 0x22). -/
def execTrkAssign (h : CmdHdr) (tracker die counter : Nat) (free : Bool) (s : State) : Out :=
  .next (s.cmdLam { h with opcode := 0x22 } fun s => s.opTrkAssign (tracker % 2 ^ 21) (die % 2 ^ 17) (counter % 4096) free)

end Sys2Proof.Machine
end

