-- ==== Sys2Proof/Machine/Visor.lean ====
section
/-! DEFINITION. Visor snapshots (R118 to R125) and scratchpad row samples (R126 to R129) of the ITU. -/

namespace Sys2Proof.Machine

/-- The Visor replaced. -/
def State.setVis (s : State) (v : Visor) : State := { s with itu := { s.itu with vis := v } }

/-- The row sampler replaced. -/
def State.setRow (s : State) (v : RowSmp) : State := { s with itu := { s.itu with row := v } }

/-! ### Snapshots -/

/-- A snapshot trigger is refused (R118). -/
def State.visRefused (s : State) (p : Nat) : Bool :=
  s.ri I.ITU_FN_EN_VISOR == 0 || s.ri I.VIS_STAT_STATE != 0 || decide (s.itu.par.partitions ≤ p)

/-- A trigger (R118, R119): refused, or the scan of partition p begins. Answers whether it was accepted. -/
def State.visTrigger (s : State) (p cause : Nat) (hold emit : Bool) : State × Bool :=
  if s.visRefused p then ((s.wi I.VIS_STAT_BUSY_REFUSED 1).ii I.VIS_CNT_REFUSED, false) else
  let id := (s.ri I.VIS_SNAP_ID + 1) % 65536
  let s := ((s.wi I.VIS_SNAP_ID id).wi I.VIS_STAT_STATE 1).wi I.VIS_STAT_PART p
  let s := (s.wi I.VIS_STORED 0).wi I.VIS_RECEIVED 0
  let s := s.setVis { part := p, gen := s.ri I.PART_STAT_GEN p, cause := cause, at0 := s.now .itu,
                      mc := s.mc32 .itu, snapId := id, valid := true, hold := hold, emit := emit }
  (s.setPins { s.itu.pins with qscan := some p }, true)

/-- A record of the snapshot: trigger time, partition and generation of the trigger (R122). -/
def State.visRec (s : State) (cls typ : Nat) (body : List Nat) : Rec :=
  let v := s.itu.vis
  { cls := cls, typ := typ, len := 1 + ceilDiv body.length 4, die := s.ri I.ITU_DIE_ID_ID, part := v.part,
    gen := v.gen, short := short v.at0, body := body }

/-- The four words of a 128-bit descriptor. -/
def descWords (d : Nat) : List Nat := [d % 2 ^ 32, d / 2 ^ 32 % 2 ^ 32, d / 2 ^ 64 % 2 ^ 32, d / 2 ^ 96 % 2 ^ 32]

/-- VISOR_DESC record number k of the snapshot (R122). -/
def State.visDesc (s : State) (k : Nat) : Rec :=
  let v := s.itu.vis
  let ds := (v.descs.drop (253 * k)).take 253
  s.visRec 2 0x021 ([v.snapId ||| (253 * k) <<< 16, ds.length ||| k <<< 8, v.mc, 0] ++ ds.flatMap descWords)

/-- The scan closes (R119, R122): qscan_req falls, RESULT is set and the records wait for admission. -/
def State.visClose (s : State) (result : Nat) : State :=
  let v := s.itu.vis
  let freeze := satN 32 (s.now .itu - v.at0)
  let n := if v.emit ∧ result ≠ 3 then ceilDiv v.descs.length 253 else 0
  let sum := s.visRec 0 0x020 [v.snapId ||| result <<< 16 ||| v.cause <<< 18, v.descs.length, v.received, freeze, v.mc,
    n, 0, 0]
  let s := s.setVis { v with result := result, todo := sum :: (List.range n).map s.visDesc }
  let s := s.setPins { s.itu.pins with qscan := none }
  ((s.wi I.VIS_STAT_STATE 2).wi I.VIS_STAT_RESULT result).wi I.VIS_FREEZE_NS freeze

/-- VIS_CTL_TRIG (R118). -/
def execVisCtlTrig (iss : Issuer) (part : Nat) (s : State) : Out :=
  let g := s.ituGuard iss I.VIS_CTL_TRIG.addr true 0
  if g.2 then
    let s := g.1.wi I.VIS_CTL_PART part
    .next (s.visTrigger (part % 16) 0 (s.ri I.VIS_CTL_HOLD == 1) (s.ri I.VIS_CTL_EMIT == 1)).1
  else .next g.1

/-- VISOR_SNAP (R118): the result where the trigger is refused names the cause (log entry 18). -/
def State.opVisorSnap (s : State) (p : Nat) (hold emit : Bool) : State × CmdRes :=
  if !s.ipdOn 1 then (s, { status := St.domainOff }) else
  let bad := s.ri I.ITU_FN_EN_VISOR = 0 ∨ s.itu.par.partitions ≤ p
  let t := s.visTrigger p 1 hold emit
  (t.1, { status := if t.2 then St.ok else if bad then St.badParam else St.busy })

/-- VISOR_SNAP (R118, opcode 0x23). -/
def execVisorSnap (h : CmdHdr) (p : Nat) (hold emit : Bool) (s : State) : Out :=
  .next (s.cmdItu { h with opcode := 0x23 } fun s => s.opVisorSnap (p % 16) hold emit)

/-- A descriptor received while qscan_req is high (R119 to R121). -/
def State.visStore (s : State) (desc : Nat) : State :=
  let v := s.itu.vis
  if bits desc 24 4 ≠ v.part then s.ii I.VIS_CNT_FOREIGN else
  let v' := { v with received := satN 32 (v.received + 1),
                     descs := if v.descs.length < s.itu.par.visorDesc then v.descs ++ [desc % 2 ^ 128] else v.descs }
  ((s.setVis v').wi I.VIS_RECEIVED v'.received).wi I.VIS_STORED v'.descs.length

/-- QSCAN_DESCRIPTOR (R119 to R121). -/
def execQscanDescriptor (desc : Nat) (last : Bool) (s : State) : Out :=
  match s.itu.pins.qscan with
  | none => .next s
  | some _ =>
    let s := s.visStore desc
    if last then .next (s.visClose (if s.itu.par.visorDesc < s.itu.vis.received then 2 else 0)) else .next s

/-- QSCAN_TIMEOUT (R119, R91 H7): 64 us without qscan_last. -/
def execQscanTimeout (s : State) : Out :=
  match s.itu.pins.qscan with
  | none => .next s
  | some _ =>
    if 64000 ≤ s.now .itu - s.itu.vis.at0 then
      .next (((s.visClose 1).wi I.ITU_FAULT_QSCAN_PARTIAL 1).ii I.ITU_CNT_QSCAN_PARTIAL)
    else .next s

/-- The snapshot leaves the store (R123). -/
def State.visRelease (s : State) : State := (s.wi I.VIS_STAT_STATE 0).setVis {}

/-- After a record left the store (R123). -/
def State.visAfter (s : State) : State :=
  let v := s.itu.vis
  if s.ri I.VIS_STAT_STATE = 2 ∧ v.todo = [] then
    if v.hold || !v.emit then s.wi I.VIS_STAT_STATE 3 else s.visRelease
  else s

/-- A record is too old to be sent (R47). -/
def State.isStale (s : State) (r : Rec) : Bool := decide (1000000000 < sdiff32 (short (s.now .itu)) r.short)

/-- A record of a store may go to its send queue: no fence, room, credit (R123, R148). -/
def State.storeReady (s : State) (r : Rec) : Bool :=
  s.ri I.PART_STAT_CUFF r.part == 0 && decide (recBytes (s.itu.txq.q r.cls) + r.size ≤ sendCap r.cls) &&
    (decide (3 ≤ r.cls) || ((s.itu.txq.bkt.getD r.cls Bucket.none).refill (s.now .itu)).has r.size)

/-- A record of a store admitted and queued. -/
def State.storeSend (s : State) (r : Rec) : State := (s.ituAdmit r.cls r.size).1.ituQueue r

/-- The next Visor record leaves, waits or is discarded (R123). Answers whether something happened. -/
def State.visEmit (s : State) : State × Bool :=
  match s.itu.vis.todo with
  | [] => (s, false)
  | r :: rest =>
    if s.isStale r then (((s.setVis { s.itu.vis with todo := rest }).ii I.VIS_CNT_DISCARD).visAfter, true)
    else if s.storeReady r then (((s.storeSend r).setVis { s.itu.vis with todo := rest }).visAfter, true)
    else (s, false)

/-- The next row record leaves, waits or is discarded (R128). -/
def State.rowEmit (s : State) : State :=
  match s.itu.row.todo with
  | [] => s
  | r :: rest =>
    if s.isStale r then (s.setRow { s.itu.row with todo := rest }).ii I.ROW_CNT_DISCARD
    else if s.storeReady r then (s.storeSend r).setRow { s.itu.row with todo := rest }
    else s

/-- VISOR_RECORD_EMIT (R122, R123, R128): the next record of the snapshot store, else of the row buffer, is offered
to admission. -/
def execVisorRecordEmit (s : State) : Out :=
  let v := s.visEmit
  if v.2 then .next v.1 else .next s.rowEmit

/-- VIS_CTL.RELEASE (R123): a held snapshot is released. -/
def State.visCtlRelease (s : State) : State := if s.ri I.VIS_STAT_STATE = 3 then s.visRelease else s

/-- VIS_CTL_RELEASE (R123). -/
def execVisCtlRelease (iss : Issuer) (s : State) : Out :=
  let g := s.ituGuard iss I.VIS_CTL_RELEASE.addr true 0
  if g.2 then .next g.1.visCtlRelease else .next g.1

/-- The words of descriptor VIS_RD_IDX as an issuer may read them (R125). -/
def State.visWords (s : State) (iss : Issuer) : List Nat :=
  let v := s.itu.vis
  if v.valid && (iss.auth != .partition || iss.part == v.part) then
    descWords (v.descs.getD (s.ri I.VIS_RD_IDX) 0)
  else [0, 0, 0, 0]

/-- A read of VIS_RD_DATA0 latches the other three words (R125). -/
def State.readVis0 (s : State) (iss : Issuer) : Nat × State :=
  let w := s.visWords iss
  (nth w 0, s.setLatch iss.path I.VIS_RD_DATA0.addr
    [(I.VIS_RD_DATA1.addr, nth w 1), (I.VIS_RD_DATA2.addr, nth w 2), (I.VIS_RD_DATA3.addr, nth w 3)] (s.now .itu))

/-- VIS_RD_DATA0_READ (R125). -/
def execVisRdData0Read (iss : Issuer) (s : State) : Out :=
  let g := s.ituGuard iss I.VIS_RD_DATA0.addr false 0
  if g.2 then
    let r := g.1.readVis0 iss
    .next { r.2 with rdata := [r.1] }
  else .next { g.1 with rdata := [0] }

/-! ### Rows -/

/-- n of R126. -/
def rowCount (idxW first count stride : Nat) : Nat :=
  if stride = 0 then min count 1 else min count ((2 ^ idxW - 1 - first) / stride + 1)

/-- A trigger of R126 is refused, the sample in progress apart. -/
def State.rowRefused (s : State) (first count : Nat) : Bool :=
  s.ri I.ITU_FN_EN_ROWS == 0 || decide (2 ^ s.itu.par.rowIdxW ≤ first) || count == 0

/-- A sample begins (R126). -/
def State.rowStart (s : State) (p cause first count stride : Nat) : State :=
  let n := rowCount s.itu.par.rowIdxW first count stride
  let id := (s.ri I.ROW_SAMPLE_ID + 1) % 65536
  let s := ((s.wi I.ROW_STAT_BUSY 1).wi I.ROW_DONE 0).wi I.ROW_SAMPLE_ID id
  let s := if n < count then s.wi I.ROW_STAT_TRUNC 1 else s
  s.setRow { busy := true, part := p, cause := cause, first := first, n := n, stride := stride, sampleId := id,
             todo := s.itu.row.todo }

/-- A refused trigger (R126). -/
def State.rowRefuse (s : State) : State := (s.ii I.ROW_CNT_REFUSED).wi I.ROW_STAT_REFUSED 1

/-- A register or command trigger (R126). Answers whether it was accepted. -/
def State.rowTrigger (s : State) (p cause first count stride : Nat) : State × Bool :=
  if s.rowRefused first count || s.itu.row.busy then (s.rowRefuse, false)
  else (s.rowStart p cause first count stride, true)

/-- ROW_CTL_TRIG (R126). -/
def execRowCtlTrig (iss : Issuer) (part : Nat) (s : State) : Out :=
  let g := s.ituGuard iss I.ROW_CTL_TRIG.addr true 0
  if g.2 then
    let s := g.1.wi I.ROW_CTL_PART part
    .next (s.rowTrigger (part % 16) 0 (s.ri I.ROW_FIRST) (s.ri I.ROW_COUNT) (s.ri I.ROW_STRIDE)).1
  else .next g.1

/-- ROW_SAMPLE (R126): a refusal by a running sample is BUSY, any other BAD_PARAM (log entry 18). -/
def State.opRowSample (s : State) (p first count stride : Nat) : State × CmdRes :=
  if !s.ipdOn 1 then (s, { status := St.domainOff }) else
  if stride = 0 ∨ 1024 < count then (s.rowRefuse, { status := St.badParam }) else
  let bad := s.rowRefused first count
  let t := s.rowTrigger p 1 first count stride
  (t.1, { status := if t.2 then St.ok else if bad then St.badParam else St.busy })

/-- ROW_SAMPLE (R126, opcode 0x24). -/
def execRowSample (h : CmdHdr) (p first count stride : Nat) (s : State) : Out :=
  .next (s.cmdItu { h with opcode := 0x24 } fun s => s.opRowSample (p % 16) first count stride)

/-- The reset sequence's sample of partition p (R126), whatever sample is in progress (R129). -/
def State.rowReset (s : State) (p : Nat) : State :=
  let first := s.ri I.ROW_RST_FIRST
  let count := s.ri I.ROW_RST_COUNT
  if s.rowRefused first count then s.rowRefuse
  else if s.itu.row.busy then
    let r := s.itu.row
    if r.part = p then
      if r.out.isNone then (s.wi I.ROW_STAT_CUT 1).rowStart p 2 first count (s.ri I.ROW_RST_STRIDE)
      else (s.wi I.ROW_STAT_CUT 1).setRow { r with cutting := true, after := some p }
    else s.setRow { r with after := some p }
  else s.rowStart p 2 first count (s.ri I.ROW_RST_STRIDE)

/-- ROW_REQUEST_ISSUE (R127): the next row is requested while the buffer of 16 rows has room. -/
def execRowRequestIssue (s : State) : Out :=
  let r := s.itu.row
  if r.busy ∧ r.out = none ∧ r.next < r.n ∧ r.cutting = false ∧ r.todo.length < 16 ∧ s.ri I.ITU_FN_EN_ROWS = 1 ∧
      s.ri I.PART_STAT_CUFF r.part = 0 then
    .next (s.setRow { r with next := r.next + 1, out := some (r.first + r.next * r.stride, s.now .itu,
      s.ri I.PART_STAT_GEN r.part, s.itu.pins.qscan == some r.part, s.mc32 .itu) })
  else .next s

/-- The sample ends, or the row ends and the sample goes on (R129). -/
def State.rowEnd (s : State) : State :=
  let r := s.itu.row
  if r.cutting || decide (r.n ≤ r.next) then
    let s := (s.wi I.ROW_STAT_BUSY 0).setRow { r with busy := false, out := none, after := none }
    match r.after with
    | some p => s.rowReset p
    | none => s
  else s.setRow { r with out := none }

/-- A row's record (R128): data beats, or zeros where it is MISSING or ERR. -/
def State.rowMake (s : State) (missing err : Bool) (data : List Nat) : State :=
  let r := s.itu.row
  match r.out with
  | none => s
  | some (idx, at0, gen, frozen, mc) =>
    let ds := if missing || err then List.replicate 128 0 else (data ++ List.replicate 128 0).take 128
    let body := [idx % 2 ^ 24 ||| b2n missing <<< 24 ||| b2n err <<< 25 ||| b2n frozen <<< 26 ||| r.cause <<< 27,
      r.sampleId ||| (r.next - 1) <<< 16, mc, r.n] ++ ds
    let rc : Rec := { cls := 2, typ := 0x030, len := 34, die := s.ri I.ITU_DIE_ID_ID, part := r.part, gen := gen,
                      short := short at0, body := body }
    ((s.ii I.ROW_DONE).setRow { r with todo := r.todo ++ [rc] }).rowEnd

/-- ROW_RESPONSE (R127, R128): the last beat of the requested row has come. -/
def execRowResponse (data : List Nat) (err : Bool) (s : State) : Out :=
  match s.itu.row.out with
  | none => .next s
  | some _ =>
    let s := if err then s.ii I.ROW_CNT_ERR else s
    .next ((s.rowMake false err data).pdTryAll)

/-- ROW_TIMEOUT (R91 H8, R127): the row did not come within 2 us. -/
def execRowTimeout (s : State) : Out :=
  match s.itu.row.out with
  | none => .next s
  | some (_, at0, _) =>
    if 2000 ≤ s.now .itu - at0 then
      let s := ((s.ii I.ROW_CNT_MISSING).ii I.ITU_CNT_ROW_TO).wi I.ITU_FAULT_ROW_TO 1
      .next ((s.rowMake true false []).pdTryAll)
    else .next s

end Sys2Proof.Machine
end

