-- ==== Sys2Proof/Machine/DigestI.lean ====
section
/-! DEFINITION. The Ualitis digest engine of the ITU (R294, R301 to R306). -/

namespace Sys2Proof.Machine

/-- p of R294. -/
def digP : Nat := 2 ^ 61 - 1

/-- powmod(b, e, digP) over n bits of e (R294). -/
def powmod : Nat → Nat → Nat → Nat
  | 0, _, _ => 1
  | n + 1, b, e =>
    let r := powmod n (b * b % digP) (e / 2)
    if e % 2 = 1 then r * b % digP else r

/-- The digest engine replaced. -/
def State.setDig (s : State) (d : Dig) : State := { s with itu := { s.itu with dig := d } }

/-- The 64-bit value of a pair of fields, low word first. -/
def State.ri64 (s : State) (lo hi : Fld) : Nat := s.ri hi * 2 ^ 32 + s.ri lo

/-- The keys of the digest (R295). -/
def State.digKey1 (s : State) : Nat := s.ri64 I.DIG_KEY1_LO I.DIG_KEY1_HI
def State.digKey2 (s : State) : Nat := s.ri64 I.DIG_KEY2_LO I.DIG_KEY2_HI

/-- DIG_RANGE_LO and DIG_RANGE_HI. -/
def State.digLo (s : State) : Nat := s.ri64 I.DIG_RANGE_LO_LO I.DIG_RANGE_LO_HI
def State.digHi (s : State) : Nat := s.ri64 I.DIG_RANGE_HI_LO I.DIG_RANGE_HI_HI

/-- A window is armed or reading. -/
def State.digBusy (s : State) : Bool := s.ri I.DIG_STAT_STATE == 1 || s.ri I.DIG_STAT_STATE == 2

/-- DIG_SHARD (R306). -/
def State.digRec (s : State) (result gen opn : Nat) : Rec :=
  let d := s.itu.dig
  let ok := result = 0
  let z := fun x => if ok then x else 0
  let ranged := !(d.lo == 0 && d.hi == 2 ^ 47)
  let body := [d.step, d.keySeq ||| result <<< 8 ||| b2n ranged <<< 11 ||| s.ri I.ITU_PWR_NOW_TEMP <<< 12,
    lo32 (z d.d1), hi32 (z d.d1), lo32 (z d.d2), hi32 (z d.d2), lo32 (z d.v), hi32 (z d.v), lo32 d.n, hi32 d.n,
    lo32 d.lo, hi32 d.lo, lo32 d.hi, hi32 d.hi, opn, d.cur]
  { cls := 0, typ := 0x0A0, len := 5, die := s.ri I.ITU_DIE_ID_ID, part := d.part, gen := gen, short := short (s.now .itu),
    body := body }

/-- DIG_STAT.STATE once no window is armed or reading. -/
def State.digIdle (s : State) : State := s.wi I.DIG_STAT_STATE (if s.itu.dig.todo = [] then 0 else 3)

/-- The DIG_LAST registers and the counters of a closed window. -/
def State.digLast (s : State) (result : Nat) : State :=
  let d := s.itu.dig
  let z := fun x => if result = 0 then x else 0
  let s := ((s.wi I.DIG_LAST_STEP d.step).wi I.DIG_LAST_D1_LO (lo32 (z d.d1))).wi I.DIG_LAST_D1_HI (hi32 (z d.d1))
  let s := ((s.wi I.DIG_LAST_D2_LO (lo32 (z d.d2))).wi I.DIG_LAST_D2_HI (hi32 (z d.d2))).wi I.DIG_LAST_V_LO (lo32 (z d.v))
  let s := ((s.wi I.DIG_LAST_V_HI (hi32 (z d.v))).wi I.DIG_LAST_N_LO (lo32 d.n)).wi I.DIG_LAST_N_HI (hi32 d.n)
  let s := (s.wi I.DIG_STAT_RESULT result).ii I.DIG_CNT_WINDOWS
  let s := if result = 1 then s.ii I.DIG_CNT_OVERRUN else s
  if result = 2 ∨ result = 3 ∨ result = 4 ∨ result = 6 then s.ii I.DIG_CNT_ERR else s

/-- The window closes with a result (R305, R306). A window that never opened has no opening instant: its OPEN is
a free value (log entry 19). -/
def State.digClose (s : State) (result : Nat) : State :=
  if !s.digBusy then s else
  let d := s.itu.dig
  let s := match d.openAt with
    | some _ => s
    | none => s.setDig { d with part := s.ri I.DIG_CFG_PART, gen := s.ri I.PART_STAT_GEN (s.ri I.DIG_CFG_PART),
                                keySeq := s.ri I.DIG_KEY_SEQ, lo := s.digLo, hi := s.digHi }
  let fr := s.free
  let opn := match d.openAt with | some t => short t | none => fr.1 % 2 ^ 32
  let s := if d.openAt.isSome then s else fr.2
  let r := s.digRec result s.itu.dig.gen opn
  let s := s.digLast result
  let t := s.itu.dig.todo
  let s := if result = 5 then s.setDig { held := d.held ++ [r], todo := t } else s.setDig { todo := t ++ [r], held := d.held }
  s.digIdle

/-! ### Reading -/

/-- Bytes of a beat of the memory port. -/
def State.beat (s : State) : Nat := s.itu.par.memW / 8

/-- The lowest tag number not in use. -/
def State.freeTag (s : State) : Option Nat :=
  (List.range 256).find? fun n => !(s.itu.tags.any fun t => t.tag == n)

/-- A read of n bytes from address a for the digest: whole beats, at most 512 B (R304). -/
def State.digRequest (s : State) (list : Bool) (a n : Nat) : State :=
  let d := s.itu.dig
  let w := s.beat
  let a0 := a / w * w
  let len := min 512 (ceilDiv (a + n - a0) w * w)
  match s.freeTag with
  | some g =>
    if s.tagFree d.part g then
      let t : Tag := { tag := g, part := d.part, gen := d.gen, user := if list then .digestList else .digest, addr := a0,
                       bytes := len, write := false, at0 := s.now .itu }
      let s := { s with itu := { s.itu with tags := s.itu.tags ++ [t] } }
      s.setDig { d with tag := some g }
    else s
  | none => s

/-- The next request of an open window: the run list first, then the runs (R304). -/
def State.digNext (s : State) : State :=
  let d := s.itu.dig
  if s.ri I.DIG_STAT_STATE ≠ 2 ∨ d.tag.isSome then s
  else if d.runs.length < d.count then s.digRequest true (d.base + 32 * d.runs.length) 32
  else match d.runs[d.cur]? with
    | some r => s.digRequest false (r.addr + 4 * d.pos) (4 * (r.count - d.pos))
    | none => s

/-- A run descriptor obeys R301. -/
def State.runOk (s : State) (bs : List Nat) : Bool :=
  let index := ofLeBytes ((bs.drop 8).take 8)
  let count := ofLeBytes ((bs.drop 16).take 4)
  let addr := ofLeBytes (bs.take 8)
  decide (1 ≤ count) && decide (index + count ≤ 2 ^ 47) && addr % 4 == 0 && decide (addr < 2 ^ s.itu.par.addrW) &&
    ofLeBytes (bs.drop 20) == 0

/-- The descriptor of 32 bytes. -/
def digRunOf (bs : List Nat) : DigRun :=
  ⟨ofLeBytes (bs.take 8), ofLeBytes ((bs.drop 8).take 8), ofLeBytes ((bs.drop 16).take 4)⟩

/-- Powers of the keys at the start of a run (R294). -/
def Dig.startRun (d : Dig) : Dig :=
  match d.runs[d.cur]? with
  | some r => { d with pos := 0, w1 := powmod 48 d.k1 (r.index + 1), w2 := powmod 48 d.k2 (r.index + 1) }
  | none => d

/-- Descriptors of the list taken from a response (R301): the first bad one closes the window RUN_BAD. -/
def State.digList (s : State) : Nat → List Nat → State
  | 0, _ => s
  | n + 1, bs =>
    let d := s.itu.dig
    if bs.length < 32 ∨ d.count ≤ d.runs.length then s
    else if s.runOk (bs.take 32) then
      let d' := { d with runs := d.runs ++ [digRunOf (bs.take 32)] }
      State.digList (s.setDig (if d'.runs.length = d'.count then { d' with cur := 0 }.startRun else d')) n (bs.drop 32)
    else s.digClose 6

/-- One coefficient digested (R294): the powers advance whether or not its index lies in the range (R304). -/
def Dig.coef (d : Dig) (i c : Nat) : Dig :=
  let s : Dig := if d.lo ≤ i ∧ i < d.hi then
      { d with d1 := (d.d1 + (c + 1) * d.w1) % digP, d2 := (d.d2 + (c + 1) * d.w2) % digP, v := (d.v + d.w1) % digP,
               n := d.n + 1 } else d
  { s with pos := d.pos + 1, w1 := d.w1 * d.k1 % digP, w2 := d.w2 * d.k2 % digP }

/-- The coefficients of a response, in order, to the end of the run. -/
def Dig.coefs (d : Dig) : List Nat → Dig
  | [] => d
  | c :: cs =>
    match d.runs[d.cur]? with
    | none => d
    | some r => if r.count ≤ d.pos then d else Dig.coefs (d.coef (r.index + d.pos) c) cs

/-- A run whose last coefficient is done gives way to the next. -/
def Dig.nextRun (d : Dig) : Dig :=
  match d.runs[d.cur]? with
  | some r => if r.count ≤ d.pos then { d with cur := d.cur + 1 }.startRun else d
  | none => d

/-- A whole response for the digest (R304, R305). t is its tag entry with the data. -/
def State.digData (s : State) (t : Tag) (status : MemStatus) : State :=
  let d := s.itu.dig
  if d.tag ≠ some t.tag ∨ s.ri I.DIG_STAT_STATE ≠ 2 then s else
  let s := s.setDig { d with tag := none }
  match status with
  | .error => s.digClose 2
  | .poison => s.digClose 3
  | .ok =>
    match t.user with
    | .digestList => (s.digList 16 (t.data.drop (d.base + 32 * d.runs.length - t.addr))).digNext
    | _ =>
      match d.runs[d.cur]? with
      | none => s
      | some r =>
        let cs := bytesToWords (t.data.drop (r.addr + 4 * d.pos - t.addr))
        (s.setDig ({ d with tag := none }.coefs cs).nextRun).digNext

/-- Every run of the open window has been digested. -/
def State.digDone (s : State) : Bool :=
  let d := s.itu.dig
  s.ri I.DIG_STAT_STATE == 2 && d.tag.isNone && d.runs.length == d.count && d.cur == d.count

/-! ### Commands -/

/-- Access to the fields that PARTITION authority of DIG_CFG.PART may write (R302, R314). -/
def State.digGuard (s : State) (iss : Issuer) (a : Nat) : State × Bool :=
  if iss.auth = .partition ∧ iss.part ≠ s.ri I.DIG_CFG_PART ∧ s.ri I.PART_STAT_CUFF iss.part = 0 then (s.ituPriv iss a true, false)
  else s.ituGuard iss a true 1

/-- DIG_STEP written (R303). -/
def State.writeDigStep (s : State) (step : Nat) : State :=
  let p := s.ri I.DIG_CFG_PART
  let every := s.ri I.DIG_CFG_EVERY
  let hit := every ≠ 0 ∧ step % every = 0
  let arm := s.ri I.ITU_FN_EN_DIGEST = 1 ∧ hit ∧ 2 ≤ s.digKey1 ∧ 2 ≤ s.digKey2 ∧ !s.digBusy ∧ s.ri I.PART_STAT_STATE p = 0
  let s := (s.wi I.DIG_STEP step).digClose 1
  if arm then
    let d := s.itu.dig
    (s.setDig { step := step, armAt := s.now .itu, todo := d.todo, held := d.held }).wi I.DIG_STAT_STATE 1
  else if hit then s.ii I.DIG_CNT_SKIPPED else s

/-- DIG_STEP_WRITE (R303). -/
def execDigStepWrite (iss : Issuer) (step : Nat) (s : State) : Out :=
  let g := s.digGuard iss I.DIG_STEP.addr
  if g.2 then .next (g.1.writeDigStep (step % 2 ^ 32)) else .next g.1

/-- DIG_UNSTABLE_WRITE (R303): the window armed or reading closes OVERRUN. -/
def execDigUnstableWrite (iss : Issuer) (s : State) : Out :=
  let g := s.digGuard iss I.DIG_UNSTABLE.addr
  if g.2 then .next (g.1.digClose 1) else .next g.1

/-- A slot boundary lies between the arming and now, and R52 holds (R303). -/
def State.digCanOpen (s : State) : Bool :=
  s.ri I.DIG_STAT_STATE == 1 && s.slotsOk .itu &&
    (match s.itu.mains.cur with | some a => decide (a.boundary s.itu.dig.armAt ≤ s.now .itu) | none => false)

/-- DIG_WINDOW_OPEN (R303, R304): the armed window opens and the run list is requested. -/
def execDigWindowOpen (s : State) : Out :=
  if s.digCanOpen then
    let p := s.ri I.DIG_CFG_PART
    let d := s.itu.dig
    let d := { d with openAt := some (s.now .itu), part := p, gen := s.ri I.PART_STAT_GEN p, k1 := s.digKey1, k2 := s.digKey2,
                      keySeq := s.ri I.DIG_KEY_SEQ, lo := s.digLo, hi := s.digHi,
                      base := s.ri64 I.DIG_RUNS_BASE_LO I.DIG_RUNS_BASE_HI, count := s.ri I.DIG_RUNS_COUNT }
    .next ((s.setDig d).wi I.DIG_STAT_STATE 2).digNext
  else .next s

/-- DIG_WINDOW_CLOSE (R305): every run digested, the window closes COMPLETE. -/
def execDigWindowClose (s : State) : Out := if s.digDone then .next (s.digClose 0) else .next s

/-- DIG_CTL_ABORT (R305). -/
def execDigCtlAbort (iss : Issuer) (s : State) : Out :=
  let g := s.ituGuard iss I.DIG_CTL_ABORT.addr true 0
  if g.2 then .next (g.1.digClose 7) else .next g.1

/-- DIG_SHARD_EMIT (R306, R123): the next record of the digest store is admitted, waits, or is discarded. -/
def execDigShardEmit (s : State) : Out :=
  let d := s.itu.dig
  match d.todo with
  | [] => .next s
  | r :: rest =>
    let drop := fun (s : State) =>
      let s := s.setDig { s.itu.dig with todo := rest }
      if s.digBusy then s else s.digIdle
    if s.isStale r then .next (drop (s.ii I.DIG_CNT_DISCARD))
    else if s.storeReady r then .next (drop (s.storeSend r))
    else .next s

/-- The records of windows closed by RESET once its partition is in RUN again (R306): under the new generation. -/
def State.digRelease (s : State) (p : Nat) : State :=
  let d := s.itu.dig
  match d.held.filter (fun r => r.part == p) with
  | [] => s
  | l =>
    let s := s.setDig { d with held := d.held.filter (fun r => r.part != p),
                               todo := d.todo ++ l.map fun r => { r with gen := s.ri I.PART_STAT_GEN p } }
    if s.digBusy then s else s.digIdle

end Sys2Proof.Machine
end

