-- ==== Sys2Proof/Machine/BrimOps.lean ====
section
/-! DEFINITION. The brim (R25 to R31): fields of an entry, the slots of a port, the bank a record selects. -/

namespace Sys2Proof.Machine

/-- BOUND of a brim entry (R25). -/
def brimBound (e : Nat) : Bool := bitAt e 48

/-- LEDGER_SLOT. -/
def brimLedger (e : Nat) : Nat := bits e 42 6

/-- SAMPLE_SLOT. -/
def brimSample (e : Nat) : Nat := bits e 36 6

/-- REPLICA. -/
def brimReplica (e : Nat) : Nat := bits e 28 8

/-- COHORT. -/
def brimCohort (e : Nat) : Nat := bits e 21 7

/-- JOB. -/
def brimJob (e : Nat) : Nat := bits e 15 6

/-- RANK. -/
def brimRank (e : Nat) : Nat := bits e 0 15

/-- The brim entry of port q in force. -/
def State.brimEntry (s : State) (q : Nat) : Nat := nth s.lam.brim.active.entries q

/-- Sampling slot of the die on port q (R27, R101). -/
def State.sampleSlot (s : State) (q : Nat) : Nat :=
  let e := s.brimEntry q
  if brimBound e then brimSample e else 0

/-- Ledger slot of the die on port q (R27). -/
def State.ledgerSlot (s : State) (q : Nat) : Nat :=
  let e := s.brimEntry q
  if brimBound e then brimLedger e else 4 * (q % 16) + s.rl L.LAM_POS_TRAY % 4

/-- The short time lies before the last commit (R30). Before any commit nothing does (log entry 30). -/
def Brim.before (b : Brim) (short : Nat) : Bool :=
  match b.commit with
  | some c => decide (sdiff32 short c < 0)
  | none => false

/-- BRIM_LOOKUP (R30): entry and epoch of the bank that a record's short time selects; none where it is stale. -/
def State.brimLookup (s : State) (q short : Nat) : Option (Nat × Nat) :=
  let b := s.lam.brim
  if b.before short then
    match b.retiring with
    | some r => some (nth r.entries q, r.epoch)
    | none => none
  else some (nth b.active.entries q, b.active.epoch)

end Sys2Proof.Machine
end

