-- ==== Sys2Proof/Machine/Clock.lean ====
section
/-! DEFINITION. Time commands: the local clock and its servo (R44 to R51), IEEE 1588 ports (R53 to R58). -/

namespace Sys2Proof.Machine

/-- The nominal increment (R45). -/
def incrNominal : Nat := 0x100000000

/-- Bound of the servo's corrections: 200 ppm of the nominal increment (R45, R50). -/
def incrBound : Int := 858993

/-- Set the clock state of a part. -/
def State.setClkState (s : State) (sd : Side) (v : Nat) : State :=
  match sd with
  | .itu => s.wi I.ITIME_STAT_STATE v
  | .lam => s.wl L.TIME_STAT_STATE v

/-- STEP_USED of a part (R48). -/
def State.stepUsed (s : State) : Side → Nat
  | .itu => s.ri I.ITIME_STAT_STEP_USED
  | .lam => s.rl L.TIME_STAT_STEP_USED

/-- Set STEP_USED. -/
def State.setStepUsed (s : State) (sd : Side) (v : Nat) : State :=
  match sd with
  | .itu => s.wi I.ITIME_STAT_STEP_USED v
  | .lam => s.wl L.TIME_STAT_STEP_USED v

/-- Servo enable of a part. -/
def State.servoOn (s : State) : Side → Bool
  | .itu => s.ri I.ITIME_CTL_ENABLE == 1
  | .lam => s.rl L.TIME_CTL_ENABLE == 1

/-- Set DEGRADED. -/
def State.setDegraded (s : State) (sd : Side) (v : Nat) : State :=
  match sd with
  | .itu => s.wi I.ITIME_STAT_DEGRADED v
  | .lam => s.wl L.TIME_STAT_DEGRADED v

/-- Enter HOLDOVER: the increment freezes at nominal plus the integral term (R51). -/
def State.enterHoldover (s : State) (sd : Side) : State :=
  let c := s.clk sd
  let from' := if s.clkState sd = 3 then c.holdFrom else some c.ns
  (s.setClk sd { c with incr := ofS 64 (incrNominal + c.integral), holdFrom := from' }).setClkState sd 3

/-- A refused offset (R49): HOLDOVER, JUMP_REFUSED, the count, a class A time alarm. -/
def State.jumpRefused (s : State) (sd : Side) (off : Int) : State :=
  let s := s.enterHoldover sd
  let s := match sd with
    | .itu => s.wi I.ITIME_STAT_JUMP_REFUSED 1
    | .lam => (s.wl L.TIME_STAT_JUMP_REFUSED 1).il L.TIME_CNT_REFUSED
  s.timeAlarm sd 0 (sar off 16)

/-- Effects of a step of the local clock on functions that keep time: every trace stream opens with a SYNC
(R134), the recorder writes an ANCHOR (R432). -/
def State.clockStepped (s : State) (sd : Side) : State :=
  match sd with
  | .itu => { s with itu := { s.itu with trc := s.itu.trc.map fun t => { t with needSync := true } } }
  | .lam => { s with lam := { s.lam with anchorDue := true } }

/-- The four timestamps of a measurement in units of 2^-16 ns, with its corrections (R50). -/
structure Meas where
  q1 : Nat
  q2 : Nat
  q3 : Nat
  q4 : Nat
  cms : Int
  csm : Int
  asym : Int
  /-- mean link delay, in peer-delay mode -/
  link : Option Int
  /-- tick count at t2 -/
  tick2 : Nat

/-- q(t, f) of R50. -/
def qts (t f : Nat) : Nat := (t <<< 16 ||| f % 65536) % 2 ^ 64

/-- d_ms of R50, u64. -/
def Meas.dms (m : Meas) : Nat := ofS 64 ((m.q2 : Int) - m.q1 - m.cms)

/-- d_sm of R50, u64. -/
def Meas.dsm (m : Meas) : Nat := ofS 64 ((m.q4 : Int) - m.q3 - m.csm)

/-- mpd of R50: the mean path delay, or the link delay in peer-delay mode. -/
def Meas.mpd (m : Meas) : Int :=
  match m.link with
  | some d => d
  | none => sar (toS 64 ((m.dms + m.dsm) % 2 ^ 64)) 1

/-- off of R50: local minus master, ns * 2^16, s64. -/
def Meas.off (m : Meas) : Int := toS 64 (ofS 64 ((m.dms : Int) - m.mpd - m.asym))

/-- step of R50, u64 ns. -/
def Meas.step (m : Meas) : Nat :=
  ofS 64 (((m.q2 >>> 16 : Nat) : Int) - ((m.q1 >>> 16 : Nat) : Int) - sar m.cms 16 - sar m.mpd 16 - sar m.asym 16)

/-- Magnitude of an integer as an integer. -/
def absZ (z : Int) : Int := if z < 0 then -z else z

/-- The rate correction of R50: the last branch of its pseudocode. ivl of 0 leaves p open: a free value. -/
def State.servoRate (s : State) (sd : Side) (m : Meas) (kp ki : Nat) : State :=
  let s := if s.clkState sd = 3 then
      (s.setClk sd { s.clk sd with good := 0, holdFrom := none }).setClkState sd 1 else s
  let c := s.clk sd
  let ivl := m.tick2 - c.lastTick.getD 0
  let fr := s.free
  let s := if ivl = 0 then fr.2 else s
  let p0 : Int := if ivl = 0 then toS 64 fr.1 else -(tdiv (m.off * 65536) ivl)
  let p := sar p0 kp
  let integral := clampZ (c.integral + sar p ki) (-incrBound) incrBound
  let incr := ofS 64 (incrNominal + clampZ (integral + p) (-incrBound) incrBound)
  let good := if absZ m.off < 100 * 65536 then c.good + 1 else 0
  let s := s.setClk sd { c with integral := integral, incr := incr, good := good, lastTick := some m.tick2 }
  if s.clkState sd ≠ 2 ∧ 16 ≤ good then (s.setClkState sd 2).setDegraded sd 0 else s

/-- The servo on one valid measurement of the selected source (R48 to R50). -/
def State.servo (s : State) (sd : Side) (m : Meas) : State :=
  let thr := match sd with | .itu => s.ri I.ITIME_JUMP_THR | .lam => s.rl L.TIME_JUMP_THR
  let kp := match sd with | .itu => s.ri I.ITIME_CTL_KP_SHIFT | .lam => s.rl L.TIME_CTL_KP_SHIFT
  let ki := match sd with | .itu => s.ri I.ITIME_CTL_KI_SHIFT | .lam => s.rl L.TIME_CTL_KI_SHIFT
  let s := match sd with
    | .itu => s.wi I.ITIME_OFFSET (satS 32 (sar m.off 16))
    | .lam => s.wl L.TIME_OFFSET (satS 32 (sar m.off 16))
  if s.clkState sd = 1 ∧ s.stepUsed sd = 0 then
    let c := s.clk sd
    let s := s.setClk sd { c with ns := ofS 64 ((c.ns : Int) - m.step), integral := 0, good := 0,
                                  lastTick := some m.tick2 }
    (s.setStepUsed sd 1).clockStepped sd
  else if (thr : Int) * 65536 < absZ m.off then s.jumpRefused sd m.off
  else s.servoRate sd m kp ki

/-- Select a source where none is selected: the clock leaves FREE for ACQUIRE (R48; log entry 6). -/
def State.selectSource (s : State) (sd : Side) (src : Nat) : State :=
  if (s.clk sd).source then s else
  let s := s.setClk sd { s.clk sd with source := true }
  let s := match sd with | .itu => s | .lam => s.wl L.TIME_STAT_SOURCE src
  if s.clkState sd = 0 then s.setClkState sd 1 else s

/-- A measurement on a source: selected if none is, and applied if the servo is enabled. -/
def State.measure (s : State) (sd : Side) (src : Nat) (m : Meas) : State :=
  if s.servoOn sd then (s.selectSource sd src).servo sd m else s

/-- n ticks of a local clock: TIME_INCR is added to the 96-bit value n times (R44). -/
def Clock.tick (c : Clock) (n : Nat) : Clock :=
  let v := (c.ns * 2 ^ 32 + c.frac + n * c.incr) % 2 ^ 96
  { c with ns := v / 2 ^ 32, frac := v % 2 ^ 32, ticks := c.ticks + n }

/-- Whole milliseconds from a time to a later one. -/
def msSince (now t : Nat) : Nat := (now - t) / 1000000

/-- The millisecond counters that follow the local clock: TIME_HOLD_MS (R51), MAINS_HOLD_MS (R72), LNK_UNOBS_MS. -/
def State.msCounters (s : State) : State :=
  let now := s.lam.clk.ns
  let s := match s.lam.clk.holdFrom with
    | some t => if s.rl L.TIME_STAT_STATE = 3 then s.wl L.TIME_HOLD_MS (satN 32 (msSince now t)) else s
    | none => s
  let hold := match s.lam.mzc.holdFrom, s.lam.mains.lostFrom with
    | some t, _ => some t
    | none, o => o
  let s := match hold with
    | some t => s.wl L.MAINS_HOLD_MS (satN 32 (msSince now t))
    | none => s
  (List.range 16).foldl (fun s q =>
    if s.rl L.LNK_STAT_UNOBSERVED q = 1 then
      s.wl L.LNK_UNOBS_MS (satN 32 (msSince now ((s.lam.ports.getD q {}).rejoin.unobsFrom))) q
    else s) s

/-- TIME_CLOCK_TICK (R44). -/
def execTimeClockTick (sd : Side) (n : Nat) (s : State) : Out :=
  match sd with
  | .itu => .next (s.setClk .itu (s.itu.clk.tick n))
  | .lam => .next ((s.setClk .lam (s.lam.clk.tick n)).msCounters)

/-- The increment that a write of the high word forms with the held or present low word is applied if it lies
within 200 ppm and the servo is disabled (R45, R387). -/
def State.writeIncr (s : State) (sd : Side) (hi lo : Nat) : State :=
  let v := hi % 2 ^ 32 * 2 ^ 32 + lo % 2 ^ 32
  if s.servoOn sd then s
  else if 0xFFF2E48F ≤ v ∧ v ≤ 0x1000D1B71 then s.setClk sd { s.clk sd with incr := v }
  else s

/-- The low word held for a multi-word write through a path (R387). -/
def State.heldLow (s : State) (path : Path) (addr : Nat) : Option Nat :=
  (s.holds.find? (fun h => h.path == path && h.addr == addr)).map Hold.data

/-- Drop the held word of a path at an address. -/
def State.dropHold (s : State) (path : Path) (addr : Nat) : State :=
  { s with holds := s.holds.filter (fun h => !(h.path == path && h.addr == addr)) }

/-- Byte offset of ITIME_INCR_HI or TIME_INCR_HI. -/
def incrHiAddr : Side → Nat
  | .itu => I.ITIME_INCR_HI.addr
  | .lam => L.TIME_INCR_HI.addr

/-- The access test of a part. -/
def State.guard (s : State) (sd : Side) (iss : Issuer) (a : Nat) (write : Bool) (fauth : Nat) : State × Bool :=
  match sd with
  | .itu => s.ituGuard iss a write fauth
  | .lam => s.lamGuard iss a write fauth

/-- TIME_INCR_HI_WRITE (R45). -/
def execTimeIncrHiWrite (sd : Side) (iss : Issuer) (data : Nat) (s : State) : Out :=
  let a := incrHiAddr sd
  let g := s.guard sd iss a true 0
  if g.2 then
    let lo := (g.1.heldLow iss.path (a - 4)).getD ((g.1.clk sd).incr % 2 ^ 32)
    .next ((g.1.writeIncr sd data lo).dropHold iss.path (a - 4))
  else .next g.1

/-- TIME_CTL.ENABLE set or cleared: the servo starts, in ACQUIRE where a source is selected, or stops, FREE (R48). -/
def State.setServo (s : State) (sd : Side) (v : Bool) : State :=
  let was := s.servoOn sd
  let s := match sd with
    | .itu => s.wi I.ITIME_CTL_ENABLE (b2n v)
    | .lam => s.wl L.TIME_CTL_ENABLE (b2n v)
  if v && !was then (if (s.clk sd).source then s.setClkState sd 1 else s)
  else if !v && was then (s.setClk sd { s.clk sd with holdFrom := none }).setClkState sd 0
  else s

/-- TIME_CTL_ENABLE_WRITE (R48). -/
def execTimeCtlEnableWrite (sd : Side) (iss : Issuer) (v : Bool) (s : State) : Out :=
  let a := match sd with | .itu => I.ITIME_CTL_ENABLE.addr | .lam => L.TIME_CTL_ENABLE.addr
  let g := s.guard sd iss a true 0
  if g.2 then .next ((g.1.setServo sd v).after sd) else .next g.1

/-- REARM (R48): one further step is permitted; an enabled clock enters ACQUIRE at once. -/
def State.rearm (s : State) (sd : Side) : State :=
  let s := s.setStepUsed sd 0
  if s.servoOn sd then (s.setClk sd { s.clk sd with holdFrom := none }).setClkState sd 1 else s

/-- TIME_CTL_REARM (R48): FLEET authority. -/
def execTimeCtlRearm (sd : Side) (iss : Issuer) (s : State) : Out :=
  let a := match sd with | .itu => I.ITIME_CTL_REARM.addr | .lam => L.TIME_CTL_REARM.addr
  let g := s.guard sd iss a true 3
  if g.2 then .next ((g.1.rearm sd).after sd) else .next g.1

/-- Loss of the selected source (R48): HOLDOVER after the step, FREE before it. -/
def State.sourceLost (s : State) (sd : Side) : State :=
  if (s.clk sd).source then
    let s := s.setClk sd { s.clk sd with source := false }
    let s := match sd with | .itu => s | .lam => s.wl L.TIME_STAT_SOURCE 0xF
    if s.clkState sd = 0 ∨ s.clkState sd = 3 then s
    else if s.stepUsed sd = 1 then (s.enterHoldover sd).timeAlarm sd 2 0
    else s.setClkState sd 0
  else s

/-- SOURCE_LOST (R48). -/
def execSourceLost (sd : Side) (s : State) : Out := .next ((s.sourceLost sd).after sd)

/-- HOLDOVER_DEGRADED (R51): 1,000 ms in HOLDOVER. -/
def execHoldoverDegraded (sd : Side) (s : State) : Out :=
  match (s.clk sd).holdFrom with
  | some t =>
    if s.clkState sd = 3 ∧ s.degraded sd = 0 ∧ 1000 ≤ msSince (s.now sd) t then
      .next (((s.setDegraded sd 1).timeAlarm sd 1 0).after sd)
    else .next s
  | none => .next s

/-! ### IEEE 1588 ports -/

/-- Port p's time function. -/
def State.ptp (s : State) (p : Nat) : PtpPort := s.lam.ptp.getD p {}

/-- Port p's time function replaced. -/
def State.setPtp (s : State) (p : Nat) (v : PtpPort) : State :=
  { s with lam := { s.lam with ptp := setNth {} s.lam.ptp p v } }

/-- Ingress time of a message on port p: the capture less TIME_PORT_LAT_RX, ns * 2^16 (R56). -/
def State.rxStamp (s : State) (p t f : Nat) : Nat := ofS 64 ((qts t f : Int) - s.rl L.TIME_PORT_LAT_RX p)

/-- Egress time: the capture plus TIME_PORT_LAT_TX (R56). -/
def State.txStamp (s : State) (p t f : Nat) : Nat := (qts t f + s.rl L.TIME_PORT_LAT_TX p) % 2 ^ 64

/-- Source number that a measurement of port p's mode stands for, if it may steer the clock (R54, R55). -/
def State.ptpSource (s : State) (p : Nat) : Option Nat :=
  let src := s.rl L.TIME_STAT_SOURCE
  match s.rl L.TIME_PORT_CFG_MODE p with
  | 2 => if !s.lam.eth.onSec && (src == 0 || src == 0xF) then some 0 else none
  | 3 => if s.lam.eth.onSec && (src == 1 || src == 0xF) then some 1 else none
  | 5 => if src = 2 ∨ src = 0xF then some 2 else none
  | _ => none

/-- A complete measurement on port p: TIME_PORT_MPD and TIME_PORT_OFFSET, and the servo if p is the source. -/
def State.ptpMeasure (s : State) (p : Nat) : State :=
  let o := s.ptp p
  match o.t1, o.t2 with
  | some a1, some a2 =>
    let full := s.rl L.TIME_PORT_CFG_PDELAY p = 1
    match (if full then o.link.map (fun d => (a1, a2, some d)) else
        (match o.t3, o.t4 with | some _, some _ => some (a1, a2, none) | _, _ => none)) with
    | some (b1, b2, link) =>
      let m : Meas := { q1 := b1.1, q2 := b2.1, q3 := (o.t3.getD (0, 0)).1, q4 := (o.t4.getD (0, 0)).1,
                        cms := o.cms, csm := o.csm, asym := toS 32 (s.rl L.TIME_PORT_ASYM p), link := link,
                        tick2 := o.tick2 }
      let s := (s.wl L.TIME_PORT_MPD (ofS 32 m.mpd) p).wl L.TIME_PORT_OFFSET (satS 32 (sar m.off 16)) p
      let s := s.setPtp p { o with t1 := none, t2 := none, t3 := none, t4 := none }
      match s.ptpSource p with
      | some src => s.measure .lam src m
      | none => s
    | none => s
  | _, _ => s

/-- Event messages, whose timestamps count (R58). -/
def PtpKind.event : PtpKind → Bool
  | .sync _ | .delayReq | .pdelayReq | .pdelayResp _ => true
  | _ => false

/-- Transparent clock (R57): the residence time is added to the correctionField and the frame leaves by the
partner port; an addition that would overflow leaves the frame unchanged and counts. -/
def State.tcForward (s : State) (p : Nat) (m : PtpMsg) : State :=
  let res : Int := (qts m.fwdT m.fwdF : Int) - qts m.rxT m.rxF
  let c := toS 64 m.corr + res
  let pair := s.rl L.TIME_PORT_CFG_PAIR p
  let o := s.ptp pair
  if c < -(2 ^ 63) ∨ 2 ^ 63 ≤ c then (s.setPtp pair { o with out := some m }).il L.TIME_CNT_REFUSED
  else s.setPtp pair { o with out := some { m with corr := ofS 64 c } }

/-- A message processed by a slave, listening or reference port (R50, R54). -/
def State.ptpSlave (s : State) (p : Nat) (m : PtpMsg) : State :=
  let o := s.ptp p
  let rx := s.rxStamp p m.rxT m.rxF
  let origin := qts m.t m.f
  match m.kind with
  | .sync false =>
    (s.setPtp p { o with t1 := some (origin, 0), t2 := some (rx, 0), cms := toS 64 m.corr, syncCorr := none,
                         tick2 := s.lam.clk.ticks }).ptpMeasure p
  | .sync true => s.setPtp p { o with t1 := none, t2 := some (rx, 0), syncCorr := some (toS 64 m.corr),
                                      tick2 := s.lam.clk.ticks }
  | .followUp =>
    match o.syncCorr with
    | some c => (s.setPtp p { o with t1 := some (origin, 0), cms := c + toS 64 m.corr, syncCorr := none }).ptpMeasure p
    | none => s
  | .delayResp => (s.setPtp p { o with t4 := some (origin, 0), csm := toS 64 m.corr }).ptpMeasure p
  | .pdelayResp false =>
    match o.t3 with
    | some t3 => s.setPtp p { o with link := some (sar ((rx : Int) - t3.1 - toS 64 m.corr) 1), t3 := none }
    | none => s
  | .pdelayResp true => s.setPtp p { o with pd2 := some (origin, rx), csm := toS 64 m.corr }
  | .pdelayRespFollowUp =>
    match o.t3, o.pd2 with
    | some t3, some (t2, t4) =>
      s.setPtp p { o with link := some (sar ((t4 : Int) - t3.1 - ((origin : Int) - t2) - o.csm - toS 64 m.corr) 1),
                          t3 := none, pd2 := none }
    | _, _ => s
  | .announce | .delayReq => s
  | .pdelayReq => s.setPtp p { o with out := some { m with kind := .pdelayResp false, t := rx / 65536, f := rx % 65536 } }

/-- A message processed by a master port: a delay request is answered with its receive time. -/
def State.ptpMaster (s : State) (p : Nat) (m : PtpMsg) : State :=
  let o := s.ptp p
  let rx := s.rxStamp p m.rxT m.rxF
  match m.kind with
  | .delayReq => s.setPtp p { o with out := some { m with kind := .delayResp, t := rx / 65536, f := rx % 65536 } }
  | .pdelayReq => s.setPtp p { o with out := some { m with kind := .pdelayResp false, t := rx / 65536, f := rx % 65536 } }
  | _ => s

/-- PTP_MESSAGE_RX (R53 to R58). -/
def execPtpMessageRx (port : Nat) (m : PtpMsg) (s : State) : Out :=
  let mode := s.rl L.TIME_PORT_CFG_MODE port
  if 24 ≤ port ∨ mode = 0 then .next s
  else if !(s.ptp port).settled && m.kind.event then .next (s.il L.TIME_CNT_SETTLE)
  else if mode = 4 then
    match m.kind with
    | .sync _ | .delayReq => .next (s.tcForward port m)
    | _ => .next (s.setPtp (s.rl L.TIME_PORT_CFG_PAIR port) { s.ptp (s.rl L.TIME_PORT_CFG_PAIR port) with out := some m })
  else if m.domain ≠ s.rl L.TIME_PORT_CFG_DOMAIN port then .next s
  else if mode = 1 then .next (s.ptpMaster port m)
  else .next (s.ptpSlave port m)

/-- PTP_SYNC_TX (R53, R56): a settled master port sends a one-step Sync with its egress time. -/
def execPtpSyncTx (port t f : Nat) (s : State) : Out :=
  let o := s.ptp port
  if s.rl L.TIME_PORT_CFG_MODE port = 1 ∧ o.settled then
    let tx := s.txStamp port t f
    .next (s.setPtp port { o with seq := (o.seq + 1) % 65536,
                                  out := some { kind := .sync false, domain := s.rl L.TIME_PORT_CFG_DOMAIN port,
                                                seq := o.seq, t := tx / 65536, f := tx % 65536 } })
  else .next s

/-- PTP_DELAY_REQ_TX (R53, R56): a settled slave, listening or reference port sends a Delay_Req, or a Pdelay_Req
with PDELAY = 1, and keeps its egress time as t3. -/
def execPtpDelayReqTx (port t f : Nat) (s : State) : Out :=
  let o := s.ptp port
  let mode := s.rl L.TIME_PORT_CFG_MODE port
  if (mode = 2 ∨ mode = 3 ∨ mode = 5) ∧ o.settled then
    let tx := s.txStamp port t f
    let kind := if s.rl L.TIME_PORT_CFG_PDELAY port = 1 then PtpKind.pdelayReq else PtpKind.delayReq
    .next (s.setPtp port { o with seq := (o.seq + 1) % 65536, t3 := some (tx, 0),
                                  out := some { kind := kind, domain := s.rl L.TIME_PORT_CFG_DOMAIN port,
                                                seq := o.seq } })
  else .next s

/-- TIME_STAT.SETTLING: an active port is settling (R58). -/
def State.settlingBit (s : State) : State :=
  s.wl L.TIME_STAT_SETTLING
    (b2n ((List.range 24).any fun p => s.rl L.TIME_PORT_CFG_MODE p != 0 && !(s.ptp p).settled))

/-- PORT_SETTLE_END (R58). -/
def execPortSettleEnd (port : Nat) (s : State) : Out :=
  if port < 24 then .next ((s.setPtp port { s.ptp port with settled := true }).settlingBit) else .next s

end Sys2Proof.Machine
end

