-- ==== Sys2Proof/Machine/Mains.lean ====
section
/-! DEFINITION. The mains chain: capture at the Crowns (R62 to R66, R71, R72, R74, R75), announcements and
extrapolation (R67 to R70), conservative mode (R73). -/

namespace Sys2Proof.Machine

/-- One ns in the units of 2^-32 ns in which lengths and errors are held. -/
def nsUnit : Int := 4294967296

/-- MAINS_PERIOD, 32.32 ns. -/
def State.period (s : State) : Nat := s.rl L.MAINS_PERIOD_HI * 2 ^ 32 + s.rl L.MAINS_PERIOD_LO

/-- Set MAINS_PERIOD. -/
def State.setPeriod (s : State) (v : Nat) : State :=
  (s.wl L.MAINS_PERIOD_HI (v / 2 ^ 32)).wl L.MAINS_PERIOD_LO (v % 2 ^ 32)

/-- MAINS_OFS in ns. -/
def State.mainsOfs (s : State) : Int := toS 32 (s.rl L.MAINS_OFS)

/-- The chain is held: an MC is current, or the first one has been announced (R70). -/
def Mains.held (m : Mains) : Bool := m.cur.isSome || !m.next.isEmpty

/-- The announcements held, the current MC first. -/
def Mains.known (m : Mains) : List Ann := m.cur.toList ++ m.next

/-- CONSERVATIVE of a part (R73): local mode, or the flag of a current announcement; at the active Crown its own. -/
def State.conservative (s : State) (sd : Side) : Bool :=
  let m := s.mains sd
  if sd == .lam && s.isCrown then s.lam.mzc.cons else m.localCons || m.known.any fun a => bitAt a.flags 1

/-- MAINS_STAT.STATE is kept at the Lamulo alone. -/
def State.setMainsState (s : State) (sd : Side) (v : Nat) : State :=
  match sd with
  | .lam => s.wl L.MAINS_STAT_STATE v
  | .itu => s

/-- ANN_LOST is shown at the Lamulo alone. -/
def State.setAnnLost (s : State) (sd : Side) (v : Nat) : State :=
  match sd with
  | .lam => s.wl L.MAINS_STAT_ANN_LOST v
  | .itu => s

/-- A late or refused announcement is counted in MAINS_CNT_LATE_ANN, which the Lamulo has (R69). -/
def State.countLateAnn (s : State) (sd : Side) : State :=
  match sd with
  | .lam => s.il L.MAINS_CNT_LATE_ANN
  | .itu => s

/-! ### The Crown's capture -/

/-- Length of MC j in the record of announced lengths; the period where none is kept. -/
def State.lenOf (s : State) (j : Nat) : Nat :=
  match s.lam.mzc.lengths.find? (fun p => p.1 == j) with
  | some p => p.2
  | none => s.period

/-- The error predicted at START(k+1) from the latest accepted edge (R65). -/
def State.predErr (s : State) (k : Nat) : Int :=
  let z := s.lam.mzc
  (List.range (k + 1 - z.eMc)).foldl (fun e i => e + ((s.period : Int) - s.lenOf (z.eMc + i))) z.eLast

/-- The value of z taken into [-p/2, p/2) (R64). -/
def wrapHalf (z : Int) (p : Nat) : Int :=
  if p = 0 then z else
  let r := z % (p : Int)
  if 2 * r < (p : Int) then r else r - p

/-- The MC whose start lies nearest to time v (units of 2^-32 ns), of the previous, current and next MC (R64):
its number and start. -/
def State.nearestMc (s : State) (v : Int) : Option (Nat × Int) :=
  match s.lam.mains.cur with
  | none => none
  | some c =>
    let prev : Nat × Int := (c.mc - 1, (c.start : Int) - s.lenOf (c.mc - 1))
    let cands := [prev, (c.mc, (c.start : Int)), (c.mc + 1, (c.start : Int) + c.length)]
    cands.foldl (fun b x => match b with
      | none => some x
      | some y => if (v - x.2).natAbs < (v - y.2).natAbs then some x else some y) none

/-- The phase error of an accepted edge at t (R64): MAINS_PHASE_ERR, and the base of R65's prediction. -/
def State.phaseError (s : State) (t : Nat) : State :=
  match s.nearestMc ((t : Int) * nsUnit) with
  | none => s
  | some (m, st) =>
    let e := wrapHalf (((t : Int) + s.mainsOfs) * nsUnit - st) s.period
    let z := s.lam.mzc
    let s := { s with lam := { s.lam with mzc :=
      { z with eLast := e, eMc := m, ePrev := (if m = z.eMc then z.ePrev else z.eLast), lengths := z.lengths.filter fun p => decide (m ≤ p.1) } } }
    s.wl L.MAINS_PHASE_ERR (satS 32 (sar e 32))

/-- The mean of the last eight intervals in the filter, 32.32 ns (R63). -/
def Mzc.mean (z : Mzc) : Nat := (z.intervals.take 8).foldl (· + ·) 0 * 2 ^ 32 / 8

/-- How an edge at t is treated, of last accepted edge l and period p (R62). -/
inductive EdgeKind where
  | glitch
  | filter
  | phaseOnly
deriving DecidableEq, Repr

/-- R62. Before a period is known only the 45 to 65 Hz window decides (log entry 12). -/
def edgeKind (last : Option Nat) (p t : Nat) : EdgeKind :=
  match last with
  | none => .phaseOnly
  | some l =>
    let d := t - l
    let inWin := decide (15384615 ≤ d) && decide (d ≤ 22222223)
    if p = 0 then (if d < 15384615 then .glitch else if inWin then .filter else .phaseOnly)
    else if d * 2 ^ 32 * 4 < 3 * p then .glitch
    else if d * 2 ^ 32 * 4 ≤ 5 * p && inWin then .filter
    else .phaseOnly

/-- An edge accepted for phase only: counted, and the run of filtered intervals ends. -/
def State.edgePhase (s : State) (t : Nat) : State :=
  let s := s.il L.MAINS_CNT_MISSED
  let s := if s.rl L.MAINS_STAT_STATE = 0 then s.wl L.MAINS_STAT_STATE 1 else s
  { s with lam := { s.lam with mzc := { s.lam.mzc with last := some t, run := 0 } } }

/-- What the filter makes of its intervals, in each state of R64. -/
def State.edgeJudge (s : State) (z : Mzc) : State :=
  let st := s.rl L.MAINS_STAT_STATE
  if st = 2 ∨ st = 3 then (if 8 ≤ z.intervals.length then s.setPeriod z.mean else s)
  else if z.run < 8 then (if st = 0 then s.wl L.MAINS_STAT_STATE 1 else s)
  else
    let s := s.setPeriod z.mean
    if st = 4 then
      let s := { s with lam := { s.lam with mzc := { s.lam.mzc with holdFrom := none } } }
      s.wl L.MAINS_STAT_STATE (if (s.rl L.MAINS_SLEW_LIMIT : Int) * nsUnit < z.eLast.natAbs then 3 else 2)
    else
      let s := { s with lam := { s.lam with mzc := { s.lam.mzc with firstSet := s.isCrown } } }
      s.wl L.MAINS_STAT_STATE 2

/-- An interval d enters the period filter (R63); after eight in a row ACQUIRE leads to TRACK (R66) and HOLDOVER
to TRACK or SLEW (R74). -/
def State.edgeFilter (s : State) (t d : Nat) : State :=
  let z := s.lam.mzc
  let z := { z with last := some t, intervals := (d :: z.intervals).take 8, run := z.run + 1 }
  ({ s with lam := { s.lam with mzc := z } } : State).edgeJudge z

/-- MAINS_MC_BASE. -/
def State.mcBase (s : State) : Nat := s.rl L.MAINS_MC_BASE_HI * 2 ^ 32 + s.rl L.MAINS_MC_BASE_LO

/-- The first edge after TRACK sets START of the next MC, numbered MAINS_MC_BASE (R66). -/
def State.setFirstMc (s : State) (t : Nat) : State :=
  let a : Ann := { mc := s.mcBase, start := ((t : Int) + s.mainsOfs).toNat * 2 ^ 32, length := s.period, flags := 0 }
  let s := { s with lam := { s.lam with mzc :=
    { s.lam.mzc with firstSet := false, lengths := [(a.mc, a.length)], eLast := 0, eMc := a.mc } } }
  s.setMains .lam { s.lam.mains with cur := none, next := [a], extrap := false, slot := 0 }

/-- MZC_EDGE (R62 to R64, R66, R74): captured at a Crown with MAINS_CTL.CAPTURE = 1. -/
def execMzcEdge (t : Nat) (s : State) : Out :=
  if s.role = 3 ∧ s.rl L.MAINS_CTL_CAPTURE = 1 then
    let first := s.lam.mzc.firstSet && s.isCrown && s.rl L.MAINS_CTL_ENABLE == 1
    match edgeKind s.lam.mzc.last s.period t with
    | .glitch => .next (s.il L.MAINS_CNT_GLITCH)
    | .phaseOnly => .next (if first then (s.edgePhase t).setFirstMc t else (s.phaseError t).edgePhase t)
    | .filter =>
      let d := t - s.lam.mzc.last.getD 0
      .next (if first then (s.edgeFilter t d).setFirstMc t else (s.phaseError t).edgeFilter t d)
  else .next s

/-- MAINS_HOLDOVER_ENTRY (R72): three periods without an accepted edge. -/
def execMainsHoldoverEntry (s : State) : Out :=
  let st := s.rl L.MAINS_STAT_STATE
  match s.lam.mzc.last with
  | some l =>
    if s.role = 3 ∧ (st = 2 ∨ st = 3) ∧ 3 * s.period ≤ (s.now .lam - l) * 2 ^ 32 then
      let s := { s with lam := { s.lam with mzc := { s.lam.mzc with run := 0, holdFrom := some (s.now .lam) } } }
      .next (((s.wl L.MAINS_STAT_STATE 4).wl L.MAINS_HOLD_MS 0).mainsAlarm .lam 0)
    else .next s
  | none => .next s

/-! ### Announcements -/

/-- FLAGS of the Crown's announcements (R67). -/
def State.annFlags (s : State) (corr : Int) : Nat :=
  b2n (s.rl L.MAINS_STAT_STATE == 4) ||| b2n s.lam.mzc.cons <<< 1 ||| b2n (corr != 0) <<< 2 |||
    b2n s.lam.mzc.tookOver <<< 3

/-- The active Crown at the start of MC k fixes the length of MC k+1 (R65) and announces it down every tree port
and to the standby (R67, R71). -/
def State.crownAnnounce (s : State) : State :=
  match s.lam.mains.cur with
  | none => s
  | some c =>
    let lim : Int := s.rl L.MAINS_SLEW_LIMIT * nsUnit
    let st := s.rl L.MAINS_STAT_STATE
    let track := st == 2 || st == 3
    let e := s.predErr c.mc
    let corr : Int := if track then clampZ e (-lim) lim else 0
    let s := if track then s.wl L.MAINS_STAT_STATE (if lim < e.natAbs then 3 else 2) else s
    let len := ofS 64 ((s.period : Int) + corr)
    let a : Ann := { mc := (c.mc + 1) % 2 ^ 48, start := c.start + c.length, length := len, flags := s.annFlags corr }
    let s := { s with lam := { s.lam with mzc := { s.lam.mzc with lengths := (a.mc, len) :: s.lam.mzc.lengths } } }
    let s := s.setMains .lam { s.lam.mains with next := [a] }
    (s.send .all 3 (.mains a)).send .standby 3 (.mains a)

/-- R75 at the start of an MC, which judges the MC that ends: 64 consecutive MCs in TRACK, each with an error below 5,000 ns,
clear the Crown's conservative mode. An edge already measured against the MC that starts does not count for the one that ends. -/
def State.crownConsClear (s : State) : State :=
  let z := s.lam.mzc
  let e := if z.eMc = s.mc .lam then z.ePrev else z.eLast
  let n := if s.rl L.MAINS_STAT_STATE = 2 ∧ (e.natAbs : Int) < 5000 * nsUnit then z.trackRun + 1 else 0
  let clear := z.cons && decide (64 ≤ n)
  let s := { s with lam := { s.lam with mzc := { z with trackRun := n, cons := z.cons && !clear } } }
  if clear then s.mainsAlarm .lam 2 else s

/-- The announcement of the MC that follows c where none has come (R69). -/
def Ann.extrapolate (c : Ann) : Ann := { c with mc := (c.mc + 1) % 2 ^ 48, start := c.start + c.length }

/-- The next MC's start in whole ns, if a chain is held. -/
def Mains.nextStart (m : Mains) : Option Nat :=
  match m.cur, m.next with
  | some c, _ => some ((c.start + c.length) / 2 ^ 32)
  | none, a :: _ => some a.startNs
  | none, [] => none

/-- The start of the next MC has come. -/
def State.mcDue (s : State) (sd : Side) : Bool :=
  match (s.mains sd).nextStart with
  | some t => decide (t ≤ s.now sd)
  | none => false

/-- Move the chain of a part to its next MC: announced or extrapolated (R69), with the count of R73. -/
def State.mcAdvance (s : State) (sd : Side) : State :=
  let m := s.mains sd
  let crown := sd == .lam && s.role == 3 && s.isCrown
  let endLocal := m.localCons && decide (64 ≤ m.good)
  let s := if endLocal then (s.setMains sd { m with localCons := false }).mainsAlarm sd 2 else s
  let m := s.mains sd
  match m.next, m.cur with
  | a :: rest, _ =>
    let s := s.setMains sd { m with cur := some a, next := rest, extrap := false, good := m.good + 1, slot := 0 }
    if crown || (sd == .lam && s.isStandby) then s else s.setMainsState sd 2
  | [], some c =>
    let s := s.setMains sd { m with cur := some c.extrapolate, extrap := true, good := 0, missed := m.missed + 1, slot := 0 }
    let s := if sd == .lam && s.isStandby then
        { s with lam := { s.lam with mzc := { s.lam.mzc with lengths := (c.mc + 1, c.length) :: s.lam.mzc.lengths } } }
      else s
    if crown || (sd == .lam && s.isStandby) then s else s.setMainsState sd 4
  | [], none => s

/-- A refused announcement (R69): counted, ANN_MISMATCH set, and a new chain adopted after three that agree among
themselves. -/
def State.annMismatch (s : State) (sd : Side) (a : Ann) : State :=
  let m := s.mains sd
  let s := s.countLateAnn sd
  let s := match sd with | .lam => s.wl L.MAINS_STAT_ANN_MISMATCH 1 | .itu => s
  let prev := match m.cand with
    | some (b, n) => if a.mc = b.mc + 1 ∧ a.start = b.start + b.length then some (b, n) else none
    | none => none
  match prev with
  | some (b, n) =>
    if 2 ≤ n then
      let slot := ((List.range 64).filter fun i => decide (b.slotAt i ≤ s.now sd)).length
      let s := s.setMains sd { m with cur := some b, next := [a], cand := none, good := 0, localCons := true,
                                      extrap := false, missed := 0, lostFrom := none, slot := slot }
      (s.setAnnLost sd 0).mainsAlarm sd 1
    else s.setMains sd { m with cand := some (a, n + 1), good := 0 }
  | none => (s.setMains sd { m with cand := some (a, 1), good := 0 }).mainsAlarm sd 3

/-- An announcement accepted: those held for its MC and later give way to it. -/
def State.annAccept (s : State) (sd : Side) (a : Ann) : State :=
  let m := s.mains sd
  let lost := m.lostFrom.isSome
  let s := s.setMains sd { m with next := m.next.filter (fun x => decide (x.mc < a.mc)) ++ [a], cand := none,
                                  missed := 0, lostFrom := none, good := if lost then 0 else m.good }
  let s := s.setAnnLost sd 0
  if sd == .lam && s.isStandby then
    let own := s.predErr (a.mc - 1)
    let s := { s with lam := { s.lam with mzc := { s.lam.mzc with lengths := (a.mc, a.length) :: s.lam.mzc.lengths } } }
    s.wl L.MAINS_STBY_DIFF (satS 32 (sar own 32))
  else s

/-- A received announcement is checked (R69, R70). The active Crown makes its chain itself. -/
def State.annCheck (s : State) (sd : Side) (a : Ann) : State :=
  let m := s.mains sd
  if sd == .lam && s.isCrown then s
  else if m.held then
    if m.known.contains a then s
    else if a.startNs ≤ s.now sd then s.countLateAnn sd
    else if m.known.any fun h => a.mc == h.mc + 1 && a.start == h.start + h.length then s.annAccept sd a
    else s.annMismatch sd a
  else if s.clkState sd = 2 then
    if a.startNs ≤ s.now sd then s.countLateAnn sd
    else s.annAccept sd a
  else s

/-- Port q of the Tray Lamulo is UP (link state 4). -/
def State.portUp (s : State) (q : Nat) : Bool := s.rl L.LNK_STAT_STATE q == 4

/-- The IKL port q. -/
def State.port (s : State) (q : Nat) : IklPort := s.lam.ports.getD q {}

/-- The IKL port q replaced. -/
def State.setPort (s : State) (q : Nat) (p : IklPort) : State :=
  { s with lam := { s.lam with ports := setNth {} s.lam.ports q p } }

/-- A MAINS cell is due on every UP port (R182). -/
def State.mainsCells (s : State) (a : Ann) : State :=
  (List.range 16).foldl (fun s q =>
    if s.portUp q then
      let p := s.port q
      s.setPort q { p with link := { p.link with mainsCells := p.link.mainsCells ++ [a] } }
    else s) s

/-- A node forwards an announcement: the Tray over IKL, now and again 1 ms later (R182), others to their children
(R67). -/
def State.annRelay (s : State) (a : Ann) : State :=
  if s.role = 0 then
    let s := s.mainsCells a
    s.setMains .lam { s.lam.mains with resend := some a }
  else s.send .kids 3 (.mains a)

/-- An announcement received by a part. A Lamulo with MAINS_CTL.ENABLE = 0 ignores it (R70). -/
def State.annRx (s : State) (sd : Side) (a : Ann) : State :=
  match sd with
  | .itu => s.annCheck .itu a
  | .lam => if s.rl L.MAINS_CTL_ENABLE = 0 then s else (s.annCheck .lam a).annRelay a

/-- MAINS_CELL_RX (R182, R69): the ITU receives a MAINS cell. Settling discards TIME cells (R58). -/
def execMainsCellRx (a : Ann) (s : State) : Out :=
  if s.ri I.ILNK_STAT_SETTLING = 1 then .next (s.ii I.ITIME_CNT_SETTLE) else .next ((s.annRx .itu a).after .itu)

/-- MAINS_CELL_RESEND (R182): 1 ms after the first, the Tray sends the cell again on every UP port. -/
def execMainsCellResend (s : State) : Out :=
  match s.lam.mains.resend with
  | some a => .next ((s.mainsCells a).setMains .lam { s.lam.mains with resend := none })
  | none => .next s

/-- ANN_LOST (R69): no announcement for three nominal cycles. -/
def execAnnLost (sd : Side) (s : State) : Out :=
  let m := s.mains sd
  if 3 ≤ m.missed ∧ m.lostFrom = none ∧ !(sd == .lam && s.isCrown) then
    .next ((s.setMains sd { m with lostFrom := some (s.now sd) }).setAnnLost sd 1)
  else .next s

/-- CONSERVATIVE_ENTRY (R73): the Crown after 10,000 ms in HOLDOVER, any other node after 10,000 ms of ANN_LOST. -/
def execConservativeEntry (sd : Side) (s : State) : Out :=
  if sd == .lam && s.isCrown then
    match s.lam.mzc.holdFrom with
    | some t =>
      if s.rl L.MAINS_STAT_STATE = 4 ∧ s.lam.mzc.cons = false ∧ 10000000000 ≤ s.now .lam - t then
        let s := { s with lam := { s.lam with mzc := { s.lam.mzc with cons := true } } }
        .next (s.mainsAlarm .lam 1)
      else .next s
    | none => .next s
  else
    let m := s.mains sd
    match m.lostFrom with
    | some t =>
      if m.localCons = false ∧ 10000000000 ≤ s.now sd - t then
        .next ((s.setMains sd { m with localCons := true }).mainsAlarm sd 1)
      else .next s
    | none => .next s

/-- MAINS_CTL.ENABLE changed: any held chain is discarded (R70). An active Crown that is already tracking sets its
first MC again on the next edge (log entry 13). -/
def State.setMainsEnable (s : State) (v : Bool) : State :=
  if s.rl L.MAINS_CTL_ENABLE = b2n v then s else
  let s := (s.wl L.MAINS_CTL_ENABLE (b2n v)).setMains .lam {}
  let s := s.wl L.MAINS_STAT_ANN_LOST 0
  if s.role = 3 then
    let st := s.rl L.MAINS_STAT_STATE
    { s with lam := { s.lam with mzc := { s.lam.mzc with firstSet := s.isCrown && decide (2 ≤ st), lengths := [] } } }
  else s.wl L.MAINS_STAT_STATE 0

/-- MAINS_CTL_ENABLE_WRITE (R70): FLEET authority. -/
def execMainsCtlEnableWrite (iss : Issuer) (v : Bool) (s : State) : Out :=
  let g := s.lamGuard iss L.MAINS_CTL_ENABLE.addr true 3
  if g.2 then .next (g.1.setMainsEnable v) else .next g.1

end Sys2Proof.Machine
end

