-- ==== Sys2Proof/Machine/CmdWords.lean ====
section
/-! DEFINITION. Command packets as words (R377), and the lengths that items state (R173). -/

namespace Sys2Proof.Machine

/-- The twelve header words of a packet of LEN16 units (R377). -/
def CmdHdr.words (h : CmdHdr) (len16 : Nat) : List Nat :=
  [ h.pver % 16 ||| h.opcode % 256 <<< 4 ||| len16 % 256 <<< 12 ||| h.auth % 4 <<< 20 ||| h.amode % 8 <<< 22 |||
      b2n h.noReply <<< 25 ||| b2n h.inTxn <<< 26,
    h.target % 2 ^ 21, h.epoch % 65536 ||| h.cmdId % 65536 <<< 16, h.origin % 2 ^ 19 ||| h.issuer % 16 <<< 19, h.txn % 2 ^ 24,
    h.ownerDie % 2 ^ 17 ||| h.ownerPart % 16 <<< 17 ||| h.ownerGen % 256 <<< 21 ||| b2n h.ownerIsPart <<< 29,
    h.issue % 2 ^ 32, h.tagSeq % 2 ^ 32, h.tag % 2 ^ 32, h.tag / 2 ^ 32 % 2 ^ 32,
    h.resolved % 2 ^ 17 ||| b2n h.resolvedValid <<< 17, 0 ]

/-- LEN16 of a packet: header and parameters in units of 16 bytes. -/
def Pkt.len16 (p : Pkt) : Nat := 3 + ceilDiv p.params.length 4

/-- The words of a packet, parameters padded with zeros to whole units. -/
def Pkt.words (p : Pkt) : List Nat :=
  p.hdr.words p.len16 ++ p.params ++ List.replicate (4 * ceilDiv p.params.length 4 - p.params.length) 0

/-- The bytes of a packet. -/
def Pkt.bytes (p : Pkt) : List Nat := wordsToBytes p.words

/-- Parameter word k of a packet, packet word 12 + k. -/
def Pkt.param (p : Pkt) (k : Nat) : Nat := nth p.params k

/-- The packet that words spell. -/
def Pkt.ofWords (w : List Nat) : Pkt :=
  let n := nth w
  { hdr := { pver := bits (n 0) 0 4, opcode := bits (n 0) 4 8, len16 := bits (n 0) 12 8, auth := bits (n 0) 20 2,
             amode := bits (n 0) 22 3, noReply := bitAt (n 0) 25, inTxn := bitAt (n 0) 26, target := bits (n 1) 0 21,
             epoch := bits (n 2) 0 16, cmdId := bits (n 2) 16 16, origin := bits (n 3) 0 19, issuer := bits (n 3) 19 4,
             txn := bits (n 4) 0 24, ownerDie := bits (n 5) 0 17, ownerPart := bits (n 5) 17 4, ownerGen := bits (n 5) 21 8,
             ownerIsPart := bitAt (n 5) 29, issue := n 6, tagSeq := n 7, tag := n 8 + 2 ^ 32 * n 9,
             resolved := bits (n 10) 0 17, resolvedValid := bitAt (n 10) 17 },
    params := w.drop 12 }

/-- A record as the bytes that a link carries (R193). -/
def Rec.wire (r : Rec) : List Nat := r.bytes ++ leBytes 4 r.trailer

/-- Length in bytes of an item of virtual channel vc from its first word (R173): records on 0 to 3, packets on 4,
ledger messages on 5. -/
def itemLen (vc w : Nat) : Nat :=
  if vc = 4 then 16 * bits w 12 8 else if vc = 5 then 4 * bits w 8 8 else 16 * bits w 8 8 + 4

end Sys2Proof.Machine
end

