-- ==== Sys2Proof/Machine/Sha.lean ====
section
/-! DEFINITION. The hashes the manual names by their standards: SHA-256 and SHA-384 (FIPS 180-4), HMAC-SHA-256
(FIPS 198-1), for packet tags (R379) and image signatures (R290, R319, R418, R454). -/

namespace Sys2Proof.Machine

/-- Widths and rotation counts of a hash of the family: word size, rounds, the two big and two small sigmas. -/
structure ShaAlg where
  w : Nat
  rounds : Nat
  s0 : Nat × Nat × Nat
  s1 : Nat × Nat × Nat
  g0 : Nat × Nat × Nat
  g1 : Nat × Nat × Nat

/-- SHA-256. -/
def sha256Alg : ShaAlg :=
  { w := 32, rounds := 64, s0 := (2, 13, 22), s1 := (6, 11, 25), g0 := (7, 18, 3), g1 := (17, 19, 10) }

/-- SHA-384. -/
def sha384Alg : ShaAlg :=
  { w := 64, rounds := 80, s0 := (28, 34, 39), s1 := (14, 18, 41), g0 := (1, 8, 7), g1 := (19, 61, 6) }

/-- Fractional parts of the cube roots of the first 80 primes, 64 bits each; SHA-256 uses the upper halves. -/
def shaK : List Nat :=
  [0x428A2F98D728AE22, 0x7137449123EF65CD, 0xB5C0FBCFEC4D3B2F, 0xE9B5DBA58189DBBC] ++
  [0x3956C25BF348B538, 0x59F111F1B605D019, 0x923F82A4AF194F9B, 0xAB1C5ED5DA6D8118] ++
  [0xD807AA98A3030242, 0x12835B0145706FBE, 0x243185BE4EE4B28C, 0x550C7DC3D5FFB4E2] ++
  [0x72BE5D74F27B896F, 0x80DEB1FE3B1696B1, 0x9BDC06A725C71235, 0xC19BF174CF692694] ++
  [0xE49B69C19EF14AD2, 0xEFBE4786384F25E3, 0x0FC19DC68B8CD5B5, 0x240CA1CC77AC9C65] ++
  [0x2DE92C6F592B0275, 0x4A7484AA6EA6E483, 0x5CB0A9DCBD41FBD4, 0x76F988DA831153B5] ++
  [0x983E5152EE66DFAB, 0xA831C66D2DB43210, 0xB00327C898FB213F, 0xBF597FC7BEEF0EE4] ++
  [0xC6E00BF33DA88FC2, 0xD5A79147930AA725, 0x06CA6351E003826F, 0x142929670A0E6E70] ++
  [0x27B70A8546D22FFC, 0x2E1B21385C26C926, 0x4D2C6DFC5AC42AED, 0x53380D139D95B3DF] ++
  [0x650A73548BAF63DE, 0x766A0ABB3C77B2A8, 0x81C2C92E47EDAEE6, 0x92722C851482353B] ++
  [0xA2BFE8A14CF10364, 0xA81A664BBC423001, 0xC24B8B70D0F89791, 0xC76C51A30654BE30] ++
  [0xD192E819D6EF5218, 0xD69906245565A910, 0xF40E35855771202A, 0x106AA07032BBD1B8] ++
  [0x19A4C116B8D2D0C8, 0x1E376C085141AB53, 0x2748774CDF8EEB99, 0x34B0BCB5E19B48A8] ++
  [0x391C0CB3C5C95A63, 0x4ED8AA4AE3418ACB, 0x5B9CCA4F7763E373, 0x682E6FF3D6B2B8A3] ++
  [0x748F82EE5DEFB2FC, 0x78A5636F43172F60, 0x84C87814A1F0AB72, 0x8CC702081A6439EC] ++
  [0x90BEFFFA23631E28, 0xA4506CEBDE82BDE9, 0xBEF9A3F7B2C67915, 0xC67178F2E372532B] ++
  [0xCA273ECEEA26619C, 0xD186B8C721C0C207, 0xEADA7DD6CDE0EB1E, 0xF57D4F7FEE6ED178] ++
  [0x06F067AA72176FBA, 0x0A637DC5A2C898A6, 0x113F9804BEF90DAE, 0x1B710B35131C471B] ++
  [0x28DB77F523047D84, 0x32CAAB7B40C72493, 0x3C9EBE0A15C9BEBC, 0x431D67C49C100D4C] ++
  [0x4CC5D4BECB3E42B6, 0x597F299CFC657E2A, 0x5FCB6FAB3AD6FAEC, 0x6C44198C4A475817]

/-- Initial values. -/
def sha256Init : List Nat :=
  [0x6A09E667, 0xBB67AE85, 0x3C6EF372, 0xA54FF53A] ++
  [0x510E527F, 0x9B05688C, 0x1F83D9AB, 0x5BE0CD19]
def sha384Init : List Nat :=
  [0xCBBB9D5DC1059ED8, 0x629A292A367CD507, 0x9159015A3070DD17, 0x152FECD8F70E5939] ++
  [0x67332667FFC00B31, 0x8EB44A8768581511, 0xDB0C2E0D64F98FA7, 0x47B5481DBEFA4FA4]

/-- Rotation right by n. -/
def ShaAlg.rotr (g : ShaAlg) (n x : Nat) : Nat := (x >>> n ||| x <<< (g.w - n)) % 2 ^ g.w

/-- A sum reduced to a word. -/
def ShaAlg.add (g : ShaAlg) (a b : Nat) : Nat := (a + b) % 2 ^ g.w

/-- Big sigma: three rotations. -/
def ShaAlg.big (g : ShaAlg) (r : Nat × Nat × Nat) (x : Nat) : Nat := g.rotr r.1 x ^^^ g.rotr r.2.1 x ^^^ g.rotr r.2.2 x

/-- Small sigma: two rotations and a shift. -/
def ShaAlg.small (g : ShaAlg) (r : Nat × Nat × Nat) (x : Nat) : Nat := g.rotr r.1 x ^^^ g.rotr r.2.1 x ^^^ x >>> r.2.2

/-- The round constant t. -/
def ShaAlg.k (g : ShaAlg) (t : Nat) : Nat := nth shaK t >>> (64 - g.w)

/-- One round: working variables a to h, and the message schedule as its next sixteen words. -/
def ShaAlg.round (g : ShaAlg) (t : Nat) (v sch : List Nat) : List Nat :=
  let e := nth v 4
  let ch := (e &&& nth v 5) ^^^ ((2 ^ g.w - 1 - e) &&& nth v 6)
  let a := nth v 0
  let maj := (a &&& nth v 1) ^^^ (a &&& nth v 2) ^^^ (nth v 1 &&& nth v 2)
  let t1 := nth v 7 + g.big g.s1 e + ch + g.k t + nth sch 0
  [g.add t1 (g.big g.s0 a + maj), a, nth v 1, nth v 2, g.add (nth v 3) t1, e, nth v 5, nth v 6]

/-- The schedule moved on by one word. -/
def ShaAlg.next (g : ShaAlg) (sch : List Nat) : List Nat :=
  sch.drop 1 ++ [g.add (g.small g.g1 (nth sch 14) + nth sch 9) (g.small g.g0 (nth sch 1) + nth sch 0)]

/-- The rounds left, from round t on. -/
def ShaAlg.run (g : ShaAlg) (t : Nat) : Nat → List Nat → List Nat → List Nat
  | 0, v, _ => v
  | n + 1, v, sch => ShaAlg.run g (t + 1) n (g.round t v sch) (g.next sch)

/-- A big-endian number from bytes. -/
def ofBeBytes (bs : List Nat) : Nat := bs.foldl (fun a b => a * 256 + b % 256) 0

/-- n big-endian bytes of v. -/
def beBytes (n v : Nat) : List Nat := (leBytes n v).reverse

/-- Words of n bytes, big-endian, from a byte list. -/
def beWords (n : Nat) : Nat → List Nat → List Nat
  | 0, _ => []
  | k + 1, bs => ofBeBytes (bs.take n) :: beWords n k (bs.drop n)

/-- One block through the compression function. -/
def ShaAlg.block (g : ShaAlg) (h bs : List Nat) : List Nat :=
  let v := g.run 0 g.rounds h (beWords (g.w / 8) 16 bs)
  (h.zip v).map fun x => g.add x.1 x.2

/-- n blocks. -/
def ShaAlg.blocks (g : ShaAlg) : Nat → List Nat → List Nat → List Nat
  | 0, h, _ => h
  | n + 1, h, bs => ShaAlg.blocks g n (g.block h (bs.take (2 * g.w))) (bs.drop (2 * g.w))

/-- The padded message. -/
def ShaAlg.pad (g : ShaAlg) (bs : List Nat) : List Nat :=
  let b := 2 * g.w
  let l := g.w / 4
  let z := (b - (bs.length + 1 + l) % b) % b
  bs ++ [0x80] ++ List.replicate z 0 ++ beBytes l (8 * bs.length)

/-- SHA-256 of a byte list. -/
def sha256 (bs : List Nat) : List Nat :=
  let m := sha256Alg.pad bs
  (sha256Alg.blocks (m.length / 64) sha256Init m).flatMap (beBytes 4)

/-- SHA-384 of a byte list. -/
def sha384 (bs : List Nat) : List Nat :=
  let m := sha384Alg.pad bs
  ((sha384Alg.blocks (m.length / 128) sha384Init m).take 6).flatMap (beBytes 8)

/-- HMAC-SHA-256 under a key of at most 64 bytes. -/
def hmac256 (key bs : List Nat) : List Nat :=
  let k := key ++ List.replicate (64 - key.length) 0
  sha256 (k.map (· ^^^ 0x5C) ++ sha256 (k.map (· ^^^ 0x36) ++ bs))

end Sys2Proof.Machine
end

