-- ==== Sys2Proof/Machine/Ecdsa.lean ====
section
/-! DEFINITION. ECDSA over P-384 as FIPS 186-5 verifies it, for signature blocks (R290). -/

namespace Sys2Proof.Machine

/-- Field prime, order, coefficient b and base point of P-384. -/
def p384 : Nat := 2 ^ 384 - 2 ^ 128 - 2 ^ 96 + 2 ^ 32 - 1
def n384 : Nat :=
  0xFFFFFFFFFFFFFFFFFFFFFFFFFFFFFFFFFFFFFFFFFFFFFFFFC7634D81F4372DDF581A0DB248B0A77AECEC196ACCC52973
def b384 : Nat :=
  0xB3312FA7E23EE7E4988E056BE3F82D19181D9C6EFE8141120314088F5013875AC656398D8A2ED19D2A85C8EDD3EC2AEF
def gx384 : Nat :=
  0xAA87CA22BE8B05378EB1C71EF320AD746E1D3B628BA79B9859F741E082542A385502F25DBF55296C3A545E3872760AB7
def gy384 : Nat :=
  0x3617DE4A96262C6F5D9E98BF9292DC29F8F41DBD289A147CE9DA3113B5F0B8C00A60B1CE1D7E819D7A431D7C90EA0E5F

/-- b^e modulo m, over n bits of e. -/
def modPow (m : Nat) : Nat → Nat → Nat → Nat
  | 0, _, _ => 1 % m
  | n + 1, b, e =>
    let r := modPow m n (b * b % m) (e / 2)
    if e % 2 = 1 then r * b % m else r

/-- Inverse modulo a prime m of 384 bits. -/
def modInv (m a : Nat) : Nat := modPow m 384 a (m - 2)

/-- A point of the curve in projective coordinates X, Y, Z with x = X/Z^2 and y = Y/Z^3; Z = 0 is infinity. -/
abbrev EcPt := Nat × Nat × Nat

/-- The difference of two field elements. -/
def fSub (a b : Nat) : Nat := (a + p384 - b) % p384

/-- A point doubled. -/
def ecDouble (q : EcPt) : EcPt :=
  let (x, y, z) := q
  let a := 3 * (fSub x (z * z % p384)) % p384 * ((x + z * z) % p384) % p384
  let yy := y * y % p384
  let b := 4 * x * yy % p384
  let x' := fSub (a * a % p384) (2 * b % p384)
  (x', fSub (a * fSub b x' % p384) (8 * yy * yy % p384), 2 * y * z % p384)

/-- The sum of two points. -/
def ecAdd (q r : EcPt) : EcPt :=
  if q.2.2 = 0 then r else if r.2.2 = 0 then q else
  let (x1, y1, z1) := q
  let (x2, y2, z2) := r
  let z11 := z1 * z1 % p384
  let z22 := z2 * z2 % p384
  let u1 := x1 * z22 % p384
  let u2 := x2 * z11 % p384
  let s1 := y1 * z22 % p384 * z2 % p384
  let s2 := y2 * z11 % p384 * z1 % p384
  if u1 = u2 then (if s1 = s2 then ecDouble q else (1, 1, 0)) else
  let h := fSub u2 u1
  let t := fSub s2 s1
  let hh := h * h % p384
  let hhh := h * hh % p384
  let v := u1 * hh % p384
  let x := fSub (fSub (t * t % p384) hhh) (2 * v % p384)
  (x, fSub (t * fSub v x % p384) (s1 * hhh % p384), z1 * z2 % p384 * h % p384)

/-- k times a point, over n bits of k. -/
def ecMul : Nat → Nat → EcPt → EcPt
  | 0, _, _ => (1, 1, 0)
  | n + 1, k, q =>
    let r := ecMul n (k / 2) (ecDouble q)
    if k % 2 = 1 then ecAdd r q else r

/-- The affine x of a point other than infinity. -/
def ecX (q : EcPt) : Nat :=
  let i := modInv p384 q.2.2
  q.1 * (i * i % p384) % p384

/-- A public key is a point of the curve. -/
def ecOn (x y : Nat) : Bool :=
  decide (x < p384) && decide (y < p384) && (y * y % p384 == (x * x % p384 * x + (p384 - 3) * x + b384) % p384)

/-- The signature (r, s) verifies over a SHA-384 digest under the key (x, y). -/
def ecdsaOk (x y e r s : Nat) : Bool :=
  if !ecOn x y || r == 0 || s == 0 || decide (n384 ≤ r) || decide (n384 ≤ s) then false else
  let w := modInv n384 s
  let q := ecAdd (ecMul 384 (e * w % n384) (gx384, gy384, 1)) (ecMul 384 (r * w % n384) (x, y, 1))
  q.2.2 != 0 && ecX q % n384 == r

/-- Layout of a signature block (R290): magic, KEY_ID 0 to 7, zero bytes. -/
def sigForm (b : List Nat) : Bool :=
  ofLeBytes (b.take 4) == 0x47495356 && decide (nth b 4 < 8) && ofLeBytes ((b.drop 5).take 3) == 0 &&
    ofLeBytes ((b.drop 104).take 24) == 0

/-- A signature block b verifies over the bytes msg under a key of 96 bytes, X then Y (R290, R457). -/
def sigOk (key b msg : List Nat) : Bool :=
  sigForm b && ecdsaOk (ofBeBytes (key.take 48)) (ofBeBytes ((key.drop 48).take 48)) (ofBeBytes (sha384 msg))
    (ofBeBytes ((b.drop 8).take 48)) (ofBeBytes ((b.drop 56).take 48))

end Sys2Proof.Machine
end

