-- ==== Sys2Proof/Machine/Keys.lean ====
section
/-! DEFINITION. Key slots (R457) and the signature check of an image against one (R290). -/

namespace Sys2Proof.Machine

/-- The key in slot n, as bytes. -/
def State.key (s : State) (n : Nat) : Option (List Nat) := (s.lam.keys.find? fun k => k.1 == n).map (·.2)

/-- The key of public slot n unless the slot is empty or revoked. -/
def State.pubKey (s : State) (n : Nat) : Option (List Nat) :=
  if bitAt (s.rl L.KEY_REVOKE) n then none else s.key n

/-- What checking a signature block can find. -/
inductive SigRes where
  | ok
  /-- key slot empty or revoked -/
  | key
  /-- signature does not verify -/
  | fail
deriving DecidableEq, Repr

/-- Signature block b over msg, checked against slot base + KEY_ID (R290). -/
def State.sigCheck (s : State) (base : Nat) (b msg : List Nat) : SigRes :=
  match s.pubKey (base + nth b 4) with
  | none => .key
  | some k => if 8 ≤ nth b 4 then .key else if sigOk k b msg then .ok else .fail

end Sys2Proof.Machine
end

