-- ==== Sys2Proof/Machine/OwnPkt.lean ====
section
/-! DEFINITION. Command packets that a Lamulo generates and tags itself (R378, R379). -/

namespace Sys2Proof.Machine

/-- The fleet command key that FLEET_KEY.SEL names (R457). -/
def State.fleetKey (s : State) : Option (List Nat) := s.key (32 + s.rl L.FLEET_KEY_SEL)

/-- The TAG of a FLEET packet under a key (R379): HMAC-SHA-256 over the packet with TAG zero, first eight bytes. -/
def Pkt.tagOf (p : Pkt) (key : List Nat) : Nat :=
  ofLeBytes ((hmac256 key ({ p with hdr := { p.hdr with tag := 0 } } : Pkt).bytes).take 8)

/-- A packet with its TAG computed. With an empty key slot the manual states no tag: a free value. -/
def State.signPkt (s : State) (p : Pkt) : State × Pkt :=
  match s.fleetKey with
  | some k => (s, { p with hdr := { p.hdr with tag := p.tagOf k } })
  | none => (s.free.2, { p with hdr := { p.hdr with tag := s.free.1 % 2 ^ 64 } })

/-- A packet of this Lamulo (R378): FLEET authority, ISSUER 15, the next TAG_SEQ, tagged. -/
def State.ownPkt (s : State) (op amode target : Nat) (noReply : Bool) (params : List Nat) (txn : Option Nat := none) : State × Pkt :=
  let n := (s.lam.tagSeq + 1) % 2 ^ 32
  let s := { s with lam := { s.lam with tagSeq := n } }
  s.signPkt ⟨{ opcode := op, len16 := 3 + ceilDiv params.length 4, auth := 2, amode := amode, noReply := noReply, inTxn := txn.isSome,
               target := target, epoch := s.rl L.CFG_EPOCH, origin := s.nodeNo, issuer := 15,
               txn := txn.getD 0, ownerGen := s.rl L.STAT_NODE_GEN, issue := short (s.now .lam), tagSeq := n }, params⟩

/-- An own packet sent down the tree on the command credit class. -/
def State.cmdDown (s : State) (d : Dst) (op amode target : Nat) (params : List Nat) (txn : Option Nat := none) : State :=
  let p := s.ownPkt op amode target true params txn
  p.1.send d 4 (.cmd p.2)

end Sys2Proof.Machine
end

