-- ==== Sys2Proof/Machine/ForestImg.lean ====
section
/-! DEFINITION. Forest images: their fields and the checks of a load (R278 to R291). -/

namespace Sys2Proof.Machine

/-- An image: bytes from its base on. -/
abbrev Img := List Nat

/-- Little-endian fields of an image. -/
def Img.u8 (m : Img) (o : Nat) : Nat := nth m o
def Img.u16 (m : Img) (o : Nat) : Nat := ofLeBytes ((m.drop o).take 2)
def Img.u32 (m : Img) (o : Nat) : Nat := ofLeBytes ((m.drop o).take 4)
def Img.u64 (m : Img) (o : Nat) : Nat := ofLeBytes ((m.drop o).take 8)

/-! ### Header (R279) -/

def Img.outputs (m : Img) : Nat := m.u8 5
def Img.leafFmt (m : Img) : Nat := bits (m.u8 6) 0 2
def Img.scopeDie (m : Img) : Bool := bitAt (m.u8 6) 2
def Img.shadow (m : Img) : Bool := bitAt (m.u8 6) 3
def Img.model (m : Img) : Nat := m.u16 8
def Img.nFeat (m : Img) : Nat := bits (m.u32 0xC) 0 11
def Img.nCross (m : Img) : Nat := bits (m.u32 0xC) 11 9
def Img.nCtab (m : Img) : Nat := bits (m.u32 0xC) 20 9
def Img.nTrees (m : Img) : Nat := m.u32 0x10
def Img.nWide (m : Img) : Nat := m.u32 0x14
def Img.size (m : Img) : Nat := m.u64 0x18
def Img.bias (m : Img) (o : Nat) : Nat := m.u32 (0x20 + 4 * o)
def Img.qb (m : Img) (o : Nat) : Nat := m.u32 (0x30 + 4 * o)
def Img.featOfs (m : Img) : Nat := m.u64 0x40
def Img.binOfs (m : Img) : Nat := m.u64 0x48
def Img.ctabOfs (m : Img) : Nat := m.u64 0x50
def Img.dirOfs (m : Img) : Nat := m.u64 0x58
def Img.treeOfs (m : Img) : Nat := m.u64 0x60
def Img.shdOfs (m : Img) : Nat := m.u64 0x68
def Img.sigOfs (m : Img) : Nat := m.u64 0x70

/-! ### Features (R280, R281) -/

/-- A feature entry. -/
structure Feat where
  kind : Nat
  sub : Nat
  own : Bool
  w8 : Bool
  cat : Bool
  log2p : Bool
  lag : Nat
  counter : Nat
  minWarm : Nat
  ctab : Nat
  nEdges : Nat
  offset : Nat
  scale : Nat
  lo : Nat
  hi : Nat
  binIdx : Nat
  a : Nat
  b : Nat
  op : Nat

/-- Word k of feature entry j. -/
def Img.featWord (m : Img) (j k : Nat) : Nat := m.u32 (m.featOfs + 32 * j + 4 * k)

/-- Feature j. -/
def Img.feat (m : Img) (j : Nat) : Feat :=
  let w := m.featWord j
  { kind := bits (w 0) 0 4, sub := bits (w 0) 4 2, own := bitAt (w 0) 6, w8 := bitAt (w 0) 7, cat := bitAt (w 0) 8,
    log2p := bitAt (w 0) 9, lag := bits (w 0) 10 5, counter := bits (w 0) 15 12, minWarm := bits (w 1) 0 16,
    ctab := bits (w 1) 16 8, nEdges := bits (w 1) 24 8, offset := w 2, scale := w 3, lo := w 4, hi := w 5, binIdx := w 6,
    a := bits (w 7) 0 10, b := bits (w 7) 10 10, op := bits (w 7) 20 3 }

/-- A crossed feature. -/
def Feat.cross (f : Feat) : Bool := f.kind == 9

/-- The MISS code (R249). -/
def Feat.miss (f : Feat) : Nat := if f.w8 then 255 else 15

/-- All features. -/
def Img.feats (m : Img) : List Feat := (List.range m.nFeat).map m.feat

/-- Edges of a feature (R281). -/
def Img.edges (m : Img) (f : Feat) : List Nat := (List.range f.nEdges).map fun k => m.u32 (m.binOfs + 4 * (f.binIdx + k))

/-- The value is finite. -/
def f32Fin (v : Nat) : Bool := (f32.dec v).isFin

/-- R280: the fields of feature j are not rejected. -/
def Img.featOk (m : Img) (j : Nat) : Bool :=
  let f := m.feat j
  let sub := match f.kind with
    | 4 => true
    | 5 => f.sub != 3
    | 6 => decide (f.sub < 2)
    | 7 => decide (f.sub < 2)
    | _ => f.sub == 0
  decide (f.kind < 10) && sub && (!f.own || (decide (f.kind < 5) && !m.scopeDie)) &&
    (f.kind != 6 || f.cat) && !(f.cross && f.cat) && decide (m.featWord j 0 / 2 ^ 27 = 0) && decide (m.featWord j 7 / 2 ^ 23 = 0) &&
    (!f.cat || decide (f.ctab < m.nCtab)) && f32.le f.lo f.hi && !(f.cross && f.scale != 0)

/-- Strictly ascending FP32 values. -/
def ascending : List Nat → Bool
  | a :: b :: l => f32.lt a b && ascending (b :: l)
  | _ => true

/-- R281: the edge rule. -/
def Img.edgesOk (m : Img) (f : Feat) : Bool :=
  if f.cat then f.nEdges == 0 else
  decide (1 ≤ f.nEdges) && decide (f.nEdges ≤ if f.w8 then 254 else 14) &&
    decide (m.binOfs + 4 * (f.binIdx + f.nEdges) ≤ m.ctabOfs) && (m.edges f).all f32Fin && ascending (m.edges f)

/-- R280, R249: the rules of a crossed feature j. -/
def Img.crossOk (m : Img) (j : Nat) : Bool :=
  let f := m.feat j
  let base := fun i => let g := m.feat i; decide (i < j) && !g.cross && !g.cat
  !f.cross || (base f.a && base f.b && decide (f.op < 5) && f32Fin f.offset)

/-- R281: the code rule of category table c. -/
def Img.ctabOk (m : Img) (c : Nat) : Bool :=
  let users := m.feats.filter fun f => f.cat && f.ctab == c
  let top := if users.any (fun f => !f.w8) then 14 else 254
  (List.range 256).all fun k => let v := m.u8 (m.ctabOfs + 256 * c + k); decide (v ≤ top) || users.all fun f => f.miss == v

/-! ### Trees (R282 to R285) -/

/-- A directory entry, its body and shadow as offsets from the image base. -/
structure Tree where
  body : Nat
  len : Nat
  wide : Bool
  form : Nat
  out : Nat
  depth : Nat
  shd : Nat
  maxDiff : Nat

/-- Word k of directory entry t. -/
def Img.dirWord (m : Img) (t k : Nat) : Nat := m.u32 (m.dirOfs + 32 * t + 4 * k)

/-- Tree t. -/
def Img.tree (m : Img) (t : Nat) : Tree :=
  let w := m.dirWord t
  { body := m.treeOfs + m.u64 (m.dirOfs + 32 * t) % 2 ^ 48, len := w 2, wide := bits (w 3) 0 2 == 1, form := bits (w 3) 0 2,
    out := bits (w 3) 2 2, depth := bits (w 3) 8 8, shd := m.shdOfs + m.u64 (m.dirOfs + 32 * t + 16), maxDiff := w 6 }

/-- All trees in image order. -/
def Img.trees (m : Img) : List Tree := (List.range m.nTrees).map m.tree

/-- Leaves of a tree: their number and place. -/
def Img.nLeaves (m : Img) (t : Tree) : Nat := if t.wide then 256 else m.u32 (t.body + 4)
def Img.leafOfs (m : Img) (t : Tree) : Nat := if t.wide then 480 else m.u32 (t.body + 12)

/-- Bytes of l leaves in a format (R285). -/
def leafBytes (fmt l : Nat) : Nat :=
  match fmt with
  | 0 => 16 * ceilDiv l 32 + 8 * ceilDiv (ceilDiv l 32) 8
  | 1 => l
  | _ => 2 * l

/-- An E4M3 code (R257): bias 7, no infinity. -/
def e4m3 (c : Nat) : Fp :=
  let neg := bitAt c 7
  let e := bits c 3 4
  let m := bits c 0 3
  if c % 128 = 127 then .nan else if e = 0 then .fin neg m (-9) else .fin neg (8 + m) ((e : Int) - 10)

/-- An E2M1 code (R257). -/
def e2m1 (c : Nat) : Fp := .fin (bitAt c 3) (nth [0, 1, 2, 3, 4, 6, 8, 12] (c % 8)) (-1)

/-- Leaf n of a tree, decoded exactly (R257, R285). -/
def Img.leaf (m : Img) (t : Tree) (n : Nat) : Fp :=
  let o := t.body + m.leafOfs t
  match m.leafFmt with
  | 0 =>
    let c := m.u8 (o + n / 2)
    (e2m1 (if n % 2 = 0 then c % 16 else c / 16)).mul (e4m3 (m.u8 (o + 16 * ceilDiv (m.nLeaves t) 32 + n / 32)))
  | 1 => e4m3 (m.u8 (o + n))
  | _ => f16.dec (m.u16 (o + 2 * n))

/-- Shadow leaf n of a tree; an FP16 model's primary leaf (R266). -/
def Img.shadowLeaf (m : Img) (t : Tree) (n : Nat) : Fp := if m.leafFmt = 2 then m.leaf t n else f16.dec (m.u16 (t.shd + 2 * n))

/-- R282: directory entry t, and that its body, node array, leaves and shadow block lie in their places. -/
def Img.treeOk (m : Img) (k : Nat) : Bool :=
  let t := m.tree k
  let w := m.dirWord k
  let fp16 := m.leafFmt == 2
  let l := m.nLeaves t
  decide (w 0 % 64 = 0) && decide (w 1 / 2 ^ 16 = 0) && decide (t.len % 64 = 0) && decide (t.form < 2) &&
    decide (t.out < m.outputs) && decide (w 3 / 2 ^ 16 = 0) && decide (w 4 % 64 = 0) && (!fp16 || (w 4 == 0 && w 5 == 0 && w 6 == 0)) &&
    w 7 == 0 && decide (t.body + t.len ≤ m.shdOfs) &&
    (t.wide || (decide (16 ≤ t.len) && decide (1 ≤ m.u32 t.body) && decide (m.u32 t.body ≤ 262144) &&
      decide (16 + 8 * m.u32 t.body ≤ t.len) && decide (m.leafOfs t + leafBytes m.leafFmt l ≤ t.len))) &&
    (fp16 || !m.shadow || decide (t.shd + 64 * ceilDiv (2 * l) 64 ≤ m.sigOfs))

/-- Level node i of a tree, 64 bits (R283). -/
def Img.node (m : Img) (t : Tree) (i : Nat) : Nat := m.u64 (t.body + 16 + 8 * i)

def nodeKind (n : Nat) : Nat := bits n 0 2
def nodeLeaf (n : Nat) : Nat := bits n 2 24
def nodeFeat (n : Nat) : Nat := bits n 2 10
def nodeDefLeft (n : Nat) : Bool := bitAt n 12
def nodeRight (n : Nat) : Nat := bits n 14 18

/-- R283: the fields of node n. -/
def Img.nodeOk (m : Img) (t : Tree) (n : Nat) : Bool :=
  let f := m.feat (nodeFeat n)
  let hi := n / 2 ^ 32
  let inner := !bitAt n 13 && decide (nodeFeat n < m.nFeat)
  match nodeKind n with
  | 0 => decide (nodeLeaf n < m.nLeaves t) && decide (n / 2 ^ 26 = 0)
  | 1 => inner && !f.cat && decide (bits hi 0 8 < f.miss) && decide (hi / 2 ^ 8 = 0)
  | 2 => inner && f.cat &&
      (if f.w8 then decide (m.u32 (t.body + 8) + 32 * hi + 32 ≤ t.len) else decide (hi / 2 ^ 16 = 0))
  | _ => inner && f.cross && f32Fin hi

/-- Pre-order walk of a node array from index i at depth d; st holds the right children to come, index and depth.
Answers the largest depth reached, none where a node is unreachable or reached twice. -/
def preorder (i d deep : Nat) (st : List (Nat × Nat)) : List Nat → Option Nat
  | [] => none
  | n :: ns =>
    if nodeKind n = 0 then
      match st with
      | [] => if ns = [] then some (max deep d) else none
      | (r, d') :: st => if r = i + 1 then preorder (i + 1) d' (max deep d) st ns else none
    else if i < nodeRight n then preorder (i + 1) (d + 1) deep ((nodeRight n, d + 1) :: st) ns
    else none

/-- Nodes of a level tree. -/
def Img.nodes (m : Img) (t : Tree) : List Nat := (List.range (m.u32 t.body)).map (m.node t)

/-- Depth of a level tree, none where its nodes are not a tree in pre-order (R283). -/
def Img.depthOf (m : Img) (t : Tree) : Option Nat := preorder 0 0 0 [] (m.nodes t)

/-- Slot j, comparator slot and threshold of a wide body (R284). -/
def Img.wSlot (m : Img) (t : Tree) (j : Nat) : Nat := m.u16 (t.body + 2 * j)
def Img.wCmp (m : Img) (t : Tree) (j : Nat) : Nat := bits (m.u16 (t.body + 64 + 5 * j / 8)) (5 * j % 8) 5
def Img.wT (m : Img) (t : Tree) (j : Nat) : Nat := m.u8 (t.body + 224 + j)

/-- R284. -/
def Img.wideOk (m : Img) (t : Tree) : Bool :=
  let fin := 480 + leafBytes m.leafFmt 256
  decide (t.len = 64 * ceilDiv fin 64) &&
    ((List.range 32).all fun j =>
      let w := m.wSlot t j
      decide (w / 2 ^ 12 = 0) && (!bitAt w 11 || (decide (bits w 0 10 < m.nFeat) && !(m.feat (bits w 0 10)).cat))) &&
    ((List.range 255).all fun j =>
      let w := m.wSlot t (m.wCmp t j)
      bitAt w 11 && decide (m.wT t j < (m.feat (bits w 0 10)).miss)) &&
    decide (m.u8 (t.body + 223) / 8 = 0) && m.u8 (t.body + 479) == 0 &&
    ((List.range (t.len - fin)).all fun k => m.u8 (t.body + fin + k) == 0)

/-- No NaN leaf or scale, no infinite leaf, in the primary and the shadow leaves. -/
def Img.leavesOk (m : Img) (t : Tree) : Bool :=
  (List.range (m.nLeaves t)).all fun n => (m.leaf t n).isFin && (!m.shadow || (m.shadowLeaf t n).isFin)

/-- The magnitude of an exact value. -/
def Fp.abs : Fp → Fp
  | .fin _ m e => .fin false m e
  | .inf _ => .inf false
  | .nan => .nan

/-- An exact magnitude rounded up to FP32. -/
def f32Up : Fp → Nat
  | .fin _ m e => f32.roundMag true m 1 e
  | .inf _ => f32.infBits
  | .nan => f32.nanBits

/-- The larger of two exact values. -/
def Fp.max (a b : Fp) : Fp := if a.lt b then b else a

/-- Exact zero. -/
def Fp.zero : Fp := .fin false 0 0

/-- MAXDIFF of a tree as the load check recomputes it (R286). -/
def Img.maxDiffOf (m : Img) (t : Tree) : Nat :=
  f32Up ((List.range (m.nLeaves t)).foldl (fun a n => a.max ((m.leaf t n).add (m.shadowLeaf t n).neg).abs) Fp.zero)

/-- QB_o as the load check recomputes it (R286). -/
def Img.qbOf (m : Img) (o : Nat) : Nat :=
  f32Up ((m.trees.filter fun t => t.out == o).foldl (fun a t => a.add (f32.dec (m.maxDiffOf t))) Fp.zero)

/-- R286: stored MAXDIFF and QB values are not below the recomputed ones; an FP16 model's are zero. -/
def Img.qbOk (m : Img) : Bool :=
  if m.leafFmt = 2 then (m.trees.all fun t => t.maxDiff == 0) && (List.range m.outputs).all fun o => f32.abs (m.qb o) == 0
  else (m.trees.all fun t => f32.le (m.maxDiffOf t) t.maxDiff) && (List.range m.outputs).all fun o => f32.le (m.qbOf o) (m.qb o)

/-! ### The load check (R291) -/

/-- Sections aligned, in order and apart, within the image (R278). -/
def Img.sectionsOk (m : Img) : Bool :=
  let ofs := [m.featOfs, m.binOfs, m.ctabOfs, m.dirOfs, m.treeOfs, m.shdOfs, m.sigOfs]
  decide (m.size ≤ 2 ^ 36) && ofs.all (fun o => o % 64 == 0) && decide (256 ≤ m.featOfs) &&
    decide (m.featOfs + 32 * m.nFeat ≤ m.binOfs) && decide (m.binOfs ≤ m.ctabOfs) && decide (m.ctabOfs + 256 * m.nCtab ≤ m.dirOfs) &&
    decide (m.dirOfs + 32 * m.nTrees ≤ m.treeOfs) && decide (m.treeOfs ≤ m.shdOfs) && decide (m.shdOfs ≤ m.sigOfs) &&
    decide (m.sigOfs + 128 = m.size)

/-- R287: the counts. -/
def Img.limitsOk (m : Img) : Bool :=
  decide (1 ≤ m.nTrees) && decide (m.nTrees ≤ 2 ^ 24) && decide (1 ≤ m.nFeat) && decide (m.nFeat ≤ 1024) &&
    decide (m.nCross ≤ 256) && decide (m.nCtab ≤ 256) && decide (1 ≤ m.outputs) && decide (m.outputs ≤ 4) &&
    (m.feats.filter Feat.cross).length == m.nCross && (m.trees.filter (·.wide)).length == m.nWide

/-- The checks that follow the signature, in order: the status of the first that fails. -/
def Img.bodyStatus (m : Img) : Nat :=
  let fs := List.range m.nFeat
  let ts := m.trees
  let level := ts.filter fun t => !t.wide
  let wide := ts.filter (·.wide)
  if !m.limitsOk then 0x30
  else if !fs.all m.featOk then 0x31
  else if !m.feats.all m.edgesOk then 0x32
  else if !fs.all m.crossOk then 0x33
  else if !(List.range m.nCtab).all m.ctabOk then 0x34
  else if !(List.range m.nTrees).all m.treeOk then 0x40
  else if !level.all (fun t => (m.nodes t).all (m.nodeOk t) && (m.depthOf t).isSome) then 0x41
  else if !(level.all (fun t => decide (t.depth ≤ 24) && m.depthOf t == some t.depth) && wide.all fun t => t.depth == 8) then 0x42
  else if !wide.all m.wideOk then 0x43
  else if !ts.all m.leavesOk then 0x50
  else if m.leafFmt ≠ 2 ∧ !m.shadow then 0x51
  else if !m.qbOk then 0x52
  else 0x01

/-- The image at a DDR address. -/
def State.imgAt (s : State) (base len : Nat) : Img := s.ddrBytes base len

/-- The status of a load of len bytes at base (R291). poison: an uncorrectable error is met during the load. -/
def State.loadStatus (s : State) (base len : Nat) (poison : Bool) : Nat :=
  let h := s.imgAt base 256
  if base % 4096 ≠ 0 ∨ s.ddrSize < base + len ∨ !s.ddrOk then 0x10
  else if s.poisoned base 256 then 0x60
  else if len ≠ h.size then 0x10
  else if h.u32 0 ≠ 0x524F4656 then 0x11
  else if h.u8 4 ≠ 1 ∨ h.leafFmt = 3 ∨ (h.shadow ∧ h.leafFmt = 2) then 0x12
  else if !h.sectionsOk then 0x13
  else if poison || s.poisoned base len then 0x60
  else
    let m := s.imgAt base len
    match s.sigCheck 4 ((m.drop m.sigOfs).take 128) (m.take m.sigOfs) with
    | .key => 0x20
    | .fail => 0x21
    | .ok => m.bodyStatus

end Sys2Proof.Machine
end

