-- ==== Sys2Proof/Machine/Package.lean ====
section
/-! DEFINITION. Gauntlet packages: their fields, the checks of a load, and the place of a die in the sweep (R316 to R319,
R331). -/

namespace Sys2Proof.Machine

/-- Header fields of a package. -/
def pkgId (m : Img) : Nat := m.u16 5
def pkgLicensee (m : Img) : Nat := m.u16 8
def pkgMinMinor (m : Img) : Nat := m.u8 10
def pkgMinMajor (m : Img) : Nat := m.u8 11
def pkgItems (m : Img) : Nat := bits (m.u32 0xC) 0 12
def pkgBytes (m : Img) : Nat := m.u64 0x10
def pkgDir (m : Img) : Nat := m.u64 0x18
def pkgData (m : Img) : Nat := m.u64 0x20
def pkgSig (m : Img) : Nat := m.u64 0x28

/-- The eight words of item n's directory entry (R317). -/
def pkgEntry (m : Img) (n : Nat) : List Nat := (List.range 8).map fun k => m.u32 (pkgDir m + 32 * n + 4 * k)

/-- The data of an item. -/
def pkgItemData (m : Img) (n : Nat) : List Nat :=
  let e := pkgEntry m n
  (m.drop (pkgData m + nth e 3)).take (nth e 4)

/-- ITEM_LEN and OUT_BEATS in range. -/
def pkgLimitOk (e : List Nat) : Bool :=
  decide (1 ≤ nth e 4) && decide (nth e 4 ≤ 131072) &&
    (bits (nth e 0) 0 2 != 0 || (decide (1 ≤ bits (nth e 7) 0 11) && decide (bits (nth e 7) 0 11 ≤ 1024)))

/-- R317: the other fields of an entry, and the place of the item's data. -/
def pkgItemOk (m : Img) (e : List Nat) : Bool :=
  let w := nth e
  let kind := bits (w 0) 0 2
  decide (kind < 2) && decide (w 0 / 2 ^ 24 = 0) && decide (w 7 / 2 ^ 11 = 0) && decide (w 3 % 64 = 0) &&
    decide (pkgData m + w 3 + w 4 ≤ pkgSig m) &&
    (if kind = 0 then
      decide (bits (w 0) 22 2 < 2) && decide (bits (w 1) 0 16 = 0) && decide (bits (w 2) 16 16 = 0) && decide (w 4 % 128 = 0)
    else
      decide (bits (w 0) 22 2 = 0) && decide (bits (w 1) 16 16 ≤ 10000) && decide (1 ≤ bits (w 2) 16 16) &&
        decide (bits (w 2) 16 16 ≤ 2000) && decide (w 4 % 4 = 0) && w 5 == 0 && w 6 == 0 && w 7 == 0)

/-- R318: the ops of a pattern, with fuel for its words. -/
def patternOk : Nat → List Nat → Bool
  | 0, _ => false
  | _, [] => false
  | n + 1, w :: ws =>
    let op := w / 2 ^ 28
    let arg := w % 2 ^ 28
    let skip := fun k => decide (k ≤ ws.length) && patternOk n (ws.drop k)
    match op with
    | 0 => arg == 0
    | 1 => decide (1 ≤ arg) && decide (arg ≤ 255) && patternOk n ws
    | 2 => decide (1 ≤ arg) && decide (arg ≤ 4095) && skip (ceilDiv arg 32)
    | 3 => decide (1 ≤ arg) && decide (arg ≤ 65535) && skip (3 * ceilDiv arg 32)
    | 4 => arg == 0 && patternOk n ws
    | 5 => arg == 0 && patternOk n ws
    | 6 => patternOk n ws
    | _ => false

/-- Sections of a package aligned, in order and apart, within it. -/
def pkgSectionsOk (m : Img) : Bool :=
  decide (pkgBytes m ≤ 2 ^ 28) && [pkgDir m, pkgData m, pkgSig m].all (fun o => o % 64 == 0) && decide (256 ≤ pkgDir m) &&
    decide (pkgDir m + 32 * pkgItems m ≤ pkgData m) && decide (pkgData m ≤ pkgSig m) && decide (pkgSig m + 128 = pkgBytes m)

/-- The checks that follow the signature. -/
def pkgBodyStatus (m : Img) : Nat :=
  let es := (List.range (pkgItems m)).map (pkgEntry m)
  if pkgItems m = 0 ∨ !es.all pkgLimitOk then 0x30
  else if !es.all (pkgItemOk m) then 0x31
  else if !(List.range (pkgItems m)).all (fun n =>
      bits (nth (pkgEntry m n) 0) 0 2 != 1 ||
        (let ws := bytesToWords (pkgItemData m n); patternOk (ws.length + 1) ws)) then 0x32
  else 0x01

/-- LOAD_STATUS of a package of len bytes at base (R319). -/
def State.pkgStatus (s : State) (base len : Nat) (poison : Bool) : Nat :=
  let h := s.imgAt base 256
  if base % 4096 ≠ 0 ∨ s.ddrSize < base + len ∨ !s.ddrOk then 0x10
  else if s.poisoned base 256 then 0x60
  else if len ≠ pkgBytes h then 0x10
  else if h.u32 0 ≠ 0x544E4756 then 0x11
  else if h.u8 4 ≠ 1 then 0x12
  else if !pkgSectionsOk h then 0x13
  else if poison || s.poisoned base len then 0x60
  else
    let m := s.imgAt base len
    match s.sigCheck 12 ((m.drop (pkgSig m)).take 128) (m.take (pkgSig m)) with
    | .key => 0x20
    | .fail => 0x21
    | .ok => pkgBodyStatus m

/-- Items of a package that have bit b of directory word 0: 2 SWEEP, 3 RETEST. -/
def pkgList (m : Img) (b : Nat) : List Nat := (List.range (pkgItems m)).filter fun n => bitAt (nth (pkgEntry m n) 0) b

/-- The active package. -/
def State.pkg (s : State) : Option Img := s.lam.gnt.active.map (·.img)

/-- Rank of the die on port q, 0 if unbound. -/
def State.portRank (s : State) (q : Nat) : Nat := let e := s.brimEntry q; if brimBound e then brimRank e else 0

/-- The sweep item due at the die's position, of m items. -/
def State.sweepTarget (s : State) (q m : Nat) : Nat :=
  let sw := s.rl L.GNTF_CFG_SWEEP_STEPS
  ((s.rl L.GNTF_STEP q + s.portRank q) % 2 ^ 32 % sw) * m / sw

/-- done[q] set to the item before the one due (R331), at a commit of a package and at the entry to ACTIVE. -/
def State.sweepAlign (s : State) (q : Nat) : State :=
  match s.pkg with
  | some p =>
    let m := (pkgList p 2).length
    if m = 0 then s else s.wl L.GNTF_SWEEP_DONE ((s.sweepTarget q m + m - 1) % m) q
  | none => s

end Sys2Proof.Machine
end

