-- ==== Sys2Proof/Machine/Link.lean ====
section
/-! DEFINITION. Link states of Ikisa Link (R183 to R187) at either end: the ITU, and port q of the Tray Lamulo. -/

namespace Sys2Proof.Machine

/-- A link end: of the ITU, or of port q. -/
def State.le (s : State) (sd : Side) (q : Nat) : LinkEnd :=
  match sd with | .itu => s.itu.link | .lam => (s.port q).link

/-- A link end replaced. -/
def State.setLe (s : State) (sd : Side) (q : Nat) (v : LinkEnd) : State :=
  match sd with
  | .itu => { s with itu := { s.itu with link := v } }
  | .lam => s.setPort q { s.port q with link := v }

/-- A register field of a link end. -/
def State.lr (s : State) (sd : Side) (q : Nat) (Fi Fl : Fld) : Nat :=
  match sd with | .itu => s.ri Fi | .lam => s.rl Fl q

/-- A register field of a link end set. -/
def State.lw (s : State) (sd : Side) (q : Nat) (Fi Fl : Fld) (v : Nat) : State :=
  match sd with | .itu => s.wi Fi v | .lam => s.wl Fl v q

/-- A counter of a link end advanced by n. -/
def State.li (s : State) (sd : Side) (q : Nat) (Fi Fl : Fld) (n : Nat := 1) : State :=
  match sd with | .itu => s.ii Fi n | .lam => s.il Fl n q

/-- LNK_STAT.STATE or ILNK_STAT.STATE. -/
def State.lkState (s : State) (sd : Side) (q : Nat) : Nat := s.lr sd q I.ILNK_STAT_STATE L.LNK_STAT_STATE

/-- The end exists: the ITU, or one of 16 ports of a Tray. -/
def State.lkEnd (s : State) (sd : Side) (q : Nat) : Bool :=
  match sd with | .itu => true | .lam => s.role == 0 && decide (q < 16)

/-- Time since the entry to the present state. -/
def State.lkFor (s : State) (sd : Side) (q : Nat) : Nat := s.now sd - (s.le sd q).since

/-- A link state entered, with SETTLING (R183). -/
def State.enterLk (s : State) (sd : Side) (q v : Nat) : State :=
  let s := s.lw sd q I.ILNK_STAT_STATE L.LNK_STAT_STATE v
  let s := s.lw sd q I.ILNK_STAT_SETTLING L.LNK_STAT_SETTLING (b2n (decide (v < 3)))
  s.setLe sd q { s.le sd q with since := s.now sd }

/-- What a Tray holds of the condition and scores of the die on port q. -/
def State.det (s : State) (q : Nat) : DetPort := s.lam.det.getD q {}

/-- The same, replaced. -/
def State.setDet (s : State) (q : Nat) (v : DetPort) : State :=
  { s with lam := { s.lam with det := setNth {} s.lam.det q v } }

/-- A LINK_DOWN or LINK_UP record of port q (R185): the port's die ID, partition 0, cur[q][0]. -/
def State.linkRec (s : State) (q typ w0 w2 : Nat) : State :=
  (s.lamRec 0 typ (s.dieId q) (s.rl L.GEN_CUR q 0) (s.now .lam) [w0, s.mc32 .lam, satN 32 w2, 0]).1

/-- The die's credit is stranded (R346). -/
def State.ldgLost (s : State) (q : Nat) : State :=
  let g := s.lam.ldg
  let p := g.ports.getD q {}
  { s with lam := { s.lam with ldg := { g with ports := setNth {} g.ports q { p with lostMc := some (s.mc .lam) } } } }

/-- The Tray's part of an exit to DOWN from NEGOTIATE or UP (R185); the pending table is cleared (R232). -/
def State.downLam (s : State) (q cause : Nat) (wasUp nego : Bool) : State :=
  let s := s.wl L.LNK_STAT_DOWN_CAUSE cause q
  let p := s.port q
  let inj := b2n p.link.injected <<< 4
  if wasUp then
    let s := s.linkRec q 0x050 (cause ||| inj) ((s.now .lam - p.upFrom) / 1000000)
    let s := (s.wl L.LNK_STAT_PORT 0 q).wl L.LNK_STAT_UNOBSERVED 1 q
    let s := (s.ldgLost q).setDet q { s.det q with pend := [] }
    let r := p.rejoin
    s.setPort q { s.port q with rejoin := { r with step := 0, unobsFrom := if p.observed then s.now .lam else r.unobsFrom },
                                observed := false }
  else if nego && !p.link.negoSaid then
    (s.linkRec q 0x050 (cause ||| inj) 0).setPort q { s.port q with link := { p.link with negoSaid := true } }
  else s

/-- A link end goes to DOWN (R184, R185): cells not acknowledged are lost with what they carried; what has come whole stays. nego: the exit is
a failure of negotiation. -/
def State.linkDown (s : State) (sd : Side) (q cause : Nat) (nego : Bool := false) : State :=
  let st := s.lkState sd q
  let up := st == 4
  let s := if up then s.li sd q I.ILNK_CNT_DOWN L.LNK_CNT_DOWN else s
  let s := match sd with
    | .lam => if st = 3 ∨ st = 4 then s.downLam q cause up nego else s
    | .itu => s
  let e := s.le sd q
  let s := s.setLe sd q { downFrom := if up then s.now sd else e.downFrom, negoSaid := e.negoSaid && !up,
                          injected := e.injected, squelch := e.squelch, withhold := e.withhold, got := e.got }
  let s := (s.lw sd q I.ILNK_STAT_FMT L.LNK_STAT_FMT 0).lw sd q I.ILNK_STAT_CHECK L.LNK_STAT_CHECK 0
  let s := s.enterLk sd q 0
  match sd with
  | .itu => if up then (s.sourceLost .itu).after .itu else s.after .itu
  | .lam => s.wl L.LNK_STAT_BLOCK_LOCK 0 q

/-- LINK_TRAIN_START (R183): 1 ms in DOWN; at the Lamulo with LNK_CTL.ENABLE = 1. -/
def execLinkTrainStart (sd : Side) (q : Nat) (s : State) : Out :=
  if s.lkEnd sd q ∧ s.lkState sd q = 0 ∧ 1000000 ≤ s.lkFor sd q ∧ (sd = .itu ∨ s.rl L.LNK_CTL_ENABLE q = 1) then
    .next (s.enterLk sd q 1)
  else .next s

/-- BLOCK_LOCK_ACQUIRED (R183): both lanes report lock and deskew. -/
def execBlockLockAcquired (sd : Side) (q : Nat) (s : State) : Out :=
  if s.lkEnd sd q ∧ s.lkState sd q = 1 then
    let s := (s.enterLk sd q 2).lw sd q I.ILNK_STAT_LOS L.LNK_STAT_LOS 0
    .next (match sd with | .itu => s | .lam => s.wl L.LNK_STAT_BLOCK_LOCK 3 q)
  else .next s

/-- TRAIN_TIMEOUT (R183): 50 ms in TRAIN. -/
def execTrainTimeout (sd : Side) (q : Nat) (s : State) : Out :=
  if s.lkEnd sd q ∧ s.lkState sd q = 1 ∧ 50000000 ≤ s.lkFor sd q then .next (s.linkDown sd q 0) else .next s

/-- SETTLE_END (R183): 1 ms after lock. -/
def execSettleEnd (sd : Side) (q : Nat) (s : State) : Out :=
  if s.lkEnd sd q ∧ s.lkState sd q = 2 ∧ 1000000 ≤ s.lkFor sd q then .next (s.enterLk sd q 3) else .next s

/-! ### Negotiation (R186) -/

/-- The agreement of an end of this generation (highest format 3, lowest 2, both checks) with a peer's HELLO. -/
def agree (maxFmt minFmt checks : Nat) : Option (Nat × Nat) :=
  let f := min 3 maxFmt
  if f < 2 ∨ f < minFmt then none
  else if bitAt checks 0 then some (f, 0)
  else if bitAt checks 1 then some (f, 1)
  else none

/-- HELLO_RX (R186). -/
def execHelloRx (sd : Side) (q ver maxFmt minFmt checks : Nat) (s : State) : Out :=
  if s.lkEnd sd q ∧ s.lkState sd q = 3 then
    let s := match sd with
      | .itu => s.wi I.ILNK_PEER (ver % 256 ||| maxFmt % 16 <<< 8 ||| minFmt % 16 <<< 12 ||| checks % 4 <<< 16)
      | .lam => (((s.wl L.LNK_PEER_IKL_VER ver q).wl L.LNK_PEER_MAX_FMT maxFmt q).wl L.LNK_PEER_MIN_FMT minFmt q).wl
          L.LNK_PEER_CHECKS checks q
    let a := agree (maxFmt % 16) (minFmt % 16) checks
    let s := s.setLe sd q { s.le sd q with agreed := a }
    .next (match sd, a with
      | .lam, none => s.wl L.LNK_STAT_NO_COMMON 1 q
      | _, _ => s)
  else .next s

/-- Receive buffers of the VCs, cells (R169). -/
def vcBuffer : Side → Nat → Nat
  | .lam, 0 => 64
  | .lam, 1 => 512
  | .lam, 2 => 128
  | .lam, 3 => 32
  | .itu, 4 => 64
  | _, 5 => 16
  | _, _ => 0

/-- A link end at its entry to UP: counts from zero, each receiver's full buffer due to be announced (R171). -/
def LinkEnd.up (e : LinkEnd) (sd : Side) (now : Nat) (fmt : Nat × Nat) : LinkEnd :=
  { since := now, agreed := some fmt, readySent := true, downFrom := e.downFrom, lastBlock := now, got := e.got,
    rx := (List.range 8).map fun v => { freed := vcBuffer sd v, due := decide (0 < vcBuffer sd v) } }

/-- The rejoin cause of a port at link-up (R157), if any. -/
def State.rejoinCause (s : State) (q : Nat) (valid degraded : Bool) : Option Nat :=
  let p := s.port q
  if !valid then some 0
  else if !p.observed && decide (s.rl L.LNK_REJOIN_MS q * 1000000 < s.now .lam - p.rejoin.unobsFrom) then some 1
  else if degraded then some 2
  else if s.rl L.LNK_CTL_REPAIR q = 1 then some 3
  else none

/-- Room for a packet in port q's CMD queue of 64 cells, of 120 bytes each, and the port not in DOWN (R183). -/
def State.cmdRoom (s : State) (q : Nat) (p : Pkt) : Bool :=
  s.rl L.LNK_STAT_STATE q != 0 && decide ((((s.port q).cmds ++ [p]).map fun k => 16 * k.len16).sum ≤ 7680)

/-- A packet queued for VC 4 of port q, or refused (R183). -/
def State.toItu (s : State) (q : Nat) (p : Pkt) : State :=
  if s.cmdRoom q p then s.setPort q { s.port q with cmds := (s.port q).cmds ++ [p] } else s.il L.LNK_CNT_CMD_REFUSED 1 q

/-- A packet the Tray Lamulo makes for the die on port q (R378), queued for VC 4. -/
def State.dieCmd (s : State) (q op : Nat) (params : List Nat) (txn : Option Nat := none) : State :=
  let p := s.ownPkt op 0 (s.dieId q) true params txn
  p.1.toItu q p.2

/-- A register word that the Tray Lamulo writes over IKL (R385): window byte offset, byte strobes and data. -/
def State.ituWriteB (s : State) (q addr strb data : Nat) : State :=
  s.dieCmd q 0x03 [addr / 4 <<< 2, 1, strb, 0, data % 2 ^ 32]

/-- A whole word written over IKL. -/
def State.ituWrite (s : State) (q addr data : Nat) : State := s.ituWriteB q addr 0xF data

/-- The ledger's part of the entry to ACTIVE (R345, R346). -/
def State.ldgActive (s : State) (q : Nat) : State :=
  let g := s.lam.ldg
  let p := g.ports.getD q {}
  { s with lam := { s.lam with ldg := { g with
      ports := setNth {} g.ports q { p with activeMc := some (s.mc .lam), lostMc := none, base := none, first := true } } } }

/-- The port becomes ACTIVE: the die is observed (R157, R158, R185), and its sweep resumes at its position (R331). -/
def State.portActive (s : State) (q : Nat) : State :=
  let s := ((s.wl L.LNK_STAT_PORT 2 q).wl L.LNK_STAT_UNOBSERVED 0 q).wl L.LNK_CTL_REPAIR 0 q
  let s := s.setPort q { s.port q with observed := true, rejoin := { (s.port q).rejoin with step := 0 } }
  ((s.ldgActive q).sweepAlign q).ituWrite q I.SMP_PHASE.addr (s.sampleSlot q)

/-- The Tray's part of the entry to UP (R157, R176, R185); straggler state is cleared at REJOIN (R235). -/
def State.upLam (s : State) (q : Nat) (fmt : Nat × Nat) (valid degraded : Bool) : State :=
  let p := s.port q
  let rj := s.rejoinCause q valid degraded
  let s := s.linkRec q 0x051 (fmt.1 ||| fmt.2 <<< 4 ||| b2n p.link.injected <<< 5 ||| b2n rj.isSome <<< 6)
    ((s.now .lam - p.link.downFrom) / 1000)
  let s := s.setPort q { s.port q with fresh := List.replicate 8 true, upFrom := s.now .lam }
  match rj with
  | none => s.portActive q
  | some c =>
    let s := s.wl L.LNK_STAT_PORT 1 q
    let s := s.setDet q { s.det q with strag := {} }
    s.setPort q { s.port q with rejoin := { (s.port q).rejoin with step := 1, cause := c, upAt := s.now .lam, gens := [], rearmed := false, stepNs := 0 } }

/-- The ITU's part of the entry to UP: ALIVE counts restart (R184). -/
def State.upItu (s : State) : State :=
  { s with itu := { s.itu with txq := { s.itu.txq with alive := List.replicate 8 0 } } }

/-- READY_RX (R186): equal to the READY this end has sent, it takes the link to UP. valid and degraded are
ITU_DIE_ID.VALID and ITIME_STAT.DEGRADED as the Tray reads them for R157. -/
def execReadyRx (sd : Side) (q fmt check : Nat) (valid degraded : Bool) (s : State) : Out :=
  let e := s.le sd q
  if s.lkEnd sd q ∧ s.lkState sd q = 3 ∧ e.readySent ∧ e.agreed = some (fmt, check) then
    let s := (s.enterLk sd q 4).lw sd q I.ILNK_STAT_FMT L.LNK_STAT_FMT fmt
    let s := s.lw sd q I.ILNK_STAT_CHECK L.LNK_STAT_CHECK check
    match sd with
    | .lam =>
      let s := s.upLam q (fmt, check) valid degraded
      .next (s.setLe .lam q (e.up .lam (s.now .lam) (fmt, check)))
    | .itu => .next ((s.upItu.setLe .itu q (e.up .itu (s.now .itu) (fmt, check))).after .itu)
  else .next s

/-- NEGOTIATE_TIMEOUT (R186): 10 ms without agreement. -/
def execNegotiateTimeout (sd : Side) (q : Nat) (s : State) : Out :=
  if s.lkEnd sd q ∧ s.lkState sd q = 3 ∧ 10000000 ≤ s.lkFor sd q then .next (s.linkDown sd q 7 true) else .next s

/-! ### Exits from UP (R184) -/

/-- A link in UP goes down. -/
def State.leaveUp (s : State) (sd : Side) (q cause : Nat) : State :=
  if s.lkState sd q = 4 then s.linkDown sd q cause else s

/-- LOSS_OF_SIGNAL (R184). -/
def execLossOfSignal (sd : Side) (q lane : Nat) (s : State) : Out :=
  if s.lkEnd sd q then
    let v := s.lr sd q I.ILNK_STAT_LOS L.LNK_STAT_LOS
    .next ((s.lw sd q I.ILNK_STAT_LOS L.LNK_STAT_LOS (setBits v (lane % 2) 1 1)).leaveUp sd q (lane % 2))
  else .next s

/-- BLOCK_LOCK_LOSS (R184): loss of block lock or BER monitor alarm. -/
def execBlockLockLoss (sd : Side) (q lane : Nat) (s : State) : Out :=
  if s.lkEnd sd q then
    let s := match sd with
      | .itu => s
      | .lam => s.wl L.LNK_STAT_BLOCK_LOCK (setBits (s.rl L.LNK_STAT_BLOCK_LOCK q) (lane % 2) 1 0) q
    .next (s.leaveUp sd q 2)
  else .next s

/-- NO_VALID_BLOCK_TIMEOUT (R184): 1 ms with no valid block. -/
def execNoValidBlockTimeout (sd : Side) (q : Nat) (s : State) : Out :=
  if s.lkEnd sd q ∧ 1000000 ≤ s.now sd - (s.le sd q).lastBlock then .next (s.leaveUp sd q 5) else .next s

/-- A valid block has come. -/
def State.lkBlock (s : State) (sd : Side) (q : Nat) : State := s.setLe sd q { s.le sd q with lastBlock := s.now sd }

/-- ALIGN_RX (R166): the skew of the lanes' ALIGN blocks, or a period in which they failed to pair. -/
def execAlignRx (sd : Side) (q skew : Nat) (paired : Bool) (s : State) : Out :=
  if s.lkEnd sd q ∧ s.lkState sd q = 4 then
    let s := s.lkBlock sd q
    let e := s.le sd q
    if paired then
      if 32 < skew then .next (s.leaveUp sd q 3) else .next (s.setLe sd q { e with alignMiss := 0 })
    else
      if 3 ≤ e.alignMiss + 1 then .next (s.leaveUp sd q 3)
      else .next (s.setLe sd q { e with alignMiss := e.alignMiss + 1 })
  else .next s

/-- LNK_CTL_RETRAIN (R184). -/
def execLnkCtlRetrain (iss : Issuer) (q : Nat) (s : State) : Out :=
  let g := s.lamGuard iss (L.LNK_CTL_RETRAIN.addr + 0x1000 * q) true 0
  if g.2 && s.lkEnd .lam q then .next (g.1.leaveUp .lam q 6) else .next g.1

/-- ILNK_CTL_RETRAIN (R184). -/
def execIlnkCtlRetrain (iss : Issuer) (s : State) : Out :=
  let g := s.ituGuard iss I.ILNK_CTL_RETRAIN.addr true 0
  if g.2 then .next (g.1.leaveUp .itu 0 6) else .next g.1

/-- LNK_CTL.ENABLE written (R184, R185). -/
def State.setLnkEnable (s : State) (q : Nat) (v : Bool) : State :=
  if v then
    if s.rl L.LNK_CTL_ENABLE q = 1 then s else
    let e := s.le .lam q
    (s.wl L.LNK_CTL_ENABLE 1 q).setLe .lam q { e with downFrom := s.now .lam, negoSaid := false }
  else
    let s := s.wl L.LNK_CTL_ENABLE 0 q
    if s.lkState .lam q = 0 then s else s.linkDown .lam q 6

/-- LNK_CTL_ENABLE_WRITE (R184). -/
def execLnkCtlEnableWrite (iss : Issuer) (q : Nat) (v : Bool) (s : State) : Out :=
  let g := s.lamGuard iss (L.LNK_CTL_ENABLE.addr + 0x1000 * q) true 0
  if g.2 && decide (q < 16) then .next (g.1.setLnkEnable q v) else .next g.1

end Sys2Proof.Machine
end

