-- ==== Sys2Proof/Machine/Miss.lean ====
section
/-! DEFINITION. DEADLINE_MISS (R204, R205). -/

namespace Sys2Proof.Machine

/-- REASON of a DEADLINE_MISS. -/
def missLate : Nat := 0
def missDropped : Nat := 1
def missCorrupt : Nat := 2
def missPoison : Nat := 3
def missLost : Nat := 4
def missNocell : Nat := 5
def missSpec : Nat := 6

/-- What a DEADLINE_MISS says of a record and its envelope. -/
def srcOf (e : Env) (r : Rec) : Src :=
  { die := r.die, srcRole := e.srcRole, cls := r.cls, typ := r.typ, seq := r.seq, short := r.short, hopT := e.hopT,
    hopK := e.hopK, hopW := e.hopW }

/-- Emit a DEADLINE_MISS (R205). One that the node's class A bucket refuses is counted, and the next one reports it. -/
def State.miss (s : State) (x : Src) (reason lateUs count : Nat) : State :=
  let a := s.lamRec 0 0x003 s.nodeId (s.rl L.STAT_NODE_GEN) (s.now .lam)
    [x.die ||| x.srcRole <<< 17 ||| x.cls <<< 20 ||| reason <<< 22 ||| (s.role + 1) <<< 26, x.seq, x.short, satN 32 lateUs,
     x.hopT ||| x.hopK <<< 16, x.hopW, count % 2 ^ 18 ||| x.typ <<< 18, s.lam.missSupp]
  if a.2 then ({ a.1 with lam := { a.1.lam with missSupp := 0 } } : State).il L.STAT_CNT_MISS
  else ({ a.1 with lam := { a.1.lam with missSupp := satN 16 (a.1.lam.missSupp + 1) } } : State).il L.STAT_CNT_MISS_SUPPRESSED

/-- Bound of a class in ns (R37): A and B. -/
def classBound (c : Nat) : Nat := if c = 0 then 2000000 else 50000000

/-- DEADLINE_CHECK (R204): age at arrival beyond the bound of class A or B. Answers whether the record is late. -/
def State.deadline (s : State) (e : Env) (r : Rec) (full : Nat) : State × Bool :=
  let age := s.now .lam - full
  if r.cls < 2 ∧ !e.missed ∧ classBound r.cls < age then
    (s.miss (srcOf e r) missLate ((age - classBound r.cls) / 1000) 1, true)
  else (s, false)

end Sys2Proof.Machine
end

