-- ==== Sys2Proof/Machine/Reduce.lean ====
section
/-! DEFINITION. Operators of reduction (R211 to R219) and their merge. -/

namespace Sys2Proof.Machine

/-- Fields of a RED_SPEC entry (R206). -/
def specCounter (w : Nat) : Nat := bits w 0 12
def specField (w : Nat) : Nat := bits w 12 2
def specOps (w : Nat) : Nat := bits w 14 7
def specGroup (w : Nat) : Nat := bits w 22 2
def specPrec (w : Nat) : Bool := bitAt w 24
def specProp (w : Nat) : Bool := bitAt w 25
def specEn (w : Nat) : Bool := bitAt w 26

/-- How the values of an entry are coded. -/
inductive ValKind where
  | int
  | fp32
  | fp64
deriving DecidableEq, Repr

/-- Code of SUM, MIN and MAX of an entry: DV as s64, FP32, and FP64 for a SUM with PREC. -/
def sumKind (w : Nat) : ValKind := if specField w = 0 then .int else if specPrec w then .fp64 else .fp32
def extKind (w : Nat) : ValKind := if specField w = 0 then .int else .fp32

/-- Format of a kind. -/
def ValKind.fmt : ValKind → Fmt
  | .fp64 => f64
  | _ => f32

/-! ### The log sketch -/

/-- m * 2^e is at most gamma^i, gamma = 129/128 (R216). -/
def leGamma (m : Nat) (e i : Int) : Bool :=
  let n := i.natAbs
  if 0 ≤ i then
    let s := scaleFrac m 1 (e + 7 * n)
    decide (s.1 ≤ 129 ^ n * s.2)
  else
    let s := scaleFrac (m * 129 ^ n) 1 (e - 7 * n)
    decide (s.1 ≤ s.2)

/-- Least i in (lo, lo + 2^k] with m * 2^e at most gamma^i, by halving. -/
def gammaFind (m : Nat) (e : Int) : Nat → Int → Int
  | 0, lo => lo + 1
  | k + 1, lo => if leGamma m e (lo + 2 ^ k) then gammaFind m e k lo else gammaFind m e k (lo + 2 ^ k)

/-- The bucket of a finite non-zero magnitude (R216). -/
def bucketOf (m : Nat) (e : Int) : Int := gammaFind m e 15 (-16384)

/-- The bucket key (R216). -/
def bucketKey (neg : Bool) (m : Nat) (e : Int) : Nat := b2n neg <<< 15 ||| (bucketOf m e + 16384).toNat % 2 ^ 15

/-- Place of a key in the order of R217: negative keys by descending i, then positive ones by ascending i. -/
def keyOrd (k : Nat) : Int := if bitAt k 15 then -1 - ((k % 2 ^ 15 : Nat) : Int) else ((k : Nat) : Int)

/-- Count n added to key k of a bucket list in order. -/
def skAdd : List (Nat × Nat) → Nat → Nat → List (Nat × Nat)
  | [], k, n => [(k, n)]
  | (k', n') :: l, k, n =>
    if k = k' then (k', n' + n) :: l
    else if keyOrd k < keyOrd k' then (k, n) :: (k', n') :: l
    else (k', n') :: skAdd l k n

/-- The lowest bucket folded into the next one, ZERO included in the order (R217), n times. -/
def Sketch.fold : Nat → Sketch → Sketch
  | 0, s => s
  | n + 1, s =>
    match s.keys with
    | (k, c) :: (k', c') :: l =>
      if bitAt k 15 && !bitAt k' 15 then Sketch.fold n { keys := (k', c') :: l, zero := s.zero + c, collapsed := s.collapsed + c }
      else Sketch.fold n { s with keys := (k', c' + c) :: l, collapsed := s.collapsed + c }
    | _ => s

/-- At most 1,024 keys remain (R217). -/
def Sketch.trim (s : Sketch) : Sketch := s.fold (s.keys.length - 1024)

/-- Merge of two sketches (R217). -/
def Sketch.merge (a b : Sketch) : Sketch :=
  Sketch.trim { keys := b.keys.foldl (fun l p => skAdd l p.1 p.2) a.keys, zero := a.zero + b.zero,
                collapsed := a.collapsed + b.collapsed }

/-! ### Operator states -/

/-- merge_mom of R215 in format f; n saturates as u32. -/
def Mom.merge (f : Fmt) (a b : Mom) : Mom :=
  if b.n = 0 then a else if a.n = 0 then b else
  let n := (a.n + b.n) % 2 ^ 32
  let d := f.sub b.mean a.mean
  { n := n, mean := f.add a.mean (f.mul d (f.div (f.ofInt b.n) (f.ofInt n))),
    m2 := f.add (f.add a.m2 b.m2) (f.mul (f.mul d d) (f.div (f.mul (f.ofInt a.n) (f.ofInt b.n)) (f.ofInt n))) }

/-- Two sums of a kind: the sum, OVF, INVALID (R212). -/
def addSum (k : ValKind) (a b : Nat) : Nat × Bool × Bool :=
  match k with
  | .int =>
    let z := toS 64 a + toS 64 b
    if (2 : Int) ^ 63 ≤ z then (2 ^ 63 - 1, true, false) else (ofS 64 z, false, false)
  | k =>
    let f := k.fmt
    let r := f.add a b
    (r, false, (f.dec r).isNan && !(f.dec a).isNan && !(f.dec b).isNan)

/-- a precedes b in the order of R213. -/
def valBefore (k : ValKind) (a b : Nat) : Bool :=
  match k with
  | .int => decide (toS 64 a < toS 64 b)
  | k => (k.fmt.dec a).before (k.fmt.dec b)

/-- The code is a NaN. -/
def valNan (k : ValKind) (a : Nat) : Bool :=
  match k with
  | .int => false
  | k => (k.fmt.dec a).isNan

/-- The lesser of two extremes, or the greater with up (R213). A NaN input wins; ties go to the lowest DIE. -/
def Extreme.pick (k : ValKind) (up : Bool) (a b : Extreme) : Extreme :=
  if valNan k a.val && valNan k b.val then (if b.arg < a.arg then b else a)
  else if valNan k a.val then a
  else if valNan k b.val then b
  else
    let ab := if up then valBefore k b.val a.val else valBefore k a.val b.val
    let ba := if up then valBefore k a.val b.val else valBefore k b.val a.val
    if ab then a else if ba then b else if b.arg < a.arg then b else a

/-- Merge of two optional states. -/
def optMerge {α : Type} (f : α → α → α) : Option α → Option α → Option α
  | none, b => b
  | a, none => a
  | some a, some b => some (f a b)

/-- Merge of two partials of an entry (R209). -/
def Partial.merge (w : Nat) (a b : Partial) : Partial :=
  let k := extKind w
  let s := match a.sum, b.sum with
    | some x, some y => let r := addSum (sumKind w) x y; (some r.1, r.2.1, r.2.2)
    | some x, none => (some x, false, false)
    | none, y => (y, false, false)
  let eMin := optMerge Nat.min a.epochMin b.epochMin
  let eMax := optMerge Nat.max a.epochMax b.epochMax
  { nIn := a.nIn + b.nIn, nMissing := a.nMissing + b.nMissing, nNan := a.nNan + b.nNan, nInf := a.nInf + b.nInf,
    nPoison := a.nPoison + b.nPoison, nV2 := a.nV2 + b.nV2, nExpected := a.nExpected + b.nExpected,
    epochMin := eMin, epochMax := eMax, mixed := a.mixed || b.mixed,
    epochMix := a.epochMix || b.epochMix || decide (eMin ≠ eMax), poisonSeen := a.poisonSeen || b.poisonSeen,
    nanProp := a.nanProp || b.nanProp,
    ovf := a.ovf || b.ovf || s.2.1, invalid := a.invalid || b.invalid || s.2.2, sum := s.1,
    min := optMerge (Extreme.pick k false) a.min b.min, max := optMerge (Extreme.pick k true) a.max b.max,
    s1 := a.s1 + b.s1, s2 := a.s2 + b.s2, m32 := a.m32.merge f32 b.m32, m64 := a.m64.merge f64 b.m64,
    sk := a.sk.merge b.sk }

/-- A die's value as a partial (R211 to R216, R219). prop: NaN-propagating semantics. -/
def diePartial (w die v : Nat) (fmt2 : Bool) (epoch : Nat) (prop : Bool) : Partial :=
  let isInt := decide (specField w = 0)
  let x : Fp := if isInt then .fin false v 0 else f32.dec v
  let c := if isInt then v else f32.enc x
  let base : Partial := { nExpected := 1, epochMin := some epoch, epochMax := some epoch, mixed := fmt2, nV2 := b2n fmt2, nanProp := prop }
  let s := match sumKind w with | .int => v | .fp32 => c | .fp64 => f32.conv f64 v
  if x.isNan then
    if prop then
      { base with nIn := 1, nNan := 1, sum := some (match sumKind w with | .int => v | k => k.fmt.nanBits),
                  min := some ⟨c, die⟩, max := some ⟨c, die⟩, m32 := ⟨1, f32.nanBits, f32.nanBits⟩ }
    else { base with nNan := 1 }
  else
    let p := { base with nIn := 1, nInf := b2n (!x.isFin), sum := some s, min := some ⟨c, die⟩, max := some ⟨c, die⟩ }
    match x with
    | .fin neg m e =>
      let p := { p with m32 := ⟨1, if isInt then f32.ofInt v else c, 0⟩ }
      if fmt2 then p else
      { p with s1 := if isInt then v else 0, s2 := if isInt then v * v else 0,
               m64 := ⟨1, if isInt then f64.ofInt v else f32.conv f64 v, 0⟩,
               sk := if m = 0 then { zero := 1 } else { keys := [(bucketKey neg m e, 1)] } }
    | _ => p

/-- A partial made without NaN-propagating semantics, taken into a cell that has them (R219): its NaN inputs count in N_IN too
and make SUM, MIN, MAX and MOM_FP32 the canonical NaN. It does not name them: arg is an open value. -/
def Partial.spread (p : Partial) (w arg : Nat) : Partial :=
  if p.nanProp || p.nNan == 0 then { p with nanProp := true } else
  let x : Extreme := ⟨f32.nanBits, arg % 2 ^ 17⟩
  { p with nanProp := true, nIn := p.nIn + p.nNan, sum := some (match sumKind w with | .int => p.sum.getD 0 | k => k.fmt.nanBits),
           min := some x, max := some x, m32 := ⟨p.m32.n + p.nNan, f32.nanBits, f32.nanBits⟩ }

/-- The balanced binary merge of a list of 2^n leaves (R209). -/
def mergeTree (w : Nat) : Nat → List (Option Partial) → Option Partial
  | 0, l => l.head?.join
  | n + 1, l => optMerge (Partial.merge w) (mergeTree w n (l.take (2 ^ n))) (mergeTree w n (l.drop (2 ^ n)))

/-! ### Records of partials (R222, R223) -/

/-- A 64-bit value as two words. -/
def u64Words (v : Nat) : List Nat := [v % 2 ^ 32, v / 2 ^ 32 % 2 ^ 32]

/-- The twelve leading words (R222). -/
def Partial.headWords (p : Partial) (c : Cell) (level : Nat) (prop : Bool) (epoch : Nat) : List Nat :=
  [c.spec ||| specGroup c.word <<< 10 ||| c.gid <<< 12 ||| level <<< 19 ||| b2n p.mixed <<< 22 ||| b2n p.epochMix <<< 23 |||
     b2n p.poisonSeen <<< 24 ||| b2n p.ovf <<< 25 ||| b2n p.invalid <<< 26 ||| b2n prop <<< 27,
   c.mc % 2 ^ 32, c.slot, p.nIn, p.nMissing, p.nNan, p.nInf, p.nPoison, p.nV2,
   p.epochMin.getD epoch ||| p.epochMax.getD epoch <<< 16, p.nExpected, 0]

/-- The block of MIN or MAX: none is the canonical NaN with ARG_VALID = 0; for an INT64 value the code is open. -/
def extBlock (w : Nat) (open' : Nat) : Option Extreme → List Nat
  | some x => u64Words x.val ++ [x.arg % 2 ^ 17 ||| 1 <<< 17, 0]
  | none => u64Words (if specField w = 0 then open' else f32.nanBits) ++ [0, 0]

/-- The operator blocks in OPS bit order (R222). An INVALID cell by R221 carries zeros. -/
def Partial.blocks (p : Partial) (w open' : Nat) (zero : Bool) : List Nat :=
  let o := specOps w
  let z := fun (n : Nat) (l : List Nat) => if zero then List.replicate n 0 else l
  (if bitAt o 0 then z 4 (u64Words (p.sum.getD 0) ++ [0, 0]) else []) ++
  (if bitAt o 1 then z 4 (extBlock w open' p.min) else []) ++
  (if bitAt o 2 then z 4 (extBlock w (open' / 2 ^ 64) p.max) else []) ++
  (if bitAt o 3 then z 8 (u64Words (ofS 128 p.s1) ++ u64Words (ofS 128 p.s1 / 2 ^ 64) ++ u64Words p.s2 ++ u64Words (p.s2 / 2 ^ 64)) else []) ++
  (if bitAt o 4 then z 4 [p.m32.n, p.m32.mean, p.m32.m2, 0] else []) ++
  (if bitAt o 5 then z 4 (u64Words p.m64.mean ++ u64Words p.m64.m2) else [])

/-- Words of the RED_SKETCH records (R223): heads and entries of each part. -/
def Sketch.parts (s : Sketch) (zero : Bool) : List (List Nat) :=
  let keys := if zero then [] else s.keys
  let n := keys.length
  let parts := max 1 (ceilDiv n 500)
  (List.range parts).map fun i =>
    [if zero then 0 else s.zero % 2 ^ 32, if zero then 0 else s.collapsed % 2 ^ 32, n ||| i <<< 11 ||| parts <<< 13, 0] ++
      ((keys.drop (500 * i)).take 500).flatMap fun p => [p.1 ||| p.2 % 2 ^ 16 <<< 16, p.2 / 2 ^ 16 % 2 ^ 16]

/-- The prefix of a received record as a partial (R222); format 2 as R219 states. -/
def headPartial (r : Rec) (epoch : Nat) : Partial :=
  let w := nth r.body
  let v2 := decide (r.fmt = 2)
  let n18 := fun i => bits (w i) 0 18
  { nIn := n18 3, nMissing := n18 4, nNan := n18 5, nInf := n18 6, nPoison := if v2 then 0 else n18 7,
    nV2 := if v2 then n18 3 + n18 5 else n18 8,
    epochMin := some (if v2 then epoch else bits (w 9) 0 16), epochMax := some (if v2 then epoch else bits (w 9) 16 16),
    nExpected := n18 10, mixed := v2 || bitAt (w 0) 22, epochMix := bitAt (w 0) 23, poisonSeen := bitAt (w 0) 24,
    ovf := bitAt (w 0) 25, invalid := bitAt (w 0) 26, nanProp := v2 || bitAt (w 0) 27 }

/-- Operator blocks of a received RED_SCALAR read into a partial. Format 2 carries only SUM, MIN, MAX, MOM_FP32. -/
def scalarPartial (w : Nat) (r : Rec) (epoch : Nat) : Partial :=
  let p := headPartial r epoch
  if p.invalid then p else
  let ops := if r.fmt = 2 then specOps w &&& 0x17 else specOps w
  let at' := fun (b : Nat) =>
    12 + ((List.range b).map fun i => if bitAt ops i then (if i = 3 then 8 else 4) else 0).foldl (· + ·) 0
  let d := nth r.body
  let u64 := fun i => d i + 2 ^ 32 * d (i + 1)
  let has := decide (0 < p.nIn)
  let ext := fun b => if bitAt ops b && bitAt (d (at' b + 2)) 17 then some (⟨u64 (at' b), bits (d (at' b + 2)) 0 17⟩ : Extreme) else none
  { p with
    sum := if bitAt ops 0 && has then some (u64 (at' 0)) else none, min := ext 1, max := ext 2,
    s1 := if bitAt ops 3 then toS 128 (u64 (at' 3) + 2 ^ 64 * u64 (at' 3 + 2)) else 0,
    s2 := if bitAt ops 3 then u64 (at' 3 + 4) + 2 ^ 64 * u64 (at' 3 + 6) else 0,
    m32 := if bitAt ops 4 then ⟨d (at' 4), d (at' 4 + 1), d (at' 4 + 2)⟩ else {},
    m64 := if bitAt ops 5 then ⟨if p.mixed || specProp w then p.nIn - p.nInf - p.nV2 else p.nIn - p.nInf, u64 (at' 5), u64 (at' 5 + 2)⟩ else {} }

/-- A RED_SKETCH record's head and entries. -/
def sketchOf (r : Rec) : Sketch :=
  let d := nth r.body
  let n := bits (d 14) 0 11
  let part := bits (d 14) 11 2
  { zero := d 12, collapsed := d 13,
    keys := (List.range (min 500 (n - 500 * part))).map fun i => (bits (d (16 + 2 * i)) 0 16, d (16 + 2 * i) / 2 ^ 16 + 2 ^ 16 * bits (d (17 + 2 * i)) 0 16) }

end Sys2Proof.Machine
end

