-- ==== Sys2Proof/Machine/Stats.lean ====
section
/-! DEFINITION. Reduction cells (R206 to R210, R219 to R223). -/

namespace Sys2Proof.Machine

/-! ### The tree below a node -/

/-- Leaf of a child node (R209): its position field, primary children first. -/
def State.childLeaf (s : State) (id : Nat) : Nat :=
  match s.role with
  | 1 => if bits id 8 9 = bits s.nodeId 8 9 then bits id 4 4 else 16 + bits id 4 4
  | 2 => if bits id 12 5 = bits s.nodeId 12 5 then bits id 8 4 else 16 + bits id 8 4
  | 3 => bits id 12 5
  | _ => 0

/-- Depth of the merge tree (R209): 16 leaves at a Tray, 32 elsewhere. -/
def State.treeDepth (s : State) : Nat := if s.role = 0 then 4 else 5

/-- The full time that an envelope and a record give (R198). -/
def envTime (e : Env) (r : Rec) : Nat := e.ftHi * 2 ^ 32 + r.short

/-! ### Specifications -/

/-- The register file of the bank in force at time t (R29, R30). -/
def State.bankRegs (s : State) (t : Nat) : Regs :=
  if s.lam.brim.before (short t) then s.lam.oldRegs.getD s.lam.regs else s.lam.regs

/-- RED_SPEC entry i in force at time t (R206). -/
def State.redSpec (s : State) (i t : Nat) : Nat :=
  (s.bankRegs t).rd L.RED_SPEC_LO i + 2 ^ 32 * (s.bankRegs t).rd L.RED_SPEC_HI i

/-- The group of a die under an entry: GROUP_ID, if the die belongs to one (R206). -/
def specGid (w e : Nat) (observed : Bool) : Option Nat :=
  match specGroup w with
  | 0 => if brimBound e then some (brimCohort e) else none
  | 1 => if brimBound e then some (brimJob e) else none
  | 2 => if brimBound e then some 0 else none
  | _ => if observed then some 0 else none

/-- GROUP_ID of port q's die under an entry, by the active bank. -/
def State.portGid (s : State) (w q : Nat) : Option Nat :=
  specGid w (s.brimEntry q) (s.rl L.LNK_STAT_UNOBSERVED q == 0)

/-- The statistics engine runs: enabled, in a powered domain. -/
def State.statOn (s : State) : Bool := s.rl L.STAT_CTL_ENABLE == 1 && s.pdOn 15

/-! ### Cells -/

/-- Cells that hold scalar and sketch state. -/
def Cell.scalar (c : Cell) : Bool := specOps c.word &&& 0x3F != 0
def Cell.sketch (c : Cell) : Bool := bitAt (specOps c.word) 6

/-- Cells of a kind open (R224). -/
def State.cellsScalar (s : State) : Nat := (s.lam.cells.filter Cell.scalar).length + s.lam.barCells.length
def State.cellsSketch (s : State) : Nat := (s.lam.cells.filter Cell.sketch).length

/-- The cell of a key. -/
def State.findCell (s : State) (spec gid t : Nat) : Option Cell :=
  s.lam.cells.find? fun c => c.spec == spec && c.gid == gid && c.t == t

/-- A cell replaced, or put at the end. -/
def State.putCell (s : State) (c : Cell) : State :=
  let same := fun (d : Cell) => d.spec == c.spec && d.gid == c.gid && d.t == c.t
  let l := s.lam.cells
  let l := if l.any same then l.map (fun d => if same d then c else d) else l ++ [c]
  { s with lam := { s.lam with cells := l } }

/-- A cell removed. -/
def State.dropCell (s : State) (c : Cell) : State :=
  { s with lam := { s.lam with cells := s.lam.cells.filter fun d => !(d.spec == c.spec && d.gid == c.gid && d.t == c.t) } }

/-- Room for a cell (R210). -/
def State.cellRoom (s : State) (c : Cell) : Bool :=
  (!c.scalar || decide (s.cellsScalar < 4096)) && (!c.sketch || decide (s.cellsSketch < 2048))

/-- Close of a cell of latch instant t (R207). -/
def State.cellEnd (s : State) (t : Nat) : Nat := t + s.rl L.STAT_CLOSE_US * 1000

/-- Dies of a group under a Tray. -/
def State.groupDies (s : State) (w gid : Nat) : Nat :=
  ((List.range 16).filter fun q => s.portGid w q == some gid).length

/-- STAT_CELL_OPEN (R207): a Tray opens a cell per enabled entry whose block is latched at slot n, boundary t, and per
group with a die under it. The latch schedule is that of the die the model holds (log entry 33). -/
def State.statOpen (s : State) (n t : Nat) : State :=
  if !(s.role == 0 && s.statOn) then s else
  (List.range 512).foldl (fun s i =>
    let w := s.redSpec i t
    let b := specCounter w / 256
    if specEn w && decide (specField w ≠ 3) && s.ri I.SMP_CTL_RUN == 1 && s.ri I.SMP_BLOCK_CFG_EN b == 1 &&
        latchDue (s.ri I.SMP_BLOCK_CFG_DIV b) s.itu.smp.phase (s.mc .lam) n then
      let gids := ((List.range 16).filterMap (s.portGid w)).dedup
      gids.foldl (fun s g =>
        let c : Cell := { spec := i, gid := g, t := t, mc := s.mc32 .lam, slot := n, word := w, expected := s.groupDies w g }
        if (s.findCell i g t).isSome then s
        else if s.cellRoom c then s.putCell c
        else s.wl L.STAT_STAT_NOCELL 1) s
    else s) s

/-- Contributions of an input (R208). -/
def LeafIn.count (l : LeafIn) : Nat :=
  match l.val with
  | .die .. => 1
  | .part p => p.nIn + p.nNan

/-- An input joins a leaf that may already hold the other kind of record of the same child; none for a duplicate. -/
def Cell.add (c : Cell) (l : LeafIn) : Option Cell :=
  match c.ins.find? (fun x => x.leaf == l.leaf) with
  | none => some { c with ins := c.ins ++ [l] }
  | some x =>
    if (l.scalar && x.scalar) || l.parts.any x.parts.contains then none else
    match x.val, l.val with
    | .part p, .part q =>
      let m : Partial := if l.scalar then { q with sk := p.sk } else
        { p with sk := { keys := p.sk.keys ++ q.sk.keys, zero := q.sk.zero, collapsed := q.sk.collapsed } }
      let y := { x with val := .part m, scalar := x.scalar || l.scalar, parts := x.parts ++ l.parts }
      some { c with ins := c.ins.map fun z => if z.leaf == l.leaf then y else z }
    | _, _ => none

/-- An input for the cell of a key (R207, R208, R210): merged, late, duplicate, or without a cell. -/
def State.cellInput (s : State) (c : Cell) (l : LeafIn) : State :=
  if !s.statOn then s
  else if s.cellEnd c.t < s.now .lam then
    (s.il L.STAT_CNT_LATE).miss l.src missLate ((s.now .lam - c.t - 50000000) / 1000) l.count
  else
    match s.findCell c.spec c.gid c.t with
    | some d =>
      match d.add l with
      | some d => (s.putCell d).il L.STAT_CNT_UPD
      | none => s.il L.STAT_CNT_DUP
    | none =>
      if s.cellRoom c then (s.putCell { c with ins := [l] }).il L.STAT_CNT_UPD
      else ((s.wl L.STAT_STAT_NOCELL 1).il L.STAT_CNT_NOCELL l.count).miss l.src missNocell 0 l.count

/-- The entries that take counter values of block b, as index and word. -/
def State.specsOf (s : State) (t : Nat) (p : Nat → Bool) : List (Nat × Nat) :=
  (List.range 512).filterMap fun i => let w := s.redSpec i t; if specEn w && p w then some (i, w) else none

/-- A die's value enters the cells of an entry (R206, R211). -/
def State.dieInput (s : State) (i w q entry epoch v : Nat) (fmt2 : Bool) (src : Src) (t mc slot : Nat) : State :=
  match specGid w entry true with
  | some g =>
    s.cellInput { spec := i, gid := g, t := t, mc := mc, slot := slot, word := w, expected := s.groupDies w g }
      { leaf := q, src := src, val := .die v fmt2 epoch }
  | none => s

/-! ### Closing -/

/-- A held input as a partial (R211, R219, R221). lost: it was read from a line with an uncorrectable error. -/
def LeafIn.asPartial (l : LeafIn) (w arg : Nat) (prop lost : Bool) : Partial :=
  match l.val with
  | .die v fmt2 epoch =>
    if lost then { nExpected := 1, nPoison := 1, poisonSeen := true } else diePartial w l.src.die v fmt2 epoch prop
  | .part p =>
    if lost then { nExpected := p.nExpected, nPoison := p.nExpected - p.nMissing, nMissing := p.nMissing, poisonSeen := true }
    else if p.invalid then
      { nExpected := p.nExpected, nPoison := p.nExpected, epochMin := p.epochMin, epochMax := p.epochMax, mixed := p.mixed,
        epochMix := p.epochMix, poisonSeen := p.poisonSeen }
    else if prop then p.spread w arg
    else p

/-- An input makes its cell MIXED (R219). -/
def LeafIn.mixed (l : LeafIn) : Bool :=
  match l.val with
  | .die _ fmt2 _ => fmt2
  | .part p => p.mixed

/-- The result of a cell (R209, R210): NaN-propagating semantics in force, and the merged partial. opn: open values. -/
def State.cellResult (s : State) (c : Cell) (opn : Nat) (lost : List Nat) : Bool × Partial :=
  let prop := specProp c.word || c.ins.any LeafIn.mixed
  let n := 2 ^ s.treeDepth
  let leaves := (List.range n).map fun j =>
    (c.ins.find? fun l => l.leaf == j).map fun l => l.asPartial c.word (opn / 2 ^ (128 + 17 * j)) prop (lost.contains j)
  let p := (mergeTree c.word s.treeDepth leaves).getD {}
  if s.role = 0 then (prop, { p with nExpected := c.expected, nMissing := c.expected - c.ins.length })
  else
    let absent := ((List.range n).filter fun j => !c.ins.any fun l => l.leaf == j).foldl
      (fun a j => a + Config.diesUnder (s.rl L.CFG_EPOCH) j (specGroup c.word) c.gid) 0
    (prop, { p with nExpected := p.nExpected + absent, nMissing := p.nMissing + absent })

/-- Representative of a bucket (R218) as FP32: sign * 2 * gamma^i / (gamma + 1). -/
def bucketRep (k : Nat) : Nat :=
  let i : Int := (k % 2 ^ 15 : Nat) - 16384
  if 0 ≤ i then f32.round (bitAt k 15) (256 * 129 ^ i.natAbs) (257 * 128 ^ i.natAbs) 0
  else f32.round (bitAt k 15) (256 * 128 ^ i.natAbs) (257 * 129 ^ i.natAbs) 0

/-- The representative of the bucket that holds rank r; zc is the count of ZERO, still to be passed. -/
def quantileAt : List (Nat × Nat) → Nat → Nat → Nat
  | [], _, _ => 0
  | (k, c) :: l, zc, r =>
    if !bitAt k 15 && decide (0 < zc) then
      if r < zc then 0 else if r - zc < c then bucketRep k else quantileAt l 0 (r - zc - c)
    else if r < c then bucketRep k else quantileAt l zc (r - c)

/-- Quantile num / den of a sketch (R218). -/
def Sketch.quantile (s : Sketch) (num den : Nat) : Nat :=
  let c := s.keys.foldl (fun a p => a + p.2) s.zero
  quantileAt s.keys s.zero (num * (c - 1) / den)

/-- QREF of a cohort's sketch at the Crown (R237), to every Tray with dies of the cohort. -/
def State.sendQref (s : State) (c : Cell) (p : Partial) (d : Nat) : State :=
  let thin := decide (p.nIn - p.nInf < s.rl L.DET_MIN_N d)
  s.cmdDown .kids 0x29 4 c.gid
    [d ||| c.gid <<< 6 ||| b2n p.mixed <<< 13 ||| b2n p.epochMix <<< 14 ||| b2n thin <<< 15, c.mc % 2 ^ 32, c.slot,
     p.sk.collapsed % 2 ^ 32, p.sk.quantile 1 4, p.sk.quantile 1 2, p.sk.quantile 3 4, 0]

/-- The references that a closing cell gives rise to (R237). -/
def State.qrefsOf (s : State) (c : Cell) (p : Partial) : State :=
  if s.isCrown && c.sketch && specGroup c.word == 0 && c.slot == Config.cohortSlot (s.rl L.CFG_EPOCH) c.gid % 64 then
    (List.range 64).foldl (fun s d =>
      if s.rl L.DET_SET_EN d == 1 && s.rl L.DET_SET_SPEC d == c.spec then s.sendQref c p d else s) s
  else s

/-- A cell closes and emits its partial, or at the Crown its result (R207, R221 to R223). -/
def State.closeCell (s : State) (c : Cell) (poison : Bool) (lost : List Nat) : State :=
  let s := s.dropCell c
  let bad := c.ins.filter fun l => lost.contains l.leaf
  let s := bad.foldl (fun s l => ((s.il L.STAT_CNT_POISON).wl L.STAT_STAT_POISON 1).miss l.src missPoison 0 l.count) s
  let s := if poison then (s.il L.STAT_CNT_POISON).wl L.STAT_STAT_POISON 1 else s
  let f := s.free
  let s := f.2
  let r := s.cellResult c f.1 lost
  let p := if poison then { r.2 with invalid := true, poisonSeen := true } else r.2
  let s := if p.mixed then s.wl L.STAT_STAT_MIXED 1 else s
  let pre := p.headWords c (s.role + 1) r.1 (s.rl L.CFG_EPOCH)
  let emit := fun (s : State) typ body => (s.lamRec 1 typ s.nodeId (s.rl L.STAT_NODE_GEN) (short c.t) body).1
  let s := if c.scalar then emit s 0x011 (pre ++ p.blocks c.word f.1 poison) else s
  let s := if c.sketch then (p.sk.parts poison).foldl (fun s ws => emit s 0x012 (pre ++ ws)) s else s
  if poison then s else s.qrefsOf c p

/-- STAT_CELL_CLOSE (R207): the cell of a key at its latch instant plus STAT_CLOSE_US. poison: its own state is lost;
lost: leaves whose held inputs are. -/
def execStatCellClose (spec gid t : Nat) (poison : Bool) (lost : List Nat) (s : State) : Out :=
  match s.findCell spec gid t with
  | some c => if s.cellEnd t ≤ s.now .lam ∧ s.statOn then .next (s.closeCell c poison lost) else .next s
  | none => .next s

/-! ### Partials of children -/

/-- Words of the payload that an entry's RED_SCALAR has (R222). -/
def scalarWords (ops : Nat) : Nat :=
  12 + ((List.range 6).map fun i => if bitAt ops i then (if i = 3 then 8 else 4) else 0).foldl (· + ·) 0

/-- A partial fits the entry in force: the entry is in use, the group is its own, the blocks are those of its OPS. PREC is
not carried (log entry 34). -/
def partialFits (w : Nat) (r : Rec) : Bool :=
  specEn w && !bitAt (nth r.body 0) 9 && bits (nth r.body 0) 10 2 == specGroup w &&
    (if r.typ = 0x012 then bitAt (specOps w) 6
     else decide (r.body.length = scalarWords (if r.fmt = 2 then specOps w &&& 0x17 else specOps w)))

/-- PARTIAL_ARRIVAL (R208): a child's RED_SCALAR or RED_SKETCH. poison: it was read from a bad line. -/
def State.partialRx (s : State) (e : Env) (r : Rec) (poison : Bool) : State :=
  let w0 := nth r.body 0
  let t := envTime e r
  let i := bits w0 0 9
  let w := s.redSpec i t
  let epoch := s.rl L.CFG_EPOCH
  let p0 := headPartial r epoch
  let n := p0.nIn + p0.nNan
  let s := if poison then ((s.il L.STAT_CNT_POISON).wl L.STAT_STAT_POISON 1).miss (srcOf e r) missPoison 0 n else s
  if !s.statOn then s
  else if !partialFits w r then (s.il L.STAT_CNT_SPEC).miss (srcOf e r) missSpec 0 n
  else
    let val : Partial :=
      if poison then { nExpected := p0.nExpected, nPoison := p0.nExpected - p0.nMissing, nMissing := p0.nMissing, poisonSeen := true }
      else if r.typ = 0x012 then { p0 with sk := if p0.invalid then {} else sketchOf r }
      else scalarPartial w r epoch
    let l : LeafIn := { leaf := s.childLeaf r.die, src := srcOf e r, val := .part val, scalar := decide (r.typ = 0x011),
                        parts := if r.typ = 0x012 then [bits (nth r.body 14) 11 2] else [] }
    s.cellInput { spec := i, gid := bits w0 12 7, t := t, mc := nth r.body 1, slot := bits (nth r.body 2) 0 6, word := w } l

/-- PARTIAL_ARRIVAL (R208). -/
def execPartialArrival (e : Env) (r : Rec) (poison : Bool) (s : State) : Out :=
  if s.role ≠ 0 ∧ (r.typ = 0x011 ∨ r.typ = 0x012) then .next (s.partialRx e r poison) else .next s

end Sys2Proof.Machine
end

