-- ==== Sys2Proof/Machine/Straggler.lean ====
section
/-! DEFINITION. Barrier cells and stragglers (R228 to R235, R240 to R243). -/

namespace Sys2Proof.Machine

/-! ### Barrier cells -/

/-- merge_bar of R229. -/
def Bar.merge (a b : Bar) : Bar :=
  if b.n = 0 then a else if a.n = 0 then b else
  let m := min a.eMin b.eMin
  let mx := min a.xMin b.xMin
  let aLast := decide (b.eMax < a.eMax) || (decide (a.eMax = b.eMax) && decide (a.arg < b.arg))
  let eLo := min a.epochMin b.epochMin
  let eHi := max a.epochMax b.epochMax
  { n := a.n + b.n,
    eSum := (a.eSum + a.n * (a.eMin - m) + b.eSum + b.n * (b.eMin - m)) % 2 ^ 64,
    xSum := (a.xSum + a.n * (a.xMin - mx) + b.xSum + b.n * (b.xMin - mx)) % 2 ^ 64,
    eMin := m, xMin := mx, xMax := max a.xMax b.xMax,
    eMax := if aLast then a.eMax else b.eMax, arg := if aLast then a.arg else b.arg,
    e2nd := max (min a.eMax b.eMax) (max a.e2nd b.e2nd), mixed := a.mixed || b.mixed,
    epochMix := a.epochMix || b.epochMix || decide (eLo ≠ eHi), epochMin := eLo, epochMax := eHi }

/-- A die's input (R229): entry e, exit x. -/
def barInput (die e x epoch : Nat) : Bar :=
  { n := 1, eMin := e, eMax := e, arg := die, xMin := x, xMax := x, epochMin := epoch, epochMax := epoch }

/-- The balanced merge over the leaves (R209, R229). -/
def barTree : Nat → List Bar → Bar
  | 0, l => l.headD {}
  | n + 1, l => (barTree n (l.take (2 ^ n))).merge (barTree n (l.drop (2 ^ n)))

/-- X of a cell: the least exit merged (R230). -/
def BarCell.x (c : BarCell) : Nat :=
  match c.ins with
  | [] => 0
  | i :: l => l.foldl (fun m j => min m j.2.xMin) i.2.xMin

/-- Delay from X to the close, ns (R230). -/
def State.barClose (s : State) : Nat := s.rl L.DET_BAR_CLOSE_US * 1000

/-- The open cell of a key. -/
def State.findBar (s : State) (cohort coll : Nat) : Option BarCell :=
  s.lam.barCells.find? fun c => c.cohort == cohort && c.coll == coll

/-- The open cells without the one of a key. -/
def State.dropBar (s : State) (cohort coll : Nat) : State :=
  { s with lam := { s.lam with barCells := s.lam.barCells.filter fun c => !(c.cohort == cohort && c.coll == coll) } }

/-- An open cell put in place. -/
def State.putBar (s : State) (c : BarCell) : State :=
  let s := s.dropBar c.cohort c.coll
  { s with lam := { s.lam with barCells := s.lam.barCells ++ [c] } }

/-- Payload of BAR_PARTIAL (R230). -/
def Bar.words (b : Bar) (cohort coll level : Nat) (scored : Bool) : List Nat :=
  [coll ||| cohort <<< 16 ||| level <<< 23 ||| b2n b.mixed <<< 26 ||| b2n b.epochMix <<< 27 ||| b2n scored <<< 28, b.n, b.arg,
   b.epochMin ||| b.epochMax <<< 16] ++ u64Words b.eMin ++ u64Words b.eSum ++ u64Words b.eMax ++ u64Words b.e2nd ++
   u64Words b.xMin ++ u64Words b.xSum ++ u64Words b.xMax ++ [0, 0]

/-- A BAR_PARTIAL payload read back. -/
def Bar.ofWords (w : List Nat) : Bar :=
  let n := nth w
  let u := fun i => n i + 2 ^ 32 * n (i + 1)
  { n := bits (n 1) 0 18, arg := bits (n 2) 0 17, mixed := bitAt (n 0) 26, epochMix := bitAt (n 0) 27,
    epochMin := bits (n 3) 0 16, epochMax := bits (n 3) 16 16, eMin := u 4, eSum := u 6, eMax := u 8, e2nd := u 10,
    xMin := u 12, xSum := u 14, xMax := u 16 }

/-- A die of the cohort under this Tray lies behind a format-2 link (R230). -/
def State.barMixed (s : State) (cohort : Nat) : Bool :=
  s.role == 0 && (List.range 16).any fun q =>
    brimBound (s.brimEntry q) && brimCohort (s.brimEntry q) == cohort && s.rl L.LNK_STAT_FMT q == 2

/-- A barrier cell closes (R230, R231): emitted upward; at the Crown scored and sent down as BAR_REF. Its key is remembered for
DET_HOLD_MS (log entry 58). -/
def State.closeBar (s : State) (c : BarCell) : State :=
  let s := s.dropBar c.cohort c.coll
  let kept := s.lam.barDone.filter fun x => decide (s.now .lam < x.2.2 + s.rl L.DET_HOLD_MS * 1000000)
  let s : State := { s with lam := { s.lam with barDone := kept ++ [(c.cohort, c.coll, s.now .lam)] } }
  let b := barTree s.treeDepth ((List.range (2 ^ s.treeDepth)).map fun j =>
    ((c.ins.find? fun i => i.1 == j).map Prod.snd).getD {})
  let b := { b with mixed := b.mixed || s.barMixed c.cohort }
  let scored := s.role == 3 && decide (s.rl L.STRAG_CFG_MIN_DIES c.cohort ≤ b.n) && !b.mixed && !b.epochMix
  let ws := b.words c.cohort c.coll (s.role + 1) scored
  let s := (s.lamRec 0 0x061 s.nodeId (s.rl L.STAT_NODE_GEN) (s.now .lam) ws).1
  if s.role = 3 then
    (if scored then s else s.il L.DET_CNT_UNSCORED).cmdDown .kids 0x28 4 c.cohort ws
  else s

/-- The cell of a key has closed, and is still remembered. -/
def State.barClosed (s : State) (cohort coll : Nat) : Bool :=
  s.lam.barDone.any fun x => x.1 == cohort && x.2.1 == coll && decide (s.now .lam < x.2.2 + s.rl L.DET_HOLD_MS * 1000000)

/-- An input of a barrier cell (R229, R230): merged, late, duplicate or without a cell; and whether it was merged. -/
def State.barMerge (s : State) (cohort coll leaf : Nat) (b : Bar) (src : Src) : State × Bool :=
  let close := s.barClose
  let late := (((s.il L.STAT_CNT_LATE).il L.DET_CNT_BAR_LATE).miss src missLate ((s.now .lam - b.xMin - 2000000) / 1000) b.n, false)
  match s.findBar cohort coll with
  | some c =>
    if c.x + close < s.now .lam then late
    else if c.ins.any (fun i => i.1 == leaf) then (s.il L.STAT_CNT_DUP, false)
    else
      let c := { c with ins := c.ins ++ [(leaf, b)] }
      let s := (s.putBar c).il L.STAT_CNT_UPD
      (if c.x + close < s.now .lam then s.closeBar c else s, true)
  | none =>
    if s.barClosed cohort coll ∨ b.xMin + close < s.now .lam then late
    else if s.cellsScalar < 4096 then ((s.putBar { cohort := cohort, coll := coll, ins := [(leaf, b)] }).il L.STAT_CNT_UPD, true)
    else (((s.wl L.STAT_STAT_NOCELL 1).il L.STAT_CNT_NOCELL b.n).miss src missNocell 0 b.n, false)

/-- The straggler functions run. -/
def State.stragOn (s : State) : Bool := s.rl L.DET_CTL_STRAG_EN == 1 && s.pdOn 15

/-- A pending entry stored (R232): a ninth evicts the oldest. -/
def State.pendPut (s : State) (q : Nat) (p : PendBar) : State :=
  let d := s.det q
  let l := d.pend ++ [p]
  if 8 < l.length then ((s.setDet q { d with pend := l.drop 1 }).il L.DET_CNT_EVICT).wl L.DET_STAT_EVICT 1
  else s.setDet q { d with pend := l }

/-- BARRIER_CELL_MERGE (R228): a BAR_EVENT that R153 and R30 accepted, with the brim entry and epoch used. -/
def State.barEvent (s : State) (q : Nat) (r : Rec) (full entry epoch : Nat) : State :=
  if !s.stragOn then s
  else if bitAt (nth r.body 0) 16 then s.il L.DET_CNT_BAR_OPEN
  else if !brimBound entry || r.part != s.rl L.STRAG_CFG_BAR_PART (brimCohort entry) then s
  else
    let e := full - nth r.body 1
    let coll := bits (nth r.body 0) 0 16
    let m := s.barMerge (brimCohort entry) coll q (barInput r.die e full epoch) (srcOf { srcRole := 0, epoch := epoch, ftHi := 0 } r)
    if m.2 then (m.1.pendPut q { coll := coll, e := e, x := full, temp := bits (nth r.body 2) 0 10 }).il L.DET_CNT_BAR else m.1

/-- A BAR_PARTIAL that arrives from a child (R229). -/
def State.barPartialRx (s : State) (e : Env) (r : Rec) : State :=
  let w0 := nth r.body 0
  if s.stragOn then (s.barMerge (bits w0 16 7) (bits w0 0 16) (s.childLeaf r.die) (Bar.ofWords r.body) (srcOf e r)).1 else s

/-- BAR_PARTIAL_ARRIVAL (R229). -/
def execBarPartialArrival (e : Env) (r : Rec) (s : State) : Out :=
  if s.role ≠ 0 ∧ r.typ = 0x061 then .next (s.barPartialRx e r) else .next s

/-- BARRIER_CELL_CLOSE (R230). -/
def execBarrierCellClose (cohort coll : Nat) (s : State) : Out :=
  match s.findBar cohort coll with
  | some c => if c.x + s.barClose ≤ s.now .lam ∧ s.stragOn then .next (s.closeBar c) else .next s
  | none => .next s

/-! ### Scoring -/

/-- TBIN of a TEMP reading (R241). -/
def tbinOf (temp : Nat) : Nat := (toS 10 temp / 20 + 32).toNat

/-- Number of set bits in the low k bits. -/
def onesIn (v k : Nat) : Nat := ((List.range k).filter (bitAt v)).length

/-- A value held within s32. -/
def sat32 (z : Int) : Int := clampZ z (-(2 ^ 31)) (2 ^ 31 - 1)

/-- STRAG_VERDICT of port q (R243). -/
def State.stragVerdict (s : State) (q : Nat) : State :=
  let t := (s.det q).strag
  let k := s.rl L.STRAG_CFG_K t.cohort
  let s := s.lamEmit 0 0x062 (s.now .lam)
    [s.dieId q ||| t.state <<< 17 ||| t.cause <<< 20 ||| t.tbin <<< 23, t.lastColl ||| t.load <<< 16 ||| onesIn t.lastMap k <<< 20,
     ofS 32 t.late, ofS 32 t.xlate, t.scored, t.changeMc, t.rank ||| t.job <<< 15 ||| t.cohort <<< 21, t.epoch]
  (s.setDet q { s.det q with saidMc := s.mc .lam }).il L.DET_CNT_VERDICT

/-- The state that R234 gives: CAUSE and STATE. -/
def State.stragEval (s : State) (t : Strag) : Nat × Nat :=
  let c := t.cohort
  let k := s.rl L.STRAG_CFG_K c
  if t.scored < k then (t.cause, 0) else
  let lateNs : Int := toS 32 (s.rl L.STRAG_LATE_NS c)
  let xlateNs : Int := toS 32 (s.rl L.STRAG_XLATE_NS c)
  let n := onesIn t.lastMap k
  let lastMin := s.rl L.STRAG_CFG_LAST_MIN c
  let cause := b2n (lastMin ≤ n) ||| b2n (lateNs ≤ t.late) <<< 1 ||| b2n (xlateNs ≤ t.xlate) <<< 2
  let holdS := decide (lastMin / 2 < n) || decide (tdiv lateNs 2 ≤ t.late)
  let holdX := decide (tdiv xlateNs 2 ≤ t.xlate)
  if cause % 4 ≠ 0 ∨ (t.state = 2 ∧ holdS) then (cause, 2)
  else if bitAt cause 2 ∨ (t.state = 3 ∧ holdX) then (cause, 3)
  else (cause, 1)

/-- Port q's state updated with a pending entry and a scored reference (R233 to R235). -/
def State.stragUpdate (s : State) (q : Nat) (p : PendBar) (coll : Nat) (b : Bar) : State :=
  let e := s.brimEntry q
  let d := s.det q
  let t := d.strag
  let same := t.valid && t.rank == brimRank e && t.job == brimJob e && t.cohort == brimCohort e
  let t : Strag := if same then t else { rank := brimRank e, job := brimJob e, cohort := brimCohort e }
  let c := t.cohort
  let n := max 1 b.n
  let l := toS 64 (ofS 64 ((p.e : Int) - (b.eMin + b.eSum / n)))
  let lx := toS 64 (ofS 64 ((p.x : Int) - (b.xMin + b.xSum / n)))
  let last := b.arg == s.dieId q && decide (s.rl L.STRAG_CFG2_MARGIN_NS c ≤ b.eMax - b.e2nd)
  let sh := s.rl L.STRAG_CFG2_EWMA_SHIFT c
  let t := { t with valid := true, epoch := s.lam.brim.active.epoch, lastMap := (t.lastMap * 2 + b2n last) % 2 ^ 32,
                    late := sat32 (t.late + sar (sat32 l - t.late) sh), xlate := sat32 (t.xlate + sar (sat32 lx - t.xlate) sh),
                    scored := min (t.scored + 1) 65535, lastL := sat32 l, lastColl := coll }
  let r := s.stragEval t
  let changed := r.2 != t.state
  let t' := { t with cause := r.1, state := r.2 }
  let t' := if changed then { t' with tbin := tbinOf p.temp, load := d.load, changeMc := s.mc32 .lam } else t'
  let s := s.setDet q { d with strag := t' }
  if changed && !(t.state == 0 && r.2 == 1) then s.stragVerdict q else s

/-- BAR_REF (R231, R233): the ports whose active brim entry binds the cohort. -/
def State.barRef (s : State) (ws : List Nat) : State :=
  let w0 := nth ws 0
  let coll := bits w0 0 16
  let b := Bar.ofWords ws
  (List.range 16).foldl (fun s q =>
    let e := s.brimEntry q
    let d := s.det q
    if brimBound e && brimCohort e == bits w0 16 7 then
      match d.pend.find? (fun p => p.coll == coll) with
      | some p =>
        let s := s.setDet q { d with pend := d.pend.filter fun x => x.coll != coll }
        if bitAt w0 28 then s.stragUpdate q p coll b else s
      | none => s
    else s) s

/-- BAR_REF (R233, opcode 0x28), executed by a Tray. -/
def execBarRef (h : CmdHdr) (words : List Nat) (s : State) : Out :=
  .next (s.cmdLam { h with opcode := 0x28 } fun s =>
    if s.role ≠ 0 then (s, { status := St.badTarget })
    else if !s.pdOn 15 then (s, { status := St.domainOff })
    else (s.when s.stragOn (fun s => s.barRef words), {}))

/-- PENDING_EXPIRY (R232). -/
def execPendingExpiry (q : Nat) (s : State) : Out :=
  let d := s.det q
  let old := fun (p : PendBar) => decide (p.x + s.rl L.DET_HOLD_MS * 1000000 ≤ s.now .lam)
  if q < 16 then
    .next ((s.setDet q { d with pend := d.pend.filter fun p => !old p }).il L.DET_CNT_EXPIRED (d.pend.filter old).length)
  else .next s

/-- STRAG_VERDICT_REPEAT (R243): every 3,000 MC while STRAGGLER or EXIT_SLOW. -/
def execStragVerdictRepeat (q : Nat) (s : State) : Out :=
  let d := s.det q
  if q < 16 ∧ (d.strag.state = 2 ∨ d.strag.state = 3) ∧ d.saidMc + 3000 ≤ s.mc .lam then .next (s.stragVerdict q) else .next s

/-- STRAG_STATE of a port as 16 words (R235). -/
def Strag.words (t : Strag) : List Nat :=
  [t.rank ||| t.job <<< 15 ||| t.cohort <<< 21 ||| b2n t.valid <<< 28, t.epoch ||| t.scored <<< 16, t.lastMap, ofS 32 t.late,
   ofS 32 t.xlate, t.state ||| t.cause <<< 3 ||| t.tbin <<< 6 ||| t.load <<< 12 ||| t.lastColl <<< 16, ofS 32 t.lastL, t.changeMc] ++
  List.replicate 8 0

end Sys2Proof.Machine
end

