-- ==== Sys2Proof/Machine/Suspect.lean ====
section
/-! DEFINITION. Suspect entries of the Crown and their changes (R161, R244, R264, R312, R332 to R334). -/

namespace Sys2Proof.Machine

/-- DDR address of a die's suspect entry. -/
def State.suspAddr (s : State) (die : Nat) : Nat :=
  s.rl L.GNTF_SUSP_BASE_HI * 2 ^ 32 + s.rl L.GNTF_SUSP_BASE_LO + 8 * die

/-- An entry as two words. The manual gives its size; its layout is the model's (log entry 39), bits 0 to 14 as OBS has
them. -/
def Susp.words (e : Susp) : List Nat :=
  [b2n e.suspect ||| e.tbin <<< 1 ||| e.load <<< 7 ||| e.passes <<< 11 ||| b2n e.due <<< 15 ||| e.cause <<< 16 ||| b2n e.mark <<< 20,
   e.sinceMc]

/-- The entry that two words hold. -/
def Susp.ofWords (w : List Nat) : Susp :=
  let a := nth w 0
  { suspect := bitAt a 0, tbin := bits a 1 6, load := bits a 7 4, passes := bits a 11 4, due := bitAt a 15, cause := bits a 16 4,
    mark := bitAt a 20, sinceMc := nth w 1 }

/-- The suspect entry of a die. -/
def State.susp (s : State) (die : Nat) : Susp := Susp.ofWords (s.ddrWords (s.suspAddr die) 2)

/-- Node number of the Tray of a die (R156). -/
def trayNode (die : Nat) : Nat := 3 <<< 17 ||| die / 16 * 16

/-- An entry changed: stored, and sent to the die's Tray in GNT_SUSPECT (R332). -/
def State.setSusp (s : State) (die : Nat) (e : Susp) : State :=
  let kept := { e with due := false, mark := false }
  (s.ddrPut (s.suspAddr die) (wordsToBytes kept.words)).cmdDown (.node (trayNode die)) 0x3C 2 (trayNode die)
    (die % 16 :: e.words)

/-- SUSPECT (R335). -/
def State.suspectRec (s : State) (die action cause : Nat) (e : Susp) : State :=
  s.lamEmit 0 0x0B2 (s.now .lam)
    [die ||| action <<< 17 ||| cause <<< 19 ||| e.tbin <<< 23, e.load ||| e.passes <<< 4, e.sinceMc, s.mc32 .lam]

/-- The Crown's progress of a die's retest. -/
def State.setPassed (s : State) (die : Nat) (l : List Nat) : State :=
  let r := s.lam.gnt.passed.filter fun p => p.1 != die
  { s with lam := { s.lam with gnt := { s.lam.gnt with passed := if l = [] then r else r ++ [(die, l)] } } }

/-- The Crown marks a die suspect (R332): the first failure records the condition; every marking clears PASSES. -/
def State.markSuspect (s : State) (die cause tbin load : Nat) : State :=
  let e := s.susp die
  let e : Susp := if e.suspect then { e with passes := 0, mark := true }
    else { suspect := true, tbin := tbin, load := load, cause := cause, mark := true, sinceMc := s.mc32 .lam }
  (((s.setSusp die e).setPassed die []).il L.GNTF_CNT_SUSPECT_SET).suspectRec die 0 cause e

/-- The Crown clears a die's entry (R334). -/
def State.clearSuspect (s : State) (die cause : Nat) : State :=
  let e := s.susp die
  (((s.setSusp die {}).setPassed die []).il L.GNTF_CNT_SUSPECT_CLEARED).suspectRec die 1 cause e

/-- SUSPECT_SET (R332). -/
def State.opSuspectSet (s : State) (die tbin load : Nat) : State × CmdRes :=
  if !s.isCrown then (s, { status := St.badTarget }) else (s.markSuspect die 6 tbin load, {})

/-- SUSPECT_SET (R332, opcode 0x3D): at the Crown, with AMODE 0 naming the die. -/
def execSuspectSet (h : CmdHdr) (tbin load : Nat) (s : State) : Out :=
  .next (s.cmdLam { h with opcode := 0x3D } fun s => s.opSuspectSet (h.target % 2 ^ 17) (tbin % 64) (load % 16))

/-- SUSPECT_CLEAR (R334). -/
def State.opSuspectClear (s : State) (die : Nat) : State × CmdRes :=
  if !s.isCrown then (s, { status := St.badTarget })
  else if (s.susp die).suspect then (s.clearSuspect die 6, {}) else (s, {})

/-- SUSPECT_CLEAR (R334, opcode 0x3E). -/
def execSuspectClear (h : CmdHdr) (s : State) : Out :=
  .next (s.cmdLam { h with opcode := 0x3E } fun s => s.opSuspectClear (h.target % 2 ^ 17))

/-- VERDICT_SUSPECT_MARK (R244, R264): a verdict record that reaches the Crown. -/
def State.verdictMark (s : State) (r : Rec) : State :=
  let w := nth r.body
  let die := bits (w 0) 0 17
  if r.typ = 0x062 ∧ bits (w 0) 17 3 = 2 then s.markSuspect die 0 (bits (w 0) 23 6) (bits (w 1) 16 4)
  else if r.typ = 0x063 ∧ (bits (w 0) 29 3 = 2 ∨ bits (w 0) 29 3 = 3) ∧ !bitAt (w 1) 18 ∧
      s.rl L.DET_SET_SUSPECT (bits (w 1) 0 6) = 1 then
    s.markSuspect die 1 (bits (w 1) 8 6) (bits (w 1) 14 4)
  else if r.typ = 0x080 ∧ bitAt (w 1) 28 ∧ bits (w 1) 6 4 &&& bits (w 1) 10 4 ≠ 0 then
    s.markSuspect die 2 (bits (w 1) 18 6) (bits (w 1) 24 4)
  else s

end Sys2Proof.Machine
end

