-- ==== Sys2Proof/Machine/DigestL.lean ====
section
/-! DEFINITION. Digest cells, comparison and location of a divergence (R307 to R312). -/

namespace Sys2Proof.Machine

/-- The digest function is on. -/
def State.digOn (s : State) : Bool := s.rl L.DIGF_CTL_ENABLE == 1 && s.pdOn 18

/-- Key of a digest cell (R308). -/
structure DigKey where
  cohort : Nat
  replica : Nat
  step : Nat
  lo : Nat
  hi : Nat
deriving DecidableEq, Repr

/-- Key of a cell. -/
def DigCell.key (c : DigCell) : DigKey := ⟨c.cohort, c.replica, c.step, c.lo, c.hi⟩

/-- The cell of a key. -/
def State.findDig (s : State) (k : DigKey) : Option DigCell := s.lam.digCells.find? fun c => c.key == k

/-- A cell put in place of the one of its key. -/
def State.putDig (s : State) (c : DigCell) : State :=
  { s with lam := { s.lam with digCells := (s.lam.digCells.filter fun d => d.key != c.key) ++ [c] } }

/-- A cell removed. -/
def State.dropDig (s : State) (k : DigKey) : State :=
  { s with lam := { s.lam with digCells := s.lam.digCells.filter fun d => d.key != k } }

/-- Cells open. -/
def State.digOpen (s : State) : Nat := (s.lam.digCells.filter fun c => !c.closed).length

/-- Close of a cell on its timer. -/
def State.digEnd (s : State) (openMin : Nat) : Nat := openMin + s.rl L.DIGF_CLOSE_MS * 1000000

/-- The bank in force at t: its epoch, and its entries at a Tray. -/
def State.bankAt (s : State) (t : Nat) : BrimBank :=
  if s.lam.brim.before (short t) then s.lam.brim.retiring.getD s.lam.brim.active else s.lam.brim.active

/-- Bound dies of (cohort, replica) under this node (R308). -/
def State.digExpected (s : State) (cohort replica t : Nat) : Nat :=
  let b := s.bankAt t
  if s.role = 0 then (b.entries.filter fun e => brimBound e && brimCohort e == cohort && brimReplica e == replica).length
  else Config.replicaDies b.epoch s.nodeNo cohort replica

/-- A die of (cohort, replica) lies behind a format-2 link of this Tray (R309). -/
def State.digMixed (s : State) (cohort replica t : Nat) : Bool :=
  s.role == 0 && (List.range 16).any fun q =>
    let e := nth (s.bankAt t).entries q
    brimBound e && brimCohort e == cohort && brimReplica e == replica && s.rl L.LNK_STAT_FMT q == 2

/-- Two inputs of one key joined (R308). -/
def DigCell.merge (a b : DigCell) : DigCell :=
  { a with keyMix := a.keyMix || b.keyMix || decide (a.keySeq ≠ b.keySeq), mixed := a.mixed || b.mixed, shards := a.shards + b.shards,
           nBad := a.nBad + b.nBad, d1 := (a.d1 + b.d1) % digP, d2 := (a.d2 + b.d2) % digP, v := (a.v + b.v) % digP,
           n := (a.n + b.n) % 2 ^ 64, openMin := min a.openMin b.openMin, epochMin := min a.epochMin b.epochMin,
           epochMax := max a.epochMax b.epochMax, leaves := a.leaves ++ b.leaves }

/-- An input for a digest cell (R308), as a cell of its own with its one leaf; and whether it was merged. -/
def State.digInput (s : State) (c : DigCell) (src : Src) (recT : Nat) : State × Bool :=
  let late := fun (s : State) => ((s.il L.DIGF_CNT_LATE).miss src missLate ((s.now .lam - recT - 2000000) / 1000) c.shards, false)
  match s.findDig c.key with
  | some d =>
    if c.leaves.any d.leaves.contains then (s.il L.DIGF_CNT_DUP, false)
    else if d.closed then late s
    else
      let m := d.merge c
      let s := s.putDig m
      (if m.keyMix then s.wl L.DIGF_STAT_KEY_MIX 1 else s, true)
  | none =>
    let now := s.now .lam
    let s := { s with lam := { s.lam with digCells := s.lam.digCells.filter fun d => !(d.closed && decide (s.digEnd d.openMin < now) &&
                                                                                  !s.isCrown) } }
    if s.digEnd c.openMin < now then late s
    else if s.digOpen < 1024 then
      let c := { c with mixed := c.mixed || s.digMixed c.cohort c.replica c.openMin }
      let s := s.putDig c
      (if c.keyMix then s.wl L.DIGF_STAT_KEY_MIX 1 else s, true)
    else (((s.wl L.DIGF_STAT_NOCELL 1).il L.DIGF_CNT_NOCELL c.shards).miss src missNocell 0 c.shards, false)

/-- Two words as one value. -/
def pairAt (w : List Nat) (i : Nat) : Nat := nth w i + 2 ^ 32 * nth w (i + 1)

/-- DIG_SHARD_ARRIVAL (R307): a DIG_SHARD that R153 and R30 accepted, with the brim entry and epoch used; env is the
envelope it would be forwarded in. -/
def State.digShard (s : State) (q : Nat) (r : Rec) (full entry epoch : Nat) (env : Env) : State :=
  let w := nth r.body
  if !s.digOn then s
  else if !brimBound entry then s.il L.DIGF_CNT_UNBOUND
  else if r.part ≠ s.ri I.DIG_CFG_PART then s
  else
    let ok := bits (w 1) 8 3 == 0
    let z := fun i => if ok then pairAt r.body i else 0
    let c : DigCell := { cohort := brimCohort entry, replica := brimReplica entry, step := w 0, lo := pairAt r.body 10,
                         hi := pairAt r.body 12, keySeq := bits (w 1) 0 8, shards := 1, nBad := b2n !ok, d1 := z 2, d2 := z 4, v := z 6,
                         n := z 8, openMin := fullTime full (w 14), epochMin := epoch, epochMax := epoch, leaves := [q] }
    let m := s.digInput c (srcOf env r) full
    let s := if m.2 then m.1.il L.DIGF_CNT_SHARD else m.1
    if m.2 && s.rl L.DIGF_CTL_FORWARD == 1 then (s.send .up 0 (.fwd env r)).recCopy r true else s

/-- A DIG_PARTIAL that arrives from a child (R308). -/
def State.digPartialRx (s : State) (e : Env) (r : Rec) : State :=
  if s.digOn then
    let w := nth r.body
    let c : DigCell := { cohort := bits (w 1) 0 7, replica := bits (w 1) 7 8, step := w 0, lo := pairAt r.body 16, hi := pairAt r.body 18,
                         keySeq := bits (w 1) 15 8, keyMix := bitAt (w 1) 28, mixed := bitAt (w 1) 26, shards := w 2, nBad := w 3,
                         d1 := pairAt r.body 6, d2 := pairAt r.body 8, v := pairAt r.body 10, n := pairAt r.body 12,
                         openMin := pairAt r.body 14, epochMin := bits (w 5) 0 16, epochMax := bits (w 5) 16 16,
                         leaves := [s.childLeaf r.die] }
    (s.digInput c (srcOf e r) (envTime e r)).1
  else s

/-- DIG_PARTIAL_ARRIVAL (R308). -/
def execDigPartialArrival (e : Env) (r : Rec) (s : State) : Out :=
  if s.role ≠ 0 ∧ r.typ = 0x0A1 then .next (s.digPartialRx e r) else .next s

/-- The range is not the full one. -/
def ranged (lo hi : Nat) : Bool := lo != 0 || hi != 2 ^ 47

/-- Low and high word. -/
def words2 (v : Nat) : List Nat := [v % 2 ^ 32, v / 2 ^ 32 % 2 ^ 32]

/-- DIG_PARTIAL (R309). -/
def State.digPartial (s : State) (c : DigCell) : State :=
  (s.lamRec 0 0x0A1 s.nodeId (s.rl L.STAT_NODE_GEN) (s.now .lam)
    ([c.step, c.cohort ||| c.replica <<< 7 ||| c.keySeq <<< 15 ||| (s.role + 1) <<< 23 ||| b2n c.mixed <<< 26 |||
        b2n (c.epochMin != c.epochMax) <<< 27 ||| b2n c.keyMix <<< 28 ||| b2n (ranged c.lo c.hi) <<< 29,
      c.shards, c.nBad, s.digExpected c.cohort c.replica c.openMin, c.epochMin ||| c.epochMax <<< 16] ++
      words2 c.d1 ++ words2 c.d2 ++ words2 c.v ++ words2 c.n ++ words2 c.openMin ++ words2 c.lo ++ words2 c.hi)).1

/-- DIGEST_CELL_CLOSE (R308): on count, or on the timer. -/
def execDigestCellClose (cohort replica step lo hi : Nat) (s : State) : Out :=
  match s.findDig ⟨cohort, replica, step, lo, hi⟩ with
  | some c =>
    if !c.closed ∧ s.digOn ∧ (s.digExpected cohort replica c.openMin ≤ c.shards ∨ s.digEnd c.openMin ≤ s.now .lam) then
      let s := s.putDig { c with closed := true }
      .next (if s.isCrown then s else s.digPartial c)
    else .next s
  | none => .next s

/-! ### Comparison at the Crown (R310) -/

/-- k1 of a cohort for a KEY_SEQ: the current or the previous; none for another. -/
def State.cohKey (s : State) (c keySeq : Nat) : Option Nat :=
  if keySeq = s.rl L.DIGF_COH_KEY_SEQ c then some (s.rl L.DIGF_COH_KEY1_LO c + 2 ^ 32 * s.rl L.DIGF_COH_KEY1_HI c)
  else if keySeq = s.rl L.DIGF_COH_PREV_SEQ c then (s.lam.digPrev.find? fun p => p.1 == c).map (·.2)
  else none

/-- At a commit that changes the keys of cohort c: the former ones stay accepted (R310). old: the registers before it. -/
def State.digKeys (s : State) (old : Regs) (c : Nat) : State :=
  let seq := old.rd L.DIGF_COH_KEY_SEQ c
  if seq = s.rl L.DIGF_COH_KEY_SEQ c then s else
  let k := old.rd L.DIGF_COH_KEY1_LO c + 2 ^ 32 * old.rd L.DIGF_COH_KEY1_HI c
  ({ s with lam := { s.lam with digPrev := (s.lam.digPrev.filter fun p => p.1 != c) ++ [(c, k)] } } : State).wl
    L.DIGF_COH_PREV_SEQ seq c

/-- N_exp of a range. -/
def State.digNexp (s : State) (c lo hi : Nat) : Nat :=
  min hi (s.rl L.DIGF_EXPECT_N_LO c + 2 ^ 32 * s.rl L.DIGF_EXPECT_N_HI c) - lo

/-- V_exp of a range under k1. -/
def digVexp (k lo n : Nat) : Nat :=
  if n = 0 then 0 else
  powmod 48 k (lo + 1) * (powmod 48 k n + digP - 1) % digP * powmod 61 ((k + digP - 1) % digP) (digP - 2) % digP

/-- The first four tests of a replica: its status, or none where it is COMPLETE. -/
def State.digFirst (s : State) (cohort replica lo hi t : Nat) (o : Option DigCell) : Option Nat :=
  let want := s.digExpected cohort replica t
  if want = 0 then some 0 else
  let en := s.rl L.DIGF_COH_EN cohort == 1
  match o with
  | none => some (if en then 5 else 7)
  | some c =>
    match s.cohKey cohort c.keySeq with
    | none => some 7
    | some k =>
      let n := s.digNexp cohort lo hi
      if c.mixed || decide (c.epochMin ≠ c.epochMax) || c.keyMix || !en then some 7
      else if c.shards < s.digExpected cohort replica c.openMin ∨ 0 < c.nBad then some 5
      else if c.n ≠ n ∨ c.v ≠ digVexp k lo n then some 6
      else none

/-- Status of a COMPLETE replica of value x among the values of the COMPLETE ones. -/
def digRank (all : List (Nat × Nat)) (x : Nat × Nat) : Nat :=
  let maj := fun y => decide (all.length < 2 * all.count y) && decide (2 ≤ all.count y)
  if maj x then 1 else if all.any maj then 2 else if 2 ≤ all.length then 3 else 4

/-- Cells of a group, by replica. -/
def State.digGroup (s : State) (cohort step lo hi : Nat) : List DigCell :=
  s.lam.digCells.filter fun c => c.cohort == cohort && c.step == step && c.lo == lo && c.hi == hi

/-- Statuses of replicas 0 to 255. -/
def State.digStatuses (s : State) (cohort lo hi t : Nat) (g : List DigCell) : List Nat :=
  let cell := fun r => g.find? fun c => c.replica == r && c.closed
  let first := (List.range 256).map fun r => s.digFirst cohort r lo hi t (cell r)
  let all := (List.range 256).filterMap fun r =>
    if (first.getD r none).isNone then (cell r).map fun c => (c.d1, c.d2) else none
  (List.range 256).map fun r =>
    match first.getD r none with
    | some st => st
    | none => match cell r with
      | some c => digRank all (c.d1, c.d2)
      | none => 5

/-- STATUS words of DIG_RESULT: eight replicas a word. -/
def packStatus (st : List Nat) : List Nat :=
  (List.range 32).map fun i => (List.range 8).foldl (fun w k => w ||| nth st (8 * i + k) <<< (4 * k)) 0

/-- Held shards of a group and replica that are COMPLETE. -/
def State.shardsOf (s : State) (cohort step lo hi replica : Nat) : List HeldShard :=
  s.lam.digHeld.filter fun h => h.cohort == cohort && h.replica == replica && nth h.body 0 == step && pairAt h.body 10 == lo &&
    pairAt h.body 12 == hi && bits (nth h.body 1) 8 3 == 0

/-- R312: shards of diverged replicas that a shard of a passing one matches with another digest: shard and match. -/
def State.digLocate (s : State) (cohort step lo hi : Nat) (st : List Nat) : List (HeldShard × HeldShard) :=
  let pass := ((List.range 256).filter fun r => nth st r == 1).flatMap (s.shardsOf cohort step lo hi)
  let bad := ((List.range 256).filter fun r => nth st r == 2).flatMap (s.shardsOf cohort step lo hi)
  bad.filterMap fun h =>
    if pairAt h.body 8 = 0 then none else
    match pass.find? fun p => pairAt p.body 8 == pairAt h.body 8 && pairAt p.body 6 == pairAt h.body 6 with
    | some p => if pairAt p.body 2 = pairAt h.body 2 ∧ pairAt p.body 4 = pairAt h.body 4 then none else some (h, p)
    | none => none

/-- DIG_LOCATE, and the marking of the die (R312). -/
def State.digLocated (s : State) (cohort step : Nat) (p : HeldShard × HeldShard) : State :=
  let s := s.markSuspect p.1.die 3 (tbinOf (bits (nth p.1.body 1) 12 10)) 0
  (s.lamEmit 0 0x0A3 (s.now .lam)
    [p.1.die ||| p.1.replica <<< 17 ||| cohort <<< 25, step, p.2.die, s.mc32 .lam]).il L.DIGF_CNT_LOCATED

/-- DIGEST_COMPARE (R310 to R312): the group of a cohort, step and range, when every replica has a closed cell, or at OPEN_MIN
plus DIGF_CLOSE_MS. -/
def execDigestCompare (cohort step lo hi : Nat) (s : State) : Out :=
  let g := s.digGroup cohort step lo hi
  match g with
  | [] => .next s
  | c0 :: _ =>
    let t := g.foldl (fun m c => min m c.openMin) c0.openMin
    let reps := (List.range 256).filter fun r => decide (0 < s.digExpected cohort r t)
    if s.isCrown ∧ s.digOn ∧ (reps.all (fun r => g.any fun c => c.replica == r && c.closed) ∨ s.digEnd t ≤ s.now .lam) then
      let st := s.digStatuses cohort lo hi t g
      let n := fun k => (st.filter (· == k)).length
      let loc := s.digLocate cohort step lo hi st
      let s := { s with lam := { s.lam with digCells := s.lam.digCells.filter fun c => !g.contains c } }
      let s := if 0 < n 6 then s.wl L.DIGF_STAT_COVERAGE 1 else s
      let s := if 0 < n 2 then s.wl L.DIGF_STAT_DIVERGED 1 else s
      let s := (s.lamEmit 0 0x0A2 (s.now .lam)
        ([step, cohort ||| c0.keySeq <<< 7 ||| b2n (ranged lo hi) <<< 15 ||| reps.length <<< 16,
          n 1 ||| n 2 <<< 9 ||| min loc.length 16383 <<< 18, s.mc32 .lam] ++ words2 lo ++ words2 hi ++ packStatus st)).il L.DIGF_CNT_RESULT
      .next (loc.foldl (fun s p => s.digLocated cohort step p) s)
    else .next s

/-- A forwarded DIG_SHARD reaches the Crown, which keeps those of the last DIGF_KEEP windows of a cohort (R312). -/
def State.digKeep (s : State) (e : Env) (r : Rec) : State :=
  if !s.digOn then s else
  let h : HeldShard := { die := r.die, cohort := e.cohort, replica := e.replica, body := r.body }
  let win := fun (x : HeldShard) => (nth x.body 0, pairAt x.body 10, pairAt x.body 12)
  let l := s.lam.digHeld ++ [h]
  let wins := ((l.filter fun x => x.cohort == h.cohort).map win).dedup
  let keep := (wins.drop (wins.length - s.rl L.DIGF_KEEP))
  { s with lam := { s.lam with digHeld := l.filter fun x => x.cohort != h.cohort || keep.contains (win x) } }

end Sys2Proof.Machine
end

