-- ==== Sys2Proof/Machine/Drift.lean ====
section
/-! DEFINITION. Drift detectors (R236 to R243). -/

namespace Sys2Proof.Machine

/-- A detector area (R239) and its words. -/
structure DetArea where
  ewma : Nat
  sp : Nat
  sm : Nat
  z : Nat
  n : Nat
  set : Nat
  state : Nat
  refMc : Nat
  changeMc : Nat
deriving DecidableEq, Repr

/-- The area that 16 words hold. -/
def DetArea.ofWords (w : List Nat) : DetArea :=
  let n := nth w
  { ewma := n 0, sp := n 1, sm := n 2, z := n 3, n := bits (n 4) 0 16, set := bits (n 4) 16 6, state := bits (n 4) 22 3,
    refMc := n 5, changeMc := n 6 }

/-- The 16 words of an area. -/
def DetArea.words (d : DetArea) : List Nat :=
  [d.ewma, d.sp, d.sm, d.z, d.n ||| d.set <<< 16 ||| d.state <<< 22, d.refMc, d.changeMc] ++ List.replicate 9 0

/-- The time of the latch that an MC number (32 bits) and a slot name, in the Lamulo's chain. -/
def State.latchTime (s : State) (mc slot : Nat) : Nat :=
  match s.lam.mains.cur with
  | some a => (((a.start : Int) + sdiff32 mc (a.mc % 2 ^ 32) * a.length + slot * a.length / 64) / 2 ^ 32).toNat
  | none => 0

/-- QREF (R237, opcode 0x29): kept as the latest of its set and cohort. -/
def State.qref (s : State) (ws : List Nat) : State :=
  let n := nth ws
  let q : Qref := { set := bits (n 0) 0 6, cohort := bits (n 0) 6 7, mixed := bitAt (n 0) 13, epochMix := bitAt (n 0) 14,
                    thin := bitAt (n 0) 15, mc := n 1, slot := bits (n 2) 0 6, collapsed := n 3, q25 := n 4, q50 := n 5, q75 := n 6,
                    t := s.latchTime (n 1) (bits (n 2) 0 6) }
  { s with lam := { s.lam with qrefs := s.lam.qrefs.filter (fun x => !(x.set == q.set && x.cohort == q.cohort)) ++ [q] } }

/-- QREF (R237), executed by a Tray. -/
def execQref (h : CmdHdr) (words : List Nat) (s : State) : Out :=
  .next (s.cmdLam { h with opcode := 0x29 } fun s =>
    if s.role ≠ 0 then (s, { status := St.badTarget })
    else if !s.pdOn 15 then (s, { status := St.domainOff })
    else (s.qref words, {}))

/-- The set that applies to a tracker (R236): the lowest enabled one of its counter. -/
def State.detSet (s : State) (counter : Nat) : Option Nat :=
  (List.range 64).find? fun d => s.rl L.DET_SET_EN d == 1 && s.rl L.DET_SET_COUNTER d == counter

/-- The reference for an update at latch time t (R237). -/
def State.refFor (s : State) (d cohort t : Nat) : Option Qref :=
  s.lam.qrefs.find? fun q => q.set == d && q.cohort == cohort && decide (q.t ≤ t) &&
    decide (t - q.t ≤ s.rl L.DET_REF_AGE_MS * 1000000)

/-- DRIFT_VERDICT (R243). scope: the cohort-wide notice. -/
def State.driftVerdict (s : State) (die counter d tbin load : Nat) (byE byC scope : Bool) (b : Bind) (a : DetArea) : State :=
  let w := fun v => if scope then 0 else v
  (s.lamEmit 0 0x063 (s.now .lam)
    [w die ||| counter <<< 17 ||| a.state <<< 29,
     d ||| b2n byE <<< 6 ||| b2n byC <<< 7 ||| w tbin <<< 8 ||| w load <<< 14 ||| b2n scope <<< 18,
     w a.ewma, w a.sp, w a.sm, w a.z, w (b.rank ||| b.job <<< 15) ||| b.cohort <<< 21, s.mc32 .lam]).il L.DET_CNT_VERDICT

/-- FP32 nearest 1/1.349 (R238). -/
def cIqr : Nat := f32.round false 1000 1349 0

/-- FP32 half. -/
def f32Half : Nat := 0x3F000000

/-- The FP32 value of 2^-n. -/
def f32Pow (n : Nat) : Nat := f32.round false 1 (2 ^ n) 0

/-- z of R238: x against the reference, on a scale. -/
def driftZ (q : Qref) (x scale zclamp : Nat) : Nat :=
  let z := f32.div (f32.sub x q.q50) scale
  if f32.lt z (f32.neg zclamp) then f32.neg zclamp else if f32.lt zclamp z then zclamp else z

/-- Thresholds of a set. -/
structure DetCfg where
  k : Nat
  h : Nat
  hEwma : Nat
  shift : Nat
  warm : Nat

/-- The area after EWMA, CUSUM and state of R238; and which tests crossed, EWMA and CUSUM. -/
def DetArea.step (a : DetArea) (c : DetCfg) (z mc : Nat) : DetArea × Bool × Bool :=
  let ewma := f32.add a.ewma (f32.mul (f32.sub z a.ewma) (f32Pow c.shift))
  let n := min (a.n + 1) 65535
  let a := { a with z := z, refMc := mc, ewma := ewma, n := n }
  if n < c.warm then ({ a with sp := 0, sm := 0, state := 0 }, false, false) else
  let sp := f32.maxNum 0 (f32.sub (f32.add a.sp z) c.k)
  let sm := f32.maxNum 0 (f32.sub (f32.sub a.sm z) c.k)
  let eh := f32.le c.hEwma ewma
  let el := f32.le ewma (f32.neg c.hEwma)
  let ch := f32.le c.h sp
  let cl := f32.le c.h sm
  let quiet := f32.lt sp (f32.mul c.h f32Half) && f32.lt sm (f32.mul c.h f32Half) &&
    f32.lt (f32.abs ewma) (f32.mul c.hEwma f32Half)
  let a := { a with sp := sp, sm := sm }
  if eh || ch then ({ a with state := 2 }, eh, ch)
  else if el || cl then ({ a with state := 3 }, el, cl)
  else if a.state = 1 ∨ a.state = 0 ∨ a.state = 4 ∨ quiet then ({ a with state := 1 }, false, false)
  else (a, false, false)

/-- The cohort-wide notice of a pair (R243), at its first incomparable reference or the first comparable one after. -/
def State.incompNotice (s : State) (d counter cohort : Nat) (bad : Bool) : State :=
  let known := s.lam.incomp.contains (d, cohort)
  let a : DetArea := DetArea.ofWords []
  if bad && !known then
    ({ s with lam := { s.lam with incomp := s.lam.incomp ++ [(d, cohort)] } } : State).driftVerdict 0 counter d 0 0 false false true
      { cohort := cohort } { a with state := 4 }
  else if !bad && known then
    ({ s with lam := { s.lam with incomp := s.lam.incomp.filter (· != (d, cohort)) } } : State).driftVerdict 0 counter d 0 0 false
      false true { cohort := cohort } { a with state := 1 }
  else s

/-- DETECTOR_UPDATE (R238) of tracker t at latch time lt: the state with its effects, and the detector area. -/
def State.detUpdate (s : State) (q : Nat) (t : Tracker) (d lt : Nat) : State × List Nat :=
  let a0 := DetArea.ofWords t.detect
  let keep := ({ a0 with set := d } : DetArea).words
  let none' := (s.il L.DET_CNT_REF_NONE).wl L.DET_STAT_REF_STALE 1
  match s.refFor d t.bind.cohort lt with
  | none => (none', t.detect)
  | some r =>
    if r.thin then (none', t.detect)
    else if r.mixed || r.epochMix then
      let s := (s.wl L.DET_STAT_INCOMPARABLE 1).incompNotice d t.counter t.bind.cohort true
      (s, ({ a0 with set := d, state := 4, changeMc := if a0.state = 4 then a0.changeMc else s.mc32 .lam } : DetArea).words)
    else
      let s := s.incompNotice d t.counter t.bind.cohort false
      let x := if s.rl L.DET_SET_FIELD d = 1 then t.rate else t.frac
      let scale := f32.maxNum (f32.mul (f32.sub r.q75 r.q25) cIqr) (f32.mul (s.rl L.DET_FLOOR d) (f32.abs r.q50))
      if f32.abs scale = 0 then (s.il L.DET_CNT_REF_NONE, keep) else
      let u := ({ a0 with set := d } : DetArea).step
        { k := s.rl L.DET_K d, h := s.rl L.DET_H d, hEwma := s.rl L.DET_H_EWMA d, shift := s.rl L.DET_SET_EWMA_SHIFT d,
          warm := s.rl L.DET_WARM d } (driftZ r x scale (s.rl L.DET_ZCLAMP d)) r.mc
      let changed := u.1.state != a0.state
      let a := if changed then { u.1 with changeMc := s.mc32 .lam } else u.1
      let out := fun st => st == 2 || st == 3
      let p := s.det q
      let s := if changed && (out a0.state || out a.state) then
          s.driftVerdict t.die t.counter d ((p.temp.map tbinOf).getD 0) p.load u.2.1 u.2.2 false t.bind a
        else s
      (s, a.words)

/-- LOAD_CLASS_ASSIGN (R242) for the die on port q, from its trackers for BUSY and WAIT. -/
def State.loadOf (s : State) (q : Nat) (busy wait : Tracker) : Nat :=
  let d := s.det q
  let m := s.mc .lam
  let half := 0x3F000000
  let near := fun (o : Option Nat) n => match o with | some k => decide (m ≤ k + n) | none => false
  if near d.testMc 0 then 1
  else if near d.bandMc 1 then 2
  else if 0 < d.ballast then 3
  else if f32.le half wait.frac then 4
  else if f32.le 0x3F400000 busy.frac then 5
  else if f32.le 0x3E800000 busy.frac then 6
  else if busy.warm = 0 ∨ wait.warm = 0 then 0
  else 7

/-- The load class assigned, once per MC. -/
def State.assignLoad (s : State) (q die : Nat) : State :=
  let d := s.det q
  if d.loadMc = some (s.mc .lam) then s else
  let tr := fun c => match s.trkOf (some q) die c with | i :: _ => s.trkAt i | [] => {}
  let load := s.loadOf q (tr (s.rl L.DET_LOAD_CFG_BUSY)) (tr (s.rl L.DET_LOAD_CFG_WAIT))
  s.setDet q { d with load := load, loadMc := some (s.mc .lam) }

/-- The detector of hardware tracker i after an accepted interval at the die's SAMPLE_SLOT. -/
def State.detRun (s : State) (q i lt : Nat) : State :=
  let t := s.trkAt i
  if s.rl L.DET_CTL_DRIFT_EN = 1 ∧ s.pdOn 15 ∧ t.bind.bound then
    match s.detSet t.counter with
    | some d =>
      let u := s.detUpdate q t d lt
      u.1.setTrk i { t with detect := u.2 }
    | none => s
  else s

end Sys2Proof.Machine
end

