-- ==== Sys2Proof/Machine/Egress.lean ====
section
/-! DEFINITION. The Ethernet ports of a Lamulo: framing, credits, shaping, gates, liveness and change of parent (R358 to
R372). -/

namespace Sys2Proof.Machine

/-- Ethernet port p. -/
def State.ep (s : State) (p : Nat) : EthPort := s.lam.eth.ports.getD p {}

/-- The same, replaced. -/
def State.setEp (s : State) (p : Nat) (v : EthPort) : State :=
  { s with lam := { s.lam with eth := { s.lam.eth with ports := setNth {} s.lam.eth.ports p v } } }

/-- Channel c of a port. -/
def EthPort.ch (e : EthPort) (c : Nat) : EthChan := e.chans.getD c {}

/-- The same, replaced. -/
def EthPort.setCh (e : EthPort) (c : Nat) (v : EthChan) : EthPort := { e with chans := setNth {} e.chans c v }

/-- ROLE of a port (R359). -/
def State.portRole (s : State) (p : Nat) : Nat := s.rl L.ETH_PORT_CFG_ROLE p

/-- Line rate of port p in Gb/s, 0 where its group's mode has no port there or its domain is off (R358). -/
def State.lineRate (s : State) (p : Nat) : Nat :=
  if 24 ≤ p ∨ !s.pdOn (if p < 12 then 9 else 10) then 0 else
  match bits (s.rl L.ETH_GRP_CFG_MODE) (2 * (p / 4)) 2 with
  | 0 => 50
  | 1 => if p % 2 = 0 then 100 else 0
  | 2 => if p % 4 = 0 then 200 else 0
  | _ => 0

/-- The port of a role, if there is one. -/
def State.roleAt (s : State) (r : Nat) : Option Nat := (List.range 24).find? fun p => s.portRole p == r

/-- The parent port in use (R369). -/
def State.upPort (s : State) : Option Nat :=
  if s.isCrown then none else s.roleAt (if s.lam.eth.onSec then 2 else 1)

/-! ### Items and frames -/

/-- Bytes of an item in a frame (R360): a record with its envelope, a command packet, a ledger message. -/
def Item.size : Item → Nat
  | .fwd _ r => 32 + r.size
  | .rcd r => r.size
  | .cmd p => 16 * p.len16
  | .ledger ws => 4 * ws.length
  | .mains _ => 0

/-- Bytes between the Vaosh header and the L2 header (R360): IPv4 or IPv6, and UDP. -/
def State.encapLen (s : State) (p : Nat) : Nat :=
  match s.rl L.ETH_PORT_CFG_ENCAP p with
  | 1 => 28
  | 2 => 48
  | _ => 0

/-- Bytes of a frame from the destination address to the FCS (R363); IEEE 802.3 frames have at least 64. -/
def State.frameLen (s : State) (p : Nat) (items : List Item) : Nat :=
  max 64 (18 + 4 * s.rl L.ETH_PORT_CFG_VLAN_EN p + s.encapLen p + 16 + (items.map Item.size).sum)

/-- The items at the head of a queue that a payload has room for, at most 255, and the rest. -/
def takeItems (room : Nat) : Nat → List Item → List Item × List Item
  | 0, l => ([], l)
  | _, [] => ([], [])
  | n + 1, i :: l =>
    if i.size ≤ room then
      let r := takeItems (room - i.size) n l
      (i :: r.1, r.2)
    else ([], i :: l)

/-- Receive buffer of a channel in frames (R361). -/
def chanBuffer (c : Nat) : Nat := if c = 0 then 8 else if c = 1 then 32 else if c = 2 then 16 else 4

/-- A new frame may be sent: credit remains (R361). -/
def EthChan.credit (c : EthChan) (n : Nat) : Bool := decide ((c.fseq + 65536 - c.lim) % 65536 < chanBuffer n)

/-! ### Routing of items to ports (R371, R380) -/

/-- The child on port p takes its commands from this node (R21, R371): the route that a PARENT_CHANGE set for it leads there, or,
with no such route, it lies below the node by its position; the standby Crown has only children that have moved to it. -/
def State.isKid (s : State) (p : Nat) : Bool :=
  let n := s.rl L.ETH_PORT_PEER_NODE p
  s.portRole p == 3 && s.rl L.ETH_PORT_PEER_STANDBY p == 0 &&
    match s.lam.eth.routes.find? fun x => x.1 == n with
    | some x => x.2 == p
    | none => !s.isStandby && nodeUnder s.nodeNo n

/-- The child port toward node n: the route or peer that names the nearest node at or above n. -/
def State.routeTo (s : State) (n : Nat) : Option Nat :=
  let peers := ((List.range 24).filter s.isKid).map fun p => (s.rl L.ETH_PORT_PEER_NODE p, p)
  let all := (s.lam.eth.routes ++ peers).filter fun x => nodeUnder x.1 n
  (all.foldl (fun (best : Option (Nat × Nat)) x =>
    match best with
    | none => some x
    | some b => if nodeRank b.1 < nodeRank x.1 then some x else best) none).map (·.2)

/-- The ports to which a destination leads. -/
def State.dstPorts (s : State) : Dst → List Nat
  | .up => if s.isCrown then (List.range 24).filter fun p => s.portRole p == 4 else s.upPort.toList
  | .down p => [p]
  | .all => (List.range 24).filter fun p => s.portRole p == 3 && s.rl L.ETH_PORT_PEER_STANDBY p == 0
  | .kids => (List.range 24).filter s.isKid
  | .standby => (List.range 24).filter fun p => s.portRole p == 3 && s.rl L.ETH_PORT_PEER_STANDBY p == 1
  | .node n => (s.routeTo n).toList

/-- An item queued on channel c of port p. -/
def State.pushItem (s : State) (p c : Nat) (i : Item) : State :=
  let e := s.ep p
  let h := e.ch c
  s.setEp p (e.setCh c { h with queue := h.queue ++ [i] })

/-- An item that waits: a record of a node that has not yet taken its epoch and banks from its parent (R160, R458). -/
def State.itemWaits (s : State) : Item → Bool
  | .fwd _ _ => !s.originates
  | _ => false

/-- Items waiting for egress are laid into the queues of their ports; one with no port stays. -/
def State.spread (s : State) : State :=
  let l := s.lam.egress
  l.foldl (fun s x =>
    match if s.itemWaits x.item then [] else s.dstPorts x.dst with
    | [] => { s with lam := { s.lam with egress := s.lam.egress ++ [x] } }
    | ps => ps.foldl (fun s p => s.pushItem p x.chan x.item) s) { s with lam := { s.lam with egress := [] } }

/-! ### Gates (R365, R366) -/

/-- Entry e of port p's gate list. -/
def State.gcl (s : State) (p e : Nat) : Nat := s.rl L.GCL p e

/-- Entries in force. -/
def State.gclLen (s : State) (p : Nat) : Nat := s.rl L.GATE_CTL_LEN p

/-- The next slot boundary after the local time, if there are slots (R68). -/
def State.nextBoundary (s : State) : Option Nat :=
  if s.slotsOk .lam then s.lam.mains.cur.map fun a => a.boundary (s.now .lam + 1) else none

/-- From entry e, begun at t: the first time before the slot's end at which gate c is closed. -/
def gateShut (g : Nat → Nat) (len c : Nat) (stop : Option Nat) : Nat → Nat → Nat → Option Nat
  | 0, _, _ => none
  | n + 1, e, t =>
    if (stop.map fun b => decide (b ≤ t)).getD false then none
    else if !bitAt (g e) c then some t
    else if e + 1 < len then gateShut g len c stop n (e + 1) (t + g e / 256)
    else none

/-- The time at which gate c of port p next closes; none where it stays open. -/
def State.gateCloses (s : State) (p c : Nat) : Option Nat :=
  if s.rl L.GATE_CTL_EN p = 0 then none else
  let len := s.gclLen p
  let b := s.nextBoundary
  match gateShut (s.gcl p) len c b 256 (s.rl L.GATE_STAT_ENTRY p) (s.ep p).gateAt with
  | some t => some t
  | none =>
    match b with
    | some b => gateShut (s.gcl p) len c none 256 0 b
    | none => none

/-- Gate c of port p is open now. -/
def State.gateOpen (s : State) (p c : Nat) : Bool :=
  s.rl L.GATE_CTL_EN p == 0 || bitAt (s.gcl p (s.rl L.GATE_STAT_ENTRY p)) c

/-- Gate entry e comes into force at time t. -/
def State.setGate (s : State) (p e t : Nat) : State :=
  let st := if s.rl L.GATE_CTL_EN p = 0 then 0x3F else s.gcl p e % 64
  ((s.wl L.GATE_STAT_ENTRY e p).wl L.GATE_STAT_STATES st p).setEp p { s.ep p with gateAt := t }

/-- GATE_ENTRY_CHANGE (R365): the entry's interval has passed; the last one holds until the boundary, where the cycle restarts. -/
def execGateEntryChange (p : Nat) (s : State) : Out :=
  if 24 ≤ p then .next s else
  let now := s.now .lam
  let e := s.rl L.GATE_STAT_ENTRY p
  let t := (s.ep p).gateAt
  let last := match s.lam.mains.cur with
    | some a => if s.slotsOk .lam then some (a.slotAt (s.lam.mains.slot - 1)) else none
    | none => none
  match last with
  | some b => if t < b ∧ b ≤ now then .next (s.setGate p 0 b)
      else if e + 1 < s.gclLen p ∧ t + s.gcl p e / 256 ≤ now then .next (s.setGate p (e + 1) (t + s.gcl p e / 256)) else .next s
  | none => if e + 1 < s.gclLen p ∧ t + s.gcl p e / 256 ≤ now then .next (s.setGate p (e + 1) (t + s.gcl p e / 256)) else .next s

/-- A frame of n bytes sent now ends before gate c closes, with 20 bytes of overhead at the line rate (R366). -/
def State.endsInTime (s : State) (p c n : Nat) : Bool :=
  match s.gateCloses p c with
  | none => true
  | some t => decide ((n + 20) * 8 < s.lineRate p * (t - s.now .lam))

/-! ### Shaping (R363) -/

/-- The shaper of a channel refilled to the local time. -/
def State.shaped (s : State) (p c : Nat) (h : EthChan) : EthChan :=
  { h with level := min (s.rl L.SHP_BURST p c * 1000000) (h.level + s.rl L.SHP_RATE p c * (s.now .lam - h.at0)),
           at0 := s.now .lam }

/-- The refilled shaper allows a frame of n bytes. -/
def State.shapeOk (s : State) (p c n : Nat) (h : EthChan) : Bool :=
  s.rl L.SHP_RATE p c == 0 || decide (n * 1000000 ≤ h.level)

/-- The length of a frame sent is deducted. -/
def State.shapeTake (s : State) (p c n : Nat) (h : EthChan) : EthChan :=
  if s.rl L.SHP_RATE p c = 0 then h else { h with level := h.level - n * 1000000 }

/-! ### Sending (R361, R362, R366) -/

/-- The frame that channel c of port p would send and the channel after it: one to be sent again or taken over, or a
new one. -/
def State.candidate (s : State) (p c : Nat) (re : Bool) : Option (Frame × EthChan) :=
  let e := s.ep p
  let h := e.ch c
  let hold := s.lam.eth.failback.isSome && s.portRole p == 2
  if re then
    match h.again, h.moved with
    | f :: r, _ => some ({ f with resent := true }, { h with again := r })
    | [], f :: r =>
      if h.credit c then
        let f := { f with resent := true, fseq := h.fseq }
        some (f, { h with moved := r, fseq := (h.fseq + 1) % 65536, kept := h.kept ++ [f] })
      else none
    | [], [] => none
  else if h.queue = [] ∨ !h.credit c ∨ hold then none
  else
    let t := takeItems (s.rl L.ETH_MTU - s.encapLen p - 16) 255 h.queue
    let f : Frame := { chan := c, restart := !e.heard, fseq := h.fseq, src := s.nodeNo, standby := s.isStandby, items := t.1 }
    some (f, { h with queue := t.2, fseq := (h.fseq + 1) % 65536, kept := h.kept ++ [f] })

/-- A frame leaves with the credit and acknowledgement of the channel whose turn it is (R361, R362). -/
def State.emitFrame (s : State) (p : Nat) (f : Frame) : State :=
  let e := s.ep p
  let h := e.ch e.turn
  s.setEp p { e with out := some { f with credit := some (e.turn, h.rxFreed), ack := some (e.turn, (h.rxSeq + 65535) % 65536) },
                     turn := (e.turn + 1) % 6 }

/-- The candidates in R366's order: the first that is eligible is sent; one that waits for its gate is counted once. -/
def State.pickFrame (p : Nat) : List (Nat × Bool) → State → State
  | [], s => s
  | (c, re) :: r, s =>
    match s.candidate p c re with
    | none => State.pickFrame p r s
    | some (f, h) =>
      let n := s.frameLen p f.items
      let h := s.shaped p c h
      if !s.gateOpen p c || !s.shapeOk p c n h then State.pickFrame p r s
      else if s.endsInTime p c n then
        let s := s.setEp p ((s.ep p).setCh c { s.shapeTake p c n h with waited := false })
        let s := if re then s.il L.ETH_CNT_RESENT 1 p else s
        s.emitFrame p f
      else
        let k := (s.ep p).ch c
        let s := if k.waited then s else (s.il L.EGR_CNT_GATE_WAIT 1 p).setEp p ((s.ep p).setCh c { k with waited := true })
        State.pickFrame p r s

/-- Channels in the order of R366. -/
def sendOrder : List Nat := [0, 5, 3, 4, 1, 2]

/-- Items of channel c wait to go up. -/
def State.upBusy (s : State) (c : Nat) : Bool :=
  match s.upPort with
  | some p => (((s.ep p).ch c).queue != []) || (((s.ep p).ch c).moved != []) || s.lam.egress.any fun x => x.dst == .up && x.chan == c
  | none => false

/-- The receive buffer of channel c is freed unless an item of that channel waits to go up. -/
def State.freeChan (s : State) (c : Nat) (h : EthChan) : EthChan :=
  if c < 4 ∧ s.upBusy c then h else { h with rxFreed := (h.rxFreed + h.rxHeld) % 65536, rxHeld := 0 }

/-- Frames of child ports are freed once no item of their channel waits to go up (R361, R369). -/
def State.freeFrames (s : State) : State :=
  (List.range 24).foldl (fun s p =>
    if s.portRole p = 3 then s.setEp p { s.ep p with chans := (List.range 6).map fun c => s.freeChan c ((s.ep p).ch c) } else s) s

/-- A port that exists, has a part in the tree, and whose link is up. -/
def State.portLive (s : State) (p : Nat) : Bool :=
  let r := s.portRole p
  (1 ≤ r && decide (r ≤ 4)) && s.lineRate p != 0 && s.rl L.ETH_PORT_STAT_UP p == 1

/-- ETH_FRAME_TX (R366). -/
def execEthFrameTx (p : Nat) (s : State) : Out :=
  let s := s.spread
  if s.portLive p then
    .next (State.pickFrame p (sendOrder.map (fun c => (c, true)) ++ sendOrder.map (fun c => (c, false))) s).freeFrames
  else .next s

/-- ETH_LINK_FRAME_TX (R360, R368): a LINK frame bypasses gates and shapers. -/
def execEthLinkFrameTx (p : Nat) (s : State) : Out :=
  if 24 ≤ p ∨ s.lineRate p = 0 ∨ s.portRole p = 0 ∨ s.portRole p = 5 then .next s
  else .next (s.emitFrame p { chan := 6, restart := !(s.ep p).heard, src := s.nodeNo, standby := s.isStandby })

/-- PAUSE_FRAME_RX (R361). -/
def execPauseFrameRx (p : Nat) (s : State) : Out :=
  if p < 24 then .next (s.il L.ETH_CNT_PAUSE 1 p) else .next s

/-! ### Credit, acknowledgement, NAK -/

/-- CREDIT of channel c received. -/
def State.ethCredit (s : State) (p : Nat) : Option (Nat × Nat) → State
  | some (c, v) =>
    if c < 6 then s.setEp p ((s.ep p).setCh c { (s.ep p).ch c with lim := v % 65536 }) else s
  | none => s

/-- The first k frames of a list in FSEQ order are acknowledged where v is the last FSEQ received in order. -/
def ackFrames (v : Nat) (l : List Frame) : List Frame := l.filter fun f => decide (0 < sdiff16 f.fseq v)

/-- ACK of channel c received (R362). -/
def State.ethAck (s : State) (p : Nat) : Option (Nat × Nat) → State
  | some (c, v) =>
    if c < 6 then
      let e := { s.ep p with heard := true }
      let h := e.ch c
      s.setEp p (e.setCh c { h with kept := ackFrames v h.kept, again := ackFrames v h.again })
    else s
  | none => s

/-- NAK of channel c naming an FSEQ (R362): the frames from it on are sent again in order. -/
def State.ethNak (s : State) (p c v : Nat) : State :=
  if c < 6 then
    let e := s.ep p
    let h := e.ch c
    s.setEp p (e.setCh c { h with again := h.kept.filter fun f => decide (0 ≤ sdiff16 f.fseq v) })
  else s

/-! ### Change of parent (R369, R372) -/

/-- A forwarded record that failed over (R369). -/
def Item.failedOver : Item → Item
  | .fwd e r => .fwd ({ e with failover := true } : Env).seal r
  | i => i

/-- The time source follows the parent link (R55). -/
def State.switchSource (s : State) (src : Nat) : State :=
  if s.lam.clk.source then s.wl L.TIME_STAT_SOURCE src else s

/-- The child moves to its secondary (sec) or its primary: kept frames are resent there, the rest follows, the time source
switches and PARENT_CHANGE is emitted (R369). -/
def State.moveParent (s : State) (sec : Bool) (cause : Nat) : State :=
  let s := s.spread
  match s.roleAt (if sec then 1 else 2), s.roleAt (if sec then 2 else 1) with
  | some o, some n =>
    let a := s.ep o
    let b := s.ep n
    let kept := (List.range 6).map fun c => ((a.ch c).kept ++ (a.ch c).moved).map fun f =>
      { f with items := f.items.map Item.failedOver }
    let s := s.setEp n { b with chans := (List.range 6).map fun c =>
      { b.ch c with queue := (a.ch c).queue, moved := kept.getD c [], again := [], kept := [], fseq := 0, lim := 0, waited := false } }
    let s := s.setEp o { a with chans := (List.range 6).map fun c =>
      { a.ch c with queue := [], moved := [], again := [], kept := [], fseq := 0, lim := 0, waited := false } }
    let s := { s with lam := { s.lam with eth := { s.lam.eth with onSec := sec, failback := none } } }
    let s := (s.wl L.ETH_PORT_STAT_CARRYING 0 o).wl L.ETH_PORT_STAT_CARRYING 1 n
    let s := s.switchSource (b2n sec)
    let count := (kept.map List.length).sum
    s.lamEmit 0 0x0D0 (s.now .lam)
      [cause ||| b2n sec <<< 2 ||| s.nodeNo <<< 3, s.rl L.ETH_PORT_PEER_NODE n ||| s.rl L.ETH_PORT_PEER_STANDBY n <<< 19,
       satN 32 count, s.mc32 .lam]
  | _, _ => s

/-- The link of port p is lost: signal, or liveness alone. -/
def State.portLost (s : State) (p : Nat) (signal : Bool) : State :=
  let s := (if signal then s.wl L.ETH_PORT_STAT_UP 0 p else s).wl L.ETH_PORT_STAT_LIVE 0 p
  s.setEp p { s.ep p with liveFrom := none }

/-- The primary in use has failed (R369). -/
def State.failover (s : State) (p cause : Nat) : State :=
  if s.portRole p = 1 ∧ !s.lam.eth.onSec then s.moveParent true cause else s

/-- PARENT_LOS (R369): loss of signal on a parent port. -/
def execParentLos (p : Nat) (s : State) : Out :=
  if p < 24 ∧ (s.portRole p = 1 ∨ s.portRole p = 2) then .next ((s.portLost p true).failover p 0) else .next s

/-- LIVENESS_TIMEOUT (R369): no LINK frame for EGR_LIVE_US on a parent port. -/
def execLivenessTimeout (p : Nat) (s : State) : Out :=
  if p < 24 ∧ (s.portRole p = 1 ∨ s.portRole p = 2) ∧ s.rl L.ETH_PORT_STAT_LIVE p = 1 ∧
      s.rl L.EGR_LIVE_US * 1000 ≤ s.now .lam - (s.ep p).lastLink then
    .next ((s.portLost p false).failover p 1)
  else .next s

/-- PARENT_CHANGE_RX (R371): a PARENT_CHANGE that passes up from port p sets the route of its child's subtree. -/
def State.parentChange (s : State) (p : Nat) (r : Rec) : State :=
  let n := bits (nth r.body 0) 3 19
  { s with lam := { s.lam with eth := { s.lam.eth with routes := s.lam.eth.routes.filter (fun x => x.1 != n) ++ [(n, p)] } } }

/-- PARENT_CHANGE_RX (R371). -/
def execParentChangeRx (p : Nat) (r : Rec) (s : State) : Out :=
  if p < 24 ∧ s.portRole p = 3 ∧ r.typ = 0x0D0 then .next (s.parentChange p r) else .next s

/-- No frame is kept on port p. -/
def EthPort.idle (e : EthPort) : Bool := e.chans.all fun h => h.kept == [] && h.moved == []

/-- A failback completes once the secondary keeps nothing (R372). -/
def State.failbackTry (s : State) : State :=
  match s.lam.eth.failback, s.roleAt 2 with
  | some _, some n => if (s.ep n).idle then s.moveParent false 3 else s
  | _, _ => s

/-- A transaction of this node is prepared (R372). -/
def State.prepared (s : State) : Bool := s.lam.ctl.stg.any fun g => g.voted

/-- FAILBACK (R372): the primary has been live for EGR_FAILBACK_MS. -/
def execFailback (s : State) : Out :=
  match s.roleAt 1 with
  | some p =>
    match (s.ep p).liveFrom with
    | some t =>
      if s.lam.eth.onSec ∧ s.lam.eth.failback = none ∧ s.rl L.EGR_FAILBACK_MS ≤ msSince (s.now .lam) t then
        if s.conservative .lam ∨ s.prepared then .next (s.il L.EGR_CNT_FAILBACK_REFUSED)
        else .next ({ s with lam := { s.lam with eth := { s.lam.eth with failback := some (s.now .lam) } } } : State).failbackTry
      else .next s
    | none => .next s
  | none => .next s

/-- FAILBACK_ACK_TIMEOUT (R372): 2 ms after it began. -/
def execFailbackAckTimeout (s : State) : Out :=
  match s.lam.eth.failback with
  | some t => if 2000000 ≤ s.now .lam - t then .next (s.moveParent false 3) else .next s
  | none => .next s

/-- PARENT_SET (R369). -/
def State.opParentSet (s : State) (sec : Bool) : State × CmdRes :=
  match s.roleAt 1, s.roleAt 2 with
  | some _, some _ => if s.isCrown then (s, { status := St.badParam })
      else if s.lam.eth.onSec = sec then (s, {}) else (s.moveParent sec 2, {})
  | _, _ => (s, { status := St.badParam })

/-- PARENT_SET (R369, opcode 0x1A). -/
def execParentSet (h : CmdHdr) (sec : Bool) (s : State) : Out :=
  .next (s.cmdLam { h with opcode := 0x1A } fun s => s.opParentSet sec)

/-- A node asks its parent for the configuration in force (R160, R396). -/
def State.epochAsk (s : State) : State :=
  match s.upPort with
  | some p => let k := s.ownPkt 0x1C 2 (s.rl L.ETH_PORT_PEER_NODE p) true []; k.1.send .up 4 (.cmd k.2)
  | none => s

/-- ETH_LINK_FRAME_RX (R360, R362): liveness, CREDIT, ACK and NAK. In a NAK, ACK_CH names the channel (log entry 49). A parent whose link
comes back is asked for the epoch and banks (R160, R396, R458). -/
def execEthLinkFrameRx (p : Nat) (f : Frame) (s : State) : Out :=
  if 24 ≤ p ∨ f.chan ≠ 6 ∨ s.portRole p = 0 ∨ s.portRole p = 5 then .next s else
  let now := s.now .lam
  let ask := s.rl L.ETH_PORT_STAT_LIVE p == 0 && s.upPort == some p
  let s := (s.wl L.ETH_PORT_STAT_UP 1 p).wl L.ETH_PORT_STAT_LIVE 1 p
  let e := s.ep p
  let s := s.setEp p { e with lastLink := now, liveFrom := some (e.liveFrom.getD now) }
  let s := if ask then s.epochAsk else s
  let s := s.ethCredit p f.credit
  if f.nak then .next (s.ethNak p ((f.ack.map (·.1)).getD 6) f.fseq)
  else .next (s.ethAck p f.ack).failbackTry

end Sys2Proof.Machine
end

