-- ==== Sys2Proof/Machine/ForestScore.lean ====
section
/-! DEFINITION. The front stage, the walk of trees and the scores of the forest engine (R248, R249, R253 to R260, R266). -/

namespace Sys2Proof.Machine

/-! ### Feature sources (R248) -/

/-- What a vector is formed for: port of its die (Tray), die, own tracker, latch instant. -/
structure Subj where
  port : Option Nat
  die : Nat
  own : Option Nat
  t : Nat

/-- The tracker that a feature names. -/
def State.featTrk (s : State) (b : Subj) (f : Feat) : Option Tracker :=
  if f.own then b.own.map s.trkAt else
  match s.trkOf b.port b.die f.counter with
  | i :: _ => some (s.trkAt i)
  | [] => none

/-- Value of a tracker-sourced feature. stale: STALE_MS in ns. -/
def trkSource (f : Feat) (k : Tracker) (t stale : Nat) : Option Nat :=
  let d := DetArea.ofWords k.detect
  if k.lastTime + stale < t then none
  else if f.kind = 4 then
    (if d.state = 0 ∨ d.state = 4 then none else some (nth [d.z, d.ewma, d.sp, d.sm] f.sub))
  else if !k.valid ∨ k.warm < f.minWarm then none
  else match f.kind with
    | 0 => some k.rate
    | 1 => some k.frac
    | 2 => if k.totalNs = 0 then none else some (fp32Quot (k.total * 1000000000) k.totalNs)
    | _ =>
      let e := k.ring.getD ((k.head + 63 - f.lag) % 32) (0, 0)
      if e.2 = 0 ∨ k.warm ≤ f.lag then none else some (fp32Quot (e.1 * 1000000000) e.2)

/-- Value of a feature (table "Feature sources"). -/
def State.source (s : State) (b : Subj) (f : Feat) (stale : Nat) : Option Nat :=
  let tray := s.role == 0
  match f.kind, b.port with
  | 5, some q =>
    let g := (s.det q).strag
    if !tray || g.state = 0 then none
    else some (match f.sub with
      | 0 => f32.ofInt g.late
      | 1 => f32.ofInt g.xlate
      | _ => f32.ofInt (onesIn g.lastMap 32))
  | 6, some q =>
    let v := if f.sub = 0 then ((s.det q).temp.map tbinOf).getD 0 else (s.det q).load
    if !tray || v = 0 then none else some (f32.ofInt v)
  | 7, some q =>
    let d := s.det q
    if !tray || d.readMc ≠ some (s.mc .lam) || s.rl L.LNK_STAT_PORT q ≠ 2 then none
    else if f.sub = 0 then some (f32.ofInt d.watts) else d.temp.map fun v => f32.ofInt (toS 10 v)
  | 8, some q => (s.lam.fst.stv.find? fun v => v.1 == q && v.2.1 == f.counter && v.2.2.1 == b.t).map fun v => v.2.2.2
  | k, _ => if k < 5 then (s.featTrk b f).bind fun t => trkSource f t b.t stale else none

/-! ### The front stage (R249) -/

/-- What the front stage has made of the features so far. -/
structure Front where
  codes : List Nat := []
  ys : List (Option Nat) := []
  nonfinite : Nat := 0
  sat : Nat := 0

/-- An FP32 value that is an integer from 0 to 255. -/
def f32Byte (v : Nat) : Option Nat :=
  match f32.dec v with
  | .fin neg m e =>
    let q := scaleFrac m 1 e
    if m = 0 then some 0
    else if neg || q.1 % q.2 ≠ 0 || 255 < q.1 / q.2 then none else some (q.1 / q.2)
  | _ => none

/-- The operation of a crossing. -/
def crossOp (op a b : Nat) : Nat :=
  match op with
  | 0 => f32.sub a b
  | 1 => f32.mul a b
  | 2 => f32.div a b
  | 3 => f32.minNum a b
  | _ => f32.maxNum a b

/-- The last lines of R249: a scaled value to its code. -/
def Front.code (r : Front) (m : Img) (f : Feat) (v : Nat) : Front :=
  if !f32Fin v then { r with codes := r.codes ++ [f.miss], ys := r.ys ++ [none], nonfinite := r.nonfinite + 1 }
  else
    { r with codes := r.codes ++ [((m.edges f).filter fun e => f32.le e v).length], ys := r.ys ++ [some v],
             sat := r.sat + b2n (f32.lt v f.lo || f32.lt f.hi v) }

/-- A feature that is missing. -/
def Front.miss (r : Front) (f : Feat) : Front := { r with codes := r.codes ++ [f.miss], ys := r.ys ++ [none] }

/-- Coding of one feature whose source value, if it has one, is x (R249). -/
def Front.step (r : Front) (m : Img) (f : Feat) (x : Option Nat) : Front :=
  if f.cross then
    match r.ys.getD f.a none, r.ys.getD f.b none with
    | some a, some b => r.code m f (crossOp f.op a b)
    | _, _ => r.miss f
  else match x with
    | none => r.miss f
    | some x =>
      if !f32Fin x then { r.miss f with nonfinite := r.nonfinite + 1 }
      else if f.cat then
        match f32Byte x with
        | none => r.miss f
        | some c => { r with codes := r.codes ++ [m.u8 (m.ctabOfs + 256 * f.ctab + c)], ys := r.ys ++ [none] }
      else
        let v := f32.mul (f32.sub x f.offset) f.scale
        r.code m f (if f.log2p && f32Fin v then (if f32.abs v = 0 then v else Config.log2p v % 2 ^ 32) else v)

/-- The front stage for a subject. -/
def State.front (s : State) (m : Img) (b : Subj) (stale : Nat) : Front :=
  m.feats.foldl (fun r f => r.step m f (s.source b f stale)) {}

/-- Features present in a vector (R251). -/
def Front.present (r : Front) (m : Img) : Nat := ((m.feats.zip r.codes).filter fun p => p.2 != p.1.miss).length

/-! ### Walks (R253, R254) -/

/-- walk_level from node i, with fuel for as many nodes. -/
def Img.walk (m : Img) (t : Tree) (v : FVec) : Nat → Nat → Nat
  | 0, _ => 0
  | n + 1, i =>
    let w := m.node t i
    let f := nodeFeat w
    let ft := m.feat f
    let c := nth v.codes f
    let hi := w / 2 ^ 32
    if nodeKind w = 0 then nodeLeaf w else
    let left :=
      if c = ft.miss then nodeDefLeft w
      else match nodeKind w with
        | 1 => decide (c ≤ bits hi 0 8)
        | 2 => if ft.w8 then bitAt (m.u8 (t.body + m.u32 (t.body + 8) + 32 * hi + c / 8)) (c % 8) else bitAt hi c
        | _ => match v.ys.getD f none with
          | some y => f32.le y hi
          | none => nodeDefLeft w
    Img.walk m t v n (if left then i + 1 else nodeRight w)

/-- Comparator j of a wide tree. -/
def Img.wideCmp (m : Img) (t : Tree) (v : FVec) (j : Nat) : Nat :=
  let w := m.wSlot t (m.wCmp t j)
  let f := bits w 0 10
  let c := nth v.codes f
  if c = (m.feat f).miss then b2n (bitAt w 10) else b2n (decide (c ≤ m.wT t j))

/-- walk_wide. -/
def Img.walkWide (m : Img) (t : Tree) (v : FVec) : Nat :=
  (List.range 8).foldl (fun k _ => 2 * k + 2 - m.wideCmp t v k) 0 - 255

/-- The leaf that a vector reaches in a tree. -/
def Img.reach (m : Img) (t : Tree) (v : FVec) : Nat :=
  if t.wide then m.walkWide t v else m.walk t v (m.u32 t.body) 0

/-! ### Scores (R258) -/

/-- The exact sums s_o and A_o of a vector, over primary or shadow leaves. -/
def Img.exact (m : Img) (v : FVec) (o : Nat) (shadow : Bool) : Fp × Fp :=
  let b := f32.dec (m.bias o)
  (m.trees.filter fun t => t.out == o).foldl (fun a t =>
    let x := if shadow then m.shadowLeaf t (m.reach t v) else m.leaf t (m.reach t v)
    (a.1.add x, a.2.add x.abs)) (b, b.abs)

/-- A value times 2^-n. -/
def Fp.scaleDown (n : Nat) : Fp → Fp
  | .fin neg m e => .fin neg m (e - n)
  | v => v

/-- An FP32 sum that the engine forms for exact x within 2^-15 of a (R258): any such value, so a free one; where the free
value does not lie within the bound, x rounded. free: the trees or leaves read are not those verified (R293). -/
def State.roughly (s : State) (x a : Fp) (free : Bool) : State × Nat :=
  let c := s.free.1 % 2 ^ 32
  let ok := free || ((f32.dec c).isFin && ((f32.dec c).add x.neg).abs.le (a.scaleDown 15))
  (s.free.2, if ok then c else f32.enc x)

/-- Scores of one output: s and A as the engine forms them. -/
def State.score (s : State) (m : Img) (v : FVec) (o : Nat) (shadow free : Bool) : State × Nat × Nat :=
  let x := m.exact v o shadow
  let r := s.roughly x.1 x.2 free
  let q := r.1.roughly x.2 x.2 free
  (q.1, r.2, q.2)

/-- The scores of the first n outputs. -/
def State.scores (s : State) (m : Img) (v : FVec) (shadow free : Bool) : Nat → State × List (Nat × Nat)
  | 0 => (s, [])
  | n + 1 =>
    let p := State.scores s m v shadow free n
    let r := p.1.score m v n shadow free
    (r.1, p.2 ++ [r.2])

/-- NEAR of an output against its threshold (R259). -/
def nearOf (sc : Nat × Nat) (th : Nat) : Bool :=
  ((f32.dec sc.1).add (f32.dec th).neg).abs.le ((f32.dec sc.2).scaleDown 14)

/-- The two sides of R266 for an output: the difference and what is allowed. -/
def shadowSides (p q : Nat × Nat) (qb : Nat) : Fp × Fp :=
  (((f32.dec p.1).add (f32.dec q.1).neg).abs,
   (f32.dec qb).add (((f32.dec p.2).add (f32.dec q.2)).scaleDown 14))

end Sys2Proof.Machine
end

