-- ==== Sys2Proof/Machine/GauntletI.lean ====
section
/-! DEFINITION. The Gauntlet in the ITU (R322 to R329): the test buffer, canary tiles and sliced self-test. -/

namespace Sys2Proof.Machine

/-- GNT_STAGE at the ITU (R322): bytes laid into the 128 KiB test buffer of an engine that is IDLE or STAGED; the
level is the highest byte staged. -/
def State.opGntStage (s : State) (off : Nat) (bs : List Nat) : State × CmdRes :=
  let st := s.ri I.GNT_STAT_STATE
  if !s.ipdOn 3 then (s, { status := St.domainOff })
  else if 131072 < off + bs.length then (s, { status := St.badParam })
  else if 2 ≤ st then (s, { status := St.busy })
  else
    let b := if st = 0 then [] else s.itu.gnt.buf
    let b := (b ++ List.replicate (off - b.length) 0).take off ++ bs ++ b.drop (off + bs.length)
    let s := (s.wi I.GNT_STAT_STATE 1).wi I.GNT_BUF_LEVEL b.length
    (s.setGnt { s.itu.gnt with buf := b }, {})

/-- GNT_STAGE (R322, opcode 0x3A). -/
def execGntStage (h : CmdHdr) (off : Nat) (bs : List Nat) (s : State) : Out :=
  .next (s.cmdItu { h with opcode := 0x3A } fun s => s.opGntStage off (bs.map (· % 256)))

/-- The ITU refuses GNT_RUN (R322). -/
def State.gntRefused (s : State) (e : List Nat) : Bool :=
  let slice := bits (nth e 0) 0 2 == 1
  let p := bits (nth e 0) 18 4
  s.ri I.GNT_STAT_STATE != 1 || s.ri (if slice then I.ITU_FN_EN_GAUNTLET else I.ITU_FN_EN_CANARY) == 0 ||
    decide (s.itu.par.partitions ≤ p) || s.ri I.PART_STAT_STATE p != 0 ||
    (!slice && decide (s.itu.par.canary ≤ bits (nth e 0) 4 6)) ||
    (slice && decide (2 ^ s.itu.par.testPorts ≤ bits (nth e 1) 0 16))

/-- The test raise of a slice, in step quanta (R329). -/
def State.gntRaise (s : State) (e : List Nat) : Nat := ceilDiv (bits (nth e 2) 0 16) s.quantum

/-- GNT_RUN at the ITU (R322, R323, R325): the item is refused, or a canary goes to RUN with cnry_req transferred,
or a slice to WAIT_POWER with its raise asked, and ends there at once while the band is frozen. -/
def State.opGntRun (s : State) (c : GntItem) : State × CmdRes :=
  if !s.ipdOn 3 then (s, { status := St.domainOff })
  else if s.gntRefused c.entry then
    ((s.wi I.GNT_STAT_REFUSED 1).ii I.GNT_CNT_REFUSED, { status := St.busy })
  else
    let g := s.itu.gnt
    let s := s.setGnt { buf := g.buf, cur := c }
    let s := ((s.wi I.GNT_CUR_ITEM c.item).wi I.GNT_CUR_PART (bits (nth c.entry 0) 18 4)).wi I.GNT_CUR_PKG_ID c.pkg
    if s.gntSlice then
      let s := (s.wi I.GNT_MISMATCH 0).gntState 2
      if s.ri I.LDG_STAT_FROZEN ≠ 0 then (s.gntPowerLost, {})
      else (s.wi I.LDG_TOK_ASK_TR (s.gntRaise c.entry), {})
    else
      ((s.gntState 4).setPins { s.itu.pins with cnry := some (bits (nth c.entry 0) 4 6) }, {})

/-- GNT_RUN (R322, opcode 0x3B). That the run is part of a retest is a datum of the command whose place in the
packet the manual does not give (log entry 21). -/
def execGntRun (h : CmdHdr) (item pkg load : Nat) (retest : Bool) (entry : List Nat) (s : State) : Out :=
  .next (s.cmdItu { h with opcode := 0x3B } fun s =>
    s.opGntRun { item := item % 4096, pkg := pkg % 65536, load := load % 16, retest := retest,
                 entry := entry.map (· % 2 ^ 32) })

/-! ### Canary tiles -/

/-- A canary tile is running. -/
def State.canaryRuns (s : State) : Bool := s.ri I.GNT_STAT_STATE == 4 && !s.gntSlice

/-- CANARY_OUTPUT_BEAT (R323): 128 bytes through the CRC-64, byte 0 first; the last beat decides. -/
def execCanaryOutputBeat (data : Nat) (last : Bool) (s : State) : Out :=
  if s.canaryRuns then
    let g := s.itu.gnt
    let s := s.setGnt { g with beats := g.beats + 1, crc := crcFeed 3 g.crc (leBytes 128 data) }
    if last then
      let ok := s.itu.gnt.beats = bits (s.gntWord 7) 0 11 ∧ s.itu.gnt.crc = s.gntExpect
      .next ((s.canaryEnd (if ok then 0 else 1) false).pdTryAll)
    else .next s
  else .next s

/-- CANARY_TIMEOUT (R323, R91 H13): no last beat within 500 us of cnry_req. -/
def execCanaryTimeout (s : State) : Out :=
  if s.canaryRuns && decide (500000 ≤ s.now .itu - s.itu.gnt.since) then
    .next ((((s.ii I.ITU_CNT_CANARY_TO).wi I.ITU_FAULT_CANARY_TO 1).canaryEnd 2 false).pdTryAll)
  else .next s

/-! ### Slices -/

/-- sr_req raised (R325): op 0 saves, 1 restores the item's region. -/
def State.srReq (s : State) (op : Nat) : State :=
  s.setPins { s.itu.pins with sr := some (op, bits (s.gntWord 0) 10 8) }

/-- Counts the one bits among the low n bits. -/
def popcount : Nat → Nat → Nat
  | 0, _ => 0
  | n + 1, v => v % 2 + popcount n (v / 2)

/-- The lowest one bit among the low n bits, counted from i. -/
def lowBit (i : Nat) : Nat → Nat → Option Nat
  | 0, _ => none
  | n + 1, v => if v % 2 = 1 then some i else lowBit (i + 1) n (v / 2)

/-- A number from 32-bit words, word 0 lowest. -/
def ofWords : List Nat → Nat
  | [] => 0
  | w :: ws => w % 2 ^ 32 + 2 ^ 32 * ofWords ws

/-- Mismatches of one WDR op on every port (R326): the number, and the lowest mismatched bit of any port. -/
def wdrCmp (n expect mask : Nat) (wso : List Nat) : Nat × Option Nat :=
  let ds := wso.map fun w => ((w ^^^ expect) &&& mask) % 2 ^ n
  (ds.foldl (fun a d => a + popcount n d) 0, lowBit 0 n (ds.foldl (· ||| ·) 0))

/-- The pattern ops (R318) in order, with the tst_wso values sampled for the WDR ops that ran: mismatches so far
and the first mismatch. k counts ops, fuel bounds them. -/
def sliceRun (k : Nat) (acc : Nat × Option (Nat × Nat)) : Nat → List Nat → List (List Nat) → Nat × Option (Nat × Nat)
  | 0, _, _ => acc
  | _ + 1, [], _ => acc
  | fuel + 1, w :: ws, wso =>
    let n := bits w 0 16
    let nw := ceilDiv n 32
    match bits w 28 4, wso with
    | 0, _ => acc
    | 2, _ => sliceRun (k + 1) acc fuel (ws.drop (ceilDiv (bits w 0 12) 32)) wso
    | 3, o :: rest =>
      let c := wdrCmp n (ofWords ((ws.drop nw).take nw)) (ofWords ((ws.drop (2 * nw)).take nw)) o
      let first := match acc.2, c.2 with
        | some f, _ => some f
        | none, some b => some (k, b)
        | none, none => none
      sliceRun (k + 1) (acc.1 + c.1, first) fuel (ws.drop (3 * nw)) rest
    | 3, [] => acc
    | _, _ => sliceRun (k + 1) acc fuel ws wso

/-- The comparisons of the WDR ops that ran are recorded (R326). -/
def State.sliceCompare (s : State) (wso : List (List Nat)) : State :=
  let ws := bytesToWords (s.itu.gnt.buf.take (s.gntWord 4))
  let r := sliceRun 0 (0, none) (ws.length + 1) ws wso
  (s.wi I.GNT_MISMATCH (satN 32 r.1)).setGnt { s.itu.gnt with first := r.2 }

/-- A slot boundary has passed since time t (R325). -/
def State.slotSince (s : State) (t : Nat) : Bool :=
  s.slotsOk .itu && (match s.itu.mains.cur with | some a => decide (a.boundary (t + 1) ≤ s.now .itu) | none => false)

/-- SLICE_POWER_READY (R325, R329): the first slot boundary after the full test raise stands, or after GNT_RUN where
none is needed. -/
def execSlicePowerReady (s : State) : Out :=
  let t := if s.ri I.LDG_TOK_ASK_TR = 0 then s.itu.gnt.since else max s.itu.gnt.since s.itu.pwr.ceilAt
  if s.ri I.GNT_STAT_STATE = 2 ∧ s.ri I.LDG_TOK_ASK_TR ≤ s.ri I.LDG_TOK_TR ∧ s.slotSince t then
    .next ((s.gntWaited.gntState 3).srReq 0)
  else .next s

/-- SLICE_POWER_TIMEOUT (R325): GNT_WAIT_MC mains cycles, at the length of the current one, in WAIT_POWER. -/
def execSlicePowerTimeout (s : State) : Out :=
  let len := match s.itu.mains.cur with | some a => a.length | none => 0
  if s.ri I.GNT_STAT_STATE = 2 ∧ s.ri I.GNT_WAIT_MC * len ≤ (s.now .itu - s.itu.gnt.since) * 2 ^ 32 then
    .next (s.gntWaited.sliceEnd 2 1 false)
  else .next s

/-- A save or restore failed (R325, R91 H14): SKIPPED SAVE or SKIPPED RESTORE. -/
def State.srFail (s : State) : State :=
  let s := (s.ii I.ITU_CNT_SR_TO).wi I.ITU_FAULT_SR_TO 1
  s.sliceEnd 2 (if s.ri I.GNT_STAT_STATE = 3 then 2 else 3) false

/-- SR_ACK (R325): a save ends in RUN, a restore in the result. -/
def execSrAck (err : Bool) (s : State) : Out :=
  if s.ri I.GNT_STAT_STATE = 3 then
    if err then .next s.srFail else .next ((s.setPins { s.itu.pins with sr := none }).gntState 4)
  else if s.ri I.GNT_STAT_STATE = 5 then
    if err then .next s.srFail
    else if s.itu.gnt.cause ≠ 0 then .next (s.sliceEnd 2 s.itu.gnt.cause false)
    else .next (s.sliceEnd (if s.ri I.GNT_MISMATCH = 0 then 0 else 1) 0 false)
  else .next s

/-- SR_TIMEOUT (R325, R91 H14): no acknowledge within 50 us. -/
def execSrTimeout (s : State) : Out :=
  if (s.ri I.GNT_STAT_STATE = 3 ∨ s.ri I.GNT_STAT_STATE = 5) ∧ 50000 ≤ s.now .itu - s.itu.gnt.since then .next s.srFail
  else .next s

/-- RUN ends and the region is restored (R325); cause is a SKIPPED cause already decided, or 0. -/
def State.sliceRestore (s : State) (cause : Nat) : State :=
  let s := (s.gntRan.gntState 5).srReq 1
  s.setGnt { s.itu.gnt with cause := cause }

/-- A slice is in RUN. -/
def State.sliceRuns (s : State) : Bool := s.ri I.GNT_STAT_STATE == 4 && s.gntSlice

/-- SLICE_PATTERN_END (R325, R326): END reached; wso holds, for each WDR op, tst_wso of the ports driven. -/
def execSlicePatternEnd (wso : List (List Nat)) (s : State) : Out :=
  if s.sliceRuns then .next ((s.sliceCompare wso).sliceRestore 0) else .next s

/-- SLICE_OVERTIME (R325): DURATION_US in RUN; wso holds what was sampled. -/
def execSliceOvertime (wso : List (List Nat)) (s : State) : Out :=
  if s.sliceRuns && decide (bits (s.gntWord 2) 16 16 * 1000 ≤ s.now .itu - s.itu.gnt.since) then
    .next ((s.sliceCompare wso).sliceRestore 4)
  else .next s

/-- ABORT (R328): the item ends; a completed save is restored first. An item only staged is discarded without a
record (log entry 22). -/
def State.gntAbort (s : State) (wso : List (List Nat)) : State :=
  match s.ri I.GNT_STAT_STATE with
  | 1 => s.gntIdle
  | 2 => s.gntWaited.sliceEnd 2 6 false
  | 3 => s.sliceEnd 2 6 false
  | 4 => if s.gntSlice then (s.sliceCompare wso).sliceRestore 6 else (s.canaryEnd 2 false).pdTryAll
  | 5 => s.setGnt { s.itu.gnt with cause := 6 }
  | _ => s

/-- GNT_CTL_ABORT (R328): FLEET authority. -/
def execGntCtlAbort (iss : Issuer) (wso : List (List Nat)) (s : State) : Out :=
  let g := s.ituGuard iss I.GNT_CTL_ABORT.addr true 0
  if g.2 then .next (g.1.gntAbort wso) else .next g.1

/-- The owner of the running item enters QUIESCE (R328): the item ends with no restore and its record waits. What
tst_wso showed until then reaches the model in no command: a pattern cut in RUN reports free mismatches (log
entry 23). -/
def State.gntQuiesce (s : State) (p : Nat) : State :=
  if s.gntPart ≠ p then s else
  match s.ri I.GNT_STAT_STATE with
  | 2 => s.gntWaited.sliceEnd 2 5 true
  | 3 => s.sliceEnd 2 5 true
  | 4 =>
    if s.gntSlice then
      let a := s.free
      let b := a.2.free
      let s := (b.2.wi I.GNT_MISMATCH a.1).setGnt
        { b.2.itu.gnt with first := some (bits b.1 0 16, bits b.1 16 16) }
      s.gntRan.sliceEnd 2 5 true
    else (s.canaryEnd 2 true).pdTryAll
  | 5 => s.sliceEnd 2 5 true
  | _ => s

/-- The held result once its partition is in RUN again, under the new generation (R328). -/
def State.gntRelease (s : State) (p : Nat) : State :=
  match s.itu.gnt.held with
  | some r =>
    if r.part = p then
      let s := s.setGnt { s.itu.gnt with held := none }
      (s.ituOffer { r with gen := s.ri I.PART_STAT_GEN p }).1.gntIdle
    else s
  | none => s

/-- The held result of a partition that went to HUNG is dropped (R328). -/
def State.gntHung (s : State) (p : Nat) : State :=
  match s.itu.gnt.held with
  | some r => if r.part = p then (s.setGnt { s.itu.gnt with held := none }).gntIdle else s
  | none => s

end Sys2Proof.Machine
end

