-- ==== Sys2Proof/Machine/StcCore.lean ====
section
/-! DEFINITION. Stitch contexts (17): their state in either part, faults and stops, slot buffers, budgets, waits. -/

namespace Sys2Proof.Machine

/-- A register field of either part. -/
def State.rx (s : State) (sd : Side) (Fi Fl : Fld) (i : Nat := 0) : Nat :=
  match sd with | .itu => s.ri Fi i | .lam => s.rl Fl i

/-- A register field of either part set. -/
def State.wx (s : State) (sd : Side) (Fi Fl : Fld) (v : Nat) (i : Nat := 0) : State :=
  match sd with | .itu => s.wi Fi v i | .lam => s.wl Fl v i

/-- A counter of either part advanced. -/
def State.ix (s : State) (sd : Side) (Fi Fl : Fld) (i : Nat := 0) : State :=
  match sd with | .itu => s.ii Fi 1 i | .lam => s.il Fl 1 i

/-- The stitch contexts of a part. -/
def State.stc (s : State) : Side → Stc
  | .itu => s.itu.stc
  | .lam => s.lam.stc

/-- The stitch contexts of a part replaced. -/
def State.setStc (s : State) (sd : Side) (v : Stc) : State :=
  match sd with
  | .itu => { s with itu := { s.itu with stc := v } }
  | .lam => { s with lam := { s.lam with stc := v } }

/-- Context c of a part. -/
def State.ctx (s : State) (sd : Side) (c : Nat) : StcCtx := (s.stc sd).ctx.getD c {}

/-- Context c of a part replaced. -/
def State.setCtx (s : State) (sd : Side) (c : Nat) (v : StcCtx) : State :=
  s.setStc sd { s.stc sd with ctx := setNth {} (s.stc sd).ctx c v }

/-- Contexts, program store, local memory words and slot buffers of a part (R403). -/
def stcContexts : Side → Nat | .itu => 4 | .lam => 32
def stcStore : Side → Nat | .itu => 1024 | .lam => 16384
def stcMem : Side → Nat | .itu => 512 | .lam => 8192
def stcSlots : Side → Nat | .itu => 64 | .lam => 1024

/-- STC_CTX_STAT.STATE. -/
def State.ctxState (s : State) (sd : Side) (c : Nat) : Nat := s.rx sd I.STC_CTX_STAT_STATE L.STC_CTX_STAT_STATE c

/-- STATE set. -/
def State.setCtxState (s : State) (sd : Side) (c v : Nat) : State :=
  s.wx sd I.STC_CTX_STAT_STATE L.STC_CTX_STAT_STATE v c

/-- The status of a context, LAST (R416). -/
def State.setLast (s : State) (sd : Side) (c v : Nat) : State :=
  s.wx sd I.STC_CTX_STAT_LAST L.STC_CTX_STAT_LAST v c

/-- Owner partition of an ITU context (R405). -/
def State.owner (s : State) (c : Nat) : Nat := s.ri I.STC_CTX_CFG_OWNER c

/-- The contexts of a part may run: IPD4 on and ITU_FN_EN.STITCH, or STC_CTL.ENABLE. -/
def State.stcOn (s : State) : Side → Bool
  | .itu => s.ipdOn 4 && s.ri I.ITU_FN_EN_STITCH == 1
  | .lam => s.rl L.STC_CTL_ENABLE == 1

/-- The context no longer waits. -/
def State.unwait (s : State) (sd : Side) (c : Nat) : State :=
  let s := s.setStc sd { s.stc sd with stalled := (s.stc sd).stalled.filter (· != c) }
  s.setCtx sd c { s.ctx sd c with wait := .none }

/-! ### Stops and faults -/

/-- A context stops with a cause (R404); one that is stopped or in FAULT stays as it is. -/
def State.stcStop (s : State) (sd : Side) (c cause : Nat) : State :=
  if s.ctxState sd c = 0 ∨ s.ctxState sd c = 6 then s else
  ((s.unwait sd c).setCtxState sd c 0).wx sd I.STC_CTX_STAT_CAUSE L.STC_CTX_STAT_CAUSE cause c

/-- Every context of a part stops with cause DISABLED. -/
def State.stcDisable (s : State) (sd : Side) : State :=
  (List.range (stcContexts sd)).foldl (fun s c => s.stcStop sd c 7) s

/-- STITCH_FAULT of context c (R417). -/
def State.stcFaultBody (s : State) (sd : Side) (c cause instr : Nat) : List Nat :=
  [c ||| cause <<< 5, (s.ctx sd c).pc % 65536 ||| s.rx sd I.STC_CTX_PROG L.STC_CTX_PROG c <<< 16, instr % 2 ^ 32, s.mc32 sd]

/-- The context enters FAULT (R404, R417). A fault of cause RESET is held for the owner's RUN. -/
def State.stcFault (s : State) (sd : Side) (c cause instr : Nat) : State :=
  let body := s.stcFaultBody sd c cause instr
  let s := ((s.unwait sd c).setCtxState sd c 6).wx sd I.STC_CTX_STAT_CAUSE L.STC_CTX_STAT_CAUSE cause c
  let v := s.rx sd I.STC_STAT_FAULT L.STC_STAT_FAULT
  let s := s.wx sd I.STC_STAT_FAULT L.STC_STAT_FAULT (v ||| 2 ^ c)
  match sd with
  | .lam => s.lamEmit 0 0x0F1 (s.now .lam) body
  | .itu =>
    let r := s.ituRec 0 0x0F1 (s.owner c) (s.now .itu) body
    if cause = 6 then s.setCtx .itu c { s.ctx .itu c with held := some r }
    else (s.ituEmit 0 0x0F1 (s.owner c) (s.now .itu) body).1

/-- The instruction word at the context's PC (R406): store word BASE + PC. -/
def State.stcWord (s : State) (sd : Side) (c : Nat) : Nat :=
  Sparse.get 0 (s.stc sd).store ((s.rx sd I.STC_CTX_CFG_BASE L.STC_CTX_CFG_BASE c + (s.ctx sd c).pc) % stcStore sd)

/-- An advance of p's generation stops its contexts with cause RESET (R405). -/
def State.stcOwnerReset (s : State) (p : Nat) : State :=
  (List.range 4).foldl (fun s c =>
    if s.owner c = p ∧ s.ctxState .itu c ≠ 0 ∧ s.ctxState .itu c ≠ 6 then s.stcFault .itu c 6 (s.stcWord .itu c) else s) s

/-- The held STITCH_FAULT records of p's contexts once p is in RUN (R417). -/
def State.stcRelease (s : State) (p : Nat) : State :=
  (List.range 4).foldl (fun s c =>
    match (s.ctx .itu c).held with
    | some r =>
      if s.owner c = p then
        (s.ituOffer { r with gen := s.ri I.PART_STAT_GEN p }).1.setCtx .itu c { s.ctx .itu c with held := none }
      else s
    | none => s) s

/-! ### Going on -/

/-- PC set, with its register. -/
def State.setPc (s : State) (sd : Side) (c v : Nat) : State :=
  (s.setCtx sd c { s.ctx sd c with pc := v }).wx sd I.STC_CTX_PC L.STC_CTX_PC v c

/-- A context in RUN whose PC lies outside its program faults (R404 PC_RANGE): there is no instruction word, INSTR is
a free value (log entry 24). One whose budget is spent enters BUDGET (R409). -/
def State.stcGoOn (s : State) (sd : Side) (c : Nat) : State :=
  if s.ctxState sd c ≠ 1 then s
  else if (s.ctx sd c).nInstr ≤ (s.ctx sd c).pc then
    let f := s.free
    f.2.stcFault sd c 4 f.1
  else if s.rx sd I.STC_CTX_BUDGET L.STC_CTX_BUDGET c ≤ (s.ctx sd c).spent then
    (s.setCtxState sd c 5).ix sd I.STC_CNT_BUDGET L.STC_CNT_BUDGET c
  else s

/-- A wait ends: the context is in RUN again. -/
def State.stcResume (s : State) (sd : Side) (c : Nat) : State := ((s.unwait sd c).setCtxState sd c 1).stcGoOn sd c

/-- Register x of a context (R404). -/
def StcCtx.reg (k : StcCtx) (n : Nat) : Nat := if n = 0 then 0 else nth k.x n

/-- Register n of context c written; x0 discards. -/
def State.setX (s : State) (sd : Side) (c n v : Nat) : State :=
  if n = 0 then s else
  let k := s.ctx sd c
  s.setCtx sd c { k with x := setNth 0 k.x n (v % 2 ^ 64) }

/-! ### Slot buffers -/

/-- FULL of a slot. -/
def State.slotFull (s : State) (sd : Side) (n : Nat) : Bool := s.rx sd I.SLOT_STAT_FULL L.SLOT_STAT_FULL n == 1

/-- The word of a slot. -/
def State.slotData (s : State) (sd : Side) (n : Nat) : Nat := Sparse.get 0 (s.stc sd).slots n

/-- A slot emptied. -/
def State.slotEmpty (s : State) (sd : Side) (n : Nat) : State := s.wx sd I.SLOT_STAT_FULL L.SLOT_STAT_FULL 0 n

/-- A slot filled. -/
def State.slotFill (s : State) (sd : Side) (n v : Nat) : State :=
  (s.setStc sd { s.stc sd with slots := Sparse.set 0 (s.stc sd).slots n (v % 2 ^ 64) }).wx sd
    I.SLOT_STAT_FULL L.SLOT_STAT_FULL 1 n

/-- A stalled context served if the slot allows it (R412): a reader takes from a full slot, a writer fills an empty
one. -/
def State.stcServe (s : State) (sd : Side) (c : Nat) : State :=
  match (s.ctx sd c).wait with
  | .read n d =>
    if s.slotFull sd n then
      ((((s.slotEmpty sd n).setX sd c d (s.slotData sd n)).setLast sd c 0)).stcResume sd c
    else s
  | .write n v => if s.slotFull sd n then s else ((s.slotFill sd n v).setLast sd c 0).stcResume sd c
  | _ => s

/-- Stalled contexts served in the order in which they stalled, k times over the list. -/
def State.stcServeAll (s : State) (sd : Side) : Nat → State
  | 0 => s
  | k + 1 => State.stcServeAll ((s.stc sd).stalled.foldl (fun s c => s.stcServe sd c) s) sd k

/-- The slots of a part served until nothing can move: a pass may let through what an earlier one could not. -/
def State.stcSettle (s : State) (sd : Side) : State := s.stcServeAll sd (stcContexts sd)

/-- A register or command read of a slot (R413): the word and the slot emptied, or none. -/
def State.slotPop (s : State) (sd : Side) (n : Nat) : Option Nat × State :=
  if s.slotFull sd n then (some (s.slotData sd n), (s.slotEmpty sd n).stcSettle sd) else (none, s)

/-- A register or command write of a slot (R413): filled, or refused. -/
def State.slotPush (s : State) (sd : Side) (n v : Nat) : Bool × State :=
  if s.slotFull sd n then (false, s) else (true, (s.slotFill sd n v).stcSettle sd)

/-! ### Boundaries, budgets and waits -/

/-- The budget of a context refilled (R409). -/
def State.stcRefill (s : State) (sd : Side) (c : Nat) : State :=
  let s := s.setCtx sd c { s.ctx sd c with spent := 0, refillAt := s.now sd }
  if s.ctxState sd c = 5 then s.setCtxState sd c 1 else s

/-- The clock count at a latch edge (R404): SMP_CYC in the ITU; in a Lamulo the core cycle count, which no clock of
the manual's is tied to, a free value (log entry 25). -/
def State.latchCount (s : State) : Side → Nat × State
  | .itu => (s.itu.smp.cyc, s)
  | .lam => (s.free.1 % 2 ^ 64, s.free.2)

/-- A boundary with latch index n (64 times the MC, plus the slot) at fleet time t meets the wait of context c (R410). -/
def State.stcMatch (s : State) (sd : Side) (c t n : Nat) : State :=
  match (s.ctx sd c).wait with
  | .slot sl d ph none =>
    let p := if ph ∧ sd = .itu then (sl + s.itu.smp.phase) % 64 else sl
    if n % 2 ^ d = p % 2 ^ d then
      let k := s.latchCount sd
      k.2.setCtx sd c { k.2.ctx sd c with wait := .slot sl d ph (some (t, n, k.1)) }
    else s
  | _ => s

/-- A slot boundary at the contexts of a part (R409, R410): budgets refilled, waits met. -/
def State.stcBoundary (s : State) (sd : Side) (t n : Nat) : State :=
  (List.range (stcContexts sd)).foldl (fun s c => (s.stcRefill sd c).stcMatch sd c t n) s

/-- WAITS_RELEASE (R410): the boundary has come and, in the ITU, ITU_TAP_LAT + 1 cycles have passed since its edge. -/
def execWaitsRelease (sd : Side) (c : Nat) (s : State) : Out :=
  match (s.ctx sd c).wait with
  | .slot _ _ _ (some (t, n, e)) =>
    if sd = .lam ∨ e + s.itu.par.tapLat + 1 ≤ s.itu.smp.cyc then
      .next ((s.setCtx sd c { s.ctx sd c with latch := some (t, n, e) }).stcResume sd c)
    else .next s
  | _ => .next s

/-- WAITT_RELEASE (R411): local time has reached the target. -/
def execWaittRelease (sd : Side) (c : Nat) (s : State) : Out :=
  match (s.ctx sd c).wait with
  | .time t => if t ≤ s.now sd then .next ((s.setLast sd c 0).stcResume sd c) else .next s
  | _ => .next s

/-- SLOT_WAIT_TIMEOUT (R412): TO_US of a slot have passed in a stall. -/
def execSlotWaitTimeout (sd : Side) (c : Nat) (s : State) : Out :=
  let due := fun n => decide (s.rx sd I.SLOT_CFG_TO_US L.SLOT_CFG_TO_US n * 1000 ≤ s.now sd - (s.ctx sd c).since)
  match (s.ctx sd c).wait with
  | .read n d =>
    if due n then
      .next ((((s.setX sd c d 0).setLast sd c 1).ix sd I.STC_CNT_EMPTY_TO L.STC_CNT_EMPTY_TO c).stcResume sd c)
    else .next s
  | .write n _ =>
    if due n then .next (((s.setLast sd c 2).ix sd I.STC_CNT_FULL L.STC_CNT_FULL c).stcResume sd c) else .next s
  | _ => .next s

/-- BUDGET_REFILL (R409): while R52 fails, every 260,000 ns of local time. -/
def execBudgetRefill (sd : Side) (c : Nat) (s : State) : Out :=
  if c < stcContexts sd ∧ !s.slotsOk sd ∧ 260000 ≤ s.now sd - (s.ctx sd c).refillAt then .next (s.stcRefill sd c)
  else .next s

end Sys2Proof.Machine
end

