-- ==== Sys2Proof/Machine/Partition.lean ====
section
/-! DEFINITION. Partitions of the ITU: reset triggers and sequence (R145 to R151), generation advances (R149, R159),
hang detection (R146). -/

namespace Sys2Proof.Machine

/-- Reset sequence of partition p. -/
def State.pseq (s : State) (p : Nat) : PartSeq := s.itu.parts.getD p {}

/-- Reset sequence of partition p replaced. -/
def State.setPseq (s : State) (p : Nat) (v : PartSeq) : State :=
  { s with itu := { s.itu with parts := setNth {} s.itu.parts p v } }

/-- PART_STAT.STATE of p. -/
def State.pstate (s : State) (p : Nat) : Nat := s.ri I.PART_STAT_STATE p

/-- The 16 ms since p's last generation advance have not passed (R145). -/
def State.inGap (s : State) (p : Nat) : Bool :=
  match (s.pseq p).lastAdv with
  | some t => decide (s.now .itu - t < 16000000)
  | none => false

/-- State p entered. -/
def State.enterPart (s : State) (p v : Nat) : State :=
  (s.wi I.PART_STAT_STATE v p).setPseq p { s.pseq p with since := s.now .itu }

/-- The Cuff is raised for p and the sequence is in FENCE (R147, R148). -/
def State.fence (s : State) (p : Nat) : State := (s.wi I.PART_STAT_CUFF 1 p).enterPart p 3

/-- A reset sequence starts (R147): CAPTURE from RUN, FENCE from HUNG (R150). -/
def State.partStart (s : State) (p cause : Nat) : State :=
  let q := s.pseq p
  let s := s.setPseq p { q with trigAt := s.now .itu, cause := cause, qto := false, cut := false, snap := none,
                                rows := none, held := none }
  if s.pstate p = 5 then s.fence p else
  let s := s.enterPart p 1
  let v := s.visTrigger p 2 false true
  let s := if v.2 then v.1.setPseq p { v.1.pseq p with snap := some (v.1.ri I.VIS_SNAP_ID) } else v.1
  if s.ri I.ROW_RST_COUNT = 0 then s
  else if s.rowRefused (s.ri I.ROW_RST_FIRST) (s.ri I.ROW_RST_COUNT) then s.rowReset p
  else
    let s := s.rowReset p
    -- a sample that must wait takes the next number when it starts
    let id := if s.itu.row.after = some p then (s.ri I.ROW_SAMPLE_ID + 1) % 65536 else s.ri I.ROW_SAMPLE_ID
    s.setPseq p { s.pseq p with rows := some id }

/-- How a trigger is taken (R145). -/
inductive Trig where
  | accepted
  | noPartition
  | refused
deriving DecidableEq, Repr

/-- A reset trigger for p (R145, R159). -/
def State.partTrigger (s : State) (p cause : Nat) : State × Trig :=
  if s.itu.par.partitions ≤ p then (s.ii I.PART_CNT_REFUSED, .noPartition)
  else if (s.pstate p ≠ 0 ∧ s.pstate p ≠ 5) ∨ (s.pseq p).held.isSome ∨ s.itu.advHeld then (s.ii I.PART_CNT_REFUSED, .refused)
  else if s.inGap p then
    ((s.wi I.PART_STAT_HELD 1 p).setPseq p { s.pseq p with held := some cause }, .accepted)
  else (s.partStart p cause, .accepted)

/-- PART_CTL_RESET (R145). -/
def execPartCtlReset (iss : Issuer) (p : Nat) (s : State) : Out :=
  let g := s.ituGuard iss I.PART_CTL_RESET.addr true 0
  if g.2 then .next ((g.1.wi I.PART_CTL_PART p).partTrigger (p % 16) 0).1 else .next g.1

/-- PART_RESET at the ITU (R145). -/
def State.opPartReset (s : State) (p : Nat) : State × CmdRes :=
  let t := s.partTrigger p 1
  (t.1, { status := match t.2 with | .accepted => St.ok | .noPartition => St.badParam | .refused => St.busy })

/-- PART_RESET (R145, opcode 0x25). -/
def execPartReset (h : CmdHdr) (p : Nat) (s : State) : Out :=
  .next (s.cmdItu { h with opcode := 0x25 } fun s => s.opPartReset (p % 16))

/-- RESET_TRIGGER_RELEASE (R145): the gap of a held trigger has passed. -/
def execResetTriggerRelease (p : Nat) (s : State) : Out :=
  match (s.pseq p).held with
  | some c => if s.inGap p then .next s else .next ((s.wi I.PART_STAT_HELD 0 p).partStart p c)
  | none => .next s

/-! ### CAPTURE and QUIESCE -/

/-- qscan_req for p is low. -/
def State.qscanLow (s : State) (p : Nat) : Bool := s.itu.pins.qscan != some p

/-- The reset sequence's row sample of p has ended. -/
def State.rowsEnded (s : State) (p : Nat) : Bool :=
  !(s.itu.row.busy && s.itu.row.part == p) && s.itu.row.after != some p

/-- CAPTURE ends: part_quiesce_req rises, p's trace stops and its Gauntlet item ends (R140, R147, R328). -/
def State.quiesce (s : State) (p : Nat) : State :=
  let s := (s.enterPart p 2).setPins { s.itu.pins with quiesce := setBits s.itu.pins.quiesce p 1 1 }
  (s.trcResetStop p).gntQuiesce p

/-- CAPTURE_END (R147). -/
def execCaptureEnd (p : Nat) (s : State) : Out :=
  if s.pstate p = 1 ∧ s.qscanLow p ∧ s.rowsEnded p then .next (s.quiesce p) else .next s

/-- The row sample of p ends after its current row with ROW_STAT.CUT (R147); one not begun is not taken. -/
def State.cutRows (s : State) (p : Nat) : State :=
  let r := s.itu.row
  let s := if r.after = some p then s.setRow { r with after := none } else s
  let r := s.itu.row
  if r.busy && r.part == p then
    let s := s.wi I.ROW_STAT_CUT 1
    if r.out.isSome then s.setRow { r with cutting := true }
    else (s.wi I.ROW_STAT_BUSY 0).setRow { r with busy := false }
  else s

/-- CAPTURE_TIMEOUT (R147): 1 ms after the trigger; part_quiesce_req still waits for the fall of qscan_req (R124). -/
def execCaptureTimeout (p : Nat) (s : State) : Out :=
  if s.pstate p = 1 ∧ 1000000 ≤ s.now .itu - (s.pseq p).trigAt ∧ s.qscanLow p then
    .next (((s.setPseq p { s.pseq p with cut := true }).cutRows p).quiesce p)
  else .next s

/-- QUIESCE_ACK (R147). -/
def execQuiesceAck (p : Nat) (s : State) : Out := if s.pstate p = 2 then .next (s.fence p) else .next s

/-- QUIESCE_TIMEOUT (R147, R91 H15): no acknowledge within 100 us. -/
def execQuiesceTimeout (p : Nat) (s : State) : Out :=
  if s.pstate p = 2 ∧ 100000 ≤ s.now .itu - (s.pseq p).since then
    let s := (s.ii I.ITU_CNT_QUIESCE_TO).wi I.ITU_FAULT_QUIESCE_TO 1
    .next ((s.setPseq p { s.pseq p with qto := true }).fence p)
  else .next s

/-! ### The generation advance -/

/-- A record is one of a snapshot or row sample (R122, R128). -/
def visType (t : Nat) : Bool := t == 0x020 || t == 0x021
def rowType (t : Nat) : Bool := t == 0x030

/-- Every record of the sequence's snapshot and row sample has been handed to IKL, or 1 ms has passed (R124). -/
def State.r124 (s : State) (p : Nat) : Bool :=
  let mine := fun (r : Rec) => r.part == p && (visType r.typ || rowType r.typ)
  decide (1000000 ≤ s.now .itu - (s.pseq p).trigAt) ||
    (!(s.itu.vis.todo.any mine) && !(s.itu.row.todo.any mine) && !(s.itu.txq.a.any mine) && !(s.itu.txq.c.any mine))

/-- Records of p of an older generation are dropped from a list; answers those kept and those dropped. -/
def oldOf (p g : Nat) (l : List Rec) : List Rec × List Rec := l.partition fun r => !(r.part == p && r.gen != g)

/-- Buffered records of p with an old generation are discarded (R149), those of a snapshot or row sample counted
also as R124 says, sample records joining their block's carry (R106). Records that describe the die and wait for
partition 0 (R474), and results that wait for p's RUN (R306, R328, R417), are not buffered records of p. -/
def State.dropOld (s : State) (p : Nat) : State :=
  let g := s.ri I.PART_STAT_GEN p
  let t := s.itu.txq
  let a := oldOf p g t.a
  let b := oldOf p g t.b
  let c := oldOf p g t.c
  let k := oldOf p g t.ctrl
  let v := oldOf p g s.itu.vis.todo
  let w := oldOf p g s.itu.row.todo
  let d := oldOf p g s.itu.dig.todo
  let all := a.2 ++ b.2 ++ c.2 ++ k.2 ++ v.2 ++ w.2 ++ d.2
  let s := { s with itu := { s.itu with txq := { t with a := a.1, b := b.1, c := c.1, ctrl := k.1 } } }
  let s := if v.2 = [] then s else (s.setVis { s.itu.vis with todo := v.1 }).visAfter
  let s := s.setRow { s.itu.row with todo := w.1 }
  let s := s.setDig { s.itu.dig with todo := d.1 }
  let s := if d.2 = [] ∨ s.digBusy then s else s.digIdle
  let s := (b.2.filter fun r => r.typ == 0x010).foldl (fun s r => s.smpDiscard r) s
  let s := s.ii I.VIS_CNT_DISCARD (all.filter fun r => visType r.typ).length
  let s := s.ii I.ROW_CNT_DISCARD (all.filter fun r => rowType r.typ).length
  s.ii I.CUFF_CNT_DROP all.length p

/-- PART_GEN (R162). -/
def State.partGenBody (s : State) (p old cause : Nat) : List Nat :=
  let q := s.pseq p
  let rst := cause != 3
  [old ||| s.ri I.PART_STAT_GEN p <<< 8 ||| cause <<< 16 ||| b2n (rst && q.qto) <<< 18 ||| b2n (rst && q.cut) <<< 19 |||
      b2n (rst && q.snap.isSome) <<< 20 ||| b2n (rst && q.rows.isSome) <<< 21,
   s.mc32 .itu, (if rst then q.snap.getD 0 ||| q.rows.getD 0 <<< 16 else 0), 0]

/-- A window reading p's memory closes RESET at the advance (R305). -/
def State.digReset (s : State) (p : Nat) : State :=
  let owner := match s.itu.dig.openAt with | some _ => s.itu.dig.part | none => s.ri I.DIG_CFG_PART
  if s.digBusy && owner == p then s.digClose 5 else s

/-- The generation advance of p (R149): generation, time, tags, open barrier entries (R225), buffered records,
PART_GEN; digest windows and stitch contexts of p end (R151). -/
def State.advance (s : State) (p cause : Nat) : State :=
  let old := s.ri I.PART_STAT_GEN p
  let t := s.now .itu
  let s := s.digReset p
  let s := ((s.wi I.PART_STAT_GEN ((old + 1) % 256) p).wi I.PART_LAST_ADV_LO (t % 2 ^ 32) p).wi I.PART_LAST_ADV_HI (t / 2 ^ 32) p
  let s := (s.setPseq p { s.pseq p with lastAdv := some t }).ii I.PART_CNT_RESET 1 p
  let s := { s with itu := { s.itu with tags := s.itu.tags.filter (fun g => g.part != p),
                                        bars := s.itu.bars.filter fun b => b.part != p } }
  let s := ((s.dropOld p).trcFlushed p).pdTryAll
  let s := s.ituEmitFenced 0 0x040 p t (s.partGenBody p old cause)
  s.stcOwnerReset p

/-- Partitions of the cause PART of a frozen band (R351): the advance freezes it, RUN ends it. -/
def State.partFreeze (s : State) (p : Nat) (on : Bool) : State :=
  let w := s.itu.pwr
  let l := w.parts.filter (· != p)
  (s.setPwr { w with parts := if on then l ++ [p] else l }).refreeze false

/-- GENERATION_ADVANCE (R149, R124): FENCE gives way to RESET. -/
def execGenerationAdvance (p : Nat) (s : State) : Out :=
  if s.pstate p = 3 ∧ s.r124 p then
    let s := (s.advance p (s.pseq p).cause).enterPart p 4
    .next ((s.setPins { s.itu.pins with rst := setBits s.itu.pins.rst p 1 1 }).partFreeze p true)
  else .next s

/-! ### RESET, RUN and HUNG -/

/-- PART_DONE (R162), whatever the Cuff. -/
def State.partDone (s : State) (p : Nat) (hung : Bool) (ns : Nat) : State :=
  s.ituEmitFenced 0 0x041 p (s.now .itu) [b2n hung, satN 32 ns, s.mc32 .itu, 0]

/-- p is in RUN again: what waited for it goes out under the new generation (R306, R328, R417, R474). -/
def State.partRelease (s : State) (p : Nat) : State :=
  let s := ((s.digRelease p).gntRelease p).stcRelease p
  if p = 0 then s.ituEmitHeld else s

/-- PART_RST_DONE (R147). -/
def execPartRstDone (p : Nat) (s : State) : Out :=
  if s.pstate p = 4 then
    let i := s.itu.pins
    let ns := s.now .itu - (s.pseq p).since
    let s := (s.setPins { i with quiesce := setBits i.quiesce p 1 0, rst := setBits i.rst p 1 0 }).wi I.PART_STAT_CUFF 0 p
    let s := ((s.partDone p false ns).enterPart p 0).setPseq p { s.pseq p with hangVal := none, hangFresh := true }
    .next ((s.partRelease p).partFreeze p false)
  else .next s

/-- p goes to HUNG (R147, R306, R328, R474): nothing that waited for its RUN is emitted. -/
def State.partHung (s : State) (p : Nat) : State :=
  let s := s.setPins { s.itu.pins with rst := setBits s.itu.pins.rst p 1 0 }
  let s := ((s.ii I.ITU_CNT_RESET_TO).wi I.ITU_FAULT_RESET_TO 1).partDone p true 10000000
  let s := (s.enterPart p 5).gntHung p
  let d := s.itu.dig
  let s := s.setDig { d with held := d.held.filter fun r => r.part != p }
  let s := (List.range 4).foldl (fun s c => if s.owner c = p then s.setCtx .itu c { s.ctx .itu c with held := none } else s) s
  if p = 0 then { s with itu := { s.itu with txq := { s.itu.txq with held := [] } } } else s

/-- RESET_TIMEOUT (R147, R91 H16): no part_rst_done within 10 ms. -/
def execResetTimeout (p : Nat) (s : State) : Out :=
  if s.pstate p = 4 ∧ 10000000 ≤ s.now .itu - (s.pseq p).since then .next (s.partHung p) else .next s

/-! ### Advances of every partition -/

/-- The partitions of the die. -/
def State.partList (s : State) : List Nat := List.range (min 16 s.itu.par.partitions)

/-- Every partition advances together (R159); in RUN what waits goes out at once, a HUNG one stays fenced. -/
def State.advanceAll (s : State) : State :=
  let s := { s with itu := { s.itu with advHeld := false } }
  s.partList.foldl (fun s p =>
    let s := (s.wi I.PART_STAT_HELD 0 p).advance p 3
    if s.pstate p = 0 then s.partRelease p else s) s

/-- PART_CTL.ADV_ALL written 1 (R159). -/
def State.advAll (s : State) : State :=
  if s.partList.any fun p => (s.pstate p != 0 && s.pstate p != 5) || (s.pseq p).held.isSome then s.ii I.PART_CNT_REFUSED
  else if s.itu.advHeld then s
  else if s.partList.any s.inGap then
    let s := { s with itu := { s.itu with advHeld := true } }
    s.partList.foldl (fun s p => if s.inGap p then s.wi I.PART_STAT_HELD 1 p else s) s
  else s.advanceAll

/-- PART_CTL_ADV_ALL (R159). -/
def execPartCtlAdvAll (iss : Issuer) (s : State) : Out :=
  let g := s.ituGuard iss I.PART_CTL_ADV_ALL.addr true 0
  if g.2 then .next g.1.advAll else .next g.1

/-- ADV_ALL_HELD_RELEASE (R159): the first instant at which every partition meets the gap. -/
def execAdvAllHeldRelease (s : State) : Out :=
  if s.itu.advHeld ∧ !(s.partList.any s.inGap) then .next s.advanceAll else .next s

/-! ### Hangs -/

/-- The value of p's progress counter. -/
def State.hangCounter (s : State) (p : Nat) : Nat := Sparse.get 0 s.itu.smp.vals (s.ri I.PART_HANG_CFG_COUNTER p)

/-- A hang is declared (R146): HANG, the reset trigger where AUTO is set, PART_HANG. The record of a partition whose
trigger starts at once still carries its generation. -/
def State.hangDeclare (s : State) (p v : Nat) : State :=
  let auto := s.ri I.PART_HANG_CFG_AUTO p = 1
  let s := s.wi I.PART_STAT_HANG 1 p
  let s := s.setPseq p { s.pseq p with hangSaid := true }
  let t := if auto then s.partTrigger p 2 else (s, .refused)
  let acc := t.2 == Trig.accepted
  (t.1.ituEmit 0 0x042 p (s.now .itu)
    [s.ri I.PART_HANG_CFG_COUNTER p ||| s.ri I.PART_HANG_CFG_WINDOW p <<< 12 ||| b2n acc <<< 20, v % 2 ^ 32, v / 2 ^ 32,
     s.mc32 .itu]).1

/-- HANG_CHECK (R146) of p at an MC start. -/
def State.hangCheck (s : State) (p : Nat) : State :=
  let w := s.ri I.PART_HANG_CFG_WINDOW p
  if w = 0 ∨ s.ri I.ITU_FN_EN_COUNTERS = 0 ∨ s.pstate p ≠ 0 then s.setPseq p { s.pseq p with hangFresh := true } else
  let q := s.pseq p
  let v := s.hangCounter p
  let same := q.hangVal = some v
  let said := q.hangSaid && decide same
  let n := if q.hangFresh || !decide same then 0 else q.hangCnt + 1
  let s := s.setPseq p { q with hangVal := some v, hangCnt := n, hangSaid := said, hangFresh := false }
  if w ≤ n ∧ said = false then s.hangDeclare p v else s

/-- HANG_CHECK of every partition. -/
def State.hangCheckAll (s : State) : State := s.partList.foldl (fun s p => s.hangCheck p) s

end Sys2Proof.Machine
end

