-- ==== Sys2Proof/Machine/ItuCtl.lean ====
section
/-! DEFINITION. Reset, function enables and power domains of the ITU (R80 to R83, R89), and the responses of the
host memory port (R87). -/

namespace Sys2Proof.Machine

/-- The register file of an ITU after itu_rst_n: LDG_CMAX holds cap_tdp_w (R356). -/
def ituResetRegs (c : Straps) : Regs := Regs.wr [] I.LDG_CMAX c.tdpW

/-- ITU_RESET (R80, R89): the whole block; the straps are sampled, the ceiling is cap_idle_w and the floor 0. -/
def execItuReset (s : State) : Out :=
  let i := s.itu
  .next { s with
    itu := { regs := ituResetRegs i.straps, par := i.par, straps := i.straps, caps := i.straps,
             txq := { bkt := ituBuckets }, pins := { ceil := i.straps.idleW } },
    latches := s.latches.filter (fun l => l.path != .host && l.path != .ikl),
    holds := s.holds.filter fun l => l.path != .host && l.path != .ikl }

/-! ### Function enables -/

/-- The ITU_FN_EN bits with their domains (R93), in bit order. -/
def fnBits : List (Fld × Nat) :=
  [(I.ITU_FN_EN_COUNTERS, 1), (I.ITU_FN_EN_VISOR, 1), (I.ITU_FN_EN_ROWS, 1), (I.ITU_FN_EN_TRACE, 1),
   (I.ITU_FN_EN_DIGEST, 2), (I.ITU_FN_EN_GAUNTLET, 3), (I.ITU_FN_EN_CANARY, 3), (I.ITU_FN_EN_STITCH, 4)]

/-- What setting enable bit n from 0 brings: COUNTERS opens new accounts and hang counts (R104, R146). -/
def State.fnSet (s : State) (n : Nat) : State := if n = 0 then s.reopenBlocks.hangVoid else s

/-- What clearing enable bit n from 1 brings: R225, R119, R141, R305, R404. -/
def State.fnClear (s : State) (n : Nat) : State :=
  match n with
  | 0 => { s with itu := { s.itu with bars := [] } }
  | 1 => if s.ri I.VIS_STAT_STATE = 1 then s.visClose 3 else s
  | 3 => s.trcDisable
  | 4 => s.digClose 7
  | 7 => s.stcDisable .itu
  | _ => s

/-- Enable bit n written (R82). -/
def State.setFn (s : State) (n : Nat) (v : Bool) : State :=
  match fnBits[n]? with
  | none => s
  | some (F, d) =>
    if v then
      if !s.ipdOn d then s.wi I.ITU_FAULT_PD_OFF_ACCESS 1
      else if s.ri F = 1 then s else (s.wi F 1).fnSet n
    else if s.ri F = 0 then s else (s.wi F 0).fnClear n

/-- ITU_FN_EN written (R82). -/
def State.writeFnEn (s : State) (v : Nat) : State :=
  (List.range 8).foldl (fun s n => s.setFn n (bitAt v n)) s

/-- ITU_FN_EN_WRITE (R82): TRAY authority. -/
def execItuFnEnWrite (iss : Issuer) (v : Nat) (s : State) : Out :=
  let g := s.ituGuard iss I.ITU_FN_EN_COUNTERS.addr true 2
  if g.2 then .next (g.1.writeFnEn v) else .next g.1

/-! ### Power domains -/

/-- IPDn is asked on (R83): pd_sw_req rises. -/
def State.pdRequestOn (s : State) (n : Nat) : State :=
  let p := s.itu.pins
  let s := (s.wiBit I.ITU_PD_CTL_ON (n - 1) true).wiBit I.ITU_PD_STAT_BUSY n true
  s.setPins { p with pdReq := setBits p.pdReq (n - 1) 1 1,
                     pdSince := p.pdSince.filter (fun x => x.1 != n) ++ [(n, s.now .itu)] }

/-- IPDn is asked off (R83): its enables are cleared, then its transactions awaited. -/
def State.pdRequestOff (s : State) (n : Nat) : State :=
  let s := (List.range 8).foldl (fun s k => match fnBits[k]? with
    | some (_, d) => if d = n then s.setFn k false else s
    | none => s) s
  ((s.wiBit I.ITU_PD_CTL_ON (n - 1) false).wiBit I.ITU_PD_STAT_BUSY n true).pdTryOff n

/-- Bit n of ITU_PD_CTL.ON written; a domain that is switching takes no new request (log entry 29). -/
def State.pdRequest (s : State) (n : Nat) (on : Bool) : State :=
  if bitAt (s.ri I.ITU_PD_STAT_BUSY) n ∨ bitAt (s.ri I.ITU_PD_CTL_ON) (n - 1) = on then s
  else if on then s.pdRequestOn n else s.pdRequestOff n

/-- ITU_PD_CTL.ON written (R81). -/
def State.writePdCtl (s : State) (v : Nat) : State :=
  [1, 2, 3, 4].foldl (fun s n => s.pdRequest n (bitAt v (n - 1))) s

/-- ITU_PD_CTL_WRITE (R81, R83): TRAY authority. -/
def execItuPdCtlWrite (iss : Issuer) (v : Nat) (s : State) : Out :=
  let g := s.ituGuard iss I.ITU_PD_CTL_ON.addr true 2
  if g.2 then .next (g.1.writePdCtl v) else .next g.1

/-! ### Memory responses -/

/-- The tag table replaced. -/
def State.setTags (s : State) (l : List Tag) : State := { s with itu := { s.itu with tags := l } }

/-- A whole response delivered to its requester (R132, R138, R139, R304). -/
def State.memDeliver (s : State) (t : Tag) : State :=
  match t.user with
  | .trace p => if t.bad = .ok then s.trcFlushed p else s.trcFail p t.packets
  | _ => s.digData t t.bad

/-- A response beat joins its tag. -/
def Tag.beat (t : Tag) (st : MemStatus) (data : List Nat) : Tag :=
  { t with data := if t.write then t.data else t.data ++ data, bad := if t.bad = .ok then st else t.bad }

/-- A discarded response, counted once with its last beat (R87; 03 "Memory port timing", T5). -/
def State.memLate (s : State) (last : Bool) : State := if last then s.ii I.ITU_CNT_MEM_LATE else s

/-- MEM_RESPONSE (R87): a beat of a response. Of another generation, for no tag, for a fenced partition or for a
retired tag it is discarded and counted; otherwise the last beat frees the tag and delivers the whole. -/
def execMemResponse (tag gen : Nat) (status : MemStatus) (data : List Nat) (last : Bool) (s : State) : Out :=
  match s.itu.tags.find? (fun t => t.tag == tag) with
  | none => .next (s.memLate last)
  | some t =>
    if gen ≠ s.ri I.PART_STAT_GEN t.part ∨ s.ri I.PART_STAT_CUFF t.part = 1 then .next (s.memLate last)
    else if t.retired then
      .next ((s.setTags (if last then s.itu.tags.filter (fun x => x.tag != tag) else s.itu.tags)).memLate last).digNext
    else
      let t' := t.beat status data
      if last then .next (((s.setTags (s.itu.tags.filter fun x => x.tag != tag)).memDeliver t').pdTryAll.digNext)
      else .next (s.setTags (s.itu.tags.map fun x => if x.tag = tag then t' else x))

/-- MEM_TIMEOUT (R87, R91 H9): no whole response within 20 us of acceptance. -/
def execMemTimeout (tag : Nat) (s : State) : Out :=
  match s.itu.tags.find? (fun t => t.tag == tag && !t.retired) with
  | none => .next s
  | some t =>
    if s.now .itu - t.at0 < 20000 then .next s else
    let s := s.setTags (s.itu.tags.map fun x => if x.tag = tag then { x with retired := true } else x)
    let s := (s.ii I.ITU_CNT_MEM_TO).wi I.ITU_FAULT_MEM_TO 1
    let s := match t.user with
      | .trace p => s.trcFail p t.packets
      | _ => if s.itu.dig.tag = some tag then (s.setDig { s.itu.dig with tag := none }).digClose 4 else s
    .next s.pdTryAll

end Sys2Proof.Machine
end

