-- ==== Sys2Proof/Machine/Forest.lean ====
section
/-! DEFINITION. The forest engine: vectors, passes, verdicts, loads and swaps (R246 to R276). -/

namespace Sys2Proof.Machine

/-- Model slot i. -/
def State.fslot (s : State) (i : Nat) : FSlot := s.lam.fst.slots.getD i {}

/-- Model slot i replaced. -/
def State.setFslot (s : State) (i : Nat) (f : FSlot) : State :=
  { s with lam := { s.lam with fst := { s.lam.fst with slots := setNth {} s.lam.fst.slots i f } } }

/-- FST_SLOT_STAT.STATE. -/
def fstIdle : Nat := 0
def fstRun : Nat := 1
def fstSuspended : Nat := 2
def fstFault : Nat := 3

/-- SWAPS of slot i, and the value that its retiring bank bore. -/
def State.fswaps (s : State) (i : Nat) : Nat := s.rl L.FST_SLOT_STAT_SWAPS i
def State.fswapsOld (s : State) (i : Nat) : Nat := (s.fswaps i + 255) % 256

/-- The bank whose SWAPS value a vector carries. -/
def State.fbank (s : State) (i swaps : Nat) : Option FBank :=
  if swaps = s.fswaps i then (s.fslot i).active else if swaps = s.fswapsOld i then (s.fslot i).retiring else none

/-- MODEL_ID of a bank, zero for none. -/
def modelOf (b : Option FBank) : Nat := match b with | some b => Img.model b.img | none => 0

/-- FOREST_EVENT (R268). -/
def State.forestEvent (s : State) (i cause kind old count : Nat) (shadow : List Nat := [0, 0, 0, 0]) (out : Nat := 0) : State :=
  let m := modelOf (s.fslot i).active
  s.lamEmit 0 0x081 (s.now .lam)
    ([i ||| cause <<< 6 ||| out <<< 10 ||| kind <<< 12, m ||| old <<< 16, s.mc32 .lam] ++ shadow ++ [count % 2 ^ 32])

/-! ### Formation (R246 to R252) -/

/-- Distinct features that RAW nodes of an image test. -/
def Img.nRaw (m : Img) : Nat :=
  (((m.trees.filter fun t => !t.wide).flatMap fun t => ((m.nodes t).filter fun n => nodeKind n == 3).map nodeFeat).dedup).length

/-- Lines that a queue entry of a bank takes (R252). -/
def FBank.lines (b : FBank) : Nat := 1 + ceilDiv (Img.nFeat b.img + 4 * Img.nRaw b.img) 64

/-- Lines in use in a slot's queue. -/
def State.queueLines (s : State) (i : Nat) : Nat :=
  (s.fslot i).queue.foldl (fun n v => n + ((s.fbank i v.swaps).map FBank.lines).getD 1) 0

/-- The latch instant t lies before the slot's last swap (R250). -/
def FSlot.before (f : FSlot) (t : Nat) : Bool :=
  match f.commit with
  | some c => decide (sdiff32 (short t) c < 0)
  | none => false

/-- Port of a subject die under this Tray. -/
def State.portOf (s : State) (die : Nat) : Option Nat :=
  if s.role = 0 ∧ s.dieId (die % 16) = die then some (die % 16) else none

/-- SAMPLE_SLOT of a subject's binding in force (R32, R27). -/
def State.subjSlot (s : State) (die : Nat) (b : Bind) : Nat :=
  match s.portOf die with
  | some q => s.sampleSlot q
  | none => if b.bound then Config.cohortSlot (s.rl L.CFG_EPOCH) b.cohort % 64 else 0

/-- The latch qualifies for a slot (R247). -/
def latchFits (div mc slot smp : Nat) : Bool := (mc * 64 + slot + 2 ^ 32 - smp) % 2 ^ div == 0

/-- The vector of subject number subj in slot i from tracker k, under registers r. -/
def State.makeVec (s : State) (i subj : Nat) (k : Tracker) (own : Option Nat) (l : FLatch) (r : Regs) (b : FBank) (swaps : Nat) : State :=
  let f := s.fslot i
  let x := s.front b.img { port := s.portOf k.die, die := k.die, own := own, t := l.t } (r.rd L.FST_SLOT_AGE_STALE_MS i * 1000000)
  let s := (s.il L.FST_CNT_NONFINITE x.nonfinite).il L.FST_CNT_SAT x.sat
  let n := x.present b.img
  let tray := s.role == 0
  let d := (s.portOf k.die).map s.det
  let v : FVec := { subject := subj, mc := l.mc, slot := l.slot, t := l.t, formed := s.now .lam, swaps := swaps, codes := x.codes,
                    ys := x.ys, present := n, gen := k.gen, bind := k.bind, epoch := k.epoch,
                    tbin := if tray then ((d.bind fun d => d.temp).map tbinOf).getD 0 else 0,
                    load := if tray then (d.map fun d => d.load).getD 0 else 0, die := k.die, counter := k.counter, k := f.k }
  let s := s.setFslot i { f with k := (f.k + 1) % 65536 }
  if n < r.rd L.FST_SLOT_MIN_PRESENT i then s.il L.FST_CNT_NOVERDICT
  else if 2 ^ s.rl L.FST_SLOT_QDEPTH i < s.queueLines i + b.lines then
    ((s.il L.FST_CNT_QDROP).il L.FST_SLOT_CNT_DROP 1 i).wl L.FST_STAT_DROP 1
  else
    let f := s.fslot i
    s.setFslot i { f with queue := f.queue ++ [v] }

/-- VECTOR_FORMATION in slot i for a subject of a scope (R246, R247, R250). -/
def State.formVec (s : State) (i scope subj : Nat) (k : Tracker) (own : Option Nat) (l : FLatch) : State :=
  let r := s.bankRegs l.t
  if s.rl L.FST_CTL_ENABLE = 1 ∧ s.forestOn ∧ s.rl L.FST_SLOT_STAT_STATE i = fstRun ∧ r.rd L.FST_SLOT_CFG_EN i = 1 ∧
      r.rd L.FST_SLOT_CFG_SCOPE i = scope ∧ k.valid ∧ (k.bind.bound ∨ r.rd L.FST_SLOT_CFG_UNBOUND i = 1) ∧
      latchFits (r.rd L.FST_SLOT_CFG_DIV i) l.mc l.slot (s.subjSlot k.die k.bind) then
    let f := s.fslot i
    if f.before l.t then
      match f.retiring with
      | some b => s.makeVec i subj k own l r b (s.fswapsOld i)
      | none => (s.il L.FST_CNT_STALE).il L.FST_SLOT_CNT_DROP 1 i
    else match f.active with
      | some b => s.makeVec i subj k own l r b (s.fswaps i)
      | none => s.il L.FST_SLOT_CNT_DROP 1 i
  else s

/-- STREAM vectors at the update of hardware tracker j (R247). -/
def State.forestStream (s : State) (j : Nat) (l : FLatch) : State :=
  (List.range 64).foldl (fun s i => s.formVec i 0 j (s.trkAt j) (some j) l) s

/-- DIE vectors of the die on port q (R247): subject data from its tracker of counter 0 (R261). -/
def State.forestDie (s : State) (q : Nat) (l : FLatch) : State :=
  match s.trkOf (some q) (s.dieId q) 0 with
  | j :: _ => (List.range 64).foldl (fun s i => s.formVec i 1 q (s.trkAt j) none l) s
  | [] => s

/-- The latest latch of port q replaced. -/
def State.setLatchOf (s : State) (q : Nat) (l : FLatch) : State :=
  { s with lam := { s.lam with fst := { s.lam.fst with latches := setNth none s.lam.fst.latches q (some l) } } }

/-- Before the first update of a later latch of port q: DIE vectors of the former latch are formed if they have not been. -/
def State.forestLatch (s : State) (q : Nat) (l : FLatch) : State :=
  match s.lam.fst.latches.getD q none with
  | none => s.setLatchOf q l
  | some o =>
    if o.t < l.t then (if o.done then s else s.forestDie q o).setLatchOf q l else s

/-- The last enabled counter block that is latched with slot n of MC mc (R247). The latch schedule is that of the modelled
die (log entry 33). -/
def State.lastBlock (s : State) (mc n : Nat) : Option Nat :=
  ((List.range 16).filter fun b =>
    s.ri I.SMP_BLOCK_CFG_EN b == 1 && latchDue (s.ri I.SMP_BLOCK_CFG_DIV b) s.itu.smp.phase mc n).getLast?

/-- After the updates of block b for a latch: the last enabled block forms the DIE vectors. -/
def State.forestBlock (s : State) (q b : Nat) (l : FLatch) : State :=
  match s.lam.fst.latches.getD q none with
  | some o =>
    if o.t = l.t ∧ !o.done ∧ s.lastBlock l.mc l.slot = some b then (s.forestDie q o).setLatchOf q { o with done := true } else s
  | none => s

/-! ### Passes (R269, R271) -/

/-- Segments of a bank. -/
def FBank.segs (b : FBank) : Nat := ceilDiv (Img.nTrees b.img) 4096

/-- The vectors that a pass of slot i would take: those of the first queued vector's bank, in order, up to SIZE. -/
def State.batch (s : State) (i : Nat) : List FVec :=
  match (s.fslot i).queue with
  | [] => []
  | v :: q => ((v :: q).takeWhile fun x => x.swaps == v.swaps).take (s.rl L.FST_SLOT_BATCH_SIZE i)

/-- Slot i is eligible for a pass (R269). -/
def State.eligible (s : State) (i : Nat) : Bool :=
  let q := (s.fslot i).queue
  s.rl L.FST_CTL_ENABLE == 1 && s.forestOn && s.rl L.FST_SLOT_STAT_STATE i == fstRun && (s.fslot i).pass.isNone &&
    match q with
    | [] => false
    | v :: _ =>
      decide (s.rl L.FST_SLOT_BATCH_SIZE i ≤ (q.filter fun x => x.swaps == v.swaps).length) ||
        decide (v.formed + s.rl L.FST_SLOT_BATCH_MAX_WAIT_US i * 1000 ≤ s.now .lam)

/-- Number of open passes. -/
def State.openPasses (s : State) : Nat := (s.lam.fst.slots.filter fun f => f.pass.isSome).length

/-- Slot i has a segment to run: an open pass with segments left, or a new pass that a free buffer allows. -/
def State.wantsSeg (s : State) (i : Nat) : Bool :=
  match (s.fslot i).pass with
  | some p => match s.fbank i p.swaps with
    | some b => decide (p.done < b.segs)
    | none => false
  | none => decide (s.openPasses < 2) && s.eligible i

/-- Weight of a slot. -/
def State.fweight (s : State) (i : Nat) : Nat := max 1 (s.rl L.FST_SLOT_CFG_WEIGHT i)

/-- Deficit round robin over lane-cycles (R269; quantum and order are the model's, log entry 37): every slot that waits gains
its weight in as many rounds as bring the first one above zero, and the first such after the slot served last is next. -/
def State.nextSeg (s : State) : Option Nat × State :=
  let c := (List.range 64).filter s.wantsSeg
  let need := fun i => let d := (s.fslot i).deficit; if 0 < d then 0 else (1 - d).toNat
  match (c.map fun i => ceilDiv (need i) (s.fweight i)).min? with
  | none => (none, s)
  | some r =>
    let s := (List.range 64).foldl (fun s i =>
      let f := s.fslot i
      s.setFslot i { f with deficit := if c.contains i then f.deficit + r * s.fweight i else 0 }) s
    let ready := c.filter fun i => decide (0 < (s.fslot i).deficit)
    let l := s.lam.fst.last
    ((ready.filter (l < ·) ++ ready).head?, s)

/-- With no segment running, an open pass that is next starts its segment. -/
def State.pickSeg (s : State) : State :=
  if s.lam.fst.run.isSome then s else
  match s.nextSeg with
  | (some i, s') =>
    if (s.fslot i).pass.isSome then { s' with lam := { s'.lam with fst := { s'.lam.fst with run := some i, last := i } } } else s
  | (none, _) => s

/-- FOREST_PASS_START (R269): the slot that is next opens its pass. -/
def execForestPassStart (slot : Nat) (s : State) : Out :=
  let n := s.nextSeg
  if slot < 64 ∧ s.lam.fst.run = none ∧ n.1 = some slot ∧ (s.fslot slot).pass = none then
    let f := n.2.fslot slot
    let vs := s.batch slot
    match vs with
    | [] => .next s
    | v :: _ =>
      let t := n.2.setFslot slot { f with pass := some { vecs := vs, swaps := v.swaps }, queue := f.queue.drop vs.length }
      .next { t with lam := { t.lam with fst := { t.lam.fst with run := some slot, last := slot } } }
  else .next s

/-- A bank's trees, where they are streamed, and its shadow leaves, where they are read, hold no poisoned line. -/
def State.treesClean (s : State) (i : Nat) (b : FBank) : Bool :=
  !(!b.pinned && s.poisoned (b.base + Img.treeOfs b.img) (Img.shdOfs b.img - Img.treeOfs b.img)) &&
    !(s.rl L.FST_SLOT_CFG_SHADOW_SHIFT i != 0 && s.poisoned (b.base + Img.shdOfs b.img) (Img.sigOfs b.img - Img.shdOfs b.img))

/-- FOREST_SEGMENT_END (R269): the running segment of a slot ends after so many lane-cycles. -/
def execForestSegmentEnd (slot cycles : Nat) (s : State) : Out :=
  match (s.fslot slot).pass with
  | some p =>
    if s.lam.fst.run = some slot then
      let f := s.fslot slot
      let t := s.setFslot slot { f with pass := some { p with done := p.done + 1 }, deficit := f.deficit - cycles }
      .next ({ t with lam := { t.lam with fst := { t.lam.fst with run := none } } } : State).pickSeg
    else .next s
  | none => .next s

/-- VECTOR_AGE_OUT (R271). -/
def execVectorAgeOut (slot : Nat) (s : State) : Out :=
  let f := s.fslot slot
  let old := fun (v : FVec) => decide (v.t + s.rl L.FST_SLOT_AGE_MAX_AGE_MS slot * 1000000 < s.now .lam)
  let n := (f.queue.filter old).length
  .next (((s.setFslot slot { f with queue := f.queue.filter fun v => !old v }).il L.FST_CNT_AGED n).il L.FST_SLOT_CNT_DROP n slot)

/-! ### Verdicts (R259 to R267) -/

/-- A verdict state (R262). -/
structure VState where
  flag : Nat := 0
  cnt : List Nat := [0, 0, 0, 0]
  valid : Bool := false
  gen : Nat := 0
  swaps : Nat := 0
  rank : Nat := 0
  bound : Bool := false

/-- The two words of a verdict state. -/
def VState.words (v : VState) : List Nat :=
  [v.flag ||| nth v.cnt 0 <<< 4 ||| nth v.cnt 1 <<< 8 ||| nth v.cnt 2 <<< 12 ||| nth v.cnt 3 <<< 16 ||| b2n v.valid <<< 20,
   v.gen ||| v.swaps <<< 8 ||| v.rank <<< 16 ||| b2n v.bound <<< 31]

/-- The verdict state that two words hold. -/
def VState.ofWords (w : List Nat) : VState :=
  let a := nth w 0
  let b := nth w 1
  { flag := bits a 0 4, cnt := [bits a 4 4, bits a 8 4, bits a 12 4, bits a 16 4], valid := bitAt a 20, gen := bits b 0 8,
    swaps := bits b 8 8, rank := bits b 16 15, bound := bitAt b 31 }

/-- DDR address of a verdict state. -/
def State.vAddr (s : State) (i subj : Nat) : Nat :=
  s.rl L.FST_SLOT_VBASE_HI i * 2 ^ 32 + s.rl L.FST_SLOT_VBASE_LO i + 8 * subj

/-- The verdict state of a subject; one in a poisoned line counts as not valid. -/
def State.vstate (s : State) (i subj : Nat) : VState :=
  let a := s.vAddr i subj
  if s.poisoned a 8 then {} else VState.ofWords (s.ddrWords a 2)

/-- A verdict state written back; in a poisoned line the whole line is written. -/
def State.setVstate (s : State) (i subj : Nat) (v : VState) : State :=
  let a := s.vAddr i subj
  let bs := wordsToBytes v.words
  if s.poisoned a 8 then
    s.ddrPut (a / 64 * 64) (List.replicate (a % 64) 0 ++ bs ++ List.replicate (56 - a % 64) 0)
  else s.ddrPut a bs

/-- The state that a vector meets: restarted where it is not the subject's (R261). -/
def VState.meet (v : VState) (x : FVec) : VState :=
  if !v.valid || v.gen != x.gen || v.swaps != x.swaps || v.bound != x.bind.bound || v.rank != x.bind.rank then
    { valid := true, gen := x.gen, swaps := x.swaps, rank := x.bind.rank, bound := x.bind.bound }
  else v

/-- The threshold that output o is tested against. -/
def VState.theta (v : VState) (b : FBank) (o : Nat) : Nat := if bitAt v.flag o then nth b.off o else nth b.on o

/-- Output o of R261: the state, and whether the flag changed. -/
def VState.test (v : VState) (b : FBank) (confirm o score : Nat) : VState × Bool :=
  let hit := if bitAt v.flag o then f32.lt score (nth b.off o) else f32.le (nth b.on o) score
  let c := if hit then min (nth v.cnt o + 1) 15 else 0
  if hit && decide (confirm ≤ c) then ({ v with flag := v.flag ^^^ 2 ^ o, cnt := setNth 0 v.cnt o 0 }, true)
  else ({ v with cnt := setNth 0 v.cnt o c }, false)

/-- All outputs of R261: the state and the CHANGED bits. -/
def VState.update (v : VState) (b : FBank) (confirm : Nat) (scores : List (Nat × Nat)) : VState × Nat :=
  (List.range scores.length).foldl (fun a o =>
    let r := a.1.test b confirm o (scores.getD o (0, 0)).1
    (r.1, a.2 ||| b2n r.2 <<< o)) (v, 0)

/-- FOREST_VERDICT (R263). -/
def State.forestVerdict (s : State) (i : Nat) (b : FBank) (x : FVec) (flag changed near : Nat) (scores : List (Nat × Nat)) : State :=
  let scope := b2n (Img.scopeDie b.img)
  let sc := fun o => (scores.getD o (0, 0)).1
  s.lamEmit 0 0x080 (s.now .lam)
    [x.die ||| (if scope = 1 then 0 else x.counter) <<< 17 ||| scope <<< 29,
     i ||| flag <<< 6 ||| changed <<< 10 ||| near <<< 14 ||| x.tbin <<< 18 ||| x.load <<< 24 ||| s.rl L.FST_SLOT_CFG_SUSPECT i <<< 28,
     x.mc % 2 ^ 32, x.slot ||| x.present <<< 6, sc 0, sc 1, sc 2, sc 3, x.bind.word % 2 ^ 29, x.epoch ||| Img.model b.img <<< 16, 0, 0]

/-- A slot becomes SUSPENDED (R267). -/
def State.suspend (s : State) (i count : Nat) : State :=
  (s.wl L.FST_SLOT_STAT_STATE fstSuspended i).forestEvent i 3 0 0 count

/-- A disagreement of R267: out has the largest excess. -/
def State.disagree (s : State) (i : Nat) (b : FBank) (x : FVec) (out score shadow : Nat) (allowed : Fp) : State :=
  let f := s.fslot i
  let win := s.mc .lam / 64
  let n := (if f.errWin = win then f.errs else 0) + 1
  let s := s.setFslot i { f with errs := n, errWin := win }
  let s := ((s.il L.FST_CNT_SHADOW_ERR).il L.FST_SLOT_CNT_SHADOW_ERR 1 i).wl L.FST_STAT_SHADOW_ERR 1
  let scope := b2n (Img.scopeDie b.img)
  let s := s.forestEvent i 2 0 0 n
    [x.die ||| (if scope = 1 then 0 else x.counter) <<< 17 ||| scope <<< 29, score, shadow, f32.enc allowed] out
  if s.rl L.FST_SHADOW_LIMIT ≤ n ∧ s.rl L.FST_SLOT_STAT_STATE i = fstRun then s.suspend i n else s

/-- The vector is rescored (R266). -/
def rescored (h k : Nat) : Bool := h != 0 && decide (k * 0x9E37 % 65536 < 2 ^ (16 - h))

/-- The output with the largest excess in a list of output and sides, if any disagrees. -/
def worst : List (Nat × Fp × Fp) → Option (Nat × Fp × Fp)
  | [] => none
  | x :: l =>
    let y := worst l
    if x.2.2.lt x.2.1 then
      match y with
      | some z => if (x.2.1.add x.2.2.neg).lt (z.2.1.add z.2.2.neg) then y else some x
      | none => some x
    else y

/-- SHADOW_RESCORE (R266, R267). -/
def State.rescore (s : State) (i : Nat) (b : FBank) (x : FVec) (scores : List (Nat × Nat)) (free : Bool) : State :=
  if !rescored (s.rl L.FST_SLOT_CFG_SHADOW_SHIFT i) x.k then s else
  let r := s.scores b.img x true free (Img.outputs b.img)
  let s := r.1.il L.FST_CNT_SHADOW
  let sides := (List.range (Img.outputs b.img)).map fun o =>
    (o, shadowSides (scores.getD o (0, 0)) (r.2.getD o (0, 0)) (Img.qb b.img o))
  match worst sides with
  | some (o, _, allowed) => s.disagree i b x o (scores.getD o (0, 0)).1 (r.2.getD o (0, 0)).1 allowed
  | none => s

/-- A vector scored at the end of its pass (R258 to R263). free: its trees are not those verified (R293). -/
def State.scoreVec (s : State) (i : Nat) (b : FBank) (free : Bool) (x : FVec) : State :=
  let r := s.scores b.img x false free (Img.outputs b.img)
  let s := (r.1.il L.FST_CNT_VEC).il L.FST_SLOT_CNT_VEC 1 i
  let sc := r.2
  let s := s.rescore i b x sc free
  if sc.any (fun p => !f32Fin p.1 || !f32Fin p.2) then s.il L.FST_CNT_OVF
  else
    let v := (s.vstate i x.subject).meet x
    let near := (List.range sc.length).foldl (fun a o => a ||| b2n (nearOf (sc.getD o (0, 0)) (v.theta b o)) <<< o) 0
    let s := if near ≠ 0 then s.il L.FST_CNT_NEAR else s
    let u := v.update b (s.rl L.FST_SLOT_CFG_CONFIRM i) sc
    let s := s.setVstate i x.subject u.1
    if u.2 ≠ 0 then s.forestVerdict i b x u.1.flag u.2 near sc else s

/-- FOREST_PASS_END (R261): every segment of the slot's pass has run. -/
def execForestPassEnd (slot : Nat) (s : State) : Out :=
  match (s.fslot slot).pass with
  | some p =>
    match s.fbank slot p.swaps with
    | some b =>
      if b.segs ≤ p.done ∧ s.treesClean slot b then
        let free := s.imgAt b.base b.img.length != b.img
        let s := p.vecs.foldl (fun s x => s.scoreVec slot b free x) s
        .next (s.setFslot slot { s.fslot slot with pass := none }).pickSeg
      else .next s
    | none => .next s
  | none => .next s

/-! ### Faults, control, loads and swaps (R267, R273 to R276) -/

/-- FOREST_FAULT (R273): kind 0 DDR poison, 1 cache uncorrectable, 2 bad leaf. -/
def execForestFault (slot kind : Nat) (s : State) : Out :=
  let st := s.rl L.FST_SLOT_STAT_STATE slot
  let f := s.fslot slot
  if slot < 64 ∧ kind < 3 ∧ (st = fstRun ∨ st = fstSuspended) then
    let n := match f.pass with | some p => p.vecs.length | none => 0
    let s := s.setFslot slot { f with pass := none, retiring := none, queue := [] }
    let run := if s.lam.fst.run = some slot then none else s.lam.fst.run
    let s := { s with lam := { s.lam with fst := { s.lam.fst with run := run } } }
    let s := (s.il L.FST_CNT_FAULT_DROP n).wl L.FST_STAT_FAULT 1
    .next (((s.wl L.FST_SLOT_STAT_STATE fstFault slot).forestEvent slot 1 kind 0 (n + f.queue.length)).pickSeg)
  else .next s

/-- FST_RESUME.SLOT written (R267). -/
def State.fstResume (s : State) (i : Nat) : State :=
  if s.rl L.FST_SLOT_STAT_STATE i = fstSuspended then (s.wl L.FST_SLOT_STAT_STATE fstRun i).forestEvent i 4 0 0 0 else s

/-- FST_RESUME_WRITE (R267): FLEET authority. -/
def execFstResumeWrite (iss : Issuer) (v : Nat) (s : State) : Out :=
  let g := s.lamGuard iss L.FST_RESUME_SLOT.addr true 3
  if g.2 then .next (g.1.fstResume (v % 64)) else .next g.1

/-- A pinned bank lies in quarter n. -/
def State.pinnedIn (s : State) (n : Nat) : Bool :=
  s.lam.fst.slots.any fun f => [f.active, f.retiring, f.shadow].any fun b =>
    match b with | some b => decide (0 < nth b.cache n) | none => false

/-- FST_CTL.QUARTERS written (R274, R451). -/
def State.fstQuarters (s : State) (v : Nat) : State :=
  let off := (List.range 4).filter fun n => bitAt (s.rl L.FST_CTL_QUARTERS) n && !bitAt v n
  if s.rl L.FST_CTL_ENABLE = 0 ∧ s.openPasses = 0 ∧ !off.any s.pinnedIn then (s.wl L.FST_CTL_QUARTERS v).pdRetarget else s

/-- FST_CTL_QUARTERS_WRITE (R274): FLEET authority. -/
def execFstCtlQuartersWrite (iss : Issuer) (v : Nat) (s : State) : Out :=
  let g := s.lamGuard iss L.FST_CTL_QUARTERS.addr true 3
  if g.2 then .next (g.1.fstQuarters (v % 16)) else .next g.1

/-- FOREST_LOAD (R275): refused while the retiring bank is held or a load is in progress. -/
def State.opForestLoad (s : State) (i base len : Nat) : State × CmdRes :=
  let f := s.fslot i
  if !s.forestOn then (s, { status := St.domainOff })
  else if f.retiring.isSome || f.loading.isSome then (s, { status := St.busy })
  else
    let s := s.setFslot i { f with shadow := none, loading := some (base, len) }
    ((s.wl L.FST_SLOT_STAT_SHADOW 1 i).wl L.FST_SLOT_MODEL_SHADOW 0 i, {})

/-- FOREST_LOAD (R275, opcode 0x30). -/
def execForestLoad (h : CmdHdr) (slot base len : Nat) (s : State) : Out :=
  .next (s.cmdLam { h with opcode := 0x30 } fun s => s.opForestLoad (slot % 64) (base % 2 ^ 64) (len % 2 ^ 64))

/-- KiB of quarter n that banks hold. -/
def State.cacheUsed (s : State) (n : Nat) : Nat :=
  s.lam.fst.slots.foldl (fun a f => a + ([f.active, f.retiring, f.shadow].filterMap fun b => b.map fun b => nth b.cache n).foldl (· + ·) 0) 0

/-- KiB of cache that banks do not hold, in quarter n. -/
def State.cacheFree (s : State) (n : Nat) : Nat := if s.quarterOn n then 8192 - s.cacheUsed n else 0

/-- An enabled slot streams its trees (R272). -/
def State.streams (s : State) : Bool :=
  (List.range 64).any fun i => s.rl L.FST_SLOT_CFG_EN i == 1 && match (s.fslot i).active with
    | some b => !b.pinned
    | none => false

/-- 1 KiB units that an image's trees take (R284). -/
def Img.cacheKib (m : Img) : Nat := (m.trees.map fun t => if t.wide then 1 else ceilDiv t.len 1024).foldl (· + ·) 0

/-- Units laid into the free room of the quarters, lowest first (log entry 38). -/
def layUnits (n : Nat) : List Nat → List Nat
  | [] => []
  | r :: rs => min n r :: layUnits (n - r) rs

/-- Pinning of a bank (R272): copied where there is room, else left streamed. -/
def State.pin (s : State) (b : FBank) : FBank :=
  let room := (List.range 4).map s.cacheFree
  let keep := if s.streams then 2048 else 0
  let n := Img.cacheKib b.img
  if n + keep ≤ room.foldl (· + ·) 0 then { b with pinned := true, cache := layUnits n room } else b

/-- FOREST_LOAD_DONE (R275, R291). poison: an uncorrectable error was met during the load. -/
def execForestLoadDone (slot : Nat) (poison : Bool) (s : State) : Out :=
  match (s.fslot slot).loading with
  | some (base, len) =>
    let f := s.fslot slot
    let st := s.loadStatus base len poison
    let s := s.wl L.FST_SLOT_STAT_LOAD_STATUS st slot
    if st = 1 then
      let m := s.imgAt base len
      let b : FBank := { img := m, base := base }
      let b := if s.rl L.FST_SLOT_CFG_PIN slot = 1 then s.pin b else b
      .next (((s.setFslot slot { f with loading := none, shadow := some b }).wl L.FST_SLOT_STAT_SHADOW 2 slot).wl
        L.FST_SLOT_MODEL_SHADOW m.model slot)
    else .next ((s.setFslot slot { f with loading := none, shadow := none }).wl L.FST_SLOT_STAT_SHADOW 3 slot)
  | none => .next s

/-- Pinning of active banks retried (R272). -/
def State.repin (s : State) : State :=
  (List.range 64).foldl (fun s i =>
    match (s.fslot i).active with
    | some b =>
      if !b.pinned && s.rl L.FST_SLOT_CFG_PIN i == 1 then
        let b := s.pin b
        (s.setFslot i { s.fslot i with active := some b }).wl L.FST_SLOT_STAT_PINNED (b2n b.pinned) i
      else s
    | none => s) s

/-- No queued vector or open pass refers to the retiring bank of slot i (R276). -/
def State.retiringIdle (s : State) (i : Nat) : Bool :=
  let f := s.fslot i
  let o := s.fswapsOld i
  !(f.queue.any fun v => v.swaps == o) && !(match f.pass with | some p => p.swaps == o | none => false)

/-- FOREST_BANK_RELEASE (R276). -/
def execForestBankRelease (slot : Nat) (s : State) : Out :=
  if (s.fslot slot).retiring.isSome ∧ s.retiringIdle slot then
    .next (s.setFslot slot { s.fslot slot with retiring := none }).repin
  else .next s

/-- The prepare of slot i fails (R246, R276, R292), for the register values r as staged; sw: 1 a bank swap, 2 an empty
shadow bank (R275) is staged, 0 neither. -/
def State.forestBad (s : State) (i : Nat) (r : Regs) (sw : Nat) : Bool :=
  let f := s.fslot i
  let g := fun F => r.rd F i
  let outs := List.range 4
  let scopeBad := sw == 1 && (match f.shadow with
    | some b => Img.scopeDie b.img != (g L.FST_SLOT_CFG_SCOPE == 1)
    | none => false)
  (sw == 1 && s.rl L.FST_SLOT_STAT_SHADOW i != 2) || f.retiring.isSome || scopeBad ||
    (g L.FST_SLOT_CFG_EN == 1 && g L.FST_SLOT_CFG_SCOPE == 1 && s.role != 0) ||
    decide (10 < g L.FST_SLOT_CFG_DIV) || g L.FST_SLOT_CFG_WEIGHT == 0 ||
    (decide (1 ≤ g L.FST_SLOT_CFG_SHADOW_SHIFT) && decide (g L.FST_SLOT_CFG_SHADOW_SHIFT ≤ 3)) || g L.FST_SLOT_CFG_CONFIRM == 0 ||
    decide (g L.FST_SLOT_QBASE_LO % 4096 ≠ 0) || decide (g L.FST_SLOT_VBASE_LO % 4096 ≠ 0) ||
    outs.any fun o => let a := r.rd L.FST_ON i o; let b := r.rd L.FST_OFF i o
                      (f32.dec a).isNan || (f32.dec b).isNan || f32.lt a b

/-- The swap of slot i at a commit at time c (R276), after its registers have changed. sw: 1 its shadow bank becomes active, 2 it is
left empty, 0 its bank stays. -/
def State.forestCommit (s : State) (i sw c : Nat) : State :=
  let f := s.fslot i
  let old := modelOf f.active
  let swap := sw != 0
  let src := if sw = 1 then f.shadow else if sw = 2 then none else f.active
  let on := (List.range 4).map fun o => s.rl L.FST_ON i o
  let off := (List.range 4).map fun o => s.rl L.FST_OFF i o
  let act := src.map fun b => { b with on := on, off := off }
  let ret := f.active.map fun b => if swap then b else { b with cache := [0, 0, 0, 0] }
  let st := s.rl L.FST_SLOT_STAT_STATE i
  let st' := if s.rl L.FST_SLOT_CFG_EN i = 0 ∨ act.isNone then fstIdle else if st = fstFault ∧ !swap then fstFault else fstRun
  let s := s.setFslot i { f with active := act, retiring := ret, shadow := if swap then none else f.shadow, k := 0,
                                 commit := some (short c) }
  let s := (s.wl L.FST_SLOT_STAT_SWAPS ((s.fswaps i + 1) % 256) i).wl L.FST_SLOT_STAT_STATE st' i
  let s := (s.wl L.FST_SLOT_STAT_PINNED (match act with | some b => b2n b.pinned | none => 0) i).wl L.FST_SLOT_MODEL_ACTIVE (modelOf act) i
  let s := if swap then (s.wl L.FST_SLOT_STAT_SHADOW 0 i).wl L.FST_SLOT_MODEL_SHADOW 0 i else s
  s.forestEvent i 0 0 old 0

end Sys2Proof.Machine
end

