-- ==== Sys2Proof/Machine/GauntletL.lean ====
section
/-! DEFINITION. The Gauntlet in the Lamulo: packages, the schedule and the observation of suspects (R316 to R334). -/

namespace Sys2Proof.Machine

/-! ### Packages (R316 to R319) -/

/-- The Lamulo's Gauntlet replaced. -/
def State.setGntF (s : State) (g : GntF) : State := { s with lam := { s.lam with gnt := g } }

/-- The half of the store that no held package lies in, the shadow aside. -/
def GntF.freeHalf (g : GntF) : Nat :=
  match g.active with
  | some p => 1 - p.half
  | none => 0

/-- DDR address of a half of the package store: 512 MiB in two halves. -/
def State.storeHalf (s : State) (h : Nat) : Nat :=
  s.rl L.GNTF_STORE_BASE_HI * 2 ^ 32 + s.rl L.GNTF_STORE_BASE_LO + h * 2 ^ 28

/-- GAUNTLET_LOAD (R320): refused while a bank retires or a load is in progress. -/
def State.opGauntletLoad (s : State) (base len : Nat) : State × CmdRes :=
  let g := s.lam.gnt
  if !s.isCrown then (s, { status := St.badTarget })
  else if g.retiring.isSome || g.loading.isSome then (s, { status := St.busy })
  else ((s.setGntF { g with loading := some (base, len), shadow := none }).wl L.GNTF_STAT_SHADOW 1, {})

/-- GAUNTLET_LOAD (R320, opcode 0x38). -/
def execGauntletLoad (h : CmdHdr) (base len : Nat) (s : State) : Out :=
  .next (s.cmdLam { h with opcode := 0x38 } fun s => s.opGauntletLoad (base % 2 ^ 64) (len % 2 ^ 64))

/-- GNT_PUSH (R320): bytes of the package laid into the free half of the store; the check begins when the package is whole,
as its header tells. -/
def State.opGntPush (s : State) (off : Nat) (bs : List Nat) : State × CmdRes :=
  let g := s.lam.gnt
  if g.retiring.isSome then (s, { status := St.busy })
  else if 2 ^ 28 < off + bs.length then (s, { status := St.badParam })
  else
    let base := s.storeHalf g.freeHalf
    let s := s.ddrPut (base + off) bs
    let got := if off = 0 then bs.length else if off = g.got then g.got + bs.length else g.got
    let whole := 256 ≤ got ∧ got = pkgBytes (s.imgAt base 256)
    let s := s.setGntF { g with shadow := none, got := if whole then 0 else got, loading := if whole then some (base, got) else none }
    ((s.wl L.GNTF_STAT_SHADOW 1).wl L.GNTF_PKG_SHADOW_ID 0, {})

/-- GNT_PUSH (R320, opcode 0x39): forwarded to the Lamulo children, then taken. -/
def execGntPush (h : CmdHdr) (off len : Nat) (bs : List Nat) (s : State) : Out :=
  let h := { h with opcode := 0x39 }
  let bs := (bs.map (· % 256)).take len
  let s := if s.role = 0 then s else s.send .kids 4 (.cmd ⟨h, [off % 2 ^ 32, len % 2 ^ 32] ++ bytesToWords bs⟩)
  .next (s.cmdLam h fun s => s.opGntPush (off % 2 ^ 32) bs)

/-- A list cut into pieces of n, with fuel. -/
def chunks {α : Type} (n : Nat) : Nat → List α → List (List α)
  | 0, _ => []
  | k + 1, l => if l.isEmpty then [] else l.take n :: chunks n k (l.drop n)

/-- Bytes of package or item data that one packet carries; the manual gives no number (log entry 40). -/
def pushChunk : Nat := 2048

/-- The package sent down every tree port (R320). -/
def State.pushPkg (s : State) (m : Img) : State :=
  (chunks pushChunk (ceilDiv m.length pushChunk) m).foldl (fun (a : State × Nat) c =>
    (a.1.cmdDown .all 0x39 5 0 ([a.2, c.length] ++ bytesToWords c), a.2 + c.length)) (s, 0) |>.1

/-- PACKAGE_CHECK_DONE (R319, R320). -/
def execPackageCheckDone (poison : Bool) (s : State) : Out :=
  let g := s.lam.gnt
  match g.loading with
  | some (base, len) =>
    let st := s.pkgStatus base len poison
    let s := s.wl L.GNTF_STAT_LOAD_STATUS st
    if st = 1 then
      let m := s.imgAt base len
      let h := g.freeHalf
      let s := s.setGntF { g with loading := none, shadow := some ⟨m, h⟩ }
      let s := (s.wl L.GNTF_STAT_SHADOW 2).wl L.GNTF_PKG_SHADOW_ID (pkgId m)
      .next (if s.isCrown then (s.ddrPut (s.storeHalf h) m).pushPkg m else s)
    else .next ((s.setGntF { g with loading := none, shadow := none }).wl L.GNTF_STAT_SHADOW 3)
  | none => .next s

/-! ### The swap of packages (R320, R331) -/

/-- The swap of banks at a commit (R320). -/
def State.gntCommit (s : State) : State :=
  let g := s.lam.gnt
  let busy := match g.active with
    | some p => g.ports.any fun x => match x.running with | some r => r.2.1 == pkgId p.img | none => false
    | none => false
  let s := s.setGntF { g with active := g.shadow, shadow := none, retiring := if busy then g.active else none,
                              ports := g.ports.map fun x => { x with retest := none, firstLaunch := none } }
  let s := ((s.wl L.GNTF_STAT_SHADOW 0).wl L.GNTF_STAT_ACTIVE 1).wl L.GNTF_STAT_RETIRING (b2n busy)
  let s := (s.wl L.GNTF_PKG_ACTIVE_ID (match g.shadow with | some p => pkgId p.img | none => 0)).wl L.GNTF_PKG_SHADOW_ID 0
  (List.range 16).foldl State.sweepAlign s

/-! ### Scheduling at a Tray (R321, R330 to R333) -/

/-- What the Tray holds of the tests on port q. -/
def State.gport (s : State) (q : Nat) : GPort := s.lam.gnt.ports.getD q {}

/-- The same, replaced. -/
def State.setGport (s : State) (q : Nat) (p : GPort) : State :=
  s.setGntF { s.lam.gnt with ports := setNth {} s.lam.gnt.ports q p }

/-- The step count of a port, once per MC (R330): the die's DIG_STEP, or one for every STEP_MC mains cycles. -/
def State.countStep (s : State) (q : Nat) (digest : Bool) (digStep : Nat) : State :=
  if digest then s.wl L.GNTF_STEP digStep q
  else
    let p := s.gport q
    if s.rl L.GNTF_CFG2_STEP_MC ≤ p.mcCount + 1 then
      (s.setGport q { p with mcCount := 0 }).wl L.GNTF_STEP ((s.rl L.GNTF_STEP q + 1) % 2 ^ 32) q
    else s.setGport q { p with mcCount := p.mcCount + 1 }

/-- A retest of port q falls due (R333). -/
def State.retestDue (s : State) (q : Nat) : State :=
  let p := s.gport q
  let step := s.rl L.GNTF_STEP q
  let from' := max p.markStep (s.rl L.GNTF_RETEST_STEP q)
  if s.rl L.OBS_SUSPECT q = 1 ∧ s.rl L.OBS_DUE q = 0 ∧ p.retest = none ∧ from' + s.rl L.GNTF_CFG_RETEST_STEPS ≤ step then
    (s.wl L.OBS_DUE 1 q).wl L.GNTF_RETEST_STEP step q
  else s

/-- The condition of R333 holds for port q. -/
def State.condMatch (s : State) (q : Nat) : Bool :=
  let d := s.det q
  (d.temp.map tbinOf).getD 0 == s.rl L.OBS_TBIN q && (s.rl L.OBS_LOAD q == 0 || d.load == s.rl L.OBS_LOAD q)

/-- The die on port q serves a package (R321): LICENSEE and version, as the modelled die has them (log entry 33). -/
def State.testable (s : State) (m : Img) : Bool :=
  s.itu.caps.licensee == pkgLicensee m &&
    decide (pkgMinMajor m * 256 + pkgMinMinor m ≤ s.ri I.ITU_VERSION_MAJOR * 256 + s.ri I.ITU_VERSION_MINOR)

/-- Dies of the tray with an item between GNT_RUN and EMIT. -/
def State.running (s : State) : Nat := (s.lam.gnt.ports.filter fun p => p.running.isSome).length

/-- An item launched at the die on port q (R322): its data by GNT_STAGE, then GNT_RUN with the retest flag beside LOAD
(log entry 21). -/
def State.launch (s : State) (q item : Nat) (m : Img) (retest : Bool) : State :=
  let d := pkgItemData m item
  let s := ((chunks pushChunk (ceilDiv d.length pushChunk) d).foldl (fun (a : State × Nat) c =>
    (a.1.dieCmd q 0x3A ([a.2] ++ bytesToWords c), a.2 + c.length)) (s, 0)).1
  let s := s.dieCmd q 0x3B ([item ||| pkgId m <<< 16, (s.det q).load ||| b2n retest <<< 4] ++ pkgEntry m item)
  let s := s.setDet q { s.det q with testMc := some (s.mc .lam) }
  (s.setGport q { s.gport q with running := some (item, pkgId m, retest) }).il L.GNTF_CNT_RUN

/-- ITEM_SCHEDULE (R331, R333) for port q. idle: the ITU's GNT_STAT.STATE is IDLE. -/
def State.schedule (s : State) (q : Nat) (idle : Bool) : State :=
  match s.pkg with
  | none => s
  | some m =>
    let s := s.retestDue q
    if !(s.rl L.GNTF_CTL_ENABLE == 1 && s.rl L.LNK_STAT_PORT q == 2 && idle && (s.gport q).running.isNone &&
        decide (s.running < s.rl L.GNTF_CFG2_MAX_PAR)) then s
    else if !s.testable m then
      if s.rl L.OBS_UNTESTABLE q = 0 then (s.wl L.OBS_UNTESTABLE 1 q).il L.GNTF_CNT_UNTESTABLE else s
    else
      let s := s.wl L.OBS_UNTESTABLE 0 q
      let rl := pkgList m 3
      let due := s.rl L.GNTF_CTL_RETEST_EN == 1 && s.rl L.OBS_SUSPECT q == 1 && s.rl L.OBS_DUE q == 1 && !rl.isEmpty
      let match' := s.condMatch q
      let s := if due && !match' then s.il L.GNTF_CNT_COND_WAIT else s
      if due && match' then
        let p := s.gport q
        let left := p.retest.getD rl
        match left with
        | i :: _ =>
          let s := s.setGport q { p with retest := some left, firstLaunch := p.firstLaunch.orElse fun _ => some (s.rl L.GNTF_STEP q) }
          s.launch q i m true
        | [] => s
      else
        let sl := pkgList m 2
        let n := sl.length
        let done := s.rl L.GNTF_SWEEP_DONE q
        if s.rl L.GNTF_CTL_SWEEP_EN = 1 ∧ 0 < n ∧ done ≠ s.sweepTarget q n then
          let k := (done + 1) % n
          (s.launch q (nth sl k) m false).wl L.GNTF_SWEEP_DONE k q
        else s

/-- The retiring package is released when no item of it runs (R320). -/
def State.pkgRelease (s : State) : State :=
  match s.lam.gnt.retiring with
  | some p =>
    if s.lam.gnt.ports.any fun x => match x.running with | some r => r.2.1 == pkgId p.img | none => false then s
    else (s.setGntF { s.lam.gnt with retiring := none }).wl L.GNTF_STAT_RETIRING 0
  | none => s

/-- RESULT of a test record: 0 PASS, 1 FAIL, 2 INCOMPLETE or SKIPPED. -/
def testResult (r : Rec) : Nat := if r.typ = 0x0B0 then bits (nth r.body 0) 18 3 else bits (nth r.body 0) 12 2

/-- RETEST of a test record. -/
def testRetest (r : Rec) : Bool := bitAt (nth r.body 0) (if r.typ = 0x0B0 then 21 else 18)

/-- A result record at the Tray (R327, R333): counted; a SKIPPED or INCOMPLETE item is run again, a sweep item by stepping
the sweep back, a retest ends at its first FAIL or when every item has passed. -/
def State.testAtTray (s : State) (q : Nat) (r : Rec) : State :=
  let res := testResult r
  let item := bits (nth r.body 0) 0 12
  let p := s.gport q
  let s := s.setGport q { p with running := none }
  let s := if res = 1 then s.il L.GNTF_CNT_FAIL else if res = 2 then s.il L.GNTF_CNT_SKIP else s
  let s :=
    if testRetest r then
      match p.retest with
      | some l =>
        if res = 2 then s
        else
          let l := if res = 1 then [] else l.filter (· != item)
          let p := s.gport q
          if l = [] then (s.setGport q { p with retest := none, firstLaunch := none }).wl L.OBS_DUE 0 q
          else s.setGport q { p with retest := some l }
      | none => s
    else if res = 2 then
      match s.pkg with
      | some m =>
        let n := (pkgList m 2).length
        if n = 0 then s else s.wl L.GNTF_SWEEP_DONE ((s.rl L.GNTF_SWEEP_DONE q + n - 1) % n) q
      | none => s
    else s
  s.pkgRelease

/-- RETEST_ABANDON (R333): not complete within RETEST_STEPS steps of its first launch. -/
def execRetestAbandon (q : Nat) (s : State) : Out :=
  let p := s.gport q
  match p.retest, p.firstLaunch with
  | some _, some f =>
    if f + s.rl L.GNTF_CFG_RETEST_STEPS < s.rl L.GNTF_STEP q then
      .next ((s.setGport q { p with retest := none, firstLaunch := none }).wl L.OBS_DUE 1 q)
    else .next s
  | _, _ => .next s

/-- GNT_SUSPECT at a Tray (R332). -/
def State.opGntSuspect (s : State) (q : Nat) (e : Susp) : State × CmdRes :=
  if s.role ≠ 0 then (s, { status := St.badTarget }) else
  let s := (((s.wl L.OBS_SUSPECT (b2n e.suspect) q).wl L.OBS_TBIN e.tbin q).wl L.OBS_LOAD e.load q).wl L.OBS_PASSES e.passes q
  let s := if e.suspect then (if e.due then s.wl L.OBS_DUE 1 q else s)
    else (s.wl L.OBS_DUE 0 q).setGport q { s.gport q with retest := none, firstLaunch := none }
  let s := if e.suspect && e.due then s.wl L.GNTF_RETEST_STEP (s.rl L.GNTF_STEP q) q else s
  (if e.suspect && e.mark then s.setGport q { s.gport q with markStep := s.rl L.GNTF_STEP q } else s, {})

/-- GNT_SUSPECT (R332, opcode 0x3C). -/
def execGntSuspect (h : CmdHdr) (port : Nat) (entry : List Nat) (s : State) : Out :=
  .next (s.cmdLam { h with opcode := 0x3C } fun s => s.opGntSuspect (port % 16) (Susp.ofWords entry))

/-! ### Results at the Crown (R332, R334) -/

/-- TEST_RESULT_SUSPECT (R332, R334): a CANARY_RESULT or SLICE_RESULT that reaches the Crown. -/
def State.testAtCrown (s : State) (r : Rec) : State :=
  let res := testResult r
  let cause := if r.typ = 0x0B0 then 4 else 5
  let e := s.susp r.die
  let item := bits (nth r.body 0) 0 12
  if res = 1 then
    if e.suspect && testRetest r then
      let e := { e with passes := 0 }
      ((s.setSusp r.die e).setPassed r.die []).suspectRec r.die 2 cause e
    else
      s.markSuspect r.die cause (tbinOf (bits (nth r.body 6) 0 10))
        (if r.typ = 0x0B0 then bits (nth r.body 0) 24 4 else bits (nth r.body 0) 19 4)
  else if res = 0 ∧ e.suspect ∧ testRetest r then
    match s.pkg with
    | some m =>
      let old := ((s.lam.gnt.passed.find? fun p => p.1 == r.die).map (·.2)).getD []
      let l := if old.contains item then [item] else old ++ [item]
      if (pkgList m 3).all l.contains then
        let e := { e with passes := min 15 (e.passes + 1) }
        if s.rl L.GNTF_CFG2_PASSES ≤ e.passes then s.clearSuspect r.die e.cause
        else (s.setSusp r.die e).setPassed r.die []
      else s.setPassed r.die l
    | none => s
  else s

/-- A REJOIN record for a suspect die (R161, R333): its retest is ordered at once. -/
def State.rejoinAtCrown (s : State) (die : Nat) : State :=
  let e := s.susp die
  if e.suspect then s.setSusp die { e with due := true } else s

end Sys2Proof.Machine
end

