-- ==== Sys2Proof/Machine/LinkCell.lean ====
section
/-! DEFINITION. Cells of Ikisa Link (R167 to R174), hand-over of records and ledger messages (R47, R175, R187). -/

namespace Sys2Proof.Machine

/-! ### Items and their bytes -/

/-- The bytes of an item stream that a receiver makes of a cell's bytes (R173, R174): items completed, and the part
of the next. fuel bounds the items begun. -/
def parseItems (vc : Nat) : Nat → List Nat → List Nat → List (List Nat) × List Nat × Bool
  | 0, part, _ => ([], part, false)
  | fuel + 1, part, bs =>
    if part = [] ∧ ofLeBytes (bs.take 4) = 0 then ([], [], false) else
    let all := part ++ bs
    let n := itemLen vc (ofLeBytes (all.take 4))
    if n ≤ 4 then ([], [], true)
    else if all.length < n then ([], all, false)
    else
      let r := parseItems vc fuel [] (all.drop n)
      (all.take n :: r.1, r.2)

/-- Items of a VC, taken into bytes of one cell: the bytes, the items left, whether the first one left has begun. -/
def layItems : Nat → List (List Nat) → Bool → List Nat × List (List Nat) × Bool
  | 0, items, b => ([], items, b)
  | _, [], _ => ([], [], false)
  | room, it :: rest, _ =>
    if room < it.length then (it.take room, it.drop room :: rest, true)
    else
      let r := layItems (room - it.length) rest false
      (it ++ r.1, r.2)

/-- FIRST of a cell of items (R168): 127 where none begins in it. -/
def firstOf (items : List (List Nat)) (begun : Bool) : Nat :=
  match items with
  | [] => 127
  | it :: rest => if !begun then 0 else if it.length < 120 ∧ rest ≠ [] then it.length else 127

/-- Octets of a cell (R168): header word and payload padded to 120 octets, and the check of algorithm chk. -/
def cellOctets (chk hdr : Nat) (payload : List Nat) : List Nat :=
  let b := leBytes 4 hdr ++ payload ++ List.replicate (120 - payload.length) 0
  b ++ leBytes 4 (crcOf chk b)

/-- Header word of a cell (R168). -/
def cellHdr (vc first cseq : Nat) : Nat := vc ||| first <<< 4 ||| cseq <<< 12

/-- A cell as it is sent again: REPLAYED set, check computed anew (R170). -/
def replayed (chk : Nat) (o : List Nat) : List Nat :=
  cellOctets chk (ofLeBytes (o.take 4) ||| 8) ((o.drop 4).take 120)

/-- The check that the end has agreed. -/
def LinkEnd.chk (e : LinkEnd) : Nat := (e.agreed.getD (3, 0)).2

/-- Octets of a MAINS cell (R179). -/
def mainsOctets (chk : Nat) (a : Ann) : List Nat :=
  cellOctets chk (cellHdr 7 127 0)
    ([4, 0, 0, 0] ++ leBytes 6 a.mc ++ [0, 0] ++ leBytes 8 (a.start / 2 ^ 32) ++ leBytes 4 (a.start % 2 ^ 32) ++
      leBytes 8 a.length ++ [a.flags % 256])

/-! ### Sending -/

/-- Virtual channels that an end sends, in the order of R172. -/
def vcOrder : Side → List Nat
  | .itu => [0, 5, 3, 1, 2]
  | .lam => [5, 4]

/-- Credit of a VC (R171): cells that may still be sent. -/
def VcTx.credit (t : VcTx) : Nat := (t.lim + 4096 - t.sent % 4096) % 4096

/-- s12(sent - lim) < 0 (R171). -/
def VcTx.may (t : VcTx) : Bool := decide (toS 12 (ofS 12 ((t.sent : Int) - t.lim)) < 0)

/-- The LINK block that is due at an end, if any (R167). -/
def State.linkDue (s : State) (sd : Side) (q : Nat) : Option Nat :=
  let e := s.le sd q
  if e.nakDue then some (3 ||| e.rxSeq <<< 8)
  else if 32 ≤ e.ackCnt then some (2 ||| (e.rxSeq + 4095) % 4096 <<< 8)
  else
    let held := match e.withhold with | some t => decide (s.now sd < t) | none => false
    match (List.range 8).find? (fun v => (e.rx.getD v {}).due && !held) with
    | some v => some (1 ||| v <<< 4 ||| (e.rx.getD v {}).freed % 4096 <<< 8)
    | none => none

/-- An end after it has sent a LINK block. -/
def LinkEnd.linkSent (e : LinkEnd) (b : Nat) : LinkEnd :=
  let e := { e with wireBlk := b }
  match bits b 0 4 with
  | 1 => { e with rx := setNth {} e.rx (bits b 4 3) { (e.rx.getD (bits b 4 3) {}) with due := false } }
  | 2 => { e with ackCnt := 0 }
  | 3 => { e with nakDue := false }
  | 5 => { e with readySent := true }
  | _ => e

/-- A new cell of VC v (R168, R170, R171, R173). -/
def LinkEnd.newCell (e : LinkEnd) (v : Nat) : LinkEnd :=
  let t := e.tx.getD v {}
  let l := layItems 120 t.items t.begun
  let o := cellOctets e.chk (cellHdr v (firstOf t.items t.begun) e.txSeq) l.1
  let bad := e.corrupt && v == 4
  { e with tx := setNth {} e.tx v { t with items := l.2.1, begun := l.2.2, sent := (t.sent + 1) % 4096 },
           txSeq := (e.txSeq + 1) % 4096, unacked := e.unacked ++ [(e.txSeq, o)],
           wire := if bad then o.take 124 ++ (o.drop 124).map (255 - ·) else o,
           corrupt := e.corrupt && !bad }

/-- Packets waiting for VC 4 of a port are laid out where the channel is empty. -/
def State.feedCmd (s : State) (sd : Side) (q : Nat) : State :=
  match sd with
  | .itu => s
  | .lam =>
    let p := s.port q
    let t := p.link.tx.getD 4 {}
    match p.cmds with
    | [] => s
    | c :: rest =>
      if t.items = [] then
        s.setPort q { p with cmds := rest, link := { p.link with tx := setNth {} p.link.tx 4 { t with items := [c.bytes] } } }
      else s

/-- CELL_TX (R172): the end, in UP, puts out the first of: a TIME cell due, a LINK block due, a replayed cell, a new
cell. -/
def State.cellTx (s : State) (sd : Side) (q : Nat) : State :=
  let e := s.le sd q
  match e.timeCell, e.mainsCells with
  | some o, _ => s.setLe sd q { e with timeCell := none, wire := o }
  | none, a :: rest => s.setLe sd q { e with mainsCells := rest, wire := mainsOctets e.chk a }
  | none, [] =>
    match s.linkDue sd q with
    | some b => s.setLe sd q (e.linkSent b)
    | none =>
      match e.replay with
      | c :: rest =>
        (s.setLe sd q { e with replay := rest, wire := replayed e.chk c.2 }).li sd q I.ILNK_CNT_REPLAY L.LNK_CNT_REPLAY
      | [] =>
        let s := s.feedCmd sd q
        let e := s.le sd q
        let fmt2 := s.lr sd q I.ILNK_STAT_FMT L.LNK_STAT_FMT == 2
        if 512 ≤ e.unacked.length then s else
        match (vcOrder sd).find? (fun v =>
            decide ((e.tx.getD v {}).items ≠ []) && (e.tx.getD v {}).may && !(fmt2 && v == 5)) with
        | some v => s.setLe sd q (e.newCell v)
        | none => s

/-- CELL_TX (R172). -/
def execCellTx (sd : Side) (q : Nat) (s : State) : Out :=
  if s.lkEnd sd q ∧ s.lkState sd q = 4 then .next (s.cellTx sd q) else .next s

/-- LINK_BLOCK_TX (R167): ALIGN (vc names the lane) from SETTLE on, CREDIT, ACK and NAK in UP, HELLO and READY in
NEGOTIATE. -/
def execLinkBlockTx (sd : Side) (q kind vc : Nat) (s : State) : Out :=
  let e := s.le sd q
  let st := s.lkState sd q
  if !s.lkEnd sd q then .next s else
  match kind with
  | 0 => if 2 ≤ st then .next (s.setLe sd q (e.linkSent (vc % 2 <<< 4))) else .next s
  | 1 =>
    let held := match e.withhold with | some t => decide (s.now sd < t) | none => false
    if st = 4 ∧ vc < 8 ∧ !held then
      .next (s.setLe sd q (e.linkSent (1 ||| vc <<< 4 ||| (e.rx.getD vc {}).freed % 4096 <<< 8)))
    else .next s
  | 2 => if st = 4 then .next (s.setLe sd q (e.linkSent (2 ||| (e.rxSeq + 4095) % 4096 <<< 8))) else .next s
  | 3 => if st = 4 ∧ e.nakDue then .next (s.setLe sd q (e.linkSent (3 ||| e.rxSeq <<< 8))) else .next s
  | 4 => if st = 3 then .next (s.setLe sd q (e.linkSent (4 ||| 3 <<< 8 ||| 3 <<< 16 ||| 2 <<< 20 ||| 3 <<< 24))) else .next s
  | 5 =>
    match e.agreed with
    | some a => if st = 3 then .next (s.setLe sd q (e.linkSent (5 ||| a.1 <<< 8 ||| a.2 <<< 12))) else .next s
    | none => .next s
  | _ => .next s

/-! ### Receiving -/

/-- The cell's check passes (R168). -/
def cellOk (chk : Nat) (o : List Nat) : Bool :=
  o.length == 128 && ofLeBytes (o.drop 124) == crcOf chk (o.take 124)

/-- VC v runs toward an end (R169). -/
def vcInward : Side → Nat → Bool
  | .lam, v => decide (v < 4) || v == 5
  | .itu, v => v == 4 || v == 5

/-- A cell not accepted (R170): one NAK per gap. -/
def LinkEnd.gap (e : LinkEnd) : LinkEnd := if e.naked then e else { e with naked := true, nakDue := true }

/-- A partial item given up (R174); CNT_RESYNC exists at the Lamulo. -/
def State.resync (s : State) (sd : Side) (q v : Nat) : State :=
  let e := s.le sd q
  let r := e.rx.getD v {}
  if r.part = [] then s else
  let s := s.setLe sd q { e with rx := setNth {} e.rx v { r with part := [] } }
  match sd with | .itu => s | .lam => s.il L.LNK_CNT_RESYNC 1 q

/-- The cell's payload joins the stream of its VC (R173, R174). Records of another format than the one agreed, and a
LENGTH of 0, end the reading of the cell and count as R175 states. -/
def State.takeCell (s : State) (sd : Side) (q v first : Nat) (payload : List Nat) : State :=
  let e := s.le sd q
  let r := e.rx.getD v {}
  let left := itemLen v (ofLeBytes (r.part.take 4)) - r.part.length
  let agrees := if left < 120 then first == left || first == 127 else first == 127
  let s := if r.part ≠ [] ∧ !agrees then s.resync sd q v else s
  let e := s.le sd q
  let r := e.rx.getD v {}
  let bs := if r.part = [] then payload.drop first else payload
  let out := parseItems v 120 r.part bs
  let fmt := s.lr sd q I.ILNK_STAT_FMT L.LNK_STAT_FMT
  let right := fun (it : List Nat) => 4 ≤ v || bits (ofLeBytes (it.take 4)) 28 4 == fmt
  let good := out.1.takeWhile right
  let wrong := good.length < out.1.length
  let bad := wrong || out.2.2
  let s := if bad && decide (v < 4) then (match sd with | .itu => s | .lam => s.il L.LNK_CNT_BAD_REC 1 q) else s
  let e := s.le sd q
  s.setLe sd q { e with got := e.got ++ good.map (fun it => (v, it)),
                        rx := setNth {} e.rx v { part := if bad then [] else out.2.1, freed := (r.freed + 1) % 4096, due := true } }

/-- CELL_RX (R165, R168 to R170, R174, R179). octets of other than 128 are a cell that a control block ended;
badBlocks counts blocks of no known type since the last cell. -/
def State.cellRx (s : State) (sd : Side) (q : Nat) (o : List Nat) : State :=
  let e := s.le sd q
  let h := ofLeBytes (o.take 4)
  let v := bits h 0 3
  let first := bits h 4 7
  if v = 7 then
    if cellOk e.chk o && decide (1 ≤ nth o 4) && decide (nth o 4 ≤ 4) then s
    else s.li sd q I.ILNK_CNT_TIME_LOST L.LNK_CNT_TIME_LOST
  else if !cellOk e.chk o then (s.li sd q I.ILNK_CNT_CELL_BAD L.LNK_CNT_CELL_BAD).setLe sd q e.gap
  else if bits h 12 12 ≠ e.rxSeq then s.setLe sd q e.gap
  else
    let s := s.setLe sd q { e with rxSeq := (e.rxSeq + 1) % 4096, naked := false, nakDue := false, ackCnt := e.ackCnt + 1 }
    if !vcInward sd v || (decide (120 ≤ first) && decide (first < 127)) then
      (s.li sd q I.ILNK_CNT_CELL_BAD L.LNK_CNT_CELL_BAD).resync sd q v
    else s.takeCell sd q v first ((o.drop 4).take 120)

/-- CELL_RX (R170). -/
def execCellRx (sd : Side) (q : Nat) (octets : List Nat) (badBlocks : Nat) (s : State) : Out :=
  if s.lkEnd sd q ∧ s.lkState sd q = 4 then
    .next (((s.li sd q I.ILNK_CNT_BAD_BLOCK L.LNK_CNT_BAD_BLOCK badBlocks).lkBlock sd q).cellRx sd q octets)
  else .next s

/-- NAK_RX (R170): cells from the CSEQ named on are resent; the eighth NAK for one CSEQ takes the link down. -/
def execNakRx (sd : Side) (q cseq : Nat) (s : State) : Out :=
  if s.lkEnd sd q ∧ s.lkState sd q = 4 then
    let s := s.lkBlock sd q
    let e := s.le sd q
    let n := if e.nakSeq = cseq ∧ 0 < e.nakCnt then e.nakCnt + 1 else 1
    if 8 ≤ n then .next (s.leaveUp sd q 4)
    else .next (s.setLe sd q { e with nakSeq := cseq, nakCnt := n, replay := e.unacked.dropWhile (fun c => c.1 != cseq) })
  else .next s

/-- ACK_RX (R170): cells up to the CSEQ named are released. -/
def execAckRx (sd : Side) (q cseq : Nat) (s : State) : Out :=
  if s.lkEnd sd q ∧ s.lkState sd q = 4 then
    let s := s.lkBlock sd q
    let e := s.le sd q
    if e.unacked.any (fun c => c.1 == cseq) then
      let kept := (e.unacked.dropWhile (fun c => c.1 != cseq)).drop 1
      let still := fun (x : Nat) => kept.any (fun c => c.1 == x)
      .next (s.setLe sd q { e with unacked := kept, replay := e.replay.filter (fun c => still c.1),
                                   nakCnt := if still e.nakSeq then e.nakCnt else 0 })
    else .next s
  else .next s

/-- CREDIT_RX (R171). -/
def execCreditRx (sd : Side) (q vc freed : Nat) (s : State) : Out :=
  if s.lkEnd sd q ∧ s.lkState sd q = 4 ∧ vc < 6 then
    let s := s.lkBlock sd q
    let e := s.le sd q
    .next (s.setLe sd q { e with tx := setNth {} e.tx vc { (e.tx.getD vc {}) with lim := freed % 4096 } })
  else .next s

/-- An item received whole is taken from the receiver's buffer. -/
def State.takeGot (s : State) (sd : Side) (q vc : Nat) (it : List Nat) : State :=
  let e := s.le sd q
  s.setLe sd q { e with got := e.got.erase (vc, it) }

/-! ### Hand-over at the ITU -/

/-- Bytes put at the end of a VC's items. -/
def LinkEnd.push (e : LinkEnd) (v : Nat) (bs : List Nat) : LinkEnd :=
  let t := e.tx.getD v {}
  { e with tx := setNth {} e.tx v { t with items := t.items ++ [bs] } }

/-- Record types of the ITU with a format-2 form (R195). -/
def hasFmt2 (typ : Nat) : Bool := typ == 0x001 || typ == 0x002 || typ == 0x010

/-- A record too old to transmit (R47). -/
def State.tooOld (s : State) (r : Rec) : Bool := decide (r.born + 1000000000 < s.now .itu)

/-- A record dropped before hand-over under R47. -/
def State.dropStale (s : State) (r : Rec) : State :=
  let s := s.ii I.ITIME_CNT_STALE
  if r.typ = 0x010 then (((s.ii I.SMP_CNT_REFUSED).ii I.SMP_CNT_DROP).wi I.SMP_STAT_DROP 1).smpDiscard r else s

/-- A record handed to IKL (R106, R175, R176): DIE, ALIVE and the trailer are set. -/
def State.handRec (s : State) (v : Nat) (r : Rec) : State :=
  let fmt := s.ri I.ILNK_STAT_FMT
  if fmt = 2 ∧ !hasFmt2 r.typ then s.ii I.ILNK_CNT_FMT_DROP else
  let c := if r.typ = 0x010 then s.smpCarry r else (s, r)
  let s := c.1
  let al := nth s.itu.txq.alive v
  let r := { c.2 with fmt := fmt, die := s.ri I.ITU_DIE_ID_ID, alive := al }
  let r := { r with trailer := r.trailerOf }
  let t := s.itu.txq
  { s with itu := { s.itu with txq := { t with alive := setNth 0 t.alive v ((al + 1) % 256) }, link := s.itu.link.push v r.wire } }

/-- RECORD_HANDOVER (R175): the records of VC 0 to 3 and the ledger messages of VC 5, while the link is UP, the die
ID is written and credit allows. -/
def State.handover (s : State) (v : Nat) : State :=
  let t := s.itu.txq
  if v = 5 then
    match t.ledger with
    | [] => s
    | m :: rest =>
      if s.ri I.ILNK_STAT_FMT = 2 then s
      else { s with itu := { s.itu with txq := { t with ledger := rest }, link := s.itu.link.push 5 (wordsToBytes m) } }
  else
    let l := t.q v
    let old := l.takeWhile s.tooOld
    let rest := l.dropWhile s.tooOld
    let s := old.foldl State.dropStale s
    match rest with
    | [] => { s with itu := { s.itu with txq := s.itu.txq.setQ v [] } }
    | r :: rest => ({ s with itu := { s.itu with txq := s.itu.txq.setQ v rest } } : State).handRec v r

/-- RECORD_HANDOVER (R175). -/
def execRecordHandover (vc : Nat) (s : State) : Out :=
  if (vc < 4 ∨ vc = 5) ∧ s.ri I.ILNK_STAT_STATE = 4 ∧ s.ri I.ITU_DIE_ID_VALID = 1 ∧ (s.itu.link.tx.getD vc {}).may then
    .next (s.handover vc)
  else .next s

end Sys2Proof.Machine
end

