-- ==== Sys2Proof/Machine/Rejoin.lean ====
section
/-! DEFINITION. Rejoin of a die (R157, R158) and the release of its previous generation (R153). -/

namespace Sys2Proof.Machine

/-- Rejoin state of port q replaced. -/
def State.setRejoin (s : State) (q : Nat) (r : Rejoin) : State := s.setPort q { s.port q with rejoin := r }

/-- Every partition reads RUN or HUNG. -/
def RejoinReads.settled (r : RejoinReads) : Bool := r.parts.all fun p => p.1 == 0 || p.1 == 5

/-- PART_CTL.ADV_ALL written (R158 step 5). -/
def State.writeAdvAll (s : State) (q : Nat) : State := s.ituWrite q I.PART_CTL_ADV_ALL.addr (1 <<< I.PART_CTL_ADV_ALL.lo)

/-- REJOIN (R162): DIE the physical die ID, partition 0 and its new generation. -/
def State.rejoinRec (s : State) (q : Nat) : State :=
  let r := (s.port q).rejoin
  (s.lamRec 0 0x043 (s.dieId q) (s.rl L.GEN_CUR q 0) (s.now .lam)
    [s.lam.brim.active.epoch ||| r.cause <<< 16, satN 32 (msSince (s.now .lam) r.unobsFrom), r.stepNs % 2 ^ 32, 0]).1

/-- One step of R158 whose condition is met. -/
def State.rejoinStep (s : State) (q : Nat) (reads : RejoinReads) : State :=
  let r := (s.port q).rejoin
  let kp := s.ri I.ITIME_CTL_KP_SHIFT <<< I.ITIME_CTL_KP_SHIFT.lo
  match r.step with
  | 1 =>
    let s := s.ituWrite q I.ITU_DIE_ID_ID.addr (s.dieId q ||| 1 <<< I.ITU_DIE_ID_VALID.lo)
    (s.ituWriteB q I.ITIME_CTL_ENABLE.addr 1 (1 ||| kp)).setRejoin q { r with step := 2 }
  | 2 =>
    if !reads.stepUsed then s.setRejoin q { r with step := 3 }
    else if r.granted then
      (s.ituWriteB q I.ITIME_CTL_REARM.addr 1 (1 ||| 1 <<< I.ITIME_CTL_REARM.lo ||| kp)).setRejoin q
        { r with step := 3, rearmed := true }
    else s
  | 3 =>
    if reads.state = 2 ∧ reads.mainsCurrent then
      s.setRejoin q { r with step := 4, stepNs := if r.rearmed then reads.stepNs else 0 }
    else s
  | 4 =>
    let s := s.ituWrite q I.CUFF_EPOCH.addr s.lam.brim.active.epoch
    (s.ituWrite q I.SMP_PHASE.addr (s.sampleSlot q)).setRejoin q { r with step := 5 }
  | 5 => if reads.settled then (s.writeAdvAll q).setRejoin q { r with step := 6 } else s
  | 6 =>
    if (List.range reads.parts.length).all r.gens.contains && decide (0 < reads.parts.length) then
      (s.rejoinRec q).portActive q
    else if reads.advRefused && reads.settled && reads.parts.all (fun p => !p.2) then s.writeAdvAll q
    else s
  | _ => s

/-- REJOIN_STEP (R158). -/
def execRejoinStep (q : Nat) (reads : RejoinReads) (s : State) : Out :=
  if q < 16 ∧ s.portUp q ∧ s.rl L.LNK_STAT_PORT q = 1 then .next (s.rejoinStep q reads) else .next s

/-- REJOIN_TIMEOUT (R158): step 3 not met within 10 s of link-up. The alarm's words are open (log entry 31). -/
def execRejoinTimeout (q : Nat) (s : State) : Out :=
  let r := (s.port q).rejoin
  if q < 16 ∧ s.rl L.LNK_STAT_PORT q = 1 ∧ 1 ≤ r.step ∧ r.step ≤ 3 ∧ 10000000000 ≤ s.now .lam - r.upAt then
    let f := (s.setRejoin q { r with step := 0 }).free
    .next (f.2.alarm .lam 0x001 (f.1 % 3) (f.1 / 4) (s.mc32 .lam))
  else .next s

/-- REJOIN_GRANT (R158): one port, or with AMODE 2 every port. -/
def State.rejoinGrant (s : State) (q : Option Nat) (grant : Bool) : State :=
  let set := fun (s : State) q => s.setRejoin q { (s.port q).rejoin with granted := grant }
  match q with
  | some q => set s q
  | none => (List.range 16).foldl set s

/-- REJOIN_GRANT (R158, opcode 0x1B): executed by a Tray. -/
def execRejoinGrant (h : CmdHdr) (q : Option Nat) (grant : Bool) (s : State) : Out :=
  .next (s.cmdLam { h with opcode := 0x1B } fun s =>
    if s.role ≠ 0 ∨ 16 ≤ q.getD 0 then (s, { status := St.badTarget }) else (s.rejoinGrant q grant, {}))

/-- PREV_GEN_RELEASE (R153): the start of the second MC after the receipt of PART_GEN. -/
def execPrevGenRelease (q p : Nat) (s : State) : Out :=
  let t := s.port q
  match t.genMc.find? (fun x => x.1 == p) with
  | some x =>
    if x.2 + 2 ≤ s.mc .lam then
      .next ((s.wl L.GEN_HELD 0 q p).setPort q { t with genMc := t.genMc.filter (fun y => y.1 != p) })
    else .next s
  | none => .next s

end Sys2Proof.Machine
end

