-- ==== Sys2Proof/Machine/LedgerI.lean ====
section
/-! DEFINITION. The ledger client in the ITU (14): measurements and their checks (R339, R350, R91, R475),
enactment (R340, R341), grants and freezes (R341, R351), reports (R354, R355). -/

namespace Sys2Proof.Machine

/-- pwr_ceiling_w or pwr_ballast_w changed at an enactment; the time of the change bounds H11 and H12. -/
def State.setOutputs (s : State) (ceil floor : Nat) : State :=
  let i := s.itu
  let p := i.pwr
  let s := s.setPwr { p with ceilAt := if i.pins.ceil = ceil then p.ceilAt else i.clk.ns,
                             floorAt := if i.pins.ballast = floor then p.floorAt else i.clk.ns }
  s.setPins { s.itu.pins with ceil := ceil, ballast := floor }

/-! ### Measurements -/

/-- A measurement is pressed (R339). -/
def State.pressed (s : State) (w : Nat) : Bool := decide ((s.itu.pins.ceil : Int) - (s.quantum / 2 : Nat) ≤ w)

/-- A measurement is pinned (R339). -/
def State.pinned (s : State) (w : Nat) : Bool :=
  decide (0 < s.itu.pins.ballast) && decide (w ≤ s.itu.pins.ballast + s.quantum / 2)

/-- The check of H11 (R91, R475) on a measurement. -/
def State.ceilCheck (s : State) (w : Nat) : State :=
  let p := s.itu.pwr
  let isOver := decide (s.itu.pins.ceil + s.quantum < w) && decide (100000 < s.itu.clk.ns - p.ceilAt)
  if isOver then
    let run := p.overRun + 1
    let s := s.setPwr { p with overRun := run, comply := 0 }
    if run = 2 then
      let s := (s.ii I.ITU_CNT_CEIL).wi I.ITU_FAULT_CEIL_BREACH 1
      if s.ri I.LDG_STAT_BREACH = 0 then (s.wi I.LDG_STAT_BREACH 1).ldgAlarm 2 else s
    else s
  else if s.ri I.LDG_STAT_BREACH = 1 then
    let s := s.setPwr { p with overRun := 0, comply := p.comply + 1 }
    if 64 ≤ p.comply + 1 then (s.wi I.LDG_STAT_BREACH 0).ldgAlarm 6 else s
  else s.setPwr { p with overRun := 0 }

/-- The check of H12 (R91, R475) on a measurement. -/
def State.floorCheck (s : State) (w : Nat) : State :=
  let p := s.itu.pwr
  let under := decide (w + s.quantum < s.itu.pins.ballast) && decide (100000 < s.itu.clk.ns - p.floorAt)
  if under then
    let s := s.setPwr { p with underRun := p.underRun + 1 }
    if p.underRun + 1 = 2 then ((s.ii I.ITU_CNT_FLOOR).wi I.ITU_FAULT_FLOOR_SHORT 1).ldgAlarm 3 else s
  else s.setPwr { p with underRun := 0 }

/-- Energies and times of a measurement over dt ns (R350). -/
def State.energy (s : State) (w dt : Nat) (press pin : Bool) : State :=
  let p := s.itu.pwr
  let pinNs := p.pinNs + if pin then dt else 0
  let pressNs := p.pressNs + if press then dt else 0
  let s := (s.ii I.LDG_CNT_PIN_US (pinNs / 1000)).ii I.LDG_CNT_PRESS_US (pressNs / 1000)
  s.setPwr { p with eTotal := (p.eTotal + w * dt) % 2 ^ 64,
                    ePin := (p.ePin + if pin then w * dt else 0) % 2 ^ 64,
                    eBal := (p.eBal + if pin then (w - s.itu.caps.idleW) * dt else 0) % 2 ^ 64,
                    pinNs := pinNs % 1000, pressNs := pressNs % 1000,
                    perPin := satN 32 (p.perPin + pinNs / 1000), perPress := satN 32 (p.perPress + pressNs / 1000) }

/-- A measurement counted toward the next enactment and report (R339, R354). -/
def State.countMeas (s : State) (w : Nat) (press pin : Bool) : State :=
  let p := s.itu.pwr
  s.setPwr { p with np := satN 16 (p.np + b2n press), nn := satN 16 (p.nn + b2n pin), lastPress := press,
                    nMeas := p.nMeas + 1, sumW := p.sumW + w, hi := max p.hi w, lo := min p.lo w }

/-- Timeliness (R91 H10): 64 timely measurements in a row end PWR_STALE. -/
def State.timely (s : State) (dt : Nat) : State :=
  let p := s.itu.pwr
  if p.stale then
    let n := if 9000 ≤ dt ∧ dt ≤ 11000 then p.timely + 1 else 0
    s.setPwr { p with timely := n, stale := decide (n < 64) }
  else s

/-- PWR_MEAS_PULSE (R339, R350, R475). -/
def execPwrMeasPulse (w temp : Nat) (s : State) : Out :=
  let w := w % 65536
  let dt := match s.itu.pwr.last with | some t => s.itu.clk.ns - t | none => 0
  let press := s.pressed w
  let pin := s.pinned w
  let s := (s.wi I.ITU_PWR_NOW_W w).wi I.ITU_PWR_NOW_TEMP temp
  let s := ((s.energy w (min dt 30000) press pin).countMeas w press pin).timely dt
  let s := s.setPwr { s.itu.pwr with last := some s.itu.clk.ns }
  .next (((s.ceilCheck w).floorCheck w).refreeze false)

/-- PWR_STALE_TIMEOUT (R91 H10): no measurement for 30 us. -/
def execPwrStaleTimeout (s : State) : Out :=
  let p := s.itu.pwr
  if p.stale = false ∧ 30000 ≤ s.itu.clk.ns - p.last.getD 0 then
    let s := ((s.ii I.ITU_CNT_PWR_STALE).wi I.ITU_FAULT_PWR_STALE 1).setPwr { p with stale := true, timely := 0 }
    .next ((s.ldgAlarm 4).refreeze false)
  else .next s

/-! ### Enactment -/

/-- L, the tokens and the test raise while an enactment is computed (R340). -/
structure Enact where
  lvl : Nat
  tr : Nat
  bu : Nat
  bd : Nat
  press : Bool := false
  pin : Bool := false

/-- The moves of an enactment in state LIVE (R340). -/
def State.enactMove (s : State) (breach : Bool) : Enact :=
  let q := s.quantum
  let a := s.ri I.LDG_CFG_ABOVE
  let cmax := s.ri I.LDG_CMAX
  let lmin := s.itu.caps.idleW - a * q
  let p := s.itu.pwr
  let lvl := s.ri I.LDG_LEVEL
  let tr := s.ri I.LDG_TOK_TR
  let ask := s.ri I.LDG_TOK_ASK_TR
  let bu := s.ri I.LDG_TOK_UP
  let bd := s.ri I.LDG_TOK_DN
  let up := min bu (s.ri I.LDG_CFG_RAMP_UP)
  let dn := min bd (s.ri I.LDG_CFG_RAMP_DN)
  let kUp := if tr < ask && !breach then min up (ask - tr) else 0
  let kDn := if ask < tr then min dn (tr - ask) else 0
  let up := up - kUp
  let dn := dn - kDn
  let press := decide (s.ri I.LDG_CFG2_PRESS_N ≤ p.np) && !breach
  let pin := decide (s.ri I.LDG_CFG2_PIN_N ≤ p.nn)
  let press' := if press && pin then p.lastPress else press
  let pin' := if press && pin then !p.lastPress else pin
  let mUp := if press' && decide (lvl + a * q < cmax) then min up ((cmax - lvl - a * q) / q) else 0
  let mDn := if !(press' && decide (lvl + a * q < cmax)) && pin' && decide (lmin < lvl) then min dn ((lvl - lmin) / q) else 0
  { lvl := lvl + mUp * q - mDn * q, tr := tr + kUp - kDn, bu := bu - kUp - mUp, bd := bd - kDn - mDn,
    press := press', pin := pin' }

/-- LDG_REPORT (R354), queued for VC 5 where the queue of 2 KiB has room (R183). -/
def State.ldgReport (s : State) (press pin : Bool) : State :=
  let p := s.itu.pwr
  let mean := if p.nMeas = 0 then 0 else p.sumW / p.nMeas
  let lo := if p.nMeas = 0 then 0 else p.lo
  let ws := [0x01 ||| 8 <<< 8 ||| p.reportSeq <<< 16, s.ri I.LDG_LEVEL ||| s.itu.pins.ceil <<< 16,
    s.itu.pins.ballast ||| mean <<< 16, p.hi ||| lo <<< 16,
    s.ri I.LDG_TOK_UP ||| s.ri I.LDG_TOK_DN <<< 8 ||| s.ri I.LDG_TOK_TR <<< 16 ||| s.ri I.LDG_TOK_ASK_TR <<< 24,
    s.ri I.LDG_STAT_STATE ||| s.ri I.LDG_STAT_FROZEN <<< 2 ||| s.ri I.LDG_STAT_BREACH <<< 9 ||| b2n press <<< 10 |||
      b2n pin <<< 11 ||| s.ri I.LDG_STAT_FRESH <<< 12 ||| s.ri I.LDG_STAT_CAPPED <<< 13 ||| p.forfeit <<< 14,
    s.mc32 .itu, s.quantum % 65536 ||| p.grantSeq <<< 16]
  let s := s.setPwr { p with nMeas := 0, sumW := 0, hi := 0, lo := 65535, forfeit := 0,
                             reportSeq := (p.reportSeq + 1) % 65536 }
  let t := s.itu.txq
  if 2048 < (t.ledger.flatten.length + 8) * 4 then s.ii I.ILNK_CNT_Q_REFUSED
  else { s with itu := { s.itu with txq := { t with ledger := t.ledger ++ [ws] } } }

/-- A skipped enactment (R340): outputs held, np and nn discarded. -/
def State.enactSkip (s : State) : State :=
  let s := s.ii I.LDG_CNT_FROZEN_MC
  (s.setPwr { s.itu.pwr with np := 0, nn := 0 }).ldgReport false false

/-- An enactment whose band may move (R340): registers, outputs and CAPPED. -/
def State.enactLive (s : State) : State :=
  let q := s.quantum
  let a := s.ri I.LDG_CFG_ABOVE
  let b := s.ri I.LDG_CFG_BELOW
  let p := s.itu.pwr
  let e : Enact := if p.seated then s.enactMove (s.ri I.LDG_STAT_BREACH == 1) else
    { lvl := s.itu.caps.idleW - a * q, tr := s.ri I.LDG_TOK_TR, bu := s.ri I.LDG_TOK_UP, bd := s.ri I.LDG_TOK_DN }
  let su := s.ri I.LDG_TOK_UP - e.bu
  let sd := s.ri I.LDG_TOK_DN - e.bd
  let ceil := satN 16 (min (s.ri I.LDG_CMAX) (e.lvl + a * q) + e.tr * q)
  let want := e.lvl - b * q
  let capped := decide (s.itu.caps.ballastW < want)
  let s := (((s.wi I.LDG_LEVEL e.lvl).wi I.LDG_TOK_TR e.tr).wi I.LDG_TOK_UP e.bu).wi I.LDG_TOK_DN e.bd
  let s := (s.ii I.LDG_CNT_UP su).ii I.LDG_CNT_DN sd
  let s := s.setPwr { p with seated := true, np := 0, nn := 0, perUp := satN 16 (p.perUp + su),
                             perDn := satN 16 (p.perDn + sd) }
  let s := (s.setOutputs ceil (min s.itu.caps.ballastW want)).ldgState
  let s := if capped && s.ri I.LDG_STAT_CAPPED == 0 then (s.wi I.LDG_STAT_CAPPED 1).ldgAlarm 5 else s
  s.ldgReport e.press e.pin

/-- LEDGER_ENACTMENT (R340): once per MC at LEDGER_SLOT, under R52. -/
def State.enact (s : State) : State :=
  let s := s.setPwr { s.itu.pwr with enactMc := some (s.mc .itu) }
  if s.ri I.LDG_STAT_FROZEN ≠ 0 ∨ s.ri I.LDG_STAT_FRESH = 1 then s.enactSkip else s.enactLive

/-! ### Grants -/

/-- A ledger message's KIND, WORDS and SEQ (R354). -/
def ldgKind (ws : List Nat) : Nat := bits (nth ws 0) 0 8
def ldgWords (ws : List Nat) : Nat := bits (nth ws 0) 8 8
def ldgSeq (ws : List Nat) : Nat := bits (nth ws 0) 16 16

/-- Tokens of a grant added to those held, up to BURST; the excess is discarded and the grant counted once
(R341). -/
def State.addTokens (s : State) (up dn : Nat) : State :=
  let u := s.ri I.LDG_TOK_UP + up
  let d := s.ri I.LDG_TOK_DN + dn
  let mu := s.ri I.LDG_CFG_BURST_UP
  let md := s.ri I.LDG_CFG_BURST_DN
  let s := (s.wi I.LDG_TOK_UP (min u mu)).wi I.LDG_TOK_DN (min d md)
  if mu < u ∨ md < d then s.ii I.LDG_CNT_GRANT_BAD else s

/-- An LDG_GRANT applied (R340, R341, R351). -/
def State.grant (s : State) (ws : List Nat) : State :=
  let w := nth ws 1
  let up := bits w 0 8
  let dn := bits w 8 8
  let s := s.wi I.LDG_SLOT (bits w 16 6)
  let s := s.setPwr { s.itu.pwr with hold := bits w 23 3, grantSeq := ldgSeq ws }
  let s := s.refreeze true
  if s.ri I.LDG_STAT_FROZEN ≠ 0 then s.forfeit (up + dn)
  else (s.wi I.LDG_STAT_FRESH 0).addTokens up dn

/-- A ledger message received by the ITU (R354): anything but a grant of four words is dropped and counted. -/
def State.ituLedgerRx (s : State) (ws : List Nat) : State :=
  if ldgKind ws = 2 ∧ ldgWords ws = 4 ∧ ws.length = 4 then s.grant ws else s.ii I.LDG_CNT_GRANT_BAD

/-- LDG_GRANT_RX (R341, R351, R354). -/
def execLdgGrantRx (ws : List Nat) (s : State) : Out := .next (s.ituLedgerRx ws)

/-- LDG_CTL.FREEZE (R351, cause CMD). -/
def State.setFreeze (s : State) (v : Nat) : State := (s.wi I.LDG_CTL_FREEZE v).refreeze false

/-- LDG_CTL_FREEZE (R351). -/
def execLdgCtlFreeze (iss : Issuer) (v : Bool) (s : State) : Out :=
  let g := s.ituGuard iss I.LDG_CTL_FREEZE.addr true 0
  if g.2 then .next (g.1.setFreeze (b2n v)) else .next g.1

/-- LDG_DIE_REPORT_EMIT (R355): every LDG_CFG2.REPORT_MC mains cycles. -/
def execLdgDieReportEmit (s : State) : Out :=
  let p := s.itu.pwr
  if s.ri I.LDG_CFG2_REPORT_MC ≤ p.perMc then
    let s := s.setPwr { p with perMc := 0, perPin := 0, perPress := 0, perUp := 0, perDn := 0 }
    .next (s.ituEmitDie 1 0x0C1 0 (s.now .itu)
      [p.eTotal % 2 ^ 32, p.eTotal / 2 ^ 32, p.eBal % 2 ^ 32, p.eBal / 2 ^ 32, p.perPin, p.perPress,
       p.perUp ||| p.perDn <<< 16, s.mc32 .itu])
  else .next s

end Sys2Proof.Machine
end

