-- ==== Sys2Proof/Machine/LedgerL.lean ====
section
/-! DEFINITION. The ledger's buckets in the Lamulo (R342 to R354). -/

namespace Sys2Proof.Machine

/-- The ledger runs in this Lamulo (R347): enabled, its domain on; the standby Crown keeps no buckets. -/
def State.ldgOn (s : State) : Bool := s.rl L.LDGF_CTL_ENABLE == 1 && s.pdOn 19 && !s.isStandby

/-- The ledger replaced. -/
def State.setLdg (s : State) (g : LdgF) : State := { s with lam := { s.lam with ldg := g } }

/-- What the Tray holds of port q. -/
def State.ldgPort (s : State) (q : Nat) : LdgPort := s.lam.ldg.ports.getD q {}

/-- The same, replaced. -/
def State.setLdgPort (s : State) (q : Nat) (p : LdgPort) : State :=
  s.setLdg { s.lam.ldg with ports := setNth {} s.lam.ldg.ports q p }

/-- The step quantum of the die on a port: the one it reports, or before a report that of the modelled die. -/
def State.portQuantum (s : State) (p : LdgPort) : Nat :=
  if p.rep = [] then s.quantum else bits (nth p.rep 7) 0 16

/-- Sums of the unconfirmed grants or fills, up and down. -/
def pendSum (l : List (Nat × Nat × Nat)) : Nat × Nat := l.foldl (fun a p => (a.1 + p.2.1, a.2 + p.2.2)) (0, 0)

/-- HELD of a port (R346): tokens held as reported, and grants not yet applied. -/
def State.portHeld (s : State) (p : LdgPort) : Nat × Nat :=
  let q := s.portQuantum p
  let d := pendSum p.pend
  (bits (nth p.rep 4) 0 8 * q + d.1, bits (nth p.rep 4) 8 8 * q + d.2)

/-- HELD of a child. -/
def LdgChild.held (c : LdgChild) : Nat × Nat := let d := pendSum c.pend; (nth c.sum 1 + d.1, nth c.sum 2 + d.2)

/-- HELD of the node (R346). -/
def State.ldgHeld (s : State) : Nat × Nat :=
  let l := if s.role = 0 then s.lam.ldg.ports.map s.portHeld else s.lam.ldg.kids.map LdgChild.held
  l.foldl (fun a h => (a.1 + h.1, a.2 + h.2)) (s.rl L.LDGF_LEVEL_UP, s.rl L.LDGF_LEVEL_DN)

/-- STATE of the last report. -/
def LdgPort.state (p : LdgPort) : Nat := bits (nth p.rep 5) 0 2

/-- A port whose die is LIVE and not frozen. -/
def LdgPort.live (p : LdgPort) : Bool := p.rep != [] && p.state == 1

/-- Sum of a quantity over a list. -/
def sumBy {α : Type} (f : α → Nat) (l : List α) : Nat := l.foldl (fun a x => a + f x) 0

/-- The sums that R347 and the registers report: W_env, L, floor, ceiling, mean, dies LIVE, dies frozen. -/
def State.ldgSums (s : State) : List Nat :=
  let g := s.lam.ldg
  if s.role = 0 then
    let seen := g.ports.filter fun p => p.rep != [] && p.state != 0
    [sumBy (fun p => (s.ri I.LDG_CFG_ABOVE + s.ri I.LDG_CFG_BELOW + 2) * s.portQuantum p)
        (g.ports.filter fun p => p.activeMc.isSome),
      sumBy (fun p => bits (nth p.rep 1) 0 16) seen, sumBy (fun p => bits (nth p.rep 2) 0 16) seen,
      sumBy (fun p => bits (nth p.rep 1) 16 16) seen, sumBy (fun p => bits (nth p.rep 2) 16 16) (seen.filter LdgPort.live),
      (seen.filter LdgPort.live).length, (seen.filter fun p => p.state == 2).length]
  else
    let f := fun i => sumBy (fun (c : LdgChild) => nth c.sum i) g.kids
    [f 8, f 5, f 6, f 7, s.rl L.LDGF_SUM_MEAN, f 9, f 10]

/-- The status registers of the ledger brought up to date. -/
def State.ldgRefresh (s : State) : State :=
  let v := nth s.ldgSums
  let h := s.ldgHeld
  let lost := s.lam.ldg.ports.any (·.lostMc.isSome) || s.lam.ldg.kids.any (·.lostMc.isSome)
  let s := (((s.wl L.LDGF_ENV (v 0)).wl L.LDGF_SUM_LEVEL (v 1)).wl L.LDGF_SUM_FLOOR (v 2)).wl L.LDGF_SUM_CEIL (v 3)
  let s := ((s.wl L.LDGF_SUM_MEAN (v 4)).wl L.LDGF_LIVE (v 5)).wl L.LDGF_FROZEN (v 6)
  ((s.wl L.LDGF_HELD_UP (satN 32 h.1)).wl L.LDGF_HELD_DN (satN 32 h.2)).wl L.LDGF_STAT_STRANDED (b2n lost)

/-! ### Buckets -/

/-- Credit added to the node's bucket, up to its burst; the excess is forfeited (R344). -/
def State.ldgAdd (s : State) (up dn : Nat) : State :=
  let one := fun (s : State) (lv bu : Fld) (n : Nat) =>
    let room := s.rl bu - s.rl lv
    (s.wl lv (s.rl lv + min n room)).il L.LDGF_CNT_FORFEIT_W (n - min n room)
  one (one s L.LDGF_LEVEL_UP L.LDGF_BURST_UP up) L.LDGF_LEVEL_DN L.LDGF_BURST_DN dn

/-- The child sent an LDG_SUM in the previous MC. -/
def LdgChild.reported (c : LdgChild) (mc : Nat) : Bool :=
  c.lostMc.isNone && (c.sumMc + 1 == mc || match c.prevMc with | some m => m + 1 == mc | none => false)

/-- Child ports of the node: Ethernet ports of ROLE 3. -/
def State.kidPorts (s : State) : List Nat := (List.range 24).filter fun p => s.rl L.ETH_PORT_CFG_ROLE p == 3

/-- A child's LDG_FILL sent (R344, R354). -/
def State.ldgFill (s : State) (c : LdgChild) (nUp nDn : Nat) : State :=
  let b := Config.childBucket (s.rl L.CFG_EPOCH) c.port
  let up := min (min (b 0) (b 2 - nth c.sum 12)) nUp
  let dn := min (min (b 1) (b 3 - nth c.sum 13)) nDn
  let seq := (c.seq + 1) % 65536
  let s := s.send (.down c.port) 5 (.ledger [3 ||| 4 <<< 8 ||| seq <<< 16, up % 2 ^ 32, dn % 2 ^ 32, s.mc32 .lam])
  let s := ((s.wl L.LDGF_LEVEL_UP (s.rl L.LDGF_LEVEL_UP - up)).wl L.LDGF_LEVEL_DN (s.rl L.LDGF_LEVEL_DN - dn)).il L.LDGF_CNT_FILL
  let g := s.lam.ldg
  s.setLdg { g with kids := g.kids.map fun k => if k.port == c.port then { k with seq := seq, pend := k.pend ++ [(seq, up, dn)] } else k }

/-- CREDIT_DIVIDE (R344, R345): fills to the children that reported, or at a Tray the shares of its dies. -/
def State.ldgDivide (s : State) : State :=
  let g := s.lam.ldg
  let s := s.setLdg { g with divMc := some (s.mc .lam) }
  if s.role = 0 then
    let n := (g.ports.filter LdgPort.live).length
    let sh := fun lv => if n = 0 then 0 else lv / n
    (s.setLdg { s.lam.ldg with shareUp := sh (s.rl L.LDGF_LEVEL_UP), shareDn := sh (s.rl L.LDGF_LEVEL_DN) }).ldgRefresh
  else
    let r := g.kids.filter fun c => c.reported (s.mc .lam)
    let n := r.length
    let s := if s.kidPorts.all (fun p => r.any fun c => c.port == p) then s else s.wl L.LDGF_STAT_SUM_LATE 1
    if n = 0 then s.ldgRefresh else
    let nUp := s.rl L.LDGF_LEVEL_UP / n
    let nDn := s.rl L.LDGF_LEVEL_DN / n
    (r.foldl (fun s c => s.ldgFill c nUp nDn) s).ldgRefresh

/-- CROWN_CREDIT_ADD (R343), one direction. A level above a burst that has been lowered gains nothing. -/
def State.crownAdd (s : State) (rate lv bu : Fld) (held : Nat) : State :=
  let r := s.rl rate
  let lim : Int := min (s.rl L.LDGF_TREE_CAP : Int) ((s.rl L.LDGF_SLEW_KW * 1000 : Nat) - (s.rl L.LDGF_ENV : Int) - r)
  let room : Int := max 0 (lim - held)
  let add := (min (min (r : Int) room) ((s.rl bu : Int) - s.rl lv)).toNat
  let s := s.wl lv (s.rl lv + add)
  if add < r then (s.wl L.LDGF_STAT_WITHHELD 1).il L.LDGF_CNT_WITHHELD_W (r - add) else s

/-- LDG_HALL (R355). -/
def State.ldgHall (s : State) : State :=
  (s.lamRec 1 0x0C2 s.nodeId (s.rl L.STAT_NODE_GEN) (s.now .lam)
    [s.rl L.LDGF_SUM_LEVEL, s.rl L.LDGF_SUM_FLOOR, s.rl L.LDGF_SUM_CEIL, s.rl L.LDGF_SUM_MEAN, s.rl L.LDGF_ENV, s.rl L.LDGF_HELD_UP,
     s.rl L.LDGF_HELD_DN, s.rl L.LDGF_FROZEN]).1

/-- LDG_SUM_TX (R347). -/
def State.ldgSumTx (s : State) : State :=
  let g := s.lam.ldg
  let v := nth s.ldgSums
  let h := s.ldgHeld
  let spent := fun i own => if s.role = 0 then own else sumBy (fun (c : LdgChild) => nth c.sum i) g.kids % 2 ^ 32
  let seq := (g.sumSeq + 1) % 65536
  let s := s.send .up 5 (.ledger [4 ||| 14 <<< 8 ||| seq <<< 16, satN 32 h.1, satN 32 h.2, spent 3 g.spentUp, spent 4 g.spentDn,
    v 1 % 2 ^ 32, v 2 % 2 ^ 32, v 3 % 2 ^ 32, v 0 % 2 ^ 32, v 5, v 6, g.fillSeq, s.rl L.LDGF_LEVEL_UP, s.rl L.LDGF_LEVEL_DN])
  s.setLdg { s.lam.ldg with sumSeq := seq }

/-- The ledger at the start of an MC (R343, R344, R347, R355). The mean draw of dies that are not this node's own is stated
by no message: a free value above the Tray (log entry 43). -/
def State.ldgMc (s : State) : State :=
  if !s.ldgOn then s else
  let s := if s.role = 0 then s else s.free.2.wl L.LDGF_SUM_MEAN (s.free.1 % 2 ^ 32)
  let s := s.ldgRefresh
  if s.isCrown then
    let h := s.ldgHeld
    let s := s.crownAdd L.LDGF_RATE_UP L.LDGF_LEVEL_UP L.LDGF_BURST_UP h.1
    let s := s.crownAdd L.LDGF_RATE_DN L.LDGF_LEVEL_DN L.LDGF_BURST_DN h.2
    s.ldgDivide.ldgHall
  else s.ldgSumTx

/-- A message dropped (R354). -/
def State.ldgBad (s : State) : State := s.il L.LDGF_CNT_MSG_BAD

/-- The message has KIND k and its words. -/
def ldgIs (ws : List Nat) (k n : Nat) : Bool := ldgKind ws == k && ldgWords ws == n && ws.length == n

/-- LDG_FILL received from the parent (R344). -/
def State.fillRx (s : State) (ws : List Nat) : State :=
  if !ldgIs ws 3 4 then s.ldgBad
  else if s.role = 3 ∨ !s.ldgOn then s
  else
    let s := s.ldgAdd (nth ws 1) (nth ws 2)
    let s := s.setLdg { s.lam.ldg with fillSeq := ldgSeq ws }
    if nth ws 3 = s.mc32 .lam ∧ s.lam.ldg.divMc ≠ some (s.mc .lam) then s.ldgDivide else s.ldgRefresh

/-- LDG_FILL_RX (R344, R354). -/
def execLdgFillRx (ws : List Nat) (s : State) : Out := .next (s.fillRx ws)

/-- FILL_WAIT_TIMEOUT (R344): 4 ms after the start of the MC with no fill. -/
def execFillWaitTimeout (s : State) : Out :=
  match s.lam.mains.cur with
  | some a =>
    if s.role ≠ 3 ∧ s.ldgOn ∧ s.lam.ldg.divMc ≠ some (s.mc .lam) ∧ a.startNs + 4000000 ≤ s.now .lam then .next s.ldgDivide
    else .next s
  | none => .next s

/-- LDG_SUM received from the child on an Ethernet port (R346). -/
def State.sumRx (s : State) (p : Nat) (ws : List Nat) : State :=
  if !ldgIs ws 4 14 then s.ldgBad
  else if s.role = 0 ∨ !s.ldgOn then s
  else
    let g := s.lam.ldg
    let c := (g.kids.find? fun c => c.port == p).getD { port := p }
    let done := nth ws 11 % 65536
    let c := { c with sum := ws, prevMc := if c.sum = [] then none else some c.sumMc, sumMc := s.mc .lam, lostMc := none,
                      pend := c.pend.filter fun x => decide (0 < sdiff16 x.1 done) }
    (s.setLdg { g with kids := g.kids.filter (fun k => k.port != p) ++ [c] }).ldgRefresh

/-- LDG_SUM_RX (R346, R354). -/
def execLdgSumRx (p : Nat) (ws : List Nat) (s : State) : Out := .next (s.sumRx p ws)

/-- STRAND_EXPIRY (R346): STRAND_MC cycles after the loss of a child: IKL port c at a Tray, else Ethernet port c. -/
def execStrandExpiry (c : Nat) (s : State) : Out :=
  let n := s.rl L.LDGF_DIE_STRAND_MC
  let due := fun (l : Option Nat) => match l with | some m => decide (m + n ≤ s.mc .lam) | none => false
  if s.role = 0 then
    let p := s.ldgPort c
    if due p.lostMc then
      .next (s.setLdgPort c { p with lostMc := none, pend := [], rep := if p.rep = [] then [] else setNth 0 p.rep 4 0 }).ldgRefresh
    else .next s
  else
    let g := s.lam.ldg
    let drop := fun (k : LdgChild) => { k with lostMc := none, pend := [], sum := setNth 0 (setNth 0 k.sum 1 0) 2 0 }
    let kids := g.kids.map fun k => if k.port == c && due k.lostMc then drop k else k
    .next (s.setLdg { g with kids := kids }).ldgRefresh

/-- A child on an Ethernet port is lost (R346). -/
def State.ldgChildLost (s : State) (p : Nat) : State :=
  let g := s.lam.ldg
  (s.setLdg { g with kids := g.kids.map fun k => if k.port == p then { k with lostMc := some (s.mc .lam) } else k }).ldgRefresh

/-! ### Reports of dies (R345, R347, R352) -/

/-- HOLD_WHY of a grant to port q (R346, R351, R353). -/
def State.holdWhy (s : State) (q : Nat) : Nat :=
  let p := s.ldgPort q
  let young := s.rl L.LNK_STAT_PORT q != 2 || match p.activeMc with
    | some m => decide (s.mc .lam < m + 4)
    | none => true
  b2n young ||| b2n (s.conservative .lam) <<< 1 ||| s.rl L.LDGF_CTL_FREEZE_ALL <<< 2

/-- Freeze causes that the bits of HOLD_WHY stand for (R351). -/
def whyCauses (w : Nat) : Nat := bits w 0 1 ||| bits w 1 1 <<< 4 ||| bits w 2 1 <<< 6

/-- The report's spending counted (R347): rises and falls of L and TR since the baseline. -/
def State.countSpent (s : State) (q : Nat) (p : LdgPort) (ws : List Nat) : State :=
  let lv := bits (nth ws 1) 0 16
  let tr := bits (nth ws 4) 16 8
  let qd := bits (nth ws 7) 0 16
  let base := if p.first ∨ (p.rep ≠ [] ∧ p.state = 0) then none else p.base
  let s := match base with
    | some (l0, t0) =>
      let g := s.lam.ldg
      s.setLdg { g with spentUp := (g.spentUp + (lv - l0) + (tr - t0) * qd) % 2 ^ 32,
                        spentDn := (g.spentDn + (l0 - lv) + (t0 - tr) * qd) % 2 ^ 32 }
    | none => s
  s.setLdgPort q { s.ldgPort q with base := some (lv, tr) }

/-- The grant that answers a report (R345, R352). -/
def State.answer (s : State) (q : Nat) (p : LdgPort) (ws : List Nat) (applied : Bool) : State :=
  let why := s.holdWhy q
  let frozen := bits (nth ws 5) 2 7
  let clears := whyCauses p.why &&& (whyCauses why ^^^ 0x7F)
  let ends := frozen &&& (clears ^^^ 0x7F) == 0
  let k := s.port q
  let give := applied && why == 0 && (frozen == 0 || ends) && k.frozen == [] && k.hung == []
  let qd := max 1 (bits (nth ws 7) 0 16)
  let g := s.lam.ldg
  let tok := fun (share rate lv held burst : Nat) =>
    if give then min (min (min (rate * qd) share) lv / qd) (burst - held) else 0
  let up := tok g.shareUp (s.rl L.LDGF_DIE_RATE_UP) (s.rl L.LDGF_LEVEL_UP) (bits (nth ws 4) 0 8) (s.ri I.LDG_CFG_BURST_UP)
  let dn := tok g.shareDn (s.rl L.LDGF_DIE_RATE_DN) (s.rl L.LDGF_LEVEL_DN) (bits (nth ws 4) 8 8) (s.ri I.LDG_CFG_BURST_DN)
  let seq := (p.seq + 1) % 65536
  let msg := [2 ||| 4 <<< 8 ||| seq <<< 16,
    up % 256 ||| dn % 256 <<< 8 ||| s.ledgerSlot q <<< 16 ||| b2n (why != 0) <<< 22 ||| why <<< 23, s.mc32 .lam, 0]
  let s := (s.wl L.LDGF_LEVEL_UP (s.rl L.LDGF_LEVEL_UP - up * qd)).wl L.LDGF_LEVEL_DN (s.rl L.LDGF_LEVEL_DN - dn * qd)
  let s := s.setLdgPort q { s.ldgPort q with seq := seq, why := why, pend := p.pend ++ [(seq, up * qd, dn * qd)] }
  let k := s.port q
  (s.setPort q { k with link := k.link.push 5 (wordsToBytes msg) }).il L.LDGF_CNT_GRANT

/-- LDG_REPORT received on IKL port q (R345 to R347, R352). -/
def State.reportRx (s : State) (q : Nat) (ws : List Nat) : State :=
  if !ldgIs ws 1 8 then s.ldgBad
  else if s.role ≠ 0 then s
  else
    let p := s.ldgPort q
    let qd := bits (nth ws 7) 0 16
    let done := bits (nth ws 7) 16 16
    let applied := p.first || p.pend = [] || done == p.seq
    let fz := bits (nth ws 5) 2 7
    let lv := bits (nth ws 1) 0 16
    let d := s.det q
    let s := s.setDet q { d with level := some lv, bandMc := if d.level.isSome ∧ d.level ≠ some lv then some (s.mc .lam) else d.bandMc,
                                 ballast := bits (nth ws 2) 0 16 }
    let s := ((s.wl L.LDGF_PORT_LEVEL lv q).wl L.LDGF_PORT_LIVE (b2n (bits (nth ws 5) 0 2 == 1)) q).wl L.LDGF_PORT_FROZEN
      (b2n (fz != 0)) q
    let s := ((s.wl L.LDGF_PORT_TOK_UP (bits (nth ws 4) 0 8) q).wl L.LDGF_PORT_TOK_DN (bits (nth ws 4) 8 8) q).wl L.LDGF_PORT_TOK_TR
      (bits (nth ws 4) 16 8) q
    let s := s.il L.LDGF_CNT_FORFEIT_W (bits (nth ws 5) 14 8 * qd)
    let s := s.countSpent q p ws
    let p := { s.ldgPort q with rep := ws, first := decide (p.first ∧ s.rl L.LNK_STAT_PORT q ≠ 2),
                                pend := p.pend.filter fun x => decide (0 < sdiff16 x.1 done) }
    let s := s.setLdgPort q p
    (if s.ldgOn then s.answer q p ws applied else s).ldgRefresh

/-- LDG_REPORT_RX (R345). -/
def execLdgReportRx (q : Nat) (ws : List Nat) (s : State) : Out := .next (s.reportRx (q % 16) ws)

end Sys2Proof.Machine
end

