-- ==== Sys2Proof/Machine/Vlz.lean ====
section
/-! DEFINITION. The VLZ format (R425 to R427): the compressor's choice of tokens and the decoder. -/

namespace Sys2Proof.Machine

/-- Hash of the 4-byte group g (R427). -/
def vlzHash (a b c d : Nat) : Nat := (ofLeBytes [a, b, c, d] * 0xB5D3A6E9) % 2 ^ 32 / 2 ^ 17

/-- Hash of the group at the head of the bytes left in a block, where at least four are left. -/
def headHash : List Nat → Option Nat
  | a :: b :: c :: d :: _ => some (vlzHash a b c d)
  | _ => none

/-- Length of the common beginning of two lists, at most n. -/
def commonLen : Nat → List Nat → List Nat → Nat
  | 0, _, _ => 0
  | n + 1, a :: l, b :: m => if a = b then commonLen n l m + 1 else 0
  | _ + 1, _, _ => 0

/-- Length of the match at offset d between the history (newest first) and the bytes left, at most 255; it may overlap. -/
def matchLen (past : List (Nat × Option Nat)) (rest : List Nat) (d : Nat) : Nat :=
  commonLen 255 (((past.take d).map (·.1)).reverse ++ rest) rest

/-- Offsets at which the group hash is h, nearest first, at most depth of them. -/
def hashOffsets (h : Nat) : Nat → List (Nat × Option Nat) → Nat → List Nat
  | _, [], _ => []
  | _, _, 0 => []
  | d, (_, g) :: l, n + 1 => if g = some h then d :: hashOffsets h (d + 1) l n else hashOffsets h (d + 1) l (n + 1)

/-- A match is usable (R427). -/
def usable (rep d len : Nat) : Bool :=
  (d == rep && decide (2 ≤ len)) || (decide (d ≤ 16) && decide (3 ≤ len) && decide (len ≤ 6)) || decide (4 ≤ len)

/-- The candidate taken at a position: the longest usable; on a tie the repeat offset, then the nearer. rep 0 is none. -/
def bestMatch (depth rep reach : Nat) (past : List (Nat × Option Nat)) (rest : List Nat) : Option (Nat × Nat) :=
  let cs := (if rep = 0 then [] else [rep]) ++
    (match headHash rest with
     | some h => hashOffsets h 1 (past.take (min reach 65536)) depth
     | none => [])
  (cs.map fun d => (d, matchLen past rest d)).foldl (fun (best : Option (Nat × Nat)) x =>
    if usable rep x.1 x.2 then
      match best with
      | none => some x
      | some b => if b.2 < x.2 then some x else best
    else best) none

/-- The token of pending literals (R426): none for no bytes. -/
def litToken (ls : List Nat) : List Nat :=
  let n := ls.length
  if n = 0 then [] else if n < 64 then (n - 1) :: ls else 63 :: leBytes 2 (n - 64) ++ ls

/-- The token of a match (R426, R427). -/
def matchToken (rep d len : Nat) : List Nat :=
  if d = rep then (if len < 64 then [0xC0 ||| (len - 1)] else [0xFF, len - 64])
  else if d ≤ 16 ∧ len ≤ 6 then [0x40 ||| (d - 1) <<< 2 ||| (len - 3)]
  else (if len < 67 then [0x80 ||| (len - 4)] else [0xBF, len - 67]) ++ leBytes 2 (d - 1)

/-- The history after n bytes of a block are passed. -/
def pass (past : List (Nat × Option Nat)) : Nat → List Nat → List (Nat × Option Nat) × List Nat
  | 0, l => (past, l)
  | _, [] => (past, [])
  | n + 1, b :: l => pass ((b, headHash (b :: l)) :: past) n l

/-- The tokens of a block, position by position: fuel, repeat offset, reach, history, bytes left, literals pending (newest
first). Answers the payload and the history. -/
def encodeBlock (depth : Nat) : Nat → Nat → Nat → List (Nat × Option Nat) → List Nat → List Nat → List Nat × List (Nat × Option Nat)
  | _, _, _, past, [], lits => (litToken lits.reverse, past)
  | 0, _, _, past, _, lits => (litToken lits.reverse, past)
  | n + 1, rep, reach, past, b :: rest, lits =>
    match bestMatch depth rep reach past (b :: rest) with
    | some (d, len) =>
      let q := pass past len (b :: rest)
      let r := encodeBlock depth n d (reach + len) q.1 q.2 []
      (litToken lits.reverse ++ matchToken rep d len ++ r.1, r.2)
    | none => encodeBlock depth n rep (reach + 1) ((b, headHash (b :: rest)) :: past) rest (b :: lits)

/-- Search depth of a level (R427). -/
def levelDepth (l : Nat) : Nat := 2 ^ (l - 1)

/-- The bytes of a block header (R425). -/
def blockHeader (rawLen payLen : Nat) (stored last reset : Bool) (check : Nat) : List Nat :=
  wordsToBytes [(rawLen - 1) % 65536 ||| b2n stored <<< 16 ||| b2n last <<< 17 ||| b2n reset <<< 18, payLen % 2 ^ 17, check]

/-- A block of input compressed (R425, R427): its bytes, and the stream's history after it. -/
def encodeVlz (level : Nat) (past : List (Nat × Option Nat)) (input : List Nat) (first last : Bool) :
    List Nat × List (Nat × Option Nat) :=
  let p := if first then [] else past
  let r := encodeBlock (levelDepth level) input.length 0 p.length p input []
  let stored := decide (input.length ≤ r.1.length)
  let pay := if stored then input else r.1
  (blockHeader input.length pay.length stored last first (crcOf 0 input) ++ pay, r.2.take 65536)

/-! ### The decoder (R426) -/

/-- Descriptor statuses (R430). -/
def Vlz.ok : Nat := 0
def Vlz.badDesc : Nat := 1
def Vlz.badHeader : Nat := 2
def Vlz.badToken : Nat := 3
def Vlz.badOffset : Nat := 4
def Vlz.badLength : Nat := 5
def Vlz.badCrc : Nat := 6
def Vlz.outLimit : Nat := 7
def Vlz.ratio : Nat := 8
def Vlz.truncated : Nat := 9
def Vlz.poison : Nat := 10
def Vlz.memError : Nat := 11
def Vlz.aborted : Nat := 12

/-- A decoder in a block: output of the block newest first, history before it newest first, repeat offset. -/
structure Dec where
  out : List Nat := []
  past : List Nat
  rep : Nat := 0

/-- Output room: bytes the block may still give before RAW_LEN + 1, the output limit, and the ratio limit. -/
structure Room where
  raw : Nat
  lim : Nat
  rat : Nat

/-- One byte put out, or the status of the limit it would pass (R426, R430). -/
def Dec.put (d : Dec) (rm : Room) (b : Nat) : Dec × Option Nat :=
  let n := d.out.length
  if rm.raw ≤ n then (d, some Vlz.badLength)
  else if rm.lim ≤ n then (d, some Vlz.outLimit)
  else if rm.rat ≤ n then (d, some Vlz.ratio)
  else ({ d with out := b :: d.out }, none)

/-- Bytes put out in turn. -/
def Dec.puts (rm : Room) : List Nat → Dec → Dec × Option Nat
  | [], d => (d, none)
  | b :: l, d =>
    match d.put rm b with
    | (d, none) => Dec.puts rm l d
    | r => r

/-- The byte k back in the output. -/
def Dec.back (d : Dec) (k : Nat) : Nat :=
  if k ≤ d.out.length then nth d.out (k - 1) else nth d.past (k - d.out.length - 1)

/-- A match copied byte by byte. -/
def Dec.copy (rm : Room) (off : Nat) : Nat → Dec → Dec × Option Nat
  | 0, d => (d, none)
  | n + 1, d =>
    match d.put rm (d.back off) with
    | (d, none) => Dec.copy rm off n d
    | r => r

/-- A match: its offset must lie within reach; it becomes the repeat offset. -/
def Dec.match' (d : Dec) (rm : Room) (off len : Nat) : Dec × Option Nat :=
  if min 65536 (d.out.length + d.past.length) < off then (d, some Vlz.badOffset)
  else
    let r := d.copy rm off len
    ({ r.1 with rep := off }, r.2)

/-- The tokens of a payload decoded (R426): fuel, payload left. -/
def decodeTokens (rm : Room) : Nat → List Nat → Dec → Dec × Option Nat
  | _, [], d => (d, none)
  | 0, _, d => (d, none)
  | n + 1, c :: l, d =>
    let k := c / 64 % 4
    let f := c % 64
    let go := fun (r : Dec × Option Nat) (rest : List Nat) =>
      match r with
      | (d, none) => decodeTokens rm n rest d
      | r => r
    if k = 0 then
      match f, l with
      | 63, a :: b :: l' =>
        let m := 64 + a + 256 * b
        if l'.length < m then
          match d.puts rm l' with
          | (d, none) => (d, some Vlz.badToken)
          | r => r
        else go (d.puts rm (l'.take m)) (l'.drop m)
      | 63, _ => (d, some Vlz.badToken)
      | f, l =>
        if l.length < f + 1 then
          match d.puts rm l with
          | (d, none) => (d, some Vlz.badToken)
          | r => r
        else go (d.puts rm (l.take (f + 1))) (l.drop (f + 1))
    else if k = 1 then go (d.match' rm (f / 4 + 1) (f % 4 + 3)) l
    else if k = 2 then
      match f, l with
      | 63, e :: a :: b :: l' => if 188 < e then (d, some Vlz.badToken) else go (d.match' rm (a + 256 * b + 1) (67 + e)) l'
      | 63, _ => (d, some Vlz.badToken)
      | f, a :: b :: l' => go (d.match' rm (a + 256 * b + 1) (f + 4)) l'
      | _, _ => (d, some Vlz.badToken)
    else if d.rep = 0 then (d, some Vlz.badToken)
    else
      match f, l with
      | 63, e :: l' => if 191 < e then (d, some Vlz.badToken) else go (d.match' rm d.rep (64 + e)) l'
      | 63, [] => (d, some Vlz.badToken)
      | f, l => go (d.match' rm d.rep (f + 1)) l

end Sys2Proof.Machine
end

