-- ==== Sys2Proof/Machine/Compress.lean ====
section
/-! DEFINITION. The compression engine and its two rings (R428 to R430, R444). -/

namespace Sys2Proof.Machine

/-- An MSI-X vector is raised (R465): pending where its table entry is masked, else sent. -/
def State.raiseVec (s : State) (v : Nat) : State :=
  let v := v % 64
  if bitAt (s.rl L.MSI_X_table (4 * v + 3)) 0 then
    s.wl L.MSI_X_pending_bits (s.rl L.MSI_X_pending_bits (v / 32) ||| 1 <<< (v % 32)) (v / 32)
  else { s with lam := { s.lam with brd := { s.lam.brd with msi := some v } } }

/-- Ring r of the compression engine. -/
def State.cring (s : State) (r : Nat) : CmpRing := s.lam.cmp.getD r {}

/-- The same, replaced. -/
def State.setCring (s : State) (r : Nat) (v : CmpRing) : State :=
  { s with lam := { s.lam with cmp := setNth {} s.lam.cmp r v } }

/-- CMP_RING_STAT and CMP_STAT.RUNNING as the rings stand. -/
def State.cmpShow (s : State) : State :=
  let s := (List.range 2).foldl (fun s r =>
    (s.wl L.CMP_RING_STAT_BUSY (b2n (s.cring r).run.isSome) r).wl L.CMP_RING_STAT_HELD
      (b2n ((s.cring r).run.isNone && (s.cring r).block != [])) r) s
  s.wl L.CMP_STAT_RUNNING (b2n ((s.cring 0).run.isSome || (s.cring 1).run.isSome))

/-- The stream of a ring discarded. -/
def CmpRing.discard (c : CmpRing) : CmpRing := { inRem := c.inRem, outRem := c.outRem, run := c.run }

/-- Address of the descriptor at a ring's head (R429). -/
def State.descAddr (s : State) (r : Nat) : Nat :=
  s.rl L.CMP_RING_BASE_LO r + 2 ^ 32 * s.rl L.CMP_RING_BASE_HI r + 64 * s.rl L.CMP_RING_HEAD r

/-- A descriptor ends (R429): write-back with DONE, the head moves, counters and interrupt. A stream that did not end OK or
TRUNCATED is discarded (R429, R430). -/
def State.endDesc (s : State) (r : Nat) (run : CmpRun) (status : Nat) : State :=
  let a := s.descAddr r
  let s := s.ddrPut (a + 52) (wordsToBytes [run.pos, run.outPos, run.blocks])
  let s := s.ddrPut (a + 48) (wordsToBytes [status ||| 1 <<< 8])
  let c := s.cring r
  let c := if status = Vlz.ok ∨ status = Vlz.truncated then c else c.discard
  let i := c.inRem + run.pos
  let o := c.outRem + run.outPos
  let s := s.setCring r { c with run := none, inRem := i % 1024, outRem := o % 1024 }
  let s := (s.il L.CMP_CNT_IN_KIB (i / 1024)).il L.CMP_CNT_OUT_KIB (o / 1024)
  let s := (s.il L.CMP_CNT_DESC).wl L.CMP_RING_STAT_LAST status r
  let s := if status = Vlz.ok then s else (s.il L.CMP_CNT_ERR).wl L.CMP_STAT_ERROR 1
  let s := s.wl L.CMP_RING_HEAD ((s.rl L.CMP_RING_HEAD r + 1) % s.rl L.CMP_RING_SLOTS r) r
  let s := if bitAt (nth run.words 0) 9 then s.raiseVec (s.rl L.CMP_RING_VEC r) else s
  s.cmpShow

/-- SRC, SRC_LEN, DST, and the first limit of R430. -/
def CmpRun.src (d : CmpRun) : Nat := nth d.words 2 + 2 ^ 32 * nth d.words 3
def CmpRun.srcLen (d : CmpRun) : Nat := nth d.words 4
def CmpRun.dst (d : CmpRun) : Nat := nth d.words 6 + 2 ^ 32 * nth d.words 7
def State.outLimit (s : State) (r : Nat) (d : CmpRun) : Nat := min (nth d.words 8) (s.rl L.CMP_OUT_LIMIT r)

/-- A DDR range can be accessed (R459). -/
def State.ddrRange (s : State) (a n : Nat) : Bool := s.ddrOk && decide (a + n ≤ s.ddrSize)

/-- The engine serves ring r: enabled, powered, memory usable. -/
def State.cmpServes (s : State) (r : Nat) : Bool := decide (r < 2) && s.rl L.CMP_CTL_ENABLE == 1 && s.pdOn 17 && s.ddrOk

/-- The running descriptor of ring r, or the next one taken with its OP. -/
def State.takeDesc (s : State) (r : Nat) : Option CmpRun :=
  match (s.cring r).run with
  | some d => some d
  | none =>
    if s.rl L.CMP_RING_HEAD r = s.rl L.CMP_RING_TAIL r then none
    else some { words := s.ddrWords (s.descAddr r) 12 }

/-- OP, LEVEL, CONT, FLUSH, END of a descriptor. -/
def CmpRun.op (d : CmpRun) : Nat := bits (nth d.words 0) 0 2
def CmpRun.level (d : CmpRun) : Nat := bits (nth d.words 0) 2 4
def CmpRun.cont (d : CmpRun) : Bool := bitAt (nth d.words 0) 6
def CmpRun.flush (d : CmpRun) : Bool := bitAt (nth d.words 0) 7
def CmpRun.fin (d : CmpRun) : Bool := bitAt (nth d.words 0) 8

/-- A descriptor that cannot run (R429). -/
def State.badDesc (s : State) (r : Nat) (d : CmpRun) : Bool :=
  let c := s.cring r
  decide (2 ≤ d.op) || (d.op == 0 && (d.level == 0 || decide (9 < d.level))) || d.srcLen == 0 ||
    (c.block != [] && (!d.cont || d.op != 0))

/-- A stream begins unless CONT carries one on. -/
def CmpRing.start (c : CmpRing) (d : CmpRun) : CmpRing :=
  if d.cont ∧ c.opened then c else { c.discard with opened := true }

/-- Output of the compressor written within the limit: what fits, and whether all of it did. -/
def State.cmpPut (s : State) (r : Nat) (d : CmpRun) (bs : List Nat) : State × CmpRun × Bool :=
  let room := s.outLimit r d - d.outPos
  let ws := bs.take room
  (s.ddrPut (d.dst + d.outPos) ws, { d with outPos := d.outPos + ws.length }, decide (bs.length ≤ room))

/-- The open block ends (R428): its bytes are written. -/
def State.closeBlock (s : State) (r : Nat) (d : CmpRun) (last : Bool) : State × CmpRun × Bool :=
  let c := s.cring r
  let e := encodeVlz d.level c.hist c.block c.first last
  let o := s.cmpPut r d e.1
  (o.1.setCring r { o.1.cring r with block := [], hist := e.2, first := false, opened := !last },
   { o.2.1 with blocks := o.2.1.blocks + 1 }, o.2.2)

/-- Input bytes are laid into blocks of 65,536 (R428): fuel, bytes. -/
def State.feed (r : Nat) : Nat → List Nat → State → CmpRun → State × CmpRun × Bool
  | 0, _, s, d => (s, d, true)
  | n + 1, bs, s, d =>
    let c := s.cring r
    let room := 65536 - c.block.length
    let s := s.setCring r { c with block := c.block ++ bs.take room }
    let d := { d with pos := d.pos + min room bs.length }
    if room ≤ bs.length ∧ (d.pos < d.srcLen ∨ (!d.flush ∧ !d.fin)) then
      let o := s.closeBlock r d false
      if o.2.2 then State.feed r n (bs.drop room) o.1 o.2.1 else o
    else (s, d, true)

/-- Bytes before the first poisoned line of n bytes from a. -/
def State.cleanBytes (s : State) (a n : Nat) : Nat :=
  s.lam.poison.foldl (fun m l => if a < 64 * l + 64 ∧ 64 * l < a + m then 64 * l - a else m) n

/-- COMPRESS_DESCRIPTOR (R427 to R430): the engine takes the next descriptor of ring r, or goes on with the running one, over
n input bytes. -/
def execCompressDescriptor (r n : Nat) (s : State) : Out :=
  if !s.cmpServes r then .next s else
  match s.takeDesc r with
  | none => .next s
  | some d =>
    if (s.cring r).run.isNone ∧ s.badDesc r d then .next ((s.setCring r (s.cring r).discard).endDesc r d Vlz.badDesc)
    else if d.op ≠ 0 then .next s
    else
      let s := if (s.cring r).run.isNone then s.setCring r ((s.cring r).start d) else s
      let n := min n (d.srcLen - d.pos)
      if !s.ddrRange d.src d.srcLen || !s.ddrRange d.dst 1 then .next (s.endDesc r d Vlz.memError) else
      let good := s.cleanBytes (d.src + d.pos) n
      let f := State.feed r (n / 65536 + 2) (s.ddrBytes (d.src + d.pos) good) s d
      let s := f.1
      let d := f.2.1
      if !f.2.2 then .next (s.endDesc r d Vlz.outLimit)
      else if good < n then .next (s.endDesc r d Vlz.poison)
      else if d.pos < d.srcLen then .next (s.setCring r { s.cring r with run := some d }).cmpShow
      else if (d.flush ∨ d.fin) ∧ (s.cring r).block ≠ [] then
        let o := s.closeBlock r d d.fin
        .next (o.1.endDesc r o.2.1 (if o.2.2 then Vlz.ok else Vlz.outLimit))
      else .next (s.endDesc r d Vlz.ok)

/-! ### Decompression -/

/-- A block header is well formed (R425): RAW_LEN + 1, PAY_LEN, STORED, LAST, RESET, CHECK. -/
def headerOk (w0 w1 : Nat) : Bool :=
  let raw := bits w0 0 16 + 1
  let pay := bits w1 0 17
  bits w0 19 13 == 0 && bits w1 17 15 == 0 &&
    (if bitAt w0 16 then pay == raw else decide (1 ≤ pay) && decide (pay ≤ 65536))

/-- One block decoded at the descriptor's position (R426, R430): state, run, status and LAST. -/
def State.decBlock (s : State) (r : Nat) (d : CmpRun) : State × CmpRun × Nat × Bool :=
  let left := d.srcLen - d.pos
  let a := d.src + d.pos
  if left < 12 then (s, d, Vlz.truncated, false)
  else if s.poisoned a 12 then (s, d, Vlz.poison, false)
  else
    let w := nth (s.ddrWords a 3)
    let pay := bits (w 1) 0 17
    if !headerOk (w 0) (w 1) then (s, d, Vlz.badHeader, false)
    else if left < 12 + pay then (s, d, Vlz.truncated, false)
    else if s.poisoned (a + 12) pay then (s, d, Vlz.poison, false)
    else
      let c := s.cring r
      let c := { c with inTotal := c.inTotal + 12 + pay }
      let raw := bits (w 0) 0 16 + 1
      let rm : Room := { raw := raw, lim := s.outLimit r d - d.outPos, rat := 255 * c.inTotal - c.outTotal }
      let bs := s.ddrBytes (a + 12) pay
      let d0 : Dec := { past := if bitAt (w 0) 18 then [] else c.hist.map (·.1) }
      let x := if bitAt (w 0) 16 then d0.puts rm bs else decodeTokens rm pay bs d0
      let out := x.1.out
      let s := s.ddrPut (d.dst + d.outPos) out.reverse
      let st := match x.2 with
        | some e => e
        | none => if out.length < raw then Vlz.badLength
            else if crcOf 0 out.reverse ≠ w 2 then Vlz.badCrc else Vlz.ok
      let last := bitAt (w 0) 17
      (s.setCring r { c with hist := ((out ++ c.hist.map (·.1)).take 65536).map fun b => (b, none), first := false,
                             outTotal := c.outTotal + out.length, opened := !last },
       { d with pos := d.pos + 12 + pay, outPos := d.outPos + out.length, blocks := d.blocks + b2n (st == Vlz.ok) }, st, last)

/-- Blocks decoded one after another, n at most. Answers the run, its status once it ends. -/
def State.decBlocks (r : Nat) : Nat → State → CmpRun → State × CmpRun × Option Nat
  | 0, s, d => (s, d, none)
  | n + 1, s, d =>
    let b := s.decBlock r d
    if b.2.2.1 ≠ Vlz.ok then (b.1, b.2.1, some b.2.2.1)
    else if b.2.2.2 ∨ b.2.1.srcLen ≤ b.2.1.pos then (b.1, b.2.1, some Vlz.ok)
    else State.decBlocks r n b.1 b.2.1

/-- DECOMPRESS_DESCRIPTOR (R426, R429, R430): the engine takes the next descriptor of ring r, or goes on with the running one,
over n blocks. -/
def execDecompressDescriptor (r n : Nat) (s : State) : Out :=
  if !s.cmpServes r then .next s else
  match s.takeDesc r with
  | none => .next s
  | some d =>
    if (s.cring r).run.isNone ∧ s.badDesc r d then .next ((s.setCring r (s.cring r).discard).endDesc r d Vlz.badDesc)
    else if d.op ≠ 1 then .next s
    else
      let s := if (s.cring r).run.isNone then s.setCring r ((s.cring r).start d) else s
      if !s.ddrRange d.src d.srcLen || !s.ddrRange d.dst 1 then .next (s.endDesc r d Vlz.memError) else
      let x := State.decBlocks r n s d
      match x.2.2 with
      | some st => .next (x.1.endDesc r x.2.1 st)
      | none => .next (x.1.setCring r { x.1.cring r with run := some x.2.1 }).cmpShow

/-- CMP_RING.FLUSH written (R428): the block of a running compress descriptor ends at the input consumed. -/
def State.ringFlush (s : State) (r : Nat) : State :=
  match (s.cring r).run with
  | some d =>
    if d.op = 0 ∧ (s.cring r).block ≠ [] then
      let o := s.closeBlock r d false
      if o.2.2 then (o.1.setCring r { o.1.cring r with run := some o.2.1 }).cmpShow else o.1.endDesc r o.2.1 Vlz.outLimit
    else s
  | none => s

/-- CMP_RING_FLUSH (R428). -/
def execCmpRingFlush (iss : Issuer) (r : Nat) (s : State) : Out :=
  let g := s.lamGuard iss (L.CMP_RING_FLUSH.addr + 0x40 * r) true 0
  if g.2 && decide (r < 2) then .next (g.1.ringFlush r) else .next g.1

/-- The running descriptor of ring r ends ABORTED (R430). -/
def State.ringAbort (s : State) (r : Nat) : State :=
  match (s.cring r).run with
  | some d => s.endDesc r d Vlz.aborted
  | none => s

/-- CMP_RING_ABORT (R429). -/
def execCmpRingAbort (iss : Issuer) (r : Nat) (s : State) : Out :=
  let g := s.lamGuard iss (L.CMP_RING_ABORT.addr + 0x40 * r) true 0
  if g.2 && decide (r < 2) then .next (g.1.ringAbort r) else .next g.1

/-- CMP_CTL.ENABLE written (R444). -/
def State.setCmpEnable (s : State) (v : Bool) : State :=
  let s := s.wl L.CMP_CTL_ENABLE (b2n v)
  if v then s else (s.ringAbort 0).ringAbort 1

/-- CMP_CTL_ENABLE_WRITE (R444). -/
def execCmpCtlEnableWrite (iss : Issuer) (v : Bool) (s : State) : Out :=
  let g := s.lamGuard iss L.CMP_CTL_ENABLE.addr true 0
  if g.2 then .next (g.1.setCmpEnable v) else .next g.1

end Sys2Proof.Machine
end

