-- ==== Sys2Proof/Machine/Recorder.lean ====
section
/-! DEFINITION. The flight recorder (R431 to R443): records and the buffer, units and flushes, freeze, the NOR region with its
erase journal, the boot scan, and the recorder's commands. -/

namespace Sys2Proof.Machine

/-- The recorder replaced. -/
def State.setRcd (s : State) (r : Rcd) : State := { s with lam := { s.lam with rcd := r } }

/-- REC_STAT.STATE. -/
def State.recState (s : State) : Nat := s.rl L.REC_STAT_STATE

/-! ### NOR -/

/-- n bytes of the recorder region from an offset. -/
def State.norRead (s : State) (off n : Nat) : List Nat := s.lam.brd.nor.read norDefault (s.rl L.REC_NOR_BASE + off) n

/-- n words of the recorder region. -/
def State.norWords (s : State) (off n : Nat) : List Nat := bytesToWords (s.norRead off (4 * n))

/-- NOR replaced. -/
def State.setNor (s : State) (m : Memory) : State := { s with lam := { s.lam with brd := { s.lam.brd with nor := m } } }

/-- Bytes programmed at an offset of the region: programming only clears bits (R440). -/
def State.norProg (s : State) (off : Nat) (bs : List Nat) : State :=
  let old := s.norRead off bs.length
  s.setNor (s.lam.brd.nor.write norDefault (s.rl L.REC_NOR_BASE + off) ((old.zip bs).map fun x => x.1 &&& x.2))

/-- A sector of the region erased. -/
def State.norErase (s : State) (sec : Nat) : State :=
  let a := s.rl L.REC_NOR_BASE + 65536 * sec
  s.setNor (s.lam.brd.nor.filter fun c => decide (c.1 < a) || decide (a + 65536 ≤ c.1))

/-- Sectors of the region. -/
def State.recSectors (s : State) : Nat := s.rl L.REC_NOR_SECTORS

/-! ### Journal (R440) -/

/-- JSEQ of a journal sector whose header is valid. -/
def State.journal (s : State) (sec : Nat) : Option Nat :=
  let w := s.norWords (65536 * sec) 4
  if nth w 0 = 0x4E524A56 ∧ nth w 3 = crcOf 0 (wordsToBytes (w.take 3)) then some (nth w 1) else none

/-- Entries of a journal sector. -/
def journalSlots : Nat := 4092

/-- A journal entry: OP, sector, LOG_ID, NEXT_SEQ. -/
structure JEntry where
  op : Nat
  sector : Nat
  logId : Nat
  seq : Nat
deriving DecidableEq, Repr

/-- The valid entries of a journal sector from slot i on, n slots; free space and damaged entries are passed over. -/
def State.journalEntries (s : State) (sec : Nat) : Nat → Nat → List JEntry
  | 0, _ => []
  | n + 1, i =>
    let w := s.norWords (65536 * sec + 64 + 16 * i) 4
    let r := State.journalEntries s sec n (i + 1)
    if nth w 3 = crcOf 0 (wordsToBytes (w.take 3)) then
      ⟨bits (nth w 0) 0 8, bits (nth w 0) 16 16, bits (nth w 1) 0 16, nth w 2 + 2 ^ 32 * bits (nth w 1) 16 8⟩ :: r
    else r

/-- First slot of a journal sector with nothing but free space from it on. -/
def State.journalFree (s : State) (sec : Nat) : Nat → Nat
  | 0 => 0
  | n + 1 => if (s.norWords (65536 * sec + 64 + 16 * n) 4).all (· == 0xFFFFFFFF) then State.journalFree s sec n else n + 1

/-- Next SEQ of the recorder. -/
def State.recSeq (s : State) : Nat := s.rl L.REC_NEXT_SEQ_LO + 2 ^ 32 * s.rl L.REC_NEXT_SEQ_HI

/-- An entry appended to the active journal, where it has room. -/
def State.journalAdd (s : State) (op sec logId seq : Nat) : State :=
  let r := s.lam.rcd
  if s.rl L.REC_JSEQ = 0 ∨ journalSlots ≤ r.jNext then s else
  let w := [op ||| sec <<< 16, logId % 65536 ||| (seq / 2 ^ 32) % 256 <<< 16, seq % 2 ^ 32]
  (s.norProg (65536 * r.jSector + 64 + 16 * r.jNext) (wordsToBytes (w ++ [crcOf 0 (wordsToBytes w)]))).setRcd
    { r with jNext := r.jNext + 1 }

/-! ### Log sectors (R440) -/

/-- States of a log sector header. -/
def secFresh : Nat := 0xFFFFFFA5
def secInUse : Nat := 0xFFFFA5A5
def secFull : Nat := 0xFFA5A5A5

/-- Header of a log sector if it is valid: LOG_ID, ERASES, STATE. -/
def State.logHeader (s : State) (sec : Nat) : Option (Nat × Nat × Nat) :=
  let w := s.norWords (65536 * sec) 8
  let n := nth w
  if n 0 = 0x43455256 ∧ n 1 % 65536 = 1 ∧ n 2 = sec ∧ n 6 = crcOf 0 (wordsToBytes (w.take 6)) ∧
      (n 7 = secFresh ∨ n 7 = secInUse ∨ n 7 = secFull) then some (n 1 / 65536, n 3, n 7) else none

/-- STATE of a log sector's header programmed. -/
def State.setSecState (s : State) (sec v : Nat) : State := s.norProg (65536 * sec + 28) (leBytes 4 v)

/-- Erase count that a sector's next header carries. -/
def State.nextErases (s : State) (sec : Nat) : Nat := ((s.logHeader sec).map fun h => h.2.1 + 1).getD 1

/-- The first FRESH sector above a sector that may be used. -/
def State.nextFresh (s : State) (sec : Nat) : Option Nat :=
  ((List.range s.recSectors).drop (sec + 1)).find? fun t =>
    !s.lam.rcd.skip.contains t && (match s.logHeader t with | some h => h.2.2 == secFresh | none => false)

/-! ### Records and the buffer (R431 to R434) -/

/-- Bytes of a recorder record (R431). -/
def recordBytes (o : RecOffer) (seq : Nat) : List Nat :=
  let pay := o.payload ++ List.replicate ((4 - o.payload.length % 4) % 4) 0
  let len := 12 + pay.length
  let b := leBytes 4 (len ||| b2n o.flush.isSome <<< 13 ||| b2n o.trunc <<< 14 ||| o.kind <<< 16 ||| (seq / 2 ^ 32) % 256 <<< 24) ++
    leBytes 4 (seq % 2 ^ 32) ++ pay
  b ++ leBytes 4 (crcOf 0 b)

/-- Bytes in the buffer. -/
def Rcd.level (r : Rcd) : Nat := (r.buf.map List.length).sum

/-- The registers that show the recorder. -/
def State.recShow (s : State) : State :=
  let r := s.lam.rcd
  ((s.wl L.REC_BUF_LEVEL r.level).wl L.REC_WPTR (65536 * r.sector + r.wptr)).wl L.REC_STAT_FLUSHING (b2n r.unit.isSome)

/-- The next SEQ set. -/
def State.setRecSeq (s : State) (n : Nat) : State :=
  (s.wl L.REC_NEXT_SEQ_LO (n % 2 ^ 32)).wl L.REC_NEXT_SEQ_HI (n / 2 ^ 32 % 256)

/-- A record numbered and put at the end of the buffer. -/
def State.recRaw (s : State) (o : RecOffer) : State :=
  let r := s.lam.rcd
  let n := s.recSeq
  let r := { r with buf := r.buf ++ [recordBytes o n], seq0 := if r.buf = [] then n else r.seq0 }
  ((s.setRcd r).setRecSeq ((n + 1) % 2 ^ 40)).il L.REC_CNT_RECORDS

/-- An ANCHOR (R431): reason 0 boot, 1 periodic, 2 clock step. -/
def State.anchorOffer (s : State) (reason : Nat) : RecOffer :=
  let t := s.now .lam
  let m := s.mc .lam
  { kind := 1, payload := wordsToBytes [t % 2 ^ 32, t / 2 ^ 32, m % 2 ^ 32,
      m / 2 ^ 32 % 65536 ||| s.rl L.TIME_STAT_STATE <<< 16 ||| reason <<< 19, s.rl L.REC_BOOTS, s.rl L.STAT_NODE_GEN] }

/-- A record put in the buffer, after the ANCHOR that takes a SEQ of a multiple of 4,096 (R432). -/
def State.recPut (s : State) (o : RecOffer) : State :=
  if s.recSeq % 4096 = 0 ∧ o.kind ≠ 1 then (s.recRaw (s.anchorOffer 1)).recRaw o else s.recRaw o

/-- The LOST record of the losses not yet reported. -/
def Rcd.lostOffer (r : Rcd) : RecOffer := { kind := 6, payload := wordsToBytes [r.lost.1, r.lost.2.1, r.lost.2.2] }

/-- A record is lost: which of 0 buffer, 1 frozen, 2 full. -/
def State.recLose (s : State) (why : Nat) : State :=
  let r := s.lam.rcd
  let b (k : Nat) (v : Nat) := if why = k then satN 32 (v + 1) else v
  let s := s.setRcd { r with lost := (b 0 r.lost.1, b 1 r.lost.2.1, b 2 r.lost.2.2), lostMc := r.lostMc + 1 }
  if why = 0 then s.il L.REC_CNT_LOST_BUF else if why = 1 then s.il L.REC_CNT_LOST_FROZEN else s.il L.REC_CNT_LOST_FULL

/-- A flush is asked for (R434). -/
def State.recWant (s : State) (cause : Nat) : State :=
  let r := s.lam.rcd
  s.setRcd { r with want := some (r.want.getD cause) }

/-- A record enters the buffer, or is lost (R434, R438, R439). -/
def State.recEnter (s : State) (o : RecOffer) : State :=
  let st := s.recState
  if st = 3 then s.recLose 1
  else if st = 4 then s.recLose 2
  else if st ≠ 2 then s.recLose 0
  else
    let r := s.lam.rcd
    let t := if r.lost = (0, 0, 0) then s else (s.recPut r.lostOffer).setRcd { (s.recPut r.lostOffer).lam.rcd with lost := (0, 0, 0) }
    let t := t.recPut o
    if 65536 < t.lam.rcd.level then s.recLose 0
    else
      let t := match o.flush with | some c => t.recWant c | none => t
      (if s.rl L.REC_CFG_HIGH * 1024 < t.lam.rcd.level then t.recWant 0 else t).recShow

/-- Records that wait enter the buffer in order of arrival, an ANCHOR due after a clock step first (R432). -/
def State.recDrain (s : State) : State :=
  if s.recState < 2 then s else
  let s := if s.lam.anchorDue then ({ s with lam := { s.lam with anchorDue := false } } : State).recEnter (s.anchorOffer 2) else s
  let l := s.lam.rcd.inbox
  l.foldl State.recEnter (s.setRcd { s.lam.rcd with inbox := [] })

/-- A record offered to the recorder: unnumbered until the boot scan has ended (R434). -/
def State.recOffer (s : State) (o : RecOffer) : State :=
  if s.recState < 2 then s.setRcd { s.lam.rcd with inbox := s.lam.rcd.inbox ++ [o] } else s.recDrain.recEnter o

/-- RECORDER_RECORD_ENTRY (R434): the oldest record offered enters the buffer. -/
def execRecorderRecordEntry (s : State) : Out :=
  if s.recState < 2 then .next s
  else if s.lam.anchorDue then .next (({ s with lam := { s.lam with anchorDue := false } } : State).recEnter (s.anchorOffer 2))
  else
    match s.lam.rcd.inbox with
    | [] => .next s
    | o :: l => .next ((s.setRcd { s.lam.rcd with inbox := l }).recEnter o)

/-- A FAULT record (R469). -/
def State.recFault (s : State) (code d1 d2 : Nat) : State :=
  s.recOffer { kind := 3, flush := some 1, payload := wordsToBytes [code, d1, d2] }

/-- REC_EVENT (R443). -/
def State.recEvent (s : State) (cause count : Nat) : State :=
  s.lamEmit 0 0x0F8 (s.now .lam) [cause, s.rl L.REC_NEXT_SEQ_LO, s.rl L.REC_NEXT_SEQ_HI, satN 32 count]

/-! ### Flushes (R434, R435, R438) -/

/-- Records that a unit at byte w of a sector has room for, n at most. -/
def unitFits : Nat → Nat → List (List Nat) → Nat
  | _, 0, _ => 0
  | _, _, [] => 0
  | room, n + 1, b :: l => if b.length ≤ room then unitFits (room - b.length) n l + 1 else 0

/-- Rounded up to 256. -/
def ceil256 (n : Nat) : Nat := (n + 255) / 256 * 256

/-- The log is full (R438): the rest of the flush is discarded. -/
def State.logFull (s : State) : State :=
  let r := s.lam.rcd
  let s := s.setRcd { r with buf := r.buf.drop r.left, seq0 := r.seq0 + r.left, left := 0, unit := none, want := none }
  ((s.wl L.REC_STAT_STATE 4).recEvent 1 0).recShow

/-- The unit header (R435); HCRC covers bytes 0 to 12 with COMMIT taken as 0xFF. -/
def unitHeader (n cause seq : Nat) : List Nat :=
  let b := leBytes 4 0x544E5556 ++ leBytes 4 (n ||| cause <<< 16 ||| 0xFF <<< 24) ++ leBytes 4 (seq % 2 ^ 32) ++ [seq / 2 ^ 32 % 256]
  b ++ leBytes 2 (crcOf 2 b) ++ [0]

/-- The next unit of the flush begins (R435): its sector, the header with COMMIT 0xFF, the records and their check. -/
def State.startUnit : Nat → State → State
  | 0, s => s.logFull
  | n + 1, s =>
    let r := s.lam.rcd
    let ok := match s.logHeader r.sector with
      | some h => (h.2.2 == secFresh || h.2.2 == secInUse) && !r.skip.contains r.sector
      | none => false
    let k := if ok then unitFits (65536 - r.wptr - 20) r.left r.buf else 0
    if k = 0 ∨ 65536 < r.wptr + 20 then
      let s := if ok then s.setSecState r.sector secFull else s
      match s.nextFresh r.sector with
      | some t => State.startUnit n (s.setRcd { r with sector := t, wptr := 256 })
      | none => s.logFull
    else
      let s := s.setSecState r.sector secInUse
      let a := 65536 * r.sector + r.wptr
      let bs := (r.buf.take k).flatten
      let s := s.norProg a (unitHeader bs.length r.cause r.seq0 ++ bs ++ leBytes 4 (crcOf 0 bs))
      (s.setRcd { s.lam.rcd with unit := some ⟨a, k⟩ }).recShow

/-- A flush that is asked for begins, unless one runs, the recorder is frozen or erases are running (R434). -/
def State.flushTry (s : State) : State :=
  let r := s.lam.rcd
  match r.want with
  | some c =>
    if r.unit.isNone ∧ (s.recState = 2 ∨ s.recState = 5) ∧ s.rl L.REC_STAT_ERASING = 0 then
      let s := s.setRcd { r with want := none, left := r.buf.length, cause := c }
      let s := if c = 1 then s.recEvent 3 0 else s
      if r.buf = [] then (if s.recState = 5 then s.wl L.REC_STAT_STATE 6 else s) else State.startUnit (s.recSectors + 1) s
    else s
  | none => s

/-- RECORDER_FLUSH_START (R434). -/
def execRecorderFlushStart (s : State) : Out := .next s.flushTry

/-- The region reported a failure (R440). -/
def State.norError (s : State) (sec : Nat) : State :=
  let s := (s.il L.REC_CNT_NOR_ERR).wl L.REC_STAT_NOR_ERR 1
  (s.setRcd { s.lam.rcd with skip := s.lam.rcd.skip ++ [sec] }).recEvent 4 0

/-- UNIT_COMMIT (R435): every program of the unit has reported its outcome. -/
def execUnitCommit (ok : Bool) (s : State) : Out :=
  let r := s.lam.rcd
  match r.unit with
  | none => .next s
  | some u =>
    if ok then
      let s := (s.norProg (u.at0 + 7) [0x5A]).il L.REC_CNT_FLUSH
      let n := ((r.buf.take u.recs).map List.length).sum
      let s := s.setRcd { r with buf := r.buf.drop u.recs, seq0 := r.seq0 + u.recs, left := r.left - u.recs, unit := none,
                                 wptr := ceil256 (r.wptr + 20 + n) }
      if u.recs < r.left then .next (State.startUnit (s.recSectors + 1) s)
      else
        let s := if s.recState = 5 ∧ s.lam.rcd.want = none then s.wl L.REC_STAT_STATE 6 else s
        .next s.recShow.flushTry
    else
      let s := s.setRcd { r with unit := none }
      .next (State.startUnit (s.recSectors + 1) (s.norError r.sector))

/-! ### Erases (R440) -/

/-- The first erase of the queue begins: a journal change first where fewer than two entries are free, then INTENT. -/
def State.eraseStart (s : State) : State :=
  match s.lam.rcd.erases with
  | [] => s
  | (t, x) :: l =>
    let r := s.lam.rcd
    let swap := s.rl L.REC_JSEQ != 0 && decide (2 ≤ t) && decide (journalSlots < r.jNext + 2)
    let t' := if swap then 1 - r.jSector else t
    let x' := if swap then (s.rl L.REC_JSEQ + 1) % 2 ^ 32 else x
    let s := if swap then s.setRcd { r with erases := (t', x') :: (t, x) :: l } else s
    (s.journalAdd 1 t' 0 0).wl L.REC_STAT_ERASING 1

/-- What one completed erase leaves: a log sector its FRESH header, a journal sector its header (R440). -/
def State.erased (s : State) (t x : Nat) : State :=
  let s := s.norErase t
  if t < 2 then
    let w := [0x4E524A56, x, 0]
    let s := s.norProg (65536 * t) (wordsToBytes (w ++ [crcOf 0 (wordsToBytes w)]))
    let fmt := s.rl L.REC_JSEQ = 0
    let s := (s.wl L.REC_JSEQ x).setRcd { s.lam.rcd with jSector := t, jNext := 0 }
    if fmt then (s.wl L.REC_LOG_ID 1).journalAdd 3 0 1 0 else s.journalAdd 2 t 0 0
  else
    let w := [0x43455256, 1 ||| s.rl L.REC_LOG_ID <<< 16, t, x, 0, 0]
    (s.norProg (65536 * t) (wordsToBytes (w ++ [crcOf 0 (wordsToBytes w), secFresh]))).journalAdd 2 t 0 0

/-- Every log sector queued for erasure, with the erase count of its next header. -/
def State.eraseAll (s : State) : State :=
  let l := ((List.range s.recSectors).drop 2).map fun t => (t, s.nextErases t)
  s.setRcd { s.lam.rcd with erases := s.lam.rcd.erases ++ l, skip := [], sector := 2, wptr := 256 }

/-! ### Boot scan (R441) -/

/-- What a unit header says: committed, FIRST_SEQ, bytes of records; none where it is neither blank nor valid. -/
inductive UnitSeen where
  | blank
  | bad
  | unit (committed : Bool) (first n : Nat)

/-- The unit at an offset of the region. -/
def State.unitAt (s : State) (a : Nat) : UnitSeen :=
  let b := s.norRead a 16
  let g := nth b
  if b.all (· == 0xFF) then .blank
  else if ofLeBytes (b.take 4) = 0x544E5556 ∧
      ofLeBytes [g 13, g 14] = crcOf 2 ((b.take 13).set 7 0xFF) then
    let n := ofLeBytes [g 4, g 5]
    let recs := s.norRead (a + 16) n
    .unit (g 7 == 0x5A && ofLeBytes (s.norRead (a + 16 + n) 4) == crcOf 0 recs) (ofLeBytes (b.drop 8 |>.take 5)) n
  else .bad

/-- What a walk of a sector's units finds (R441): where the next unit goes, or that the sector ends there; the next SEQ, units
skipped, and the boot count of the last ANCHOR. -/
structure Walk where
  at0 : Nat := 256
  full : Bool := false
  next : Option Nat := none
  skipped : Nat := 0
  boots : Option Nat := none
deriving DecidableEq, Repr

/-- Records of a committed unit: their number and the boot count of the last ANCHOR among them. -/
def unitRecords : Nat → List Nat → Nat × Option Nat
  | 0, _ => (0, none)
  | _, [] => (0, none)
  | n + 1, bs =>
    let w := ofLeBytes (bs.take 4)
    let len := w % 8192
    if len < 12 ∨ bs.length < len then (0, none) else
    let r := unitRecords n (bs.drop len)
    let here := if bits w 16 8 = 1 then some (ofLeBytes (bs.drop 24 |>.take 4)) else none
    (r.1 + 1, match r.2 with | some b => some b | none => here)

/-- The larger of a SEQ found and one known. -/
def seqMax (a : Nat) : Option Nat → Option Nat
  | some b => some (max a b)
  | none => some a

/-- The units of sector sec walked from byte w.at0. -/
def State.walk (s : State) (sec : Nat) : Nat → Walk → Walk
  | 0, w => { w with full := true }
  | n + 1, w =>
    if 65536 < w.at0 + 20 then { w with full := true } else
    match s.unitAt (65536 * sec + w.at0) with
    | .blank => w
    | .bad => { w with full := true }
    | .unit c first len =>
      let at' := ceil256 (w.at0 + 20 + len)
      if c then
        let u := unitRecords len (s.norRead (65536 * sec + w.at0 + 16) len)
        State.walk s sec n { w with at0 := at', next := seqMax (first + u.1) w.next,
                                    boots := match u.2 with | some b => some b | none => w.boots }
      else State.walk s sec n { w with at0 := at', next := seqMax (first + len / 16) w.next, skipped := w.skipped + 1 }

/-- The scan ends (R441, R458): current sector, next SEQ, the boot ANCHOR, the waiting records, REC_EVENT BOOT. -/
def State.scanEnd (s : State) (re clearSeq : Nat) : State :=
  let n := s.recSectors
  let secs := (List.range n).drop 2
  let stOf := fun t => (s.logHeader t).map fun h => h.2.2
  let used := secs.filter fun t => stOf t == some secInUse || stOf t == some secFull
  let walks : List (Nat × Walk) := used.map fun t => (t, s.walk t 256 {})
  let next := walks.foldl (fun m x => match x.2.next with | some v => seqMax v m | none => m) none
  let boots := walks.foldl (fun m x => match x.2.boots with | some v => some v | none => m) none
  let lastFull := (secs.filter fun t => stOf t == some secFull).getLast?
  let cur : Option (Nat × Walk) := match secs.find? (fun t => stOf t == some secInUse) with
    | some t => some (t, ((walks.find? fun x => x.1 == t).map (·.2)).getD {})
    | none => (secs.find? fun t => stOf t == some secFresh && decide (lastFull.getD 0 < t)).map fun t => (t, {})
  let s := s.il L.REC_CNT_UNCOMMITTED ((cur.map fun c => c.2.skipped).getD 0)
  let s := match cur with
    | some (t, w) =>
      let s := s.setRcd { s.lam.rcd with skip := s.lam.rcd.skip.filter fun x => decide (x < t) }
      if w.full then
        let s := s.setSecState t secFull
        s.setRcd { s.lam.rcd with sector := (s.nextFresh t).getD t, wptr := 256 }
      else s.setRcd { s.lam.rcd with sector := t, wptr := w.at0 }
    | none => s
  let s := s.setRecSeq ((next.getD clearSeq) % 2 ^ 40)
  let b := (boots.getD 0 + 1) % 2 ^ 32
  let s := (s.wl L.REC_BOOTS b).wl L.STAT_NODE_GEN (b % 256)
  let s := s.wl L.REC_STAT_STATE (if cur.isSome then 2 else 4)
  let s := { s with lam := { s.lam with scanned := true, rcd := { s.lam.rcd with scan := none } } }
  let s := s.recEnter (s.anchorOffer 0)
  (s.recDrain.recEvent 0 re).recShow

/-- Erases are done: the scan ends, or the new log begins (R440, R441). -/
def State.erasesDone (s : State) : State :=
  let s := s.wl L.REC_STAT_ERASING 0
  let r := s.lam.rcd
  match r.scan with
  | some (re, seq) => s.scanEnd re seq
  | none =>
    if r.clearing then
      (((s.setRcd { r with clearing := false }).wl L.REC_STAT_STATE (if s.recState = 4 then 2 else s.recState)).recEvent 2 0).recShow.flushTry
    else s.flushTry

/-- NOR_ERASE_DONE (R440): the erase in progress has ended. -/
def execNorEraseDone (ok : Bool) (s : State) : Out :=
  match s.lam.rcd.erases with
  | [] => .next s
  | (t, x) :: l =>
    if s.rl L.REC_STAT_ERASING = 0 then .next s else
    let s := s.setRcd { s.lam.rcd with erases := l }
    let s := if ok then s.erased t x else s.norError t
    .next (if l = [] then s.erasesDone else s.eraseStart)

/-- The boot scan (R441): journals, open intents, sector headers. -/
def State.recScan (s : State) : State :=
  let s := s.wl L.REC_STAT_STATE 1
  let j0 := s.journal 0
  let j1 := s.journal 1
  let actv := match j0, j1 with
    | some a, some b => if 0 < sdiff32 b a then some (1, b) else some (0, a)
    | some a, none => some (0, a)
    | none, some b => some (1, b)
    | none, none => none
  match actv with
  | none =>
    let s := (s.wl L.REC_STAT_FORMATTED 1).setRcd { s.lam.rcd with erases := [(0, 1)], scan := some (0, 0) }
    s.eraseAll.eraseStart
  | some (j, q) =>
    let old := if (if j = 0 then j1 else j0).isSome then s.journalEntries (1 - j) journalSlots 0 else []
    let es := old ++ s.journalEntries j journalSlots 0
    let clear := (es.filter fun e => e.op == 3).getLast?
    let secs := (List.range s.recSectors).drop 2
    let logId := match clear with
      | some e => e.logId
      | none => ((secs.find? fun t => (s.logHeader t).isSome).bind fun t => (s.logHeader t).map (·.1)).getD 1
    let openSec := fun t => es.foldl (fun o e => if e.sector = t ∧ e.op = 1 then true else if e.sector = t ∧ e.op = 2 then false else o) false
    let redo := secs.filter fun t => openSec t || (match s.logHeader t with | some h => h.1 != logId | none => true)
    let s := (s.wl L.REC_JSEQ q).wl L.REC_LOG_ID logId
    let s := s.setRcd { s.lam.rcd with jSector := j, jNext := s.journalFree j journalSlots, skip := redo,
                                       erases := redo.map fun t => (t, s.nextErases t),
                                       scan := some (redo.length, (clear.map (·.seq)).getD 0) }
    let s := s.il L.REC_CNT_REERASE redo.length
    if redo = [] then s.erasesDone else s.eraseStart

/-- REC_CTL.ENABLE written (R441). Cleared, the recorder is off. -/
def State.setRecEnable (s : State) (v : Bool) : State :=
  if v then
    if s.rl L.REC_CTL_ENABLE = 1 then s else
    let s := s.wl L.REC_CTL_ENABLE 1
    if s.recSectors < 3 then s else s.recScan
  else ((s.wl L.REC_CTL_ENABLE 0).wl L.REC_STAT_STATE 0).wl L.REC_STAT_ERASING 0

/-- REC_CTL_ENABLE_WRITE (R441). -/
def execRecCtlEnableWrite (iss : Issuer) (v : Bool) (s : State) : Out :=
  let g := s.lamGuard iss L.REC_CTL_ENABLE.addr true 0
  if g.2 then .next (g.1.setRecEnable v) else .next g.1

/-- A flush commanded (R434). -/
def State.recFlush (s : State) (cause : Nat) : State := (s.recDrain.recWant cause).flushTry

/-- REC_CTL_FLUSH (R434). -/
def execRecCtlFlush (iss : Issuer) (s : State) : Out :=
  let g := s.lamGuard iss L.REC_CTL_FLUSH.addr true 0
  if g.2 then .next (g.1.recFlush 2) else .next g.1

/-! ### Commands (R439, R442) -/

/-- D2 is on, or the command is refused with DOMAIN_OFF (R452). -/
def State.inRec (s : State) (f : State → State × CmdRes) : State × CmdRes :=
  if s.pdOn 2 then f s else (s, { status := St.domainOff })

/-- REC_READ (R442). -/
def State.opRecRead (s : State) (off n : Nat) : State × CmdRes :=
  s.inRec fun s =>
    if n < 4 ∨ 3840 < n ∨ n % 4 ≠ 0 ∨ 65536 * s.recSectors < off + n then (s, { status := St.badParam })
    else if s.recState = 5 ∨ s.recState = 6 then (s, { status := St.busy })
    else (s, { data := bytesToWords (s.norRead off n) })

/-- REC_READ (R442, opcode 0x50). -/
def execRecRead (h : CmdHdr) (off n : Nat) (s : State) : Out :=
  .next (s.cmdLam { h with opcode := 0x50 } fun s => s.opRecRead off n)

/-- The freeze ends (R439). -/
def State.unfreeze (s : State) : State :=
  if s.recState = 3 then
    let s := (s.wl L.REC_STAT_STATE 2).setRcd { s.lam.rcd with frozen := none }
    let r := s.lam.rcd
    if r.lost = (0, 0, 0) then s.flushTry
    else (((s.setRcd { r with lost := (0, 0, 0) }).recEnter r.lostOffer).recDrain).flushTry
  else s

/-- REC_FREEZE (R439). -/
def State.opRecFreeze (s : State) (on : Bool) : State × CmdRes :=
  s.inRec fun s =>
    if on then
      if s.recState = 2 then
        let s := s.recDrain
        ((s.wl L.REC_STAT_STATE 3).setRcd { s.lam.rcd with frozen := some (s.now .lam) }, {})
      else (s, {})
    else (s.unfreeze, {})

/-- REC_FREEZE (R439, opcode 0x51). -/
def execRecFreeze (h : CmdHdr) (on : Bool) (s : State) : Out :=
  .next (s.cmdLam { h with opcode := 0x51 } fun s => s.opRecFreeze on)

/-- REC_FREEZE_TIMEOUT (R439). -/
def execRecFreezeTimeout (s : State) : Out :=
  match s.lam.rcd.frozen with
  | some t => if s.rl L.REC_FREEZE_MS * 1000000 ≤ s.now .lam - t then .next s.unfreeze else .next s
  | none => .next s

/-- REC_FLUSH (R434, R442). -/
def State.opRecFlush (s : State) : State × CmdRes := s.inRec fun s => (s.recFlush 2, {})

/-- REC_FLUSH (R442, opcode 0x52). -/
def execRecFlush (h : CmdHdr) (s : State) : Out :=
  .next (s.cmdLam { h with opcode := 0x52 } fun s => s.opRecFlush)

/-- REC_CLEAR (R440, R442). -/
def State.opRecClear (s : State) : State × CmdRes :=
  s.inRec fun s =>
    if s.recState = 3 ∨ s.rl L.REC_STAT_ERASING = 1 ∨ s.recState < 2 then (s, { status := St.busy })
    else
      let id := (s.rl L.REC_LOG_ID + 1) % 65536
      let s := (s.wl L.REC_LOG_ID id).journalAdd 3 0 id s.recSeq
      let s := s.setRcd { s.lam.rcd with clearing := true }
      (s.eraseAll.eraseStart, {})

/-- REC_CLEAR (R440, opcode 0x53). -/
def execRecClear (h : CmdHdr) (s : State) : Out :=
  .next (s.cmdLam { h with opcode := 0x53 } fun s => s.opRecClear)

/-- REC_NOTE (R442): firmware text, zero-padded. -/
def State.opRecNote (s : State) (flush : Bool) (text : List Nat) : State × CmdRes :=
  s.inRec fun s =>
    if text = [] ∨ 1024 < text.length then (s, { status := St.badParam })
    else ((s.recOffer { kind := 5, flush := if flush then some 4 else none, payload := text }).flushTry, {})

/-- REC_NOTE (R442, opcode 0x54). -/
def execRecNote (h : CmdHdr) (flush : Bool) (text : List Nat) (s : State) : Out :=
  .next (s.cmdLam { h with opcode := 0x54 } fun s => s.opRecNote flush text)

/-- The recorder's part of a power-failure declaration (R436). With the log full the record is refused as any other (R438); before the
scan ends it waits (R434). -/
def State.recPfw (s : State) (a b discrepant : Bool) (ns : Nat) : State :=
  let o : RecOffer := { kind := 4, flush := some 3, payload := wordsToBytes [b2n a ||| b2n b <<< 1 ||| b2n discrepant <<< 2, satN 32 ns] }
  if s.recState = 2 ∨ s.recState = 3 then
    let s := (s.wl L.REC_STAT_STATE 2).setRcd { s.lam.rcd with frozen := none }
    let s := s.recDrain.recEnter o
    let s := (s.wl L.REC_STAT_STATE 5).wl L.REC_STAT_ERASING 0
    (s.setRcd { s.lam.rcd with want := some 3 }).flushTry
  else s.recOffer o

/-- The declaration clears without loss of power (R436): recording resumes with an ANCHOR of REASON 1. -/
def State.recResume (s : State) : State :=
  if s.recState = 5 ∨ s.recState = 6 then
    let s := s.wl L.REC_STAT_STATE 2
    (s.recEnter (s.anchorOffer 1)).recDrain.eraseStart
  else s

end Sys2Proof.Machine
end

