-- ==== Sys2Proof/Machine/Board.lean ====
section
/-! DEFINITION. Lamulo on the tray (19): straps and boot, power domains, DDR, PCIe, keys, power-fail warning, thermal trip. -/

namespace Sys2Proof.Machine

/-- The board side replaced. -/
def State.setBrd (s : State) (b : Brd) : State := { s with lam := { s.lam with brd := b } }

/-- BOARD_EVENT (R469); vector 0 is raised (R465). -/
def State.boardEvent (s : State) (code d1 d2 : Nat) : State :=
  (s.lamEmit 0 0x0F9 (s.now .lam) [code, d1 % 2 ^ 32, d2 % 2 ^ 32, s.mc32 .lam]).raiseVec 0

/-- A LAM_FAULT bit set; vector 0 is raised if the bit is enabled (R465, R471). -/
def State.lamFault (s : State) (F : Fld) : State :=
  let s := s.wl F 1
  if bitAt (s.rl L.LAM_IRQ_EN) F.lo then s.raiseVec 0 else s

/-! ### Power domains (R450 to R452) -/

/-- A domain's Off-only-when condition holds (R450). -/
def State.pdMayOff (s : State) (n : Nat) : Bool :=
  match n with
  | 0 | 1 => false
  | 3 => s.rl L.DDR_CTL_ENABLE == 0
  | 4 => s.rl L.DDR_CTL_ENABLE == 0 && s.rl L.DDR_CFG_CHANNELS == 1
  | 5 | 6 | 7 | 8 => (List.range 4).all fun k => s.rl L.LNK_CTL_ENABLE (4 * (n - 5) + k) == 0
  | 9 => bits (s.rl L.ETH_GRP_CFG_MODE) 0 6 == 0x3F
  | 10 => bits (s.rl L.ETH_GRP_CFG_MODE) 6 6 == 0x3F
  | 11 | 12 | 13 | 14 => s.rl L.FST_CTL_ENABLE == 0 && s.openPasses == 0 && !s.pinnedIn (n - 11)
  | 15 => s.rl L.STAT_CTL_ENABLE == 0 && s.rl L.DET_CTL_STRAG_EN == 0 && s.rl L.DET_CTL_DRIFT_EN == 0 && !s.pdOn 16
  | 17 => s.rl L.CMP_CTL_ENABLE == 0
  | 18 => (List.range 24).all fun p => s.portRole p == 0
  | 19 => s.rl L.LDGF_CTL_ENABLE == 0 && (List.range 24).all fun p => s.rl L.GATE_CTL_EN p == 0
  | _ => true

/-- Domains that domain n needs, beside D0 and D1 (R450). -/
def pdNeeds (n : Nat) : List Nat := if n = 11 ∨ n = 12 ∨ n = 13 ∨ n = 14 ∨ n = 17 then [3] else []

/-- A switch of domain n to on or off is permitted, want being the domains asked for so far. -/
def State.pdMay (s : State) (want n : Nat) (on : Bool) : Bool :=
  if on then (pdNeeds n).all fun m => bitAt want m
  else s.pdMayOff n && (List.range 20).all fun m => !((pdNeeds m).contains n && bitAt want m)

/-- The domains asked for after a write of v, and those refused, in ascending order (R451). -/
def State.pdDecide (s : State) (v : Nat) : List Nat → Nat × Nat → Nat × Nat
  | [], r => r
  | n :: l, (want, ref) =>
    if bitAt want n = bitAt v n ∨ n < 3 then State.pdDecide s v l (want, ref)
    else if s.pdMay want n (bitAt v n) then State.pdDecide s v l (setBits want n 1 (b2n (bitAt v n)), ref)
    else State.pdDecide s v l (want, ref ||| 1 <<< n)

/-- PD_CTL written (R451). -/
def State.setPdCtl (s : State) (v : Nat) : State :=
  let d := s.pdDecide v (List.range 20) (s.rl L.PD_CTL, 0)
  let s := (s.wl L.PD_CTL (d.1 ||| 7)).pdRetarget
  if d.2 = 0 then s else (s.wl L.PD_REFUSED (s.rl L.PD_REFUSED ||| d.2)).boardEvent 5 d.2 0

/-- PD_CTL_WRITE (R451). -/
def execPdCtlWrite (iss : Issuer) (v : Nat) (s : State) : Out :=
  let g := s.lamGuard iss L.PD_CTL.addr true 0
  if g.2 then .next (g.1.setPdCtl (v % 2 ^ 20)) else .next g.1

/-- State inside domain n is lost (R451): its registers and what its functions hold. -/
def State.lamLose (s : State) (n : Nat) : State :=
  let fresh := lamBuckets
  let s := if n = 17 then (s.ringAbort 0).ringAbort 1 else s
  let l := { s.lam with regs := s.lam.regs.filter fun p => lamDomain (p.1 / 8) != n }
  let l := match n with
    | 2 => { l with rcd := {}, scanned := false }
    | 3 | 4 => { l with ddr := l.ddr.filter (fun c => (s.ddrChan c.1) / 4 != n - 3),
                        poison := l.poison.filter fun x => (s.ddrChan (64 * x)) / 4 != n - 3 }
    | 5 | 6 | 7 | 8 => { l with ports := (List.range 16).map fun q => if q / 4 = n - 5 then {} else l.ports.getD q {} }
    | 9 | 10 => { l with eth := { l.eth with ports := (List.range 24).map fun p => if p / 12 = n - 9 then {} else l.eth.ports.getD p {} } }
    | 15 => { l with cells := [], barCells := [], barDone := [], det := List.replicate 16 {}, qrefs := [], incomp := [], bkt := fresh }
    | 17 => { l with cmp := List.replicate 2 {} }
    | 18 => { l with digCells := [], digHeld := [], digPrev := [] }
    | 19 => { l with ldg := {} }
    | _ => l
  let s := { s with lam := l }
  if n = 3 then s.wl L.DDR_STAT_TRAINED (s.rl L.DDR_STAT_TRAINED &&& 0xF0)
  else if n = 4 then s.wl L.DDR_STAT_TRAINED (s.rl L.DDR_STAT_TRAINED &&& 0x0F) else s

/-- DOMAIN_SWITCH_DONE (R451): 20 us after its start the switch of the lowest domain pending ends. -/
def execDomainSwitchDone (s : State) : Out :=
  let b := s.rl L.PD_BUSY
  match (List.range 20).find? (fun n => bitAt b n) with
  | some n =>
    if 20000 ≤ s.now .lam - s.lam.pdFrom then
      let on := !s.pdOn n
      let s := s.wl L.PD_STAT (setBits (s.rl L.PD_STAT) n 1 (b2n on))
      let s := (s.lamLose n).wl L.PD_BUSY 0
      .next s.pdRetarget
    else .next s
  | none => .next s

/-! ### Boot (R448, R453 to R456) -/

/-- What the ROM finds of an image: 0 valid, else a status of R291; its FW_VERSION. -/
def State.imageCheck (s : State) (m : Memory) (at0 : Nat) : State × Nat × Nat :=
  let w := bytesToWords (m.read norDefault at0 64)
  let n := nth w
  let body := n 3
  if n 0 ≠ 0x544F4256 then (s, 0x11, 0)
  else if n 1 ≠ 1 ∨ (w.drop 5).any (· != 0) then (s, 0x12, n 2)
  else if 16777024 < body then (s, 0x13, n 2)
  else
    let b := m.read norDefault (at0 + 64 + body) 128
    if 4 ≤ nth b 4 then (s, 0x20, n 2) else
    match s.sigCheck 0 b (m.read norDefault at0 (64 + body)) with
    | .key => (s, 0x20, n 2)
    | .fail => (s, 0x21, n 2)
    | .ok => if n 2 < s.rl L.KEY_MIN_FW then (s.free.2, max 1 (s.free.1 % 256), n 2) else (s, 0, n 2)

/-- Firmware starts (R453). -/
def State.bootImage (s : State) (image version : Nat) : State :=
  ((s.wl L.LAM_BOOT_STATE 1).wl L.LAM_BOOT_IMAGE image).wl L.LAM_FW_VERSION version

/-- The image that was not valid would have started (R455, R469). -/
def State.bootFallback (s : State) (image version : Nat) : State :=
  (((s.lamFault L.LAM_FAULT_BOOT_FALLBACK).recFault 6 image version).boardEvent 6 image version)

/-- The choice between images A and B (R455). -/
def State.bootChoose (s : State) : State :=
  let a := s.imageCheck s.lam.brd.nor 0
  let b := a.1.imageCheck a.1.lam.brd.nor 0x1000000
  let s := b.1
  let va := a.2.2
  let vb := b.2.2
  let prefB := decide (va < vb) || (va == vb && s.rl L.LAM_STRAP_BOOT_ALT == 1)
  if a.2.1 = 0 ∧ b.2.1 = 0 then (if prefB then s.bootImage 1 vb else s.bootImage 0 va)
  else if a.2.1 = 0 then
    let s := s.bootImage 0 va
    if prefB then s.bootFallback 0 va else s
  else if b.2.1 = 0 then
    let s := s.bootImage 1 vb
    if prefB then s else s.bootFallback 1 vb
  else s.wl L.LAM_BOOT_STATE 2

/-- Reset values that depend on the role (R207, R245, R315, R382). -/
def State.roleResets (s : State) (role : Nat) : State :=
  let pick := fun (l : List Nat) => nth l role
  (((s.wl L.STAT_CLOSE_US (pick [8000, 20000, 34000, 50000])).wl L.CMD_MERGE_US (pick [1000, 2000, 3000, 4000])).wl
    L.DET_BAR_CLOSE_US (pick [150, 550, 1150, 2000])).wl L.DIGF_CLOSE_MS (pick [2000, 2002, 2004, 2006])

/-- POR_N_RISE (R448, R453): the straps are sampled and the boot ROM runs. -/
def execPorNRise (role : Nat) (standby prov bootAlt : Bool) (s : State) : Out :=
  if s.lam.pins.por then .next s else
  let role := role % 4
  let s := { s with lam := { s.lam with pins := { s.lam.pins with role := role, standby := standby, prov := prov, bootAlt := bootAlt, por := true } } }
  let s := (((s.wl L.LAM_STRAP_ROLE role).wl L.LAM_STRAP_STANDBY (b2n (standby && role == 3))).wl L.LAM_STRAP_PROV (b2n prov)).wl
    L.LAM_STRAP_BOOT_ALT (b2n bootAlt)
  let s := s.wl L.LAM_NODE s.nodeNo
  .next (s.roleResets role).bootChoose

/-- POR_N_ASSERT (R453): the Lamulo returns to reset; one-time-programmable keys and the NOR flash keep what they hold. -/
def execPorNAssert (s : State) : Out :=
  let l := s.lam
  let s := { s with lam := { bkt := lamBuckets, keys := l.keys, brd := { nor := l.brd.nor } },
                    latches := s.latches.filter (fun (x : Latch) => x.path != Path.pcie && x.path != Path.cmd),
                    holds := s.holds.filter fun (x : Hold) => x.path != Path.pcie && x.path != Path.cmd }
  .next ((((s.wl L.KEY_STAT_PROG (l.regs.rd L.KEY_STAT_PROG)).wl L.KEY_REVOKE (l.regs.rd L.KEY_REVOKE)).wl L.FLEET_KEY_PROG
    (l.regs.rd L.FLEET_KEY_PROG)).wl L.KEY_MIN_FW (l.regs.rd L.KEY_MIN_FW))

/-- LAM_BOOT_CMD.RUN written (R456). -/
def State.bootRun (s : State) : State :=
  if s.rl L.LAM_BOOT_STATE = 2 then
    let c := s.imageCheck s.lam.brd.sram 0
    if c.2.1 = 0 then c.1.bootImage 2 c.2.2 else c.1.wl L.LAM_BOOT_LAST_CHECK c.2.1
  else s

/-- LAM_BOOT_CMD_RUN (R456). -/
def execLamBootCmdRun (iss : Issuer) (s : State) : Out :=
  let g := s.lamGuard iss L.LAM_BOOT_CMD_RUN.addr true 0
  if g.2 then .next g.1.bootRun else .next g.1

/-- LAM_POS written (R449): only while every Ethernet port has ROLE 0 and every IKL port is disabled. -/
def State.setPos (s : State) (row rack tray : Nat) : State :=
  if (List.range 24).all (fun p => s.portRole p == 0) && (List.range 16).all (fun q => s.rl L.LNK_CTL_ENABLE q == 0) then
    let s := ((s.wl L.LAM_POS_ROW row).wl L.LAM_POS_RACK rack).wl L.LAM_POS_TRAY tray
    s.wl L.LAM_NODE s.nodeNo
  else s

/-- LAM_POS_WRITE (R449). -/
def execLamPosWrite (iss : Issuer) (row rack tray : Nat) (s : State) : Out :=
  let g := s.lamGuard iss L.LAM_POS_ROW.addr true 0
  if g.2 then .next (g.1.setPos row rack tray) else .next g.1

/-! ### Keys (R457) -/

/-- A key slot programmed from KEY_PROG_DATA where it is permitted: a public slot with PROV, a fleet slot once under FLEET
authority or with PROV. -/
def State.keyProg (s : State) (auth : Auth) (slot : Nat) : State :=
  let data := wordsToBytes ((List.range 24).map fun i => s.rl L.KEY_PROG_DATA i)
  let prov := s.rl L.LAM_STRAP_PROV == 1
  let put := fun (n : Nat) => { s with lam := { s.lam with keys := s.lam.keys ++ [(slot, data.take n)] } }
  if (s.key slot).isSome then s
  else if slot < 28 then
    if prov then (put 96).wl L.KEY_STAT_PROG (s.rl L.KEY_STAT_PROG ||| 1 <<< slot) else s
  else if 32 ≤ slot ∧ slot < 48 then
    if prov || auth == .fleet then (put 32).wl L.FLEET_KEY_PROG (s.rl L.FLEET_KEY_PROG ||| 1 <<< (slot - 32)) else s
  else s

/-- KEY_PROG_GO (R457). -/
def execKeyProgGo (iss : Issuer) (slot : Nat) (s : State) : Out :=
  let g := s.lamGuard iss L.KEY_PROG_GO.addr true 0
  if g.2 then .next (g.1.keyProg iss.auth slot) else .next g.1

/-- KEY_REVOKE_WRITE (R457): FLEET authority; a bit once set stays. -/
def execKeyRevokeWrite (iss : Issuer) (v : Nat) (s : State) : Out :=
  let g := s.lamGuard iss L.KEY_REVOKE.addr true 3
  if g.2 then .next (g.1.wl L.KEY_REVOKE (g.1.rl L.KEY_REVOKE ||| v % 2 ^ 28)) else .next g.1

/-! ### DDR (R459 to R462) -/

/-- Channels in use. -/
def State.chansUsed (s : State) : Nat := if s.rl L.DDR_CFG_CHANNELS = 1 then 0x0F else 0xFF

/-- DDR_CTL.ENABLE written (R459): set, every channel in use trains; cleared, memory is not usable. -/
def State.setDdr (s : State) (v : Bool) : State :=
  if v then s.wl L.DDR_CTL_ENABLE 1 else (s.wl L.DDR_CTL_ENABLE 0).wl L.DDR_STAT_TRAINED 0

/-- DDR_CTL_ENABLE (R459). -/
def execDdrCtlEnable (iss : Issuer) (v : Bool) (s : State) : Out :=
  let g := s.lamGuard iss L.DDR_CTL_ENABLE.addr true 0
  if g.2 then .next (g.1.setDdr v) else .next g.1

/-- DDR_TRAINING_DONE (R459): mask names the channels whose training succeeded; a channel of a domain that is off cannot. -/
def execDdrTrainingDone (mask : Nat) (s : State) : Out :=
  if s.rl L.DDR_CTL_ENABLE = 1 then
    let on := (if s.pdOn 3 then 0x0F else 0) ||| (if s.pdOn 4 then 0xF0 else 0)
    .next (s.wl L.DDR_STAT_TRAINED (mask &&& s.chansUsed &&& on))
  else .next s

/-- A line marked poisoned, lines rising. -/
def poisonAdd (l : List Nat) (x : Nat) : List Nat :=
  match l with
  | [] => [x]
  | y :: r => if x < y then x :: y :: r else if x = y then l else y :: poisonAdd r x

/-- An uncorrectable read of a line (R460, R469). -/
def State.ddrUe (s : State) (line : Nat) : State :=
  let a := 64 * line
  let s := { s with lam := { s.lam with poison := poisonAdd s.lam.poison line } }
  let s := ((s.il L.DDR_CNT_UE 1 (s.ddrChan a)).wl L.DDR_UE_ADDR_LO (a % 2 ^ 32)).wl L.DDR_UE_ADDR_HI (a / 2 ^ 32)
  ((s.lamFault L.LAM_FAULT_DDR_UE).recFault 4 (a % 2 ^ 32) (a / 2 ^ 32)).boardEvent 4 (a % 2 ^ 32) (a / 2 ^ 32)

/-- A line read with an ECC outcome (R460): whether the consumer receives POISON. -/
def State.ddrLine (s : State) (line : Nat) (e : Ecc) : State × Bool :=
  if s.lam.poison.contains line then (s, true) else
  match e with
  | .clean => (s, false)
  | .corrected => (s.il L.DDR_CNT_CE 1 (s.ddrChan (64 * line)), false)
  | .uncorrectable => (s.ddrUe line, true)

/-- DDR_READ (R460): a line read; its words go to the consumer, none with POISON. -/
def execDdrRead (line : Nat) (e : Ecc) (s : State) : Out :=
  if s.ddrSize ≤ 64 * line then .fault .noSuchAddress else
  let r := s.ddrLine line e
  .next { r.1 with rdata := if r.2 then [] else r.1.ddrWords (64 * line) 16 }

/-- DDR_PARTIAL_WRITE (R461): bytes from offset off of a line, with the outcome of the read. -/
def execDdrPartialWrite (line off : Nat) (bs : List Nat) (e : Ecc) (s : State) : Out :=
  if s.ddrSize ≤ 64 * line then .fault .noSuchAddress else
  let bs := bs.take (64 - off % 64)
  let a := 64 * line + off % 64
  if bs.length = 64 ∨ s.lam.poison.contains line then .next (s.ddrPut a bs)
  else
    match e with
    | .clean => .next (s.ddrPut a bs)
    | .corrected => .next ((s.ddrPut a bs).il L.DDR_CNT_RMW_CE 1 (s.ddrChan a))
    | .uncorrectable =>
      let s := s.ddrPut a bs
      let s := { s with lam := { s.lam with poison := poisonAdd s.lam.poison line } }
      .next (s.il L.DDR_CNT_RMW_UE 1 (s.ddrChan a))

/-- PATROL_SCRUB (R462): a line read and written back corrected unless a write intervened; the last line of a channel ends a
pass. -/
def execPatrolScrub (line : Nat) (e : Ecc) (intervened last : Bool) (s : State) : Out :=
  if s.ddrSize ≤ 64 * line then .fault .noSuchAddress else
  let c := s.ddrChan (64 * line)
  let was := s.lam.poison
  let s := (s.ddrLine line e).1
  let s := if intervened then { s with lam := { s.lam with poison := was } } else s
  .next (if last then s.wl L.DDR_SCRUB_PASS ((s.rl L.DDR_SCRUB_PASS c + 1) % 2 ^ 32) c else s)

/-! ### PCIe (R463, R464) -/

/-- BAR2_ACCESS (R456, R464): a read of n bytes or a write of bs at offset off of the window. -/
def execBar2Access (write : Bool) (off n : Nat) (bs : List Nat) (s : State) : Out :=
  let len := if write then bs.length else n
  let zeros := List.replicate n 0
  let read := fun (s : State) (l : List Nat) => if write then s else { s with rdata := bytesToWords l }
  if s.rl L.LAM_BOOT_STATE = 2 then
    if 2 ^ 24 < off + len then .next (read s zeros)
    else if write then .next (s.setBrd { s.lam.brd with sram := s.lam.brd.sram.write norDefault off bs })
    else .next (read s (s.lam.brd.sram.read norDefault off n))
  else if s.rl L.LAM_BOOT_STATE ≠ 1 then .next (read s zeros)
  else
    let a := s.rl L.DDR_WIN_BASE_LO + 2 ^ 32 * s.rl L.DDR_WIN_BASE_HI + off
    if !s.ddrRange a len || decide (2 ^ 30 < off + len) then .next (read (s.il L.DDR_CNT_WIN_BAD) zeros)
    else if write then .next (s.ddrPut a bs)
    else if s.poisoned a n then .next (read (s.il L.DDR_CNT_PCIE_POISON) zeros)
    else .next (read s (s.ddrBytes a n))

/-- PERST_N (R463): the endpoint alone is reset, with its MSI-X table and pending bits and the reads and writes it held. -/
def execPerstN (s : State) : Out :=
  let s := (List.range 256).foldl (fun s i => s.wl L.MSI_X_table 0 i) s
  let s := (s.wl L.MSI_X_pending_bits 0 0).wl L.MSI_X_pending_bits 0 1
  .next { s with latches := s.latches.filter (fun l => l.path != .pcie), holds := s.holds.filter fun l => l.path != .pcie }

/-! ### Power-fail warning (R466, R467) -/

/-- The monitor replaced, and PFW_STAT as it stands. -/
def State.setPfw (s : State) (p : Pfw) : State :=
  ((s.setBrd { s.lam.brd with pfw := p }).wl L.PFW_STAT_A (b2n p.a.isSome)).wl L.PFW_STAT_B (b2n p.b.isSome)

/-- D in ns. -/
def State.pfwD (s : State) : Nat := s.rl L.PFW_CFG_DISC_US * 1000

/-- Power failure declared (R436, R466). -/
def State.pfwDeclare (s : State) (first : Nat) (discrepant : Bool) : State :=
  let p := s.lam.brd.pfw
  let ns := s.now .lam - first
  let s := s.wl L.PFW_STAT_DECLARED 1
  let s := s.recPfw p.a.isSome p.b.isSome discrepant ns
  s.boardEvent 1 (b2n p.a.isSome ||| b2n p.b.isSome <<< 1) (satN 32 ns)

/-- PFW_ASSERT (R466): a channel (b: PFW_B) has been low for 100 ns. -/
def execPfwAssert (b : Bool) (s : State) : Out :=
  let p := s.lam.brd.pfw
  let now := s.now .lam
  if (if b then p.b else p.a).isSome then .next s else
  let s := s.setPfw (if b then { p with b := some now, clearFrom := none } else { p with a := some now, clearFrom := none })
  match (if b then p.a else p.b) with
  | some t =>
    if s.rl L.PFW_STAT_DECLARED = 0 ∧ now - t < s.pfwD then .next (s.pfwDeclare t false) else .next s
  | none => .next s

/-- PFW_DISCREPANCY_TIMEOUT (R466): D after one channel asserted alone. -/
def execPfwDiscrepancyTimeout (s : State) : Out :=
  let p := s.lam.brd.pfw
  if s.rl L.PFW_STAT_DECLARED = 1 then .next s else
  match p.a, p.b with
  | some t, none => if s.pfwD ≤ s.now .lam - t then .next ((s.lamFault L.LAM_FAULT_PFW_CHAN_B).pfwDeclare t true) else .next s
  | none, some t => if s.pfwD ≤ s.now .lam - t then .next ((s.lamFault L.LAM_FAULT_PFW_CHAN_A).pfwDeclare t true) else .next s
  | _, _ => .next s

/-- PFW_DEASSERT (R466): a lone assertion that ends within D is ignored and counted. -/
def execPfwDeassert (b : Bool) (s : State) : Out :=
  let p := s.lam.brd.pfw
  match (if b then p.b else p.a) with
  | none => .next s
  | some _ =>
    let other := if b then p.a else p.b
    let p' := if b then { p with b := none } else { p with a := none }
    let p' := if other.isNone then { p' with clearFrom := some (s.now .lam) } else p'
    let lone := s.rl L.PFW_STAT_DECLARED = 0 ∧ other.isNone
    .next ((if lone then s.il L.PFW_CNT_DISC else s).setPfw p')

/-- PFW_CLEAR (R467): both channels deasserted for CLEAR_MS. -/
def execPfwClear (s : State) : Out :=
  let p := s.lam.brd.pfw
  match p.clearFrom with
  | some t =>
    if s.rl L.PFW_STAT_DECLARED = 1 ∧ p.a = none ∧ p.b = none ∧ s.rl L.PFW_CFG_CLEAR_MS * 1000000 ≤ s.now .lam - t then
      .next (((s.wl L.PFW_STAT_DECLARED 0).recResume).boardEvent 2 0 0)
    else .next s
  | none => .next s

/-! ### Thermal trip and watchdog (R468, R469) -/

/-- An Ethernet link is up in domain D9 or D10. -/
def State.ethCarries (s : State) : Bool :=
  (List.range 24).any fun p => s.pdOn (if p < 12 then 9 else 10) && s.rl L.ETH_PORT_STAT_UP p == 1

/-- THERMAL_TRIP (R468): the hottest sensor reads temp, an s10 of 0.25 degrees; above 110 degrees the chip trips. -/
def execThermalTrip (temp : Nat) (s : State) : Out :=
  let s := s.wl L.LAM_TEMP temp
  if 440 < toS 10 temp ∧ s.lam.pins.thermTripN then
    let s := { s with lam := { s.lam with pins := { s.lam.pins with thermTripN := false } } }
    let s := (s.lamFault L.LAM_FAULT_THERM).recFault 3 (s.rl L.LAM_TEMP) 0
    let s := if s.ethCarries then s.boardEvent 3 (s.rl L.LAM_TEMP) 0 else s
    let s := ((List.range 20).drop 3).foldl (fun s n => if s.pdOn n then s.lamLose n else s) s
    .next (((s.wl L.PD_CTL 7).wl L.PD_STAT 7).wl L.PD_BUSY 0)
  else .next s

/-- CORE_WDOG (R469): a FAULT record with a flush now; the BOARD_EVENT follows after the restart. -/
def execCoreWdog (core : Nat) (s : State) : Out :=
  let s := (s.recFault 7 core 0).flushTry
  .next (s.setBrd { s.lam.brd with due := s.lam.brd.due ++ [(7, core, 0)] })

/-- Board events that waited for a restart leave once the node originates records. -/
def State.boardDue (s : State) : State :=
  if s.originates then
    s.lam.brd.due.foldl (fun s e => s.boardEvent e.1 e.2.1 e.2.2) (s.setBrd { s.lam.brd with due := [] })
  else s

end Sys2Proof.Machine
end

