-- ==== Sys2Proof/Machine/StcExec.lean ====
section
/-! DEFINITION. The stitch instructions (R406 to R416), one definition per opcode; RDW and PUTV are in StcReg. -/

namespace Sys2Proof.Machine

/-- Fields of an instruction word (R406). -/
def iOp (w : Nat) : Nat := bits w 26 6
def iD (w : Nat) : Nat := bits w 22 4
def iA (w : Nat) : Nat := bits w 18 4
def iB (w : Nat) : Nat := bits w 14 4
def imm18 (w : Nat) : Nat := bits w 0 18
def imm18S (w : Nat) : Int := toS 18 (bits w 0 18)
def imm22S (w : Nat) : Int := toS 22 (bits w 0 22)

/-- The word is an instruction of the place (R406 to R408, R410, R415, R420): no reserved opcode, no opcode of the
other place, no non-zero field that must be zero, and the operand ranges of WAITS and EMIT. -/
def stcWordOk (sd : Side) (w : Nat) : Bool :=
  let o := iOp w
  if o ≤ 0x01 then bits w 0 26 == 0
  else if o = 0x02 then true
  else if o = 0x03 then bits w 16 2 == 0
  else if o = 0x0D then true
  else if o ≤ 0x15 then bits w 0 14 == 0
  else if o ≤ 0x17 then imm18 w == 0
  else if o ≤ 0x1A then true
  else if o = 0x1B then iD w == 0
  else if o < 0x20 then false
  else if o ≤ 0x23 then true
  else if o = 0x24 then iD w == 0 && iA w == 0 && bits w 11 7 == 0 && decide (bits w 6 4 ≤ 10)
  else if o = 0x25 then iD w == 0 && imm18 w == 0
  else if o = 0x26 then sd == .itu && bits w 13 5 == 0
  else if o = 0x27 then sd == .lam
  else if o = 0x28 then true
  else if o = 0x29 then iA w == 0
  else if o = 0x2A then sd == .itu && iA w == 0 && bits w 7 11 == 0
  else if o = 0x2B then sd == .lam || bits w 12 6 == 0
  else if o = 0x2C then
    bits w 14 4 == 0 && decide (2 ≤ bits w 0 3) && decide (bits w 3 2 < 3) && decide (1 ≤ bits w 5 8) && decide (bits w 5 8 < 255)
  else false

/-- A context may issue: its place runs, it is in RUN (R404, R409). -/
def State.stcReady (s : State) (sd : Side) (c : Nat) : Bool :=
  decide (c < stcContexts sd) && s.stcOn sd && s.ctxState sd c == 1

/-- Context c issues the instruction at its PC where that has opcode op: counted, PC moved to the next word, its
effect f applied, and the context goes on (R406 to R409). A word that is no instruction faults BAD_INSTR. -/
def State.stcIssue (s : State) (sd : Side) (c op : Nat) (f : Nat → State → State) : State :=
  if !s.stcReady sd c then s else
  let w := s.stcWord sd c
  if !stcWordOk sd w then s.stcFault sd c 3 w
  else if iOp w ≠ op then s
  else
    let k := s.ctx sd c
    let s := (s.setCtx sd c { k with spent := k.spent + 1 }).ix sd I.STC_CNT_INSTR L.STC_CNT_INSTR c
    (f w (s.setPc sd c (k.pc + 1))).stcGoOn sd c

/-- An instruction of format R: xD := g xA xB. -/
def State.stcR (s : State) (sd : Side) (c op : Nat) (g : Nat → Nat → Nat) : State :=
  s.stcIssue sd c op fun w s => s.setX sd c (iD w) (g ((s.ctx sd c).reg (iA w)) ((s.ctx sd c).reg (iB w)))

/-- An FP32 instruction of format R on the low words (R407). -/
def State.stcF (s : State) (sd : Side) (c op : Nat) (g : Nat → Nat → Nat) : State :=
  s.stcR sd c op fun a b => g (a % 2 ^ 32) (b % 2 ^ 32)

/-- An instruction of format I: xD := g xA of the word. -/
def State.stcI (s : State) (sd : Side) (c op : Nat) (g : Nat → Nat → Nat) : State :=
  s.stcIssue sd c op fun w s => s.setX sd c (iD w) (g w ((s.ctx sd c).reg (iA w)))

/-- A jump to the instruction's own index plus off; a target outside the program faults PC_RANGE (R404). -/
def State.stcJump (s : State) (sd : Side) (c : Nat) (off : Int) : State :=
  let t : Int := (s.ctx sd c).pc - 1 + off
  if 0 ≤ t then s.setPc sd c t.toNat
  else
    let f := s.free
    (f.2.setPc sd c (ofS 14 t)).stcFault sd c 4 f.1

/-- A branch of format B: taken where g xA xB (R407). -/
def State.stcB (s : State) (sd : Side) (c op : Nat) (g : Nat → Nat → Bool) : State :=
  s.stcIssue sd c op fun w s =>
    if g ((s.ctx sd c).reg (iD w)) ((s.ctx sd c).reg (iA w)) then s.stcJump sd c (imm18S w) else s

/-- HALT (R407, R404 CAUSE 1). -/
def execHalt (sd : Side) (c : Nat) (s : State) : Out := .next (s.stcIssue sd c 0x00 fun _ s => s.stcStop sd c 1)

/-- NOP (R407). -/
def execNopInstr (sd : Side) (c : Nat) (s : State) : Out := .next (s.stcIssue sd c 0x01 fun _ s => s)

/-- LDI (R407): xD := sext(IMM22). -/
def execLdi (sd : Side) (c : Nat) (s : State) : Out :=
  .next (s.stcIssue sd c 0x02 fun w s => s.setX sd c (iD w) (ofS 64 (imm22S w)))

/-- LDH (R407): xD := (xA << 16) or IMM18[15:0]. -/
def execLdh (sd : Side) (c : Nat) (s : State) : Out := .next (s.stcI sd c 0x03 fun w a => (a <<< 16) % 2 ^ 64 ||| bits w 0 16)

/-- ADD (R407). -/
def execAdd (sd : Side) (c : Nat) (s : State) : Out := .next (s.stcR sd c 0x04 fun a b => (a + b) % 2 ^ 64)

/-- SUB (R407). -/
def execSub (sd : Side) (c : Nat) (s : State) : Out := .next (s.stcR sd c 0x05 fun a b => ofS 64 ((a : Int) - b))

/-- AND (R407). -/
def execAnd (sd : Side) (c : Nat) (s : State) : Out := .next (s.stcR sd c 0x06 fun a b => a &&& b)

/-- OR (R407). -/
def execOr (sd : Side) (c : Nat) (s : State) : Out := .next (s.stcR sd c 0x07 fun a b => a ||| b)

/-- XOR (R407). -/
def execXor (sd : Side) (c : Nat) (s : State) : Out := .next (s.stcR sd c 0x08 fun a b => a ^^^ b)

/-- SHL (R407): by xB[5:0]. -/
def execShl (sd : Side) (c : Nat) (s : State) : Out := .next (s.stcR sd c 0x09 fun a b => (a <<< (b % 64)) % 2 ^ 64)

/-- SHR (R407): logical. -/
def execShr (sd : Side) (c : Nat) (s : State) : Out := .next (s.stcR sd c 0x0A fun a b => a >>> (b % 64))

/-- SRA (R407): arithmetic. -/
def execSra (sd : Side) (c : Nat) (s : State) : Out := .next (s.stcR sd c 0x0B fun a b => ofS 64 (sar (toS 64 a) (b % 64)))

/-- MUL (R407): low 64 bits. -/
def execMul (sd : Side) (c : Nat) (s : State) : Out := .next (s.stcR sd c 0x0C fun a b => a * b % 2 ^ 64)

/-- ADDI (R407). -/
def execAddi (sd : Side) (c : Nat) (s : State) : Out := .next (s.stcI sd c 0x0D fun w a => ofS 64 ((a : Int) + imm18S w))

/-- SLT (R407): signed. -/
def execSlt (sd : Side) (c : Nat) (s : State) : Out := .next (s.stcR sd c 0x0E fun a b => b2n (decide (toS 64 a < toS 64 b)))

/-- SLTU (R407). -/
def execSltu (sd : Side) (c : Nat) (s : State) : Out := .next (s.stcR sd c 0x0F fun a b => b2n (decide (a < b)))

/-- FADD (R407). -/
def execFadd (sd : Side) (c : Nat) (s : State) : Out := .next (s.stcF sd c 0x10 f32.add)

/-- FSUB (R407). -/
def execFsub (sd : Side) (c : Nat) (s : State) : Out := .next (s.stcF sd c 0x11 f32.sub)

/-- FMUL (R407). -/
def execFmul (sd : Side) (c : Nat) (s : State) : Out := .next (s.stcF sd c 0x12 f32.mul)

/-- FDIV (R407). -/
def execFdiv (sd : Side) (c : Nat) (s : State) : Out := .next (s.stcF sd c 0x13 f32.div)

/-- FMIN (R407). -/
def execFmin (sd : Side) (c : Nat) (s : State) : Out := .next (s.stcF sd c 0x14 f32.minNum)

/-- FMAX (R407). -/
def execFmax (sd : Side) (c : Nat) (s : State) : Out := .next (s.stcF sd c 0x15 f32.maxNum)

/-- FCVT (R407): FP32 of s64 xA. -/
def execFcvt (sd : Side) (c : Nat) (s : State) : Out := .next (s.stcI sd c 0x16 fun _ a => f32.ofInt (toS 64 a))

/-- FTOI (R407): s64 of FP32 xA. -/
def execFtoi (sd : Side) (c : Nat) (s : State) : Out := .next (s.stcI sd c 0x17 fun _ a => ofS 64 (f32.toInt64 (a % 2 ^ 32)))

/-- BEQ (R407). -/
def execBeq (sd : Side) (c : Nat) (s : State) : Out := .next (s.stcB sd c 0x18 fun a b => a == b)

/-- BNE (R407). -/
def execBne (sd : Side) (c : Nat) (s : State) : Out := .next (s.stcB sd c 0x19 fun a b => a != b)

/-- BLT (R407): signed. -/
def execBlt (sd : Side) (c : Nat) (s : State) : Out := .next (s.stcB sd c 0x1A fun a b => decide (toS 64 a < toS 64 b))

/-- JMP (R407). -/
def execJmp (sd : Side) (c : Nat) (s : State) : Out := .next (s.stcIssue sd c 0x1B fun w s => s.stcJump sd c (imm22S w))

/-- Local memory address of LD and ST: xA + sext(IMM18). -/
def State.stcAddr (s : State) (sd : Side) (c w : Nat) : Nat := ofS 64 (((s.ctx sd c).reg (iA w) : Int) + imm18S w)

/-- A fault of the instruction just issued: PC names it again. -/
def State.stcTrap (s : State) (sd : Side) (c cause w : Nat) : State :=
  (s.setPc sd c ((s.ctx sd c).pc - 1)).stcFault sd c cause w

/-- A word of a context's local memory. -/
def State.stcMemAt (s : State) (sd : Side) (c a : Nat) : Nat := Sparse.get 0 (s.stc sd).mem (8192 * c + a)

/-- A word of a context's local memory written. -/
def State.setStcMem (s : State) (sd : Side) (c a v : Nat) : State :=
  s.setStc sd { s.stc sd with mem := Sparse.set 0 (s.stc sd).mem (8192 * c + a) (v % 2 ^ 64) }

/-- LD (R407): outside the local memory MEM_RANGE. -/
def execLd (sd : Side) (c : Nat) (s : State) : Out :=
  .next (s.stcIssue sd c 0x20 fun w s =>
    let a := s.stcAddr sd c w
    if a < stcMem sd then s.setX sd c (iD w) (s.stcMemAt sd c a) else s.stcTrap sd c 5 w)

/-- ST (R407). -/
def execSt (sd : Side) (c : Nat) (s : State) : Out :=
  .next (s.stcIssue sd c 0x21 fun w s =>
    let a := s.stcAddr sd c w
    if a < stcMem sd then s.setStcMem sd c a ((s.ctx sd c).reg (iD w)) else s.stcTrap sd c 5 w)

/-- The slot that SRD and SWR name: xA + IMM18. Which slot a number beyond the part's slots reaches is a free value
(log entry 26). -/
def State.stcSlotNo (s : State) (sd : Side) (c w : Nat) : Nat × State :=
  let n := ((s.ctx sd c).reg (iA w) + imm18 w) % 2 ^ 64
  if n < stcSlots sd then (n, s) else (s.free.1 % stcSlots sd, s.free.2)

/-- A context stalls on a slot (R412). -/
def State.stcStall (s : State) (sd : Side) (c : Nat) (wt : StcWait) : State :=
  let s := s.setStc sd { s.stc sd with stalled := (s.stc sd).stalled.filter (· != c) ++ [c] }
  (s.setCtx sd c { s.ctx sd c with wait := wt, since := s.now sd }).setCtxState sd c 4

/-- SRD (R412). -/
def execSrd (sd : Side) (c : Nat) (s : State) : Out :=
  .next (s.stcIssue sd c 0x22 fun w s =>
    let n := s.stcSlotNo sd c w
    (n.2.stcStall sd c (.read n.1 (iD w))).stcSettle sd)

/-- SWR (R412): a full lossy slot drops the value. -/
def execSwr (sd : Side) (c : Nat) (s : State) : Out :=
  .next (s.stcIssue sd c 0x23 fun w s =>
    let n := s.stcSlotNo sd c w
    if n.2.slotFull sd n.1 && n.2.rx sd I.SLOT_CFG_LOSSY L.SLOT_CFG_LOSSY n.1 == 1 then
      ((n.2.ix sd I.SLOT_CNT_DROP L.SLOT_CNT_DROP).ix sd I.STC_CNT_FULL L.STC_CNT_FULL c).setLast sd c 3
    else (n.2.stcStall sd c (.write n.1 ((s.ctx sd c).reg (iD w)))).stcSettle sd)

/-- WAITS (R410). -/
def execWaits (sd : Side) (c : Nat) (s : State) : Out :=
  .next (s.stcIssue sd c 0x24 fun w s =>
    (s.setCtx sd c { s.ctx sd c with wait := .slot (bits w 0 6) (bits w 6 4) (bitAt w 10) none, since := s.now sd }).setCtxState
      sd c 2)

/-- WAITT (R411): a target in the past completes LATE, one over 1 s ahead WAIT_TO. -/
def execWaitt (sd : Side) (c : Nat) (s : State) : Out :=
  .next (s.stcIssue sd c 0x25 fun w s =>
    let t := (s.ctx sd c).reg (iA w)
    if t < s.now sd then s.setLast sd c 5
    else if s.now sd + 1000000000 < t then s.setLast sd c 4
    else if t = s.now sd then s.setLast sd c 0
    else (s.setCtx sd c { s.ctx sd c with wait := .time t, since := s.now sd }).setCtxState sd c 3)

/-- What RDC reads (R408): the live value, or the copy of the block's last latch with bit 63 where there is none. -/
def State.rdc (s : State) (i : Nat) (live : Bool) : Nat :=
  if live then Sparse.get 0 s.itu.smp.vals i
  else if (s.blk (i / 256)).copied then Sparse.get 0 s.itu.smp.copies i
  else Sparse.get 0 s.itu.smp.copies i ||| 2 ^ 63

/-- RDC (R408), in an ITU. -/
def execRdc (c : Nat) (s : State) : Out :=
  .next (s.stcIssue .itu c 0x26 fun w s =>
    s.setX .itu c (iD w) (s.rdc (((s.ctx .itu c).reg (iA w) + bits w 0 12) % 4096) (bitAt w 12)))

/-- RDT (R407, R115), in a Lamulo: a word of a tracker in use, else 0. Words 96 to 127 are free values (log
entry 27). -/
def execRdt (c : Nat) (s : State) : Out :=
  .next (s.stcIssue .lam c 0x27 fun w s =>
    let i := (s.ctx .lam c).reg (iA w)
    let n := bits w 0 7
    if 96 ≤ n then s.free.2.setX .lam c (iD w) (s.free.1 % 2 ^ 32)
    else
      let t := if i < 2 ^ 21 ∧ s.trkInUse i then nth (s.trkSnapCopy i).lam.trkSnap n else 0
      s.setX .lam c (iD w) t)

/-- System value k of context c (R408). -/
def State.sysValue (s : State) (sd : Side) (c k : Nat) : Nat :=
  let x := s.ctx sd c
  let la := x.latch.getD (0, 0, 0)
  match k with
  | 0 => s.now sd
  | 1 => la.1
  | 2 => la.2.1
  | 3 => la.2.2
  | 4 => s.mc sd
  | 5 => if sd = .itu then s.ri I.PART_STAT_GEN (s.owner c) else 0
  | 6 => c
  | 7 => s.rx sd I.STC_CTX_STAT_LAST L.STC_CTX_STAT_LAST c
  | 8 => s.rx sd I.CUFF_EPOCH L.CFG_EPOCH
  | _ => 0

/-- SYS (R408). -/
def execSys (sd : Side) (c : Nat) (s : State) : Out :=
  .next (s.stcIssue sd c 0x29 fun w s => s.setX sd c (iD w) (s.sysValue sd c (bits w 0 4)))

/-! ### CRC units (R177, R178, R192) -/

/-- Running value of ITU CRC unit u. -/
def State.crcVal (s : State) (u : Nat) : Nat := s.ri I.CRC_VAL_HI u * 2 ^ 32 + s.ri I.CRC_VAL_LO u

/-- Running value set. -/
def State.setCrcVal (s : State) (u v : Nat) : State := (s.wi I.CRC_VAL_LO (v % 2 ^ 32) u).wi I.CRC_VAL_HI (v / 2 ^ 32) u

/-- CRC_SEL written: the initial value of the algorithm is loaded (R178). -/
def State.crcSel (s : State) (u v : Nat) : State := (s.wi I.CRC_SEL v u).setCrcVal u (crcInit (v % 4))

/-- Bytes fed to a unit (R178). -/
def State.crcPut (s : State) (u : Nat) (bs : List Nat) : State := s.setCrcVal u (crcFeed (s.ri I.CRC_SEL u) (s.crcVal u) bs)

/-- CRC_RESULT of a unit. -/
def State.crcResult (s : State) (u : Nat) : Nat :=
  let sel := s.ri I.CRC_SEL u
  (s.crcVal u ^^^ crcXor sel) % 2 ^ crcWidth sel

/-- CRC (R408), in an ITU. -/
def execCrc (c : Nat) (s : State) : Out :=
  .next (s.stcIssue .itu c 0x2A fun w s =>
    let u := bits w 0 2
    let d := (s.ctx .itu c).reg (iD w)
    if bitAt w 6 then s.crcSel u (d % 4)
    else if bitAt w 5 then s.setX .itu c (iD w) (s.crcResult u)
    else s.crcPut u (leBytes (bits w 2 3 + 1) d))

/-! ### Records -/

/-- A record of an ITU context (R405, R416): the context's status. -/
def State.stcOffer (s : State) (c : Nat) (r : Rec) : State :=
  let o := s.ituOffer r
  if o.2 = St.ok then (o.1.setLast .itu c 0).ii I.STC_CNT_EMIT 1 c
  else if o.2 = St.queueFull then o.1.setLast .itu c 7
  else (o.1.setLast .itu c 6).ii I.STC_CNT_REFUSED 1 c

/-- n words of local memory from word a on, as 32-bit words; a word beyond the local memory is a free value (log
entry 28). -/
def State.emitWords (s : State) (sd : Side) (c a : Nat) : Nat → List Nat × State
  | 0 => ([], s)
  | n + 1 =>
    let v := if a < stcMem sd then (s.stcMemAt sd c a, s) else (s.free.1 % 2 ^ 64, s.free.2)
    let r := State.emitWords v.2 sd c ((a + 1) % 2 ^ 64) n
    (v.1 % 2 ^ 32 :: v.1 / 2 ^ 32 :: r.1, r.2)

/-- EMIT (R415, R416). -/
def execEmit (sd : Side) (c : Nat) (s : State) : Out :=
  .next (s.stcIssue sd c 0x2C fun w s =>
    let cls := bits w 3 2
    let typ := 0x0F0 + bits w 0 3
    let sh := short (if bitAt w 13 then ((s.ctx sd c).latch.getD (0, 0, 0)).1 else s.now sd)
    match sd with
    | .itu =>
      if s.ri I.PART_STAT_CUFF (s.owner c) = 1 then s.setLast .itu c 11 else
      let b := s.emitWords .itu c ((s.ctx .itu c).reg (iA w)) (2 * bits w 5 8)
      b.2.stcOffer c (b.2.ituRec cls typ (s.owner c) sh b.1)
    | .lam =>
      let b := s.emitWords .lam c ((s.ctx .lam c).reg (iA w)) (2 * bits w 5 8)
      let r := b.2.lamRec cls typ b.2.nodeId (b.2.rl L.STAT_NODE_GEN) sh b.1
      if r.2 then (r.1.setLast .lam c 0).il L.STC_CNT_EMIT 1 c
      else (r.1.setLast .lam c 6).il L.STC_CNT_REFUSED 1 c)

end Sys2Proof.Machine
end

