-- ==== Sys2Proof/Machine/LinkTime.lean ====
section
/-! DEFINITION. Time messages (R179 to R182), margins (R188), rehearsed faults (R189, R190) and CRC units (R177,
R178) of the links. -/

namespace Sys2Proof.Machine

/-! ### Time exchange -/

/-- Port q of a Tray is in UP. -/
def State.txOk (s : State) (q : Nat) : Bool := s.lkEnd .lam q && s.portUp q

/-- A TIME cell is due at a link end. -/
def State.timeDue (s : State) (sd : Side) (q : Nat) (body : List Nat) : State :=
  let e := s.le sd q
  s.setLe sd q { e with timeCell := some (cellOctets e.chk (cellHdr 7 127 0) body) }

/-- A time in 2^-16 ns as the octets of a TIME cell hold it: u64 ns, u16 fraction. -/
def tsOctets (v : Nat) : List Nat := leBytes 8 (v / 65536) ++ leBytes 2 (v % 65536)

/-- TIME_SYNC_TX (R181): t, f is the transmit capture at lane 0, corrected by IKL_LAT_TX (R180). -/
def execTimeSyncTx (q t f : Nat) (s : State) : Out :=
  let p := s.port q
  let due := match p.exchAt with | some a => decide (s.rl L.IKL_TIME_PERIOD q ≤ s.now .lam - a) | none => true
  if s.txOk q && due then
    let x := (p.exch + 1) % 256
    let t1 := qts t f + s.rl L.IKL_LAT_TX q
    let s := s.setPort q { p with exch := x, exchAt := some (s.now .lam), exchs := p.exchs ++ [(x, s.now .lam)] }
    .next (s.timeDue .lam q ([1, x, 0, 0] ++ tsOctets t1 ++ [0, 0] ++ leBytes 4 (s.rl L.IKL_TIME_ASYM q) ++
      leBytes 4 (s.rl L.IKL_TIME_PERIOD q)))
  else .next s

/-- TIME_SYNC_RX (R181): the ITU keeps t1, t2 and asym, and sends a DREQ that leaves at t3. In settling the message
is discarded (R58, R183). -/
def execTimeSyncRx (exch t1 f1 asym t2 f2 t3 f3 : Nat) (s : State) : Out :=
  if s.ri I.ILNK_STAT_SETTLING = 1 then .next (s.ii I.ITIME_CNT_SETTLE)
  else if s.ri I.ILNK_STAT_STATE ≠ 4 then .next s
  else
    let x : Exch := { exch := exch % 256, t1 := t1, f1 := f1, t2 := t2, f2 := f2, t3 := t3, f3 := f3, asym := asym,
                      tick2 := s.itu.clk.ticks, at0 := s.now .itu }
    let s := { s with itu := { s.itu with exchs := s.itu.exchs ++ [x] } }
    .next (s.timeDue .itu 0 [2, exch % 256])

/-- TIME_DREQ_RX (R181): the DREQ's receive capture, corrected by IKL_LAT_RX (R180), goes back in a DRESP. -/
def execTimeDreqRx (q exch t4 f4 : Nat) (s : State) : Out :=
  let p := s.port q
  match p.exchs.find? (fun x => x.1 == exch % 256) with
  | some x =>
    if s.txOk q then
      let v := ofS 64 ((qts t4 f4 : Int) - s.rl L.IKL_LAT_RX q)
      let s := s.setPort q { p with exchs := p.exchs.filter (fun y => y.1 != x.1) }
      .next (s.timeDue .lam q ([3, exch % 256, 0, 0] ++ tsOctets v))
    else .next s
  | none => .next s

/-- The measurement that a complete exchange makes (R50, R181). -/
def Exch.meas (x : Exch) (t4 f4 : Nat) : Meas :=
  { q1 := qts x.t1 x.f1, q2 := qts x.t2 x.f2, q3 := qts x.t3 x.f3, q4 := qts t4 f4, cms := 0, csm := 0,
    asym := toS 32 x.asym, link := none, tick2 := x.tick2 }

/-- TIME_DRESP_RX (R181): the ITU holds t1 to t4 of one EXCH, not yet void, and runs the servo. -/
def execTimeDrespRx (exch t4 f4 : Nat) (s : State) : Out :=
  if s.ri I.ILNK_STAT_SETTLING = 1 then .next (s.ii I.ITIME_CNT_SETTLE)
  else if s.ri I.ILNK_STAT_STATE ≠ 4 then .next s
  else
    match s.itu.exchs.find? (fun x => x.exch == exch % 256 && decide (s.now .itu - x.at0 < 200000)) with
    | some x =>
      let s := { s with itu := { s.itu with exchs := s.itu.exchs.filter (fun y => y.exch != x.exch) } }
      .next ((s.measure .itu 0 (x.meas t4 f4)).after .itu)
    | none => .next s

/-- TIME_EXCHANGE_VOID (R181). -/
def execTimeExchangeVoid (sd : Side) (q : Nat) (s : State) : Out :=
  match sd with
  | .itu =>
    let old := fun (x : Exch) => decide (200000 ≤ s.now .itu - x.at0)
    .next (({ s with itu := { s.itu with exchs := s.itu.exchs.filter (fun x => !old x) } } : State).ii I.ILNK_CNT_TIME_LOST
      (s.itu.exchs.filter old).length)
  | .lam =>
    let p := s.port q
    let old := fun (x : Nat × Nat) => decide (200000 ≤ s.now .lam - x.2)
    if s.lkEnd .lam q then
      .next ((s.setPort q { p with exchs := p.exchs.filter (fun x => !old x) }).il L.LNK_CNT_TIME_LOST (p.exchs.filter old).length q)
    else .next s

/-! ### Margins -/

/-- One lane's eye of one end (0 Lamulo, 1 ITU): a first fall below the minimum emits MARGIN (R188). -/
def State.marginLane (s : State) (q l fin h w : Nat) : State :=
  let mh := s.rl L.LNK_MARGIN_MIN_H q
  let mw := s.rl L.LNK_MARGIN_MIN_W q
  let p := s.port q
  let said := p.lowEye.contains (l, fin)
  if h < mh ∨ w < mw then
    if said then s
    else (s.setPort q { p with lowEye := p.lowEye ++ [(l, fin)] }).lamEmit 3 0x052 (s.now .lam)
      [l ||| fin <<< 1 ||| h % 256 <<< 2 ||| w % 64 <<< 10, s.mc32 .lam, 0, 0]
  else if mh < h ∧ mw < w then s.setPort q { p with lowEye := p.lowEye.filter (fun x => x != (l, fin)) }
  else s

/-- MARGIN_SWEEP (R188): eye height and width per lane of the Lamulo's receivers and of the ITU's, every
LNK_MARGIN_PERIOD. -/
def execMarginSweep (q : Nat) (own peer : List (Nat × Nat)) (s : State) : Out :=
  let p := s.port q
  if s.txOk q && decide (s.rl L.LNK_MARGIN_PERIOD q * 1000000 ≤ s.now .lam - p.marginAt) then
    let s := s.setPort q { p with marginAt := s.now .lam }
    .next ([0, 1].foldl (fun s l =>
      let a := own.getD l (0, 0)
      let b := peer.getD l (0, 0)
      let s := (s.wi I.ILNK_EYE_H b.1 l).wi I.ILNK_EYE_W b.2 l
      let s := (s.wl L.LNK_EYE_H_LOCAL a.1 q l).wl L.LNK_EYE_W_LOCAL a.2 q l
      let s := (s.wl L.LNK_EYE_H_PEER b.1 q l).wl L.LNK_EYE_W_PEER b.2 q l
      (s.marginLane q l 0 a.1 a.2).marginLane q l 1 b.1 b.2) s)
  else .next s

/-! ### Rehearsed faults -/

/-- The next port in ascending order, after the last one injected, with INJ_EN = 1. -/
def State.injNext (s : State) : Option Nat :=
  ((List.range 16).map fun i => (s.lam.injPort + 1 + i) % 16).find? fun q => s.rl L.LNK_CTL_INJ_EN q == 1

/-- R190: the injection is skipped. -/
def State.injSkip (s : State) (q : Nat) (testing : List Nat) : Bool :=
  ((List.range 16).any fun p => s.rl L.LNK_STAT_PORT p != 2) || s.conservative .lam || testing.contains q

/-- The fault of KIND on port q (R189). -/
def State.inject (s : State) (q kind : Nat) : State :=
  let e := s.le .lam q
  let dur := s.rl L.INJ_DUR_US
  match kind with
  | 1 => s.setLe .lam q { e with corrupt := true }
  | 2 => s.setLe .lam q { e with withhold := some (s.now .lam + min dur 1000 * 1000) }
  | 3 => s.setLe .lam q { e with squelch := some (s.now .lam + dur * 1000), injected := true }
  | _ => s

/-- FAULT_INJECTION (R189, R190): testing names the ports whose die has a self-test slice scheduled in this MC. -/
def execFaultInjection (testing : List Nat) (s : State) : Out :=
  let n := s.rl L.INJ_CFG_PERIOD_MC
  let k := s.mc .lam
  if s.role = 0 ∧ 0 < n ∧ s.rl L.INJ_CFG_KIND ≠ 0 ∧ s.slotsOk .lam ∧ k % n = 0 ∧
      s.lam.mains.slot = s.rl L.INJ_CFG_SLOT + 1 ∧ s.lam.injMc ≠ some k then
    match s.injNext with
    | none => .next s
    | some q =>
      let s' := { s with lam := { s.lam with injPort := q, injMc := some k } }
      if s.injSkip q testing then .next (s'.il L.INJ_CNT_SKIPPED)
      else .next ((s'.inject q (s.rl L.INJ_CFG_KIND)).il L.INJ_CNT_DONE)
  else .next s

/-- INJECTION_END (R189): credit held back is announced, a squelched lane transmits again. -/
def execInjectionEnd (q : Nat) (s : State) : Out :=
  let e := s.le .lam q
  let past := fun (o : Option Nat) => match o with | some t => decide (t ≤ s.now .lam) | none => false
  if q < 16 then
    let e := if past e.withhold then { e with withhold := none, rx := e.rx.map fun r => { r with due := true } } else e
    let e := if past e.squelch then { e with squelch := none } else e
    .next (s.setLe .lam q e)
  else .next s

/-! ### CRC units -/

/-- CRC_VAL of port q's unit. -/
def State.lcrcVal (s : State) (q : Nat) : Nat := s.rl L.CRC_VAL_LO q + 2 ^ 32 * s.rl L.CRC_VAL_HI q

/-- CRC_VAL of port q's unit set, within the width of its algorithm (R178). -/
def State.setLcrcVal (s : State) (q v : Nat) : State :=
  let v := v % 2 ^ crcWidth (s.rl L.CRC_SEL q)
  (s.wl L.CRC_VAL_LO (v % 2 ^ 32) q).wl L.CRC_VAL_HI (v / 2 ^ 32) q

/-- A write of CRC_SEL (R178). -/
def State.crcSelW (s : State) (sd : Side) (u v : Nat) : State :=
  match sd with
  | .itu => s.crcSel u (v % 4)
  | .lam => (s.wl L.CRC_SEL (v % 4) u).setLcrcVal u (crcInit (v % 4))

/-- The bytes of a word whose strobes are set, byte 0 first. -/
def strobed (data strb : Nat) : List Nat :=
  ((List.range 4).filter (bitAt strb)).map fun i => bits data (8 * i) 8

/-- A write of CRC_DATA (R178). -/
def State.crcDataW (s : State) (sd : Side) (u data strb : Nat) : State :=
  match sd with
  | .itu => s.crcPut u (strobed data strb)
  | .lam => s.setLcrcVal u (crcFeed (s.rl L.CRC_SEL u) (s.lcrcVal u) (strobed data strb))

/-- Byte offset of a field of CRC unit u. -/
def crcAddr (sd : Side) (Fi Fl : Fld) (u : Nat) : Nat :=
  match sd with | .itu => Fi.addr + Fi.s1 * u | .lam => Fl.addr + Fl.s1 * u

/-- Number of CRC units: four at the ITU, one per port block of a Lamulo (R177). -/
def crcUnits : Side → Nat
  | .itu => 4
  | .lam => 16

/-- CRC_SEL_WRITE (R178). -/
def execCrcSelWrite (sd : Side) (iss : Issuer) (u v : Nat) (s : State) : Out :=
  let g := s.guard sd iss (crcAddr sd I.CRC_SEL L.CRC_SEL u) true 0
  if g.2 && decide (u < crcUnits sd) then .next (g.1.crcSelW sd u v) else .next g.1

/-- CRC_DATA_WRITE (R178). -/
def execCrcDataWrite (sd : Side) (iss : Issuer) (u data strb : Nat) (s : State) : Out :=
  let g := s.guard sd iss (crcAddr sd I.CRC_DATA L.CRC_DATA u) true 0
  if g.2 && decide (u < crcUnits sd) then .next (g.1.crcDataW sd u data strb) else .next g.1

end Sys2Proof.Machine
end

