-- ==== Sys2Proof/Machine/StcLoad.lean ====
section
/-! DEFINITION. Loading and controlling stitch contexts (R404, R413, R418 to R421, R424). -/

namespace Sys2Proof.Machine

/-- Statuses of the stitch commands. -/
def St.stcDisabled : Nat := 0xC0
def St.stcRunning : Nat := 0xC1
def St.stcBadImage : Nat := 0xC2
def St.stcSigKey : Nat := 0xC3
def St.stcSigFail : Nat := 0xC4
def St.stcBadInstr : Nat := 0xC5
def St.stcNoRoom : Nat := 0xC6
def St.stcNoProgram : Nat := 0xC7
def St.stcSlotEmpty : Nat := 0xC8
def St.stcSlotFull : Nat := 0xC9

/-- STC_STORE_BASE. -/
def State.stcBase (s : State) : Nat := s.rl L.STC_STORE_BASE_HI * 2 ^ 32 + s.rl L.STC_STORE_BASE_LO

/-- Part named by a command's place bit. -/
def stcPlace (isLam : Bool) : Side := if isLam then .lam else .itu

/-- An image as bytes with its header fields (R418). -/
structure StcImage where
  words : List Nat
  nInstr : Nat
  nData : Nat
  entry : Nat
  budget : Nat
  prog : Nat
  /-- bytes before the signature block -/
  size : Nat
deriving DecidableEq, Repr

/-- v rounded up to a multiple of 64. -/
def up64 (v : Nat) : Nat := ceilDiv v 64 * 64

/-- The image whose bytes start at a DDR address. -/
def State.stcImage (s : State) (a : Nat) : StcImage :=
  let h := s.ddrWords a 16
  let ni := bits (nth h 3) 0 15
  let nd := bits (nth h 4) 0 14
  let size := up64 (64 + 4 * ni) + up64 (8 * nd)
  { words := h, nInstr := ni, nData := nd, entry := bits (nth h 5) 0 14, budget := bits (nth h 6) 0 16,
    prog := bits (nth h 2) 0 16, size := size }

/-- Magic, format, sizes and store bounds of an image (R418, STC_BAD_IMAGE). -/
def StcImage.ok (m : StcImage) (sd : Side) (off : Nat) : Bool :=
  let w := nth m.words
  w 0 == 0x49545356 && bits (w 1) 0 8 == 1 && bits (w 1) 8 1 == (match sd with | .itu => 0 | .lam => 1) && w 1 / 512 == 0 &&
    decide (1 ≤ m.nInstr) && decide (m.nInstr ≤ stcStore sd) && w 3 / 2 ^ 15 == 0 && decide (m.nData ≤ stcMem sd) &&
    w 4 / 2 ^ 14 == 0 && decide (m.entry < m.nInstr) && w 5 / 2 ^ 14 == 0 && decide (256 ≤ m.budget) && w 6 / 2 ^ 16 == 0 &&
    (m.words.drop 7).all (· == 0) && decide (off + m.size + 128 ≤ 16777216)

/-- Instruction i of n is accepted at load (R420): well formed, and a branch or JMP stays inside. -/
def stcLoadOk (sd : Side) (n i w : Nat) : Bool :=
  stcWordOk sd w &&
    (let o := iOp w
     let t : Int := i + (if o = 0x1B then imm22S w else imm18S w)
     if (0x18 ≤ o && o ≤ 0x1B) then decide (0 ≤ t) && decide (t < n) else true)

/-- Every instruction of a program is accepted, from index i on. -/
def stcProgOk (sd : Side) (n : Nat) : Nat → List Nat → Bool
  | _, [] => true
  | i, w :: ws => stcLoadOk sd n i w && stcProgOk sd n (i + 1) ws

/-- N_INSTR above LEN, or the region overlaps that of another loaded context (STC_NO_ROOM). -/
def State.stcNoRoom (s : State) (sd : Side) (c n : Nat) : Bool :=
  let base := fun k => s.rx sd I.STC_CTX_CFG_BASE L.STC_CTX_CFG_BASE k
  decide (s.rx sd I.STC_CTX_CFG_LEN L.STC_CTX_CFG_LEN c < n) || decide (stcStore sd < base c + n) ||
    (List.range (stcContexts sd)).any fun k =>
      k != c && s.rx sd I.STC_CTX_STAT_LOADED L.STC_CTX_STAT_LOADED k == 1 &&
        decide (base c < base k + (s.ctx sd k).nInstr) && decide (base k < base c + n)

/-- A list of values laid into a sparse store from key a on. -/
def sparsePut (m : List (Nat × Nat)) (a : Nat) : List Nat → List (Nat × Nat)
  | [] => m
  | v :: vs => sparsePut (Sparse.set 0 m a v) (a + 1) vs

/-- 64-bit words from 32-bit words. -/
def pairWords : List Nat → List Nat
  | a :: b :: r => (a + 2 ^ 32 * b) :: pairWords r
  | _ => []

/-- STITCH_START (R404): PC at ENTRY, x1 to x15, LATCH and status cleared, local memory kept. -/
def State.stcStart (s : State) (sd : Side) (c : Nat) : State :=
  let s := s.unwait sd c
  let k := s.ctx sd c
  let s := s.setCtx sd c { nInstr := k.nInstr, entry := k.entry, held := k.held, spent := k.spent, refillAt := k.refillAt }
  (((s.setPc sd c k.entry).setLast sd c 0).setCtxState sd c 1).stcGoOn sd c

/-- A verified image loaded into a context (R419). -/
def State.stcInstall (s : State) (sd : Side) (c a : Nat) (m : StcImage) : State :=
  let prog := s.ddrWords (a + 64) m.nInstr
  let data := pairWords (s.ddrWords (a + up64 (64 + 4 * m.nInstr)) (2 * m.nData))
  let t := s.stc sd
  let mem := t.mem.filter fun p => !(decide (8192 * c ≤ p.1) && decide (p.1 < 8192 * (c + 1)))
  let s := s.setStc sd { t with store := sparsePut t.store (s.rx sd I.STC_CTX_CFG_BASE L.STC_CTX_CFG_BASE c) prog,
                                mem := sparsePut mem (8192 * c) data }
  let s := s.setCtx sd c { s.ctx sd c with nInstr := m.nInstr, entry := m.entry }
  let s := (s.wx sd I.STC_CTX_STAT_LOADED L.STC_CTX_STAT_LOADED 1 c).wx sd I.STC_CTX_PROG L.STC_CTX_PROG m.prog c
  let s := (s.wx sd I.STC_CTX_BUDGET L.STC_CTX_BUDGET m.budget c).wx sd I.STC_CTX_STAT_CAUSE L.STC_CTX_STAT_CAUSE 0 c
  s.setCtxState sd c 0

/-- STITCH_LOAD (R419): the checks of the status table in order. The image is in this Lamulo's store; an ITU context
is one of the die that the command addresses, the ITU of the model (log entry 2). -/
def State.opStitchLoad (s : State) (sd : Side) (c : Nat) (start : Bool) (off : Nat) : State × CmdRes :=
  let a := s.stcBase + off
  let m := s.stcImage a
  let st := s.ctxState sd c
  let sb := s.lam.ddr.read ddrDefault (a + m.size) 128
  if sd = .itu ∧ !s.ipdOn 4 then (s, { status := St.domainOff })
  else if !s.stcOn sd ∨ stcContexts sd ≤ c then (s, { status := St.stcDisabled })
  else if st ≠ 0 ∧ st ≠ 6 then (s, { status := St.stcRunning })
  else if !m.ok sd off then (s, { status := St.stcBadImage })
  else match s.sigCheck 20 sb (s.lam.ddr.read ddrDefault a m.size) with
    | .key => (s, { status := St.stcSigKey })
    | .fail => (s, { status := St.stcSigFail })
    | .ok =>
      if !stcProgOk sd m.nInstr 0 (s.ddrWords (a + 64) m.nInstr) then (s, { status := St.stcBadInstr })
      else if s.stcNoRoom sd c m.nInstr then (s, { status := St.stcNoRoom })
      else
        let s := s.stcInstall sd c a m
        (if start then s.stcStart sd c else s, {})

/-- STITCH_LOAD (R419, opcode 0x49). -/
def execStitchLoad (h : CmdHdr) (c : Nat) (isLam start : Bool) (off : Nat) (s : State) : Out :=
  .next (s.cmdLam { h with opcode := 0x49 } fun s => s.opStitchLoad (stcPlace isLam) (c % 32) start off)

/-- STITCH_PUT (R419): bytes into the 16 MiB image store. -/
def State.opStitchPut (s : State) (off : Nat) (bs : List Nat) : State × CmdRes :=
  if 16777216 < off + bs.length then (s, { status := St.badParam }) else (s.ddrPut (s.stcBase + off) bs, {})

/-- STITCH_PUT (R419, opcode 0x48). -/
def execStitchPut (h : CmdHdr) (off : Nat) (bs : List Nat) (s : State) : Out :=
  .next (s.cmdLam { h with opcode := 0x48 } fun s => s.opStitchPut off (bs.map (· % 256)))

/-- STITCH_START (R404). -/
def State.opStitchStart (s : State) (sd : Side) (c : Nat) : State × CmdRes :=
  if sd = .itu ∧ !s.ipdOn 4 then (s, { status := St.domainOff })
  else if !s.stcOn sd ∨ stcContexts sd ≤ c then (s, { status := St.stcDisabled })
  else if s.rx sd I.STC_CTX_STAT_LOADED L.STC_CTX_STAT_LOADED c = 0 then (s, { status := St.stcNoProgram })
  else (s.stcStart sd c, {})

/-- STITCH_STOP (R404, cause STOP). -/
def State.opStitchStop (s : State) (sd : Side) (c : Nat) : State × CmdRes :=
  if sd = .itu ∧ !s.ipdOn 4 then (s, { status := St.domainOff })
  else if !s.stcOn sd ∨ stcContexts sd ≤ c then (s, { status := St.stcDisabled })
  else (s.stcStop sd c 2, {})

/-- STC_CTX_STAT as RESULT (R420). -/
def State.ctxStat (s : State) (sd : Side) (c : Nat) : Nat :=
  s.ctxState sd c ||| s.rx sd I.STC_CTX_STAT_LOADED L.STC_CTX_STAT_LOADED c <<< 3 |||
    s.rx sd I.STC_CTX_STAT_CAUSE L.STC_CTX_STAT_CAUSE c <<< 4 ||| s.rx sd I.STC_CTX_STAT_LAST L.STC_CTX_STAT_LAST c <<< 8

/-- STITCH_QUERY. -/
def State.opStitchQuery (s : State) (sd : Side) (c : Nat) : State × CmdRes :=
  if sd = .itu ∧ !s.ipdOn 4 then (s, { status := St.domainOff })
  else if stcContexts sd ≤ c then (s, { status := St.stcDisabled })
  else (s, { result := s.ctxStat sd c })

/-- SLOT_WRITE (R413). -/
def State.opSlotWrite (s : State) (sd : Side) (n v : Nat) : State × CmdRes :=
  if sd = .itu ∧ !s.ipdOn 4 then (s, { status := St.domainOff })
  else if stcSlots sd ≤ n then (s, { status := St.badParam })
  else
    let r := s.slotPush sd n v
    (r.2, { status := if r.1 then St.ok else St.stcSlotFull })

/-- SLOT_READ (R413). -/
def State.opSlotRead (s : State) (sd : Side) (n : Nat) : State × CmdRes :=
  if sd = .itu ∧ !s.ipdOn 4 then (s, { status := St.domainOff })
  else if stcSlots sd ≤ n then (s, { status := St.badParam })
  else
    match s.slotPop sd n with
    | (some v, s) => (s, { data := [v % 2 ^ 32, v / 2 ^ 32] })
    | (none, s) => (s, { status := St.stcSlotEmpty })

/-- A stitch command executed by the part it names. -/
def State.cmdStc (s : State) (h : CmdHdr) (isLam : Bool) (op : State → State × CmdRes) : State :=
  if isLam then s.cmdLam h op else s.cmdItu h op

/-- STITCH_START (R404, opcode 0x4A). -/
def execStitchStart (h : CmdHdr) (c : Nat) (isLam : Bool) (s : State) : Out :=
  .next (s.cmdStc { h with opcode := 0x4A } isLam fun s => s.opStitchStart (stcPlace isLam) (c % 32))

/-- STITCH_STOP (R404, opcode 0x4B). -/
def execStitchStop (h : CmdHdr) (c : Nat) (isLam : Bool) (s : State) : Out :=
  .next (s.cmdStc { h with opcode := 0x4B } isLam fun s => s.opStitchStop (stcPlace isLam) (c % 32))

/-- SLOT_WRITE (R413, opcode 0x4C). -/
def execSlotWrite (h : CmdHdr) (n : Nat) (isLam : Bool) (v : Nat) (s : State) : Out :=
  .next (s.cmdStc { h with opcode := 0x4C } isLam fun s => s.opSlotWrite (stcPlace isLam) (n % 1024) v)

/-- SLOT_READ (R413, opcode 0x4D). -/
def execSlotRead (h : CmdHdr) (n : Nat) (isLam : Bool) (s : State) : Out :=
  .next (s.cmdStc { h with opcode := 0x4D } isLam fun s => s.opSlotRead (stcPlace isLam) (n % 1024))

/-- STITCH_QUERY (R420, opcode 0x4E). -/
def execStitchQuery (h : CmdHdr) (c : Nat) (isLam : Bool) (s : State) : Out :=
  .next (s.cmdStc { h with opcode := 0x4E } isLam fun s => s.opStitchQuery (stcPlace isLam) (c % 32))

/-! ### Registers -/

/-- STC_CTL.STOP or STC_CTL_STOP written (R421). -/
def State.stcStopMask (s : State) (sd : Side) (mask : Nat) : State :=
  (List.range (stcContexts sd)).foldl (fun s c => if bitAt mask c then s.stcStop sd c 2 else s) s

/-- STC_CTL_STOP (R421, R424). -/
def execStcCtlStop (sd : Side) (iss : Issuer) (mask : Nat) (s : State) : Out :=
  let g := s.guard sd iss (match sd with | .itu => I.STC_CTL_STOP.addr | .lam => L.STC_CTL_STOP.addr) true 0
  if g.2 then .next (g.1.stcStopMask sd mask) else .next g.1

/-- STC_CTL.ENABLE written (R424). -/
def State.setStcEnable (s : State) (v : Nat) : State :=
  if v % 2 = 0 ∧ s.rl L.STC_CTL_ENABLE = 1 then (s.wl L.STC_CTL_ENABLE 0).stcDisable .lam else s.wl L.STC_CTL_ENABLE v

/-- STC_CTL_ENABLE_WRITE (R424): FLEET authority. -/
def execStcCtlEnableWrite (iss : Issuer) (v : Bool) (s : State) : Out :=
  let g := s.guard .lam iss L.STC_CTL_ENABLE.addr true 3
  if g.2 then .next (g.1.setStcEnable (b2n v)) else .next g.1

/-- Byte offset of SLOT_DATA_LO of slot n. -/
def slotAddr (sd : Side) (n : Nat) : Nat :=
  (match sd with | .itu => I.SLOT_DATA_LO.addr | .lam => L.SLOT_DATA_LO.addr) + 0x10 * n

/-- A read of SLOT_DATA_LO (R413): the word and its high half latched, or zero and counted. -/
def State.readSlotLo (s : State) (sd : Side) (path : Path) (n : Nat) : Nat × State :=
  match s.slotPop sd n with
  | (some v, s) => (v % 2 ^ 32, s.setLatch path (slotAddr sd n) [(slotAddr sd n + 4, v / 2 ^ 32)] (s.now sd))
  | (none, s) => (0, s.ix sd I.SLOT_CNT_EMPTY_READ L.SLOT_CNT_EMPTY_READ)

/-- SLOT_DATA_LO_READ (R413). -/
def execSlotDataLoRead (sd : Side) (iss : Issuer) (n : Nat) (s : State) : Out :=
  let g := s.guard sd iss (slotAddr sd n) false 0
  if g.2 && decide (n < stcSlots sd) then
    let r := g.1.readSlotLo sd iss.path n
    .next { r.2 with rdata := [r.1] }
  else .next { g.1 with rdata := [0] }

/-- A write of SLOT_DATA_HI (R413, R387): with the held low word it fills the slot, or is discarded. The low word
where none is held is that of the slot. -/
def State.writeSlotHi (s : State) (sd : Side) (path : Path) (n data : Nat) : State :=
  let a := slotAddr sd n
  let lo := (s.heldLow path a).getD (s.slotData sd n % 2 ^ 32)
  let r := (s.dropHold path a).slotPush sd n (lo % 2 ^ 32 + data % 2 ^ 32 * 2 ^ 32)
  if r.1 then r.2 else r.2.ix sd I.SLOT_CNT_DROP L.SLOT_CNT_DROP

/-- SLOT_DATA_HI_WRITE (R413). -/
def execSlotDataHiWrite (sd : Side) (iss : Issuer) (n data : Nat) (s : State) : Out :=
  let g := s.guard sd iss (slotAddr sd n + 4) true 0
  if g.2 && decide (n < stcSlots sd) then .next (g.1.writeSlotHi sd iss.path n data) else .next g.1

end Sys2Proof.Machine
end

