-- ==== Sys2Proof/Machine/RegView.lean ====
section
/-! DEFINITION. What the register fields that the file does not keep read as, and reads of whole words: read latches,
fields cleared by a read, the stitch memories (R12, R386, R422). -/

namespace Sys2Proof.Machine

/-- What a read-only field reads, by instance. -/
abbrev View := State → Nat → Nat → Nat

/-- Low and high word of a 64-bit value. -/
def loOf (v : Nat) : Nat := v % 2 ^ 32
def hiOf (v : Nat) : Nat := v / 2 ^ 32 % 2 ^ 32

/-- The current slot of a part's chain: the last boundary reached. -/
def State.curSlot (s : State) (sd : Side) : Nat := (s.mains sd).slot - 1

/-- Cells that an end may still send on VC v (R171). -/
def LinkEnd.credit (e : LinkEnd) (v : Nat) : Nat :=
  let t := e.tx.getD v {}
  let d := (t.lim + 4096 - t.sent % 4096) % 4096
  if d < 2048 then d else 0

/-- Contexts neither STOPPED nor in FAULT, bit c each (R421). -/
def State.stcActive (s : State) (sd : Side) : Nat :=
  (List.range (stcContexts sd)).foldl (fun a c =>
    if s.ctxState sd c = 0 ∨ s.ctxState sd c = 6 then a else a + 2 ^ c) 0

/-- Register x of context c as STC_X reads it: zero unless STOPPED or FAULT (R421). Instances: context, then x. -/
def State.stcX (s : State) (sd : Side) (c x : Nat) : Nat :=
  if s.ctxState sd c = 0 ∨ s.ctxState sd c = 6 then (s.ctx sd c).reg x else 0

/-- CRC_RESULT of a unit of the Lamulo (R178). -/
def State.lcrcResult (s : State) (q : Nat) : Nat :=
  let sel := s.rl L.CRC_SEL q
  (s.lcrcVal q ^^^ crcXor sel) % 2 ^ crcWidth sel

/-- Fields of the ITU that are read from the state beside the file. -/
def ituViews : List (Fld × View) :=
  [(I.ITIME_STAT_SETTLING, fun s _ _ => b2n (decide (s.lkState .itu 0 < 3))),
   (I.ITIME_STAT_MAINS_CURRENT, fun s _ _ => b2n s.itu.mains.cur.isSome),
   (I.ITIME_INCR_LO, fun s _ _ => loOf s.itu.clk.incr), (I.ITIME_INCR_HI, fun s _ _ => hiOf s.itu.clk.incr),
   (I.ITIME_NS_LO, fun s _ _ => loOf s.itu.clk.ns), (I.ITIME_NS_HI, fun s _ _ => hiOf s.itu.clk.ns),
   (I.ITIME_MC_LO, fun s _ _ => loOf (s.mc .itu)), (I.ITIME_MC_HI, fun s _ _ => hiOf (s.mc .itu)),
   (I.ITIME_SLOT, fun s _ _ => s.curSlot .itu), (I.ITIME_CONSERVATIVE, fun s _ _ => b2n (s.conservative .itu)),
   (I.ITU_PARAM0_PARTITIONS, fun s _ _ => s.itu.par.partitions - 1), (I.ITU_PARAM0_TAPS, fun s _ _ => s.itu.par.taps - 1),
   (I.ITU_PARAM0_EVENTS, fun s _ _ => s.itu.par.events / 32), (I.ITU_PARAM0_MEM_W, fun s _ _ => b2n (s.itu.par.memW == 1024)),
   (I.ITU_PARAM0_ADDR_W, fun s _ _ => s.itu.par.addrW),
   (I.ITU_PARAM1_OUTSTANDING, fun s _ _ => Nat.log2 s.itu.par.outstanding),
   (I.ITU_PARAM1_ROW_IDX_W, fun s _ _ => s.itu.par.rowIdxW), (I.ITU_PARAM1_VISOR, fun s _ _ => Nat.log2 s.itu.par.visorDesc),
   (I.ITU_PARAM1_CANARY, fun s _ _ => s.itu.par.canary - 1), (I.ITU_PARAM1_TEST_PORTS, fun s _ _ => s.itu.par.testPorts - 1),
   (I.ITU_PARAM1_TAP_LAT, fun s _ _ => s.itu.par.tapLat), (I.ITU_PARAM2_BAR_LAT, fun s _ _ => s.itu.par.barLat),
   (I.ITU_PARAM2_SYNC, fun s _ _ => s.itu.par.syncStages - 2), (I.ITU_HOST_CAP0_TDP_W, fun s _ _ => s.itu.caps.tdpW),
   (I.ITU_HOST_CAP0_BALLAST_MAX_W, fun s _ _ => s.itu.caps.ballastW), (I.ITU_HOST_CAP1_IDLE_W, fun s _ _ => s.itu.caps.idleW),
   (I.ITU_HOST_CAP1_LICENSEE, fun s _ _ => s.itu.caps.licensee)] ++
  [(I.SMP_STAT_ACTIVE, fun s _ _ => b2n (s.itu.smp.lastMc == some (s.mc .itu) && s.slotsOk .itu)),
   (I.SMP_STAT_NO_SLOTS, fun s _ _ => b2n !(s.slotsOk .itu)), (I.SMP_BUF_LEVEL, fun s _ _ => recBytes s.itu.txq.b),
   (I.SMP_CYC_LO, fun s _ _ => loOf s.itu.smp.cyc), (I.SMP_CYC_HI, fun s _ _ => hiOf s.itu.smp.cyc),
   (I.TRC_STAT_LEVEL, fun s _ _ => s.trcLevel), (I.TRC_PSTAT_ACTIVE, fun s p _ => b2n (s.trcActive p)),
   (I.ILNK_CREDIT, fun s v _ => s.itu.link.credit v), (I.LDG_OUT_CEIL, fun s _ _ => s.itu.pins.ceil),
   (I.LDG_OUT_FLOOR, fun s _ _ => s.itu.pins.ballast), (I.LDG_E_TOTAL_LO, fun s _ _ => loOf s.itu.pwr.eTotal),
   (I.LDG_E_TOTAL_HI, fun s _ _ => hiOf s.itu.pwr.eTotal), (I.LDG_E_BAL_LO, fun s _ _ => loOf s.itu.pwr.eBal),
   (I.LDG_E_BAL_HI, fun s _ _ => hiOf s.itu.pwr.eBal), (I.LDG_E_PIN_LO, fun s _ _ => loOf s.itu.pwr.ePin),
   (I.LDG_E_PIN_HI, fun s _ _ => hiOf s.itu.pwr.ePin), (I.STC_STAT_ACTIVE, fun s _ _ => s.stcActive .itu),
   (I.STC_X_LO, fun s c x => loOf (s.stcX .itu c (x + 1))), (I.STC_X_HI, fun s c x => hiOf (s.stcX .itu c (x + 1))),
   (I.SLOT_DATA_LO, fun s n _ => loOf (s.slotData .itu n)), (I.SLOT_DATA_HI, fun s n _ => hiOf (s.slotData .itu n)),
   (I.CRC_RESULT_LO, fun s u _ => loOf (s.crcResult u)), (I.CRC_RESULT_HI, fun s u _ => hiOf (s.crcResult u))]

/-- Fields of the Lamulo that are read from the state beside the file: time, mains, link, trackers, statistics. -/
def lamViews1 : List (Fld × View) :=
  [(L.TIME_INCR_LO, fun s _ _ => loOf s.lam.clk.incr), (L.TIME_INCR_HI, fun s _ _ => hiOf s.lam.clk.incr),
   (L.TIME_NS_LO, fun s _ _ => loOf s.lam.clk.ns), (L.TIME_NS_HI, fun s _ _ => hiOf s.lam.clk.ns),
   (L.TIME_FRAC, fun s _ _ => s.lam.clk.frac), (L.MAINS_STAT_CONSERVATIVE, fun s _ _ => b2n (s.conservative .lam)),
   (L.MAINS_STAT_STANDBY, fun s _ _ => b2n s.isStandby), (L.MAINS_MC_LO, fun s _ _ => loOf (s.mc .lam)),
   (L.MAINS_MC_HI, fun s _ _ => hiOf (s.mc .lam)),
   (L.MAINS_START_LO, fun s _ _ => match s.lam.mains.cur with | some a => loOf a.startNs | none => 0),
   (L.MAINS_START_HI, fun s _ _ => match s.lam.mains.cur with | some a => hiOf a.startNs | none => 0),
   (L.MAINS_SLOT, fun s _ _ => s.curSlot .lam),
   (L.TRK_STAT_RUNNING, fun s _ _ => s.rl L.TRK_CTL_ENABLE), (L.TRK_SNAP_DATA, fun s i _ => nth s.lam.trkSnap i),
   (L.LNK_CREDIT, fun s q v => (s.port q).link.credit v),
   (L.BRIM_LO, fun s q _ => loOf (s.brimEntry q)), (L.BRIM_HI, fun s q _ => hiOf (s.brimEntry q)),
   (L.CRC_RESULT_LO, fun s q _ => loOf (s.lcrcResult q)), (L.CRC_RESULT_HI, fun s q _ => hiOf (s.lcrcResult q)),
   (L.STAT_STAT_RUNNING, fun s _ _ => b2n s.statOn), (L.STAT_CELLS_SCALAR, fun s _ _ => s.cellsScalar),
   (L.STAT_CELLS_SKETCH, fun s _ _ => s.cellsSketch), (L.STRAG_STATE, fun s q w => nth (s.det q).strag.words w)]

/-- The retiring bank of the committed objects is held (R29, R365). -/
def State.retiring (s : State) : Bool := s.lam.brim.retiring.isSome

/-- Banks of a forest slot. -/
def FSlot.banks (f : FSlot) : List FBank := [f.active, f.retiring, f.shadow].filterMap id

/-- KiB of the cache that banks hold. -/
def cacheOf (l : List FBank) : Nat := (l.map fun b => b.cache.sum).sum

/-- Fields of the Lamulo that are read from the state beside the file: forest, digest, ledger, egress, control, stitch. -/
def lamViews2 : List (Fld × View) :=
  [(L.FST_STAT_QUARTERS_ON, fun s _ _ => (List.range 4).foldl (fun a n => a + b2n (s.quarterOn n) * 2 ^ n) 0),
   (L.FST_STAT_RUNNING, fun s _ _ => b2n (decide (0 < s.openPasses))),
   (L.FST_CACHE_FREE, fun s _ _ => (List.range 4).foldl (fun a n => a + s.cacheFree n) 0),
   (L.FST_SLOT_STAT_RETIRING, fun s i _ => b2n (s.fslot i).retiring.isSome),
   (L.FST_SLOT_STAT_OPEN_PASS, fun s i _ => b2n (s.fslot i).pass.isSome),
   (L.FST_SLOT_QLEVEL, fun s i _ => (s.fslot i).queue.length),
   (L.FST_SLOT_CACHE_KIB, fun s i _ => cacheOf (s.fslot i).banks),
   (L.DIGF_CELLS, fun s _ _ => (s.lam.digCells.filter fun c => !c.closed).length),
   (L.LDGF_STAT_RUNNING, fun s _ _ => b2n s.ldgOn), (L.LDGF_STAT_CONSERVATIVE, fun s _ _ => b2n (s.conservative .lam)),
   (L.GATE_STAT_RETIRING, fun s _ _ => b2n s.retiring),
   (L.CMDQ_STAT_RUNNING, fun s _ _ => s.rl L.CMDQ_CTL_ENABLE),
   (L.CMDQ_STAT_IN_DOUBT, fun s _ _ => b2n (s.lam.ctl.stg.any (·.doubt))),
   (L.TXN_OPEN, fun s _ _ => ((s.lam.ctl.txns.filter fun t => t.state == .opened || t.state == .preparing).map (·.num) ++
      s.lam.ctl.stg.map (·.txn)).dedup.length),
   (L.STC_STAT_ACTIVE, fun s _ _ => s.stcActive .lam),
   (L.STC_X_LO, fun s c x => loOf (s.stcX .lam c (x + 1))), (L.STC_X_HI, fun s c x => hiOf (s.stcX .lam c (x + 1))),
   (L.SLOT_DATA_LO, fun s n _ => loOf (s.slotData .lam n)), (L.SLOT_DATA_HI, fun s n _ => hiOf (s.slotData .lam n))]

/-- The views of a part. -/
def viewsOf : Side → List (Fld × View)
  | .itu => ituViews
  | .lam => lamViews1 ++ lamViews2

/-- The file of a part. -/
def State.regs (s : State) : Side → Regs
  | .itu => s.itu.regs
  | .lam => s.lam.regs

/-- The file of a part with a field set. -/
def State.setReg (s : State) (sd : Side) (F : Fld) (i j v : Nat) : State :=
  match sd with
  | .itu => s.wi F v i j
  | .lam => s.wl F v i j

/-- What a field reads, before its access code. -/
def State.fieldVal (s : State) (sd : Side) (F : Fld) (i j : Nat) : Nat :=
  match (viewsOf sd).find? (fun p => p.1 == F) with
  | some p => p.2 s i j % 2 ^ F.width
  | none => (s.regs sd).rd F i j

/-- The fields of the word at a byte offset that exist in the part's role, with their instances (R11). -/
def State.fieldsAt (s : State) (sd : Side) (a : Nat) : List (Fld × Nat × Nat) :=
  let all := match sd with | .itu => I.fields | .lam => L.fields
  all.filterMap fun F =>
    match F.at a with
    | some (i, j) => if sd = .itu ∨ bitAt F.roles s.role then some (F, i, j) else none
    | none => none

/-- Place of a word in the stitch memories of a part (R422): the program store, or a half of a local memory word. -/
def stcPlaceOf (sd : Side) (a : Nat) : Option (Nat ⊕ (Nat × Bool)) :=
  match sd with
  | .itu =>
    if 0x9000 ≤ a ∧ a < 0xA000 then some (.inl ((a - 0x9000) / 4))
    else if 0xB000 ≤ a ∧ a < 0xF000 then
      let o := a - 0xB000
      some (.inr (8192 * (o / 0x1000) + o % 0x1000 / 8, decide (o % 8 = 4)))
    else none
  | .lam =>
    if 0x280000 ≤ a ∧ a < 0x290000 then some (.inl ((a - 0x280000) / 4))
    else if 0x300000 ≤ a ∧ a < 0x500000 then some (.inr ((a - 0x300000) / 8, decide (a % 8 = 4)))
    else none

/-- The value of a word: what its readable fields hold, reserved bits zero (R11, R12). -/
def State.wordVal (s : State) (sd : Side) (a : Nat) : Nat :=
  match stcPlaceOf sd a with
  | some (.inl i) => Sparse.get 0 (s.stc sd).store i
  | some (.inr (w, high)) => let v := Sparse.get 0 (s.stc sd).mem w; if high then hiOf v else loOf v
  | none => (s.fieldsAt sd a).foldl (fun v f => if f.1.acc = .wo then v else v ||| s.fieldVal sd f.1 f.2.1 f.2.2 <<< f.1.lo) 0

/-- Fields whose words a read latches: the field of the first word and the number of words that follow (R386). -/
def readFirst : Side → List (Fld × Nat)
  | .itu => [(I.ITIME_NS_LO, 1), (I.ITIME_MC_LO, 1), (I.SMP_CYC_LO, 1), (I.PART_LAST_ADV_LO, 1), (I.DIG_LAST_D1_LO, 1),
      (I.DIG_LAST_D2_LO, 1), (I.DIG_LAST_V_LO, 1), (I.DIG_LAST_N_LO, 1), (I.GNT_DIG_LO, 1), (I.LDG_E_TOTAL_LO, 1),
      (I.LDG_E_BAL_LO, 1), (I.LDG_E_PIN_LO, 1), (I.STC_X_LO, 1), (I.CRC_RESULT_LO, 1)]
  | .lam => [(L.TIME_NS_LO, 1), (L.MAINS_PERIOD_LO, 1), (L.MAINS_MC_LO, 1), (L.MAINS_START_LO, 1), (L.CRC_RESULT_LO, 1),
      (L.REC_NEXT_SEQ_LO, 1), (L.DDR_UE_ADDR_LO, 1), (L.STC_X_LO, 1)]

/-- Words that a read of the word at a latches beside it. -/
def followers (sd : Side) (a : Nat) : Nat :=
  match stcPlaceOf sd a with
  | some (.inr (_, false)) => 1
  | some _ => 0
  | none =>
    match (readFirst sd).find? (fun p => (p.1.at a).isSome) with
    | some p => p.2
    | none => match sd, L.STRAG_STATE.at a with
      | .lam, some (_, 0) => 15
      | _, _ => 0

/-- A word that a path holds latched; the latch ends when its highest word is read (R386). -/
def State.latched (s : State) (path : Path) (a : Nat) : Option (Nat × State) :=
  match s.latches.find? (fun l => l.path == path && l.words.any (fun w => w.1 == a)) with
  | some l =>
    let v := (l.words.find? fun w => w.1 == a).map (·.2) |>.getD 0
    let top := l.words.all fun w => decide (w.1 ≤ a)
    some (v, if top then { s with latches := s.latches.filter fun m => m != l } else s)
  | none => none

/-- Fields cleared by the read of their word (R12). -/
def State.clearRc (s : State) (sd : Side) (a : Nat) : State :=
  (s.fieldsAt sd a).foldl (fun s f => if f.1.acc = .rc then s.setReg sd f.1 f.2.1 f.2.2 0 else s) s

/-- A read of a word that is permitted (R12, R386). -/
def State.readOpen (s : State) (sd : Side) (iss : Issuer) (a : Nat) : Nat × State :=
  match s.latched iss.path a with
  | some r => r
  | none =>
    if sd = .itu ∧ a = I.SMP_RD_LO.addr then s.readCounterLo iss.path
    else if sd = .itu ∧ a = I.SMP_RD_HI.addr then (Sparse.get 0 s.itu.smp.vals (s.rdIdx iss.path) / 2 ^ 32, s)
    else if sd = .itu ∧ a = I.SMP_RD_IDX.addr ∧ iss.path = .host then (s.itu.smp.hostIdx, s)
    else if sd = .itu ∧ a = I.VIS_RD_DATA0.addr then s.readVis0 iss
    else if sd = .itu ∧ I.VIS_RD_DATA1.addr ≤ a ∧ a ≤ I.VIS_RD_DATA3.addr then
      (nth (s.visWords iss) ((a - I.VIS_RD_DATA0.addr) / 4), s)
    else
      match (match sd with | .itu => I.SLOT_DATA_LO | .lam => L.SLOT_DATA_LO).at a with
      | some (n, _) => s.readSlotLo sd iss.path n
      | none =>
        let n := followers sd a
        let v := s.wordVal sd a
        let s' := s.clearRc sd a
        if n = 0 then (v, s')
        else (v, s'.setLatch iss.path a ((List.range n).map fun k => (a + 4 * (k + 1), s.wordVal sd (a + 4 * (k + 1)))) (s.now sd))

/-- A read of the word at byte offset a by an issuer (R4, R83, R148, R452): zero where it is not permitted. -/
def State.readWord (s : State) (sd : Side) (iss : Issuer) (a : Nat) : Nat × State :=
  let g := s.guard sd iss a false 0
  if g.2 then g.1.readOpen sd iss a else (0, g.1)

/-- REGISTER_READ (R12, R386). -/
def execRegisterRead (sd : Side) (iss : Issuer) (addr : Nat) (s : State) : Out :=
  let r := s.readWord sd iss (addr / 4 * 4)
  .next { r.2 with rdata := [r.1] }

/-- WRITE_HOLD_EXPIRY (R387): low words held for 1 us are discarded. -/
def execWriteHoldExpiry (path : Path) (s : State) : Out :=
  .next { s with holds := s.holds.filter fun h => !(h.path == path && decide (1000 ≤ s.pathNow path - h.at0)) }

end Sys2Proof.Machine
end

