-- ==== Sys2Proof/Machine/RegWrite.lean ====
section
/-! DEFINITION. Writes of whole words: access codes, held low words, fields with an effect of their own, conditions on a write
(R4, R11, R12, R387 and the register maps). -/

namespace Sys2Proof.Machine

/-- What a field's own effect is told: who writes, the instance, the field's value, and the word with its byte strobes. -/
structure WArg where
  iss : Issuer
  i : Nat
  j : Nat
  v : Nat
  word : Nat
  strb : Nat
deriving DecidableEq, Repr

/-- A field's own effect. -/
abbrev Hook := State → WArg → State

/-- An effect of a bit that starts an action: nothing on 0. -/
def trig (f : State → Nat → State) : Hook := fun s w => if w.v = 1 then f s w.i else s

/-- Every TRC_PCTL.EN is 0 (R131). -/
def State.trcAllOff (s : State) : Bool := (List.range 16).all fun p => s.ri I.TRC_PCTL_EN p == 0

/-- TRC_ACH.EN written (R131): a channel whose lines do not exist is not enabled. -/
def State.setAchEn (s : State) (c v : Nat) : State :=
  let bad := decide (s.itu.par.events < (s.ri I.TRC_ACH_GROUP c + 2) * 32) || decide (s.itu.par.events ≤ s.ri I.TRC_ACH_STROBE c)
  if v = 1 ∧ bad then (s.wi I.TRC_ACH_EN 0 c).wi I.TRC_STAT_CFG_ERR 1 else s.wi I.TRC_ACH_EN v c

/-- SMP_RD_IDX of a path written: its latch is released (R108). -/
def State.setRdIdx (s : State) (path : Path) (v : Nat) : State :=
  let s := { s with latches := s.latches.filter fun l => !(l.path == path && l.base == I.SMP_RD_LO.addr) }
  if path = .host then s.setSmp { s.itu.smp with hostIdx := v } else s.wi I.SMP_RD_IDX v

/-- GNT_CTL.ABORT as a bit of a register write: what tst_wso showed reaches the model in no such write (log entry 23). -/
def State.gntAbortBit (s : State) : State :=
  if s.ri I.GNT_STAT_STATE = 4 ∧ s.gntSlice then
    let a := s.free
    let b := a.2.free
    ((b.2.wi I.GNT_MISMATCH a.1).setGnt { b.2.itu.gnt with first := some (bits b.1 0 16, bits b.1 16 16) }).sliceRestore 6
  else s.gntAbort []

/-- Effects of the ITU's RW and WO fields that have one. -/
def ituHooks : List (Fld × Hook) :=
  [(I.ITIME_CTL_ENABLE, fun s w => s.setServo .itu (w.v == 1)), (I.ITIME_CTL_REARM, trig fun s _ => s.rearm .itu),
   (I.SMP_CTL_RUN, fun s w => s.setRun (w.v == 1)), (I.SMP_CTL_CLEAR, trig fun s _ => s.clearCounters),
   (I.SMP_RD_IDX, fun s w => s.setRdIdx w.iss.path w.v), (I.TRC_PCTL_EN, fun s w => s.setTrcEn w.i (w.v == 1)),
   (I.TRC_PCTL_FLUSH, trig fun s p => s.trcFlush p), (I.TRC_MARK, fun s w => s.trcMark w.i w.v),
   (I.TRC_ACH_EN, fun s w => s.setAchEn w.i w.v), (I.LDG_CTL_FREEZE, fun s w => s.setFreeze w.v),
   (I.VIS_CTL_TRIG, trig fun s _ => (s.visTrigger (s.ri I.VIS_CTL_PART) 0 (s.ri I.VIS_CTL_HOLD == 1) (s.ri I.VIS_CTL_EMIT == 1)).1),
   (I.VIS_CTL_RELEASE, trig fun s _ => s.visCtlRelease),
   (I.ROW_CTL_TRIG, trig fun s _ =>
      (s.rowTrigger (s.ri I.ROW_CTL_PART) 0 (s.ri I.ROW_FIRST) (s.ri I.ROW_COUNT) (s.ri I.ROW_STRIDE)).1),
   (I.PART_CTL_RESET, trig fun s _ => (s.partTrigger (s.ri I.PART_CTL_PART) 0).1), (I.PART_CTL_ADV_ALL, trig fun s _ => s.advAll),
   (I.ILNK_CTL_RETRAIN, trig fun s _ => s.leaveUp .itu 0 6), (I.DIG_CTL_ABORT, trig fun s _ => s.digClose 7),
   (I.DIG_UNSTABLE, fun s _ => s.digClose 1), (I.DIG_STEP, fun s w => s.writeDigStep w.v),
   (I.GNT_CTL_ABORT, trig fun s _ => s.gntAbortBit), (I.STC_CTL_STOP, fun s w => s.stcStopMask .itu w.v),
   (I.CRC_SEL, fun s w => s.crcSelW .itu w.i w.v), (I.CRC_DATA, fun s w => s.crcDataW .itu w.i w.word w.strb)]

/-- A bucket of the Lamulo set (R200, R201): it starts full. -/
def State.setBucket (s : State) (c : Nat) (rate burst : Nat) : State :=
  let b : Bucket := { s.lam.bkt.getD c Bucket.none with rate := rate, burst := burst, level := burst * 1000000, at0 := s.now .lam }
  { s with lam := { s.lam with bkt := setNth Bucket.none s.lam.bkt c b } }

/-- ETH_GRP_CFG.MODE written (R358): a group's mode changes only while every port of the group has ROLE 0. -/
def State.setGrpMode (s : State) (v : Nat) : State :=
  s.wl L.ETH_GRP_CFG_MODE ((List.range 6).foldl (fun m g =>
    if (List.range 4).all fun k => s.rl L.ETH_PORT_CFG_ROLE (4 * g + k) == 0 then setBits m (2 * g) 2 (bits v (2 * g) 2) else m)
    (s.rl L.ETH_GRP_CFG_MODE))

/-- Effects of the Lamulo's RW and WO fields that have one. -/
def lamHooks : List (Fld × Hook) :=
  [(L.TIME_CTL_ENABLE, fun s w => s.setServo .lam (w.v == 1)), (L.TIME_CTL_REARM, trig fun s _ => s.rearm .lam),
   (L.MAINS_CTL_ENABLE, fun s w => s.setMainsEnable (w.v == 1)), (L.TRK_SNAP_CMD, fun s w => s.trkSnapCopy w.v),
   (L.LNK_CTL_ENABLE, fun s w => s.setLnkEnable w.i (w.v == 1)), (L.LNK_CTL_RETRAIN, trig fun s q => s.leaveUp .lam q 6),
   (L.CRC_SEL, fun s w => s.crcSelW .lam w.i w.v), (L.CRC_DATA, fun s w => s.crcDataW .lam w.i w.word w.strb),
   (L.STAT_ADMIT_RATE, fun s w => (s.wl L.STAT_ADMIT_RATE w.v w.i).setBucket w.i w.v (s.rl L.STAT_ADMIT_BURST w.i)),
   (L.STAT_ADMIT_BURST, fun s w => (s.wl L.STAT_ADMIT_BURST w.v w.i).setBucket w.i (s.rl L.STAT_ADMIT_RATE w.i) w.v),
   (L.FST_CTL_QUARTERS, fun s w => s.fstQuarters w.v), (L.FST_RESUME_SLOT, fun s w => s.fstResume w.v),
   (L.LDGF_CTL_ENABLE, fun s w => (s.wl L.LDGF_CTL_ENABLE w.v).ldgRefresh), (L.ETH_GRP_CFG_MODE, fun s w => s.setGrpMode w.v),
   (L.STC_CTL_ENABLE, fun s w => s.setStcEnable w.v), (L.STC_CTL_STOP, fun s w => s.stcStopMask .lam w.v),
   (L.CMP_CTL_ENABLE, fun s w => s.setCmpEnable (w.v == 1)), (L.CMP_RING_FLUSH, trig fun s r => s.ringFlush r),
   (L.CMP_RING_ABORT, trig fun s r => s.ringAbort r), (L.REC_CTL_ENABLE, fun s w => s.setRecEnable (w.v == 1)),
   (L.REC_CTL_FLUSH, trig fun s _ => s.recFlush 2), (L.LAM_BOOT_CMD_RUN, trig fun s _ => s.bootRun),
   (L.KEY_PROG_SLOT, fun s _ => s), (L.KEY_PROG_GO, fun s w => if w.v = 1 then s.keyProg w.iss.auth (bits w.word 0 6) else s),
   (L.PD_CTL, fun s w => s.setPdCtl w.v), (L.DDR_CTL_ENABLE, fun s w => s.setDdr (w.v == 1))]

/-- The hooks of a part. -/
def hooksOf : Side → List (Fld × Hook)
  | .itu => ituHooks
  | .lam => lamHooks

/-- A context may be configured: STOPPED or in FAULT (R421). -/
def State.stcIdle (s : State) (sd : Side) (c : Nat) : Bool := s.ctxState sd c == 0 || s.ctxState sd c == 6

/-- Conditions under which a field is written; a write at other times is ignored. -/
def ituConds : List (Fld × (State → Nat → Bool)) :=
  [(I.TRC_OWN_TAP, fun s _ => s.trcAllOff), (I.TRC_TAP_EN, fun s _ => s.trcAllOff), (I.TRC_ACH_GROUP, fun s _ => s.trcAllOff),
   (I.TRC_ACH_STROBE, fun s _ => s.trcAllOff), (I.TRC_ACH_PART, fun s _ => s.trcAllOff), (I.TRC_ACH_EN, fun s _ => s.trcAllOff),
   (I.TRC_BASE_LO, fun s p => s.ri I.TRC_PCTL_EN p == 0), (I.TRC_BASE_HI, fun s p => s.ri I.TRC_PCTL_EN p == 0),
   (I.TRC_SIZE, fun s p => s.ri I.TRC_PCTL_EN p == 0), (I.STC_CTX_CFG_BASE, fun s c => s.stcIdle .itu c),
   (I.STC_CTX_CFG_LEN, fun s c => s.stcIdle .itu c), (I.STC_CTX_CFG_OWNER, fun s c => s.stcIdle .itu c)]

/-- The same at the Lamulo. -/
def lamConds : List (Fld × (State → Nat → Bool)) :=
  [(L.TRK_VIRT_BASE_LO, fun s _ => s.rl L.TRK_CTL_VIRT_EN == 0), (L.TRK_VIRT_BASE_HI, fun s _ => s.rl L.TRK_CTL_VIRT_EN == 0),
   (L.TRK_VIRT_COUNT, fun s _ => s.rl L.TRK_CTL_VIRT_EN == 0), (L.GNTF_STORE_BASE_LO, fun s _ => s.rl L.GNTF_CTL_ENABLE == 0),
   (L.GNTF_STORE_BASE_HI, fun s _ => s.rl L.GNTF_CTL_ENABLE == 0), (L.CMDQ_BASE_LO, fun s _ => s.rl L.CMDQ_CTL_ENABLE == 0),
   (L.CMDQ_BASE_HI, fun s _ => s.rl L.CMDQ_CTL_ENABLE == 0), (L.CMP_RING_BASE_LO, fun s _ => s.rl L.CMP_CTL_ENABLE == 0),
   (L.CMP_RING_BASE_HI, fun s _ => s.rl L.CMP_CTL_ENABLE == 0), (L.CMP_RING_SLOTS, fun s _ => s.rl L.CMP_CTL_ENABLE == 0),
   (L.REC_NOR_BASE, fun s _ => s.rl L.REC_CTL_ENABLE == 0), (L.REC_NOR_SECTORS, fun s _ => s.rl L.REC_CTL_ENABLE == 0),
   (L.STC_STORE_BASE_LO, fun s _ => s.rl L.STC_CTL_ENABLE == 0), (L.STC_STORE_BASE_HI, fun s _ => s.rl L.STC_CTL_ENABLE == 0),
   (L.STC_CTX_CFG_BASE, fun s c => s.stcIdle .lam c), (L.STC_CTX_CFG_LEN, fun s c => s.stcIdle .lam c),
   (L.DDR_CFG_CHANNELS, fun s _ => s.rl L.DDR_CTL_ENABLE == 0), (L.DDR_CFG_SPEED, fun s _ => s.rl L.DDR_CTL_ENABLE == 0),
   (L.DDR_CFG_SCRUB_H, fun s _ => s.rl L.DDR_CTL_ENABLE == 0)]

/-- The conditions of a part. -/
def condsOf : Side → List (Fld × (State → Nat → Bool))
  | .itu => ituConds
  | .lam => lamConds

/-- The field may be written now. -/
def State.condOk (s : State) (sd : Side) (F : Fld) (i : Nat) : Bool :=
  match (condsOf sd).find? (fun p => p.1 == F) with
  | some p => p.2 s i
  | none => true

/-- An RW value set, with its own effect if it has one. -/
def State.putRw (s : State) (sd : Side) (F : Fld) (w : WArg) : State :=
  if !F.ok w.v || !s.condOk sd F w.i then s else
  match (hooksOf sd).find? (fun p => p.1 == F) with
  | some p => p.2 s w
  | none => s.setReg sd F w.i w.j w.v

/-- Low and high fields of the values of two words that are written together (R387). -/
def rwPairs : Side → List (Fld × Fld)
  | .itu => [(I.ITIME_INCR_LO, I.ITIME_INCR_HI), (I.TRC_BASE_LO, I.TRC_BASE_HI), (I.DIG_RUNS_BASE_LO, I.DIG_RUNS_BASE_HI),
      (I.SLOT_DATA_LO, I.SLOT_DATA_HI), (I.CRC_VAL_LO, I.CRC_VAL_HI)]
  | .lam => [(L.TIME_INCR_LO, L.TIME_INCR_HI), (L.MAINS_MC_BASE_LO, L.MAINS_MC_BASE_HI),
      (L.TRK_VIRT_BASE_LO, L.TRK_VIRT_BASE_HI), (L.CRC_VAL_LO, L.CRC_VAL_HI), (L.GNTF_STORE_BASE_LO, L.GNTF_STORE_BASE_HI),
      (L.GNTF_SUSP_BASE_LO, L.GNTF_SUSP_BASE_HI), (L.CMDQ_BASE_LO, L.CMDQ_BASE_HI), (L.RPLQ_BASE_LO, L.RPLQ_BASE_HI),
      (L.STC_STORE_BASE_LO, L.STC_STORE_BASE_HI), (L.CMP_RING_BASE_LO, L.CMP_RING_BASE_HI),
      (L.DDR_WIN_BASE_LO, L.DDR_WIN_BASE_HI), (L.SLOT_DATA_LO, L.SLOT_DATA_HI)]

/-- A value of two words set at once (R387). A value whose low or high word is not accepted is ignored whole. -/
def State.putPair (s : State) (sd : Side) (path : Path) (p : Fld × Fld) (i lo hi : Nat) : State :=
  let vl := bits lo p.1.lo p.1.width
  let vh := bits hi p.2.lo p.2.width
  if p.1 = I.ITIME_INCR_LO ∧ sd = .itu ∨ p.1 = L.TIME_INCR_LO ∧ sd = .lam then s.writeIncr sd hi lo
  else if p.1 = I.SLOT_DATA_LO ∧ sd = .itu ∨ p.1 = L.SLOT_DATA_LO ∧ sd = .lam then
    let h : Hold := { path := path, addr := slotAddr sd i, data := lo, strb := 15, at0 := 0 }
    ({ s with holds := s.holds ++ [h] } : State).writeSlotHi sd path i hi
  else if sd = .itu ∧ p.1 = I.CRC_VAL_LO then s.setCrcVal i ((lo + 2 ^ 32 * hi) % 2 ^ crcWidth (s.ri I.CRC_SEL i))
  else if sd = .lam ∧ p.1 = L.CRC_VAL_LO then s.setLcrcVal i (lo + 2 ^ 32 * hi)
  else if p.1.ok vl && p.2.ok vh && s.condOk sd p.1 i then (s.setReg sd p.1 i 0 vl).setReg sd p.2 i 0 vh
  else s

/-- Bits that byte strobes select. -/
def strbMask (strb : Nat) : Nat := (List.range 4).foldl (fun m k => if bitAt strb k then m + 255 * 2 ^ (8 * k) else m) 0

/-- Byte strobes of the bytes that a mask touches. -/
def maskStrb (m : Nat) : Nat := (List.range 4).foldl (fun a k => if bits m (8 * k) 8 = 0 then a else a + 2 ^ k) 0

/-- A word with the masked bits of data in place of its own. -/
def mergeMask (cur data m : Nat) : Nat := (cur ^^^ (cur &&& m)) ||| (data &&& m)

/-- Write authority of a field (R3, R92): its own, or its block's. -/
def fieldAuth (sd : Side) (F : Fld) (a : Nat) : Nat :=
  if F.auth = 0 then (match sd with | .itu => (ituBlock a).2.1 | .lam => 2) else F.auth

/-- A write can change the field. -/
def Access.takesWrite : Access → Bool
  | .ro | .rc => false
  | _ => true

/-- Least authority with which some field of the word is written. -/
def State.wordAuth (s : State) (sd : Side) (a : Nat) : Nat :=
  let l := ((s.fieldsAt sd a).filter fun f => f.1.acc.takesWrite).map fun f => fieldAuth sd f.1 a
  match l with
  | [] => 0
  | x :: r => r.foldl min x

/-- One field of a word written. v is the field's value after the strobes are applied, d the bits written. rwc: the write is
the commit of a transaction. -/
def State.putField (s : State) (sd : Side) (iss : Issuer) (a word mask : Nat) (rwc : Bool) (f : Fld × Nat × Nat) : State :=
  let F := f.1
  let i := f.2.1
  let j := f.2.2
  let m := bits mask F.lo F.width
  if m = 0 then s else
  let cur := s.fieldVal sd F i j
  let d := bits word F.lo F.width &&& m
  let v := (cur ^^^ (cur &&& m)) ||| d
  if !rwc && decide (authLvl iss.auth < fieldAuth sd F a) then s
  else match F.acc with
    | .ro | .rc => s
    | .rw => s.putRw sd F ⟨iss, i, j, v, word, maskStrb mask⟩
    | .wo => s.putRw sd F ⟨iss, i, j, d, word, maskStrb mask⟩
    | .w1c => s.setReg sd F i j (cur ^^^ (cur &&& d))
    | .w1s => s.setReg sd F i j (cur ||| d)
    | .rwc => if rwc then s.setReg sd F i j v else s

/-- Words whose fields take effect together through one operation: the ITU's counter selections, function enables, domain
switches and block configurations. -/
def ituGroup (a : Nat) : Option (State → Nat → State) :=
  if 0x1000 ≤ a ∧ a < 0x5000 then some fun s w => s.writeCsel ((a - 0x1000) / 4) w
  else if a = I.ITU_FN_EN_COUNTERS.addr then some fun s w => s.writeFnEn w
  else if a = I.ITU_PD_CTL_ON.addr then some fun s w => s.writePdCtl (bits w 1 4)
  else if 0x840 ≤ a ∧ a < 0x880 then some fun s w => s.writeBlockCfg ((a - 0x840) / 4) w
  else none

/-- A value of two words that a word belongs to: the pair, its instance, and whether the word is the high one. -/
def rwPairAt (sd : Side) (a : Nat) : Option ((Fld × Fld) × Nat × Bool) :=
  (rwPairs sd).findSome? fun p =>
    match p.1.at a, p.2.at a with
    | some (i, _), _ => some (p, i, false)
    | none, some (i, _) => some (p, i, true)
    | none, none => none

/-- LAM_POS is one value (R449). -/
def State.putPos (s : State) (data mask : Nat) : State :=
  let w := mergeMask (s.wordVal .lam L.LAM_POS_ROW.addr) data mask
  s.setPos (bits w 0 5) (bits w 5 4) (bits w 9 4)

/-- A word written by one who may, at the bits of a mask. hold: a low word waits for its high word. -/
def State.putWord (s : State) (sd : Side) (iss : Issuer) (a data mask : Nat) (rwc hold : Bool) : State :=
  let now := fun (s : State) (b : Nat) => s.wordVal sd b
  if mask = 0 then s else
  if sd = .lam ∧ a = L.LAM_POS_ROW.addr then s.putPos data mask else
  match (if sd = .itu then ituGroup a else none) with
  | some f => f s (mergeMask (now s a) data mask)
  | none =>
    match rwPairAt sd a with
    | some (p, i, false) =>
      let lo := mergeMask ((s.heldLow iss.path a).getD (now s a)) data mask
      if hold then
        let s := s.dropHold iss.path a
        { s with holds := s.holds ++ [⟨iss.path, a, lo, maskStrb mask, s.pathNow iss.path⟩] }
      else s.putPair sd iss.path p i lo (now s (a + 4))
    | some (p, i, true) =>
      let lo := (s.heldLow iss.path (a - 4)).getD (now s (a - 4))
      (s.dropHold iss.path (a - 4)).putPair sd iss.path p i lo (mergeMask (now s a) data mask)
    | none =>
      let fs := s.fieldsAt sd a
      let first := fs.filter fun f => f.1.acc != .wo
      let last := fs.filter fun f => f.1.acc == .wo
      (first ++ last).foldl (fun s f => s.putField sd iss a data mask rwc f) s

/-- Fields that PARTITION authority of DIG_CFG.PART may write (R302, R314). -/
def digOwn (a : Nat) : Bool := a == 0x680C || a == 0x6810 || (decide (0x6818 ≤ a) && decide (a ≤ 0x6820))

/-- A write of a mask would change a field of the word that needs more authority than the issuer has. -/
def State.fieldShort (s : State) (sd : Side) (auth : Auth) (a data m : Nat) : Bool :=
  (s.fieldsAt sd a).any fun f => f.1.acc.takesWrite && decide (authLvl auth < fieldAuth sd f.1 a) &&
    (match f.1.acc with
     | .rw | .rwc => bits (mergeMask (s.wordVal sd a) data m) f.1.lo f.1.width != s.fieldVal sd f.1 f.2.1 f.2.2
     | _ => bits (data &&& m) f.1.lo f.1.width != 0)

/-- The word at byte offset a written by an issuer: the access test, then its fields, each where its own authority is held. A
field that needs more is left, and the access is recorded once (R4). -/
def State.writeWord (s : State) (sd : Side) (iss : Issuer) (a data strb : Nat) : State :=
  let g := if sd = .itu ∧ digOwn a then s.digGuard iss a else s.guard sd iss a true (s.wordAuth sd a)
  if !g.2 then g.1 else
  let s := g.1
  let m := strbMask strb
  let s := if s.fieldShort sd iss.auth a data m then (match sd with | .itu => s.ituPriv iss a true | .lam => s.lamPriv iss.auth a true) else s
  let s := if iss.path = .pcie ∧ (s.fieldsAt sd a).any (fun f => f.1.acc == .rwc && bits m f.1.lo f.1.width != 0) then
      s.il L.CMDQ_CNT_RWC_IGNORED else s
  (s.putWord sd iss a data m false true).after sd

end Sys2Proof.Machine
end

