-- ==== Sys2Proof/Machine/Stage.lean ====
section
/-! DEFINITION. Staging of writes in transactions, the checks of a prepare, and the commit (R14, R29, R388 to R394). -/

namespace Sys2Proof.Machine

/-- TXN[23]: a FLEET transaction (R390). -/
def fleetTxn (n : Nat) : Bool := bitAt n 23

/-- The word at byte offset a is an instance of one of the fields. -/
def inFlds (l : List Fld) (a : Nat) : Bool := l.any fun F => (F.at a).isSome

/-- Words of the tables that R29 double-banks: brim, RED_SPEC (R206), gate lists (R365). -/
def bankedWord (a : Nat) : Bool := inFlds [L.BRIM_LO, L.BRIM_HI, L.RED_SPEC_LO, L.RED_SPEC_HI, L.GCL] a

/-- RWC fields that a TRAY transaction may stage: the forest slots (R276) and STAT_CLOSE_US; the others are committed by FLEET
transaction (R390). -/
def trayRwc (a : Nat) : Bool := (decide (0xC0000 ≤ a) && decide (a < 0xD0000)) || a == L.STAT_CLOSE_US.addr

/-- The bits of a word that hold fields, where the map has reserved bits inside a field of the file (R11, R25, R206, R365). -/
def rsvMask (sd : Side) (a : Nat) : Nat :=
  if sd = .itu then 0xFFFFFFFF
  else if (L.BRIM_HI.at a).isSome then 0x0003FFFF
  else if (L.RED_SPEC_LO.at a).isSome then 0x07DFFFFF
  else if (L.RED_SPEC_HI.at a).isSome then 0
  else if (L.GCL.at a).isSome then 0xFFFFFF3F
  else 0xFFFFFFFF

/-- The RWC bits of a word. -/
def State.rwcBits (s : State) (sd : Side) (a : Nat) : Nat :=
  ((s.fieldsAt sd a).filter fun f => f.1.acc == .rwc).foldl (fun m f => m ||| (2 ^ f.1.width - 1) <<< f.1.lo) 0

/-- The bits of a word that an authority may write. -/
def State.mayBits (s : State) (sd : Side) (auth : Auth) (a : Nat) : Nat :=
  ((s.fieldsAt sd a).filter fun f => f.1.acc.takesWrite && decide (fieldAuth sd f.1 a ≤ authLvl auth)).foldl
    (fun m f => m ||| (2 ^ f.1.width - 1) <<< f.1.lo) 0

/-- A staged write of a word joined to the words staged, ascending, bit by bit (R391). -/
def stageWord : List (Nat × Nat × Nat) → Nat → Nat → Nat → List (Nat × Nat × Nat)
  | [], a, v, m => [(a, v, m)]
  | (b, w, k) :: l, a, v, m =>
    if a < b then (a, v, m) :: (b, w, k) :: l
    else if a = b then (a, mergeMask w v m, k ||| m) :: l
    else (b, w, k) :: stageWord l a v m

/-- Staged words after more are staged. -/
def stageAll (l ws : List (Nat × Nat × Nat)) : List (Nat × Nat × Nat) := ws.foldl (fun l w => stageWord l w.1 w.2.1 w.2.2) l

/-- Issuer of the writes of a commit. -/
def commitIss : Side → Issuer
  | .itu => ⟨.ikl, .fleet, 0⟩
  | .lam => ⟨.cmd, .fleet, 0⟩

/-- What a writer may stage of the words of a write (R4, R389): the accesses recorded, and the words with the bits that remain. A
TRAY packet has no authority in a FLEET transaction (log entry 51). -/
def State.stageMay (s : State) (sd : Side) (auth : Auth) (fleet : Bool) (ws : List (Nat × Nat × Nat)) :
    State × List (Nat × Nat × Nat) :=
  ws.foldl (fun (acc : State × List (Nat × Nat × Nat)) w =>
    let s := acc.1
    let iss : Issuer := { commitIss sd with auth := auth }
    let priv := fun (s : State) => match sd with | .itu => s.ituPriv iss w.1 true | .lam => s.lamPriv auth w.1 true
    let g := s.guard sd iss w.1 true (s.wordAuth sd w.1)
    if !g.2 then (g.1, acc.2)
    else if fleet && auth != .fleet then (priv g.1, acc.2)
    else
      let may := s.mayBits sd auth w.1
      let s := if s.fieldShort sd auth w.1 w.2.1 w.2.2 then priv g.1 else g.1
      (s, acc.2 ++ [(w.1, w.2.1, w.2.2 &&& may)])) (s, [])

/-! ### The commit -/

/-- Staged words take effect (R394). The low word of a value waits where its high word is staged as well. -/
def State.applyWords (s : State) (sd : Side) (ws : List (Nat × Nat × Nat)) : State :=
  ws.foldl (fun s w =>
    let hold := match rwPairAt sd w.1 with
      | some (_, _, false) => ws.any fun x => x.1 == w.1 + 4
      | _ => false
    s.putWord sd (commitIss sd) w.1 (w.2.1 &&& rsvMask sd w.1) w.2.2 true hold) s

/-- The brim entries that staged words leave, which stand in the file until they are taken. -/
def State.stagedBrim (s : State) (ws : List (Nat × Nat × Nat)) : List Nat :=
  let has := fun (F : Fld) q => ws.any fun w => w.1 == F.addr + F.s1 * q
  (List.range 16).map fun q =>
    let e := s.brimEntry q
    (if has L.BRIM_LO q then s.rl L.BRIM_LO q else loOf e) + 2 ^ 32 * (if has L.BRIM_HI q then s.rl L.BRIM_HI q else hiOf e)

/-- The file without the brim words. -/
def State.clearBrim (s : State) : State := (List.range 16).foldl (fun s q => (s.wl L.BRIM_LO 0 q).wl L.BRIM_HI 0 q) s

/-- Forest slots that a transaction touches, with the swap of each: 0 none, 1 to the shadow bank, 2 to empty (R276). -/
def Stg.forest (g : Stg) : List (Nat × Nat) :=
  (List.range 64).filterMap fun i =>
    let sw := if g.swaps.contains (2, i) then 2 else if g.swaps.contains (0, i) then 1 else 0
    let touched := g.words.any fun w =>
      (decide (0xC0400 ≤ w.1) && w.1 < 0xC1400 && (w.1 - 0xC0400) / 0x40 == i) ||
      (decide (0xC1400 ≤ w.1) && w.1 < 0xC1C00 && (w.1 - 0xC1400) / 0x20 == i)
    if touched || sw != 0 then some (i, sw) else none

/-- Cohorts whose STRAG_CFG, and detector sets whose configuration, a transaction stages. -/
def Stg.cohorts (g : Stg) : List Nat := (List.range 128).filter fun c => g.words.any fun w => decide (0x200400 ≤ w.1) && w.1 < 0x200C00 && (w.1 - 0x200400) / 0x10 == c
def Stg.sets (g : Stg) : List Nat := (List.range 64).filter fun d => g.words.any fun w => decide (0x201000 ≤ w.1) && w.1 < 0x201800 && (w.1 - 0x201000) / 0x20 == d

/-- Straggler state of the ports of a cohort whose STRAG_CFG is committed is cleared (R235). -/
def State.stragClear (s : State) (cs : List Nat) : State :=
  (List.range 16).foldl (fun s q =>
    if cs.contains (s.det q).strag.cohort || (brimBound (s.brimEntry q) && cs.contains (brimCohort (s.brimEntry q))) then
      s.setDet q { s.det q with strag := {} }
    else s) s

/-- Detector areas of trackers whose set is committed are cleared (R240). -/
def State.detClear (s : State) (ds : List Nat) : State :=
  if ds = [] then s else
  s.lam.trk.foldl (fun s e =>
    if ds.contains (DetArea.ofWords e.2.detect).set || (match s.detSet e.2.counter with | some d => ds.contains d | none => false) then
      s.setTrk e.1 { e.2 with detect := List.replicate 16 0 }
    else s) s

/-- What a Tray writes to its ITUs after a commit (R101, R160, R394). -/
def State.tellItus (s : State) (fleet : Bool) : State :=
  if s.role ≠ 0 then s else
  (List.range 16).foldl (fun s q =>
    if s.portUp q && s.rl L.LNK_STAT_PORT q == 2 then
      let s := if fleet then s.ituWrite q I.CUFF_EPOCH.addr (s.rl L.CFG_EPOCH) else s
      s.ituWrite q I.SMP_PHASE.addr (s.sampleSlot q)
    else s) s

/-- The swap of the tables at a FLEET commit at time c (R29, R394): the brim with its epoch, the file of the former bank, the
rank directory; and the configuration epoch. -/
def State.swapBanks (s : State) (old : Regs) (entries : List Nat) (c : Nat) : State :=
  let ep := (s.rl L.CFG_EPOCH + 1) % 65536
  let b := s.lam.brim
  let s := { s with lam := { s.lam with
    brim := { active := { entries := entries, epoch := ep }, retiring := some b.active, commit := some (short c), commitMc := s.mc .lam },
    oldRegs := some old, dirBank := if s.isCrown then (s.lam.dirBank + 1) % 2 else s.lam.dirBank } }
  s.wl L.CFG_EPOCH ep

/-- A Lamulo's commit at time c (R394). -/
def State.commitLam (s : State) (g : Stg) (c : Nat) : State :=
  let fleet := fleetTxn g.txn
  let old := s.lam.regs
  let s := s.applyWords .lam g.words
  let entries := s.stagedBrim g.words
  let s := s.clearBrim
  let s := if fleet then s.swapBanks old entries c else s
  let s := g.forest.foldl (fun s x => s.forestCommit x.1 x.2 c) s
  let s := if g.swaps.any fun x => x.1 == 1 then s.gntCommit else s
  let s := (s.stragClear g.cohorts).detClear g.sets
  let s := if s.isCrown then (List.range 128).foldl (fun s k => s.digKeys old k) s else s
  let s := (s.wl L.TXN_LAST_C (short c)).il L.TXN_CNT_COMMIT
  (s.ldgRefresh.after .lam).tellItus fleet

/-- An ITU's commit (R394). -/
def State.commitItu (s : State) (g : Stg) : State := ((s.applyWords .itu g.words).ii I.ITXN_CNT_COMMIT).after .itu

/-! ### The checks of a prepare (R392) -/

/-- A staged value lies outside the range of its field. -/
def State.rangeBad (s : State) (sd : Side) (ws : List (Nat × Nat × Nat)) : Bool :=
  ws.any fun w => (s.fieldsAt sd w.1).any fun f =>
    let m := bits w.2.2 f.1.lo f.1.width
    let cur := s.fieldVal sd f.1 f.2.1 f.2.2
    (f.1.acc == .rw || f.1.acc == .rwc) && m != 0 &&
      !f.1.ok ((cur ^^^ (cur &&& m)) ||| (bits (w.2.1 &&& rsvMask sd w.1) f.1.lo f.1.width &&& m))

/-- Some staged word is an instance of one of the fields, with outer instance i. -/
def stagesAt (ws : List (Nat × Nat × Nat)) (l : List Fld) (i : Nat) : Bool :=
  ws.any fun w => l.any fun F => match F.at w.1 with | some x => x.1 == i | none => false

/-- Some staged word is an instance of one of the fields. -/
def stagesAny (ws : List (Nat × Nat × Nat)) (l : List Fld) : Bool := ws.any fun w => inFlds l w.1

/-- Peers that R19 and R20 allow the port of a role: node numbers (R156) and the STANDBY bit, for this node's position. -/
def State.peerOk (s : State) (p : Nat) : Bool :=
  let n := s.rl L.ETH_PORT_PEER_NODE p
  let st := s.rl L.ETH_PORT_PEER_STANDBY p
  let row := s.rl L.LAM_POS_ROW
  let rack := s.rl L.LAM_POS_RACK
  let rackNo := fun w k => 2 <<< 17 ||| w <<< 12 ||| k <<< 8
  match s.role, s.portRole p with
  | 0, 1 => n == rackNo row rack && st == 0
  | 0, 2 => (List.range 16).any (fun k => k != rack && n == rackNo row k) && st == 0
  | 1, 1 => n == (1 <<< 17 ||| row <<< 12) && st == 0
  | 1, 2 => (List.range 32).any (fun w => w != row && n == (1 <<< 17 ||| w <<< 12)) && st == 0
  | 1, 3 => nodeRank n == 3 && bits n 12 5 == row && bits n 0 4 == 0 && st == 0
  | 2, 1 => n == 0 && st == 0
  | 2, 2 => n == 0 && st == 1
  | 2, 3 => nodeRank n == 2 && bits n 0 8 == 0 && st == 0
  | 3, 1 => n == 0 && st == 0
  | 3, 3 => (nodeRank n == 1 && bits n 0 12 == 0 && st == 0) || (n == 0 && st == 1 && !s.isStandby)
  | 0, 3 => false
  | _, _ => true

/-- R359, R20: the roles and peers of the ports. -/
def State.portsBad (s : State) : Bool :=
  let cnt := fun r => ((List.range 24).filter fun p => s.portRole p == r).length
  (List.range 24).any (fun p => decide (6 ≤ s.portRole p) || !s.peerOk p || (s.portRole p == 4 && s.role != 3)) ||
    (if s.role ≠ 3 then cnt 1 != 1 || cnt 2 != 1
     else if s.isStandby then cnt 1 != 1 || cnt 2 != 0
     else cnt 1 != 0 || cnt 2 != 0)

/-- Stretches in which gate c is closed, as start and end from a slot boundary, of a list of entries whose last holds to stop. -/
def closedRuns (c stop : Nat) : List Nat → Nat → List (Nat × Nat) → List (Nat × Nat)
  | [], _, acc => acc.reverse
  | g :: r, t, acc =>
    let e := if r = [] then max t stop else t + g / 256
    let acc := if bitAt g c || e ≤ t then acc else
      match acc with
      | (a, b) :: l => if b = t then (a, e) :: l else (t, e) :: acc
      | [] => [(t, e)]
    closedRuns c stop r e acc

/-- Slots of length n: some stretch lasts longer than lim, one at the slot's end being counted into the next slot (R367). -/
def stretchBad (runs : List (Nat × Nat)) (lim n : Nat) : Bool :=
  let cut := (runs.filter fun r => decide (r.1 < n)).map fun r => (r.1, min r.2 n)
  let lead := match cut with | (0, b) :: _ => b | _ => 0
  cut.any fun r => if r.2 = n then r.1 == 0 || decide (lim < n - r.1 + lead) else decide (lim < r.2 - r.1)

/-- Length of the longest slot: a cycle at 45 Hz with the largest correction (R62, R65; log entry 52). -/
def State.longSlot (s : State) : Nat := (22222223 + s.rl L.MAINS_SLEW_LIMIT) / 64 + 1

/-- R367 for port p. -/
def State.gatesBad (s : State) (p : Nat) : Bool :=
  if s.rl L.GATE_CTL_EN p = 0 then false else
  let entries := (List.range (s.gclLen p)).map (s.gcl p)
  let top := s.longSlot
  [(0, 50000), (3, 1000000), (4, 1000000), (5, 1000000)].any fun x =>
    let runs := closedRuns x.1 top entries 0 []
    ([260416, top] ++ (runs.map (·.2)).filter fun b => decide (260416 < b) && decide (b < top)).any (stretchBad runs x.2)

/-- R363, R364, R376 for port p. -/
def State.shapeBad (s : State) (ws : List (Nat × Nat × Nat)) (p : Nat) : Bool :=
  let least := s.rl L.ETH_MTU + 64
  (stagesAt ws [L.SHP_BURST] p && (List.range 6).any fun c => decide (s.rl L.SHP_BURST p c < least)) ||
    (stagesAt ws [L.SHP_RATE] p && decide (95 * s.lineRate p * 1000000 < 800 * sumBy (fun c => s.rl L.SHP_RATE p c) (List.range 6))) ||
    (stagesAt ws [L.POL_CFG_MODE, L.POL_CIR, L.POL_CBS, L.POL_PIR] p && (List.range 4).any fun c =>
      s.rl L.POL_CFG_MODE p c != 0 && (decide (s.rl L.POL_CBS p c < least) ||
        (s.rl L.POL_CFG_MODE p c == 2 && decide (s.rl L.POL_PIR p c < s.rl L.POL_CIR p c))))

/-- R206 for RED_SPEC entry i. -/
def State.specBad (s : State) (i : Nat) : Bool :=
  let w := s.rl L.RED_SPEC_LO i
  (bitAt (specOps w) 3 && specField w != 0) || (specOps w == 0 && specEn w)

/-- R236, R245 for detector set d. -/
def State.setBad (s : State) (d : Nat) : Bool :=
  let f := s.rl L.DET_SET_FIELD d
  let w := s.rl L.RED_SPEC_LO (s.rl L.DET_SET_SPEC d)
  f == 0 || f == 3 || (s.rl L.DET_SET_EN d == 1 &&
    !(bitAt (specOps w) 6 && specGroup w == 0 && specCounter w == s.rl L.DET_SET_COUNTER d && specField w == f))

/-- The largest prime below 2^61 (R293), in whose field digests are taken. -/
def digPrime : Nat := 2 ^ 61 - 1

/-- A digest key is out of its range (R295). -/
def keyBad (k : Nat) : Bool := decide (k < 2) || decide (digPrime - 1 < k)

/-- The Lamulo's prepare conditions, on the state s that the commit of g would leave the registers in; s0 is the state now. -/
def State.condsBad (s s0 : State) (g : Stg) : Bool :=
  let ws := g.words
  (List.range 16).any (fun q => stagesAt ws [L.BRIM_LO, L.BRIM_HI] q &&
    (let e := nth (s.stagedBrim ws) q; brimBound e && bitAt e 49)) ||
  (stagesAny ws [L.ETH_PORT_CFG_ROLE, L.ETH_PORT_PEER_NODE] && s.portsBad) ||
  (List.range 24).any (fun p => s.shapeBad ws p || (stagesAt ws [L.GATE_CTL_EN, L.GCL] p && s.gatesBad p)) ||
  (List.range 512).any (fun i => stagesAt ws [L.RED_SPEC_LO] i && s.specBad i) ||
  g.cohorts.any (fun c => decide (s.rl L.STRAG_CFG_K c < s.rl L.STRAG_CFG_LAST_MIN c)) || g.sets.any s.setBad ||
  g.forest.any (fun x => s0.forestBad x.1 s.lam.regs x.2) ||
  (List.range 128).any (fun c => stagesAt ws [L.DIGF_COH_KEY1_LO, L.DIGF_COH_KEY1_HI] c &&
    keyBad (s.rl L.DIGF_COH_KEY1_LO c + 2 ^ 32 * s.rl L.DIGF_COH_KEY1_HI c)) ||
  (g.swaps.any (fun x => x.1 == 1) && (s.rl L.GNTF_STAT_SHADOW != 2 || s.rl L.GNTF_STAT_RETIRING == 1)) ||
  ((stagesAny ws [L.GNTF_CFG_SWEEP_STEPS] || g.swaps.any fun x => x.1 == 1) &&
    (match (if g.swaps.any fun x => x.1 == 1 then s.lam.gnt.shadow else s.lam.gnt.active) with
     | some p => decide (s.rl L.GNTF_CFG_SWEEP_STEPS < (pkgList p.img 2).length)
     | none => false))

/-- A Lamulo's staged values fail the checks of a prepare. -/
def State.prepBadLam (s : State) (g : Stg) : Bool :=
  s.rangeBad .lam g.words || (s.applyWords .lam g.words).condsBad s g

/-- An ITU's staged values fail the checks of a prepare (R295, R314, R356). -/
def State.prepBadItu (s : State) (g : Stg) : Bool :=
  let t := s.applyWords .itu g.words
  let v := fun (lo hi : Fld) => t.ri lo + 2 ^ 32 * t.ri hi
  let k1 := v I.DIG_KEY1_LO I.DIG_KEY1_HI
  let k2 := v I.DIG_KEY2_LO I.DIG_KEY2_HI
  let a := v I.DIG_RANGE_LO_LO I.DIG_RANGE_LO_HI
  let b := v I.DIG_RANGE_HI_LO I.DIG_RANGE_HI_HI
  s.rangeBad .itu g.words ||
    (stagesAny g.words [I.DIG_KEY1_LO, I.DIG_KEY1_HI, I.DIG_KEY2_LO, I.DIG_KEY2_HI] && (keyBad k1 || keyBad k2 || k1 == k2)) ||
    (stagesAny g.words [I.DIG_RANGE_LO_LO, I.DIG_RANGE_LO_HI, I.DIG_RANGE_HI_LO, I.DIG_RANGE_HI_HI] &&
      (decide (b ≤ a) || decide (2 ^ 47 < b))) ||
    (stagesAny g.words [I.LDG_CMAX] && (decide (t.ri I.LDG_CMAX < s.itu.caps.idleW) || decide (s.itu.caps.tdpW < t.ri I.LDG_CMAX)))

end Sys2Proof.Machine
end

