-- ==== Sys2Proof/Machine/StcReg.lean ====
section
/-! DEFINITION. Stitch instructions that reach registers and cells: RDW and PUTV (R405, R407, R414). -/

namespace Sys2Proof.Machine

/-- What a stitch context reads the registers as (R405): its owner partition at an ITU, TRAY authority at a Lamulo. -/
def State.stcIssuer (s : State) : Side → Nat → Issuer
  | .itu, c => { path := .ikl, auth := .partition, part := s.owner c }
  | .lam, _ => { path := .cmd, auth := .tray }

/-- A register word read by a context. It takes and releases no read latch (log entry 50); beyond the window there is nothing to
read. -/
def State.stcRead (s : State) (sd : Side) (c a : Nat) : Nat × State :=
  if sd = .itu ∧ 0x10000 ≤ a then (0, s) else
  let r := ({ s with latches := [] } : State).readWord sd (s.stcIssuer sd c) a
  (r.1, { r.2 with latches := s.latches })

/-- RDW (R407): the register word at word address xA + IMM18. -/
def execRdw (sd : Side) (c : Nat) (s : State) : Out :=
  .next (s.stcIssue sd c 0x28 fun w s =>
    let r := s.stcRead sd c (4 * (((s.ctx sd c).reg (iA w) + imm18 w) % 2 ^ 64))
    r.2.setX sd c (iD w) (r.1 % 2 ^ 32))

/-- A stitch value of the die on port q for a latch instant (R414): the inputs of the FIELD 3 entries of its channel, and the
value that forest features take. Values of the last second are kept. -/
def State.stitchValue (s : State) (q chan v t mc slot entry epoch : Nat) (src : Src) : State :=
  let keep := s.lam.fst.stv.filter fun x => !(x.1 == q && x.2.1 == chan && x.2.2.1 == t) && decide (s.now .lam ≤ x.2.2.1 + 1000000000)
  let s := { s with lam := { s.lam with fst := { s.lam.fst with stv := keep ++ [(q, chan, t, v)] } } }
  (s.specsOf t fun w => specField w == 3 && specCounter w == chan).foldl (fun s x =>
    s.dieInput x.1 x.2 q entry epoch v false src t mc slot) s

/-- PUTV in an ITU (R405, R414). -/
def State.putvItu (s : State) (c chan v : Nat) : State :=
  if s.ri I.PART_STAT_CUFF (s.owner c) = 1 then s.setLast .itu c 11 else
  match (s.ctx .itu c).latch with
  | none => s.setLast .itu c 9
  | some (t, n, _) =>
    if s.itu.stc.published.contains (chan, n) then (s.setLast .itu c 8).ii I.STC_CNT_VAL_DUP 1 c
    else
      let s := s.stcOffer c (s.ituRec 1 0x0F0 (s.owner c) (short t) [chan ||| c <<< 12, v, n / 64 % 2 ^ 32, n % 64])
      if s.ri I.STC_CTX_STAT_LAST c = 0 then
        s.setStc .itu { s.itu.stc with published := s.itu.stc.published ++ [(chan, n)] }
      else s

/-- PUTV in a Lamulo (R414): the Tray alone. A second value of a port on the same channel and latch is a duplicate, as in an ITU (R424,
log entry 59). No record names the value: the SEQ a DEADLINE_MISS would give is a free value. -/
def State.putvLam (s : State) (c chan v q : Nat) : State :=
  if s.role ≠ 0 then s.setLast .lam c 10 else
  match (s.ctx .lam c).latch with
  | none => s.setLast .lam c 9
  | some (t, n, _) =>
    if s.lam.stc.published.contains (4096 * q + chan, n) then (s.setLast .lam c 8).il L.STC_CNT_VAL_DUP 1 c
    else
      let s := (s.setLast .lam c 0).setStc .lam { s.lam.stc with published := s.lam.stc.published ++ [(4096 * q + chan, n)] }
      match s.brimLookup q (short t) with
      | some (entry, epoch) =>
        s.free.2.stitchValue q chan v t (n / 64 % 2 ^ 32) (n % 64) entry epoch
          { die := s.dieId q, cls := 1, typ := 0x0F0, seq := s.free.1 % 2 ^ 32, short := short t }
      | none => s

/-- PUTV (R414). -/
def execPutv (sd : Side) (c : Nat) (s : State) : Out :=
  .next (s.stcIssue sd c 0x2B fun w s =>
    let chan := ((s.ctx sd c).reg (iA w) + bits w 0 12) % 4096
    let v := (s.ctx sd c).reg (iD w) % 2 ^ 32
    match sd with
    | .itu => s.putvItu c chan v
    | .lam => s.putvLam c chan v (bits w 12 4))

end Sys2Proof.Machine
end

