-- ==== Sys2Proof/Machine/RegCmd.lean ====
section
/-! DEFINITION. Register commands (R385, R388, R389), the staging of writes (R390, R391, R397), ADMIT_SET and ADMIT_GET (R201),
NOP, BANK_SWAP and FOREST_UNLOAD (R383). -/

namespace Sys2Proof.Machine

/-- Authority of a packet (R377). -/
def CmdHdr.level (h : CmdHdr) : Auth := if h.auth = 2 then .fleet else .tray

/-- Who a register command is for the access rules. -/
def cmdIssuer (sd : Side) (h : CmdHdr) : Issuer :=
  match sd with
  | .itu => ⟨.ikl, h.level, 0⟩
  | .lam => ⟨.cmd, h.level, 0⟩

/-- SPACE and COUNT are accepted (R385): SPACE names an object of the target. -/
def regParamOk (h : CmdHdr) (space count : Nat) : Bool :=
  (space == 0 && h.amode != 2 && h.amode != 6 || space == 1 && h.amode != 0 && h.amode != 1 && h.amode != 4) &&
    decide (1 ≤ count) && decide (count ≤ 16)

/-- This part executes the command: SPACE 0 is the ITU's, SPACE 1 the Lamulo's. -/
def regHere (sd : Side) (space : Nat) : Bool := match sd with | .itu => space == 0 | .lam => space == 1

/-- Words read one after another in one cycle. -/
def State.readWords (s : State) (sd : Side) (iss : Issuer) (a : Nat) : Nat → List Nat × State
  | 0 => ([], s)
  | n + 1 =>
    let r := s.readWord sd iss a
    let t := State.readWords r.2 sd iss (a + 4) n
    (r.1 :: t.1, t.2)

/-- REG_READ (R385, R386). -/
def State.opRegRead (s : State) (sd : Side) (h : CmdHdr) (space addr count : Nat) : State × CmdRes :=
  if !regParamOk h space count then (s, { status := St.badParam })
  else
    let r := s.readWords sd (cmdIssuer sd h) (addr / 4 * 4) count
    (r.2, { data := r.1 })

/-- A reply of a part. -/
def State.reply (s : State) (sd : Side) (h : CmdHdr) (r : CmdRes) : State :=
  match sd with | .itu => s.ituReply h r | .lam => s.lamReply h r

/-- The words of a REG_WRITE: address, data, mask of its strobes (R385). -/
def regWords (addr count strb : Nat) (data : List Nat) : List (Nat × Nat × Nat) :=
  (List.range count).map fun w => (addr / 4 * 4 + 4 * w, nth data w % 2 ^ 32, strbMask (bits strb (4 * w) 4))

/-- A write to the ITU's program store or local memory comes from the loader (R419, R422). -/
def State.loaderOk (s : State) (h : CmdHdr) (a : Nat) : Bool :=
  match stcPlaceOf .itu a with
  | some (.inl _) => h.auth == 2 && h.issuer == 15
  | some (.inr (w, _)) => h.auth == 2 && h.issuer == 15 && s.stcIdle .itu (w / 8192)
  | none => true

/-- A word of the ITU's program store or local memory written by the loader: of a local memory word the low half waits for the
high one (R387, R422). -/
def State.loaderWrite (s : State) (a data mask : Nat) : State :=
  if !s.ipdOn 4 then s.ituOffAccess else
  let v := mergeMask (s.wordVal .itu a) data mask
  match stcPlaceOf .itu a with
  | some (.inl i) => s.setStc .itu { s.itu.stc with store := Sparse.set 0 s.itu.stc.store i v }
  | some (.inr (_, false)) =>
    let s := s.dropHold .ikl a
    { s with holds := s.holds ++ [⟨.ikl, a, v, 15, s.pathNow .ikl⟩] }
  | some (.inr (w, true)) =>
    let lo := (s.heldLow .ikl (a - 4)).getD (s.wordVal .itu (a - 4))
    (s.dropHold .ikl (a - 4)).setStcMem .itu (w / 8192) (w % 8192) (lo + 2 ^ 32 * v)
  | none => s

/-- A REG_WRITE outside a transaction (R385, R388). -/
def State.regWriteNow (s : State) (sd : Side) (h : CmdHdr) (ws : List (Nat × Nat × Nat)) : State × CmdRes :=
  if ws.any fun w => s.rwcBits sd w.1 &&& w.2.2 != 0 then (s, { status := St.notInTxn })
  else
    (ws.foldl (fun s w =>
      if w.2.2 = 0 then s
      else if sd = .itu ∧ (stcPlaceOf .itu w.1).isSome then s.loaderWrite w.1 w.2.1 w.2.2
      else s.writeWord sd (cmdIssuer sd h) w.1 w.2.1 (maskStrb w.2.2)) s, {})

/-! ### Staging -/

/-- The control plane replaced. -/
def State.setCtl (s : State) (c : Ctl) : State := { s with lam := { s.lam with ctl := c } }

/-- What this Lamulo has staged for a transaction. -/
def State.stgOf (s : State) (txn : Nat) : Option Stg := s.lam.ctl.stg.find? fun g => g.txn == txn

/-- The same, put in place. -/
def State.putStg (s : State) (g : Stg) : State :=
  let l := s.lam.ctl.stg
  s.setCtl { s.lam.ctl with stg := if l.any (fun x => x.txn == g.txn) then l.map (fun x => if x.txn = g.txn then g else x) else l ++ [g] }

/-- A transaction that this Lamulo coordinates. -/
def State.txnOf (s : State) (txn : Nat) : Option Txn := s.lam.ctl.txns.find? fun t => t.num == txn

/-- The same, put in place. -/
def State.putTxn (s : State) (t : Txn) : State :=
  let l := s.lam.ctl.txns
  s.setCtl { s.lam.ctl with txns := if l.any (fun x => x.num == t.num) then l.map (fun x => if x.num = t.num then t else x) else l ++ [t] }

/-- A command of a transaction reaches its coordinator (R391). -/
def State.touchTxn (s : State) (txn : Nat) : State :=
  match s.txnOf txn with
  | some t => s.putTxn { t with last := s.now .lam }
  | none => s

/-- Staged words at a Lamulo, over its transactions. -/
def State.stagedCount (s : State) : Nat := sumBy (fun g => g.words.length) s.lam.ctl.stg

/-- Why a staging is refused at a Lamulo before it is tried (R390, R391): the coordinator's transaction is not open, or the values
are prepared. -/
def State.stageRefuse (s : State) (h : CmdHdr) : Option Nat :=
  match s.lam.ctl.decided.find? fun d => d.1 == h.txn with
  | some d => some (if d.2 then St.txnState else St.rolledBack)
  | none =>
  match s.txnOf h.txn with
  | some t => if t.state = .opened then
      (match s.stgOf h.txn with
       | some g => if g.wdog then some St.watchdog else none
       | none => none)
    else some St.txnState
  | none =>
    if !fleetTxn h.txn then some (if h.origin = s.nodeNo then St.txnUnknown else St.badTarget)
    else if s.isCrown then some St.txnUnknown
    else match s.stgOf h.txn with
      | some g => if g.voted then some St.txnState else if g.wdog then some St.watchdog else none
      | none => none

/-- A staging of words and bank changes at a Lamulo (R391): refused, waiting (none), or done. -/
def State.stageLam (s : State) (h : CmdHdr) (ws : List (Nat × Nat × Nat)) (sw : List (Nat × Nat)) : State × Option Nat :=
  match s.stageRefuse h with
  | some st => (s, some st)
  | none =>
    if s.lam.ctl.stg.any (fun g => g.txn != h.txn && g.words.any fun w => ws.any fun x => x.1 == w.1) ||
        (s.retiring && ws.any fun w => bankedWord w.1) then (s, none)
    else
      let own := s.stgOf h.txn
      let g : Stg := own.getD { txn := h.txn, begun := match s.txnOf h.txn with | some t => t.begun | none => s.now .lam }
      let words := stageAll g.words ws
      if (own.isNone && decide (16 ≤ s.lam.ctl.stg.length)) ||
          decide (16384 < s.stagedCount + words.length - g.words.length) then
        (s.putStg { g with full := true }, some St.txnFull)
      else (s.putStg { g with words := words, swaps := g.swaps ++ sw.filter fun x => !g.swaps.contains x }, some St.ok)

/-- The staging at an ITU (R391): one transaction at a time. -/
def State.stageItu (s : State) (h : CmdHdr) (ws : List (Nat × Nat × Nat)) : State × Option Nat :=
  let put := fun (g : Stg) => ({ s with itu := { s.itu with txn := { s.itu.txn with stg := some g } } } : State)
  match s.itu.txn.stg with
  | some g =>
    if g.txn ≠ h.txn then (s, none)
    else if g.voted then (s, some St.txnState)
    else if g.wdog then (s, some St.watchdog)
    else
      let words := stageAll g.words ws
      if 256 < words.length then (put { g with full := true }, some St.txnFull) else (put { g with words := words }, some St.ok)
  | none =>
    let g : Stg := { txn := h.txn, begun := s.now .itu, words := stageAll [] ws }
    if 256 < g.words.length then (put { g with words := [], full := true }, some St.txnFull) else (put g, some St.ok)

/-- A staging of a part: refused, waiting (none), or done. -/
def State.stage (s : State) (sd : Side) (h : CmdHdr) (ws : List (Nat × Nat × Nat)) (sw : List (Nat × Nat)) : State × Option Nat :=
  match sd with
  | .itu => s.stageItu h ws
  | .lam => s.stageLam h ws sw

/-- A packet waits at a part since a time (R391, R397). -/
def State.addWait (s : State) (sd : Side) (w : StgWait) : State :=
  match sd with
  | .itu => { s with itu := { s.itu with txn := { s.itu.txn with waits := s.itu.txn.waits ++ [w] } } }
  | .lam => s.setCtl { s.lam.ctl with waits := s.lam.ctl.waits ++ [w] }

/-- A staged write of a part, answered unless it waits. -/
def State.stageAns (s : State) (sd : Side) (p : Pkt) (since : Nat) (ws : List (Nat × Nat × Nat)) (sw : List (Nat × Nat)) : State :=
  let s := match sd with | .lam => s.touchTxn p.hdr.txn | .itu => s
  let r := s.stage sd p.hdr ws sw
  match r.2 with
  | some st => r.1.reply sd p.hdr { status := st }
  | none => r.1.addWait sd ⟨p, since⟩

/-- A REG_WRITE at a part (R385, R388 to R391). -/
def State.regWrite (s : State) (sd : Side) (h : CmdHdr) (space addr count strb : Nat) (data : List Nat) (since : Nat) : State :=
  let ws := (regWords addr count strb data).filter fun w => w.2.2 != 0
  let h := { h with opcode := 3 }
  if !regParamOk h space count then s.reply sd h { status := St.badParam }
  else if sd = .itu ∧ ws.any (fun w => !s.loaderOk h w.1 || (h.inTxn && (stcPlaceOf .itu w.1).isSome)) then
    s.reply sd h { status := St.badParam }
  else if !h.inTxn then let r := s.regWriteNow sd h ws; r.1.reply sd h r.2
  else if !fleetTxn h.txn ∧ ws.any (fun w => s.rwcBits sd w.1 &&& w.2.2 != 0 && (sd == .itu || !trayRwc w.1)) then
    s.reply sd h { status := St.fleetField }
  else
    let m := s.stageMay sd h.level (fleetTxn h.txn) ws
    m.1.stageAns sd ⟨h, [space ||| addr / 4 <<< 2, count, strb % 2 ^ 32, strb / 2 ^ 32] ++ data⟩ since
      (m.2.filter fun w => w.2.2 != 0) []

/-- BANK_SWAP at a Lamulo (R276, R320): staged. -/
def State.bankSwap (s : State) (h : CmdHdr) (obj slot since : Nat) : State :=
  let h := { h with opcode := 4 }
  let ans := fun st => s.lamReply h { status := st }
  if !h.inTxn then ans St.notInTxn
  else if obj = 0 ∧ !s.forestOn then ans St.domainOff
  else if obj = 1 ∧ !fleetTxn h.txn then ans St.fleetField
  else s.stageAns .lam ⟨h, [obj % 2 ||| slot % 64 <<< 1]⟩ since [] [(obj % 2, if obj % 2 = 1 then 0 else slot % 64)]

/-- FOREST_UNLOAD at a Lamulo (R275, R276): staged; at the commit the slot is left without a bank. -/
def State.forestUnload (s : State) (h : CmdHdr) (slot since : Nat) : State :=
  let h := { h with opcode := 0x31 }
  if !h.inTxn then s.lamReply h { status := St.notInTxn }
  else if !s.forestOn then s.lamReply h { status := St.domainOff }
  else s.stageAns .lam ⟨h, [slot % 64]⟩ since [] [(2, slot % 64)]

/-- A packet that waited is tried again. -/
def State.retryWait (s : State) (sd : Side) (w : StgWait) : State :=
  let p := w.pkt
  let n := p.param
  match p.hdr.opcode with
  | 4 => s.bankSwap p.hdr (n 0 % 2) (bits (n 0) 1 6) w.since
  | 0x31 => s.forestUnload p.hdr (n 0 % 64) w.since
  | _ => s.regWrite sd p.hdr (bits (n 0) 0 2) (bits (n 0) 2 26 * 4) (n 1) (n 2 + 2 ^ 32 * n 3) (p.params.drop 4) w.since

/-- The packets that wait at a part are tried again in order, after a transaction has ended or a bank was released. -/
def State.retryWaits (s : State) (sd : Side) : State :=
  match sd with
  | .itu =>
    let l := s.itu.txn.waits
    l.foldl (fun s w => s.retryWait .itu w) { s with itu := { s.itu with txn := { s.itu.txn with waits := [] } } }
  | .lam =>
    let l := s.lam.ctl.waits
    l.foldl (fun s w => s.retryWait .lam w) (s.setCtl { s.lam.ctl with waits := [] })

/-- BANK_SWAP (R383). -/
def execBankSwap (h : CmdHdr) (obj slot : Nat) (s : State) : Out := .next (s.bankSwap h obj slot (s.now .lam))

/-- FOREST_UNLOAD (R383). -/
def execForestUnload (h : CmdHdr) (slot : Nat) (s : State) : Out := .next (s.forestUnload h slot (s.now .lam))

/-- NOP (R383): a reply only. -/
def execNop (sd : Side) (h : CmdHdr) (s : State) : Out := .next (s.reply sd { h with opcode := 1 } {})

/-- REG_READ (R385). A Lamulo that forwards a SPACE 0 read is no responder. -/
def execRegRead (sd : Side) (h : CmdHdr) (space addr count : Nat) (s : State) : Out :=
  let r := s.opRegRead sd h space addr count
  if regParamOk h space count && !regHere sd space then .next s else .next (r.1.reply sd { h with opcode := 2 } r.2)

/-! ### Admission (R201) -/

/-- ADMIT_SET at the ITU: the bucket starts full. -/
def State.opAdmitSet (s : State) (c rate burst : Nat) : State × CmdRes :=
  if 3 ≤ c then (s, { status := St.badParam }) else
  let b : Bucket := { s.itu.txq.bkt.getD c Bucket.none with rate := rate % 2 ^ 32, burst := burst % 2 ^ 24,
                                                            level := burst % 2 ^ 24 * 1000000, at0 := s.now .itu }
  ({ s with itu := { s.itu with txq := { s.itu.txq with bkt := setNth Bucket.none s.itu.txq.bkt c b } } }, {})

/-- ADMIT_GET at the ITU: RATE, BURST and the level in whole bytes. -/
def State.opAdmitGet (s : State) (c : Nat) : State × CmdRes :=
  if 3 ≤ c then (s, { status := St.badParam }) else
  let b := (s.itu.txq.bkt.getD c Bucket.none).refill (s.now .itu)
  (s, { data := [b.rate, b.burst, b.level / 1000000] })

/-- ADMIT_SET (R201, opcode 0x20). -/
def execAdmitSet (h : CmdHdr) (c rate burst : Nat) (s : State) : Out :=
  .next (s.cmdItu { h with opcode := 0x20 } fun s => s.opAdmitSet c rate burst)

/-- ADMIT_GET (R201, opcode 0x21). -/
def execAdmitGet (h : CmdHdr) (c : Nat) (s : State) : Out :=
  .next (s.cmdItu { h with opcode := 0x21 } fun s => s.opAdmitGet c)

end Sys2Proof.Machine
end

