-- ==== Sys2Proof/Machine/Txn.lean ====
section
/-! DEFINITION. Transactions: begin, commit, votes, decision, commit instant, doubt, watchdog (R390 to R397). -/

namespace Sys2Proof.Machine

/-! ### Own records and packets -/

/-- An ITU's own control-class record of the control plane, sent whatever the Cuff (log entry 16). -/
def State.ituSay (s : State) (typ : Nat) (body : List Nat) : State := (s.ituOffer (s.ituRec 3 typ 0 (s.now .itu) body)).1

/-- A refusal with DENIED, AUTH_FAIL or REPLAY is recorded in the privileged counters (R389). -/
def State.denied (s : State) (h : CmdHdr) : State := s.lamPriv h.level 0 true

/-- An own packet of a transaction to the dies of a list of ports. -/
def State.txnDies (s : State) (qs : List Nat) (op txn : Nat) (params : List Nat) : State :=
  qs.foldl (fun s q => let p := s.ownPkt op 5 0 true params (some txn); p.1.toItu q p.2) s

/-- An own packet of a FLEET transaction to every child and to the standby Crown (R392, R393). -/
def State.txnAll (s : State) (op txn : Nat) (params : List Nat) : State :=
  let p := s.ownPkt op 5 0 true params (some txn)
  (p.1.send .kids 4 (.cmd p.2)).send .standby 4 (.cmd p.2)

/-- TXN_OUTCOME of the Lamulo (R396): 0 IN_DOUBT, 1 LATE_APPLIED, 2 DISCARDED. -/
def State.outcomeLam (s : State) (txn o : Nat) : State :=
  s.lamEmit 3 0x0E2 (s.now .lam) [txn ||| o <<< 24, s.rl L.CFG_EPOCH, s.mc32 .lam, 0]

/-- TXN_OUTCOME of the ITU (R396). -/
def State.outcomeItu (s : State) (txn o : Nat) : State :=
  s.ituSay 0x0E2 [txn ||| o <<< 24, s.ri I.CUFF_EPOCH, s.mc32 .itu, 0]

/-- Ports whose dies hold staged values of a transaction, as the Tray knows. -/
def State.stagedDies (s : State) (txn : Nat) : List Nat :=
  (s.lam.ctl.staged.filter fun x => x.1 && x.2.2 == txn).map fun x => x.2.1

/-! ### Participants -/

/-- What a Lamulo stages for a transaction is discarded (R14, R391). -/
def State.dropStg (s : State) (txn : Nat) : State :=
  s.setCtl { s.lam.ctl with stg := s.lam.ctl.stg.filter fun g => g.txn != txn }

/-- A decision is kept: 64, newest first (R390, R393). -/
def State.keepDecision (s : State) (txn : Nat) (commit : Bool) : State :=
  s.setCtl { s.lam.ctl with decided := ((txn, commit) :: s.lam.ctl.decided.filter fun d => d.1 != txn).take 64 }

/-- The decision goes to the dies that hold staged values. -/
def State.tellDies (s : State) (txn : Nat) (commit : Bool) : State :=
  let s := s.txnDies (s.stagedDies txn) 0x0D txn [b2n commit]
  (s.setCtl { s.lam.ctl with staged := s.lam.ctl.staged.filter fun x => x.2.2 != txn }).keepDecision txn commit

/-- A Lamulo's doubt ends (R396). COMMITTED: the values are applied at the next slot boundary; the epoch of the coordinator's
reply, if it is not the one then reached, makes the node take the configuration from its parent. -/
def State.endDoubt (s : State) (g : Stg) (commit : Bool) (epoch : Option Nat) : State :=
  if g.commit then s
  else if commit then
    match s.nextBoundary with
    | some b =>
      let e := (s.rl L.CFG_EPOCH + b2n (fleetTxn g.txn)) % 65536
      (s.tellDies g.txn true).putStg { g with commit := true, c := b, sync := decide (epoch.getD e ≠ e) }
    | none => s
  else ((((s.tellDies g.txn false).dropStg g.txn).il L.TXN_CNT_ROLLBACK).outcomeLam g.txn 2).retryWaits .lam

/-- A decision reaches a Lamulo (R393, R394, R396). -/
def State.decideLam (s : State) (txn : Nat) (commit : Bool) : State :=
  match s.stgOf txn with
  | some g =>
    if g.doubt then s.endDoubt g commit none
    else if commit then (if g.voted then (s.tellDies txn true).putStg { g with commit := true } else s.tellDies txn true)
    else (((s.tellDies txn false).dropStg txn).il L.TXN_CNT_ROLLBACK).retryWaits .lam
  | none => (s.tellDies txn commit).retryWaits .lam

/-- The ITU's staging replaced. -/
def State.setIStg (s : State) (g : IStg) : State := { s with itu := { s.itu with txn := g } }

/-- The next slot boundary after the ITU's local time. -/
def State.nextBoundaryItu (s : State) : Option Nat :=
  if s.slotsOk .itu then s.itu.mains.cur.map fun a => a.boundary (s.now .itu + 1) else none

/-- A decision reaches an ITU (R393, R394, R396). -/
def State.decideItu (s : State) (txn : Nat) (commit : Bool) : State :=
  let t := s.itu.txn
  let s := s.setIStg { t with dead := t.dead.filter (· != txn) }
  let t := s.itu.txn
  match t.stg with
  | some g =>
    if g.txn ≠ txn ∨ g.commit then s
    else if commit then
      if g.doubt then
        match s.nextBoundaryItu with
        | some b => s.setIStg { t with stg := some { g with commit := true, c := b } }
        | none => s
      else if g.voted then s.setIStg { t with stg := some { g with commit := true } }
      else s
    else
      let s := (s.setIStg { t with stg := none }).ii I.ITXN_CNT_ROLLBACK
      (if g.doubt then s.outcomeItu txn 2 else s).retryWaits .itu
  | none => s

/-- TXN_DECIDE (R393). -/
def execTxnDecide (sd : Side) (h : CmdHdr) (commit : Bool) (s : State) : Out :=
  let s := match sd with | .itu => s.decideItu h.txn commit | .lam => s.decideLam h.txn commit
  .next (s.reply sd { h with opcode := 0x0D } {})

/-! ### Votes (R392) -/

/-- Votes with those of w more participants. -/
def Votes.add (v : Votes) (w : Bool × Nat) (nPrep nFail nExp : Nat) (ff : Option (Bool × Nat × Nat)) : Votes :=
  { v with wait := v.wait.filter (· != w), nPrep := v.nPrep + nPrep, nFail := v.nFail + nFail, nExp := v.nExp + nExp,
           first := firstFail v.first ff }

/-- One participant's vote: a die or a node, its number, its status. -/
def Votes.one (v : Votes) (w : Bool × Nat) (isDie : Bool) (id st : Nat) : Votes :=
  if st = St.prepared then v.add w 1 0 1 none else v.add w 0 1 1 (some (isDie, id, st))

/-- Payload of TXN_VOTE. -/
def Votes.body (v : Votes) : List Nat :=
  let f := v.first.getD (false, 0, 0)
  [v.txn ||| (if v.first.isSome then f.2.2 else St.prepared) <<< 24, satN 18 v.nPrep, satN 18 v.nFail, satN 18 v.nExp,
   f.2.1 ||| b2n f.1 <<< 19 ||| f.2.2 <<< 20, short v.c, v.mc % 2 ^ 32, 0]

/-- The number of a responder or voter: the die on an IKL port, or the node on an Ethernet port. -/
def State.childNo (s : State) (w : Bool × Nat) : Nat := if w.1 then s.dieId w.2 else s.rl L.ETH_PORT_PEER_NODE w.2

/-- The coordinator decides (R393): the decision is kept and mirrored, sent to the participants, and the TXN_COMMIT answered. -/
def State.decideTxn (s : State) (t : Txn) (commit : Bool) (v : Votes) : State :=
  let c := s.lam.ctl
  let fleet := fleetTxn t.num
  let s := s.setCtl { c with txns := c.txns.filter (fun x => x.num != t.num), votes := c.votes.filter (fun x => x.txn != t.num),
                             fleetC := if commit && fleet then some t.c else c.fleetC }
  let s := if fleet then s.txnAll 0x0D t.num [b2n commit] else s
  let s := if !commit && (s.stgOf t.num).isNone then s.il L.TXN_CNT_ROLLBACK else s
  let s := s.decideLam t.num commit
  match t.commit with
  | some h =>
    let f := v.first.getD (false, 0, 0)
    if commit then s.lamReply h { status := St.committed, result := short t.c }
    else s.replyRoute h (replyBody h { status := St.prepareFailed } false v.nPrep v.nFail f.2.1 f.1 (s.rl L.CFG_EPOCH))
  | none => s

/-- The coordinator rolls a transaction back (R391). -/
def State.rollback (s : State) (t : Txn) : State :=
  s.decideTxn t false (((s.lam.ctl.votes.find? fun v => v.txn == t.num)).getD { txn := t.num, c := 0, mc := 0, due := 0 })

/-- Votes put in place: the coordinator decides at the first vote against or with the last one; another node sends its merged vote
with the last one (R392, R393). -/
def State.putVotes (s : State) (v : Votes) : State :=
  let l := s.lam.ctl.votes.filter fun x => x.txn != v.txn
  match s.txnOf v.txn with
  | some t =>
    if v.first.isSome then s.decideTxn t false v
    else if v.wait = [] then s.decideTxn t true v
    else s.setCtl { s.lam.ctl with votes := l ++ [v] }
  | none =>
    if v.wait = [] then (s.setCtl { s.lam.ctl with votes := l }).lamEmit 3 0x0E1 (s.now .lam) v.body
    else s.setCtl { s.lam.ctl with votes := l ++ [v] }

/-- A Lamulo's own vote (R392, R396, R397). -/
def State.ownVote (s : State) (txn : Nat) : Nat :=
  let c := s.lam.ctl
  let g := (s.stgOf txn).getD { txn := txn, begun := 0 }
  if c.stg.any fun x => x.txn != txn && x.doubt then St.inDoubt
  else if g.wdog then St.watchdog
  else if g.full || ((s.stgOf txn).isNone && decide (16 ≤ c.stg.length)) then St.txnFull
  else if c.waits.any fun w => w.pkt.hdr.txn == txn then St.busy
  else if s.prepBadLam g then St.badParam
  else St.prepared

/-- Time by which a node's children must have voted (R392, R393, R395). -/
def State.voteDue (s : State) (txn c : Nat) : Nat :=
  if !fleetTxn txn then c - 1000000
  else match s.role with
    | 0 => c - 5200000
    | 1 => c - 4400000
    | 2 => c - 3700000
    | _ => c - 3000000

/-- The link of a child is up. -/
def State.childUp (s : State) (w : Bool × Nat) : Bool :=
  if w.1 then s.portUp w.2 else s.rl L.ETH_PORT_STAT_UP w.2 == 1 && s.rl L.ETH_PORT_STAT_LIVE w.2 == 1

/-- A Lamulo prepares for commit at c (R392): its own vote, TXN_PREPARE to the dies with staged values, and the votes awaited. A child
whose link is down is counted if it holds staged values. -/
def State.prepare (s : State) (txn c mc : Nat) : State :=
  let st := s.ownVote txn
  let dies := s.stagedDies txn
  let kids := (if fleetTxn txn && s.role != 0 then s.dstPorts .kids else []).filter fun p =>
    s.childUp (false, p) || s.lam.ctl.staged.contains (false, p, txn)
  let all := dies.map (fun q => (true, q)) ++ kids.map fun p => (false, p)
  let v : Votes := { txn := txn, c := c, mc := mc, due := s.voteDue txn c, wait := all.filter s.childUp }
  let v := v.one (false, 99) false s.nodeNo st
  let v := (all.filter fun w => !s.childUp w).foldl (fun v w => v.one w w.1 (s.childNo w) St.linkDown) v
  let g := (s.stgOf txn).getD { txn := txn, begun := s.now .lam }
  let s := if st = St.prepared then s.putStg { g with voted := true, c := c, mc := mc } else s
  (s.txnDies (dies.filter s.portUp) 0x0C txn [short c, mc % 2 ^ 32]).putVotes v

/-- An ITU's vote (R392, R396, R397). -/
def State.ituVote (s : State) (txn : Nat) : Nat :=
  let t := s.itu.txn
  match t.stg with
  | some g =>
    if g.txn ≠ txn then (if g.doubt then St.inDoubt else if t.dead.contains txn then St.watchdog else St.txnUnknown)
    else if g.wdog then St.watchdog
    else if g.full then St.txnFull
    else if t.waits.any fun w => w.pkt.hdr.txn == txn then St.busy
    else if s.prepBadItu g then St.badParam
    else St.prepared
  | none => if t.dead.contains txn then St.watchdog else St.txnUnknown

/-- An ITU prepares and votes. -/
def State.prepareItu (s : State) (txn c mc : Nat) : State :=
  let st := s.ituVote txn
  let s := match s.itu.txn.stg with
    | some g => if st = St.prepared then s.setIStg { s.itu.txn with stg := some { g with voted := true, c := c, mc := mc } } else s
    | none => s
  s.ituSay 0x0E1 (({ txn := txn, c := c, mc := mc, due := 0 } : Votes).one (true, 0) true (s.ri I.ITU_DIE_ID_ID) st).body

/-- TXN_PREPARE (R392): c is a short time, mc the MC [31:0]. -/
def execTxnPrepare (sd : Side) (h : CmdHdr) (c mc : Nat) (s : State) : Out :=
  let full := fullTime (s.now sd) (short c)
  let s := match sd with | .itu => s.prepareItu h.txn full (mc % 2 ^ 32) | .lam => s.prepare h.txn full (mc % 2 ^ 32)
  .next (s.reply sd { h with opcode := 0x0C } {})

/-- TXN_VOTE received from a child (R392). A watchdog's report has the same form; one that no vote is gathered for rolls the
transaction back at its coordinator, and goes on upward elsewhere (R397). -/
def State.voteRx (s : State) (w : Bool × Nat) (body : List Nat) : State :=
  let n := nth body
  let txn := bits (n 0) 0 24
  let st := bits (n 0) 24 8
  let ff := if st = St.prepared then none else some (bitAt (n 4) 19, bits (n 4) 0 19, bits (n 4) 20 8)
  match s.lam.ctl.votes.find? fun v => v.txn == txn with
  | some v =>
    if v.wait.contains w then s.putVotes (v.add w (n 1 % 2 ^ 18) (n 2 % 2 ^ 18) (n 3 % 2 ^ 18) ff)
    else if st = St.watchdog then s.putVotes { v with first := firstFail v.first ff }
    else s
  | none =>
    if st ≠ St.watchdog then s
    else match s.txnOf txn with
      | some t => s.rollback t
      | none => if fleetTxn txn && !s.isCrown then s.lamEmit 3 0x0E1 (s.now .lam) body else s

/-- TXN_VOTE_RX (R392). -/
def execTxnVoteRx (fromDie : Bool) (p : Nat) (body : List Nat) (s : State) : Out := .next (s.voteRx (fromDie, p) body)

/-- Those that have not voted count as failed with TIMEOUT. -/
def State.votesLate (s : State) (v : Votes) : State :=
  s.putVotes (v.wait.foldl (fun v w => v.one w w.1 (s.childNo w) St.timeout) v)

/-- VOTE_DEADLINE (R392, R395). -/
def execVoteDeadline (txn : Nat) (s : State) : Out :=
  match s.lam.ctl.votes.find? fun v => v.txn == txn with
  | some v => if v.due ≤ s.now .lam ∧ !(fleetTxn txn && s.isCrown) then .next (s.votesLate v) else .next s
  | none => .next s

/-- DECIDE_DEADLINE (R393). -/
def execDecideDeadline (txn : Nat) (s : State) : Out :=
  match s.lam.ctl.votes.find? fun v => v.txn == txn with
  | some v => if v.due ≤ s.now .lam ∧ fleetTxn txn ∧ s.isCrown then .next (s.votesLate v) else .next s
  | none => .next s

/-! ### The coordinator's commands -/

/-- Owner that a packet names (R377, R398). -/
def CmdHdr.owner (h : CmdHdr) : Owner :=
  if h.ownerIsPart then ⟨true, h.ownerDie, h.ownerPart, h.ownerGen⟩ else ⟨false, h.origin, h.issuer, h.ownerGen⟩

/-- TXN_BEGIN (R390): the number and the kind of the transaction. -/
def State.txnBegin (s : State) (h : CmdHdr) (fleet : Bool) : State × CmdRes :=
  let c := s.lam.ctl
  let n := (c.txnLast + 1) % 2 ^ 23
  let num := n + if fleet then 2 ^ 23 else 0
  if fleet && !s.isCrown then (s, { status := St.badTarget })
  else if 16 ≤ c.txns.length then (s, { status := St.txnFull })
  else
    let t : Txn := { num := num, owner := h.owner, begun := s.now .lam, last := s.now .lam }
    (s.setCtl { c with txnLast := n, txns := c.txns ++ [t], decided := c.decided.filter fun d => d.1 != num }, { result := num })

/-- TXN_BEGIN (R390). -/
def execTxnBegin (h : CmdHdr) (fleet : Bool) (s : State) : Out :=
  .next (s.cmdLam { h with opcode := 8 } fun s => s.txnBegin h fleet)

/-- The commit instant (R392, R395): the first slot boundary at or after the least time, and its MC. -/
def State.commitAt (s : State) (fleet : Bool) : Nat × Nat :=
  let now := s.now .lam
  let c := s.lam.ctl
  match s.lam.mains.cur with
  | some a =>
    let gap := ceilDiv a.length (2 ^ 32)
    let earlier := c.fleetC.toList ++ (c.txns.filter fun t => fleetTxn t.num && t.state == .preparing).map (·.c)
    let least := if fleet then earlier.foldl (fun m e => max m (e + gap)) (now + s.rl L.TXN_LEAD_US * 1000) else now + 2000000
    let b := a.boundary least
    (b, s.mcAt .lam b)
  | none => (now, 0)

/-- TXN_COMMIT (R391, R392, R395). -/
def State.txnCommit (s : State) (h : CmdHdr) : State :=
  let ans := fun (s : State) st => s.lamReply h { status := st }
  match s.txnOf h.txn with
  | none => ans s St.txnUnknown
  | some t =>
    let fleet := fleetTxn t.num
    if fleet ∧ h.auth ≠ 2 then ans (s.denied h) St.denied
    else if t.state ≠ .opened ∨ !s.slotsOk .lam then ans s St.txnState
    else
      let c := s.commitAt fleet
      let s := s.putTxn { t with state := .preparing, c := c.1, mc := c.2, commit := some h, last := s.now .lam }
      let s := if fleet then s.txnAll 0x0C t.num [short c.1, c.2] else s
      s.prepare t.num c.1 c.2

/-- TXN_COMMIT (R392). -/
def execTxnCommit (h : CmdHdr) (s : State) : Out := .next (s.txnCommit { h with opcode := 9 })

/-- TXN_ABORT (R391). -/
def State.txnAbort (s : State) (h : CmdHdr) : State × CmdRes :=
  match s.txnOf h.txn with
  | none => (s, { status := St.txnUnknown })
  | some t =>
    if fleetTxn t.num ∧ h.auth ≠ 2 then (s.denied h, { status := St.denied })
    else if t.state ≠ .opened then (s, { status := St.txnState })
    else (s.rollback t, {})

/-- TXN_ABORT (R391). -/
def execTxnAbort (h : CmdHdr) (s : State) : Out := .next (s.cmdLam { h with opcode := 0x0A } fun s => s.txnAbort h)

/-- What the coordinator answers of a transaction (R383, R396): 4 where it holds no record. A Crown that took over answers
ROLLED_BACK for a FLEET transaction of which it holds no decision (R393). -/
def State.txnStatus (s : State) (txn : Nat) : Nat :=
  match s.txnOf txn, s.lam.ctl.decided.find? (fun d => d.1 == txn) with
  | some t, _ => if t.state = .opened then 0 else 1
  | none, some d => if fleetTxn txn && !s.isCrown then 4 else if d.2 then 2 else 3
  | none, none => if fleetTxn txn && s.isCrown && s.lam.mzc.tookOver then 3 else 4

/-- TXN_STATUS (R383). -/
def execTxnStatus (h : CmdHdr) (s : State) : Out :=
  .next (s.cmdLam { h with opcode := 0x0B } fun s => (s, { result := s.txnStatus h.txn }))

/-- The coordinator answered TXN_STATUS to a node in doubt (R396). -/
def State.statusRx (s : State) (txn ans epoch : Nat) : State :=
  match s.stgOf txn with
  | some g =>
    if !g.doubt then s
    else match ans with
      | 2 => s.endDoubt g true (some epoch)
      | 3 => s.endDoubt g false none
      | 4 => (s.endDoubt g false none).epochAsk
      | _ => s
  | none => s

/-- TXN_STATUS_POLL (R396): at the start of each MC a node in doubt asks the coordinator, the Crown. -/
def State.statusPoll (s : State) : State :=
  (s.lam.ctl.stg.filter fun g => g.doubt && !g.commit).foldl (fun s g =>
    let k := s.ownPkt 0x0B 2 0 false [] (some g.txn)
    k.1.send .up 4 (.cmd k.2)) s

/-- TXN_IDLE_TIMEOUT (R391). -/
def execTxnIdleTimeout (txn : Nat) (s : State) : Out :=
  match s.txnOf txn with
  | some t =>
    if t.state = .opened ∧ s.rl L.TXN_IDLE_MS ≤ msSince (s.now .lam) t.last then .next (s.rollback t) else .next s
  | none => .next s

/-! ### The commit instant (R394 to R396) -/

/-- C has come at a Lamulo for what it has staged. -/
def State.reachC (s : State) (g : Stg) : State :=
  if g.commit then
    let s := (s.commitLam g g.c).dropStg g.txn
    if g.doubt then
      let s := s.outcomeLam g.txn 1
      if g.sync then s.epochAsk else s
    else s
  else ((s.putStg { g with doubt := true }).il L.TXN_CNT_IN_DOUBT).outcomeLam g.txn 0

/-- What is due at a Lamulo's local time, FLEET before TRAY (R395). -/
def State.dueStg (s : State) : List Stg :=
  let l := s.lam.ctl.stg.filter fun g => g.voted && decide (g.c ≤ s.now .lam) && (g.commit || !g.doubt)
  l.filter (fun g => fleetTxn g.txn) ++ l.filter fun g => !fleetTxn g.txn

/-- C has come at an ITU. -/
def State.reachCItu (s : State) (g : Stg) : State :=
  let t := s.itu.txn
  if g.commit then
    let s := (s.setIStg { t with stg := none }).commitItu g
    (if g.doubt then s.outcomeItu g.txn 1 else s).retryWaits .itu
  else ((s.setIStg { t with stg := some { g with doubt := true } }).ii I.ITXN_CNT_IN_DOUBT).outcomeItu g.txn 0

/-- COMMIT_INSTANT (R394). -/
def execCommitInstant (sd : Side) (s : State) : Out :=
  match sd with
  | .lam => .next (if s.dueStg = [] then s else (s.dueStg.foldl State.reachC s).retryWaits .lam)
  | .itu =>
    match s.itu.txn.stg with
    | some g => .next (if g.voted && decide (g.c ≤ s.now .itu) && (g.commit || !g.doubt) then s.reachCItu g else s)
    | none => .next s

/-- An ITU's TXN_OUTCOME IN_DOUBT reaches its Tray (R396): the decision the Tray knows; while the Tray is undecided itself, nothing
yet; else ABORT, with CUFF_EPOCH and SMP_PHASE written anew. -/
def State.ituDoubt (s : State) (q txn : Nat) : State :=
  match s.lam.ctl.decided.find? (fun d => d.1 == txn), s.stgOf txn with
  | some d, _ => s.txnDies [q] 0x0D txn [b2n d.2]
  | none, some _ => s
  | none, none =>
    let s := s.txnDies [q] 0x0D txn [0]
    (s.ituWrite q I.CUFF_EPOCH.addr (s.rl L.CFG_EPOCH)).ituWrite q I.SMP_PHASE.addr (s.sampleSlot q)

/-! ### The watchdog (R397) -/

/-- When a transaction began, as this Lamulo knows (log entry 48). -/
def State.begunAt (s : State) (txn dflt : Nat) : Nat :=
  match s.txnOf txn, s.stgOf txn with
  | some t, _ => t.begun
  | none, some g => g.begun
  | none, none => dflt

/-- The youngest of transactions given with their begin times: the latest, on a tie the higher number. -/
def youngest (l : List (Nat × Nat)) : Option Nat :=
  (l.foldl (fun (b : Option (Nat × Nat)) x =>
    match b with
    | none => some x
    | some y => if y.2 < x.2 || (y.2 == x.2 && decide (y.1 < x.1)) then some x else some y) none).map (·.1)

/-- A watchdog's report to the coordinator of a transaction, as a vote of its own (R397). -/
def wdogVote (txn : Nat) (isDie : Bool) (id : Nat) : List Nat :=
  (({ txn := txn, c := 0, mc := 0, due := 0 } : Votes).one (isDie, 0) isDie id St.watchdog).body

/-- The youngest transaction of a wait is aborted at a Lamulo. -/
def State.wdogAbort (s : State) (y begun : Nat) : State :=
  match s.txnOf y with
  | some t => s.rollback t
  | none =>
    let g := (s.stgOf y).getD { txn := y, begun := begun }
    let s := if g.voted then s else s.putStg { g with words := [], swaps := [], wdog := true }
    if s.lam.ctl.decided.any fun d => d.1 == y then s else s.lamEmit 3 0x0E1 (s.now .lam) (wdogVote y false s.nodeNo)

/-- Transactions that an owner has open here (R397). -/
def State.ownTxns (s : State) (o : Owner) : List (Nat × Nat) :=
  (s.lam.ctl.txns.filter fun t => t.owner == o).map fun t => (t.num, t.begun)

/-- Owner of lock i as its register holds it. -/
def State.lockOwner (s : State) (i : Nat) : Owner :=
  ⟨s.rl L.LOCK_STATE_LO_IS_PART i == 1, s.rl L.LOCK_STATE_LO_OWNER i, s.rl L.LOCK_STATE_LO_SUB i, s.rl L.LOCK_STATE_LO_GEN i⟩

/-- A watchdog event is counted. -/
def State.wdogCount (s : State) : State := (s.il L.TXN_CNT_WDOG).wl L.CMDQ_STAT_WDOG 1

/-- Waiters of lock i brought to its register. -/
def State.lockWaiters (s : State) (i : Nat) : State :=
  s.wl L.LOCK_STATE_HI_WAITERS (s.lam.ctl.lockWaits.filter fun w => w.idx == i).length i

/-- A staging write has waited too long at a Lamulo. -/
def State.wdogStage (s : State) (w : StgWait) : State :=
  let txn := w.pkt.hdr.txn
  let holders := s.lam.ctl.stg.filter fun g => g.txn != txn && g.words.any fun x =>
    (regWords (bits (w.pkt.param 0) 2 26 * 4) (w.pkt.param 1) (2 ^ 64 - 1) (w.pkt.params.drop 4)).any fun y => y.1 == x.1
  match youngest ((txn, s.begunAt txn w.since) :: holders.map fun g => (g.txn, s.begunAt g.txn g.begun)) with
  | some y => ((s.wdogAbort y w.since).wdogCount).retryWaits .lam
  | none => s

/-- A lock acquire has waited too long. -/
def State.wdogLock (s : State) (w : LockWait) : State :=
  let own := (if w.hdr.inTxn then [(w.hdr.txn, s.begunAt w.hdr.txn w.since)] else []) ++ s.ownTxns w.owner
  match youngest (own ++ s.ownTxns (s.lockOwner w.idx)) with
  | some y =>
    let s := (s.wdogAbort y w.since).wdogCount
    if own.any fun x => x.1 == y then
      ((s.setCtl { s.lam.ctl with lockWaits := s.lam.ctl.lockWaits.filter (· != w) }).lockWaiters w.idx).lamReply w.hdr
        { status := St.watchdog }
    else s
  | none =>
    let s := ((s.setCtl { s.lam.ctl with lockWaits := s.lam.ctl.lockWaits.filter (· != w) }).lockWaiters w.idx).wdogCount
    s.lamReply w.hdr { status := St.watchdog }

/-- A staging write has waited too long at an ITU: it and the transaction that stages there. -/
def State.wdogItu (s : State) (w : StgWait) : State :=
  let t := s.itu.txn
  let txn := w.pkt.hdr.txn
  let held := match t.stg with | some g => [(g.txn, g.begun)] | none => []
  match youngest ((txn, w.since) :: held) with
  | some y =>
    let s := match t.stg with
      | some g => if g.txn = y ∧ !g.voted then s.setIStg { t with stg := some { g with words := [], swaps := [], wdog := true } } else s
      | none => s
    let s := if y = txn then
        (s.setIStg { s.itu.txn with waits := s.itu.txn.waits.filter (fun x => x.pkt.hdr.txn != txn), dead := txn :: t.dead }).ituReply
          w.pkt.hdr { status := St.watchdog }
      else s
    s.ituSay 0x0E1 (wdogVote y true (s.ri I.ITU_DIE_ID_ID))
  | none => s

/-- WATCHDOG_EXPIRY (R397): the longest wait of a part that exceeds TXN_WDOG_MS, at an ITU 100 ms. -/
def execWatchdogExpiry (sd : Side) (s : State) : Out :=
  match sd with
  | .itu =>
    match s.itu.txn.waits.find? fun w => decide (100000000 < s.now .itu - w.since) with
    | some w => .next (s.wdogItu w)
    | none => .next s
  | .lam =>
    let lim := s.rl L.TXN_WDOG_MS * 1000000
    match s.lam.ctl.waits.find? fun w => decide (lim < s.now .lam - w.since) with
    | some w => .next (s.wdogStage w)
    | none =>
      match s.lam.ctl.lockWaits.find? fun w => decide (lim < s.now .lam - w.since) with
      | some w => .next (s.wdogLock w)
      | none => .next s

end Sys2Proof.Machine
end

