-- ==== Sys2Proof/Machine/Locks.lean ====
section
/-! DEFINITION. Hardware locks (R156, R398, R399), their release when an owner is abandoned (R154), and the roll-back of its
transactions (R155). -/

namespace Sys2Proof.Machine

/-- Lock i is held. -/
def State.lockHeld (s : State) (i : Nat) : Bool := s.rl L.LOCK_STATE_HI_HELD i == 1

/-- Waiting acquires replaced, and the count of lock i. -/
def State.setLockWaits (s : State) (l : List LockWait) (i : Nat) : State :=
  (s.setCtl { s.lam.ctl with lockWaits := l }).lockWaiters i

/-- A free lock is granted to an owner (R398): OK, or OK_ABANDONED, which clears ABANDONED. -/
def State.lockGrant (s : State) (i : Nat) (o : Owner) : State × Nat :=
  let st := if s.rl L.LOCK_STATE_HI_ABANDONED i = 1 then St.okAbandoned else St.ok
  let s := ((s.wl L.LOCK_STATE_LO_OWNER o.id i).wl L.LOCK_STATE_LO_SUB o.sub i).wl L.LOCK_STATE_LO_IS_PART (b2n o.isPart) i
  let s := ((s.wl L.LOCK_STATE_LO_GEN o.gen i).wl L.LOCK_STATE_HI_HELD 1 i).wl L.LOCK_STATE_HI_ABANDONED 0 i
  (s.wl L.LOCK_STATE_HI_ACQ_MC (s.mc .lam % 2 ^ 24) i, st)

/-- Lock i is released, as abandoned or not; the first waiter is granted it (R399). -/
def State.lockFree (s : State) (i : Nat) (abandoned : Bool) : State :=
  let s := (s.wl L.LOCK_STATE_HI_HELD 0 i).wl L.LOCK_STATE_HI_ABANDONED (b2n abandoned) i
  let s := if abandoned then s.il L.LOCK_CNT_ABANDONED else s
  match s.lam.ctl.lockWaits.find? fun w => w.idx == i with
  | some w =>
    let g := (s.setLockWaits (s.lam.ctl.lockWaits.erase w) i).lockGrant i w.owner
    g.1.lamReply w.hdr { status := g.2 }
  | none => s

/-- The generation of a partition owner is out of date (R398): against the last GEN_NOTICE, or at a Tray for a packet of its own PCIe
queue against GEN_CUR. -/
def State.staleGen (s : State) (h : CmdHdr) (o : Owner) : Bool :=
  let own := s.role == 0 && h.origin == s.nodeNo && h.issuer == 0
  o.isPart &&
    (if own && o.id / 16 == s.nodeId / 16 then s.rl L.GEN_CUR (o.id % 16) o.sub != o.gen
     else match s.lam.ctl.gens.find? fun g => !g.1 && g.2.1 == o.id && g.2.2.1 == o.sub with
       | some g => g.2.2.2 != o.gen
       | none => false)

/-- An owner holds a lock of index i or above (R156). -/
def State.lockAbove (s : State) (o : Owner) (i : Nat) : Bool :=
  (List.range 256).any fun k => decide (i ≤ k) && s.lockHeld k && s.lockOwner k == o

/-- LOCK_ACQUIRE (R398, R399). -/
def State.lockAcquire (s : State) (h : CmdHdr) (i waitMs : Nat) : State :=
  let o := h.owner
  let ans := fun (s : State) st => s.lamReply h { status := st }
  if 256 ≤ i ∨ 1000 < waitMs then ans s St.badParam
  else if s.staleGen h o then ans s St.staleGen
  else if s.lockAbove o i then ans (s.il L.LOCK_CNT_ORDER) St.lockOrder
  else if !s.lockHeld i then let g := s.lockGrant i o; ans g.1 g.2
  else
    let l := s.lam.ctl.lockWaits
    if waitMs = 0 ∨ 4 ≤ (l.filter fun w => w.idx == i).length ∨ 64 ≤ l.length then ans s St.lockHeld
    else s.setLockWaits (l ++ [⟨i, h, o, s.now .lam, waitMs⟩]) i

/-- LOCK_ACQUIRE (R398). -/
def execLockAcquire (h : CmdHdr) (idx waitMs : Nat) (s : State) : Out := .next (s.lockAcquire { h with opcode := 0x10 } idx waitMs)

/-- LOCK_RELEASE (R399): FORCE needs FLEET authority. -/
def State.lockRelease (s : State) (h : CmdHdr) (i : Nat) (force : Bool) : State × CmdRes :=
  if 256 ≤ i then (s, { status := St.badParam })
  else if force && h.auth != 2 then (s.denied h, { status := St.denied })
  else if !s.lockHeld i then (s, { status := St.notOwner })
  else if s.lockOwner i == h.owner then (s.lockFree i false, {})
  else if force then (s.lockFree i true, {})
  else (s, { status := St.notOwner })

/-- LOCK_RELEASE (R399). -/
def execLockRelease (h : CmdHdr) (idx : Nat) (force : Bool) (s : State) : Out :=
  .next (s.cmdLam { h with opcode := 0x11 } fun s => s.lockRelease h idx force)

/-- LOCK_QUERY (R398): RESULT is LOCK_STATE_HI, DATA is LOCK_STATE_LO. -/
def State.lockQuery (s : State) (i : Nat) : State × CmdRes :=
  if 256 ≤ i then (s, { status := St.badParam })
  else (s, { result := s.wordVal .lam (L.LOCK_STATE_HI_HELD.addr + 8 * i), data := [s.wordVal .lam (L.LOCK_STATE_LO_OWNER.addr + 8 * i)] })

/-- LOCK_QUERY (R398). -/
def execLockQuery (h : CmdHdr) (idx : Nat) (s : State) : Out := .next (s.cmdLam { h with opcode := 0x12 } fun s => s.lockQuery idx)

/-- LOCK_WAIT_TIMEOUT (R399): the first acquire that has waited WAIT_MS for the lock. -/
def execLockWaitTimeout (idx : Nat) (s : State) : Out :=
  match s.lam.ctl.lockWaits.find? fun w => w.idx == idx && decide (w.waitMs * 1000000 ≤ s.now .lam - w.since) with
  | some w => .next ((s.setLockWaits (s.lam.ctl.lockWaits.erase w) idx).lamReply w.hdr { status := St.lockTimeout })
  | none => .next s

/-! ### Abandoned owners -/

/-- The owner is the partition, or an issuer of the node, that has a new generation, and is of another one. -/
def Owner.left (o : Owner) (isNode : Bool) (id part gen : Nat) : Bool :=
  o.isPart != isNode && o.id == id && (isNode || o.sub == part) && o.gen != gen

/-- A new generation is learned (R154, R155): locks of the abandoned owner are released, its undecided transactions rolled back. -/
def State.abandon (s : State) (isNode : Bool) (id part gen : Nat) : State :=
  let s := (List.range 256).foldl (fun s i =>
    if s.lockHeld i && (s.lockOwner i).left isNode id part gen then s.lockFree i true else s) s
  (s.lam.ctl.txns.filter fun t => t.owner.left isNode id part gen).foldl (fun s t => s.rollback t) s

/-- A generation kept for the test of R398. -/
def State.learnGen (s : State) (isNode : Bool) (id part gen : Nat) : State :=
  let l := s.lam.ctl.gens.filter fun g => !(g.1 == isNode && g.2.1 == id && g.2.2.1 == part)
  s.setCtl { s.lam.ctl with gens := l ++ [(isNode, id, part, gen)] }

/-- GEN_NOTICE received (R154). -/
def State.genNotice (s : State) (isNode : Bool) (id part gen : Nat) : State :=
  (s.learnGen isNode id (if isNode then 0 else part) gen).abandon isNode id part gen

/-- GEN_NOTICE (R154, opcode 0x19). -/
def execGenNotice (h : CmdHdr) (isNode : Bool) (id part gen : Nat) (s : State) : Out :=
  .next (s.cmdLam { h with opcode := 0x19 } fun s => (s.genNotice isNode id part gen, {}))

/-- The Crown tells every Lamulo of a new generation (R154). -/
def State.sendGen (s : State) (isNode : Bool) (id part gen : Nat) : State :=
  let ws := [id ||| b2n isNode <<< 19 ||| part <<< 20 ||| gen <<< 24]
  let p := s.ownPkt 0x19 5 0 true ws
  (p.1.send .kids 4 (.cmd p.2)).send .standby 4 (.cmd p.2)

/-- A PART_GEN record of a die passes a Lamulo (R154, R155); at the Crown it is announced. -/
def State.partGenPass (s : State) (die part gen : Nat) : State :=
  let s := if s.isCrown then (s.sendGen false die part gen).learnGen false die part gen else s
  s.abandon false die part gen

end Sys2Proof.Machine
end

