-- ==== Sys2Proof/Machine/Reply.lean ====
section
/-! DEFINITION. Replies that come up the tree (R382): merged, routed to their origin, or taken by the node that asked. -/

namespace Sys2Proof.Machine

/-- Header that a reply's payload names, for its route. -/
def replyHdr (body : List Nat) : CmdHdr :=
  let n := nth body
  { opcode := bits (n 0) 16 8, auth := 2, amode := 2, cmdId := bits (n 0) 0 16, origin := bits (n 1) 0 19, issuer := bits (n 1) 19 4,
    txn := bits (n 2) 0 24 }

/-- The responder's failure that a reply names. -/
def replyFail (body : List Nat) : Option (Bool × Nat × Nat) :=
  let n := nth body
  if n 4 % 2 ^ 18 = 0 then none else some (bitAt (n 5) 19, bits (n 5) 0 19, bits (n 0) 24 8)

/-- CMD_REPLY from a child w (R382, R396): into the merge that awaits it; the node's own TXN_STATUS is taken; else on to ORIGIN. -/
def State.replyRx (s : State) (w : Bool × Nat) (body : List Nat) : State :=
  let n := nth body
  let h := replyHdr body
  match s.mergeOf h.origin h.issuer h.cmdId with
  | some m =>
    if m.wait.contains w then
      s.putMerge (m.hear w (n 3 % 2 ^ 18) (n 4 % 2 ^ 18) (replyFail body) (n 7) (body.drop 8))
    else s
  | none =>
    if h.origin = s.nodeNo ∧ h.issuer = 15 ∧ h.opcode = 0x0B then s.statusRx h.txn (n 7 % 8) (n 6 % 65536)
    else s.replyRoute h body

/-- CMD_REPLY_RX (R382). -/
def execCmdReplyRx (fromDie : Bool) (p : Nat) (body : List Nat) (s : State) : Out := .next (s.replyRx (fromDie, p) body)

/-- Responders that have not answered count as failed with TIMEOUT (R382). -/
def State.mergeLate (s : State) (m : Merge) : State :=
  s.putMerge (m.wait.foldl (fun (m : Merge) w =>
    m.hear w 0 1 (some (w.1, if w = ownResp then s.nodeNo else s.childNo w, St.timeout)) m.result m.data) m)

/-- CMD_MERGE_TIMEOUT (R382): CMD_MERGE_US after the packet was forwarded. -/
def execCmdMergeTimeout (origin issuer cmdId : Nat) (s : State) : Out :=
  match s.mergeOf origin issuer cmdId with
  | some m => if m.due ≤ s.now .lam then .next (s.mergeLate m) else .next s
  | none => .next s

end Sys2Proof.Machine
end

