-- ==== Sys2Proof/Machine/Arrive.lean ====
section
/-! DEFINITION. Records that arrive at a Lamulo: over IKL at the Tray (R30, R112, R153, R175, R176), and from a child on an
Ethernet port (R199, R204). -/

namespace Sys2Proof.Machine

/-- TYPE is defined by some chapter (R195). -/
def typeDefined (t : Nat) : Bool :=
  [0x001, 0x002, 0x003, 0x004, 0x010, 0x011, 0x012, 0x020, 0x021, 0x030, 0x040, 0x041, 0x042, 0x043, 0x050, 0x051, 0x052, 0x060, 0x061,
   0x062, 0x063, 0x080, 0x081, 0x0A0, 0x0A1, 0x0A2, 0x0A3, 0x0B0, 0x0B1, 0x0B2, 0x0C0, 0x0C1, 0x0C2, 0x0D0, 0x0E0, 0x0E1, 0x0E2, 0x0F0,
   0x0F1, 0x0F2, 0x0F3, 0x0F4, 0x0F5, 0x0F6, 0x0F7, 0x0F8, 0x0F9].contains t

/-- A record goes upward under its envelope, on the credit class of its class. -/
def State.forward (s : State) (e : Env) (r : Rec) : State := (s.send .up r.cls (.fwd e.seal r)).recCopy r true

/-- Outcomes of the trailer check at a Tray port. -/
inductive Trail where
  | good
  | mismatch
  | bad
deriving DecidableEq, Repr

/-- The trailer check of a record at the port of die id (R175, R18; R196 for format 2). -/
def trailCheck (id : Nat) (r : Rec) : Trail :=
  let own := decide (r.trailer = r.trailerOf)
  let seeded := if r.fmt = 2 then own else decide (crc32cSeeded ((id <<< 15) ^^^ r.seq) r.bytes = r.trailer)
  if seeded then (if r.die = id then .good else .mismatch) else if own then .mismatch else .bad

/-- PART_GEN_RX (R152, R153): the generations of a partition at port q. -/
def State.partGenRx (s : State) (q : Nat) (r : Rec) : State :=
  let w := nth r.body 0
  let cause := bits w 16 2
  let s := (s.wl L.GEN_PRV (bits w 0 8) q r.part).wl L.GEN_CUR (bits w 8 8) q r.part
  let s := (s.wl L.GEN_ADV r.short q r.part).wl L.GEN_HELD (b2n (cause != 3)) q r.part
  let k := s.port q
  s.setPort q { k with genMc := k.genMc.filter (fun x => x.1 != r.part) ++ (if cause = 3 then [] else [(r.part, s.mc .lam)]) }

/-- R153 for a record that is no PART_GEN: the state with the drop counted, and whether the record is accepted. -/
def State.genTest (s : State) (q : Nat) (r : Rec) : State × Bool :=
  let cur := s.rl L.GEN_CUR q r.part
  if s.rl L.LNK_STAT_PORT q = 1 then (s.il L.LNK_CNT_REJOIN 1 q, false)
  else if r.fmt = 2 ∨ r.gen = cur then (s, true)
  else if s.rl L.GEN_HELD q r.part = 1 ∧ r.gen = s.rl L.GEN_PRV q r.part ∧ sdiff32 r.short (s.rl L.GEN_ADV q r.part) < 0 then (s, true)
  else (s.il L.LNK_CNT_STALE_GEN 1 q, false)

/-- R176: the state after the test, and whether the record is no repeat. -/
def State.repeatTest (s : State) (q : Nat) (r : Rec) : State × Bool :=
  let k := s.port q
  let v := r.cls
  let fresh := k.fresh.getD v true
  if !fresh && decide (sdiff32 r.seq (nth k.seq v) ≤ 0) then (s.il L.LNK_CNT_REPEAT 1 q, false)
  else
    let s := if fresh then s else s.il L.LNK_CNT_ALIVE_GAP ((r.alive + 511 - nth k.alive v) % 256) q
    (s.setPort q { k with fresh := setNth true k.fresh v false, alive := setNth 0 k.alive v r.alive, seq := setNth 0 k.seq v r.seq }, true)

/-- The band of the die is held frozen from PART_GEN with CAUSE 0 to 2 to PART_DONE with HUNG = 0 (R150, R152). -/
def State.partBand (s : State) (q : Nat) (r : Rec) : State :=
  let k := s.port q
  if r.typ = 0x040 then
    if bits (nth r.body 0) 16 2 = 3 then
      s.setPort q { k with rejoin := { k.rejoin with gens := r.part :: k.rejoin.gens.filter (· != r.part) } }
    else s.setPort q { k with frozen := r.part :: k.frozen.filter (· != r.part) }
  else if r.typ = 0x041 then
    let frozen := k.frozen.filter (· != r.part)
    let hung := k.hung.filter (· != r.part)
    if bitAt (nth r.body 0) 0 then s.setPort q { k with hung := r.part :: hung } else s.setPort q { k with frozen := frozen, hung := hung }
  else s

/-- The envelope of a die's record (R198), from the brim result and the full time. -/
def State.dieEnv (s : State) (r : Rec) (full entry epoch : Nat) (missed : Bool) : Env :=
  let b := brimBound entry
  let f := fun v => if b then v else 0
  { rank := f (brimRank entry), job := f (brimJob entry), cohort := f (brimCohort entry), bound := b, srcRole := 0,
    replica := f (brimReplica entry), epoch := epoch, fmt := r.fmt, missed := missed, ftHi := full / 2 ^ 32,
    hopT := satN 16 ((s.now .lam - full) / 1000) }

/-! ### SAMPLE_BLOCK at the Tray (R112, R211, R238, R242, R247) -/

/-- Binding of a brim entry (R112). -/
def bindOf (entry : Nat) : Bind :=
  if brimBound entry then ⟨brimRank entry, brimJob entry, brimCohort entry, true⟩ else {}

/-- FIELD of a reduction specification, taken from a tracker after an interval of dv counts (R206, R211). -/
def trkField (t : Tracker) (dv : Nat) : Nat → Nat
  | 0 => dv
  | 1 => t.rate
  | _ => t.frac

/-- An accepted interval of a hardware tracker feeds the reduction cells that take its counter (R206, R211). -/
def State.trkFeed (s : State) (q i : Nat) (l : FLatch) (inp : TrkIn) (dv entry : Nat) (fmt2 : Bool) (src : Src) : State :=
  let t := s.trkAt i
  (s.specsOf l.t fun w => specField w != 3 && specCounter w == inp.counter).foldl (fun s x =>
    s.dieInput x.1 x.2 q entry inp.epoch (trkField t dv (specField x.2)) fmt2 src l.t l.mc l.slot) s

/-- One hardware tracker updated by an entry (R112), with all that an accepted interval gives rise to. feed: it is the stream's
first, whose values the reduction takes. -/
def State.trkEntry (s : State) (q i : Nat) (feed : Bool) (l : FLatch) (inp : TrkIn) (entry : Nat) (fmt2 : Bool) (src : Src) : State :=
  let u := s.trkApply i inp
  let s := match u.2 with
    | .interval dv =>
      let s := if feed then u.1.trkFeed q i l inp dv entry fmt2 src else u.1
      if l.slot = s.sampleSlot q then (s.assignLoad q inp.die).detRun q i inp.full else s
    | _ => u.1
  if u.2 = .invalid ∨ u.2 = .old then s else s.forestStream i l

/-- Entry k of a SAMPLE_BLOCK (R103, R110, R112 to R114). -/
def State.blockEntry (s : State) (q : Nat) (l : FLatch) (inp : TrkIn) (n entry : Nat) (fmt2 : Bool) (src : Src) : State :=
  let hw := s.trkOf (some q) inp.die inp.counter
  if hw = [] ∧ !s.lam.virt.any (fun v => v.2.1 == inp.die && v.2.2 == inp.counter) then s.il L.TRK_CNT_NOKEY
  else
    let s := match hw with
      | [] => s
      | i :: rest => rest.foldl (fun s j => s.trkEntry q j false l inp entry fmt2 src) (s.trkEntry q i true l inp entry fmt2 src)
    s.virtQueue inp n

/-- An accepted SAMPLE_BLOCK (R112). -/
def State.sampleBlock (s : State) (q : Nat) (r : Rec) (full entry epoch : Nat) (src : Src) : State :=
  if s.rl L.TRK_CTL_ENABLE = 0 then s else
  let w := nth r.body
  let slot := bits (w 0) 0 6
  let b := bits (w 0) 6 4
  let l : FLatch := { mc := w 1, slot := slot, t := full }
  let s := s.forestLatch q l
  let n := (w 1 * 64 + slot) / 2 ^ bits (w 0) 10 4
  let gen := if r.fmt = 2 then s.rl L.GEN_CUR q r.part else r.gen
  let s := (List.range 256).foldl (fun s k =>
    s.blockEntry q l { x := w (4 + 2 * k) + 2 ^ 32 * w (5 + 2 * k), full := full, cyc := w 3, gen := gen, die := r.die,
                       counter := 256 * b + k, bind := bindOf entry, epoch := epoch } n entry (r.fmt == 2) src) s
  s.forestBlock q b l

/-! ### A record over IKL -/

/-- LDG_DIE_REPORT passes its Tray (R355): E_BAL of the die in kilojoules. -/
def State.dieReport (s : State) (q : Nat) (r : Rec) : State :=
  s.wl L.LDGF_PORT_EBAL_KJ ((nth r.body 2 + 2 ^ 32 * nth r.body 3) / 1000000000000 % 2 ^ 32) q

/-- What the Tray does with an accepted record. e is the envelope it is forwarded in. -/
def State.acceptIkl (s : State) (q : Nat) (r : Rec) (full entry epoch : Nat) (e : Env) : State :=
  let w := nth r.body
  match r.typ with
  | 0x010 => s.sampleBlock q r full entry epoch (srcOf e r)
  | 0x060 => s.barEvent q r full entry epoch
  | 0x0A0 => s.digShard q r full entry epoch e.seal
  | 0x0E0 => s.replyRx (true, q) r.body
  | 0x0E1 => s.voteRx (true, q) r.body
  | 0x040 => (s.partGenPass r.die r.part (bits (w 0) 8 8)).forward e r
  | 0x0B0 => (s.testAtTray q r).forward e r
  | 0x0B1 => (s.testAtTray q r).forward e r
  | 0x0C1 => (s.dieReport q r).forward e r
  | 0x0E2 => (if bits (w 0) 24 4 = 0 then s.ituDoubt q (bits (w 0) 0 24) else s).forward e r
  | 0x0F0 => (s.stitchValue q (bits (w 0) 0 12) (w 1) full (w 2) (bits (w 3) 0 6) entry epoch (srcOf e r)).forward e r
  | _ => s.forward e r

/-- A stale record dropped by the brim (R30). -/
def State.brimStale (s : State) : State :=
  { s with lam := { s.lam with brim := { s.lam.brim with stale := satN 32 (s.lam.brim.stale + 1) } } }

/-- A record that has passed R175: R153, R30 and R176, then what the Tray does with it. -/
def State.arriveIkl (s : State) (q : Nat) (r : Rec) : State :=
  let full := fullTime (s.now .lam) r.short
  let pg := r.typ == 0x040
  let g := if pg then (s.partGenRx q r, true) else s.genTest q r
  let b := s.brimLookup q r.short
  let s := if g.2 && b.isNone then g.1.brimStale else g.1
  let u := s.repeatTest q r
  if !u.2 then u.1
  else
    let s := u.1.partBand q r
    match g.2, b with
    | true, some (entry, epoch) =>
      if !typeDefined r.typ then s.il L.FWD_CNT_BAD_TYPE
      else
        let e := s.dieEnv r full entry epoch false
        let d := s.deadline e r full
        d.1.acceptIkl q r full entry epoch { e with missed := d.2 }
    | _, _ => s

/-- The checks of R175 on a record that has come whole on port q. -/
def State.recIkl (s : State) (q : Nat) (r : Rec) : State :=
  if r.fmt ≠ s.rl L.LNK_STAT_FMT q ∨ r.len = 0 then (s.il L.LNK_CNT_BAD_REC 1 q).resync .lam q r.cls
  else match trailCheck (s.dieId q) r with
    | .good => s.arriveIkl q r
    | .mismatch => s.il L.LNK_CNT_DIE_MISMATCH 1 q
    | .bad => s.il L.LNK_CNT_REC_CRC 1 q

/-- RECORD_ARRIVAL_IKL (R175, R153, R30, R176). -/
def execRecordArrivalIkl (q : Nat) (r : Rec) (s : State) : Out :=
  if s.role = 0 ∧ q < 16 ∧ s.portUp q then .next ((s.takeGot .lam q r.cls r.wire).recIkl q r) else .next s

/-! ### A record from a child on an Ethernet port -/

/-- The Crown learns a node's restart generation (R194) from its alarms, misses and changes of parent, and tells of a new one. The
manual names the notice (R399) and no record that causes it: DEDUCED, log entry 53. -/
def State.nodeGen (s : State) (e : Env) (r : Rec) : State :=
  if e.srcRole = 0 ∨ 3 < e.srcRole ∨ !(decide (r.typ ≤ 0x004) || r.typ == 0x0D0) then s else
  let node := (4 - e.srcRole) <<< 17 ||| r.die
  match s.lam.ctl.gens.find? fun g => g.1 && g.2.1 == node with
  | some g => if g.2.2.2 = r.gen then s else ((s.sendGen true node 0 r.gen).learnGen true node 0 r.gen).abandon true node 0 r.gen
  | none => s.learnGen true node 0 r.gen

/-- What the Crown does with a record that reaches it beside delivering it. -/
def State.atCrown (s : State) (e : Env) (r : Rec) : State :=
  let s := (s.nodeGen e r).verdictMark r
  if r.typ = 0x0B0 ∨ r.typ = 0x0B1 then s.testAtCrown r
  else if r.typ = 0x043 then s.rejoinAtCrown r.die
  else if r.typ = 0x0A0 then s.digKeep e r
  else s

/-- HOP_K or HOP_W of a record that arrives (R198). -/
def State.hop (s : State) (e : Env) (full : Nat) : Env :=
  let us := satN 16 ((s.now .lam - full) / 1000)
  if s.role = 1 then { e with hopK := us } else if s.role = 2 then { e with hopW := us } else e

/-- A record that passed R199, on child port p: partials are merged, votes and replies taken, the rest forwarded. -/
def State.acceptUp (s : State) (p : Nat) (e : Env) (r : Rec) : State :=
  let full := envTime e r
  let e := s.hop e full
  let d := s.deadline e r full
  let e := { e with missed := e.missed || d.2 }
  let s := d.1
  let w := nth r.body
  match r.typ with
  | 0x011 => s.partialRx e r false
  | 0x012 => s.partialRx e r false
  | 0x061 => s.barPartialRx e r
  | 0x0A1 => s.digPartialRx e r
  | 0x0E0 => s.replyRx (false, p) r.body
  | 0x0E1 => s.voteRx (false, p) r.body
  | _ =>
    let s := if r.typ = 0x0D0 then s.parentChange p r else s
    let s := if r.typ = 0x040 then s.partGenPass r.die r.part (bits (w 0) 8 8) else s
    (if s.isCrown then s.atCrown e r else s).forward e r

/-- RECORD_ARRIVAL_UPLINK at a child port (R199, R204). -/
def State.recUp (s : State) (p : Nat) (e : Env) (r : Rec) : State :=
  if e.crc ≠ e.crcOf ∨ 6 ≤ e.srcRole ∨ r.trailer ≠ r.trailerOf then (s.il L.FWD_CNT_CRC).miss (srcOf e r) missCorrupt 0 1
  else s.acceptUp p e r

/-- RECORD_ARRIVAL_UPLINK (R199). -/
def execRecordArrivalUplink (p : Nat) (e : Env) (r : Rec) (s : State) : Out :=
  if s.role ≠ 0 ∧ p < 24 ∧ s.portRole p = 3 then .next (s.recUp p e r) else .next s

end Sys2Proof.Machine
end

