-- ==== Sys2Proof/Machine/EpochSync.lean ====
section
/-! DEFINITION. EPOCH_SYNC (R160, R396): the epoch, the banks and the fields committed by FLEET transaction, handed from a parent to its
child. The manual gives no layout for the packets; the model's is in log entry 54. -/

namespace Sys2Proof.Machine

/-- Fields committed by FLEET transaction that are the same at every Lamulo, and so known to a parent. -/
def syncFlds : List Fld :=
  [L.RED_SPEC_LO, L.RED_SPEC_HI, L.DET_BAR_CLOSE_US, L.DET_HOLD_MS, L.DET_LOAD_CFG_BUSY, L.DET_REF_AGE_MS, L.STRAG_CFG_BAR_PART,
   L.STRAG_LATE_NS, L.STRAG_XLATE_NS, L.STRAG_CFG2_MARGIN_NS, L.DET_SET_COUNTER, L.DET_SET_EWMA_SHIFT, L.DET_K, L.DET_H, L.DET_H_EWMA,
   L.DET_WARM, L.DET_MIN_N, L.DET_FLOOR, L.DET_ZCLAMP, L.DIGF_CLOSE_MS, L.DIGF_EXPECT_N_LO, L.DIGF_EXPECT_N_HI, L.DIGF_COH_KEY1_LO,
   L.DIGF_COH_KEY1_HI, L.DIGF_COH_KEY_SEQ, L.GNTF_CFG_SWEEP_STEPS, L.GNTF_CFG2_STEP_MC, L.FLEET_KEY_SEL]

/-- Words that hold them. -/
def syncWords : List Nat :=
  (syncFlds.flatMap fun F => (List.range F.n1).flatMap fun i => (List.range F.n2).map fun j => F.addr + F.s1 * i + F.s2 * j).dedup

/-- The parent answers its child: the epoch with the brim, then the words, address and value, 500 to a packet. -/
def State.syncSend (s : State) (child : Nat) : State :=
  let ep := s.rl L.CFG_EPOCH
  let brim := (List.range 16).flatMap fun q =>
    let e := Config.childBrim ep child q
    [e % 2 ^ 32, e / 2 ^ 32 % 2 ^ 32]
  let s := s.cmdDown (.node child) 0x1C 2 child (ep :: brim)
  (chunks 500 16 syncWords).foldl (fun s l =>
    s.cmdDown (.node child) 0x1C 2 child ((ep ||| 1 <<< 16) :: l.flatMap fun a => [a, s.wordVal .lam a])) s

/-- Pairs of a flat list. -/
def listPairs : List Nat → List (Nat × Nat)
  | a :: v :: r => (a, v) :: listPairs r
  | _ => []

/-- The child takes what its parent hands over. -/
def State.syncTake (s : State) (ws : List Nat) : State :=
  let h := nth ws 0
  if bitAt h 16 then
    s.applyWords .lam ((((listPairs (ws.drop 1)).filter fun x => syncWords.contains x.1)).map fun x => (x.1, x.2, s.rwcBits .lam x.1))
  else
    let b : Brim := { active := { entries := (List.range 16).map fun q => nth ws (1 + 2 * q) + 2 ^ 32 * nth ws (2 + 2 * q), epoch := h % 65536 },
                      stale := s.lam.brim.stale }
    let s := { s with lam := { s.lam with brim := b, oldRegs := none, synced := true } }
    (s.wl L.CFG_EPOCH (h % 65536)).tellItus true

/-- EPOCH_SYNC (R160, opcode 0x1C): with no parameters a child's request, else the parent's answer. -/
def State.epochSync (s : State) (h : CmdHdr) (ws : List Nat) : State × CmdRes :=
  if ws = [] then
    if s.role = 0 ∨ (s.routeTo h.origin).isNone then (s, { status := St.badTarget }) else (s.syncSend h.origin, {})
  else (s.syncTake ws, {})

/-- EPOCH_SYNC (R160). -/
def execEpochSync (h : CmdHdr) (ws : List Nat) (s : State) : Out :=
  .next (s.cmdLam { h with opcode := 0x1C } fun s => s.epochSync h (ws.map (· % 2 ^ 32)))

end Sys2Proof.Machine
end

