-- ==== Sys2Proof/Machine/CmdRx.lean ====
section
/-! DEFINITION. Command packets received (R377 to R383), their way down the tree, and the host's command ring (R400). -/

namespace Sys2Proof.Machine

/-! ### The opcode table (R383) -/

/-- Addressing modes that an opcode's row lists; none for a reserved opcode. -/
def opModes (op : Nat) : List Nat :=
  match op with
  | 0x01 => [0, 1, 2, 3, 4, 5, 6] | 0x02 => [0, 1, 2, 6] | 0x03 => [0, 1, 2, 3, 4, 5, 6] | 0x04 => [2, 3, 5]
  | 0x08 => [6] | 0x09 => [6] | 0x0A => [6] | 0x0B => [2, 6] | 0x0C => [5] | 0x0D => [5]
  | 0x10 => [2, 6] | 0x11 => [2, 6] | 0x12 => [2, 6]
  | 0x18 => [5] | 0x19 => [5] | 0x1A => [2] | 0x1B => [0, 2] | 0x1C => [2]
  | 0x20 => [0, 1] | 0x21 => [0, 1] | 0x22 => [2, 6] | 0x23 => [0, 1] | 0x24 => [0, 1] | 0x25 => [0, 1]
  | 0x28 => [4] | 0x29 => [4] | 0x30 => [2, 3, 5] | 0x31 => [2, 3, 5]
  | 0x38 => [6] | 0x39 => [5] | 0x3A => [0] | 0x3B => [0] | 0x3C => [2] | 0x3D => [0] | 0x3E => [0]
  | 0x48 => [2, 3, 5] | 0x49 => [0, 1, 2, 3, 5] | 0x4A => [0, 1, 2, 6] | 0x4B => [0, 1, 2, 6] | 0x4C => [0, 1, 2, 6]
  | 0x4D => [0, 1, 2, 6] | 0x4E => [0, 1, 2, 6]
  | 0x50 => [2, 6] | 0x51 => [2, 6] | 0x52 => [2, 6] | 0x53 => [2, 3, 5] | 0x54 => [2, 6]
  | _ => []

/-- Opcodes that need FLEET authority. -/
def opFleet (op : Nat) : Bool :=
  [0x04, 0x0C, 0x0D, 0x18, 0x19, 0x1A, 0x1B, 0x1C, 0x28, 0x29, 0x30, 0x31, 0x38, 0x39, 0x3A, 0x3B, 0x3C, 0x3D, 0x3E, 0x48, 0x49,
   0x53].contains op

/-- A packet executed by a die's ITU: the opcode, and with REG_READ, REG_WRITE and stitch commands the place they name. -/
def opAtDie (p : Pkt) : Bool :=
  let op := p.hdr.opcode
  if op = 0x02 ∨ op = 0x03 then bits (p.param 0) 0 2 == 0
  else if 0x4A ≤ op ∧ op ≤ 0x4E then !bitAt (p.param 0) (if op = 0x4C ∨ op = 0x4D then 10 else 5)
  else [0x01, 0x20, 0x21, 0x23, 0x24, 0x25, 0x3A, 0x3B].contains op

/-- A packet that stages values where it is executed. -/
def opStages (h : CmdHdr) : Bool := h.inTxn && [0x03, 0x04, 0x31].contains h.opcode

/-! ### Execution -/

/-- The next state of a command, where it answers one. -/
def State.via (s : State) (f : State → Out) : State :=
  match f s with
  | .next t => t
  | _ => s

/-- The announcement that a MAINS_ANN packet carries (R383). -/
def Pkt.ann (p : Pkt) : Ann :=
  let n := p.param
  { mc := n 0 + 2 ^ 32 * (n 1 % 65536), start := (n 2 + 2 ^ 32 * n 3) * 2 ^ 32 + n 4, length := n 5 + 2 ^ 32 * n 6, flags := n 7 % 256 }

/-- Bytes of the parameters from word k on. -/
def Pkt.bytesFrom (p : Pkt) (k n : Nat) : List Nat := (wordsToBytes (p.params.drop k)).take n

/-- MAINS_ANN at a part (R67, R69): the reply follows. -/
def State.mainsAnnOp (s : State) (sd : Side) (h : CmdHdr) (a : Ann) : State :=
  match sd with
  | .itu => ((s.annRx .itu a).after .itu).ituReply { h with opcode := 0x18 } {}
  | .lam => (s.annRx .lam a).lamReply { h with opcode := 0x18 } {}

/-- MAINS_ANN (R67, opcode 0x18). -/
def execMainsAnn (sd : Side) (h : CmdHdr) (a : Ann) (s : State) : Out := .next (s.mainsAnnOp sd h a)

/-- A stitch command at this Lamulo: the place must be the Lamulo, or with STITCH_LOAD a die's ITU that the packet reaches. -/
def State.stcHere (s : State) (h : CmdHdr) (ok : Bool) (f : State → Out) : State :=
  if ok then s.via f else s.lamReply h { status := St.badParam }

/-- A packet executed by the Lamulo. begins: TXN_BEGIN would begin a FLEET transaction; port: the die's port, for AMODE 0 and 1. -/
def State.lamOp (s : State) (p : Pkt) (begins : Bool) (port : Option Nat) : State :=
  let h := p.hdr
  let n := p.param
  let lo := n 0
  match h.opcode with
  | 0x01 => s.via (execNop .lam h)
  | 0x02 => s.via (execRegRead .lam h (bits lo 0 2) (bits lo 2 26 * 4) (n 1 % 32))
  | 0x03 => s.regWrite .lam h (bits lo 0 2) (bits lo 2 26 * 4) (n 1 % 32) (n 2 + 2 ^ 32 * n 3) (p.params.drop 4) (s.now .lam)
  | 0x04 => s.via (execBankSwap h (lo % 2) (bits lo 1 6))
  | 0x08 => s.via (execTxnBegin h begins)
  | 0x09 => s.via (execTxnCommit h)
  | 0x0A => s.via (execTxnAbort h)
  | 0x0B => s.via (execTxnStatus h)
  | 0x0C => s.via (execTxnPrepare .lam h lo (n 1))
  | 0x0D => s.via (execTxnDecide .lam h (bitAt lo 0))
  | 0x10 => s.via (execLockAcquire h (bits lo 0 8) (bits lo 16 10))
  | 0x11 => s.via (execLockRelease h (bits lo 0 8) (bitAt lo 8))
  | 0x12 => s.via (execLockQuery h (bits lo 0 8))
  | 0x18 => s.mainsAnnOp .lam h p.ann
  | 0x19 => s.via (execGenNotice h (bitAt lo 19) (if bitAt lo 19 then bits lo 0 19 else bits lo 0 17) (bits lo 20 4) (bits lo 24 8))
  | 0x1A => s.via (execParentSet h (bitAt lo 0))
  | 0x1B => s.via (execRejoinGrant h port (bitAt lo 0))
  | 0x1C => s.via (execEpochSync h p.params)
  | 0x22 => s.via (execTrkAssign h (bits lo 0 21) (bits (lo + 2 ^ 32 * n 1) 21 17) (bits (n 1) 6 12) (bitAt (n 1) 18))
  | 0x28 => s.via (execBarRef h p.params)
  | 0x29 => s.via (execQref h p.params)
  | 0x30 => s.via (execForestLoad h (bits lo 0 6) (n 2 + 2 ^ 32 * n 3) (n 4 + 2 ^ 32 * n 5))
  | 0x31 => s.via (execForestUnload h (bits lo 0 6))
  | 0x38 => s.via (execGauntletLoad h (lo + 2 ^ 32 * n 1) (n 2 + 2 ^ 32 * n 3))
  | 0x39 => s.via (execGntPush h lo (n 1) (p.bytesFrom 2 (n 1)))
  | 0x3C => s.via (execGntSuspect h (bits lo 0 4) (p.params.drop 1))
  | 0x3D => s.via (execSuspectSet h (bits lo 0 6) (bits lo 6 4))
  | 0x3E => s.via (execSuspectClear h)
  | 0x48 => s.via (execStitchPut h lo (p.bytesFrom 4 (bits (n 1) 0 16)))
  | 0x49 =>
    let isLam := bitAt lo 5
    s.stcHere h (if h.amode = 0 ∨ h.amode = 1 then !isLam else isLam || (s.role == 0 && h.amode != 2))
      (execStitchLoad h (bits lo 0 5) isLam (bitAt lo 6) (n 1))
  | 0x4A => s.stcHere h (bitAt lo 5) (execStitchStart h (bits lo 0 5) true)
  | 0x4B => s.stcHere h (bitAt lo 5) (execStitchStop h (bits lo 0 5) true)
  | 0x4C => s.stcHere h (bitAt lo 10) (execSlotWrite h (bits lo 0 10) true (n 2 + 2 ^ 32 * n 3))
  | 0x4D => s.stcHere h (bitAt lo 10) (execSlotRead h (bits lo 0 10) true)
  | 0x4E => s.stcHere h (bitAt lo 5) (execStitchQuery h (bits lo 0 5) true)
  | 0x50 => s.via (execRecRead h lo (bits (n 1) 0 12))
  | 0x51 => s.via (execRecFreeze h (bitAt lo 0))
  | 0x52 => s.via (execRecFlush h)
  | 0x53 => s.via (execRecClear h)
  | 0x54 => s.via (execRecNote h (bitAt lo 0) (p.bytesFrom 4 (bits lo 1 11)))
  | _ => s.lamReply h { status := St.badTarget }

/-- A packet executed by the ITU. -/
def State.ituOp (s : State) (p : Pkt) : State :=
  let h := p.hdr
  let n := p.param
  let lo := n 0
  match h.opcode with
  | 0x01 => s.via (execNop .itu h)
  | 0x02 => s.via (execRegRead .itu h (bits lo 0 2) (bits lo 2 26 * 4) (n 1 % 32))
  | 0x03 => s.regWrite .itu h (bits lo 0 2) (bits lo 2 26 * 4) (n 1 % 32) (n 2 + 2 ^ 32 * n 3) (p.params.drop 4) (s.now .itu)
  | 0x0C => s.via (execTxnPrepare .itu h lo (n 1))
  | 0x0D => s.via (execTxnDecide .itu h (bitAt lo 0))
  | 0x18 => s.mainsAnnOp .itu h p.ann
  | 0x20 => s.via (execAdmitSet h (bits lo 0 2) (n 1) (bits (n 2) 0 24))
  | 0x21 => s.via (execAdmitGet h (bits lo 0 2))
  | 0x23 => s.via (execVisorSnap h (bits lo 0 4) (bitAt lo 4) (bitAt lo 5))
  | 0x24 => s.via (execRowSample h (bits lo 0 4) (bits (n 1) 0 24) (bits (n 2) 0 11) (bits (n 3) 0 16))
  | 0x25 => s.via (execPartReset h (bits lo 0 4))
  | 0x3A => s.via (execGntStage h lo (wordsToBytes (p.params.drop 1)))
  | 0x3B => s.via (execGntRun h (bits lo 0 12) (bits lo 16 16) (bits (n 1) 0 4) (bitAt (n 1) 4) (p.params.drop 2))
  | 0x4A => s.via (execStitchStart h (bits lo 0 5) false)
  | 0x4B => s.via (execStitchStop h (bits lo 0 5) false)
  | 0x4C => s.via (execSlotWrite h (bits lo 0 10) false (n 2 + 2 ^ 32 * n 3))
  | 0x4D => s.via (execSlotRead h (bits lo 0 10) false)
  | 0x4E => s.via (execStitchQuery h (bits lo 0 5) false)
  | _ => s.ituReply h { status := St.badTarget }

/-! ### The checks of R381 -/

/-- Step 1: PVER, LEN16, reserved header fields, reserved opcode. -/
def formStatus (p : Pkt) (ws : List Nat) : Option Nat :=
  let n := nth ws
  let h := p.hdr
  if h.pver ≠ 1 ∨ h.len16 < 3 ∨ ws.length ≠ 4 * h.len16 ∨ h.auth = 0 ∨ h.auth = 3 ∨ n 0 / 2 ^ 27 ≠ 0 ∨ n 1 / 2 ^ 21 ≠ 0 ∨
      n 3 / 2 ^ 23 ≠ 0 ∨ n 4 / 2 ^ 24 ≠ 0 ∨ n 5 / 2 ^ 30 ≠ 0 ∨ n 10 / 2 ^ 18 ≠ 0 ∨ n 11 ≠ 0 then some St.badPacket
  else if opModes h.opcode = [] then some St.badOpcode
  else none

/-- A refused packet (R381): counted, and answered to its issuer. -/
def State.cmdRefuse (s : State) (h : CmdHdr) (st : Nat) : State :=
  (s.il L.CMD_CNT_REFUSED).replyRoute h (replyBody h { status := st } false 0 1 s.nodeNo false (s.rl L.CFG_EPOCH))

/-- A packet without the authority it needs (R389). -/
def State.cmdDenied (s : State) (h : CmdHdr) : State := (s.denied h).cmdRefuse h St.denied

/-- Permitted origins of a FLEET packet (R380): a Crown, the receiver, its parents, and their parents as R19 places them. -/
def State.originOk (s : State) (o : Nat) : Bool :=
  let parents := [1, 2].filterMap fun r => (s.roleAt r).map fun p => s.rl L.ETH_PORT_PEER_NODE p
  let grand := (parents.filter fun p => nodeRank p == 2).flatMap fun p =>
    let row := bits p 12 5
    [1 <<< 17 ||| row <<< 12, 1 <<< 17 ||| (row ^^^ 1) <<< 12]
  o == 0 || o == s.nodeNo || parents.contains o || grand.contains o

/-- The pair's last accepted TAG_SEQ, and the table of 128 pairs with a packet's accepted (R380). -/
def State.lastSeq (s : State) (h : CmdHdr) : Option Nat :=
  (s.lam.ctl.replay.find? fun r => r.1 == h.origin && r.2.1 == h.issuer).map (·.2.2)
def State.keepSeq (s : State) (h : CmdHdr) : State :=
  s.setCtl { s.lam.ctl with replay :=
    ((h.origin, h.issuer, h.tagSeq) :: s.lam.ctl.replay.filter fun r => !(r.1 == h.origin && r.2.1 == h.issuer)).take 128 }

/-- Step 2 (R378 to R380): the state after it, or the refusal. -/
def State.cmdVerify (s : State) (entry : Entry) (p : Pkt) : State × Option Nat :=
  let h := p.hdr
  if entry = .own then (s, none)
  else if h.auth = 1 then (if entry = .pcie then (s, none) else (s.denied h, some St.denied))
  else
    let good := match s.fleetKey with | some k => h.tag == p.tagOf k | none => false
    let d := sdiff32 (short (s.now .lam)) h.issue
    if !good then (((s.il L.CMD_CNT_AUTH_FAIL).wl L.CMDQ_STAT_AUTH_FAIL 1).denied h, some St.authFail)
    else if !s.originOk h.origin then (s, some St.badOrigin)
    else if d < -1000000 ∨ (s.rl L.CMD_TTL_MS * 1000000 : Nat) < d then (s.il L.CMD_CNT_REPLAY, some St.staleTime)
    else if (match s.lastSeq h with | some n => decide (sdiff32 h.tagSeq n ≤ 0) | none => false) then
      ((s.il L.CMD_CNT_REPLAY).denied h, some St.replay)
    else (s.keepSeq h, none)

/-- A staging packet that reaches the coordinator of its transaction (R390, R391): why it goes no further. away: it is for another
node or its dies. -/
def State.coordRefuse (s : State) (h : CmdHdr) (away : Bool) : Option Nat :=
  if !opStages h ∨ (fleetTxn h.txn ∧ !s.isCrown) then none
  else if !fleetTxn h.txn ∧ away then some St.badTarget
  else match s.lam.ctl.decided.find? (fun d => d.1 == h.txn), s.txnOf h.txn with
    | some d, _ => some (if d.2 then St.txnState else St.rolledBack)
    | none, some t => if t.state = .opened then none else some St.txnState
    | none, none => some (if !fleetTxn h.txn ∧ h.origin ≠ s.nodeNo then St.badTarget else St.txnUnknown)

/-- Children to which staging has gone (R392). -/
def State.markStaged (s : State) (h : CmdHdr) (ws : List (Bool × Nat)) : State :=
  if !opStages h then s else
  let new := ws.map fun w => (w.1, w.2, h.txn)
  s.setCtl { s.lam.ctl with staged := s.lam.ctl.staged.filter (fun x => !new.contains x) ++ new }

/-! ### The way down -/

/-- A packet to a child: a die's port, or an Ethernet port. -/
def State.passTo (s : State) (p : Pkt) (w : Bool × Nat) : State :=
  if w.1 then s.toItu w.2 p else s.send (.down w.2) 4 (.cmd p)

/-- The child takes packets: room at the die's port, or a live link. -/
def State.takes (s : State) (p : Pkt) (w : Bool × Nat) : Bool := if w.1 then s.cmdRoom w.2 p else s.childUp w

/-- A packet forwarded to one child. -/
def State.passOne (s : State) (p : Pkt) (w : Bool × Nat) : State :=
  match s.coordRefuse p.hdr (!w.1) with
  | some st => s.cmdRefuse p.hdr st
  | none =>
    if !s.originates then s.cmdRefuse p.hdr St.busy
    else if s.takes p w then (s.passTo p w).markStaged p.hdr [w]
    else (s.when w.1 fun s => s.il L.LNK_CNT_CMD_REFUSED 1 w.2).cmdRefuse p.hdr St.linkDown

/-- A packet forwarded toward node n. -/
def State.passToward (s : State) (p : Pkt) (n : Nat) : State :=
  if p.hdr.auth = 1 then s.cmdDenied p.hdr
  else match s.routeTo n with
    | some k => s.passOne p (false, k)
    | none => s.cmdRefuse p.hdr St.badTarget

/-- A packet for the die on port q of this Tray (R34, R35): RANK is checked against the brim entry in force. -/
def State.atPort (s : State) (p : Pkt) (begins : Bool) (q : Nat) : State :=
  let h := p.hdr
  let e := s.brimEntry q
  if h.amode = 1 ∧ !(brimBound e && brimRank e == bits h.target 0 15 && brimJob e == bits h.target 15 6) then
    s.cmdRefuse h St.staleBinding
  else if h.opcode = 0x1B ∨ h.opcode = 0x49 then s.lamOp p begins (some q)
  else if opAtDie p then s.passOne p (true, q)
  else s.cmdRefuse h St.badParam

/-- A packet for a die (AMODE 0, 1). -/
def State.toDie (s : State) (p : Pkt) (begins : Bool) (die : Nat) : State :=
  match s.portOf die with
  | some q => s.atPort p begins q
  | none =>
    if p.hdr.auth = 1 then s.cmdDenied p.hdr
    else if s.role = 0 then s.cmdRefuse p.hdr St.badTarget
    else s.passToward p (trayNode die)

/-- The Crown's rank directory (R28): the die of a job and rank in the active bank. -/
def State.rankDie (s : State) (target : Nat) : Option Nat :=
  let w := nth (s.ddrWords (Config.rankDirBase s.lam.dirBank + 4 * (bits target 15 6 * 32768 + bits target 0 15)) 1) 0
  if bitAt w 31 then some (bits w 0 17) else none

/-- A packet for a rank (R34, R35): a TRAY packet is resolved by its Tray, a FLEET packet by the Crown, which tags it anew. -/
def State.toRank (s : State) (p : Pkt) (begins : Bool) : State :=
  let h := p.hdr
  if h.auth = 1 then
    if s.role ≠ 0 then s.cmdDenied h
    else match (List.range 16).find? fun q => let e := s.brimEntry q
        brimBound e && brimRank e == bits h.target 0 15 && brimJob e == bits h.target 15 6 with
      | some q => s.atPort { p with hdr := { h with resolved := s.dieId q, resolvedValid := true } } begins q
      | none => s.cmdRefuse h St.badTarget
  else if s.isCrown then
    match s.rankDie h.target with
    | some die =>
      let k := s.signPkt { p with hdr := { h with epoch := s.rl L.CFG_EPOCH, resolved := die, resolvedValid := true } }
      k.1.toDie k.2 begins die
    | none => s.cmdRefuse h St.badTarget
  else if h.resolvedValid then s.toDie p begins h.resolved
  else s.cmdRefuse h St.badTarget

/-- A packet of AMODE 3 to 5 (R382): this node's own part of it first; unless that is refused, the packet goes on to the dies and
children, and the replies are merged. A child that cannot take it counts as failed with LINK_DOWN. -/
def State.fanOut (s : State) (p : Pkt) (begins own : Bool) (dies kids : List Nat) : State :=
  let h := p.hdr
  match s.coordRefuse h (!kids.isEmpty) with
  | some st => s.cmdRefuse h st
  | none =>
    let m : Merge := { hdr := h, due := s.now .lam + s.rl L.CMD_MERGE_US * 1000, wait := [(false, 98)] ++ if own then [ownResp] else [] }
    let s := (s.dropMerge h).setCtl { (s.dropMerge h).lam.ctl with merges := (s.dropMerge h).lam.ctl.merges ++ [m] }
    let s := if own then s.lamOp p begins none else s
    match s.mergeOf h.origin h.issuer h.cmdId with
    | none => s
    | some m =>
      if 0 < m.nFail then s.putMerge { m with wait := [] }
      else
        let all := if s.originates then dies.map (fun q => (true, q)) ++ kids.map fun k => (false, k) else []
        let ups := all.filter (s.takes p)
        let downs := all.filter fun w => !s.takes p w
        let s := (ups.foldl (fun s w => s.passTo p w) s).markStaged h ups
        let s := downs.foldl (fun s w => if w.1 then s.il L.LNK_CNT_CMD_REFUSED 1 w.2 else s) s
        let m : Merge := downs.foldl (fun (m : Merge) w => m.hear w 0 1 (some (w.1, s.childNo w, St.linkDown)) m.result m.data) m
        let m : Merge := { m with wait := (m.wait.filter (· == ownResp)) ++ ups }
        if h.noReply then (if 0 < m.nFail then s.putMerge { m with wait := [] } else s.dropMerge h) else s.putMerge m

/-- Opcodes whose execution at a node forwards them itself (R67, R320). -/
def opSelfForward (op : Nat) : Bool := op == 0x18 || op == 0x39

/-- A packet for this node and everything below it (AMODE 3 and 5). -/
def State.toSubtree (s : State) (p : Pkt) (begins : Bool) : State :=
  let op := p.hdr.opcode
  let dieOp := opAtDie p && (op == 0x01 || op == 0x03)
  let dies := if s.role = 0 ∧ dieOp then (List.range 16).filter fun q => s.rl L.LNK_CTL_ENABLE q == 1 else []
  let kids := if s.role = 0 ∨ opSelfForward op then [] else s.dstPorts .kids
  let s := s.when (s.isCrown && p.hdr.amode == 5 && s.originates && (s.coordRefuse p.hdr true).isNone) fun s => s.send .standby 4 (.cmd p)
  s.fanOut p begins ((op != 0x03 || bits (p.param 0) 0 2 == 1) && (op != 0x49 || bitAt (p.param 0) 5 || s.role == 0)) dies kids

/-- A packet for a cohort (AMODE 4): every Tray acts for the ports whose entry in force binds it. -/
def State.toCohort (s : State) (p : Pkt) (begins : Bool) : State :=
  let op := p.hdr.opcode
  if s.role ≠ 0 then s.fanOut p begins false [] (s.dstPorts .kids)
  else
    let qs := (List.range 16).filter fun q => brimBound (s.brimEntry q) && brimCohort (s.brimEntry q) == p.hdr.target % 128
    s.fanOut p begins (op != 0x03) (if op = 0x03 then qs else []) []

/-- Steps 4 to 6 for a packet that has passed the others: authority, target, opcode. -/
def State.cmdRoute (s : State) (entry : Entry) (p : Pkt) : State :=
  let h := p.hdr
  let tray := h.auth == 1
  let begins := decide (entry = .fleet)
  if tray && opFleet h.opcode then s.cmdDenied h
  else if !(opModes h.opcode).contains h.amode then s.cmdRefuse h St.badTarget
  else if (h.opcode = 0x02 ∨ h.opcode = 0x03) ∧ !regParamOk h (bits (p.param 0) 0 2) (p.param 1 % 32) then s.cmdRefuse h St.badParam
  else
    let s := if h.inTxn then s.touchTxn h.txn else s
    match h.amode with
    | 0 => if h.opcode = 0x3D ∨ h.opcode = 0x3E then s.lamOp p begins none else s.toDie p begins (h.target % 2 ^ 17)
    | 1 => s.toRank p begins
    | 2 => if h.target % 2 ^ 19 = s.nodeNo then s.lamOp p begins none else s.passToward p (h.target % 2 ^ 19)
    | 3 =>
      if h.target % 2 ^ 19 = s.nodeNo then (if tray && s.role != 0 then s.cmdDenied h else s.toSubtree p begins)
      else s.passToward p (h.target % 2 ^ 19)
    | 4 => if tray then s.cmdDenied h else s.toCohort p begins
    | 5 => if tray then s.cmdDenied h else s.toSubtree p begins
    | 6 => if entry = .pcie ∨ entry = .own ∨ (entry = .fleet ∧ s.isCrown) then s.lamOp p begins none else s.cmdRefuse h St.badTarget
    | _ => s.cmdRefuse h St.badTarget

/-- A TRAY packet of the PCIe queue carries the node's own ORIGIN and no tag (R378). -/
def State.stampTray (s : State) (entry : Entry) (p : Pkt) : Pkt :=
  if entry = .pcie ∧ p.hdr.auth = 1 then { p with hdr := { p.hdr with origin := s.nodeNo, issuer := 0, tagSeq := 0, tag := 0 } } else p

/-- COMMAND_PACKET_RX at a Lamulo (R378 to R383). -/
def State.cmdRx (s : State) (entry : Entry) (ws : List Nat) : State :=
  let s := s.il L.CMD_CNT_RX
  match entry with
  | .child _ => s.il L.CMD_CNT_REFUSED
  | _ =>
    let p := s.stampTray entry (Pkt.ofWords ws)
    let h := p.hdr
    match formStatus p ws with
    | some st => s.cmdRefuse h st
    | none =>
      let v := s.cmdVerify entry p
      match v.2 with
      | some st => v.1.cmdRefuse h st
      | none => if sdiff16 h.epoch (s.rl L.CFG_EPOCH) < 0 then v.1.cmdRefuse h St.staleEpoch else v.1.cmdRoute entry p

/-- COMMAND_PACKET_RX at the ITU (R160, R378): AUTH as the packet states, no tag. -/
def State.cmdRxItu (s : State) (ws : List Nat) : State :=
  let p := Pkt.ofWords ws
  let h := p.hdr
  let s := s.takeGot .itu 0 4 (wordsToBytes ws)
  match formStatus p ws with
  | some st => s.ituReply h { status := st }
  | none =>
    if sdiff16 h.epoch (s.ri I.CUFF_EPOCH) < 0 then s.ituReply h { status := St.staleEpoch }
    else if h.auth = 1 ∧ opFleet h.opcode then (s.ituPriv (cmdIssuer .itu h) 0 true).ituReply h { status := St.denied }
    else if !(opModes h.opcode).contains h.amode then s.ituReply h { status := St.badTarget }
    else s.ituOp p

/-! ### The host's rings (R400) -/

/-- Reply slots free. -/
def State.replyRoom (s : State) : Nat :=
  let n := s.rl L.RPLQ_SLOTS
  (s.rl L.RPLQ_HEAD + n - s.rl L.RPLQ_TAIL % n - 1) % n

/-- The packet in a slot of the command ring, as words. -/
def State.ringPacket (s : State) (slot : Nat) : List Nat :=
  let a := s.rl L.CMDQ_BASE_LO + 2 ^ 32 * s.rl L.CMDQ_BASE_HI + 4096 * slot
  s.ddrWords a (4 * max 3 (bits (nth (s.ddrWords a 1) 0) 12 8))

/-- Packets are taken in ring order while the ring is enabled, holds one, and a reply slot is free for every reply that waits. -/
def State.ringServe : Nat → State → State
  | 0, s => s
  | n + 1, s =>
    let head := s.rl L.CMDQ_HEAD
    if s.rl L.CMDQ_CTL_ENABLE = 1 ∧ head ≠ s.rl L.CMDQ_TAIL ∧ s.lam.replies.length < s.replyRoom ∧ s.ddrOk then
      State.ringServe n ((s.wl L.CMDQ_HEAD ((head + 1) % s.rl L.CMDQ_SLOTS)).cmdRx .pcie (s.ringPacket head))
    else s

/-- The ring served, at most once around. -/
def State.serve (s : State) : State := State.ringServe 1024 s

/-- A packet of a part. -/
def execCommandPacketRx (sd : Side) (entry : Entry) (ws : List Nat) (s : State) : Out :=
  match sd with
  | .itu => .next (s.cmdRxItu ws)
  | .lam => .next (s.cmdRx entry ws)

/-- A Lamulo word written; a write that the access test lets through may let the command ring go on. -/
def State.writeServe (s : State) (iss : Issuer) (a data strb : Nat) : State :=
  let t := s.writeWord .lam iss a data strb
  if (s.guard .lam iss a true (s.wordAuth .lam a)).2 then t.serve else t

/-- CMDQ_TAIL_WRITE (R400). -/
def execCmdqTailWrite (iss : Issuer) (v : Nat) (s : State) : Out := .next (s.writeServe iss L.CMDQ_TAIL.addr (v % 1024) 15)

/-- REPLY_RING_WRITE (R400): the oldest reply that waits is written as a CMD_REPLY record, and RPLQ_VEC raised. -/
def execReplyRingWrite (s : State) : Out :=
  match s.lam.replies with
  | [] => .next s
  | body :: rest =>
    if s.replyRoom = 0 ∨ !s.ddrOk then .next s else
    let t := s.rl L.RPLQ_TAIL
    let r : Rec := { cls := 3, typ := 0x0E0, len := 1 + ceilDiv body.length 4, die := s.nodeId, gen := s.rl L.STAT_NODE_GEN, seq := s.lam.seq,
                     short := short (s.now .lam), body := body }
    let s := { s with lam := { s.lam with replies := rest, seq := (s.lam.seq + 1) % 2 ^ 32 } }
    let s := s.ddrPut (s.rl L.RPLQ_BASE_LO + 2 ^ 32 * s.rl L.RPLQ_BASE_HI + 4096 * t) ({ r with trailer := r.trailerOf } : Rec).wire
    .next ((s.wl L.RPLQ_TAIL ((t + 1) % s.rl L.RPLQ_SLOTS)).raiseVec (s.rl L.RPLQ_VEC)).serve

/-- REGISTER_WRITE (R4, R387): one word. -/
def execRegisterWrite (sd : Side) (iss : Issuer) (addr data strb : Nat) (s : State) : Out :=
  match sd with
  | .itu => .next (s.writeWord .itu iss (addr / 4 * 4) (data % 2 ^ 32) (strb % 16))
  | .lam => .next (s.writeServe iss (addr / 4 * 4) (data % 2 ^ 32) (strb % 16))

/-- REG_WRITE (R385, opcode 0x03). A part that SPACE does not name is no responder. -/
def execRegWrite (sd : Side) (h : CmdHdr) (space addr count strb : Nat) (data : List Nat) (s : State) : Out :=
  if regParamOk h space count && !regHere sd space then .next s else
  let t := s.regWrite sd h space addr count strb data (s.now sd)
  .next (match sd with | .itu => t | .lam => t.serve)

end Sys2Proof.Machine
end

