-- ==== Sys2Proof/Machine/EthRx.lean ====
section
/-! DEFINITION. Vaosh frames received (R360 to R362, R364, R374) and the loss of a child's port (R346, R370). -/

namespace Sys2Proof.Machine

/-! ### Policing (R364) -/

/-- The buckets of a policer refilled to time t. cir, pir in kB/s, which is millionths of a byte per ns. Mode 1 fills C, then E; mode 2
fills both. -/
def Policer.refill (x : Policer) (mode cir pir t : Nat) : Policer :=
  let dt := t - x.at0
  let g := cir * dt
  { c := x.c - g, e := if mode = 1 then x.e - (g - x.c) else x.e - pir * dt, at0 := t }

/-- Colour of a frame of n bytes at a refilled policer: 0 green, 1 yellow, 2 red, and the policer after it. RFC 2697 in mode 1, RFC 2698
in mode 2; pre is the pre-colour, green where the marker is colour-blind. -/
def Policer.mark (x : Policer) (mode cbs ebs n pre : Nat) : Nat × Policer :=
  let b := n * 1000000
  let hasC := decide (x.c + b ≤ cbs * 1000000)
  let hasE := decide (x.e + b ≤ ebs * 1000000)
  if mode = 1 then
    if pre == 0 && hasC then (0, { x with c := x.c + b })
    else if decide (pre < 2) && hasE then (1, { x with e := x.e + b })
    else (2, x)
  else
    if decide (2 ≤ pre) || !hasE then (2, x)
    else if pre == 1 || !hasC then (1, { x with e := x.e + b })
    else (0, { x with c := x.c + b, e := x.e + b })

/-- A frame of channel c from a child on port p is policed: the state after it, and whether it is accepted. -/
def State.police (s : State) (p c : Nat) (f : Frame) : State × Bool :=
  let mode := s.rl L.POL_CFG_MODE p c
  if 4 ≤ c ∨ s.portRole p ≠ 3 ∨ mode = 0 ∨ mode = 3 then (s, true) else
  let e := s.ep p
  let x := (e.pol.getD c {}).refill mode (s.rl L.POL_CIR p c) (s.rl L.POL_PIR p c) (s.now .lam)
  let pre := if s.rl L.POL_CFG_AWARE p c = 1 then f.colour else 0
  let m := x.mark mode (s.rl L.POL_CBS p c) (s.rl L.POL_EBS_PBS p c) (s.frameLen p f.items) pre
  let s := s.setEp p { e with pol := setNth {} e.pol c m.2 }
  if m.1 = 0 then (s, true)
  else if m.1 = 1 then
    if (e.ch c).rxHeld * 100 < s.rl L.POL_CFG_YELLOW_PCT p c * chanBuffer c then (s, true) else (s.il L.POL_CNT_YELLOW 1 p, false)
  else (s.il L.POL_CNT_RED 1 p, false)

/-- A policed frame is named by its first record (R374). -/
def State.policedMiss (s : State) (f : Frame) : State :=
  match f.items with
  | .fwd e r :: _ => s.miss (srcOf e r) missDropped 0 f.items.length
  | _ => s

/-! ### Items -/

/-- An item from a child (ROLE 3). -/
def State.itemUp (s : State) (p : Nat) : Item → State
  | .fwd e r => s.recUp p e r
  | .ledger ws => s.sumRx p ws
  | .cmd k => s.cmdRx (.child p) k.words
  | .rcd _ => s
  | .mains _ => s

/-- An item from a parent (ROLE 1, 2): replies that return to their origin, announcements, fills, commands. -/
def State.itemDown (s : State) (p : Nat) : Item → State
  | .fwd e r => if e.crc = e.crcOf ∧ r.trailer = r.trailerOf ∧ r.typ = 0x0E0 then s.replyRx (false, p) r.body else s
  | .ledger ws => if ldgKind ws = 3 then s.fillRx ws else s.ldgBad
  | .cmd k => s.cmdRx (.parent p) k.words
  | .mains a => (s.annRx .lam a).after .lam
  | .rcd _ => s

/-- An item received on a port. A fleet interface (ROLE 4) takes commands. -/
def State.itemRx (s : State) (p : Nat) (i : Item) : State :=
  match s.portRole p with
  | 1 => s.itemDown p i
  | 2 => s.itemDown p i
  | 3 => s.itemUp p i
  | 4 => match i with
    | .cmd k => s.cmdRx .fleet k.words
    | _ => s
  | _ => s

/-! ### Frames -/

/-- Channel state of a link whose sequence starts anew: frames kept are sent again as new ones. -/
def EthChan.renew (h : EthChan) : EthChan :=
  { h with moved := h.kept ++ h.moved, again := [], kept := [], fseq := 0, lim := 0, waited := false, rxSeq := 0, rxFreed := 0, rxHeld := 0,
           naked := false }

/-- A command in a kept frame is answered to its issuer with LINK_DOWN (R370). -/
def State.cmdLost (s : State) (p : Nat) (i : Item) : State :=
  match i with
  | .cmd k =>
    let h := k.hdr
    match s.mergeOf h.origin h.issuer h.cmdId with
    | some m =>
      if m.wait.contains (false, p) then
        s.putMerge (m.hear (false, p) 0 1 (some (false, s.childNo (false, p), St.linkDown)) m.result m.data)
      else s
    | none => s.replyRoute h (replyBody h { status := St.linkDown } false 0 1 (s.childNo (false, p)) false (s.rl L.CFG_EPOCH))
  | _ => s

/-- CMD frames sent to a lost child and not acknowledged are neither resent nor rerouted (R370). -/
def State.cmdFramesLost (s : State) (p : Nat) : State :=
  let e := s.ep p
  let h := e.ch 4
  let s := s.setEp p (e.setCh 4 { h with kept := [], moved := [], again := [] })
  ((h.kept ++ h.moved).flatMap Frame.items).foldl (fun s i => s.cmdLost p i) s

/-- RESTART_FRAME_RX (R374): the peer of an established link has restarted; a parent emits one DEADLINE_MISS for what its child kept.
The sequences of the link start anew (log entry 55). -/
def State.restartRx (s : State) (p : Nat) (f : Frame) : State :=
  let e := s.ep p
  if !f.restart then s.setEp p { e with estab := true }
  else if !e.estab then s
  else
    let s := s.when (s.portRole p == 3) fun s =>
      s.miss { die := f.src % 2 ^ 17, srcRole := if f.standby then 5 else 4 - nodeRank f.src, cls := 0, typ := 0, seq := 0, short := 0 }
        missLost 0 0x3FFFF
    let s := s.when (s.portRole p == 3) fun s => s.cmdFramesLost p
    let e := s.ep p
    s.setEp p { e with estab := false, chans := (List.range 6).map fun c => (e.ch c).renew }

/-- A NAK is a LINK frame with the FSEQ expected on channel c (R362; the channel in ACK_CH, log entry 49). -/
def State.sendNak (s : State) (p c : Nat) : State :=
  let s := (s.emitFrame p { chan := 6, restart := !(s.ep p).heard, fseq := ((s.ep p).ch c).rxSeq, src := s.nodeNo, standby := s.isStandby,
                            nak := true }).il L.ETH_CNT_NAK 1 p
  let e := s.ep p
  s.setEp p { e with out := e.out.map fun f => { f with ack := some (c, ((e.ch c).rxSeq + 65535) % 65536) } }

/-- A frame in order on channel c: counted as received and, unless it is policed, its items are processed. Frames of a child occupy the
receive buffer until their channel's items no longer wait to go up (log entry 45). -/
def State.frameTake (s : State) (p c : Nat) (f : Frame) : State :=
  let u := s.police p c f
  let s := u.1
  let e := s.ep p
  let h := { e.ch c with rxSeq := (f.fseq + 1) % 65536, naked := false }
  let held := u.2 && s.portRole p == 3
  let h := if held then { h with rxHeld := h.rxHeld + 1 } else { h with rxFreed := (h.rxFreed + 1) % 65536 }
  let s := s.setEp p (e.setCh c h)
  if u.2 then (f.items.foldl (fun s i => s.itemRx p i) s).freeFrames else s.policedMiss f

/-- A frame of a credited channel (R362): in order it is taken, one seen before is discarded, and a gap gives one NAK. -/
def State.frameRx (s : State) (p : Nat) (f : Frame) : State :=
  let c := f.chan
  let h := (s.ep p).ch c
  let far := decide (sdiff16 f.fseq h.rxSeq < -(chanBuffer c : Int)) || decide ((chanBuffer c : Int) < sdiff16 f.fseq h.rxSeq)
  let s := s.when (f.fseq == 0 && far) fun s =>
    s.setEp p ((s.ep p).setCh c { h with rxSeq := 0, rxFreed := 0, rxHeld := 0, naked := false })
  let h := (s.ep p).ch c
  let d := sdiff16 f.fseq h.rxSeq
  if d = 0 then s.frameTake p c f
  else if d < 0 ∨ h.naked then s
  else (s.setEp p ((s.ep p).setCh c { h with naked := true })).sendNak p c

/-- CREDIT and ACK of a frame (R361, R362). -/
def State.frameAcks (s : State) (p : Nat) (f : Frame) : State := ((s.ethCredit p f.credit).ethAck p f.ack).failbackTry

/-- ETH_FRAME_RX (R360). bad: wrong FCS, wrong UDP checksum or VER not 1. -/
def execEthFrameRx (p : Nat) (f : Frame) (bad : Bool) (s : State) : Out :=
  if 24 ≤ p ∨ s.lineRate p = 0 ∨ s.portRole p = 0 ∨ 5 ≤ s.portRole p then .next s
  else if bad then .next (s.il L.ETH_CNT_FCS 1 p)
  else if 7 ≤ f.chan then .next s
  else
    let s := s.restartRx p f
    if f.chan = 6 then execEthLinkFrameRx p f s else .next ((s.frameAcks p f).frameRx p f)

/-- CHILD_PORT_LOSS (R346, R370): signal lost on a child's port, or no LINK frame for EGR_LIVE_US. -/
def execChildPortLoss (p : Nat) (signal : Bool) (s : State) : Out :=
  let due := signal || (s.rl L.ETH_PORT_STAT_LIVE p == 1 && decide (s.rl L.EGR_LIVE_US * 1000 ≤ s.now .lam - (s.ep p).lastLink))
  if p < 24 ∧ s.portRole p = 3 ∧ due then .next (((s.portLost p signal).cmdFramesLost p).ldgChildLost p) else .next s

end Sys2Proof.Machine
end

