-- ==== Sys2Proof/Machine/Sched.lean ====
section
/-! DEFINITION. What the grid sets off: slot boundaries (R68), starts of mains cycles (R65), the release of retiring banks (R29), and
the takeover by the standby Crown (R71, R347, R393). -/

namespace Sys2Proof.Machine

/-! ### Slot boundaries -/

/-- LEDGER_ENACTMENT at slot n (R340): once per MC, at the slot that the latest grant carried. -/
def State.enactAt (s : State) (n : Nat) : State :=
  if n = s.ri I.LDG_SLOT ∧ s.itu.pwr.enactMc ≠ some (s.mc .itu) then s.enact else s

/-- The gate cycles of the Ethernet ports restart (R365). -/
def State.gatesRestart (s : State) (t : Nat) : State :=
  (List.range 24).foldl (fun s p => if s.rl L.GATE_CTL_EN p = 1 then s.setGate p 0 t else s) s

/-- The acts of the boundary of slot n at time t (R52, R68): latches, the enactment, the cells of the Tray, gates, stitch contexts. -/
def State.slotActs (s : State) (sd : Side) (n t : Nat) : State :=
  match sd with
  | .itu => ((s.latchSlot n t).enactAt n).stcBoundary .itu t (s.mc .itu * 64 + n)
  | .lam => ((s.statOpen n t).gatesRestart t).stcBoundary .lam t (s.mc .lam * 64 + n)

/-- SLOT_BOUNDARY (R68): the next boundary of the current MC has come. Without the conditions of R52 nothing is scheduled. -/
def execSlotBoundary (sd : Side) (s : State) : Out :=
  let m := s.mains sd
  match m.cur with
  | some a =>
    let n := m.slot
    if n < 64 ∧ a.slotAt n ≤ s.now sd then
      let s := s.setMains sd { m with slot := n + 1 }
      .next (if s.slotsOk sd then s.slotActs sd n (a.slotAt n) else s)
    else .next s
  | none => .next s

/-! ### The start of a mains cycle -/

/-- Refusals of classes A, B and C not yet reported (R202). -/
def refusals (l : List Bucket) : List Nat := (List.range 3).map fun c => (l.getD c Bucket.none).refused

/-- The refusals have been reported. -/
def clearRefusals (l : List Bucket) : List Bucket := l.map fun b => { b with refused := 0 }

/-- ADMIT_LOST of the ITU at time t, the start of an MC (R202): kept while the Cuff is raised for partition 0 or the CTRL queue is
full. -/
def State.admitLostItu (s : State) (t ended : Nat) : State :=
  let l := refusals s.itu.txq.bkt
  if l.all (· == 0) ∨ s.ri I.PART_STAT_CUFF 0 = 1 then s
  else
    let o := s.ituOffer (s.ituRec 3 0x004 0 (short t) (l ++ [ended % 2 ^ 32]))
    if o.2 = St.ok then
      { o.1 with itu := { o.1.itu with txq := { o.1.itu.txq with bkt := clearRefusals o.1.itu.txq.bkt } } }
    else o.1

/-- ADMIT_LOST of the Lamulo at time t, the start of an MC (R202, R194). -/
def State.admitLostLam (s : State) (t ended : Nat) : State :=
  let l := refusals s.lam.bkt
  if l.all (· == 0) then s
  else
    let o := s.lamRec 3 0x004 s.nodeId (s.rl L.STAT_NODE_GEN) t (l ++ [ended % 2 ^ 32])
    if o.2 then { o.1 with lam := { o.1.lam with bkt := clearRefusals o.1.lam.bkt } } else o.1

/-- n free words. -/
def State.freeWords (s : State) (n : Nat) : List Nat × State :=
  ((List.range n).map fun i => Config.freeValue (s.freeN + i) % 2 ^ 32, { s with freeN := s.freeN + n })

/-- The control-class record of R94 on a change of what port q reads. The manual gives it no type and no payload: free values (log
entry 56). -/
def State.pollReport (s : State) (q : Nat) : State :=
  let f := s.free
  let w := f.2.freeWords 4
  (w.2.lamRec 3 (f.1 % 1024) (s.dieId q) (s.rl L.GEN_CUR q 0) (s.now .lam) w.1).1

/-- What the Tray reads of a port once per MC (R94, R241, R330): ITU_FAULT, the twelve ITU_CNT counters in address order, ITU_PWR_NOW,
ITU_FN_EN.DIGEST, DIG_STEP, GNT_STAT.STATE. -/
def State.poll (s : State) (q : Nat) (ws : List Nat) : State :=
  let p := s.port q
  let seen := (List.range 13).map fun i => nth ws i
  let s := if seen = (List.range 13).map (fun i => nth p.polled i) then s else s.pollReport q
  let s := s.setPort q { s.port q with polled := seen }
  let w := nth ws 13
  let s := s.setDet q { s.det q with temp := some (bits w 16 10), watts := bits w 0 16, readMc := some (s.mc .lam) }
  s.countStep q (bitAt (nth ws 14) 0) (nth ws 15)

/-- The once-per-MC work of a Tray on its ports, in ascending order (R94, R241, R330, R331). A port that is not UP is not read. -/
def State.trayPolls (s : State) (polls : List (Nat × List Nat)) : State :=
  if s.role ≠ 0 then s else
  (List.range 16).foldl (fun s q =>
    match polls.find? fun x => x.1 == q with
    | some x => if s.portUp q then (s.poll q x.2).schedule q (nth x.2 16 == 0) else s
    | none => s) s

/-- REC_EVENT LOST, once per MC in which records were lost (R443). -/
def State.recLostMc (s : State) : State :=
  let n := s.lam.rcd.lostMc
  if n = 0 then s else (s.setRcd { s.lam.rcd with lostMc := 0 }).recEvent 5 n

/-- A node that has not yet taken its epoch and banks asks its parent again (R458). -/
def State.epochRetry (s : State) : State :=
  if s.lam.scanned && !s.lam.synced && s.role != 3 then s.epochAsk else s

/-- Once-per-MC work of the ITU (R101, R146, R202, R355): t is the start of the MC, ended the MC before. -/
def State.mcItu (s : State) (t ended : Nat) : State :=
  let s := s.setSmp { s.itu.smp with phase := s.ri I.SMP_PHASE }
  let s := s.setPwr { s.itu.pwr with perMc := s.itu.pwr.perMc + 1 }
  let s := if s.slotsOk .itu then s.hangCheckAll else s
  s.admitLostItu t ended

/-- Once-per-MC work of a Lamulo (R65, R75, R94, R202, R331, R343, R347, R396, R443). -/
def State.mcLam (s : State) (t ended : Nat) (polls : List (Nat × List Nat)) : State :=
  let s := if s.isCrown then s.crownConsClear.crownAnnounce else s
  let s := ((s.admitLostLam t ended).trayPolls polls).ldgMc
  s.recLostMc.boardDue.statusPoll.epochRetry

/-- MC_START (R65): the start of the next MC of a part's chain has come. -/
def execMcStart (sd : Side) (polls : List (Nat × List Nat)) (s : State) : Out :=
  if !s.mcDue sd then .next s else
  let ended := s.mc sd
  let s := (s.mcAdvance sd).after sd
  let t := ((s.mains sd).cur.map Ann.startNs).getD 0
  match sd with
  | .itu => .next (s.mcItu t ended)
  | .lam => .next (s.mcLam t ended polls)

/-! ### Retiring banks -/

/-- One mains cycle has passed since the last FLEET commit (R29). -/
def State.bankDue (s : State) : Bool :=
  let b := s.lam.brim
  match s.lam.mains.cur, b.commit with
  | some a, some c => decide ((a.length / 2 ^ 32 : Nat) ≤ sdiff32 (short (s.now .lam)) c) || decide (b.commitMc + 2 ≤ s.mc .lam)
  | _, _ => false

/-- RETIRING_BANK_RELEASE (R29): the retiring bank is released, and writes that waited for its shadow go on. -/
def execRetiringBankRelease (s : State) : Out :=
  if s.lam.brim.retiring.isSome && s.bankDue then
    let b := { s.lam.brim with retiring := none }
    .next (({ s with lam := { s.lam with brim := b, oldRegs := none } } : State).retryWaits .lam)
  else .next s

/-! ### Takeover -/

/-- A FLEET transaction of the former active Crown without a mirrored decision is rolled back (R393). -/
def State.takeoverAbort (s : State) (txn : Nat) : State := (s.txnAll 0x0D txn [0]).decideLam txn false

/-- Transactions staged here of which no decision is held. -/
def State.undecided (s : State) : List Nat :=
  (s.lam.ctl.stg.filter fun g => fleetTxn g.txn && !g.commit && !s.lam.ctl.decided.any fun d => d.1 == g.txn).map (·.txn)

/-- CROWN_TAKEOVER (R71, R347, R393): the standby continues the announced chain, rolls back what was not decided, and starts with its
buckets empty. -/
def execCrownTakeover (s : State) : Out :=
  if s.isStandby then
    let s := { s with lam := { s.lam with mzc := { s.lam.mzc with tookOver := true } } }
    let s := s.undecided.foldl State.takeoverAbort s
    .next ((s.wl L.LDGF_LEVEL_UP 0).wl L.LDGF_LEVEL_DN 0)
  else .next s

end Sys2Proof.Machine
end

