-- ==== Sys2Proof/Machine/Dispatch.lean ====
section
/-! DEFINITION. The dispatch of commands: one arm per constructor of Instr. -/

namespace Sys2Proof.Machine

def exec (i : Instr) (s : State) : Host.Outcome State Fault Refusal :=
  match i with
  | .registerWrite sd iss addr data strb => Sys2Proof.Machine.execRegisterWrite sd iss addr data strb s
  | .slotBoundary sd => Sys2Proof.Machine.execSlotBoundary sd s
  | .mcStart sd polls => Sys2Proof.Machine.execMcStart sd polls s
  | .timeIncrHiWrite sd iss data => Sys2Proof.Machine.execTimeIncrHiWrite sd iss data s
  | .timeCtlEnableWrite sd iss v => Sys2Proof.Machine.execTimeCtlEnableWrite sd iss v s
  | .timeCtlRearm sd iss => Sys2Proof.Machine.execTimeCtlRearm sd iss s
  | .sourceLost sd => Sys2Proof.Machine.execSourceLost sd s
  | .holdoverDegraded sd => Sys2Proof.Machine.execHoldoverDegraded sd s
  | .ptpMessageRx port m => Sys2Proof.Machine.execPtpMessageRx port m s
  | .ptpSyncTx port t f => Sys2Proof.Machine.execPtpSyncTx port t f s
  | .ptpDelayReqTx port t f => Sys2Proof.Machine.execPtpDelayReqTx port t f s
  | .portSettleEnd port => Sys2Proof.Machine.execPortSettleEnd port s
  | .mzcEdge t => Sys2Proof.Machine.execMzcEdge t s
  | .annLost sd => Sys2Proof.Machine.execAnnLost sd s
  | .conservativeEntry sd => Sys2Proof.Machine.execConservativeEntry sd s
  | .mainsCtlEnableWrite iss v => Sys2Proof.Machine.execMainsCtlEnableWrite iss v s
  | .ituPdCtlWrite iss v => Sys2Proof.Machine.execItuPdCtlWrite iss v s
  | .pdSwAck n level => Sys2Proof.Machine.execPdSwAck n level s
  | .pdSwAckTimeout n => Sys2Proof.Machine.execPdSwAckTimeout n s
  | .ituFnEnWrite iss v => Sys2Proof.Machine.execItuFnEnWrite iss v s
  | .pwrMeasPulse w temp => Sys2Proof.Machine.execPwrMeasPulse w temp s
  | .ituClkMeasure cycles => Sys2Proof.Machine.execItuClkMeasure cycles s
  | .barrierEvent exit part coll => Sys2Proof.Machine.execBarrierEvent exit part coll s
  | .barEntryTimeout part coll => Sys2Proof.Machine.execBarEntryTimeout part coll s
  | .memResponse tag gen status data last => Sys2Proof.Machine.execMemResponse tag gen status data last s
  | .memTimeout tag => Sys2Proof.Machine.execMemTimeout tag s
  | .rowResponse data err => Sys2Proof.Machine.execRowResponse data err s
  | .qscanDescriptor desc last => Sys2Proof.Machine.execQscanDescriptor desc last s
  | .canaryOutputBeat data last => Sys2Proof.Machine.execCanaryOutputBeat data last s
  | .srAck err => Sys2Proof.Machine.execSrAck err s
  | .quiesceAck p => Sys2Proof.Machine.execQuiesceAck p s
  | .quiesceTimeout p => Sys2Proof.Machine.execQuiesceTimeout p s
  | .partRstDone p => Sys2Proof.Machine.execPartRstDone p s
  | .resetTimeout p => Sys2Proof.Machine.execResetTimeout p s
  | .counterSelectWrite iss sel data => Sys2Proof.Machine.execCounterSelectWrite iss sel data s
  | .smpCtlClear iss => Sys2Proof.Machine.execSmpCtlClear iss s
  | .smpCtlRunWrite iss v => Sys2Proof.Machine.execSmpCtlRunWrite iss v s
  | .recordHandover vc => Sys2Proof.Machine.execRecordHandover vc s
  | .smpRdLoRead iss => Sys2Proof.Machine.execSmpRdLoRead iss s
  | .virtualHeadArrival j poison => Sys2Proof.Machine.execVirtualHeadArrival j poison s
  | .trkSnapCmdWrite iss idx => Sys2Proof.Machine.execTrkSnapCmdWrite iss idx s
  | .trkAssign h tracker die counter free => Sys2Proof.Machine.execTrkAssign h tracker die counter free s
  | .visCtlTrig iss part => Sys2Proof.Machine.execVisCtlTrig iss part s
  | .visorSnap h p hold emit => Sys2Proof.Machine.execVisorSnap h p hold emit s
  | .visCtlRelease iss => Sys2Proof.Machine.execVisCtlRelease iss s
  | .visRdData0Read iss => Sys2Proof.Machine.execVisRdData0Read iss s
  | .rowCtlTrig iss part => Sys2Proof.Machine.execRowCtlTrig iss part s
  | .rowSample h p first count stride => Sys2Proof.Machine.execRowSample h p first count stride s
  | .tracePacketCapture taps bars addrs => Sys2Proof.Machine.execTracePacketCapture taps bars addrs s
  | .traceChunkWrite p tag => Sys2Proof.Machine.execTraceChunkWrite p tag s
  | .trcPctlFlush iss p => Sys2Proof.Machine.execTrcPctlFlush iss p s
  | .trcPctlEnWrite iss p v => Sys2Proof.Machine.execTrcPctlEnWrite iss p v s
  | .trcMarkWrite iss p v => Sys2Proof.Machine.execTrcMarkWrite iss p v s
  | .partCtlReset iss p => Sys2Proof.Machine.execPartCtlReset iss p s
  | .partReset h p => Sys2Proof.Machine.execPartReset h p s
  | .resetTriggerRelease p => Sys2Proof.Machine.execResetTriggerRelease p s
  | .captureEnd p => Sys2Proof.Machine.execCaptureEnd p s
  | .captureTimeout p => Sys2Proof.Machine.execCaptureTimeout p s
  | .generationAdvance p => Sys2Proof.Machine.execGenerationAdvance p s
  | .prevGenRelease q p => Sys2Proof.Machine.execPrevGenRelease q p s
  | .partCtlAdvAll iss => Sys2Proof.Machine.execPartCtlAdvAll iss s
  | .rejoinStep q reads => Sys2Proof.Machine.execRejoinStep q reads s
  | .rejoinTimeout q => Sys2Proof.Machine.execRejoinTimeout q s
  | .rejoinGrant h q grant => Sys2Proof.Machine.execRejoinGrant h q grant s
  | .genNotice h isNode id part gen => Sys2Proof.Machine.execGenNotice h isNode id part gen s
  | .epochSync h ws => Sys2Proof.Machine.execEpochSync h ws s
  | .linkTrainStart sd q => Sys2Proof.Machine.execLinkTrainStart sd q s
  | .blockLockAcquired sd q => Sys2Proof.Machine.execBlockLockAcquired sd q s
  | .settleEnd sd q => Sys2Proof.Machine.execSettleEnd sd q s
  | .helloRx sd q ver maxFmt minFmt checks => Sys2Proof.Machine.execHelloRx sd q ver maxFmt minFmt checks s
  | .readyRx sd q fmt check valid degraded => Sys2Proof.Machine.execReadyRx sd q fmt check valid degraded s
  | .lossOfSignal sd q lane => Sys2Proof.Machine.execLossOfSignal sd q lane s
  | .blockLockLoss sd q lane => Sys2Proof.Machine.execBlockLockLoss sd q lane s
  | .noValidBlockTimeout sd q => Sys2Proof.Machine.execNoValidBlockTimeout sd q s
  | .lnkCtlRetrain iss q => Sys2Proof.Machine.execLnkCtlRetrain iss q s
  | .ilnkCtlRetrain iss => Sys2Proof.Machine.execIlnkCtlRetrain iss s
  | .lnkCtlEnableWrite iss q v => Sys2Proof.Machine.execLnkCtlEnableWrite iss q v s
  | .cellRx sd q octets badBlocks => Sys2Proof.Machine.execCellRx sd q octets badBlocks s
  | .nakRx sd q cseq => Sys2Proof.Machine.execNakRx sd q cseq s
  | .ackRx sd q cseq => Sys2Proof.Machine.execAckRx sd q cseq s
  | .creditRx sd q vc freed => Sys2Proof.Machine.execCreditRx sd q vc freed s
  | .cellTx sd q => Sys2Proof.Machine.execCellTx sd q s
  | .linkBlockTx sd q kind vc => Sys2Proof.Machine.execLinkBlockTx sd q kind vc s
  | .recordArrivalIkl q r => Sys2Proof.Machine.execRecordArrivalIkl q r s
  | .timeSyncTx q t f => Sys2Proof.Machine.execTimeSyncTx q t f s
  | .timeSyncRx exch t1 f1 asym t2 f2 t3 f3 => Sys2Proof.Machine.execTimeSyncRx exch t1 f1 asym t2 f2 t3 f3 s
  | .timeDreqRx q exch t4 f4 => Sys2Proof.Machine.execTimeDreqRx q exch t4 f4 s
  | .timeDrespRx exch t4 f4 => Sys2Proof.Machine.execTimeDrespRx exch t4 f4 s
  | .mainsCellRx a => Sys2Proof.Machine.execMainsCellRx a s
  | .crcSelWrite sd iss u v => Sys2Proof.Machine.execCrcSelWrite sd iss u v s
  | .crcDataWrite sd iss u data strb => Sys2Proof.Machine.execCrcDataWrite sd iss u data strb s
  | .recordArrivalUplink p e r => Sys2Proof.Machine.execRecordArrivalUplink p e r s
  | .partialArrival e r poison => Sys2Proof.Machine.execPartialArrival e r poison s
  | .statCellClose spec gid t poison lost => Sys2Proof.Machine.execStatCellClose spec gid t poison lost s
  | .barPartialArrival e r => Sys2Proof.Machine.execBarPartialArrival e r s
  | .barrierCellClose cohort coll => Sys2Proof.Machine.execBarrierCellClose cohort coll s
  | .barRef h words => Sys2Proof.Machine.execBarRef h words s
  | .qref h words => Sys2Proof.Machine.execQref h words s
  | .stragVerdictRepeat q => Sys2Proof.Machine.execStragVerdictRepeat q s
  | .forestPassStart slot => Sys2Proof.Machine.execForestPassStart slot s
  | .forestSegmentEnd slot cycles => Sys2Proof.Machine.execForestSegmentEnd slot cycles s
  | .forestPassEnd slot => Sys2Proof.Machine.execForestPassEnd slot s
  | .vectorAgeOut slot => Sys2Proof.Machine.execVectorAgeOut slot s
  | .forestFault slot kind => Sys2Proof.Machine.execForestFault slot kind s
  | .fstResumeWrite iss v => Sys2Proof.Machine.execFstResumeWrite iss v s
  | .fstCtlQuartersWrite iss v => Sys2Proof.Machine.execFstCtlQuartersWrite iss v s
  | .forestLoad h slot base len => Sys2Proof.Machine.execForestLoad h slot base len s
  | .forestLoadDone slot poison => Sys2Proof.Machine.execForestLoadDone slot poison s
  | .forestUnload h slot => Sys2Proof.Machine.execForestUnload h slot s
  | .forestBankRelease slot => Sys2Proof.Machine.execForestBankRelease slot s
  | .bankSwap h obj slot => Sys2Proof.Machine.execBankSwap h obj slot s
  | .digStepWrite iss step => Sys2Proof.Machine.execDigStepWrite iss step s
  | .digUnstableWrite iss => Sys2Proof.Machine.execDigUnstableWrite iss s
  | .digCtlAbort iss => Sys2Proof.Machine.execDigCtlAbort iss s
  | .digPartialArrival e r => Sys2Proof.Machine.execDigPartialArrival e r s
  | .digestCellClose cohort replica step lo hi => Sys2Proof.Machine.execDigestCellClose cohort replica step lo hi s
  | .digestCompare cohort step lo hi => Sys2Proof.Machine.execDigestCompare cohort step lo hi s
  | .gauntletLoad h base len => Sys2Proof.Machine.execGauntletLoad h base len s
  | .gntPush h off len bs => Sys2Proof.Machine.execGntPush h off len bs s
  | .packageCheckDone poison => Sys2Proof.Machine.execPackageCheckDone poison s
  | .gntStage h off bs => Sys2Proof.Machine.execGntStage h off bs s
  | .gntRun h item pkg load retest entry => Sys2Proof.Machine.execGntRun h item pkg load retest entry s
  | .slicePatternEnd wso => Sys2Proof.Machine.execSlicePatternEnd wso s
  | .sliceOvertime wso => Sys2Proof.Machine.execSliceOvertime wso s
  | .gntCtlAbort iss wso => Sys2Proof.Machine.execGntCtlAbort iss wso s
  | .gntSuspect h port entry => Sys2Proof.Machine.execGntSuspect h port entry s
  | .suspectSet h tbin load => Sys2Proof.Machine.execSuspectSet h tbin load s
  | .suspectClear h => Sys2Proof.Machine.execSuspectClear h s
  | .ldgGrantRx ws => Sys2Proof.Machine.execLdgGrantRx ws s
  | .ldgReportRx q ws => Sys2Proof.Machine.execLdgReportRx q ws s
  | .ldgFillRx ws => Sys2Proof.Machine.execLdgFillRx ws s
  | .ldgSumRx p ws => Sys2Proof.Machine.execLdgSumRx p ws s
  | .ldgCtlFreeze iss v => Sys2Proof.Machine.execLdgCtlFreeze iss v s
  | .ethFrameRx p f bad => Sys2Proof.Machine.execEthFrameRx p f bad s
  | .ethLinkFrameRx p f => Sys2Proof.Machine.execEthLinkFrameRx p f s
  | .ethFrameTx p => Sys2Proof.Machine.execEthFrameTx p s
  | .ethLinkFrameTx p => Sys2Proof.Machine.execEthLinkFrameTx p s
  | .gateEntryChange p => Sys2Proof.Machine.execGateEntryChange p s
  | .parentLos p => Sys2Proof.Machine.execParentLos p s
  | .livenessTimeout p => Sys2Proof.Machine.execLivenessTimeout p s
  | .parentSet h sec => Sys2Proof.Machine.execParentSet h sec s
  | .parentChangeRx p r => Sys2Proof.Machine.execParentChangeRx p r s
  | .commandPacketRx sd entry ws => Sys2Proof.Machine.execCommandPacketRx sd entry ws s
  | .cmdReplyRx fromDie p body => Sys2Proof.Machine.execCmdReplyRx fromDie p body s
  | .cmdMergeTimeout origin issuer cmdId => Sys2Proof.Machine.execCmdMergeTimeout origin issuer cmdId s
  | .cmdqTailWrite iss v => Sys2Proof.Machine.execCmdqTailWrite iss v s
  | .nop sd h => Sys2Proof.Machine.execNop sd h s
  | .regRead sd h space addr count => Sys2Proof.Machine.execRegRead sd h space addr count s
  | .regWrite sd h space addr count strb data => Sys2Proof.Machine.execRegWrite sd h space addr count strb data s
  | .txnBegin h fleet => Sys2Proof.Machine.execTxnBegin h fleet s
  | .txnCommit h => Sys2Proof.Machine.execTxnCommit h s
  | .txnAbort h => Sys2Proof.Machine.execTxnAbort h s
  | .txnStatus h => Sys2Proof.Machine.execTxnStatus h s
  | .txnPrepare sd h c mc => Sys2Proof.Machine.execTxnPrepare sd h c mc s
  | .txnDecide sd h commit => Sys2Proof.Machine.execTxnDecide sd h commit s
  | .txnVoteRx fromDie p body => Sys2Proof.Machine.execTxnVoteRx fromDie p body s
  | .voteDeadline txn => Sys2Proof.Machine.execVoteDeadline txn s
  | .decideDeadline txn => Sys2Proof.Machine.execDecideDeadline txn s
  | .commitInstant sd => Sys2Proof.Machine.execCommitInstant sd s
  | .txnIdleTimeout txn => Sys2Proof.Machine.execTxnIdleTimeout txn s
  | .watchdogExpiry sd => Sys2Proof.Machine.execWatchdogExpiry sd s
  | .lockAcquire h idx waitMs => Sys2Proof.Machine.execLockAcquire h idx waitMs s
  | .lockRelease h idx force => Sys2Proof.Machine.execLockRelease h idx force s
  | .lockQuery h idx => Sys2Proof.Machine.execLockQuery h idx s
  | .lockWaitTimeout idx => Sys2Proof.Machine.execLockWaitTimeout idx s
  | .mainsAnn sd h a => Sys2Proof.Machine.execMainsAnn sd h a s
  | .admitSet h c rate burst => Sys2Proof.Machine.execAdmitSet h c rate burst s
  | .admitGet h c => Sys2Proof.Machine.execAdmitGet h c s
  | .halt sd c => Sys2Proof.Machine.execHalt sd c s
  | .nopInstr sd c => Sys2Proof.Machine.execNopInstr sd c s
  | .ldi sd c => Sys2Proof.Machine.execLdi sd c s
  | .ldh sd c => Sys2Proof.Machine.execLdh sd c s
  | .add sd c => Sys2Proof.Machine.execAdd sd c s
  | .sub sd c => Sys2Proof.Machine.execSub sd c s
  | .and sd c => Sys2Proof.Machine.execAnd sd c s
  | .or sd c => Sys2Proof.Machine.execOr sd c s
  | .xor sd c => Sys2Proof.Machine.execXor sd c s
  | .shl sd c => Sys2Proof.Machine.execShl sd c s
  | .shr sd c => Sys2Proof.Machine.execShr sd c s
  | .sra sd c => Sys2Proof.Machine.execSra sd c s
  | .mul sd c => Sys2Proof.Machine.execMul sd c s
  | .addi sd c => Sys2Proof.Machine.execAddi sd c s
  | .slt sd c => Sys2Proof.Machine.execSlt sd c s
  | .sltu sd c => Sys2Proof.Machine.execSltu sd c s
  | .fadd sd c => Sys2Proof.Machine.execFadd sd c s
  | .fsub sd c => Sys2Proof.Machine.execFsub sd c s
  | .fmul sd c => Sys2Proof.Machine.execFmul sd c s
  | .fdiv sd c => Sys2Proof.Machine.execFdiv sd c s
  | .fmin sd c => Sys2Proof.Machine.execFmin sd c s
  | .fmax sd c => Sys2Proof.Machine.execFmax sd c s
  | .fcvt sd c => Sys2Proof.Machine.execFcvt sd c s
  | .ftoi sd c => Sys2Proof.Machine.execFtoi sd c s
  | .beq sd c => Sys2Proof.Machine.execBeq sd c s
  | .bne sd c => Sys2Proof.Machine.execBne sd c s
  | .blt sd c => Sys2Proof.Machine.execBlt sd c s
  | .jmp sd c => Sys2Proof.Machine.execJmp sd c s
  | .ld sd c => Sys2Proof.Machine.execLd sd c s
  | .st sd c => Sys2Proof.Machine.execSt sd c s
  | .srd sd c => Sys2Proof.Machine.execSrd sd c s
  | .swr sd c => Sys2Proof.Machine.execSwr sd c s
  | .slotWaitTimeout sd c => Sys2Proof.Machine.execSlotWaitTimeout sd c s
  | .waits sd c => Sys2Proof.Machine.execWaits sd c s
  | .waitsRelease sd c => Sys2Proof.Machine.execWaitsRelease sd c s
  | .waitt sd c => Sys2Proof.Machine.execWaitt sd c s
  | .waittRelease sd c => Sys2Proof.Machine.execWaittRelease sd c s
  | .rdc c => Sys2Proof.Machine.execRdc c s
  | .rdt c => Sys2Proof.Machine.execRdt c s
  | .rdw sd c => Sys2Proof.Machine.execRdw sd c s
  | .sys sd c => Sys2Proof.Machine.execSys sd c s
  | .crc c => Sys2Proof.Machine.execCrc c s
  | .putv sd c => Sys2Proof.Machine.execPutv sd c s
  | .emit sd c => Sys2Proof.Machine.execEmit sd c s
  | .budgetRefill sd c => Sys2Proof.Machine.execBudgetRefill sd c s
  | .stitchPut h off bs => Sys2Proof.Machine.execStitchPut h off bs s
  | .stitchLoad h c isLam start off => Sys2Proof.Machine.execStitchLoad h c isLam start off s
  | .stitchStart h c isLam => Sys2Proof.Machine.execStitchStart h c isLam s
  | .stitchStop h c isLam => Sys2Proof.Machine.execStitchStop h c isLam s
  | .slotWrite h n isLam v => Sys2Proof.Machine.execSlotWrite h n isLam v s
  | .slotRead h n isLam => Sys2Proof.Machine.execSlotRead h n isLam s
  | .stitchQuery h c isLam => Sys2Proof.Machine.execStitchQuery h c isLam s
  | .stcCtlStop sd iss mask => Sys2Proof.Machine.execStcCtlStop sd iss mask s
  | .stcCtlEnableWrite iss v => Sys2Proof.Machine.execStcCtlEnableWrite iss v s
  | .slotDataLoRead sd iss n => Sys2Proof.Machine.execSlotDataLoRead sd iss n s
  | .slotDataHiWrite sd iss n data => Sys2Proof.Machine.execSlotDataHiWrite sd iss n data s
  | .compressDescriptor r n => Sys2Proof.Machine.execCompressDescriptor r n s
  | .decompressDescriptor r n => Sys2Proof.Machine.execDecompressDescriptor r n s
  | .cmpCtlEnableWrite iss v => Sys2Proof.Machine.execCmpCtlEnableWrite iss v s
  | .recCtlEnableWrite iss v => Sys2Proof.Machine.execRecCtlEnableWrite iss v s
  | .recCtlFlush iss => Sys2Proof.Machine.execRecCtlFlush iss s
  | .recRead h off n => Sys2Proof.Machine.execRecRead h off n s
  | .recFreeze h on => Sys2Proof.Machine.execRecFreeze h on s
  | .recFlush h => Sys2Proof.Machine.execRecFlush h s
  | .recClear h => Sys2Proof.Machine.execRecClear h s
  | .recNote h flush text => Sys2Proof.Machine.execRecNote h flush text s
  | .porNRise role standby prov bootAlt => Sys2Proof.Machine.execPorNRise role standby prov bootAlt s
  | .pdCtlWrite iss v => Sys2Proof.Machine.execPdCtlWrite iss v s
  | .pfwAssert b => Sys2Proof.Machine.execPfwAssert b s
  | .ddrCtlEnable iss v => Sys2Proof.Machine.execDdrCtlEnable iss v s
  | .ddrRead line e => Sys2Proof.Machine.execDdrRead line e s
  | .lamPosWrite iss row rack tray => Sys2Proof.Machine.execLamPosWrite iss row rack tray s
  | .counterIncrement taps evts n => Sys2Proof.Machine.execCounterIncrement taps evts n s
  | .timeClockTick sd n => Sys2Proof.Machine.execTimeClockTick sd n s
  | .registerRead sd iss addr => Sys2Proof.Machine.execRegisterRead sd iss addr s
  | .pfwDeassert b => Sys2Proof.Machine.execPfwDeassert b s
  | .childPortLoss p signal => Sys2Proof.Machine.execChildPortLoss p signal s
  | .readLatchExpiry path => Sys2Proof.Machine.execReadLatchExpiry path s
  | .traceWriteError p status => Sys2Proof.Machine.execTraceWriteError p status s
  | .trainTimeout sd q => Sys2Proof.Machine.execTrainTimeout sd q s
  | .negotiateTimeout sd q => Sys2Proof.Machine.execNegotiateTimeout sd q s
  | .alignRx sd q skew paired => Sys2Proof.Machine.execAlignRx sd q skew paired s
  | .timeExchangeVoid sd q => Sys2Proof.Machine.execTimeExchangeVoid sd q s
  | .marginSweep q own peer => Sys2Proof.Machine.execMarginSweep q own peer s
  | .faultInjection testing => Sys2Proof.Machine.execFaultInjection testing s
  | .injectionEnd q => Sys2Proof.Machine.execInjectionEnd q s
  | .pendingExpiry q => Sys2Proof.Machine.execPendingExpiry q s
  | .retestAbandon q => Sys2Proof.Machine.execRetestAbandon q s
  | .strandExpiry c => Sys2Proof.Machine.execStrandExpiry c s
  | .pauseFrameRx p => Sys2Proof.Machine.execPauseFrameRx p s
  | .cmpRingFlush iss r => Sys2Proof.Machine.execCmpRingFlush iss r s
  | .cmpRingAbort iss r => Sys2Proof.Machine.execCmpRingAbort iss r s
  | .unitCommit ok => Sys2Proof.Machine.execUnitCommit ok s
  | .norEraseDone ok => Sys2Proof.Machine.execNorEraseDone ok s
  | .lamBootCmdRun iss => Sys2Proof.Machine.execLamBootCmdRun iss s
  | .thermalTrip temp => Sys2Proof.Machine.execThermalTrip temp s
  | .ddrPartialWrite line off bs e => Sys2Proof.Machine.execDdrPartialWrite line off bs e s
  | .patrolScrub line e intervened last => Sys2Proof.Machine.execPatrolScrub line e intervened last s
  | .bar2Access write off n bs => Sys2Proof.Machine.execBar2Access write off n bs s
  | .keyProgGo iss slot => Sys2Proof.Machine.execKeyProgGo iss slot s
  | .keyRevokeWrite iss v => Sys2Proof.Machine.execKeyRevokeWrite iss v s
  | .writeHoldExpiry path => Sys2Proof.Machine.execWriteHoldExpiry path s
  | .coreWdog core => Sys2Proof.Machine.execCoreWdog core s
  | .ddrTrainingDone mask => Sys2Proof.Machine.execDdrTrainingDone mask s
  | .retiringBankRelease => Sys2Proof.Machine.execRetiringBankRelease s
  | .mainsHoldoverEntry => Sys2Proof.Machine.execMainsHoldoverEntry s
  | .crownTakeover => Sys2Proof.Machine.execCrownTakeover s
  | .ituReset => Sys2Proof.Machine.execItuReset s
  | .pwrStaleTimeout => Sys2Proof.Machine.execPwrStaleTimeout s
  | .rowRequestIssue => Sys2Proof.Machine.execRowRequestIssue s
  | .rowTimeout => Sys2Proof.Machine.execRowTimeout s
  | .qscanTimeout => Sys2Proof.Machine.execQscanTimeout s
  | .canaryTimeout => Sys2Proof.Machine.execCanaryTimeout s
  | .srTimeout => Sys2Proof.Machine.execSrTimeout s
  | .visorRecordEmit => Sys2Proof.Machine.execVisorRecordEmit s
  | .advAllHeldRelease => Sys2Proof.Machine.execAdvAllHeldRelease s
  | .mainsCellResend => Sys2Proof.Machine.execMainsCellResend s
  | .digWindowOpen => Sys2Proof.Machine.execDigWindowOpen s
  | .digWindowClose => Sys2Proof.Machine.execDigWindowClose s
  | .digShardEmit => Sys2Proof.Machine.execDigShardEmit s
  | .slicePowerReady => Sys2Proof.Machine.execSlicePowerReady s
  | .slicePowerTimeout => Sys2Proof.Machine.execSlicePowerTimeout s
  | .fillWaitTimeout => Sys2Proof.Machine.execFillWaitTimeout s
  | .ldgDieReportEmit => Sys2Proof.Machine.execLdgDieReportEmit s
  | .failback => Sys2Proof.Machine.execFailback s
  | .replyRingWrite => Sys2Proof.Machine.execReplyRingWrite s
  | .recorderRecordEntry => Sys2Proof.Machine.execRecorderRecordEntry s
  | .recorderFlushStart => Sys2Proof.Machine.execRecorderFlushStart s
  | .recFreezeTimeout => Sys2Proof.Machine.execRecFreezeTimeout s
  | .domainSwitchDone => Sys2Proof.Machine.execDomainSwitchDone s
  | .pfwDiscrepancyTimeout => Sys2Proof.Machine.execPfwDiscrepancyTimeout s
  | .pfwClear => Sys2Proof.Machine.execPfwClear s
  | .perstN => Sys2Proof.Machine.execPerstN s
  | .porNAssert => Sys2Proof.Machine.execPorNAssert s
  | .failbackAckTimeout => Sys2Proof.Machine.execFailbackAckTimeout s

end Sys2Proof.Machine
end

