-- ==== Sys2Proof/Safety.lean ====
section
/-! DEFINITION. What a well-kept state of the block is, and when an access goes through, in the terms of the statements. -/

namespace Sys2Proof.Machine

/-- The register files and the byte memories of the block are in canonical form, so that equal contents are equal data. -/
def State.canonical (s : State) : Bool :=
  Sparse.wf 0 s.itu.regs && Sparse.wf 0 s.lam.regs && Memory.wf ddrDefault s.lam.ddr && Memory.wf norDefault s.lam.brd.nor &&
    Memory.wf norDefault s.lam.brd.sram

/-- An access passes the test that every register access passes first (R4, R83, R92, R148, R452): it leaves no trace of its own. -/
def Allowed (s : State) (sd : Side) (iss : Issuer) (a : Nat) (write : Bool) (fauth : Nat) : Prop :=
  s.guard sd iss a write fauth = (s, true)

/-- An access does not pass it: t is the state with the test's own effects (a privileged counter, an off-access flag). -/
def Refused (s : State) (sd : Side) (iss : Issuer) (a : Nat) (write : Bool) (fauth : Nat) (t : State) : Prop :=
  s.guard sd iss a write fauth = (t, false)

/-- The command answers a next state of which P holds. -/
def Completes (c : Instr) (s : State) (P : State → Prop) : Prop := ∃ t, exec c s = .next t ∧ P t

/-- Stitch context c stands before instruction word w of opcode op and may issue it (R404, R406, R409). -/
def State.Issues (s : State) (sd : Side) (c op w : Nat) : Prop :=
  s.stcReady sd c = true ∧ s.stcWord sd c = w ∧ stcWordOk sd w = true ∧ iOp w = op

/-- The state in which an issued instruction has its effect: it is counted and PC names the next word (R409). -/
def State.issued (s : State) (sd : Side) (c : Nat) : State :=
  ((s.setCtx sd c { s.ctx sd c with spent := (s.ctx sd c).spent + 1 }).ix sd I.STC_CNT_INSTR L.STC_CNT_INSTR c).setPc sd c
    ((s.ctx sd c).pc + 1)

/-- t is s but for what the making of records at the Lamulo changes: buckets, SEQ, the items waiting for egress, copies waiting for the
recorder, and the counter of refused records (R194, R200, R202, R431). -/
def LamSent (s t : State) : Prop :=
  t = { s with lam := { s.lam with regs := t.lam.regs, bkt := t.lam.bkt, seq := t.lam.seq, egress := t.lam.egress,
                                   rcd := { s.lam.rcd with inbox := t.lam.rcd.inbox } } } ∧
  ∀ k, k ≠ L.STAT_CNT_ADMIT_REFUSED.key 0 0 → Sparse.get 0 t.lam.regs k = Sparse.get 0 s.lam.regs k

/-- t is s but for what the making of records at the ITU changes: its send queues, SEQ and buckets, records held for a fenced
partition 0, and the counter of records refused for want of room (R41, R183, R200, R474). -/
def ItuSent (s t : State) : Prop :=
  t = { s with itu := { s.itu with regs := t.itu.regs, txq := t.itu.txq } } ∧
  ∀ k, k ≠ I.ILNK_CNT_Q_REFUSED.key 0 0 → Sparse.get 0 t.itu.regs k = Sparse.get 0 s.itu.regs k

/-- The rows that act on the ITU alone: they have no effect on the Lamulo. -/
def ituRow : Sys2Proof.Instr → Bool
  | .pdSwAck .. | .pdSwAckTimeout .. | .pwrMeasPulse .. | .ituClkMeasure .. | .barrierEvent .. | .barEntryTimeout ..
  | .memResponse .. | .memTimeout .. | .rowResponse .. | .qscanDescriptor .. | .canaryOutputBeat .. | .srAck ..
  | .quiesceAck .. | .quiesceTimeout .. | .counterSelectWrite .. | .smpCtlClear .. | .smpCtlRunWrite ..
  | .recordHandover .. | .smpRdLoRead .. | .visCtlTrig .. | .visorSnap .. | .visCtlRelease .. | .visRdData0Read ..
  | .rowCtlTrig .. | .rowSample .. | .tracePacketCapture .. | .traceChunkWrite .. | .trcPctlFlush .. | .trcPctlEnWrite ..
  | .trcMarkWrite .. | .partCtlReset .. | .partReset .. | .resetTriggerRelease .. | .captureEnd .. | .captureTimeout ..
  | .digStepWrite .. | .digUnstableWrite .. | .digCtlAbort .. | .gntStage .. | .gntRun .. | .slicePatternEnd ..
  | .sliceOvertime .. | .gntCtlAbort .. | .ldgGrantRx .. | .ldgCtlFreeze .. | .admitSet .. | .admitGet ..
  | .counterIncrement .. | .readLatchExpiry .. | .traceWriteError .. | .writeHoldExpiry .. | .ituReset ..
  | .pwrStaleTimeout .. | .rowRequestIssue .. | .rowTimeout .. | .qscanTimeout .. | .canaryTimeout .. | .srTimeout ..
  | .visorRecordEmit .. | .digWindowOpen .. | .digWindowClose .. | .digShardEmit .. | .slicePowerReady ..
  | .slicePowerTimeout .. | .ldgDieReportEmit .. => true
  | _ => false

/-- The rows that act on the Lamulo alone. -/
def lamRow : Sys2Proof.Instr → Bool
  | .ptpSyncTx .. | .ptpDelayReqTx .. | .portSettleEnd .. | .virtualHeadArrival .. | .trkSnapCmdWrite .. | .trkAssign ..
  | .prevGenRelease .. | .rejoinStep .. | .rejoinGrant .. | .partialArrival .. | .statCellClose .. | .barPartialArrival ..
  | .barrierCellClose .. | .barRef .. | .qref .. | .stragVerdictRepeat .. | .forestPassStart .. | .forestSegmentEnd ..
  | .forestPassEnd .. | .vectorAgeOut .. | .forestFault .. | .fstResumeWrite .. | .fstCtlQuartersWrite .. | .forestLoad ..
  | .forestLoadDone .. | .forestBankRelease .. | .digPartialArrival .. | .digestCellClose .. | .digestCompare ..
  | .gauntletLoad .. | .gntPush .. | .packageCheckDone .. | .gntSuspect .. | .suspectSet .. | .suspectClear ..
  | .ldgReportRx .. | .ldgFillRx .. | .ldgSumRx .. | .ethLinkFrameRx .. | .ethFrameTx .. | .ethLinkFrameTx ..
  | .gateEntryChange .. | .parentLos .. | .livenessTimeout .. | .parentSet .. | .parentChangeRx .. | .cmdMergeTimeout ..
  | .txnBegin .. | .txnStatus .. | .lockAcquire .. | .lockRelease .. | .lockQuery .. | .lockWaitTimeout .. | .stitchPut ..
  | .compressDescriptor .. | .decompressDescriptor .. | .cmpCtlEnableWrite .. | .recCtlEnableWrite .. | .recCtlFlush ..
  | .recRead .. | .recFreeze .. | .recFlush .. | .recClear .. | .recNote .. | .porNRise .. | .pdCtlWrite .. | .pfwAssert ..
  | .ddrCtlEnable .. | .ddrRead .. | .lamPosWrite .. | .pfwDeassert .. | .childPortLoss .. | .readLatchExpiry ..
  | .pendingExpiry .. | .retestAbandon .. | .strandExpiry .. | .pauseFrameRx .. | .cmpRingFlush .. | .cmpRingAbort ..
  | .unitCommit .. | .norEraseDone .. | .lamBootCmdRun .. | .thermalTrip .. | .ddrPartialWrite .. | .patrolScrub ..
  | .bar2Access .. | .keyProgGo .. | .keyRevokeWrite .. | .writeHoldExpiry .. | .coreWdog .. | .ddrTrainingDone ..
  | .fillWaitTimeout .. | .failback .. | .recorderRecordEntry .. | .recorderFlushStart .. | .recFreezeTimeout ..
  | .domainSwitchDone .. | .pfwDiscrepancyTimeout .. | .pfwClear .. | .perstN .. | .porNAssert .. | .failbackAckTimeout .. => true
  | _ => false

/-- The rows that may store to DDR memory. -/
def ddrRow : Sys2Proof.Instr → Bool
  | .registerWrite .. | .virtualHeadArrival .. | .trkAssign .. | .genNotice .. | .epochSync .. | .recordArrivalIkl ..
  | .recordArrivalUplink .. | .forestPassEnd .. | .digestCompare .. | .gntPush .. | .packageCheckDone .. | .suspectSet ..
  | .suspectClear .. | .ethFrameRx .. | .commandPacketRx .. | .cmdReplyRx .. | .cmdqTailWrite .. | .regWrite ..
  | .txnCommit .. | .txnAbort .. | .txnPrepare .. | .txnDecide .. | .txnVoteRx .. | .voteDeadline .. | .decideDeadline ..
  | .commitInstant .. | .txnIdleTimeout .. | .watchdogExpiry .. | .stitchPut .. | .compressDescriptor ..
  | .decompressDescriptor .. | .cmpCtlEnableWrite .. | .cmpRingFlush .. | .cmpRingAbort .. | .thermalTrip ..
  | .ddrPartialWrite .. | .bar2Access .. | .retiringBankRelease .. | .crownTakeover .. | .replyRingWrite ..
  | .domainSwitchDone .. | .porNAssert .. => true
  | _ => false

/-- The rows that may program or erase the NOR flash. -/
def norRow : Sys2Proof.Instr → Bool
  | .registerWrite .. | .genNotice .. | .epochSync .. | .recordArrivalIkl .. | .recordArrivalUplink .. | .ethFrameRx ..
  | .commandPacketRx .. | .cmdReplyRx .. | .cmdqTailWrite .. | .regWrite .. | .txnCommit .. | .txnAbort .. | .txnPrepare ..
  | .txnDecide .. | .txnVoteRx .. | .voteDeadline .. | .decideDeadline .. | .commitInstant .. | .txnIdleTimeout ..
  | .watchdogExpiry .. | .recCtlEnableWrite .. | .recCtlFlush .. | .recFreeze .. | .recFlush .. | .recClear ..
  | .recNote .. | .pfwAssert .. | .unitCommit .. | .norEraseDone .. | .coreWdog .. | .retiringBankRelease ..
  | .crownTakeover .. | .replyRingWrite .. | .recorderFlushStart .. | .recFreezeTimeout .. | .pfwDiscrepancyTimeout ..
  | .pfwClear .. => true
  | _ => false

end Sys2Proof.Machine
end

