-- ==== Sys2Proof/Certificates/Slice0/Obligations.lean ====
section
/-! DEFINITION. The statements for the provers. Where a clause ranges over states, it ranges over every state, reached by a
run or not, unless a premise says otherwise. -/

section Statements
open Sys2Proof Sys2Proof.Machine

/-- A step takes the command at the front of the queue and is exec of it with the queue's rest; on an empty queue the
block idles (the model's choice, log entry 57). -/
def Obligations.StepRunsTheFrontCommand : Prop :=
  (∀ c q (s : State), step { s with pending := c :: q } = exec c { s with pending := q }) ∧
  (∀ s : State, s.pending = [] → step s = .next s)

/-- Clauses of R10, R81, R201, R401, R472, R473: what reset leaves. Every field of both register files reads its map's
reset value; memory lists nothing and the queue is empty. -/
def Obligations.ResetHoldsTheMapValues : Prop :=
  (∀ F i j, State.reset.ri F i j = F.rst i ∧ State.reset.rl F i j = F.rst i) ∧
  State.reset.pending = [] ∧ State.reset.lam.ddr = [] ∧ State.reset.lam.brd.nor = [] ∧ State.reset.canonical = true ∧
  (State.reset.ipdOn 0 = true ∧ ∀ n, 1 ≤ n → n ≤ 4 → State.reset.ipdOn n = false) ∧
  State.reset.rl L.TXN_WDOG_MS = 100 ∧ State.reset.rl L.PFW_CFG_DISC_US = 200 ∧ State.reset.rl L.DDR_CFG_SCRUB_H = 24 ∧
  State.reset.itu.txq.bkt.map (fun b => (b.rate, b.burst)) = [(4000, 65536), (160000, 262144), (1000000, 524288)] ∧
  State.reset.lam.bkt.map (fun b => (b.rate, b.burst)) = [(16000, 1048576), (1000000, 8388608), (2000000, 8388608)] ∧
  (∀ c, c < 4 → State.reset.ctxState .itu c = 0) ∧ (∀ q, q < 16 → (State.reset.ctx .itu q).latch = none)

/-- The opcode table gives its rows no bits: no word spells a command, and the state takes none from a word. -/
def Obligations.NoWordSpellsACommand : Prop :=
  (∀ n w, Sys2Proof.decodeTableWord n w = none) ∧ (∀ (s : State) n w, s.withFetchWord n w = s)

/-- R4: an access outside the authority of its issuer has no effect but on the privileged sticky counters; a read
returns zero. -/
def Obligations.AccessOutsideAuthorityHasNoEffect : Prop :=
  (∀ iss w f a (s : State), authLvl iss.auth < (if w then (if f = 0 then (ituBlock a).2.1 else f) else (ituBlock a).1) ∨
      (iss.auth = .partition ∧ ∃ p, ituOwnPart a = some p ∧ iss.part ≠ p) →
    Refused s .itu iss a w f (s.ituPriv iss a w)) ∧
  (∀ iss w f a (s : State), authLvl iss.auth < (if w = false ∧ 0x1200C0 ≤ a ∧ a ≤ 0x1200C8 then 3 else if w = true ∧ f ≠ 0 then f else 2) →
    Refused s .lam iss a w f (s.lamPriv iss.auth a w)) ∧
  (∀ iss a w (s : State), ∃ r, s.ituPriv iss a w = { s with itu := { s.itu with regs := r } } ∧
    ∀ k, k ∉ [I.PRIV_CNT_PART, I.PRIV_CNT_TRAY, I.PRIV_CNT_FLEET, I.PRIV_LAST_ADDR, I.PRIV_LAST_PART, I.PRIV_LAST_LEVEL,
      I.PRIV_LAST_WRITE].map (fun F => F.key 0 0) → Sparse.get 0 r k = Sparse.get 0 s.itu.regs k) ∧
  (∀ au a w (s : State), ∃ r, s.lamPriv au a w = { s with lam := { s.lam with regs := r } } ∧
    ∀ k, k ∉ [L.PRIV_CNT_TRAY, L.PRIV_CNT_FLEET, L.PRIV_LAST_ADDR, L.PRIV_LAST_LEVEL, L.PRIV_LAST_WRITE].map (fun F => F.key 0 0) →
      Sparse.get 0 r k = Sparse.get 0 s.lam.regs k) ∧
  (∀ sd iss a (s t : State), Refused s sd iss (a / 4 * 4) false 0 t → exec (.registerRead sd iss a) s = .next { t with rdata := [0] }) ∧
  (∀ iss v (s t : State), Refused s .lam iss L.CMDQ_TAIL.addr true (s.wordAuth .lam L.CMDQ_TAIL.addr) t →
    exec (.cmdqTailWrite iss v) s = .next t) ∧
  (∀ iss (s t : State), Refused s .itu iss I.SMP_RD_LO.addr false 0 t → exec (.smpRdLoRead iss) s = .next { t with rdata := [0] }) ∧
  (∀ iss (s t : State), Refused s .itu iss I.VIS_RD_DATA0.addr false 0 t →
    exec (.visRdData0Read iss) s = .next { t with rdata := [0] }) ∧
  (∀ sd iss n (s t : State), Refused s sd iss (slotAddr sd n) false 0 t →
    exec (.slotDataLoRead sd iss n) s = .next { t with rdata := [0] }) ∧
  (∀ sd iss a d b (s t : State), (sd = .itu → digOwn (a / 4 * 4) = false) →
    Refused s sd iss (a / 4 * 4) true (s.wordAuth sd (a / 4 * 4)) t → exec (.registerWrite sd iss a d b) s = .next t) ∧
  (∀ iss (s : State), iss.auth = .partition → iss.part ≠ s.ri I.DIG_CFG_PART → s.ri I.PART_STAT_CUFF iss.part = 0 →
    (∀ v, exec (.digStepWrite iss v) s = .next (s.ituPriv iss I.DIG_STEP.addr true)) ∧
    exec (.digUnstableWrite iss) s = .next (s.ituPriv iss I.DIG_UNSTABLE.addr true)) ∧
  (∀ iss v b w p (s t : State) c a f, (c, a, f) ∈ ([
      (.ituPdCtlWrite iss v, I.ITU_PD_CTL_ON.addr, 2), (.ituFnEnWrite iss v, I.ITU_FN_EN_COUNTERS.addr, 2),
      (.smpCtlClear iss, I.SMP_CTL_CLEAR.addr, 0), (.smpCtlRunWrite iss b, I.SMP_CTL_RUN.addr, 0),
      (.counterSelectWrite iss (p % 4096) v, 0x1000 + 4 * (p % 4096), 0),
      (.visCtlTrig iss v, I.VIS_CTL_TRIG.addr, 0), (.visCtlRelease iss, I.VIS_CTL_RELEASE.addr, 0),
      (.rowCtlTrig iss v, I.ROW_CTL_TRIG.addr, 0), (.partCtlReset iss v, I.PART_CTL_RESET.addr, 0),
      (.trcPctlFlush iss p, I.TRC_PCTL_FLUSH.addr + 0x20 * p, 0), (.trcPctlEnWrite iss p b, I.TRC_PCTL_EN.addr + 0x20 * p, 0),
      (.trcMarkWrite iss p v, I.TRC_MARK.addr + 0x20 * p, 1),
      (.partCtlAdvAll iss, I.PART_CTL_ADV_ALL.addr, 0), (.ilnkCtlRetrain iss, I.ILNK_CTL_RETRAIN.addr, 0),
      (.digCtlAbort iss, I.DIG_CTL_ABORT.addr, 0),
      (.gntCtlAbort iss w, I.GNT_CTL_ABORT.addr, 0), (.ldgCtlFreeze iss b, I.LDG_CTL_FREEZE.addr, 0),
      (.timeCtlEnableWrite .itu iss b, I.ITIME_CTL_ENABLE.addr, 0), (.timeCtlRearm .itu iss, I.ITIME_CTL_REARM.addr, 3),
      (.timeIncrHiWrite .itu iss v, I.ITIME_INCR_HI.addr, 0), (.stcCtlStop .itu iss v, I.STC_CTL_STOP.addr, 0),
      (.slotDataHiWrite .itu iss p v, slotAddr .itu p + 4, 0), (.crcSelWrite .itu iss p v, crcAddr .itu I.CRC_SEL L.CRC_SEL p, 0),
      (.crcDataWrite .itu iss p v v, crcAddr .itu I.CRC_DATA L.CRC_DATA p, 0)] : List (Instr × Nat × Nat)) →
    Refused s .itu iss a true f t → exec c s = .next t) ∧
  (∀ iss v b p x y (s t : State) c a f, (c, a, f) ∈ ([
      (.timeCtlEnableWrite .lam iss b, L.TIME_CTL_ENABLE.addr, 0), (.timeCtlRearm .lam iss, L.TIME_CTL_REARM.addr, 3),
      (.timeIncrHiWrite .lam iss v, L.TIME_INCR_HI.addr, 0), (.mainsCtlEnableWrite iss b, L.MAINS_CTL_ENABLE.addr, 3),
      (.trkSnapCmdWrite iss v, L.TRK_SNAP_CMD.addr, 0), (.lnkCtlRetrain iss p, L.LNK_CTL_RETRAIN.addr + 0x1000 * p, 0),
      (.lnkCtlEnableWrite iss p b, L.LNK_CTL_ENABLE.addr + 0x1000 * p, 0), (.fstResumeWrite iss v, L.FST_RESUME_SLOT.addr, 3),
      (.fstCtlQuartersWrite iss v, L.FST_CTL_QUARTERS.addr, 3), (.stcCtlStop .lam iss v, L.STC_CTL_STOP.addr, 0),
      (.stcCtlEnableWrite iss b, L.STC_CTL_ENABLE.addr, 3), (.slotDataHiWrite .lam iss p v, slotAddr .lam p + 4, 0),
      (.crcSelWrite .lam iss p v, crcAddr .lam I.CRC_SEL L.CRC_SEL p, 0),
      (.crcDataWrite .lam iss p v v, crcAddr .lam I.CRC_DATA L.CRC_DATA p, 0),
      (.cmpCtlEnableWrite iss b, L.CMP_CTL_ENABLE.addr, 0), (.cmpRingFlush iss p, L.CMP_RING_FLUSH.addr + 0x40 * p, 0),
      (.cmpRingAbort iss p, L.CMP_RING_ABORT.addr + 0x40 * p, 0), (.recCtlEnableWrite iss b, L.REC_CTL_ENABLE.addr, 0),
      (.recCtlFlush iss, L.REC_CTL_FLUSH.addr, 0), (.pdCtlWrite iss v, L.PD_CTL.addr, 0),
      (.ddrCtlEnable iss b, L.DDR_CTL_ENABLE.addr, 0), (.lamPosWrite iss p x y, L.LAM_POS_ROW.addr, 0),
      (.lamBootCmdRun iss, L.LAM_BOOT_CMD_RUN.addr, 0), (.keyProgGo iss p, L.KEY_PROG_GO.addr, 0),
      (.keyRevokeWrite iss v, L.KEY_REVOKE.addr, 3)] : List (Instr × Nat × Nat)) →
    Refused s .lam iss a true f t → exec c s = .next t)

/-- Clauses of R83, R148, R452: what an access with authority meets: the Cuff, a domain that is off, or passage
without a trace. A Lamulo access to a domain that is off reads zero, writes nothing and is counted; a command of such
a domain is refused with DOMAIN_OFF. -/
def Obligations.AccessToADomainThatIsOff : Prop :=
  (∀ iss w f a (s : State), (if w = false ∧ 0x1200C0 ≤ a ∧ a ≤ 0x1200C8 then 3 else if w = true ∧ f ≠ 0 then f else 2) ≤ authLvl iss.auth →
    (s.pdOn (lamDomain a) = false → Refused s .lam iss a w f (s.il L.PD_CNT_OFF_ACCESS)) ∧
    (s.pdOn (lamDomain a) = true → Allowed s .lam iss a w f)) ∧
  (∀ iss a (s : State), 2 ≤ authLvl iss.auth → (0x1200C0 ≤ a / 4 * 4 → a / 4 * 4 ≤ 0x1200C8 → iss.auth = .fleet) →
    s.pdOn (lamDomain (a / 4 * 4)) = false →
    exec (.registerRead .lam iss a) s = .next { s.il L.PD_CNT_OFF_ACCESS with rdata := [0] }) ∧
  (∀ iss a d b (s : State), s.wordAuth .lam (a / 4 * 4) ≤ authLvl iss.auth → 2 ≤ authLvl iss.auth → s.pdOn (lamDomain (a / 4 * 4)) = false →
    exec (.registerWrite .lam iss a d b) s = .next (s.il L.PD_CNT_OFF_ACCESS)) ∧
  (∀ h (s : State), s.pdOn 2 = false →
    (∀ off n, exec (.recRead h off n) s = .next (s.lamReply { h with opcode := 0x50 } { status := St.domainOff })) ∧
    (∀ b, exec (.recFreeze h b) s = .next (s.lamReply { h with opcode := 0x51 } { status := St.domainOff })) ∧
    exec (.recFlush h) s = .next (s.lamReply { h with opcode := 0x52 } { status := St.domainOff }) ∧
    exec (.recClear h) s = .next (s.lamReply { h with opcode := 0x53 } { status := St.domainOff }) ∧
    ∀ b t, exec (.recNote h b t) s = .next (s.lamReply { h with opcode := 0x54 } { status := St.domainOff })) ∧
  (∀ h (s : State), s.role = 0 → s.pdOn 15 = false →
    (∀ w, exec (.barRef h w) s = .next (s.lamReply { h with opcode := 0x28 } { status := St.domainOff })) ∧
    ∀ w, exec (.qref h w) s = .next (s.lamReply { h with opcode := 0x29 } { status := St.domainOff })) ∧
  (∀ h (s : State), s.forestOn = false →
    (∀ i b n, exec (.forestLoad h i b n) s = .next (s.lamReply { h with opcode := 0x30 } { status := St.domainOff })) ∧
    (h.inTxn = true → ∀ i, exec (.forestUnload h i) s = .next (s.lamReply { h with opcode := 0x31 } { status := St.domainOff })) ∧
    (h.inTxn = true → ∀ i, exec (.bankSwap h 0 i) s = .next (s.lamReply { h with opcode := 4 } { status := St.domainOff }))) ∧
  (∀ iss w f a (s : State), (if w then (if f = 0 then (ituBlock a).2.1 else f) else (ituBlock a).1) ≤ authLvl iss.auth →
    ituOwnPart a = none → (iss.path = .host → s.ri I.PART_STAT_CUFF iss.part ≠ 1) →
    (s.ipdOn (ituBlock a).2.2 = false → Refused s .itu iss a w f (s.wi I.ITU_FAULT_PD_OFF_ACCESS 1)) ∧
    (s.ipdOn (ituBlock a).2.2 = true → Allowed s .itu iss a w f)) ∧
  (∀ iss w f a (s : State), (if w then (if f = 0 then (ituBlock a).2.1 else f) else (ituBlock a).1) ≤ authLvl iss.auth →
    ituOwnPart a = none → iss.path = .host → s.ri I.PART_STAT_CUFF iss.part = 1 →
    Refused s .itu iss a w f ((s.ituPriv iss a w).ii I.CUFF_CNT_REG 1 iss.part))

/-- R411: WAITT waits until local time reaches the target, ends at once with LATE or WAIT_TO, and is released by the
clock as it stands. -/
def Obligations.WaitForFleetTime : Prop :=
  (∀ sd c (s : State) w t, s.Issues sd c 0x25 w → t = (s.ctx sd c).reg (iA w) → t < s.now sd →
    exec (.waitt sd c) s = .next (((s.issued sd c).setLast sd c 5).stcGoOn sd c)) ∧
  (∀ sd c (s : State) w t, s.Issues sd c 0x25 w → t = (s.ctx sd c).reg (iA w) → s.now sd + 1000000000 < t →
    exec (.waitt sd c) s = .next (((s.issued sd c).setLast sd c 4).stcGoOn sd c)) ∧
  (∀ sd c (s : State) w t, s.Issues sd c 0x25 w → t = (s.ctx sd c).reg (iA w) → t = s.now sd →
    exec (.waitt sd c) s = .next (((s.issued sd c).setLast sd c 0).stcGoOn sd c)) ∧
  (∀ sd c (s : State) w t, s.Issues sd c 0x25 w → t = (s.ctx sd c).reg (iA w) → s.now sd < t → t ≤ s.now sd + 1000000000 →
    exec (.waitt sd c) s = .next
      (((s.issued sd c).setCtx sd c { (s.issued sd c).ctx sd c with wait := .time t, since := s.now sd }).setCtxState sd c 3)) ∧
  (∀ sd c (s : State) t, (s.ctx sd c).wait = .time t → t ≤ s.now sd →
    exec (.waittRelease sd c) s = .next ((s.setLast sd c 0).stcResume sd c)) ∧
  (∀ sd c (s : State) t, (s.ctx sd c).wait = .time t → s.now sd < t → exec (.waittRelease sd c) s = .next s) ∧
  (∀ sd c k (s : State), ((s.setClk sd k).now sd = k.ns) ∧ (s.setClk sd k).ctx sd c = s.ctx sd c)

/-- R448: the straps are sampled on the rising edge of POR_N, and not again until the next. -/
def Obligations.StrapsAreSampledOnce : Prop :=
  (∀ role sb pv ba (s : State), s.lam.pins.por = false → ∃ t : State, exec (.porNRise role sb pv ba) s = .next t ∧
    t.lam.pins.por = true ∧ t.rl L.LAM_STRAP_ROLE = role % 4 ∧ t.rl L.LAM_STRAP_PROV = (if pv then 1 else 0) ∧
    t.rl L.LAM_STRAP_BOOT_ALT = (if ba then 1 else 0) ∧
    t.rl L.LAM_STRAP_STANDBY = (if sb = true ∧ role % 4 = 3 then 1 else 0)) ∧
  (∀ role sb pv ba (s : State), s.lam.pins.por = true → exec (.porNRise role sb pv ba) s = .next s) ∧
  (∀ (s : State), ∃ t : State, exec .porNAssert s = .next t ∧ t.lam.pins.por = false) ∧
  (∀ c (s t : State), (∀ role sb pv ba, c ≠ .porNRise role sb pv ba) → c ≠ .porNAssert → exec c s = .next t →
    t.lam.pins.por = s.lam.pins.por)

/-- Clauses of R382, R401, R402: a reply leaves its node, or is silent, and a refusal is counted. -/
def Obligations.RepliesLeaveTheirNode : Prop :=
  (∀ h r (s : State), r.status = St.ok → h.noReply = true → s.ituReply h r = s) ∧
  (∀ h r (s : State), r.status = St.ok → h.noReply = true → s.mergeOf h.origin h.issuer h.cmdId = none → s.lamReply h r = s) ∧
  (∀ h r (s : State), h.noReply = false → s.mergeOf h.origin h.issuer h.cmdId = none → stOk r.status = true → h.origin = s.nodeNo →
    h.issuer = 0 → h.auth = 1 ∨ s.isCrown = false → s.lamReply h r = { s with lam := { s.lam with replies := s.lam.replies ++
      [replyBody h r false 1 0 0 false (s.rl L.CFG_EPOCH)] } }) ∧
  (∀ h r (s : State), 0x10 ≤ r.status → r.status ≠ St.staleEpoch →
    (s.ituReply h r).ri I.ICMD_CNT_REFUSED = satN 32 (s.ri I.ICMD_CNT_REFUSED + 1)) ∧
  (∀ h r (s : State), 0x10 ≤ r.status → s.mergeOf h.origin h.issuer h.cmdId = none →
    (s.lamReply h r).rl L.CMD_CNT_REFUSED = satN 32 (s.rl L.CMD_CNT_REFUSED + 1)) ∧
  (∀ h r (s : State), r.status = St.ok → ItuSent s (s.ituReply h r)) ∧
  (∀ h r (s : State), (s.ituReply h r).lam = s.lam ∧ (s.lamReply h r).itu = s.itu) ∧
  (∀ (s : State) body rest, s.lam.replies = body :: rest → s.replyRoom ≠ 0 → s.ddrOk = true → ∃ u : State,
    exec .replyRingWrite s = .next (State.serve u) ∧ u.lam.replies = rest ∧ u.lam.seq = (s.lam.seq + 1) % 2 ^ 32 ∧ u.itu = s.itu) ∧
  (∀ (s : State), s.lam.replies = [] ∨ s.replyRoom = 0 ∨ s.ddrOk = false → exec .replyRingWrite s = .next s)

/-- The rows of the ITU leave the Lamulo, its memories and the queue as they were. -/
def Obligations.ItuRowsLeaveTheLamulo : Prop :=
  ∀ c (s t : State), ituRow c = true → exec c s = .next t → t.lam = s.lam ∧ t.pending = s.pending

/-- The rows of the Lamulo leave the ITU and the queue as they were. -/
def Obligations.LamuloRowsLeaveTheItu : Prop :=
  ∀ c (s t : State), lamRow c = true → exec c s = .next t → t.itu = s.itu ∧ t.pending = s.pending

/-- Every byte of DDR memory is left by the rows that store nothing there, every byte of the NOR flash by those that
program nothing. -/
def Obligations.MemoryIsLeftByRowsThatStoreNothing : Prop :=
  (∀ c (s t : State), ddrRow c = false → exec c s = .next t → ∀ a, Memory.byte ddrDefault t.lam.ddr a = Memory.byte ddrDefault s.lam.ddr a) ∧
  (∀ c (s t : State), norRow c = false → exec c s = .next t →
    ∀ a, Memory.byte norDefault t.lam.brd.nor a = Memory.byte norDefault s.lam.brd.nor a)

/-- A step takes one command from the front of the queue and leaves the rest: no command adds, drops or reorders
commands. -/
def Obligations.StepTakesOneCommand : Prop :=
  ∀ s t : State, step s = .next t → t.pending = s.pending.tail

/-- An invariant of every step from every state: register files and byte memories stay in canonical form, so that
equal contents are equal data. -/
def Obligations.EveryStepKeepsTheCanonicalForm : Prop :=
  ∀ s t : State, s.canonical = true → step s = .next t → t.canonical = true

/-- Clauses of R457: key slots are one-time programmable: a key that a slot holds stays in it through every step,
power-on reset included. -/
def Obligations.ProgrammedKeysStay : Prop :=
  ∀ (s t : State) k d, s.key k = some d → step s = .next t → t.key k = some d

/-- Clauses of R44, R45: a tick adds TIME_INCR to the clock's 96-bit value; a written increment word pair is taken
while the servo is off and the value lies within 200 ppm of the nominal increment, else the increment stays. -/
def Obligations.LocalClockTicksAndIncrement : Prop :=
  (∀ sd n s, Completes (.timeClockTick sd n) s fun t =>
    (t.clk sd).ns * 2 ^ 32 + (t.clk sd).frac = ((s.clk sd).ns * 2 ^ 32 + (s.clk sd).frac + n * (s.clk sd).incr) % 2 ^ 96 ∧
    (t.clk sd).incr = (s.clk sd).incr ∧ (t.clk sd).ticks = (s.clk sd).ticks + n ∧
    (sd = .itu → t.lam = s.lam ∧ t.itu.regs = s.itu.regs) ∧ (sd = .lam → t.itu = s.itu ∧ t.lam.ddr = s.lam.ddr)) ∧
  (∀ sd iss data s lo, Allowed s sd iss (incrHiAddr sd) true 0 → s.servoOn sd = false →
    lo = (s.heldLow iss.path (incrHiAddr sd - 4)).getD ((s.clk sd).incr % 2 ^ 32) →
    exec (.timeIncrHiWrite sd iss data) s = .next (State.dropHold
      (if 0xFFF2E48F ≤ data % 2 ^ 32 * 2 ^ 32 + lo % 2 ^ 32 ∧ data % 2 ^ 32 * 2 ^ 32 + lo % 2 ^ 32 ≤ 0x1000D1B71
       then s.setClk sd { s.clk sd with incr := data % 2 ^ 32 * 2 ^ 32 + lo % 2 ^ 32 } else s) iss.path (incrHiAddr sd - 4))) ∧
  (∀ sd iss data s, Allowed s sd iss (incrHiAddr sd) true 0 → s.servoOn sd = true →
    exec (.timeIncrHiWrite sd iss data) s = .next (s.dropHold iss.path (incrHiAddr sd - 4)))

/-- Clauses of R48, R51: enabling the servo of a clock with a source enters ACQUIRE, disabling it FREE; REARM clears
STEP_USED; losing the source leads to HOLDOVER at nominal plus the integral term after the step and to FREE before it;
1,000 ms of HOLDOVER set DEGRADED. -/
def Obligations.ServoStatesFollowTheRules : Prop :=
  (∀ iss s, Allowed s .lam iss L.TIME_CTL_ENABLE.addr true 0 → s.servoOn .lam = false → s.lam.clk.source = true →
    exec (.timeCtlEnableWrite .lam iss true) s = .next ((s.wl L.TIME_CTL_ENABLE 1).wl L.TIME_STAT_STATE 1)) ∧
  (∀ iss s, Allowed s .lam iss L.TIME_CTL_ENABLE.addr true 0 → s.servoOn .lam = true →
    exec (.timeCtlEnableWrite .lam iss false) s = .next
      (((s.wl L.TIME_CTL_ENABLE 0).setClk .lam { s.lam.clk with holdFrom := none }).wl L.TIME_STAT_STATE 0)) ∧
  (∀ iss s, Allowed s .itu iss I.ITIME_CTL_ENABLE.addr true 0 → s.servoOn .itu = false → s.itu.clk.source = true →
    exec (.timeCtlEnableWrite .itu iss true) s = .next (((s.wi I.ITIME_CTL_ENABLE 1).wi I.ITIME_STAT_STATE 1).after .itu)) ∧
  (∀ iss s, Allowed s .itu iss I.ITIME_CTL_ENABLE.addr true 0 → s.servoOn .itu = true →
    exec (.timeCtlEnableWrite .itu iss false) s = .next
      ((((s.wi I.ITIME_CTL_ENABLE 0).setClk .itu { s.itu.clk with holdFrom := none }).wi I.ITIME_STAT_STATE 0).after .itu)) ∧
  (∀ iss s, Allowed s .lam iss L.TIME_CTL_REARM.addr true 3 → s.servoOn .lam = true →
    Completes (.timeCtlRearm .lam iss) s fun t => t.rl L.TIME_STAT_STEP_USED = 0 ∧ t.rl L.TIME_STAT_STATE = 1 ∧
      t.lam.clk = { s.lam.clk with holdFrom := none } ∧ t.itu = s.itu) ∧
  (∀ iss s, Allowed s .itu iss I.ITIME_CTL_REARM.addr true 3 → s.servoOn .itu = false →
    exec (.timeCtlRearm .itu iss) s = .next ((s.wi I.ITIME_STAT_STEP_USED 0).after .itu)) ∧
  (∀ s, s.lam.clk.source = true → s.rl L.TIME_STAT_STATE = 2 → s.rl L.TIME_STAT_STEP_USED = 1 →
    Completes (.sourceLost .lam) s fun t => t.rl L.TIME_STAT_STATE = 3 ∧ t.rl L.TIME_STAT_SOURCE = 0xF ∧
      t.lam.clk = { s.lam.clk with source := false, incr := ofS 64 (incrNominal + s.lam.clk.integral), holdFrom := some s.lam.clk.ns } ∧
      t.itu = s.itu) ∧
  (∀ s, s.lam.clk.source = true → s.rl L.TIME_STAT_STATE = 1 → s.rl L.TIME_STAT_STEP_USED = 0 →
    exec (.sourceLost .lam) s = .next (((s.setClk .lam { s.lam.clk with source := false }).wl L.TIME_STAT_SOURCE 0xF).wl L.TIME_STAT_STATE 0)) ∧
  (∀ sd s, (s.clk sd).source = false → exec (.sourceLost sd) s = .next (s.after sd)) ∧
  (∀ s t0, s.lam.clk.holdFrom = some t0 → s.rl L.TIME_STAT_STATE = 3 → s.rl L.TIME_STAT_DEGRADED = 0 →
    1000000000 ≤ s.lam.clk.ns - t0 → Completes (.holdoverDegraded .lam) s fun t =>
      t.rl L.TIME_STAT_DEGRADED = 1 ∧ t.rl L.TIME_STAT_STATE = 3 ∧ t.lam.clk = s.lam.clk ∧ t.itu = s.itu) ∧
  (∀ sd s, s.clkState sd ≠ 3 → exec (.holdoverDegraded sd) s = .next s)

/-- Clauses of R53 to R58: what the time function of a port does with a message, and what it sends. -/
def Obligations.PtpPortsSendAndAnswer : Prop :=
  (∀ p m s, p < 24 → s.rl L.TIME_PORT_CFG_MODE p = 1 → (s.ptp p).settled = true → m.domain = s.rl L.TIME_PORT_CFG_DOMAIN p →
    m.kind = .delayReq →
    exec (.ptpMessageRx p m) s = .next (s.setPtp p { s.ptp p with
      out := some { m with kind := .delayResp, t := s.rxStamp p m.rxT m.rxF / 65536, f := s.rxStamp p m.rxT m.rxF % 65536 } })) ∧
  (∀ p m s, p < 24 → s.rl L.TIME_PORT_CFG_MODE p ≠ 0 → (s.ptp p).settled = false → m.kind.event = true →
    exec (.ptpMessageRx p m) s = .next (s.il L.TIME_CNT_SETTLE)) ∧
  (∀ p m s, s.rl L.TIME_PORT_CFG_MODE p = 0 → exec (.ptpMessageRx p m) s = .next s) ∧
  (∀ p m s, p < 24 → s.rl L.TIME_PORT_CFG_MODE p = 2 → (s.ptp p).settled = true → m.domain = s.rl L.TIME_PORT_CFG_DOMAIN p →
    m.kind = .sync true →
    exec (.ptpMessageRx p m) s = .next (s.setPtp p { s.ptp p with
      t1 := none, t2 := some (s.rxStamp p m.rxT m.rxF, 0), syncCorr := some (toS 64 m.corr), tick2 := s.lam.clk.ticks })) ∧
  (∀ p t f s, s.rl L.TIME_PORT_CFG_MODE p = 1 → (s.ptp p).settled = true →
    exec (.ptpSyncTx p t f) s = .next (s.setPtp p { s.ptp p with
      seq := ((s.ptp p).seq + 1) % 65536
      out := some {
        kind := .sync false, domain := s.rl L.TIME_PORT_CFG_DOMAIN p, seq := (s.ptp p).seq, t := s.txStamp p t f / 65536, f := s.txStamp p t f % 65536 } })) ∧
  (∀ p t f s, s.rl L.TIME_PORT_CFG_MODE p ≠ 1 → exec (.ptpSyncTx p t f) s = .next s) ∧
  (∀ p t f s, s.rl L.TIME_PORT_CFG_MODE p = 2 → (s.ptp p).settled = true →
    exec (.ptpDelayReqTx p t f) s = .next (s.setPtp p { s.ptp p with
      seq := ((s.ptp p).seq + 1) % 65536
      t3 := some (s.txStamp p t f, 0)
      out := some {
        kind := if s.rl L.TIME_PORT_CFG_PDELAY p = 1 then .pdelayReq else .delayReq, domain := s.rl L.TIME_PORT_CFG_DOMAIN p, seq := (s.ptp p).seq } })) ∧
  (∀ p t f s, s.rl L.TIME_PORT_CFG_MODE p = 1 → exec (.ptpDelayReqTx p t f) s = .next s) ∧
  (∀ p s, p < 24 → Completes (.portSettleEnd p) s fun t => (t.ptp p).settled = true ∧ (∀ q, q ≠ p → t.ptp q = s.ptp q) ∧
    t.itu = s.itu ∧ t.lam.clk = s.lam.clk)

/-- Clauses of R62 to R66, R72: what an edge at MZC does at a Crown that captures, and what three periods without one
do. Clauses of R67, R69, R70, R73, R182: what a part does with an announcement, with its absence, and with its chain
when the enable changes. -/
def Obligations.MainsCaptureAndAnnouncements : Prop :=
  (∀ e s, s.role = 3 → s.rl L.MAINS_CTL_CAPTURE = 1 → edgeKind s.lam.mzc.last s.period e = .glitch →
    exec (.mzcEdge e) s = .next (s.il L.MAINS_CNT_GLITCH)) ∧
  (∀ e s, s.role = 3 → s.rl L.MAINS_CTL_CAPTURE = 1 → edgeKind s.lam.mzc.last s.period e = .phaseOnly → s.lam.mzc.firstSet = false →
    exec (.mzcEdge e) s = .next ((s.phaseError e).edgePhase e)) ∧
  (∀ e s, s.role = 3 → s.rl L.MAINS_CTL_CAPTURE = 1 → edgeKind s.lam.mzc.last s.period e = .filter → s.lam.mzc.firstSet = false →
    exec (.mzcEdge e) s = .next ((s.phaseError e).edgeFilter e (e - s.lam.mzc.last.getD 0))) ∧
  (∀ e s, s.role ≠ 3 ∨ s.rl L.MAINS_CTL_CAPTURE ≠ 1 → exec (.mzcEdge e) s = .next s) ∧
  (∀ e (s : State), (s.edgePhase e).lam.mzc.last = some e ∧ (s.edgePhase e).lam.mzc.run = 0 ∧
    (s.rl L.MAINS_STAT_STATE = 0 → (s.edgePhase e).rl L.MAINS_STAT_STATE = 1)) ∧
  (∀ l p e, p ≠ 0 → edgeKind (some l) p e = (if (e - l) * 2 ^ 32 * 4 < 3 * p then .glitch
    else if (e - l) * 2 ^ 32 * 4 ≤ 5 * p ∧ 15384615 ≤ e - l ∧ e - l ≤ 22222223 then .filter else .phaseOnly)) ∧
  (∀ s l, s.lam.mzc.last = some l → s.role = 3 → s.rl L.MAINS_STAT_STATE = 2 → 3 * s.period ≤ (s.lam.clk.ns - l) * 2 ^ 32 →
    Completes .mainsHoldoverEntry s fun t => t.rl L.MAINS_STAT_STATE = 4 ∧ t.rl L.MAINS_HOLD_MS = 0 ∧
      t.lam.mzc = { s.lam.mzc with run := 0, holdFrom := some s.lam.clk.ns } ∧ t.itu = s.itu) ∧
  (∀ s l, s.lam.mzc.last = some l → (s.lam.clk.ns - l) * 2 ^ 32 < 3 * s.period → exec .mainsHoldoverEntry s = .next s) ∧
  (∀ sd s, 3 ≤ (s.mains sd).missed → (s.mains sd).lostFrom = none → (sd = .lam → s.isCrown = false) →
    exec (.annLost sd) s = .next ((s.setMains sd { s.mains sd with lostFrom := some (s.now sd) }).setAnnLost sd 1)) ∧
  (∀ sd s, (s.mains sd).missed < 3 → exec (.annLost sd) s = .next s) ∧
  (∀ s t0, s.isCrown = true → s.lam.mzc.holdFrom = some t0 → s.rl L.MAINS_STAT_STATE = 4 → s.lam.mzc.cons = false →
    10000000000 ≤ s.lam.clk.ns - t0 → Completes (.conservativeEntry .lam) s fun t =>
      t.lam.mzc = { s.lam.mzc with cons := true } ∧ t.conservative .lam = true ∧ t.itu = s.itu) ∧
  (∀ s t0, s.itu.mains.lostFrom = some t0 → s.itu.mains.localCons = false → 10000000000 ≤ s.itu.clk.ns - t0 →
    Completes (.conservativeEntry .itu) s fun t =>
      t.itu.mains = { s.itu.mains with localCons := true } ∧ t.conservative .itu = true ∧ t.lam = s.lam) ∧
  (∀ sd s, (s.mains sd).lostFrom = none → s.isCrown = false → exec (.conservativeEntry sd) s = .next s) ∧
  (∀ iss v s, Allowed s .lam iss L.MAINS_CTL_ENABLE.addr true 3 → s.rl L.MAINS_CTL_ENABLE ≠ b2n v →
    Completes (.mainsCtlEnableWrite iss v) s fun t => t.lam.mains = {} ∧ t.rl L.MAINS_STAT_ANN_LOST = 0 ∧
      t.rl L.MAINS_CTL_ENABLE = b2n v ∧ (s.role ≠ 3 → t.rl L.MAINS_STAT_STATE = 0) ∧ t.itu = s.itu ∧ t.lam.clk = s.lam.clk) ∧
  (∀ iss v s, Allowed s .lam iss L.MAINS_CTL_ENABLE.addr true 3 → s.rl L.MAINS_CTL_ENABLE = b2n v →
    exec (.mainsCtlEnableWrite iss v) s = .next s) ∧
  (∀ a s, s.ri I.ILNK_STAT_SETTLING = 1 → exec (.mainsCellRx a) s = .next (s.ii I.ITIME_CNT_SETTLE)) ∧
  (∀ a s, s.ri I.ILNK_STAT_SETTLING ≠ 1 → s.itu.mains.known.contains a = true → s.itu.mains.held = true →
    exec (.mainsCellRx a) s = .next (s.after .itu)) ∧
  (∀ a s, s.ri I.ILNK_STAT_SETTLING ≠ 1 → s.itu.mains.held = false → s.ri I.ITIME_STAT_STATE = 2 → s.itu.clk.ns < a.startNs →
    exec (.mainsCellRx a) s = .next ((s.annAccept .itu a).after .itu)) ∧
  (∀ a (s : State), (s.annAccept .itu a).itu.mains.next = s.itu.mains.next.filter (fun x => decide (x.mc < a.mc)) ++ [a]) ∧
  (∀ a s, s.lam.mains.resend = some a →
    exec .mainsCellResend s = .next ((s.mainsCells a).setMains .lam { s.lam.mains with resend := none })) ∧
  (∀ s, s.lam.mains.resend = none → exec .mainsCellResend s = .next s)

/-- Clauses of R65, R68, R69, R29: the boundary of a slot, the start of a mains cycle, the Crown's next length, and
the release of a retiring bank. -/
def Obligations.CyclesAndSlotsBegin : Prop :=
  (∀ sd s a, (s.mains sd).cur = some a → (s.mains sd).slot < 64 → a.slotAt (s.mains sd).slot ≤ s.now sd → s.slotsOk sd = true →
    exec (.slotBoundary sd) s = .next
      ((s.setMains sd { s.mains sd with slot := (s.mains sd).slot + 1 }).slotActs sd (s.mains sd).slot (a.slotAt (s.mains sd).slot))) ∧
  (∀ sd s a, (s.mains sd).cur = some a → (s.mains sd).slot < 64 → a.slotAt (s.mains sd).slot ≤ s.now sd → s.slotsOk sd = false →
    exec (.slotBoundary sd) s = .next (s.setMains sd { s.mains sd with slot := (s.mains sd).slot + 1 })) ∧
  (∀ sd s a, (s.mains sd).cur = some a → s.now sd < a.slotAt (s.mains sd).slot → exec (.slotBoundary sd) s = .next s) ∧
  (∀ polls s, s.mcDue .itu = true → exec (.mcStart .itu polls) s = .next
    (((s.mcAdvance .itu).after .itu).mcItu (((((s.mcAdvance .itu).after .itu).mains .itu).cur.map Ann.startNs).getD 0) (s.mc .itu))) ∧
  (∀ polls s, s.mcDue .lam = true → exec (.mcStart .lam polls) s = .next
    ((s.mcAdvance .lam).mcLam ((((s.mcAdvance .lam).mains .lam).cur.map Ann.startNs).getD 0) (s.mc .lam) polls)) ∧
  (∀ sd polls s, s.mcDue sd = false → exec (.mcStart sd polls) s = .next s) ∧
  (∀ sd (s : State) a rest, (s.mains sd).next = a :: rest → (s.mains sd).localCons = false →
    ((s.mcAdvance sd).mains sd).cur = some a ∧ ((s.mcAdvance sd).mains sd).next = rest ∧ ((s.mcAdvance sd).mains sd).slot = 0) ∧
  (∀ sd (s : State) c, (s.mains sd).next = [] → (s.mains sd).cur = some c → (s.mains sd).localCons = false →
    ((s.mcAdvance sd).mains sd).cur = some { c with mc := (c.mc + 1) % 2 ^ 48, start := c.start + c.length } ∧
    ((s.mcAdvance sd).mains sd).missed = (s.mains sd).missed + 1) ∧
  (∀ (s : State) c, s.lam.mains.cur = some c → s.rl L.MAINS_STAT_STATE = 2 → ∃ a, s.crownAnnounce.lam.mains.next = [a] ∧
    a.mc = (c.mc + 1) % 2 ^ 48 ∧ a.start = c.start + c.length ∧
    a.length = ofS 64 ((s.period : Int) + clampZ (s.predErr c.mc) (-(s.rl L.MAINS_SLEW_LIMIT * nsUnit)) (s.rl L.MAINS_SLEW_LIMIT * nsUnit))) ∧
  (∀ s, s.lam.brim.retiring.isSome = true → s.bankDue = true → exec .retiringBankRelease s = .next
    (({ s with lam := { s.lam with brim := { s.lam.brim with retiring := none }, oldRegs := none } } : State).retryWaits .lam)) ∧
  (∀ s, s.bankDue = false → exec .retiringBankRelease s = .next s)

/-- Clauses of R80, R89, R81 to R83, R90, R91: the reset of the ITU, its function enables, its power domains and the
measure of its clock. -/
def Obligations.ItuResetEnablesAndDomains : Prop :=
  (∀ s, Completes .ituReset s fun t => t.lam = s.lam ∧ t.itu.caps = s.itu.straps ∧ t.itu.pins = { ceil := s.itu.straps.idleW } ∧
    t.itu.clk = {} ∧ t.itu.mains = {} ∧ t.itu.tags = [] ∧ t.ri I.LDG_CMAX = s.itu.straps.tdpW % 2 ^ I.LDG_CMAX.width ∧
    ∀ F i j, F.key i j ≠ I.LDG_CMAX.key 0 0 → t.ri F i j = F.rst i) ∧
  (∀ iss v s, Allowed s .itu iss I.ITU_FN_EN_COUNTERS.addr true 2 → exec (.ituFnEnWrite iss v) s = .next (s.writeFnEn v)) ∧
  (∀ (s : State) n F d, fnBits[n]? = some (F, d) → s.ipdOn d = false → s.setFn n true = s.wi I.ITU_FAULT_PD_OFF_ACCESS 1) ∧
  (∀ (s : State) n F d, fnBits[n]? = some (F, d) → s.ipdOn d = true → s.ri F = 0 → s.setFn n true = (s.wi F 1).fnSet n) ∧
  (∀ (s : State) n F d, fnBits[n]? = some (F, d) → s.ri F = 1 → s.setFn n false = (s.wi F 0).fnClear n) ∧
  (∀ iss v s, Allowed s .itu iss I.ITU_PD_CTL_ON.addr true 2 → exec (.ituPdCtlWrite iss v) s = .next (s.writePdCtl v)) ∧
  (∀ (s : State) n, bitAt (s.ri I.ITU_PD_STAT_BUSY) n = false → bitAt (s.ri I.ITU_PD_CTL_ON) (n - 1) = false →
    (s.pdRequest n true).itu.pins.pdReq = setBits s.itu.pins.pdReq (n - 1) 1 1 ∧
    (s.pdRequest n true).ri I.ITU_PD_STAT_BUSY = setBits (s.ri I.ITU_PD_STAT_BUSY) n 1 1 % 2 ^ I.ITU_PD_STAT_BUSY.width) ∧
  (∀ (s : State) n on, bitAt (s.ri I.ITU_PD_STAT_BUSY) n = true → s.pdRequest n on = s) ∧
  (∀ n s, 1 ≤ n → n ≤ 4 → bitAt (s.ri I.ITU_PD_STAT_BUSY) n = true → bitAt s.itu.pins.pdReq (n - 1) = true → s.pdDraining n = false →
    Completes (.pdSwAck n true) s fun t =>
      t.ri I.ITU_PD_STAT_ON = setBits (s.ri I.ITU_PD_STAT_ON) n 1 1 % 2 ^ I.ITU_PD_STAT_ON.width ∧
      t.ri I.ITU_PD_STAT_BUSY = setBits (s.ri I.ITU_PD_STAT_BUSY) n 1 0 % 2 ^ I.ITU_PD_STAT_BUSY.width ∧
      t.itu.pins.pdReq = s.itu.pins.pdReq ∧ t.lam = s.lam) ∧
  (∀ n level s, bitAt (s.ri I.ITU_PD_STAT_BUSY) n = false → exec (.pdSwAck n level) s = .next s) ∧
  (∀ n t0 s, s.itu.pins.pdSince.find? (fun x => x.1 == n) = some (n, t0) → 10000 ≤ s.itu.clk.ns - t0 →
    Completes (.pdSwAckTimeout n) s fun t => t.ri I.ITU_FAULT_PD_TO = 1 ∧ t.lam = s.lam ∧ t.itu.clk = s.itu.clk) ∧
  (∀ n s, s.itu.pins.pdSince.find? (fun x => x.1 == n) = none → exec (.pdSwAckTimeout n) s = .next s) ∧
  (∀ c s, c ≠ 0 → exec (.ituClkMeasure c) s = .next { s with itu := { s.itu with clkPeriod := 10000 * 65536 / c } }) ∧
  (∀ s, exec (.ituClkMeasure 0) s = .next s)

/-- Clauses of R87, R225, R226, R148: responses of the memory port, and barrier entries and exits. Clauses of R339,
R341, R350, R351, R355, R91: measurements of power, grants, the freeze command and the die's report. -/
def Obligations.MemoryBarrierAndLedgerEvents : Prop :=
  (∀ tag gen st d last s, s.itu.tags.find? (fun t => t.tag == tag) = none →
    exec (.memResponse tag gen st d last) s = .next (if last then s.ii I.ITU_CNT_MEM_LATE else s)) ∧
  (∀ tag gen st d last s x, s.itu.tags.find? (fun t => t.tag == tag) = some x → gen ≠ s.ri I.PART_STAT_GEN x.part →
    exec (.memResponse tag gen st d last) s = .next (if last then s.ii I.ITU_CNT_MEM_LATE else s)) ∧
  (∀ tag st d s x, s.itu.tags.find? (fun t => t.tag == tag) = some x → s.ri I.PART_STAT_CUFF x.part = 0 → x.retired = false →
    exec (.memResponse tag (s.ri I.PART_STAT_GEN x.part) st d false) s = .next
      (s.setTags (s.itu.tags.map fun y => if y.tag = tag then x.beat st d else y))) ∧
  (∀ tag st d s x, s.itu.tags.find? (fun t => t.tag == tag) = some x → s.ri I.PART_STAT_CUFF x.part = 0 → x.retired = false →
    exec (.memResponse tag (s.ri I.PART_STAT_GEN x.part) st d true) s = .next
      (((s.setTags (s.itu.tags.filter fun y => y.tag != tag)).memDeliver (x.beat st d)).pdTryAll.digNext)) ∧
  (∀ tag gen st d last s x, s.itu.tags.find? (fun t => t.tag == tag) = some x → s.ri I.PART_STAT_CUFF x.part = 1 →
    exec (.memResponse tag gen st d last) s = .next (if last then s.ii I.ITU_CNT_MEM_LATE else s)) ∧
  (∀ tag st d s x, s.itu.tags.find? (fun t => t.tag == tag) = some x → s.ri I.PART_STAT_CUFF x.part = 0 → x.retired = true →
    exec (.memResponse tag (s.ri I.PART_STAT_GEN x.part) st d true) s = .next
      (((s.setTags (s.itu.tags.filter fun y => y.tag != tag)).ii I.ITU_CNT_MEM_LATE).digNext)) ∧
  (∀ tag s x, s.itu.tags.find? (fun t => t.tag == tag && !t.retired) = some x → 20000 ≤ s.itu.clk.ns - x.at0 →
    Completes (.memTimeout tag) s fun t => t.lam = s.lam ∧ t.itu.clk = s.itu.clk ∧ t.ri I.ITU_FAULT_MEM_TO = 1) ∧
  (∀ tag s, s.itu.tags.find? (fun t => t.tag == tag && !t.retired) = none → exec (.memTimeout tag) s = .next s) ∧
  (∀ p c s, s.ri I.ITU_FN_EN_COUNTERS ≠ 0 → p < s.itu.par.partitions → s.ri I.PART_STAT_CUFF p ≠ 1 →
    s.barFind p (c % 65536) = none → s.itu.bars.length < 16 →
    exec (.barrierEvent false p c) s = .next
      { s with itu := { s.itu with bars := s.itu.bars ++ [⟨p, c % 65536, s.barTime, s.ri I.ITU_PWR_NOW_TEMP⟩] } }) ∧
  (∀ p c s, s.ri I.ITU_FN_EN_COUNTERS ≠ 0 → p < s.itu.par.partitions → s.ri I.PART_STAT_CUFF p ≠ 1 →
    s.barFind p (c % 65536) = none → exec (.barrierEvent true p c) s = .next (s.barDrop p)) ∧
  (∀ p c s o, s.ri I.ITU_FN_EN_COUNTERS ≠ 0 → p < s.itu.par.partitions → s.ri I.PART_STAT_CUFF p ≠ 1 →
    s.barFind p (c % 65536) = some o → Completes (.barrierEvent true p c) s fun t =>
      t.itu.bars = s.itu.bars.filter (fun b => !(b.part == p && b.coll == c % 65536)) ∧ t.lam = s.lam ∧ t.itu.clk = s.itu.clk) ∧
  (∀ p c s, s.ri I.ITU_FN_EN_COUNTERS ≠ 0 → p < s.itu.par.partitions → s.ri I.PART_STAT_CUFF p ≠ 1 →
    s.barFind p (c % 65536) = none → 16 ≤ s.itu.bars.length → exec (.barrierEvent false p c) s = .next (s.barDrop p)) ∧
  (∀ x p c s, s.ri I.ITU_FN_EN_COUNTERS = 0 ∨ s.itu.par.partitions ≤ p → exec (.barrierEvent x p c) s = .next s) ∧
  (∀ x p c s, s.ri I.ITU_FN_EN_COUNTERS ≠ 0 → p < s.itu.par.partitions → s.ri I.PART_STAT_CUFF p = 1 →
    exec (.barrierEvent x p c) s = .next (s.ii I.CUFF_CNT_BAR 1 p)) ∧
  (∀ p c s o, s.barFind p c = some o → 1000000000 ≤ s.itu.clk.ns - o.entry → Completes (.barEntryTimeout p c) s fun t =>
      t.itu.bars = s.itu.bars.filter (fun b => !(b.part == p && b.coll == c)) ∧ t.lam = s.lam ∧ t.itu.clk = s.itu.clk) ∧
  (∀ p c s, s.barFind p c = none → exec (.barEntryTimeout p c) s = .next s) ∧
  (∀ w temp s, Completes (.pwrMeasPulse w temp) s fun t => t.ri I.ITU_PWR_NOW_W = w % 2 ^ 16 ∧ t.itu.pwr.last = some s.itu.clk.ns ∧
    t.itu.clk = s.itu.clk ∧ t.lam = s.lam ∧
    t.itu.pwr.nMeas = s.itu.pwr.nMeas + 1 ∧ t.itu.pwr.eTotal = (s.itu.pwr.eTotal + w % 65536 *
      min (match s.itu.pwr.last with | some a => s.itu.clk.ns - a | none => 0) 30000) % 2 ^ 64) ∧
  (∀ s, s.itu.pwr.stale = false → 30000 ≤ s.itu.clk.ns - s.itu.pwr.last.getD 0 → Completes .pwrStaleTimeout s fun t =>
    t.itu.pwr.stale = true ∧ t.ri I.ITU_FAULT_PWR_STALE = 1 ∧ t.lam = s.lam) ∧
  (∀ s, s.itu.pwr.stale = true → exec .pwrStaleTimeout s = .next s) ∧
  (∀ ws s, ldgKind ws = 2 → ldgWords ws = 4 → ws.length = 4 → exec (.ldgGrantRx ws) s = .next (s.grant ws)) ∧
  (∀ ws s, ws.length ≠ 4 → exec (.ldgGrantRx ws) s = .next (s.ii I.LDG_CNT_GRANT_BAD)) ∧
  (∀ (s : State) ws, s.ri I.LDG_STAT_FROZEN = 0 → (({ s.wi I.LDG_SLOT (bits (nth ws 1) 16 6) with
      itu := { (s.wi I.LDG_SLOT (bits (nth ws 1) 16 6)).itu with pwr := { s.itu.pwr with
        hold := bits (nth ws 1) 23 3, grantSeq := ldgSeq ws } } } : State).freezeCauses = 0) →
    (s.grant ws).ri I.LDG_SLOT = bits (nth ws 1) 16 6 ∧ (s.grant ws).ri I.LDG_STAT_FRESH = 0 ∧
    (s.grant ws).ri I.LDG_TOK_UP = min (s.ri I.LDG_TOK_UP + bits (nth ws 1) 0 8) (s.ri I.LDG_CFG_BURST_UP) % 2 ^ I.LDG_TOK_UP.width) ∧
  (∀ iss v s, Allowed s .itu iss I.LDG_CTL_FREEZE.addr true 0 →
    exec (.ldgCtlFreeze iss v) s = .next ((s.wi I.LDG_CTL_FREEZE (b2n v)).refreeze false)) ∧
  (∀ s, s.ri I.LDG_CFG2_REPORT_MC ≤ s.itu.pwr.perMc → Completes .ldgDieReportEmit s fun t =>
    ItuSent (s.setPwr { s.itu.pwr with perMc := 0, perPin := 0, perPress := 0, perUp := 0, perDn := 0 }) t) ∧
  (∀ s, s.itu.pwr.perMc < s.ri I.LDG_CFG2_REPORT_MC → exec .ldgDieReportEmit s = .next s)

/-- Clauses of R118 to R125: a Visor snapshot is triggered or refused, scanned, closed, read and released. Clauses of
R126 to R129: a row sample is triggered or refused, its rows requested, returned or missing. -/
def Obligations.VisorSnapshotsAndRowSamples : Prop :=
  (∀ (s : State) p cause hold emit, s.visRefused p = false → (s.visTrigger p cause hold emit).2 = true ∧
    (s.visTrigger p cause hold emit).1.itu.pins.qscan = some p ∧ (s.visTrigger p cause hold emit).1.ri I.VIS_STAT_STATE = 1 ∧
    (s.visTrigger p cause hold emit).1.itu.vis.descs = [] ∧ (s.visTrigger p cause hold emit).1.itu.vis.at0 = s.itu.clk.ns ∧
    (s.visTrigger p cause hold emit).1.ri I.VIS_SNAP_ID = (s.ri I.VIS_SNAP_ID + 1) % 65536) ∧
  (∀ (s : State) p cause hold emit, s.visRefused p = true →
    s.visTrigger p cause hold emit = ((s.wi I.VIS_STAT_BUSY_REFUSED 1).ii I.VIS_CNT_REFUSED, false)) ∧
  (∀ iss p s, Allowed s .itu iss I.VIS_CTL_TRIG.addr true 0 → exec (.visCtlTrig iss p) s = .next
    ((s.wi I.VIS_CTL_PART p).visTrigger (p % 16) 0 ((s.wi I.VIS_CTL_PART p).ri I.VIS_CTL_HOLD == 1)
      ((s.wi I.VIS_CTL_PART p).ri I.VIS_CTL_EMIT == 1)).1) ∧
  (∀ h p hold emit s, s.ipdOn 1 = true → s.visRefused (p % 16) = false → exec (.visorSnap h p hold emit) s = .next
    ((s.visTrigger (p % 16) 1 hold emit).1.ituReply { h with opcode := 0x23 } {})) ∧
  (∀ h p hold emit s, s.ipdOn 1 = false → exec (.visorSnap h p hold emit) s = .next
    (s.ituReply { h with opcode := 0x23 } { status := St.domainOff })) ∧
  (∀ d s p, s.itu.pins.qscan = some p → bits d 24 4 = s.itu.vis.part → s.itu.vis.descs.length < s.itu.par.visorDesc →
    Completes (.qscanDescriptor d false) s fun t => t.itu.vis.descs = s.itu.vis.descs ++ [d % 2 ^ 128] ∧
      t.itu.vis.received = satN 32 (s.itu.vis.received + 1) ∧ t.itu.pins = s.itu.pins ∧ t.lam = s.lam) ∧
  (∀ d s p, s.itu.pins.qscan = some p → bits d 24 4 ≠ s.itu.vis.part →
    exec (.qscanDescriptor d false) s = .next (s.ii I.VIS_CNT_FOREIGN)) ∧
  (∀ d s p, s.itu.pins.qscan = some p → Completes (.qscanDescriptor d true) s fun t =>
      t.itu.pins.qscan = none ∧ t.ri I.VIS_STAT_STATE = 2 ∧ t.lam = s.lam) ∧
  (∀ d last s, s.itu.pins.qscan = none → exec (.qscanDescriptor d last) s = .next s) ∧
  (∀ s p, s.itu.pins.qscan = some p → 64000 ≤ s.itu.clk.ns - s.itu.vis.at0 → Completes .qscanTimeout s fun t =>
      t.itu.pins.qscan = none ∧ t.ri I.VIS_STAT_STATE = 2 ∧ t.ri I.VIS_STAT_RESULT = 1 ∧ t.ri I.ITU_FAULT_QSCAN_PARTIAL = 1 ∧
      t.itu.vis.descs = s.itu.vis.descs ∧ t.lam = s.lam) ∧
  (∀ s, s.itu.pins.qscan = none → exec .qscanTimeout s = .next s) ∧
  (∀ s r rest, s.itu.vis.todo = r :: rest → s.isStale r = false → s.storeReady r = true → exec .visorRecordEmit s = .next
    ((s.storeSend r).setVis { s.itu.vis with todo := rest }).visAfter) ∧
  (∀ s r rest, s.itu.vis.todo = r :: rest → s.isStale r = true → exec .visorRecordEmit s = .next
    ((s.setVis { s.itu.vis with todo := rest }).ii I.VIS_CNT_DISCARD).visAfter) ∧
  (∀ s, s.itu.vis.todo = [] → exec .visorRecordEmit s = .next s.rowEmit) ∧
  (∀ iss s, Allowed s .itu iss I.VIS_CTL_RELEASE.addr true 0 → s.ri I.VIS_STAT_STATE = 3 →
    exec (.visCtlRelease iss) s = .next ((s.wi I.VIS_STAT_STATE 0).setVis {})) ∧
  (∀ iss s, Allowed s .itu iss I.VIS_CTL_RELEASE.addr true 0 → s.ri I.VIS_STAT_STATE ≠ 3 → exec (.visCtlRelease iss) s = .next s) ∧
  (∀ iss s, Allowed s .itu iss I.VIS_RD_DATA0.addr false 0 → Completes (.visRdData0Read iss) s fun t =>
    t.rdata = [nth (s.visWords iss) 0] ∧ t.itu = s.itu ∧ t.lam = s.lam) ∧
  (∀ (s : State) p cause first count stride, s.rowRefused first count = false → s.itu.row.busy = false →
    s.rowTrigger p cause first count stride = (s.rowStart p cause first count stride, true)) ∧
  (∀ (s : State) p cause first count stride, s.rowRefused first count = true ∨ s.itu.row.busy = true →
    s.rowTrigger p cause first count stride = ((s.ii I.ROW_CNT_REFUSED).wi I.ROW_STAT_REFUSED 1, false)) ∧
  (∀ (s : State) p cause first count stride, (s.rowStart p cause first count stride).itu.row =
    { busy := true, part := p, cause := cause, first := first, n := rowCount s.itu.par.rowIdxW first count stride, stride := stride,
      sampleId := (s.ri I.ROW_SAMPLE_ID + 1) % 65536, todo := s.itu.row.todo }) ∧
  (∀ iss p s, Allowed s .itu iss I.ROW_CTL_TRIG.addr true 0 → exec (.rowCtlTrig iss p) s = .next
    ((s.wi I.ROW_CTL_PART p).rowTrigger (p % 16) 0 ((s.wi I.ROW_CTL_PART p).ri I.ROW_FIRST) ((s.wi I.ROW_CTL_PART p).ri I.ROW_COUNT)
      ((s.wi I.ROW_CTL_PART p).ri I.ROW_STRIDE)).1) ∧
  (∀ h p first count stride s, s.ipdOn 1 = true → stride ≠ 0 → count ≤ 1024 → s.rowRefused first count = false → s.itu.row.busy = false →
    exec (.rowSample h p first count stride) s = .next
      ((s.rowStart (p % 16) 1 first count stride).ituReply { h with opcode := 0x24 } {})) ∧
  (∀ h p first count stride s, s.ipdOn 1 = true → stride = 0 ∨ 1024 < count →
    exec (.rowSample h p first count stride) s = .next
      (((s.ii I.ROW_CNT_REFUSED).wi I.ROW_STAT_REFUSED 1).ituReply { h with opcode := 0x24 } { status := St.badParam })) ∧
  (∀ s, s.itu.row.busy = true → s.itu.row.out = none → s.itu.row.next < s.itu.row.n → s.itu.row.cutting = false →
    s.itu.row.todo.length < 16 → s.ri I.ITU_FN_EN_ROWS = 1 → s.ri I.PART_STAT_CUFF s.itu.row.part = 0 →
    exec .rowRequestIssue s = .next (s.setRow { s.itu.row with
      next := s.itu.row.next + 1
      out := some (s.itu.row.first + s.itu.row.next * s.itu.row.stride, s.itu.clk.ns, s.ri I.PART_STAT_GEN s.itu.row.part,
        s.itu.pins.qscan == some s.itu.row.part, s.mc32 .itu) })) ∧
  (∀ s, 16 ≤ s.itu.row.todo.length → exec .rowRequestIssue s = .next s) ∧
  (∀ data err s o, s.itu.row.out = some o → exec (.rowResponse data err) s = .next
    (((if err then s.ii I.ROW_CNT_ERR else s).rowMake false err data).pdTryAll)) ∧
  (∀ data err s, s.itu.row.out = none → exec (.rowResponse data err) s = .next s) ∧
  (∀ (s : State) missing err data o, s.itu.row.out = some o → s.itu.row.next < s.itu.row.n → s.itu.row.cutting = false →
    ∃ rc, (s.rowMake missing err data).itu.row = { s.itu.row with todo := s.itu.row.todo ++ [rc], out := none } ∧ rc.typ = 0x030 ∧
      rc.body.length = 132 ∧ rc.gen = o.2.2.1) ∧
  (∀ s idx a0 r, s.itu.row.out = some (idx, a0, r) → 2000 ≤ s.itu.clk.ns - a0 → exec .rowTimeout s = .next
    (((((s.ii I.ROW_CNT_MISSING).ii I.ITU_CNT_ROW_TO).wi I.ITU_FAULT_ROW_TO 1).rowMake true false []).pdTryAll)) ∧
  (∀ s, s.itu.row.out = none → exec .rowTimeout s = .next s)

/-- Clauses of R95 to R109, R386: counters count, are selected, cleared, started and read. -/
def Obligations.CountersCountAndAreRead : Prop :=
  (∀ taps evts n s, s.ri I.ITU_FN_EN_COUNTERS = 0 → exec (.counterIncrement taps evts n) s = .next
    (s.setSmp { s.itu.smp with cyc := (s.itu.smp.cyc + n) % 2 ^ 64 })) ∧
  (∀ taps evts n s i, s.ri I.ITU_FN_EN_COUNTERS = 1 → s.cselUsed = [i] → Completes (.counterIncrement taps evts n) s fun t =>
    Sparse.get 0 t.itu.smp.vals i = (Sparse.get 0 s.itu.smp.vals i + n * s.cselInc (s.csel i) taps evts) % 2 ^ 48 ∧
    (∀ k, k ≠ i → Sparse.get 0 t.itu.smp.vals k = Sparse.get 0 s.itu.smp.vals k) ∧
    t.itu.smp.cyc = (s.itu.smp.cyc + n) % 2 ^ 64 ∧ t.itu.regs = s.itu.regs ∧ t.lam = s.lam) ∧
  (∀ iss i data s, i < 4096 → Allowed s .itu iss (0x1000 + 4 * i) true 0 → Completes (.counterSelectWrite iss i data) s fun t =>
    t.ri I.CSEL_SRC i = bits data 0 2 ∧ t.ri I.CSEL_INDEX i = bits data 2 10 ∧ Sparse.get 0 t.itu.smp.vals i = 0 ∧
    (t.blk (i / 256)).restart = i % 256 :: (s.blk (i / 256)).restart.filter (· != i % 256) ∧
    (∀ k, k ≠ i → Sparse.get 0 t.itu.smp.vals k = Sparse.get 0 s.itu.smp.vals k) ∧ t.lam = s.lam) ∧
  (∀ iss i data s, 4096 ≤ i → exec (.counterSelectWrite iss i data) s = .next s) ∧
  (∀ iss s, Allowed s .itu iss I.SMP_CTL_CLEAR.addr true 0 → exec (.smpCtlClear iss) s = .next
    (s.setSmp { s.itu.smp with vals := [], blks := s.itu.smp.blks.map fun b => { b with restartAll := true } })) ∧
  (∀ iss s, Allowed s .itu iss I.SMP_CTL_RUN.addr true 0 → s.ri I.ITU_FN_EN_COUNTERS = 1 → s.ri I.SMP_CTL_RUN = 0 →
    exec (.smpCtlRunWrite iss true) s = .next ((s.wi I.SMP_CTL_RUN 1).reopenBlocks)) ∧
  (∀ iss s, Allowed s .itu iss I.SMP_CTL_RUN.addr true 0 → s.ri I.ITU_FN_EN_COUNTERS = 0 →
    exec (.smpCtlRunWrite iss true) s = .next (s.wi I.SMP_CTL_RUN 0)) ∧
  (∀ iss s, Allowed s .itu iss I.SMP_CTL_RUN.addr true 0 → exec (.smpCtlRunWrite iss false) s = .next (s.wi I.SMP_CTL_RUN 0)) ∧
  (∀ iss s, Allowed s .itu iss I.SMP_RD_LO.addr false 0 → exec (.smpRdLoRead iss) s = .next { s with
    rdata := [Sparse.get 0 s.itu.smp.vals (s.rdIdx iss.path) % 2 ^ 32]
    latches := s.latches.filter (fun l => l.path != iss.path) ++
      [⟨iss.path, I.SMP_RD_LO.addr, [(I.SMP_RD_HI.addr, Sparse.get 0 s.itu.smp.vals (s.rdIdx iss.path) / 2 ^ 32)], s.itu.clk.ns⟩] }) ∧
  (∀ p s, exec (.readLatchExpiry p) s = .next { s with latches := s.latches.filter fun l =>
    !(l.path == p && decide (1000 ≤ s.pathNow p - l.at0)) }) ∧
  (∀ taps t, tapState taps t < 256)

/-- Clauses of R145 to R148: a reset of a partition is triggered, held or refused, captures, quiesces and fences.
Clauses of R147, R149, R159: a fenced partition advances its generation, is reset, and returns to RUN or hangs. -/
def Obligations.PartitionResetsRunTheirStates : Prop :=
  (∀ (s : State) p cause, p < s.itu.par.partitions → s.pstate p = 0 → (s.pseq p).held = none → s.itu.advHeld = false →
    s.inGap p = false → s.partTrigger p cause = (s.partStart p cause, .accepted)) ∧
  (∀ (s : State) p cause, p < s.itu.par.partitions → s.pstate p = 0 → (s.pseq p).held = none → s.itu.advHeld = false →
    s.inGap p = true → s.partTrigger p cause =
      ((s.wi I.PART_STAT_HELD 1 p).setPseq p { s.pseq p with held := some cause }, .accepted)) ∧
  (∀ (s : State) p cause, s.itu.par.partitions ≤ p → s.partTrigger p cause = (s.ii I.PART_CNT_REFUSED, .noPartition)) ∧
  (∀ (s : State) p cause, p < s.itu.par.partitions → s.pstate p = 2 → s.partTrigger p cause = (s.ii I.PART_CNT_REFUSED, .refused)) ∧
  (∀ iss p s, Allowed s .itu iss I.PART_CTL_RESET.addr true 0 →
    exec (.partCtlReset iss p) s = .next ((s.wi I.PART_CTL_PART p).partTrigger (p % 16) 0).1) ∧
  (∀ h p s, (s.partTrigger (p % 16) 1).2 = .accepted →
    exec (.partReset h p) s = .next ((s.partTrigger (p % 16) 1).1.ituReply { h with opcode := 0x25 } {})) ∧
  (∀ h p s, (s.partTrigger (p % 16) 1).2 = .noPartition → exec (.partReset h p) s = .next
    ((s.partTrigger (p % 16) 1).1.ituReply { h with opcode := 0x25 } { status := St.badParam })) ∧
  (∀ h p s, (s.partTrigger (p % 16) 1).2 = .refused → exec (.partReset h p) s = .next
    ((s.partTrigger (p % 16) 1).1.ituReply { h with opcode := 0x25 } { status := St.busy })) ∧
  (∀ p c s, (s.pseq p).held = some c → s.inGap p = false →
    exec (.resetTriggerRelease p) s = .next ((s.wi I.PART_STAT_HELD 0 p).partStart p c)) ∧
  (∀ p s, s.inGap p = true → exec (.resetTriggerRelease p) s = .next s) ∧
  (∀ p s, s.pstate p = 1 → s.qscanLow p = true → s.rowsEnded p = true → exec (.captureEnd p) s = .next (s.quiesce p)) ∧
  (∀ p s, s.pstate p ≠ 1 → exec (.captureEnd p) s = .next s ∧ exec (.captureTimeout p) s = .next s) ∧
  (∀ p s, s.pstate p = 1 → 1000000 ≤ s.itu.clk.ns - (s.pseq p).trigAt → s.qscanLow p = true → exec (.captureTimeout p) s = .next
    (((s.setPseq p { s.pseq p with cut := true }).cutRows p).quiesce p)) ∧
  (∀ p s, s.pstate p = 2 → exec (.quiesceAck p) s = .next
    (((s.wi I.PART_STAT_CUFF 1 p).wi I.PART_STAT_STATE 3 p).setPseq p { s.pseq p with since := s.itu.clk.ns })) ∧
  (∀ p s, s.pstate p ≠ 2 → exec (.quiesceAck p) s = .next s ∧ exec (.quiesceTimeout p) s = .next s) ∧
  (∀ p s, p < 16 → s.pstate p = 2 → 100000 ≤ s.itu.clk.ns - (s.pseq p).since → Completes (.quiesceTimeout p) s fun t =>
    t.ri I.PART_STAT_CUFF p = 1 ∧ t.ri I.PART_STAT_STATE p = 3 ∧ t.ri I.ITU_FAULT_QUIESCE_TO = 1 ∧ (t.pseq p).qto = true ∧
    t.itu.pins = s.itu.pins ∧ t.lam = s.lam) ∧
  (∀ p s, p < 16 → s.pstate p = 3 → s.r124 p = true → ∃ u : State, u = s.advance p (s.pseq p).cause ∧
    exec (.generationAdvance p) s = .next (State.partFreeze ((u.enterPart p 4).setPins { u.itu.pins with
      rst := setBits u.itu.pins.rst p 1 1 }) p true)) ∧
  (∀ p s, s.pstate p ≠ 3 → exec (.generationAdvance p) s = .next s) ∧
  (∀ p cause (s : State), p < 16 → (s.advance p cause).ri I.PART_STAT_GEN p = (s.ri I.PART_STAT_GEN p + 1) % 256) ∧
  (∀ p s, p < 16 → s.pstate p = 4 → ∃ u : State, exec (.partRstDone p) s = .next ((u.partRelease p).partFreeze p false) ∧
    u.ri I.PART_STAT_CUFF p = 0 ∧ u.ri I.PART_STAT_STATE p = 0 ∧ u.itu.pins.rst = setBits s.itu.pins.rst p 1 0 ∧
    u.itu.pins.quiesce = setBits s.itu.pins.quiesce p 1 0 ∧ u.itu.clk = s.itu.clk ∧ u.lam = s.lam) ∧
  (∀ p s, s.pstate p ≠ 4 → exec (.partRstDone p) s = .next s ∧ exec (.resetTimeout p) s = .next s) ∧
  (∀ p s, s.pstate p = 4 → 10000000 ≤ s.itu.clk.ns - (s.pseq p).since → exec (.resetTimeout p) s = .next (s.partHung p)) ∧
  (∀ iss s, Allowed s .itu iss I.PART_CTL_ADV_ALL.addr true 0 → (∀ p ∈ s.partList, s.pstate p = 0 ∧ (s.pseq p).held = none ∧ s.inGap p = false) →
    s.itu.advHeld = false → exec (.partCtlAdvAll iss) s = .next s.advanceAll) ∧
  (∀ iss s p, Allowed s .itu iss I.PART_CTL_ADV_ALL.addr true 0 → p ∈ s.partList → s.pstate p = 2 →
    exec (.partCtlAdvAll iss) s = .next (s.ii I.PART_CNT_REFUSED)) ∧
  (∀ s, s.itu.advHeld = true → s.partList.any s.inGap = false → exec .advAllHeldRelease s = .next s.advanceAll) ∧
  (∀ s, s.itu.advHeld = false → exec .advAllHeldRelease s = .next s)

/-- Clauses of R131 to R142: packets are captured or counted lost, chunks are written and fail, and the trace
registers act. -/
def Obligations.TraceCapturesAndWrites : Prop :=
  (∀ taps bars addrs (s : State), s.tapPkts taps ++ s.barPkts bars ++ s.addrPkts addrs = [] → exec (.tracePacketCapture taps bars addrs) s =
    .next { s with itu := { s.itu with tapCls := taps.foldl (fun m x => Sparse.set 0 m x.1 (bits x.2 6 2)) s.itu.tapCls } }) ∧
  (∀ taps bars addrs (s : State) p k, s.tapPkts taps ++ s.barPkts bars ++ s.addrPkts addrs = [(p, k)] → ∃ u : State,
    u = { s with itu := { s.itu with tapCls := taps.foldl (fun m x => Sparse.set 0 m x.1 (bits x.2 6 2)) s.itu.tapCls } } ∧
    exec (.tracePacketCapture taps bars addrs) s = .next
      (if 16384 < (u.trcPut p s.itu.clk.ns k).trcLevel then u.trcLose p 1 else u.trcPut p s.itu.clk.ns k)) ∧
  (∀ (s : State) tm p k l, s.trcPutAll tm 0 ((p, k) :: l) = (s.trcLose p 1).trcPutAll tm 0 l) ∧
  (∀ (s : State) p n, n ≠ 0 → (s.trcLose p n).ri I.TRC_PSTAT_LOST p = 1 ∧ ((s.trcLose p n).trc p).lost = (s.trc p).lost + n ∧
    ((s.trcLose p n).trc p).chunk = (s.trc p).chunk) ∧
  (∀ i st dt prev, dt < 128 → (TrcPkt.tap i st).bytes dt prev = [0x20, dt, i % 256, st % 256]) ∧
  (∀ p tag (s : State) bs n rest, (s.trc p).full = (bs, n) :: rest → s.tagFree p tag = true → ∃ u : State, exec (.traceChunkWrite p tag) s =
    .next (u.trcAdvance p) ∧ (u.trc p).full = rest ∧ u.itu.regs = s.itu.regs ∧ u.lam = s.lam ∧
    u.itu.tags = s.itu.tags ++ [{
      tag := tag, part := p, gen := s.ri I.PART_STAT_GEN p, user := .trace p, addr := s.trcBase p + 64 * s.ri I.TRC_WPTR p, bytes := 512, write := true, at0 := s.itu.clk.ns, data := bs, packets := n }]) ∧
  (∀ (s : State) p, s.ri I.TRC_WPTR p + 8 < s.trcLines p → s.trcAdvance p = s.wi I.TRC_WPTR (s.ri I.TRC_WPTR p + 8) p) ∧
  (∀ (s : State) p, s.trcLines p ≤ s.ri I.TRC_WPTR p + 8 → s.ri I.TRC_PCTL_MODE p = 0 →
    s.trcAdvance p = (s.wi I.TRC_WPTR 0 p).wi I.TRC_PSTAT_WRAPPED 1 p) ∧
  (∀ p tag (s : State), s.tagFree p tag = false ∨ (s.trc p).full = [] → exec (.traceChunkWrite p tag) s = .next s) ∧
  (∀ p st (s : State) g, st ≠ .ok → s.itu.tags.find? (fun t => t.user == .trace p && !t.retired) = some g →
    exec (.traceWriteError p st) s = .next
      ((({ s with itu := { s.itu with tags := s.itu.tags.erase g } } : State).trcFail p g.packets).pdTryAll)) ∧
  (∀ p st (s : State), st = .ok ∨ s.itu.tags.find? (fun t => t.user == .trace p && !t.retired) = none →
    exec (.traceWriteError p st) s = .next s) ∧
  (∀ iss p (s : State), Allowed s .itu iss (I.TRC_PCTL_FLUSH.addr + 0x20 * p) true 0 → (s.trc p).chunk ≠ [] →
    Completes (.trcPctlFlush iss p) s fun t => (t.trc p).chunk = [] ∧ t.ri I.TRC_PSTAT_FLUSH_BUSY p = 1 ∧
      (t.trc p).full = (s.trc p).full ++ [((s.trc p).chunk ++ List.replicate (512 - (s.trc p).chunk.length) 0, (s.trc p).packets)] ∧
      t.lam = s.lam) ∧
  (∀ iss p (s : State), Allowed s .itu iss (I.TRC_PCTL_FLUSH.addr + 0x20 * p) true 0 → (s.trc p).chunk = [] →
    exec (.trcPctlFlush iss p) s = .next s) ∧
  (∀ iss p (s : State), Allowed s .itu iss (I.TRC_PCTL_EN.addr + 0x20 * p) true 0 → s.ri I.TRC_SIZE p ≠ 0 → s.ri I.TRC_PCTL_EN p = 0 →
    exec (.trcPctlEnWrite iss p true) s = .next (State.putSync
      ((((s.wi I.TRC_PCTL_EN 1 p).wi I.TRC_WPTR 0 p).wi I.TRC_PSTAT_FULL 0 p).wi I.TRC_PSTAT_WRAPPED 0 p) p s.itu.clk.ns)) ∧
  (∀ iss p (s : State), Allowed s .itu iss (I.TRC_PCTL_EN.addr + 0x20 * p) true 0 → s.ri I.TRC_SIZE p = 0 →
    exec (.trcPctlEnWrite iss p true) s = .next s) ∧
  (∀ iss p (s : State), Allowed s .itu iss (I.TRC_PCTL_EN.addr + 0x20 * p) true 0 →
    exec (.trcPctlEnWrite iss p false) s = .next (s.wi I.TRC_PCTL_EN 0 p)) ∧
  (∀ iss p v (s : State), Allowed s .itu iss (I.TRC_MARK.addr + 0x20 * p) true 1 → s.trcActive p = true →
    (s.trcPut p s.itu.clk.ns (.mark (v % 2 ^ 32))).trcLevel ≤ 16384 →
    exec (.trcMarkWrite iss p v) s = .next (s.trcPut p s.itu.clk.ns (.mark (v % 2 ^ 32)))) ∧
  (∀ iss p v (s : State), Allowed s .itu iss (I.TRC_MARK.addr + 0x20 * p) true 1 → s.trcActive p = false →
    exec (.trcMarkWrite iss p v) s = .next s)

/-- Clauses of R294, R302 to R306: the digest of an ITU arms, opens, digests, closes and emits. -/
def Obligations.DigestWindowsArmOpenAndClose : Prop :=
  (∀ iss step (s : State), s.digGuard iss I.DIG_STEP.addr = (s, true) → s.digBusy = false →
    s.ri I.ITU_FN_EN_DIGEST = 1 → s.ri I.DIG_CFG_EVERY ≠ 0 → step < 2 ^ 32 → step % s.ri I.DIG_CFG_EVERY = 0 →
    2 ≤ s.digKey1 → 2 ≤ s.digKey2 → s.ri I.PART_STAT_STATE (s.ri I.DIG_CFG_PART) = 0 → Completes (.digStepWrite iss step) s fun t =>
      t.ri I.DIG_STEP = step ∧ t.ri I.DIG_STAT_STATE = 1 ∧ t.itu.dig.step = step ∧ t.itu.dig.armAt = s.itu.clk.ns ∧
      t.itu.dig.todo = s.itu.dig.todo ∧ t.lam = s.lam) ∧
  (∀ iss step (s : State), s.digGuard iss I.DIG_STEP.addr = (s, true) → s.digBusy = false → step < 2 ^ 32 →
    s.ri I.DIG_CFG_EVERY ≠ 0 → step % s.ri I.DIG_CFG_EVERY = 0 → s.ri I.ITU_FN_EN_DIGEST = 0 →
    exec (.digStepWrite iss step) s = .next ((s.wi I.DIG_STEP step).ii I.DIG_CNT_SKIPPED)) ∧
  (∀ iss step (s : State), s.digGuard iss I.DIG_STEP.addr = (s, true) → s.digBusy = true → step < 2 ^ 32 → s.ri I.DIG_CFG_EVERY = 0 →
    exec (.digStepWrite iss step) s = .next ((s.wi I.DIG_STEP step).digClose 1)) ∧
  (∀ iss (s : State), s.digGuard iss I.DIG_UNSTABLE.addr = (s, true) → s.digBusy = true →
    exec (.digUnstableWrite iss) s = .next (s.digClose 1)) ∧
  (∀ iss (s : State), s.digGuard iss I.DIG_UNSTABLE.addr = (s, true) → s.digBusy = false →
    exec (.digUnstableWrite iss) s = .next s) ∧
  (∀ s, s.digCanOpen = true → Completes .digWindowOpen s fun t =>
    t.ri I.DIG_STAT_STATE = 2 ∧ t.itu.dig.openAt = some s.itu.clk.ns ∧ t.itu.dig.part = s.ri I.DIG_CFG_PART ∧
    t.itu.dig.k1 = s.digKey1 ∧ t.itu.dig.k2 = s.digKey2 ∧ t.itu.dig.keySeq = s.ri I.DIG_KEY_SEQ ∧ t.itu.dig.lo = s.digLo ∧
    t.itu.dig.hi = s.digHi ∧ t.itu.dig.count = s.ri I.DIG_RUNS_COUNT ∧ t.lam = s.lam) ∧
  (∀ s, s.digCanOpen = false → exec .digWindowOpen s = .next s) ∧
  (∀ s, s.digDone = true → exec .digWindowClose s = .next (s.digClose 0)) ∧
  (∀ s, s.digDone = false → exec .digWindowClose s = .next s) ∧
  (∀ iss s, Allowed s .itu iss I.DIG_CTL_ABORT.addr true 0 → s.digBusy = true → exec (.digCtlAbort iss) s = .next (s.digClose 7)) ∧
  (∀ iss s, Allowed s .itu iss I.DIG_CTL_ABORT.addr true 0 → s.digBusy = false → exec (.digCtlAbort iss) s = .next s) ∧
  (∀ (s : State) r t0, r < 8 → r ≠ 5 → s.digBusy = true → s.itu.dig.openAt = some t0 →
    (s.digClose r).ri I.DIG_STAT_STATE = 3 ∧ (s.digClose r).ri I.DIG_STAT_RESULT = r ∧
    (s.digClose r).ri I.DIG_LAST_STEP = s.itu.dig.step % 2 ^ 32 ∧
    (s.digClose r).ri I.DIG_LAST_D1_LO = (if r = 0 then s.itu.dig.d1 % 2 ^ 32 else 0) ∧
    (s.digClose r).itu.dig.todo = s.itu.dig.todo ++ [s.digRec r s.itu.dig.gen (short t0)] ∧
    (s.digClose r).lam = s.lam) ∧
  (∀ (d : Dig) i c, d.lo ≤ i → i < d.hi → (d.coef i c).d1 = (d.d1 + (c + 1) * d.w1) % (2 ^ 61 - 1) ∧
    (d.coef i c).d2 = (d.d2 + (c + 1) * d.w2) % (2 ^ 61 - 1) ∧ (d.coef i c).v = (d.v + d.w1) % (2 ^ 61 - 1) ∧
    (d.coef i c).n = d.n + 1 ∧ (d.coef i c).w1 = d.w1 * d.k1 % (2 ^ 61 - 1)) ∧
  (∀ (d : Dig) i c, i < d.lo ∨ d.hi ≤ i → (d.coef i c).d1 = d.d1 ∧ (d.coef i c).d2 = d.d2 ∧ (d.coef i c).n = d.n ∧
    (d.coef i c).w1 = d.w1 * d.k1 % (2 ^ 61 - 1)) ∧
  (∀ n b e, e < 2 ^ n → powmod n b e = b ^ e % (2 ^ 61 - 1)) ∧
  (∀ (s : State) r l, s.itu.dig.todo = r :: l → s.isStale r = false → s.storeReady r = true → (s.storeSend r).digBusy = true →
    exec .digShardEmit s = .next ((s.storeSend r).setDig { (s.storeSend r).itu.dig with todo := l })) ∧
  (∀ (s : State) r l, s.itu.dig.todo = r :: l → s.isStale r = true → s.digBusy = true →
    exec .digShardEmit s = .next ((s.ii I.DIG_CNT_DISCARD).setDig { s.itu.dig with todo := l })) ∧
  (∀ s, s.itu.dig.todo = [] → exec .digShardEmit s = .next s)

/-- Clauses of R308 to R312: digest cells gather the shards of a key, close, and are compared at the Crown. -/
def Obligations.DigestCellsGatherAndCompare : Prop :=
  (∀ e r (s : State), s.role ≠ 0 → r.typ = 0x0A1 → exec (.digPartialArrival e r) s = .next (s.digPartialRx e r)) ∧
  (∀ e r (s : State), s.role = 0 ∨ r.typ ≠ 0x0A1 → exec (.digPartialArrival e r) s = .next s) ∧
  (∀ (s : State) c d src n, s.findDig c.key = some d → c.leaves.any d.leaves.contains = false → d.closed = false →
    (d.merge c).keyMix = false → s.digInput c src n = (s.putDig (d.merge c), true)) ∧
  (∀ (s : State) c d src n, s.findDig c.key = some d → c.leaves.any d.leaves.contains = true →
    s.digInput c src n = (s.il L.DIGF_CNT_DUP, false)) ∧
  (∀ (s : State) c src n, s.findDig c.key = none → s.now .lam ≤ s.digEnd c.openMin → s.digOpen < 1024 → c.keyMix = false →
    s.digMixed c.cohort c.replica c.openMin = false → s.lam.digCells = [] →
    (s.digInput c src n).2 = true ∧ (s.digInput c src n).1.lam.digCells = [c]) ∧
  (∀ a b : DigCell, (a.merge b).d1 = (a.d1 + b.d1) % (2 ^ 61 - 1) ∧ (a.merge b).v = (a.v + b.v) % (2 ^ 61 - 1) ∧
    (a.merge b).n = (a.n + b.n) % 2 ^ 64 ∧ (a.merge b).shards = a.shards + b.shards ∧ (a.merge b).key = a.key) ∧
  (∀ c r st lo hi (s : State) x, s.findDig ⟨c, r, st, lo, hi⟩ = some x → x.closed = false → s.digOn = true →
    s.digExpected c r x.openMin ≤ x.shards ∨ s.digEnd x.openMin ≤ s.now .lam → s.isCrown = false →
    exec (.digestCellClose c r st lo hi) s = .next ((s.putDig { x with closed := true }).digPartial x)) ∧
  (∀ c r st lo hi (s : State) x, s.findDig ⟨c, r, st, lo, hi⟩ = some x → x.closed = false → s.digOn = true →
    s.digExpected c r x.openMin ≤ x.shards ∨ s.digEnd x.openMin ≤ s.now .lam → s.isCrown = true →
    exec (.digestCellClose c r st lo hi) s = .next (s.putDig { x with closed := true })) ∧
  (∀ c r st lo hi (s : State) x, s.findDig ⟨c, r, st, lo, hi⟩ = some x → x.shards < s.digExpected c r x.openMin →
    s.now .lam < s.digEnd x.openMin → exec (.digestCellClose c r st lo hi) s = .next s) ∧
  (∀ c st lo hi (s : State) x l, s.digGroup c st lo hi = x :: l → s.isCrown = true → s.digOn = true →
    (∀ y ∈ x :: l, y.closed = true) → s.digEnd ((x :: l).foldl (fun m c => min m c.openMin) x.openMin) ≤ s.now .lam →
    Completes (.digestCompare c st lo hi) s fun t =>
      t.lam.digCells = s.lam.digCells.filter (fun y => !(x :: l).contains y) ∧
      t.itu = s.itu) ∧
  (∀ c st lo hi (s : State), s.digGroup c st lo hi = [] ∨ s.isCrown = false → exec (.digestCompare c st lo hi) s = .next s) ∧
  (∀ all x, 2 ≤ all.count x → all.length < 2 * all.count x → digRank all x = 1) ∧
  (∀ all x y, 2 ≤ all.count y → all.length < 2 * all.count y → x ≠ y → digRank all x = 2) ∧
  (∀ x, digRank [x] x = 4)

/-- Clauses of R322, R323, R335: the Gauntlet of an ITU takes an item and runs a canary tile. -/
def Obligations.GauntletItemsAreStagedAndRun : Prop :=
  (∀ h off bs (s : State), s.ipdOn 3 = true → off + bs.length ≤ 131072 → s.ri I.GNT_STAT_STATE = 0 → off = 0 →
    exec (.gntStage h off bs) s = .next (State.ituReply (((s.wi I.GNT_STAT_STATE 1).wi I.GNT_BUF_LEVEL bs.length).setGnt
      { s.itu.gnt with buf := bs.map (· % 256) }) { h with opcode := 0x3A } {})) ∧
  (∀ h off bs (s : State), s.ipdOn 3 = true → 131072 < off + bs.length →
    exec (.gntStage h off bs) s = .next (s.ituReply { h with opcode := 0x3A } { status := St.badParam })) ∧
  (∀ h off bs (s : State), s.ipdOn 3 = true → off + bs.length ≤ 131072 → 2 ≤ s.ri I.GNT_STAT_STATE →
    exec (.gntStage h off bs) s = .next (s.ituReply { h with opcode := 0x3A } { status := St.busy })) ∧
  (∀ h off bs (s : State), s.ipdOn 3 = false →
    exec (.gntStage h off bs) s = .next (s.ituReply { h with opcode := 0x3A } { status := St.domainOff })) ∧
  (∀ h item pkg load rt e (s : State), s.ipdOn 3 = true → s.gntRefused (e.map (· % 2 ^ 32)) = false → bits (nth e 0) 0 2 ≠ 1 →
    ∃ u : State, exec (.gntRun h item pkg load rt e) s = .next (u.ituReply { h with opcode := 0x3B } {}) ∧
      u.ri I.GNT_STAT_STATE = 4 ∧ u.itu.pins = { s.itu.pins with cnry := some (bits (nth e 0) 4 6) } ∧
      u.itu.gnt.cur = { item := item % 4096, pkg := pkg % 65536, load := load % 16, retest := rt, entry := e.map (· % 2 ^ 32) } ∧
      u.ri I.GNT_CUR_PKG_ID = pkg % 65536 ∧ u.lam = s.lam) ∧
  (∀ h item pkg load rt e (s : State), s.ipdOn 3 = true → s.gntRefused (e.map (· % 2 ^ 32)) = false → bits (nth e 0) 0 2 = 1 →
    s.ri I.LDG_STAT_FROZEN = 0 →
    ∃ u : State, exec (.gntRun h item pkg load rt e) s = .next (u.ituReply { h with opcode := 0x3B } {}) ∧
      u.ri I.GNT_STAT_STATE = 2 ∧ u.ri I.GNT_MISMATCH = 0 ∧
      u.ri I.LDG_TOK_ASK_TR = s.gntRaise (e.map (· % 2 ^ 32)) % 2 ^ I.LDG_TOK_ASK_TR.width ∧ u.itu.pins = s.itu.pins) ∧
  (∀ h item pkg load rt e (s : State), s.ipdOn 3 = true → s.gntRefused (e.map (· % 2 ^ 32)) = true →
    exec (.gntRun h item pkg load rt e) s = .next
      (((s.wi I.GNT_STAT_REFUSED 1).ii I.GNT_CNT_REFUSED).ituReply { h with opcode := 0x3B } { status := St.busy })) ∧
  (∀ (s : State) e, s.ri I.GNT_STAT_STATE ≠ 1 → s.gntRefused e = true) ∧
  (∀ d (s : State), s.canaryRuns = true → exec (.canaryOutputBeat d false) s = .next
    (s.setGnt { s.itu.gnt with beats := s.itu.gnt.beats + 1, crc := crcFeed 3 s.itu.gnt.crc (leBytes 128 d) })) ∧
  (∀ d (s : State) u, s.canaryRuns = true → u = s.setGnt
      { s.itu.gnt with beats := s.itu.gnt.beats + 1, crc := crcFeed 3 s.itu.gnt.crc (leBytes 128 d) } →
    u.itu.gnt.beats = bits (u.gntWord 7) 0 11 → u.itu.gnt.crc = u.gntExpect →
    exec (.canaryOutputBeat d true) s = .next (u.canaryEnd 0 false).pdTryAll) ∧
  (∀ d (s : State) u, s.canaryRuns = true → u = s.setGnt
      { s.itu.gnt with beats := s.itu.gnt.beats + 1, crc := crcFeed 3 s.itu.gnt.crc (leBytes 128 d) } →
    u.itu.gnt.beats ≠ bits (u.gntWord 7) 0 11 ∨ u.itu.gnt.crc ≠ u.gntExpect →
    exec (.canaryOutputBeat d true) s = .next (u.canaryEnd 1 false).pdTryAll) ∧
  (∀ d l (s : State), s.canaryRuns = false → exec (.canaryOutputBeat d l) s = .next s ∧ exec .canaryTimeout s = .next s) ∧
  (∀ s, s.canaryRuns = true → 500000 ≤ s.itu.clk.ns - s.itu.gnt.since → exec .canaryTimeout s = .next
    (((s.ii I.ITU_CNT_CANARY_TO).wi I.ITU_FAULT_CANARY_TO 1).canaryEnd 2 false).pdTryAll) ∧
  (∀ (s : State) r, (s.canaryEnd r false).ri I.GNT_STAT_STATE = 0 ∧ (s.canaryEnd r false).itu.pins.cnry = none ∧
    (s.canaryEnd r false).itu.gnt.buf = [])

/-- Clauses of R325 to R329: a slice waits for power, saves, runs, restores and ends; its limits and its abort. -/
def Obligations.SlicesRunBetweenSaveAndRestore : Prop :=
  (∀ s, s.ri I.GNT_STAT_STATE = 2 → s.ri I.LDG_TOK_ASK_TR = 0 → s.slotSince s.itu.gnt.since = true →
    Completes .slicePowerReady s fun t => t.ri I.GNT_STAT_STATE = 3 ∧
      t.itu.pins = { s.itu.pins with sr := some (0, bits (s.gntWord 0) 10 8) } ∧
      t.itu.gnt.waitNs = s.itu.clk.ns - s.itu.gnt.since ∧ t.lam = s.lam) ∧
  (∀ s, s.ri I.GNT_STAT_STATE ≠ 2 ∨ s.ri I.LDG_TOK_TR < s.ri I.LDG_TOK_ASK_TR → exec .slicePowerReady s = .next s) ∧
  (∀ s a, s.ri I.GNT_STAT_STATE = 2 → s.itu.mains.cur = some a →
    s.ri I.GNT_WAIT_MC * a.length ≤ (s.itu.clk.ns - s.itu.gnt.since) * 2 ^ 32 →
    exec .slicePowerTimeout s = .next (s.gntWaited.sliceEnd 2 1 false)) ∧
  (∀ s, s.ri I.GNT_STAT_STATE ≠ 2 → exec .slicePowerTimeout s = .next s) ∧
  (∀ s, s.ri I.GNT_STAT_STATE = 3 → exec (.srAck false) s = .next ((s.setPins { s.itu.pins with sr := none }).gntState 4)) ∧
  (∀ s, s.ri I.GNT_STAT_STATE = 5 → s.itu.gnt.cause = 0 → s.ri I.GNT_MISMATCH = 0 →
    exec (.srAck false) s = .next (s.sliceEnd 0 0 false)) ∧
  (∀ s, s.ri I.GNT_STAT_STATE = 5 → s.itu.gnt.cause = 0 → s.ri I.GNT_MISMATCH ≠ 0 →
    exec (.srAck false) s = .next (s.sliceEnd 1 0 false)) ∧
  (∀ s, s.ri I.GNT_STAT_STATE = 5 → s.itu.gnt.cause ≠ 0 → exec (.srAck false) s = .next (s.sliceEnd 2 s.itu.gnt.cause false)) ∧
  (∀ s, s.ri I.GNT_STAT_STATE = 3 → exec (.srAck true) s = .next
    (((s.ii I.ITU_CNT_SR_TO).wi I.ITU_FAULT_SR_TO 1).sliceEnd 2 2 false)) ∧
  (∀ s, s.ri I.GNT_STAT_STATE = 5 → exec (.srAck true) s = .next
    (((s.ii I.ITU_CNT_SR_TO).wi I.ITU_FAULT_SR_TO 1).sliceEnd 2 3 false)) ∧
  (∀ s e, s.ri I.GNT_STAT_STATE ≠ 3 → s.ri I.GNT_STAT_STATE ≠ 5 → exec (.srAck e) s = .next s ∧ exec .srTimeout s = .next s) ∧
  (∀ s, s.ri I.GNT_STAT_STATE = 3 ∨ s.ri I.GNT_STAT_STATE = 5 → 50000 ≤ s.itu.clk.ns - s.itu.gnt.since →
    exec .srTimeout s = .next s.srFail) ∧
  (∀ w (s : State), s.sliceRuns = true → Completes (.slicePatternEnd w) s fun t => t.ri I.GNT_STAT_STATE = 5 ∧ t.itu.gnt.cause = 0 ∧
    t.itu.pins = { s.itu.pins with sr := some (1, bits (s.gntWord 0) 10 8) } ∧ t.ri I.GNT_MISMATCH = (s.sliceCompare w).ri I.GNT_MISMATCH ∧
    t.itu.gnt.runNs = s.itu.clk.ns - s.itu.gnt.since ∧ t.lam = s.lam) ∧
  (∀ w (s : State), s.sliceRuns = true → bits (s.gntWord 2) 16 16 * 1000 ≤ s.itu.clk.ns - s.itu.gnt.since →
    exec (.sliceOvertime w) s = .next ((s.sliceCompare w).sliceRestore 4)) ∧
  (∀ w (s : State), s.sliceRuns = false → exec (.slicePatternEnd w) s = .next s ∧ exec (.sliceOvertime w) s = .next s) ∧
  (∀ iss w s, Allowed s .itu iss I.GNT_CTL_ABORT.addr true 0 → s.ri I.GNT_STAT_STATE = 2 →
    exec (.gntCtlAbort iss w) s = .next (s.gntWaited.sliceEnd 2 6 false)) ∧
  (∀ iss w s, Allowed s .itu iss I.GNT_CTL_ABORT.addr true 0 → s.sliceRuns = true →
    exec (.gntCtlAbort iss w) s = .next ((s.sliceCompare w).sliceRestore 6)) ∧
  (∀ iss w s, Allowed s .itu iss I.GNT_CTL_ABORT.addr true 0 → s.ri I.GNT_STAT_STATE = 1 →
    exec (.gntCtlAbort iss w) s = .next s.gntIdle) ∧
  (∀ iss w s, Allowed s .itu iss I.GNT_CTL_ABORT.addr true 0 → s.ri I.GNT_STAT_STATE = 0 →
    exec (.gntCtlAbort iss w) s = .next s)

/-- Clauses of R319, R320, R332 to R334: packages are loaded, pushed and checked, and suspects are set, cleared and
retested. -/
def Obligations.PackagesAndSuspects : Prop :=
  (∀ h b n (s : State), s.isCrown = true → s.lam.gnt.retiring = none → s.lam.gnt.loading = none →
    exec (.gauntletLoad h b n) s = .next (State.lamReply ((s.setGntF
      { s.lam.gnt with loading := some (b % 2 ^ 64, n % 2 ^ 64), shadow := none }).wl L.GNTF_STAT_SHADOW 1) { h with opcode := 0x38 } {})) ∧
  (∀ h b n (s : State), s.isCrown = true → s.lam.gnt.retiring ≠ none ∨ s.lam.gnt.loading ≠ none →
    exec (.gauntletLoad h b n) s = .next (s.lamReply { h with opcode := 0x38 } { status := St.busy })) ∧
  (∀ h b n (s : State), s.isCrown = false →
    exec (.gauntletLoad h b n) s = .next (s.lamReply { h with opcode := 0x38 } { status := St.badTarget })) ∧
  (∀ h off n bs (s : State), s.role = 0 → s.lam.gnt.retiring = none → off < 2 ^ 28 → n ≤ bs.length → off + n ≤ 2 ^ 28 →
    ∃ u : State, exec (.gntPush h off n bs) s = .next (u.lamReply { h with opcode := 0x39 } {}) ∧
      u.rl L.GNTF_STAT_SHADOW = 1 ∧ u.rl L.GNTF_PKG_SHADOW_ID = 0 ∧
      u.lam.ddr = (s.ddrPut (s.storeHalf s.lam.gnt.freeHalf + off) ((bs.map (· % 256)).take n)).lam.ddr ∧ u.itu = s.itu) ∧
  (∀ h off n bs (s : State), s.role = 0 → s.lam.gnt.retiring ≠ none →
    exec (.gntPush h off n bs) s = .next (s.lamReply { h with opcode := 0x39 } { status := St.busy })) ∧
  (∀ p b n (s : State), s.lam.gnt.loading = some (b, n) → s.pkgStatus b n p = 1 → s.isCrown = false →
    Completes (.packageCheckDone p) s fun t => t.rl L.GNTF_STAT_SHADOW = 2 ∧ t.rl L.GNTF_STAT_LOAD_STATUS = 1 ∧
      t.lam.gnt.loading = none ∧ t.lam.gnt.shadow = some ⟨s.imgAt b n, s.lam.gnt.freeHalf⟩ ∧ t.itu = s.itu) ∧
  (∀ p b n (s : State), s.lam.gnt.loading = some (b, n) → s.pkgStatus b n p ≠ 1 → exec (.packageCheckDone p) s = .next
    (((s.wl L.GNTF_STAT_LOAD_STATUS (s.pkgStatus b n p)).setGntF { s.lam.gnt with loading := none, shadow := none }).wl
      L.GNTF_STAT_SHADOW 3)) ∧
  (∀ p (s : State), s.lam.gnt.loading = none → exec (.packageCheckDone p) s = .next s) ∧
  (∀ h q e (s : State), s.role = 0 → ∃ u : State, exec (.gntSuspect h q e) s = .next (u.lamReply { h with opcode := 0x3C } {}) ∧
    u.rl L.OBS_SUSPECT (q % 16) = b2n (Susp.ofWords e).suspect ∧ u.rl L.OBS_TBIN (q % 16) = (Susp.ofWords e).tbin ∧
    u.rl L.OBS_LOAD (q % 16) = (Susp.ofWords e).load ∧ u.rl L.OBS_PASSES (q % 16) = (Susp.ofWords e).passes ∧
    ((Susp.ofWords e).suspect = false → u.rl L.OBS_DUE (q % 16) = 0) ∧ u.itu = s.itu) ∧
  (∀ h q e (s : State), s.role ≠ 0 →
    exec (.gntSuspect h q e) s = .next (s.lamReply { h with opcode := 0x3C } { status := St.badTarget })) ∧
  (∀ q (s : State) l f, (s.gport q).retest = some l → (s.gport q).firstLaunch = some f →
    f + s.rl L.GNTF_CFG_RETEST_STEPS < s.rl L.GNTF_STEP q → exec (.retestAbandon q) s = .next
      ((s.setGport q { s.gport q with retest := none, firstLaunch := none }).wl L.OBS_DUE 1 q)) ∧
  (∀ q (s : State), (s.gport q).retest = none → exec (.retestAbandon q) s = .next s) ∧
  (∀ h tb ld (s : State), s.isCrown = true → exec (.suspectSet h tb ld) s = .next
    ((s.markSuspect (h.target % 2 ^ 17) 6 (tb % 64) (ld % 16)).lamReply { h with opcode := 0x3D } {})) ∧
  (∀ h tb ld (s : State), s.isCrown = false →
    exec (.suspectSet h tb ld) s = .next (s.lamReply { h with opcode := 0x3D } { status := St.badTarget })) ∧
  (∀ h (s : State), s.isCrown = true → (s.susp (h.target % 2 ^ 17)).suspect = true → exec (.suspectClear h) s = .next
    ((s.clearSuspect (h.target % 2 ^ 17) 6).lamReply { h with opcode := 0x3E } {})) ∧
  (∀ h (s : State), s.isCrown = true → (s.susp (h.target % 2 ^ 17)).suspect = false →
    exec (.suspectClear h) s = .next (s.lamReply { h with opcode := 0x3E } {}))

/-- Clauses of R206 to R210, R219 to R223: inputs join reduction cells, and cells close. -/
def Obligations.ReductionCellsTakeInputsAndClose : Prop :=
  (∀ e r p (s : State), s.role ≠ 0 → r.typ = 0x011 ∨ r.typ = 0x012 → exec (.partialArrival e r p) s = .next (s.partialRx e r p)) ∧
  (∀ e r p (s : State), s.role = 0 → exec (.partialArrival e r p) s = .next s) ∧
  (∀ e r (s : State), s.statOn = true → partialFits (s.redSpec (bits (nth r.body 0) 0 9) (envTime e r)) r = false →
    s.partialRx e r false = (s.il L.STAT_CNT_SPEC).miss (srcOf e r) missSpec 0
      ((headPartial r (s.rl L.CFG_EPOCH)).nIn + (headPartial r (s.rl L.CFG_EPOCH)).nNan)) ∧
  (∀ (s : State) c l d, s.statOn = true → s.now .lam ≤ s.cellEnd c.t → s.findCell c.spec c.gid c.t = some d →
    d.ins.find? (fun x => x.leaf == l.leaf) = none →
    s.cellInput c l = (s.putCell { d with ins := d.ins ++ [l] }).il L.STAT_CNT_UPD) ∧
  (∀ (s : State) c l d x, s.statOn = true → s.now .lam ≤ s.cellEnd c.t → s.findCell c.spec c.gid c.t = some d →
    d.ins.find? (fun x => x.leaf == l.leaf) = some x → x.scalar = true → l.scalar = true → s.cellInput c l = s.il L.STAT_CNT_DUP) ∧
  (∀ (s : State) c l, s.statOn = true → s.now .lam ≤ s.cellEnd c.t → s.findCell c.spec c.gid c.t = none → s.cellRoom c = true →
    s.cellInput c l = (s.putCell { c with ins := [l] }).il L.STAT_CNT_UPD) ∧
  (∀ (s : State) c l, s.statOn = true → s.now .lam ≤ s.cellEnd c.t → s.findCell c.spec c.gid c.t = none → s.cellRoom c = false →
    s.cellInput c l = ((s.wl L.STAT_STAT_NOCELL 1).il L.STAT_CNT_NOCELL l.count).miss l.src missNocell 0 l.count) ∧
  (∀ (s : State) c l, s.statOn = true → s.cellEnd c.t < s.now .lam →
    s.cellInput c l = (s.il L.STAT_CNT_LATE).miss l.src missLate ((s.now .lam - c.t - 50000000) / 1000) l.count) ∧
  (∀ i g t p l (s : State) c, s.findCell i g t = some c → s.cellEnd t ≤ s.now .lam → s.statOn = true →
    exec (.statCellClose i g t p l) s = .next (s.closeCell c p l)) ∧
  (∀ (s : State) c, (s.closeCell c true []).rl L.STAT_STAT_POISON = 1 ∧
    (s.closeCell c true []).lam.cells = s.lam.cells.filter (fun d => !(d.spec == c.spec && d.gid == c.gid && d.t == c.t)) ∧
    (s.closeCell c true []).itu = s.itu) ∧
  (∀ i g t p l (s : State), s.findCell i g t = none ∨ s.now .lam < s.cellEnd t → exec (.statCellClose i g t p l) s = .next s)

/-- Clauses of R228 to R235, R243: barrier cells, their references, and the straggler state of a port. -/
def Obligations.BarrierCellsAndStragglers : Prop :=
  (∀ e r (s : State), s.role ≠ 0 → r.typ = 0x061 → s.stragOn = true → exec (.barPartialArrival e r) s = .next
    (s.barMerge (bits (nth r.body 0) 16 7) (bits (nth r.body 0) 0 16) (s.childLeaf r.die) (Bar.ofWords r.body) (srcOf e r)).1) ∧
  (∀ e r (s : State), s.role = 0 ∨ s.stragOn = false → exec (.barPartialArrival e r) s = .next s) ∧
  (∀ (s : State) c k leaf b src x, s.findBar c k = some x → s.now .lam ≤ x.x + s.barClose →
    x.ins.any (fun i => i.1 == leaf) = true → s.barMerge c k leaf b src = (s.il L.STAT_CNT_DUP, false)) ∧
  (∀ (s : State) c k leaf b src, s.findBar c k = none → s.barClosed c k = false → s.now .lam ≤ b.xMin + s.barClose →
    s.cellsScalar < 4096 → s.barMerge c k leaf b src =
      ((s.putBar { cohort := c, coll := k, ins := [(leaf, b)] }).il L.STAT_CNT_UPD, true)) ∧
  (∀ a b : Bar, a.n ≠ 0 → b.n ≠ 0 → (a.merge b).n = a.n + b.n ∧ (a.merge b).eMin = min a.eMin b.eMin ∧
    (a.merge b).eMax = max a.eMax b.eMax ∧ (a.merge b).xMin = min a.xMin b.xMin ∧ (a.merge b).xMax = max a.xMax b.xMax ∧
    (a.merge b).e2nd = max (min a.eMax b.eMax) (max a.e2nd b.e2nd) ∧
    (a.merge b).arg = if b.eMax < a.eMax ∨ (a.eMax = b.eMax ∧ a.arg < b.arg) then a.arg else b.arg) ∧
  (∀ c k (s : State) x, s.findBar c k = some x → x.x + s.barClose ≤ s.now .lam → s.stragOn = true →
    exec (.barrierCellClose c k) s = .next (s.closeBar x)) ∧
  (∀ c k (s : State), s.findBar c k = none → exec (.barrierCellClose c k) s = .next s) ∧
  (∀ (s : State) c, (s.closeBar c).lam.barCells = s.lam.barCells.filter (fun d => !(d.cohort == c.cohort && d.coll == c.coll)) ∧
    (c.cohort, c.coll, s.lam.clk.ns) ∈ (s.closeBar c).lam.barDone ∧ (s.closeBar c).itu = s.itu) ∧
  (∀ h w (s : State), s.role = 0 → s.pdOn 15 = true → s.stragOn = true →
    exec (.barRef h w) s = .next ((s.barRef w).lamReply { h with opcode := 0x28 } {})) ∧
  (∀ h w (s : State), s.role = 0 → s.pdOn 15 = true → s.stragOn = false → exec (.barRef h w) s = .next (s.lamReply { h with opcode := 0x28 } {})) ∧
  (∀ h w (s : State), s.role ≠ 0 → exec (.barRef h w) s = .next (s.lamReply { h with opcode := 0x28 } { status := St.badTarget })) ∧
  (∀ h w (s : State), s.role = 0 → s.pdOn 15 = false → exec (.barRef h w) s = .next (s.lamReply { h with opcode := 0x28 } { status := St.domainOff })) ∧
  (∀ (s : State) t, t.scored < s.rl L.STRAG_CFG_K t.cohort → s.stragEval t = (t.cause, 0)) ∧
  (∀ q (s : State), q < 16 → (s.det q).strag.state = 2 ∨ (s.det q).strag.state = 3 → (s.det q).saidMc + 3000 ≤ s.mc .lam →
    Completes (.stragVerdictRepeat q) s fun t => (t.det q).saidMc = s.mc .lam ∧ (t.det q).strag = (s.det q).strag ∧ t.itu = s.itu) ∧
  (∀ q (s : State), 16 ≤ q ∨ s.mc .lam < (s.det q).saidMc + 3000 → exec (.stragVerdictRepeat q) s = .next s) ∧
  (∀ q (s : State), q < 16 → Completes (.pendingExpiry q) s fun t =>
    (t.det q).pend = (s.det q).pend.filter (fun p => decide (s.now .lam < p.x + s.rl L.DET_HOLD_MS * 1000000)) ∧ t.itu = s.itu) ∧
  (∀ q (s : State), 16 ≤ q → exec (.pendingExpiry q) s = .next s) ∧
  (∀ h w (s : State), s.role = 0 → s.pdOn 15 = true → exec (.qref h w) s = .next ((s.qref w).lamReply { h with opcode := 0x29 } {})) ∧
  (∀ (s : State) w, ∃ x, (s.qref w).lam.qrefs =
      s.lam.qrefs.filter (fun y => !(y.set == x.set && y.cohort == x.cohort)) ++ [x] ∧ x.set = bits (nth w 0) 0 6 ∧
      x.cohort = bits (nth w 0) 6 7 ∧ x.mc = nth w 1 ∧ x.q25 = nth w 4 ∧ x.q50 = nth w 5 ∧ x.q75 = nth w 6 ∧
      (s.qref w).itu = s.itu) ∧
  (∀ h w (s : State), s.role ≠ 0 → exec (.qref h w) s = .next (s.lamReply { h with opcode := 0x29 } { status := St.badTarget })) ∧
  (∀ h w (s : State), s.role = 0 → s.pdOn 15 = false → exec (.qref h w) s = .next (s.lamReply { h with opcode := 0x29 } { status := St.domainOff }))

/-- Clauses of R344 to R347, R352, R354: the ledger's messages are taken, answered, divided and written off. -/
def Obligations.LedgerNodesTakeReportsAndFills : Prop :=
  (∀ q w (s : State), ldgIs w 1 8 = true → s.role = 0 → s.ldgOn = false → Completes (.ldgReportRx q w) s fun t =>
    t.rl L.LDGF_PORT_LEVEL (q % 16) = bits (nth w 1) 0 16 ∧ t.rl L.LDGF_PORT_TOK_UP (q % 16) = bits (nth w 4) 0 8 ∧
    t.rl L.LDGF_PORT_TOK_DN (q % 16) = bits (nth w 4) 8 8 ∧ t.rl L.LDGF_PORT_LIVE (q % 16) = b2n (bits (nth w 5) 0 2 == 1) ∧
    (t.ldgPort (q % 16)).rep = w ∧ t.itu = s.itu) ∧
  (∀ q w (s : State), ldgIs w 1 8 = true → s.role = 0 → s.ldgOn = true → Completes (.ldgReportRx q w) s fun t =>
    t.rl L.LDGF_PORT_LEVEL (q % 16) = bits (nth w 1) 0 16 ∧
    (t.ldgPort (q % 16)).seq = ((s.ldgPort (q % 16)).seq + 1) % 65536 ∧ t.itu = s.itu) ∧
  (∀ q w (s : State), ldgIs w 1 8 = false → exec (.ldgReportRx q w) s = .next (s.il L.LDGF_CNT_MSG_BAD)) ∧
  (∀ q w (s : State), ldgIs w 1 8 = true → s.role ≠ 0 → exec (.ldgReportRx q w) s = .next s) ∧
  (∀ w (s : State), ldgIs w 3 4 = true → s.role ≠ 3 → s.ldgOn = true → nth w 3 = s.mc32 .lam →
    s.lam.ldg.divMc ≠ some (s.mc .lam) → exec (.ldgFillRx w) s = .next
      ((s.ldgAdd (nth w 1) (nth w 2)).setLdg { (s.ldgAdd (nth w 1) (nth w 2)).lam.ldg with fillSeq := ldgSeq w }).ldgDivide) ∧
  (∀ w (s : State), ldgIs w 3 4 = true → s.role ≠ 3 → s.ldgOn = true → nth w 3 ≠ s.mc32 .lam → exec (.ldgFillRx w) s = .next
      ((s.ldgAdd (nth w 1) (nth w 2)).setLdg { (s.ldgAdd (nth w 1) (nth w 2)).lam.ldg with fillSeq := ldgSeq w }).ldgRefresh) ∧
  (∀ w (s : State), ldgIs w 3 4 = false → exec (.ldgFillRx w) s = .next (s.il L.LDGF_CNT_MSG_BAD)) ∧
  (∀ w (s : State), ldgIs w 3 4 = true → s.role = 3 ∨ s.ldgOn = false → exec (.ldgFillRx w) s = .next s) ∧
  (∀ (s : State) up dn, s.rl L.LDGF_LEVEL_UP + up ≤ s.rl L.LDGF_BURST_UP → s.rl L.LDGF_LEVEL_DN + dn ≤ s.rl L.LDGF_BURST_DN →
    s.rl L.LDGF_BURST_UP < 2 ^ 32 → s.rl L.LDGF_BURST_DN < 2 ^ 32 → s.rl L.LDGF_CNT_FORFEIT_W < 2 ^ 32 →
    (s.ldgAdd up dn).rl L.LDGF_LEVEL_UP = s.rl L.LDGF_LEVEL_UP + up ∧ (s.ldgAdd up dn).rl L.LDGF_LEVEL_DN = s.rl L.LDGF_LEVEL_DN + dn ∧
    (s.ldgAdd up dn).rl L.LDGF_CNT_FORFEIT_W = s.rl L.LDGF_CNT_FORFEIT_W) ∧
  (∀ p w (s : State), ldgIs w 4 14 = true → s.role ≠ 0 → s.ldgOn = true → Completes (.ldgSumRx p w) s fun t =>
    (∃ c ∈ t.lam.ldg.kids, c.port = p ∧ c.sum = w ∧ c.sumMc = s.mc .lam ∧ c.lostMc = none) ∧
    t.lam.ldg.kids.filter (fun k => k.port != p) = s.lam.ldg.kids.filter (fun k => k.port != p) ∧ t.itu = s.itu) ∧
  (∀ p w (s : State), ldgIs w 4 14 = false → exec (.ldgSumRx p w) s = .next (s.il L.LDGF_CNT_MSG_BAD)) ∧
  (∀ p w (s : State), ldgIs w 4 14 = true → s.role = 0 ∨ s.ldgOn = false → exec (.ldgSumRx p w) s = .next s) ∧
  (∀ c m (s : State), s.role = 0 → (s.ldgPort c).lostMc = some m → m + s.rl L.LDGF_DIE_STRAND_MC ≤ s.mc .lam →
    Completes (.strandExpiry c) s fun t => (t.ldgPort c).lostMc = none ∧ (t.ldgPort c).pend = [] ∧
      (∀ k, k ≠ c → t.ldgPort k = s.ldgPort k) ∧ t.itu = s.itu) ∧
  (∀ c m (s : State), s.role = 0 → (s.ldgPort c).lostMc = some m → s.mc .lam < m + s.rl L.LDGF_DIE_STRAND_MC →
    exec (.strandExpiry c) s = .next s) ∧
  (∀ c (s : State), s.role = 0 → (s.ldgPort c).lostMc = none → exec (.strandExpiry c) s = .next s) ∧
  (∀ (s : State) a, s.lam.mains.cur = some a → s.role ≠ 3 → s.ldgOn = true → s.lam.ldg.divMc ≠ some (s.mc .lam) →
    a.startNs + 4000000 ≤ s.lam.clk.ns → exec .fillWaitTimeout s = .next s.ldgDivide) ∧
  (∀ (s : State) a, s.lam.mains.cur = some a → s.lam.clk.ns < a.startNs + 4000000 → exec .fillWaitTimeout s = .next s) ∧
  (∀ (s : State), s.role = 0 → s.ldgDivide.lam.ldg.divMc = some (s.mc .lam) ∧
    s.ldgDivide.lam.ldg.shareUp = (if (s.lam.ldg.ports.filter LdgPort.live).length = 0 then 0
      else s.rl L.LDGF_LEVEL_UP / (s.lam.ldg.ports.filter LdgPort.live).length) ∧ s.ldgDivide.itu = s.itu)

/-- Clauses of R261 to R263, R267, R269, R271, R273 to R276: passes of the forest engine, its vectors, faults, loads
and banks. -/
def Obligations.ForestPassesFaultsAndLoads : Prop :=
  (∀ i (s : State) v l, i < 64 → s.lam.fst.run = none → s.nextSeg.1 = some i → (s.fslot i).pass = none → s.batch i = v :: l →
    Completes (.forestPassStart i) s fun t => t.lam.fst.run = some i ∧ t.lam.fst.last = i ∧
      (t.fslot i).pass = some { vecs := v :: l, swaps := v.swaps } ∧
      (t.fslot i).queue = (s.nextSeg.2.fslot i).queue.drop (l.length + 1) ∧ t.itu = s.itu ∧ t.lam.regs = s.lam.regs) ∧
  (∀ i (s : State), 64 ≤ i ∨ s.lam.fst.run ≠ none ∨ (s.fslot i).pass ≠ none → exec (.forestPassStart i) s = .next s) ∧
  (∀ i c (s : State) p, (s.fslot i).pass = some p → s.lam.fst.run = some i → ∃ u : State,
    exec (.forestSegmentEnd i c) s = .next u.pickSeg ∧ (u.fslot i).pass = some { p with done := p.done + 1 } ∧
    (u.fslot i).deficit = (s.fslot i).deficit - c ∧ u.lam.fst.run = none ∧ u.lam.regs = s.lam.regs) ∧
  (∀ i c (s : State), (s.fslot i).pass = none ∨ s.lam.fst.run ≠ some i → exec (.forestSegmentEnd i c) s = .next s) ∧
  (∀ i (s : State) p b, (s.fslot i).pass = some p → s.fbank i p.swaps = some b → b.segs ≤ p.done → s.treesClean i b = true →
    ∃ u : State, u = p.vecs.foldl (fun t x => t.scoreVec i b (s.imgAt b.base b.img.length != b.img) x) s ∧
      exec (.forestPassEnd i) s = .next (u.setFslot i { u.fslot i with pass := none }).pickSeg) ∧
  (∀ i (s : State), (s.fslot i).pass = none → exec (.forestPassEnd i) s = .next s) ∧
  (∀ i (s : State), Completes (.vectorAgeOut i) s fun t =>
    (t.fslot i).queue = (s.fslot i).queue.filter (fun v =>
      decide (s.lam.clk.ns ≤ v.t + s.rl L.FST_SLOT_AGE_MAX_AGE_MS i * 1000000)) ∧ t.itu = s.itu) ∧
  (∀ i k (s : State), i < 64 → k < 3 → s.rl L.FST_SLOT_STAT_STATE i = 1 ∨ s.rl L.FST_SLOT_STAT_STATE i = 2 →
    Completes (.forestFault i k) s fun t => t.rl L.FST_SLOT_STAT_STATE i = 3 ∧ t.rl L.FST_STAT_FAULT = 1 ∧
      (t.fslot i).pass = none ∧ (t.fslot i).queue = [] ∧ (t.fslot i).retiring = none ∧ (t.fslot i).active = (s.fslot i).active ∧
      t.itu = s.itu) ∧
  (∀ i k (s : State), s.rl L.FST_SLOT_STAT_STATE i = 0 ∨ s.rl L.FST_SLOT_STAT_STATE i = 3 → exec (.forestFault i k) s = .next s) ∧
  (∀ iss v s, Allowed s .lam iss L.FST_RESUME_SLOT.addr true 3 → s.rl L.FST_SLOT_STAT_STATE (v % 64) = 2 →
    exec (.fstResumeWrite iss v) s = .next ((s.wl L.FST_SLOT_STAT_STATE 1 (v % 64)).forestEvent (v % 64) 4 0 0 0)) ∧
  (∀ iss v s, Allowed s .lam iss L.FST_RESUME_SLOT.addr true 3 → s.rl L.FST_SLOT_STAT_STATE (v % 64) ≠ 2 →
    exec (.fstResumeWrite iss v) s = .next s) ∧
  (∀ iss v s, Allowed s .lam iss L.FST_CTL_QUARTERS.addr true 3 → s.rl L.FST_CTL_ENABLE = 0 → s.openPasses = 0 →
    (∀ n, n < 4 → s.pinnedIn n = false) →
    exec (.fstCtlQuartersWrite iss v) s = .next (s.wl L.FST_CTL_QUARTERS (v % 16)).pdRetarget) ∧
  (∀ iss v s, Allowed s .lam iss L.FST_CTL_QUARTERS.addr true 3 → s.rl L.FST_CTL_ENABLE ≠ 0 ∨ s.openPasses ≠ 0 →
    exec (.fstCtlQuartersWrite iss v) s = .next s) ∧
  (∀ h i b n (s : State), s.forestOn = true → (s.fslot (i % 64)).retiring = none → (s.fslot (i % 64)).loading = none →
    exec (.forestLoad h i b n) s = .next (State.lamReply (((s.setFslot (i % 64)
      { s.fslot (i % 64) with shadow := none, loading := some (b % 2 ^ 64, n % 2 ^ 64) }).wl L.FST_SLOT_STAT_SHADOW 1 (i % 64)).wl
        L.FST_SLOT_MODEL_SHADOW 0 (i % 64)) { h with opcode := 0x30 } {})) ∧
  (∀ h i b n (s : State), s.forestOn = true → (s.fslot (i % 64)).retiring ≠ none ∨ (s.fslot (i % 64)).loading ≠ none →
    exec (.forestLoad h i b n) s = .next (s.lamReply { h with opcode := 0x30 } { status := St.busy })) ∧
  (∀ h i b n (s : State), s.forestOn = false →
    exec (.forestLoad h i b n) s = .next (s.lamReply { h with opcode := 0x30 } { status := St.domainOff })) ∧
  (∀ i p (s : State) b n, i < 64 → (s.fslot i).loading = some (b, n) → s.loadStatus b n p = 1 →
    Completes (.forestLoadDone i p) s fun t =>
      t.rl L.FST_SLOT_STAT_SHADOW i = 2 ∧ t.rl L.FST_SLOT_STAT_LOAD_STATUS i = 1 ∧ (t.fslot i).loading = none ∧
      (∃ x, (t.fslot i).shadow = some x ∧ x.img = s.imgAt b n ∧ x.base = b) ∧ (t.fslot i).active = (s.fslot i).active ∧ t.itu = s.itu) ∧
  (∀ i p (s : State) b n, (s.fslot i).loading = some (b, n) → s.loadStatus b n p ≠ 1 →
    exec (.forestLoadDone i p) s = .next (((s.wl L.FST_SLOT_STAT_LOAD_STATUS (s.loadStatus b n p) i).setFslot i
      { s.fslot i with loading := none, shadow := none }).wl L.FST_SLOT_STAT_SHADOW 3 i)) ∧
  (∀ i p (s : State), (s.fslot i).loading = none → exec (.forestLoadDone i p) s = .next s) ∧
  (∀ i (s : State), (s.fslot i).retiring ≠ none → s.retiringIdle i = true → exec (.forestBankRelease i) s = .next
    (s.setFslot i { s.fslot i with retiring := none }).repin) ∧
  (∀ i (s : State), (s.fslot i).retiring = none ∨ s.retiringIdle i = false → exec (.forestBankRelease i) s = .next s)

/-- Clauses of R260 to R262: a verdict state meets its vector, and each output is tested with hysteresis and
confirmation. Clauses of R110 to R117: trackers are updated, kept in memory, copied and assigned. -/
def Obligations.VerdictStatesAndTrackers : Prop :=
  (∀ (v : VState) x, v.valid = true → v.gen = x.gen → v.swaps = x.swaps → v.bound = x.bind.bound → v.rank = x.bind.rank → v.meet x = v) ∧
  (∀ (v : VState) x, v.valid = false ∨ v.gen ≠ x.gen ∨ v.swaps ≠ x.swaps ∨ v.bound ≠ x.bind.bound ∨ v.rank ≠ x.bind.rank →
    (v.meet x).flag = 0 ∧ (v.meet x).cnt = [0, 0, 0, 0] ∧ (v.meet x).valid = true ∧ (v.meet x).gen = x.gen ∧ (v.meet x).swaps = x.swaps) ∧
  (∀ (v : VState) b confirm o x, bitAt v.flag o = false → f32.le (nth b.on o) x = true → confirm ≤ min (nth v.cnt o + 1) 15 →
    v.test b confirm o x = ({ v with flag := v.flag ^^^ 2 ^ o, cnt := setNth 0 v.cnt o 0 }, true)) ∧
  (∀ (v : VState) b confirm o x, bitAt v.flag o = true → f32.lt x (nth b.off o) = true → confirm ≤ min (nth v.cnt o + 1) 15 →
    v.test b confirm o x = ({ v with flag := v.flag ^^^ 2 ^ o, cnt := setNth 0 v.cnt o 0 }, true)) ∧
  (∀ (v : VState) b confirm o x, bitAt v.flag o = false → f32.le (nth b.on o) x = false →
    v.test b confirm o x = ({ v with cnt := setNth 0 v.cnt o 0 }, false)) ∧
  (∀ (v : VState) b confirm o x, bitAt v.flag o = false → f32.le (nth b.on o) x = true → min (nth v.cnt o + 1) 15 < confirm →
    v.test b confirm o x = ({ v with cnt := setNth 0 v.cnt o (min (nth v.cnt o + 1) 15) }, false)) ∧
  (∀ k, rescored 0 k = false) ∧
  (∀ j p (s : State) u, s.lam.virtQ.find? (fun u => u.j == j) = some u → s.lam.clk.ns ≤ u.slotEnd →
    exec (.virtualHeadArrival j p) s = .next
      (({ s with lam := { s.lam with virtQ := s.lam.virtQ.erase u } } : State).virtApply u
        (p || s.lam.poison.contains (s.virtAddr j / 64)))) ∧
  (∀ j p (s : State), s.lam.virtQ.find? (fun u => u.j == j) = none → exec (.virtualHeadArrival j p) s = .next s) ∧
  (∀ (s : State) u, (s.virtApply u true).rl L.TRK_STAT_POISON = 1 ∧ (s.virtApply u true).itu = s.itu) ∧
  (∀ iss i s, Allowed s .lam iss L.TRK_SNAP_CMD.addr true 0 → i < 65536 → Completes (.trkSnapCmdWrite iss i) s fun t =>
    t.lam.trkSnap = (s.trkAt i).words ∧ t.rl L.TRK_SNAP_STAT_DONE = 1 ∧ t.rl L.TRK_SNAP_STAT_BAD_IDX = 0 ∧ t.itu = s.itu) ∧
  (∀ iss i s, Allowed s .lam iss L.TRK_SNAP_CMD.addr true 0 → i < 2 ^ 21 → s.trkInUse i = false →
    Completes (.trkSnapCmdWrite iss i) s fun t =>
      t.lam.trkSnap = List.replicate 96 0 ∧ t.rl L.TRK_SNAP_STAT_DONE = 1 ∧ t.rl L.TRK_SNAP_STAT_BAD_IDX = 1 ∧ t.itu = s.itu) ∧
  (∀ h i d c (s : State), i < 65536 → d < 2 ^ 17 → c < 4096 → exec (.trkAssign h i d c false) s = .next
    ((s.setTrk i { die := d, counter := c, valid := true }).lamReply { h with opcode := 0x22 } {})) ∧
  (∀ h i d c (s : State), i < 65536 → exec (.trkAssign h i d c true) s = .next
    ((s.setTrk i { s.trkAt i with valid := false }).lamReply { h with opcode := 0x22 } {})) ∧
  (∀ h i d c f (s : State), i < 2 ^ 21 → s.trkInUse i = false → exec (.trkAssign h i d c f) s = .next
    (s.lamReply { h with opcode := 0x22 } { status := St.badParam })) ∧
  (∀ (t : Tracker) i, bitAt i.x 49 = true → t.update i = (t, .invalid)) ∧
  (∀ (t : Tracker) i, bitAt i.x 49 = false → t.valid = false ∨ t.unused = true ∨ bitAt i.x 48 = true ∨ i.gen ≠ t.gen →
    (t.update i).2 = .restarted ∧ (t.update i).1.lastVal = i.x % 2 ^ 48 ∧ (t.update i).1.lastTime = i.full ∧
    (t.update i).1.lastCyc = i.cyc ∧ (t.update i).1.warm = 0 ∧ (t.update i).1.discont = true ∧ (t.update i).1.total = 0 ∧
    (t.update i).1.detect = List.replicate 16 0 ∧ (t.update i).1.gen = i.gen) ∧
  (∀ (t : Tracker) i, bitAt i.x 49 = false → t.valid = true → t.unused = false → bitAt i.x 48 = false → i.gen = t.gen →
    i.full ≤ t.lastTime → t.lastTime < i.full + 2 ^ 63 → t.update i = (t, .old)) ∧
  (∀ (t : Tracker) i, bitAt i.x 49 = false → t.valid = true → t.unused = false → bitAt i.x 48 = false → i.gen = t.gen →
    t.lastTime < i.full → i.full ≤ t.lastTime + 2000000000 → t.lastVal < 2 ^ 48 → t.lastVal ≤ i.x % 2 ^ 48 → i.bind = t.bind →
    (t.update i).2 = .interval (i.x % 2 ^ 48 - t.lastVal) ∧ (t.update i).1.total = (t.total + (i.x % 2 ^ 48 - t.lastVal)) % 2 ^ 64 ∧
    (t.update i).1.totalNs = (t.totalNs + (i.full - t.lastTime)) % 2 ^ 64 ∧ (t.update i).1.warm = min (t.warm + 1) 65535 ∧
    (t.update i).1.rate = fp32Quot ((i.x % 2 ^ 48 - t.lastVal) * 1000000000) (i.full - t.lastTime) ∧
    (t.update i).1.discont = false)

/-- Clauses of R183 to R186: a link end trains, settles, negotiates and comes up. Clauses of R166, R184, R185: what
takes a link out of UP, and the state it then has. -/
def Obligations.LinkEndsTrainAndLeaveUp : Prop :=
  (∀ sd q (s : State), s.lkEnd sd q = true → s.lkState sd q = 0 → 1000000 ≤ s.lkFor sd q → sd = .itu ∨ s.rl L.LNK_CTL_ENABLE q = 1 →
    exec (.linkTrainStart sd q) s = .next (s.enterLk sd q 1)) ∧
  (∀ sd q (s : State), s.lkEnd sd q = false ∨ s.lkState sd q ≠ 0 ∨ s.lkFor sd q < 1000000 →
    exec (.linkTrainStart sd q) s = .next s) ∧
  (∀ q (s : State), s.rl L.LNK_CTL_ENABLE q = 0 → exec (.linkTrainStart .lam q) s = .next s) ∧
  (∀ q (s : State), s.lkState .itu q = 1 → exec (.blockLockAcquired .itu q) s = .next
    (((s.enterLk .itu q 2)).wi I.ILNK_STAT_LOS 0)) ∧
  (∀ q (s : State), s.lkEnd .lam q = true → s.lkState .lam q = 1 → exec (.blockLockAcquired .lam q) s = .next
    (((s.enterLk .lam q 2).wl L.LNK_STAT_LOS 0 q).wl L.LNK_STAT_BLOCK_LOCK 3 q)) ∧
  (∀ sd q (s : State), s.lkEnd sd q = true → s.lkState sd q = 1 → 50000000 ≤ s.lkFor sd q →
    exec (.trainTimeout sd q) s = .next (s.linkDown sd q 0)) ∧
  (∀ sd q (s : State), s.lkState sd q ≠ 1 → exec (.trainTimeout sd q) s = .next s ∧ exec (.blockLockAcquired sd q) s = .next s) ∧
  (∀ sd q (s : State), s.lkEnd sd q = true → s.lkState sd q = 2 → 1000000 ≤ s.lkFor sd q →
    exec (.settleEnd sd q) s = .next (s.enterLk sd q 3)) ∧
  (∀ sd q (s : State), s.lkState sd q ≠ 2 ∨ s.lkFor sd q < 1000000 → exec (.settleEnd sd q) s = .next s) ∧
  (∀ sd q v mx mn c (s : State), s.lkEnd sd q = true → s.lkState sd q = 3 → 2 ≤ mx → mx < 16 → mn ≤ min 3 mx → bitAt c 0 = true →
    Completes (.helloRx sd q v mx mn c) s fun t => (t.le sd q).agreed = some (min 3 mx, 0) ∧ t.now sd = s.now sd) ∧
  (∀ q v mx mn c (s : State), s.lkEnd .lam q = true → s.lkState .lam q = 3 → mx < 2 → Completes (.helloRx .lam q v mx mn c) s fun t =>
    (t.le .lam q).agreed = none ∧ t.rl L.LNK_STAT_NO_COMMON q = 1 ∧ t.rl L.LNK_PEER_MAX_FMT q = mx ∧ t.itu = s.itu) ∧
  (∀ sd q v mx mn c (s : State), s.lkState sd q ≠ 3 → exec (.helloRx sd q v mx mn c) s = .next s) ∧
  (∀ q f c v d (s : State), s.lkState .itu q = 3 → s.itu.link.readySent = true → s.itu.link.agreed = some (f, c) →
    ∃ u : State, exec (.readyRx .itu q f c v d) s = .next (u.after .itu) ∧ u.ri I.ILNK_STAT_STATE = 4 ∧
      u.itu.link = s.itu.link.up .itu s.itu.clk.ns (f, c) ∧ u.itu.txq.alive = List.replicate 8 0 ∧ u.lam = s.lam) ∧
  (∀ q f c v d (s : State), s.lkEnd .lam q = true → s.lkState .lam q = 3 → (s.port q).link.readySent = true →
    (s.port q).link.agreed = some (f, c) → Completes (.readyRx .lam q f c v d) s fun t =>
      t.rl L.LNK_STAT_STATE q = 4 ∧ (t.port q).link = (s.port q).link.up .lam s.lam.clk.ns (f, c) ∧ t.itu = s.itu) ∧
  (∀ sd q f c v d (s : State), s.lkState sd q ≠ 3 ∨ (s.le sd q).readySent = false ∨ (s.le sd q).agreed ≠ some (f, c) →
    exec (.readyRx sd q f c v d) s = .next s) ∧
  (∀ sd q (s : State), s.lkEnd sd q = true → s.lkState sd q = 3 → 10000000 ≤ s.lkFor sd q →
    exec (.negotiateTimeout sd q) s = .next (s.linkDown sd q 7 true)) ∧
  (∀ sd q (s : State), s.lkState sd q ≠ 3 ∨ s.lkFor sd q < 10000000 → exec (.negotiateTimeout sd q) s = .next s) ∧
  (∀ sd q l (s : State), s.lkEnd sd q = true → exec (.lossOfSignal sd q l) s = .next
    ((s.lw sd q I.ILNK_STAT_LOS L.LNK_STAT_LOS (setBits (s.lr sd q I.ILNK_STAT_LOS L.LNK_STAT_LOS) (l % 2) 1 1)).leaveUp sd q (l % 2))) ∧
  (∀ q l (s : State), exec (.blockLockLoss .itu q l) s = .next (s.leaveUp .itu q 2)) ∧
  (∀ q l (s : State), s.lkEnd .lam q = true → exec (.blockLockLoss .lam q l) s = .next
    ((s.wl L.LNK_STAT_BLOCK_LOCK (setBits (s.rl L.LNK_STAT_BLOCK_LOCK q) (l % 2) 1 0) q).leaveUp .lam q 2)) ∧
  (∀ sd q (s : State), s.lkEnd sd q = true → 1000000 ≤ s.now sd - (s.le sd q).lastBlock →
    exec (.noValidBlockTimeout sd q) s = .next (s.leaveUp sd q 5)) ∧
  (∀ sd q (s : State), s.now sd - (s.le sd q).lastBlock < 1000000 → exec (.noValidBlockTimeout sd q) s = .next s) ∧
  (∀ sd q k (s : State), s.lkEnd sd q = true → s.lkState sd q = 4 → k ≤ 32 → exec (.alignRx sd q k true) s = .next
    ((s.lkBlock sd q).setLe sd q { (s.lkBlock sd q).le sd q with alignMiss := 0 })) ∧
  (∀ sd q k (s : State), s.lkEnd sd q = true → s.lkState sd q = 4 → 32 < k →
    exec (.alignRx sd q k true) s = .next ((s.lkBlock sd q).leaveUp sd q 3)) ∧
  (∀ sd q k (s : State), s.lkEnd sd q = true → s.lkState sd q = 4 → 2 ≤ ((s.lkBlock sd q).le sd q).alignMiss →
    exec (.alignRx sd q k false) s = .next ((s.lkBlock sd q).leaveUp sd q 3)) ∧
  (∀ sd q k p (s : State), s.lkState sd q ≠ 4 → exec (.alignRx sd q k p) s = .next s) ∧
  (∀ iss q s, Allowed s .lam iss (L.LNK_CTL_RETRAIN.addr + 0x1000 * q) true 0 → s.lkEnd .lam q = true →
    exec (.lnkCtlRetrain iss q) s = .next (s.leaveUp .lam q 6)) ∧
  (∀ iss s, Allowed s .itu iss I.ILNK_CTL_RETRAIN.addr true 0 → exec (.ilnkCtlRetrain iss) s = .next (s.leaveUp .itu 0 6)) ∧
  (∀ iss q s, Allowed s .lam iss (L.LNK_CTL_ENABLE.addr + 0x1000 * q) true 0 → s.lkEnd .lam q = true → s.rl L.LNK_CTL_ENABLE q = 0 →
    exec (.lnkCtlEnableWrite iss q true) s = .next ((s.wl L.LNK_CTL_ENABLE 1 q).setLe .lam q
      { s.le .lam q with downFrom := s.now .lam, negoSaid := false })) ∧
  (∀ sd q k (s : State), s.lkState sd q ≠ 4 → s.leaveUp sd q k = s) ∧
  (∀ sd q k (s : State), s.lkState sd q = 4 → s.leaveUp sd q k = s.linkDown sd q k) ∧
  (∀ q k (s : State), q < 16 → s.rl L.LNK_STAT_STATE q = 4 → (s.linkDown .lam q k).rl L.LNK_STAT_STATE q = 0 ∧
    (s.linkDown .lam q k).rl L.LNK_STAT_FMT q = 0 ∧ (s.linkDown .lam q k).rl L.LNK_STAT_PORT q = 0 ∧
    (s.linkDown .lam q k).rl L.LNK_STAT_UNOBSERVED q = 1 ∧ (s.linkDown .lam q k).rl L.LNK_STAT_DOWN_CAUSE q = k % 2 ^ L.LNK_STAT_DOWN_CAUSE.width ∧
    ((s.linkDown .lam q k).port q).link.got = (s.port q).link.got ∧ ((s.linkDown .lam q k).port q).link.unacked = [] ∧
    (s.linkDown .lam q k).itu = s.itu)

/-- Clauses of R167 to R174: cells and link blocks are sent, checked, accepted, acknowledged and sent again. Clauses
of R47, R106, R170, R171, R175, R187: NAK, ACK and CREDIT blocks received, and records handed to the link. -/
def Obligations.CellsBlocksAndHandover : Prop :=
  (∀ sd q (s : State), s.lkEnd sd q = true → s.lkState sd q = 4 → exec (.cellTx sd q) s = .next (s.cellTx sd q)) ∧
  (∀ sd q (s : State), s.lkEnd sd q = false ∨ s.lkState sd q ≠ 4 → exec (.cellTx sd q) s = .next s) ∧
  (∀ sd q (s : State) o, (s.le sd q).timeCell = some o →
    s.cellTx sd q = s.setLe sd q { s.le sd q with timeCell := none, wire := o }) ∧
  (∀ q (s : State) v, s.itu.link.timeCell = none → s.itu.link.mainsCells = [] → s.linkDue .itu q = none → s.itu.link.replay = [] →
    s.itu.link.unacked.length < 512 → s.ri I.ILNK_STAT_FMT = 3 →
    (vcOrder .itu).find? (fun v => decide ((s.itu.link.tx.getD v {}).items ≠ []) && (s.itu.link.tx.getD v {}).may) = some v →
    s.cellTx .itu q = s.setLe .itu q (s.itu.link.newCell v)) ∧
  (∀ sd q k v (s : State), s.lkEnd sd q = true → s.lkState sd q = 4 → (s.le sd q).withhold = none → v < 8 → k = 1 →
    exec (.linkBlockTx sd q k v) s = .next
      (s.setLe sd q ((s.le sd q).linkSent (1 ||| v <<< 4 ||| ((s.le sd q).rx.getD v {}).freed % 4096 <<< 8)))) ∧
  (∀ sd q v (s : State), s.lkEnd sd q = true → s.lkState sd q = 4 → exec (.linkBlockTx sd q 2 v) s = .next
    (s.setLe sd q ((s.le sd q).linkSent (2 ||| ((s.le sd q).rxSeq + 4095) % 4096 <<< 8)))) ∧
  (∀ sd q v (s : State), s.lkEnd sd q = true → s.lkState sd q = 4 → (s.le sd q).nakDue = true →
    exec (.linkBlockTx sd q 3 v) s = .next (s.setLe sd q ((s.le sd q).linkSent (3 ||| (s.le sd q).rxSeq <<< 8)))) ∧
  (∀ sd q v (s : State), s.lkEnd sd q = true → s.lkState sd q = 3 → exec (.linkBlockTx sd q 4 v) s = .next
    (s.setLe sd q ((s.le sd q).linkSent 0x3230304))) ∧
  (∀ sd q v (s : State), s.lkEnd sd q = true → 2 ≤ s.lkState sd q → exec (.linkBlockTx sd q 0 v) s = .next
    (s.setLe sd q ((s.le sd q).linkSent (v % 2 <<< 4)))) ∧
  (∀ sd q k v (s : State), s.lkEnd sd q = false ∨ s.lkState sd q < 2 → exec (.linkBlockTx sd q k v) s = .next s) ∧
  (∀ sd q o b (s : State), s.lkEnd sd q = true → s.lkState sd q = 4 → exec (.cellRx sd q o b) s = .next
    (((s.li sd q I.ILNK_CNT_BAD_BLOCK L.LNK_CNT_BAD_BLOCK b).lkBlock sd q).cellRx sd q o)) ∧
  (∀ sd q o b (s : State), s.lkEnd sd q = false ∨ s.lkState sd q ≠ 4 → exec (.cellRx sd q o b) s = .next s) ∧
  (∀ sd q o (s : State), bits (ofLeBytes (o.take 4)) 0 3 ≠ 7 → cellOk (s.le sd q).chk o = false →
    s.cellRx sd q o = (s.li sd q I.ILNK_CNT_CELL_BAD L.LNK_CNT_CELL_BAD).setLe sd q (s.le sd q).gap) ∧
  (∀ sd q o (s : State), bits (ofLeBytes (o.take 4)) 0 3 ≠ 7 → cellOk (s.le sd q).chk o = true →
    bits (ofLeBytes (o.take 4)) 12 12 ≠ (s.le sd q).rxSeq → s.cellRx sd q o = s.setLe sd q (s.le sd q).gap) ∧
  (∀ sd q o (s : State) v f, v = bits (ofLeBytes (o.take 4)) 0 3 → f = bits (ofLeBytes (o.take 4)) 4 7 → v ≠ 7 →
    cellOk (s.le sd q).chk o = true → bits (ofLeBytes (o.take 4)) 12 12 = (s.le sd q).rxSeq → vcInward sd v = true → f < 120 ∨ f = 127 →
    s.cellRx sd q o = (s.setLe sd q { s.le sd q with
      rxSeq := ((s.le sd q).rxSeq + 1) % 4096, naked := false, nakDue := false, ackCnt := (s.le sd q).ackCnt + 1 }).takeCell
        sd q v f ((o.drop 4).take 120)) ∧
  (∀ e : LinkEnd, e.naked = true → e.gap = e) ∧
  (∀ e : LinkEnd, e.naked = false → e.gap = { e with naked := true, nakDue := true }) ∧
  (∀ sd q c (s : State) e, s.lkEnd sd q = true → s.lkState sd q = 4 → e = (s.lkBlock sd q).le sd q → e.nakSeq ≠ c →
    exec (.nakRx sd q c) s = .next ((s.lkBlock sd q).setLe sd q
      { e with nakSeq := c, nakCnt := 1, replay := e.unacked.dropWhile (fun x => x.1 != c) })) ∧
  (∀ sd q c (s : State) e, s.lkEnd sd q = true → s.lkState sd q = 4 → e = (s.lkBlock sd q).le sd q → e.nakSeq = c → 7 ≤ e.nakCnt →
    exec (.nakRx sd q c) s = .next ((s.lkBlock sd q).leaveUp sd q 4)) ∧
  (∀ sd q c (s : State) e, s.lkEnd sd q = true → s.lkState sd q = 4 → e = (s.lkBlock sd q).le sd q →
    e.unacked.any (fun x => x.1 == c) = true → ∃ u : LinkEnd, exec (.ackRx sd q c) s = .next ((s.lkBlock sd q).setLe sd q u) ∧
      u.unacked = (e.unacked.dropWhile (fun x => x.1 != c)).drop 1 ∧ u.rx = e.rx ∧ u.tx = e.tx ∧ u.rxSeq = e.rxSeq) ∧
  (∀ sd q c (s : State), s.lkEnd sd q = true → s.lkState sd q = 4 →
    ((s.lkBlock sd q).le sd q).unacked.any (fun x => x.1 == c) = false → exec (.ackRx sd q c) s = .next (s.lkBlock sd q)) ∧
  (∀ sd q v n (s : State) e, s.lkEnd sd q = true → s.lkState sd q = 4 → v < 6 → e = (s.lkBlock sd q).le sd q →
    exec (.creditRx sd q v n) s = .next ((s.lkBlock sd q).setLe sd q
      { e with tx := setNth {} e.tx v { e.tx.getD v {} with lim := n % 4096 } })) ∧
  (∀ sd q v n (s : State), 6 ≤ v → exec (.creditRx sd q v n) s = .next s) ∧
  (∀ sd q c (s : State), s.lkState sd q ≠ 4 → exec (.nakRx sd q c) s = .next s ∧ exec (.ackRx sd q c) s = .next s ∧
    exec (.creditRx sd q 0 c) s = .next s) ∧
  (∀ v (s : State) r l, v < 4 → s.ri I.ILNK_STAT_STATE = 4 → s.ri I.ITU_DIE_ID_VALID = 1 → (s.itu.link.tx.getD v {}).may = true →
    s.itu.txq.q v = r :: l → s.tooOld r = false → exec (.recordHandover v) s = .next
      (({ s with itu := { s.itu with txq := s.itu.txq.setQ v l } } : State).handRec v r)) ∧
  (∀ (s : State) m l, s.ri I.ILNK_STAT_STATE = 4 → s.ri I.ITU_DIE_ID_VALID = 1 → (s.itu.link.tx.getD 5 {}).may = true →
    s.ri I.ILNK_STAT_FMT ≠ 2 → s.itu.txq.ledger = m :: l → exec (.recordHandover 5) s = .next
      { s with itu := { s.itu with txq := { s.itu.txq with ledger := l }, link := s.itu.link.push 5 (wordsToBytes m) } }) ∧
  (∀ v (s : State), s.ri I.ILNK_STAT_STATE ≠ 4 ∨ s.ri I.ITU_DIE_ID_VALID ≠ 1 ∨ (s.itu.link.tx.getD v {}).may = false →
    exec (.recordHandover v) s = .next s) ∧
  (∀ v (s : State) r, s.ri I.ILNK_STAT_FMT = 3 → r.typ ≠ 0x010 → ∃ x : Rec, x.trailer = x.trailerOf ∧
    x.die = s.ri I.ITU_DIE_ID_ID ∧ x.alive = nth s.itu.txq.alive v ∧ x.fmt = 3 ∧ x.body = r.body ∧ x.seq = r.seq ∧ x.typ = r.typ ∧
    (s.handRec v r).itu.link = s.itu.link.push v x.wire ∧
    (s.handRec v r).itu.txq.alive = setNth 0 s.itu.txq.alive v ((nth s.itu.txq.alive v + 1) % 256)) ∧
  (∀ v (s : State) r, s.ri I.ILNK_STAT_FMT = 2 → hasFmt2 r.typ = false → s.handRec v r = s.ii I.ILNK_CNT_FMT_DROP)

/-- Clauses of R58, R179 to R183: the time messages of Ikisa Link. Clauses of R177, R178, R188 to R190: margins,
rehearsed faults and the CRC units. -/
def Obligations.TimeMarginsAndCrcUnits : Prop :=
  (∀ q t f (s : State), s.txOk q = true → (s.port q).exchAt = none → ∃ u : State, exec (.timeSyncTx q t f) s = .next
      (u.timeDue .lam q ([1, ((s.port q).exch + 1) % 256, 0, 0] ++ tsOctets (qts t f + s.rl L.IKL_LAT_TX q) ++ [0, 0] ++
        leBytes 4 (s.rl L.IKL_TIME_ASYM q) ++ leBytes 4 (s.rl L.IKL_TIME_PERIOD q))) ∧
    (u.port q).exch = ((s.port q).exch + 1) % 256 ∧ (u.port q).exchAt = some s.lam.clk.ns ∧ u.lam.regs = s.lam.regs ∧ u.itu = s.itu) ∧
  (∀ q t f a (s : State), (s.port q).exchAt = some a → s.now .lam - a < s.rl L.IKL_TIME_PERIOD q →
    exec (.timeSyncTx q t f) s = .next s) ∧
  (∀ q t f (s : State), s.txOk q = false → exec (.timeSyncTx q t f) s = .next s) ∧
  (∀ x t1 f1 a t2 f2 t3 f3 (s : State), s.ri I.ILNK_STAT_SETTLING = 1 →
    exec (.timeSyncRx x t1 f1 a t2 f2 t3 f3) s = .next (s.ii I.ITIME_CNT_SETTLE)) ∧
  (∀ x t1 f1 a t2 f2 t3 f3 (s : State), s.ri I.ILNK_STAT_SETTLING = 0 → s.ri I.ILNK_STAT_STATE = 4 →
    exec (.timeSyncRx x t1 f1 a t2 f2 t3 f3) s = .next (State.timeDue { s with itu := { s.itu with exchs := s.itu.exchs ++ [{
      exch := x % 256, t1 := t1, f1 := f1, t2 := t2, f2 := f2, t3 := t3, f3 := f3, asym := a, tick2 := s.itu.clk.ticks,
      at0 := s.itu.clk.ns }] } } .itu 0 [2, x % 256])) ∧
  (∀ x t1 f1 a t2 f2 t3 f3 (s : State), s.ri I.ILNK_STAT_SETTLING = 0 → s.ri I.ILNK_STAT_STATE ≠ 4 →
    exec (.timeSyncRx x t1 f1 a t2 f2 t3 f3) s = .next s) ∧
  (∀ q x t4 f4 (s : State) y, (s.port q).exchs.find? (fun z => z.1 == x % 256) = some y → s.txOk q = true →
    exec (.timeDreqRx q x t4 f4) s = .next
      (State.timeDue (s.setPort q { s.port q with exchs := (s.port q).exchs.filter (fun z => z.1 != y.1) }) .lam q
        ([3, x % 256, 0, 0] ++ tsOctets (ofS 64 ((qts t4 f4 : Int) - s.rl L.IKL_LAT_RX q))))) ∧
  (∀ q x t4 f4 (s : State), (s.port q).exchs.find? (fun z => z.1 == x % 256) = none → exec (.timeDreqRx q x t4 f4) s = .next s) ∧
  (∀ x t4 f4 (s : State) y, s.ri I.ILNK_STAT_SETTLING = 0 → s.ri I.ILNK_STAT_STATE = 4 →
    s.itu.exchs.find? (fun z => z.exch == x % 256 && decide (s.now .itu - z.at0 < 200000)) = some y →
    exec (.timeDrespRx x t4 f4) s = .next
      ((State.measure { s with itu := { s.itu with exchs := s.itu.exchs.filter (fun z => z.exch != y.exch) } } .itu 0
        (y.meas t4 f4)).after .itu)) ∧
  (∀ x t4 f4 (s : State), s.ri I.ILNK_STAT_SETTLING = 0 →
    s.itu.exchs.find? (fun z => z.exch == x % 256 && decide (s.now .itu - z.at0 < 200000)) = none →
    exec (.timeDrespRx x t4 f4) s = .next s) ∧
  (∀ x t4 f4 (s : State), s.ri I.ILNK_STAT_SETTLING = 1 → exec (.timeDrespRx x t4 f4) s = .next (s.ii I.ITIME_CNT_SETTLE)) ∧
  (∀ q (s : State), Completes (.timeExchangeVoid .itu q) s fun t =>
    t.itu.exchs = s.itu.exchs.filter (fun x => decide (s.itu.clk.ns - x.at0 < 200000)) ∧ t.itu.clk = s.itu.clk ∧ t.lam = s.lam) ∧
  (∀ q (s : State), s.lkEnd .lam q = true → Completes (.timeExchangeVoid .lam q) s fun t =>
    (t.port q).exchs = (s.port q).exchs.filter (fun x => decide (s.lam.clk.ns - x.2 < 200000)) ∧ t.itu = s.itu) ∧
  (∀ q own peer (s : State), s.txOk q = true → s.rl L.LNK_MARGIN_PERIOD q * 1000000 ≤ s.now .lam - (s.port q).marginAt →
    Completes (.marginSweep q own peer) s fun t => (t.port q).marginAt = s.lam.clk.ns ∧
      t.rl L.LNK_EYE_H_LOCAL q 1 = (own.getD 1 (0, 0)).1 % 2 ^ L.LNK_EYE_H_LOCAL.width ∧
      t.rl L.LNK_EYE_W_PEER q 1 = (peer.getD 1 (0, 0)).2 % 2 ^ L.LNK_EYE_W_PEER.width ∧
      t.rl L.LNK_EYE_H_LOCAL q 0 = (own.getD 0 (0, 0)).1 % 2 ^ L.LNK_EYE_H_LOCAL.width) ∧
  (∀ q own peer (s : State), s.txOk q = false ∨ s.now .lam - (s.port q).marginAt < s.rl L.LNK_MARGIN_PERIOD q * 1000000 →
    exec (.marginSweep q own peer) s = .next s) ∧
  (∀ ts (s : State) q, s.role = 0 → 0 < s.rl L.INJ_CFG_PERIOD_MC → s.rl L.INJ_CFG_KIND ≠ 0 → s.slotsOk .lam = true →
    s.mc .lam % s.rl L.INJ_CFG_PERIOD_MC = 0 → s.lam.mains.slot = s.rl L.INJ_CFG_SLOT + 1 → s.lam.injMc ≠ some (s.mc .lam) →
    s.injNext = some q → s.injSkip q ts = false → exec (.faultInjection ts) s = .next
      ((State.inject { s with lam := { s.lam with injPort := q, injMc := some (s.mc .lam) } } q (s.rl L.INJ_CFG_KIND)).il
        L.INJ_CNT_DONE)) ∧
  (∀ ts (s : State) q, s.role = 0 → 0 < s.rl L.INJ_CFG_PERIOD_MC → s.rl L.INJ_CFG_KIND ≠ 0 → s.slotsOk .lam = true →
    s.mc .lam % s.rl L.INJ_CFG_PERIOD_MC = 0 → s.lam.mains.slot = s.rl L.INJ_CFG_SLOT + 1 → s.lam.injMc ≠ some (s.mc .lam) →
    s.injNext = some q → s.injSkip q ts = true → exec (.faultInjection ts) s = .next
      (State.il { s with lam := { s.lam with injPort := q, injMc := some (s.mc .lam) } } L.INJ_CNT_SKIPPED)) ∧
  (∀ ts (s : State), s.role ≠ 0 ∨ s.rl L.INJ_CFG_PERIOD_MC = 0 ∨ s.rl L.INJ_CFG_KIND = 0 ∨ s.injNext = none →
    exec (.faultInjection ts) s = .next s) ∧
  (∀ q t0 (s : State), q < 16 → (s.port q).link.squelch = some t0 → t0 ≤ s.lam.clk.ns → Completes (.injectionEnd q) s fun t =>
    (t.port q).link.squelch = none ∧ t.itu = s.itu ∧ t.lam.regs = s.lam.regs) ∧
  (∀ q t0 (s : State), q < 16 → (s.port q).link.withhold = some t0 → t0 ≤ s.lam.clk.ns → Completes (.injectionEnd q) s fun t =>
    (t.port q).link.withhold = none ∧ (∀ r ∈ (t.port q).link.rx, r.due = true) ∧ t.itu = s.itu ∧ t.lam.regs = s.lam.regs) ∧
  (∀ q (s : State), 16 ≤ q → exec (.injectionEnd q) s = .next s) ∧
  (∀ iss u v s, u < 4 → Allowed s .itu iss (I.CRC_SEL.addr + I.CRC_SEL.s1 * u) true 0 →
    exec (.crcSelWrite .itu iss u v) s = .next (s.crcSel u (v % 4))) ∧
  (∀ iss u v s, u < 16 → Allowed s .lam iss (L.CRC_SEL.addr + L.CRC_SEL.s1 * u) true 0 → Completes (.crcSelWrite .lam iss u v) s fun t =>
    t.rl L.CRC_SEL u = v % 4 ∧ t.lcrcVal u = crcInit (v % 4) % 2 ^ crcWidth (v % 4) ∧ t.itu = s.itu) ∧
  (∀ iss u d b s, u < 4 → Allowed s .itu iss (I.CRC_DATA.addr + I.CRC_DATA.s1 * u) true 0 →
    exec (.crcDataWrite .itu iss u d b) s = .next (s.crcPut u (strobed d b))) ∧
  (∀ iss u d b s, u < 16 → Allowed s .lam iss (L.CRC_DATA.addr + L.CRC_DATA.s1 * u) true 0 →
    exec (.crcDataWrite .lam iss u d b) s = .next
      (s.setLcrcVal u (crcFeed (s.rl L.CRC_SEL u) (s.lcrcVal u) (strobed d b)))) ∧
  (∀ sd iss u v s, crcUnits sd ≤ u → Allowed s sd iss (crcAddr sd I.CRC_SEL L.CRC_SEL u) true 0 →
    exec (.crcSelWrite sd iss u v) s = .next s)

/-- Clauses of R359 to R363, R365, R366: frames of an Ethernet port are sent, received in order, acknowledged and
gated. Clauses of R346, R369 to R372: ports are lost, parents change, and a failback completes. -/
def Obligations.EthernetFramesAndPortLoss : Prop :=
  (∀ p f (s : State), p < 24 → s.lineRate p ≠ 0 → s.portRole p ≠ 0 → s.portRole p < 5 → f.chan < 6 → f.restart = false →
    exec (.ethFrameRx p f false) s = .next
      (((s.setEp p { s.ep p with estab := true }).frameAcks p f).frameRx p f)) ∧
  (∀ p f (s : State), p < 24 → s.lineRate p ≠ 0 → s.portRole p ≠ 0 → s.portRole p < 5 →
    exec (.ethFrameRx p f true) s = .next (s.il L.ETH_CNT_FCS 1 p)) ∧
  (∀ p f b (s : State), 24 ≤ p ∨ s.lineRate p = 0 ∨ s.portRole p = 0 ∨ 5 ≤ s.portRole p → exec (.ethFrameRx p f b) s = .next s) ∧
  (∀ p (f : Frame) (s : State), f.fseq = ((s.ep p).ch f.chan).rxSeq → f.fseq < 65536 → s.frameRx p f = s.frameTake p f.chan f) ∧
  (∀ p (f : Frame) (s : State), f.fseq ≠ 0 → sdiff16 f.fseq ((s.ep p).ch f.chan).rxSeq < 0 → s.frameRx p f = s) ∧
  (∀ p (f : Frame) (s : State), f.fseq ≠ 0 → 0 < sdiff16 f.fseq ((s.ep p).ch f.chan).rxSeq →
    ((s.ep p).ch f.chan).naked = true → s.frameRx p f = s) ∧
  (∀ p (f : Frame) (s : State), 4 ≤ f.chan → s.portRole p ≠ 3 → f.items = [] → s.frameTake p f.chan f =
    (s.setEp p ((s.ep p).setCh f.chan { (s.ep p).ch f.chan with
      rxSeq := (f.fseq + 1) % 65536, naked := false, rxFreed := (((s.ep p).ch f.chan).rxFreed + 1) % 65536 })).freeFrames) ∧
  (∀ p (s : State), s.spread.portLive p = true → exec (.ethFrameTx p) s = .next
    (State.pickFrame p (sendOrder.map (fun c => (c, true)) ++ sendOrder.map (fun c => (c, false))) s.spread).freeFrames) ∧
  (∀ p (s : State), s.spread.portLive p = false → exec (.ethFrameTx p) s = .next s.spread) ∧
  (∀ p l (s : State) f h, s.candidate p 0 false = some (f, h) → s.rl L.GATE_CTL_EN p = 0 → s.rl L.SHP_RATE p 0 = 0 → ∃ u : State,
    State.pickFrame p ((0, false) :: l) s = u.emitFrame p f ∧ u.lam.regs = s.lam.regs ∧ u.itu = s.itu) ∧
  (∀ p (s : State), p < 24 → s.lineRate p ≠ 0 → s.portRole p ≠ 0 → s.portRole p ≠ 5 → exec (.ethLinkFrameTx p) s = .next
    (s.emitFrame p { chan := 6, restart := !(s.ep p).heard, src := s.nodeNo, standby := s.isStandby })) ∧
  (∀ p (s : State), 24 ≤ p ∨ s.lineRate p = 0 ∨ s.portRole p = 0 ∨ s.portRole p = 5 → exec (.ethLinkFrameTx p) s = .next s) ∧
  (∀ p f (s : State), p < 24 → f.chan = 6 → s.portRole p ≠ 0 → s.portRole p ≠ 5 → f.nak = false → s.rl L.ETH_PORT_STAT_LIVE p = 1 →
    ∃ u : State, exec (.ethLinkFrameRx p f) s = .next (((u.ethCredit p f.credit).ethAck p f.ack).failbackTry) ∧
      u.rl L.ETH_PORT_STAT_UP p = 1 ∧ u.rl L.ETH_PORT_STAT_LIVE p = 1 ∧ (u.ep p).lastLink = s.lam.clk.ns ∧ u.itu = s.itu) ∧
  (∀ p f (s : State), p < 24 → f.chan = 6 → s.portRole p ≠ 0 → s.portRole p ≠ 5 → f.nak = true → s.rl L.ETH_PORT_STAT_LIVE p = 1 →
    ∃ u : State, exec (.ethLinkFrameRx p f) s = .next ((u.ethCredit p f.credit).ethNak p ((f.ack.map (·.1)).getD 6) f.fseq) ∧
      u.rl L.ETH_PORT_STAT_UP p = 1 ∧ (u.ep p).lastLink = s.lam.clk.ns ∧ u.itu = s.itu) ∧
  (∀ p f (s : State), 24 ≤ p ∨ f.chan ≠ 6 ∨ s.portRole p = 0 ∨ s.portRole p = 5 → exec (.ethLinkFrameRx p f) s = .next s) ∧
  (∀ p (s : State), p < 24 → s.lam.mains.cur = none → s.rl L.GATE_STAT_ENTRY p + 1 < s.gclLen p →
    (s.ep p).gateAt + s.gcl p (s.rl L.GATE_STAT_ENTRY p) / 256 ≤ s.lam.clk.ns → exec (.gateEntryChange p) s = .next
      (s.setGate p (s.rl L.GATE_STAT_ENTRY p + 1) ((s.ep p).gateAt + s.gcl p (s.rl L.GATE_STAT_ENTRY p) / 256))) ∧
  (∀ p (s : State), 24 ≤ p ∨ (s.lam.mains.cur = none ∧ s.gclLen p ≤ s.rl L.GATE_STAT_ENTRY p + 1) →
    exec (.gateEntryChange p) s = .next s) ∧
  (∀ p (s : State), p < 24 → exec (.pauseFrameRx p) s = .next (s.il L.ETH_CNT_PAUSE 1 p)) ∧
  (∀ p (s : State), 24 ≤ p → exec (.pauseFrameRx p) s = .next s) ∧
  (∀ p (s : State), p < 24 → s.portRole p = 1 ∨ s.portRole p = 2 → exec (.parentLos p) s = .next ((s.portLost p true).failover p 0)) ∧
  (∀ p (s : State), 24 ≤ p ∨ (s.portRole p ≠ 1 ∧ s.portRole p ≠ 2) → exec (.parentLos p) s = .next s) ∧
  (∀ p (s : State), p < 24 → s.portRole p = 1 ∨ s.portRole p = 2 → s.rl L.ETH_PORT_STAT_LIVE p = 1 →
    s.rl L.EGR_LIVE_US * 1000 ≤ s.now .lam - (s.ep p).lastLink →
    exec (.livenessTimeout p) s = .next ((s.portLost p false).failover p 1)) ∧
  (∀ p (s : State), s.rl L.ETH_PORT_STAT_LIVE p ≠ 1 ∨ s.now .lam - (s.ep p).lastLink < s.rl L.EGR_LIVE_US * 1000 →
    exec (.livenessTimeout p) s = .next s) ∧
  (∀ p (s : State), p < 24 → (s.portLost p true).rl L.ETH_PORT_STAT_UP p = 0 ∧ (s.portLost p true).rl L.ETH_PORT_STAT_LIVE p = 0 ∧
    (s.portLost p false).rl L.ETH_PORT_STAT_UP p = s.rl L.ETH_PORT_STAT_UP p) ∧
  (∀ (s : State) p, s.portRole p = 1 → s.lam.eth.onSec = false → ∀ k, s.failover p k = s.moveParent true k) ∧
  (∀ (s : State) p, s.portRole p ≠ 1 ∨ s.lam.eth.onSec = true → ∀ k, s.failover p k = s) ∧
  (∀ h b (s : State) m n, s.roleAt 1 = some m → s.roleAt 2 = some n → s.isCrown = false → s.lam.eth.onSec ≠ b →
    exec (.parentSet h b) s = .next ((s.moveParent b 2).lamReply { h with opcode := 0x1A } {})) ∧
  (∀ h b (s : State), s.roleAt 1 = none ∨ s.roleAt 2 = none →
    exec (.parentSet h b) s = .next (s.lamReply { h with opcode := 0x1A } { status := St.badParam })) ∧
  (∀ p r (s : State), p < 24 → s.portRole p = 3 → r.typ = 0x0D0 → Completes (.parentChangeRx p r) s fun t =>
    t.lam.eth.routes = s.lam.eth.routes.filter (fun x => x.1 != bits (nth r.body 0) 3 19) ++ [(bits (nth r.body 0) 3 19, p)] ∧
    t.lam.eth.ports = s.lam.eth.ports ∧ t.lam.regs = s.lam.regs ∧ t.itu = s.itu) ∧
  (∀ p r (s : State), s.portRole p ≠ 3 ∨ r.typ ≠ 0x0D0 → exec (.parentChangeRx p r) s = .next s) ∧
  (∀ (s : State) p t0, s.roleAt 1 = some p → (s.ep p).liveFrom = some t0 → s.lam.eth.onSec = true → s.lam.eth.failback = none →
    s.rl L.EGR_FAILBACK_MS ≤ msSince (s.now .lam) t0 → s.conservative .lam = true ∨ s.prepared = true →
    exec .failback s = .next (s.il L.EGR_CNT_FAILBACK_REFUSED)) ∧
  (∀ (s : State) p t0, s.roleAt 1 = some p → (s.ep p).liveFrom = some t0 → s.lam.eth.onSec = true → s.lam.eth.failback = none →
    s.rl L.EGR_FAILBACK_MS ≤ msSince (s.now .lam) t0 → s.conservative .lam = false → s.prepared = false → exec .failback s = .next
      (State.failbackTry { s with lam := { s.lam with eth := { s.lam.eth with failback := some s.lam.clk.ns } } })) ∧
  (∀ (s : State), s.roleAt 1 = none ∨ s.lam.eth.onSec = false → exec .failback s = .next s) ∧
  (∀ (s : State) t0, s.lam.eth.failback = some t0 → 2000000 ≤ s.lam.clk.ns - t0 →
    exec .failbackAckTimeout s = .next (s.moveParent false 3)) ∧
  (∀ (s : State), s.lam.eth.failback = none → exec .failbackAckTimeout s = .next s) ∧
  (∀ p (s : State), p < 24 → s.portRole p = 3 →
    exec (.childPortLoss p true) s = .next (((s.portLost p true).cmdFramesLost p).ldgChildLost p)) ∧
  (∀ p (s : State), s.portRole p ≠ 3 → exec (.childPortLoss p true) s = .next s ∧ exec (.childPortLoss p false) s = .next s)

/-- Clauses of R30, R153, R175, R176, R195, R199: records arrive over Ikisa Link and from children, and are tested.
Clauses of R29, R71, R153, R157, R158, R160, R396, R458: a die rejoins, generations are released, epochs handed down,
and a Crown taken over. -/
def Obligations.RecordsArriveAndNodesRejoin : Prop :=
  (∀ q r (s : State), s.role = 0 → q < 16 → s.portUp q = true → exec (.recordArrivalIkl q r) s = .next
    ((s.takeGot .lam q r.cls r.wire).recIkl q r)) ∧
  (∀ q r (s : State), s.role ≠ 0 ∨ 16 ≤ q ∨ s.portUp q = false → exec (.recordArrivalIkl q r) s = .next s) ∧
  (∀ q r (s : State), r.fmt ≠ s.rl L.LNK_STAT_FMT q → s.recIkl q r = (s.il L.LNK_CNT_BAD_REC 1 q).resync .lam q r.cls) ∧
  (∀ q r (s : State), r.fmt = s.rl L.LNK_STAT_FMT q → r.len ≠ 0 → trailCheck (s.dieId q) r = .mismatch →
    s.recIkl q r = s.il L.LNK_CNT_DIE_MISMATCH 1 q) ∧
  (∀ q r (s : State), r.fmt = s.rl L.LNK_STAT_FMT q → r.len ≠ 0 → trailCheck (s.dieId q) r = .bad →
    s.recIkl q r = s.il L.LNK_CNT_REC_CRC 1 q) ∧
  (∀ (r : Rec), r.fmt = 3 → r.trailer = r.trailerOf → r.die < 2 ^ 17 → r.seq < 2 ^ 32 → trailCheck r.die r = .good) ∧
  (∀ q r (s : State), s.rl L.LNK_STAT_PORT q = 1 → s.genTest q r = (s.il L.LNK_CNT_REJOIN 1 q, false)) ∧
  (∀ q r (s : State), s.rl L.LNK_STAT_PORT q ≠ 1 → r.gen = s.rl L.GEN_CUR q r.part → s.genTest q r = (s, true)) ∧
  (∀ q r (s : State), s.rl L.LNK_STAT_PORT q ≠ 1 → r.fmt = 3 → r.gen ≠ s.rl L.GEN_CUR q r.part → s.rl L.GEN_HELD q r.part = 1 →
    r.gen = s.rl L.GEN_PRV q r.part → sdiff32 r.short (s.rl L.GEN_ADV q r.part) < 0 → s.genTest q r = (s, true)) ∧
  (∀ q r (s : State), s.rl L.LNK_STAT_PORT q ≠ 1 → r.fmt = 3 → r.gen ≠ s.rl L.GEN_CUR q r.part → s.rl L.GEN_HELD q r.part = 0 →
    s.genTest q r = (s.il L.LNK_CNT_STALE_GEN 1 q, false)) ∧
  (∀ q r (s : State), (s.port q).fresh.getD r.cls true = false → sdiff32 r.seq (nth (s.port q).seq r.cls) ≤ 0 →
    s.repeatTest q r = (s.il L.LNK_CNT_REPEAT 1 q, false)) ∧
  (∀ q r (s : State), (s.port q).fresh.getD r.cls true = true → (s.repeatTest q r).2 = true ∧
    nth ((s.repeatTest q r).1.port q).seq r.cls = r.seq ∧ (s.repeatTest q r).1.lam.regs = s.lam.regs) ∧
  (∀ p e r (s : State), s.role ≠ 0 → p < 24 → s.portRole p = 3 → exec (.recordArrivalUplink p e r) s = .next (s.recUp p e r)) ∧
  (∀ p e r (s : State), s.role = 0 ∨ 24 ≤ p ∨ s.portRole p ≠ 3 → exec (.recordArrivalUplink p e r) s = .next s) ∧
  (∀ p e r (s : State), e.crc ≠ e.crcOf ∨ 6 ≤ e.srcRole ∨ r.trailer ≠ r.trailerOf →
    s.recUp p e r = (s.il L.FWD_CNT_CRC).miss (srcOf e r) missCorrupt 0 1) ∧
  (∀ p e r (s : State), e.crc = e.crcOf → e.srcRole < 6 → r.trailer = r.trailerOf → s.recUp p e r = s.acceptUp p e r) ∧
  (∀ q r (s : State), q < 16 → s.portUp q = true → s.rl L.LNK_STAT_PORT q = 1 → exec (.rejoinStep q r) s = .next (s.rejoinStep q r)) ∧
  (∀ q r (s : State), 16 ≤ q ∨ s.portUp q = false ∨ s.rl L.LNK_STAT_PORT q ≠ 1 → exec (.rejoinStep q r) s = .next s) ∧
  (∀ q (s : State) r, (s.port q).rejoin.step = 2 → r.stepUsed = false →
    s.rejoinStep q r = s.setRejoin q { (s.port q).rejoin with step := 3 }) ∧
  (∀ q (s : State) r, (s.port q).rejoin.step = 2 → r.stepUsed = true → (s.port q).rejoin.granted = false → s.rejoinStep q r = s) ∧
  (∀ q (s : State) r, (s.port q).rejoin.step = 3 → r.state = 2 → r.mainsCurrent = true → (s.port q).rejoin.rearmed = false →
    s.rejoinStep q r = s.setRejoin q { (s.port q).rejoin with step := 4, stepNs := 0 }) ∧
  (∀ q (s : State) r, (s.port q).rejoin.step = 5 → r.settled = false → s.rejoinStep q r = s) ∧
  (∀ q (s : State), q < 16 → (s.portActive q).rl L.LNK_STAT_PORT q = 2 ∧ (s.portActive q).rl L.LNK_STAT_UNOBSERVED q = 0 ∧
    (s.portActive q).rl L.LNK_CTL_REPAIR q = 0 ∧ ((s.portActive q).port q).observed = true ∧ (s.portActive q).itu = s.itu) ∧
  (∀ q (s : State), q < 16 → s.rl L.LNK_STAT_PORT q = 1 → 1 ≤ (s.port q).rejoin.step → (s.port q).rejoin.step ≤ 3 →
    10000000000 ≤ s.lam.clk.ns - (s.port q).rejoin.upAt → Completes (.rejoinTimeout q) s fun t =>
      (t.port q).rejoin.step = 0 ∧ t.rl L.LNK_STAT_PORT q = 1 ∧ t.freeN = s.freeN + 1 ∧ t.itu = s.itu) ∧
  (∀ q (s : State), 16 ≤ q ∨ s.rl L.LNK_STAT_PORT q ≠ 1 ∨ 3 < (s.port q).rejoin.step → exec (.rejoinTimeout q) s = .next s) ∧
  (∀ h q g (s : State), s.role = 0 → q < 16 → exec (.rejoinGrant h (some q) g) s = .next
    ((s.setRejoin q { (s.port q).rejoin with granted := g }).lamReply { h with opcode := 0x1B } {})) ∧
  (∀ h g (s : State), s.role = 0 → ∃ u : State, exec (.rejoinGrant h none g) s = .next (u.lamReply { h with opcode := 0x1B } {}) ∧
    (∀ q, q < 16 → (u.port q).rejoin = { (s.port q).rejoin with granted := g }) ∧ u.lam.regs = s.lam.regs ∧ u.itu = s.itu) ∧
  (∀ h q g (s : State), s.role ≠ 0 → exec (.rejoinGrant h q g) s = .next (s.lamReply { h with opcode := 0x1B } { status := St.badTarget })) ∧
  (∀ q p m (s : State), (s.port q).genMc.find? (fun x => x.1 == p) = some (p, m) → m + 2 ≤ s.mc .lam →
    exec (.prevGenRelease q p) s = .next
      ((s.wl L.GEN_HELD 0 q p).setPort q { s.port q with genMc := (s.port q).genMc.filter (fun y => y.1 != p) })) ∧
  (∀ q p m (s : State), (s.port q).genMc.find? (fun x => x.1 == p) = some (p, m) → s.mc .lam < m + 2 →
    exec (.prevGenRelease q p) s = .next s) ∧
  (∀ h (s : State), s.role ≠ 0 → (s.routeTo h.origin).isSome = true →
    exec (.epochSync h []) s = .next ((s.syncSend h.origin).lamReply { h with opcode := 0x1C } {})) ∧
  (∀ h w ws (s : State), bitAt w 16 = false → w < 2 ^ 32 → ∃ u : State,
    exec (.epochSync h (w :: ws)) s = .next (u.lamReply { h with opcode := 0x1C } {}) ∧ u.lam.synced = true ∧
      u.rl L.CFG_EPOCH = w % 65536 ∧ u.lam.brim.active.epoch = w % 65536 ∧ u.lam.oldRegs = none ∧ u.itu = s.itu) ∧
  (∀ h (s : State), s.role = 0 ∨ s.routeTo h.origin = none →
    exec (.epochSync h []) s = .next (s.lamReply { h with opcode := 0x1C } { status := St.badTarget })) ∧
  (∀ (s : State), s.isStandby = true → s.undecided = [] → Completes .crownTakeover s fun t => t.lam.mzc.tookOver = true ∧
    t.rl L.LDGF_LEVEL_UP = 0 ∧ t.rl L.LDGF_LEVEL_DN = 0 ∧ t.itu = s.itu) ∧
  (∀ (s : State), s.isStandby = true → ∃ u : State, exec .crownTakeover s = .next ((u.wl L.LDGF_LEVEL_UP 0).wl L.LDGF_LEVEL_DN 0) ∧
    u = s.undecided.foldl State.takeoverAbort { s with lam := { s.lam with mzc := { s.lam.mzc with tookOver := true } } }) ∧
  (∀ (s : State), s.isStandby = false → exec .crownTakeover s = .next s)

/-- Clauses of R4, R11, R12, R385 to R388: register words are read and written by commands and by accesses. -/
def Obligations.RegisterWordsAreReadAndWritten : Prop :=
  (∀ sd iss a s, Allowed s sd iss (a / 4 * 4) false 0 → exec (.registerRead sd iss a) s = .next
    { (s.readOpen sd iss (a / 4 * 4)).2 with rdata := [(s.readOpen sd iss (a / 4 * 4)).1] }) ∧
  (∀ sd iss a s t, Refused s sd iss (a / 4 * 4) false 0 t → exec (.registerRead sd iss a) s = .next { t with rdata := [0] }) ∧
  (∀ p (s : State), exec (.writeHoldExpiry p) s = .next
    { s with holds := s.holds.filter fun h => !(h.path == p && decide (1000 ≤ s.pathNow p - h.at0)) }) ∧
  (∀ iss a d b (s : State), exec (.registerWrite .itu iss a d b) s = .next (s.writeWord .itu iss (a / 4 * 4) (d % 2 ^ 32) (b % 16))) ∧
  (∀ iss a d b (s : State), Allowed s .lam iss (a / 4 * 4) true (s.wordAuth .lam (a / 4 * 4)) →
    exec (.registerWrite .lam iss a d b) s = .next (s.writeWord .lam iss (a / 4 * 4) (d % 2 ^ 32) (b % 16)).serve) ∧
  (∀ (s : State) sd iss a d b, (sd = .itu → digOwn a = false) → s.guard sd iss a true (s.wordAuth sd a) = (s, true) →
    s.fieldShort sd iss.auth a d (strbMask b) = false → iss.path ≠ .pcie →
    s.writeWord sd iss a d b = (s.putWord sd iss a d (strbMask b) false true).after sd) ∧
  (∀ (s : State) sd iss a d b t, (sd = .itu → digOwn a = false) → s.guard sd iss a true (s.wordAuth sd a) = (t, false) →
    s.writeWord sd iss a d b = t) ∧
  (∀ (s : State) sd iss a w m c (F : Fld) i j, F.acc = .ro ∨ F.acc = .rc → s.putField sd iss a w m c (F, i, j) = s) ∧
  (∀ (s : State) sd iss a w m (F : Fld) i j, F.acc = .rwc → s.putField sd iss a w m false (F, i, j) = s) ∧
  (∀ (s : State) sd iss a w m c (F : Fld) i j, F.acc = .w1c → bits m F.lo F.width ≠ 0 → fieldAuth sd F a ≤ authLvl iss.auth →
    s.putField sd iss a w m c (F, i, j) = s.setReg sd F i j
      (s.fieldVal sd F i j ^^^ (s.fieldVal sd F i j &&& (bits w F.lo F.width &&& bits m F.lo F.width)))) ∧
  (∀ (s : State) sd iss a w m c (F : Fld) i j, authLvl iss.auth < fieldAuth sd F a → c = false →
    s.putField sd iss a w m c (F, i, j) = s) ∧
  (∀ h a n (s : State), regParamOk h 0 n = true → exec (.regRead .itu h 0 a n) s = .next
    (State.reply (s.readWords .itu (cmdIssuer .itu h) (a / 4 * 4) n).2 .itu { h with opcode := 2 }
      { data := (s.readWords .itu (cmdIssuer .itu h) (a / 4 * 4) n).1 })) ∧
  (∀ h a n (s : State), regParamOk h 1 n = true → exec (.regRead .lam h 1 a n) s = .next
    (State.reply (s.readWords .lam (cmdIssuer .lam h) (a / 4 * 4) n).2 .lam { h with opcode := 2 }
      { data := (s.readWords .lam (cmdIssuer .lam h) (a / 4 * 4) n).1 })) ∧
  (∀ sd h sp a n (s : State), regParamOk h sp n = false → exec (.regRead sd h sp a n) s = .next
    (s.reply sd { h with opcode := 2 } { status := St.badParam })) ∧
  (∀ sd h sp a n b d (s : State), regParamOk h sp n = true → regHere sd sp = false → exec (.regRead sd h sp a n) s = .next s ∧
    exec (.regWrite sd h sp a n b d) s = .next s) ∧
  (∀ h a n b d (s : State) ws, regParamOk h 0 n = true → h.inTxn = false → ws = (regWords a n b d).filter (fun w => w.2.2 != 0) →
    ws.any (fun w => !s.loaderOk { h with opcode := 3 } w.1) = false →
    exec (.regWrite .itu h 0 a n b d) s = .next
      (State.reply (s.regWriteNow .itu { h with opcode := 3 } ws).1 .itu { h with opcode := 3 } (s.regWriteNow .itu { h with opcode := 3 } ws).2)) ∧
  (∀ h a n b d (s : State) ws, regParamOk h 1 n = true → h.inTxn = false → ws = (regWords a n b d).filter (fun w => w.2.2 != 0) →
    exec (.regWrite .lam h 1 a n b d) s = .next (State.serve (State.reply (s.regWriteNow .lam { h with opcode := 3 } ws).1 .lam
      { h with opcode := 3 } (s.regWriteNow .lam { h with opcode := 3 } ws).2))) ∧
  (∀ (s : State) sd h ws, ws.any (fun w => s.rwcBits sd w.1 &&& w.2.2 != 0) = true → s.regWriteNow sd h ws = (s, { status := St.notInTxn })) ∧
  (∀ h sp a n b d (s : State), regParamOk h sp n = false → exec (.regWrite .itu h sp a n b d) s = .next
    (s.reply .itu { h with opcode := 3 } { status := St.badParam }))

/-- Clauses of R201, R276, R320, R383, R388, R391: NOP, admission, bank changes and the staging of writes. -/
def Obligations.AdmissionBanksAndStaging : Prop :=
  (∀ h (s : State), exec (.nop .itu h) s = .next (s.ituReply { h with opcode := 1 } {}) ∧
    exec (.nop .lam h) s = .next (s.lamReply { h with opcode := 1 } {})) ∧
  (∀ h c r b (s : State), c < 3 → ∃ u : State, exec (.admitSet h c r b) s = .next (u.ituReply { h with opcode := 0x20 } {}) ∧
    (u.itu.txq.bkt.getD c Bucket.none).rate = r % 2 ^ 32 ∧ (u.itu.txq.bkt.getD c Bucket.none).burst = b % 2 ^ 24 ∧
    (u.itu.txq.bkt.getD c Bucket.none).level = b % 2 ^ 24 * 1000000 ∧ (u.itu.txq.bkt.getD c Bucket.none).at0 = s.itu.clk.ns ∧
    u.itu.regs = s.itu.regs ∧ u.lam = s.lam) ∧
  (∀ h c (s : State) b, c < 3 → b = (s.itu.txq.bkt.getD c Bucket.none).refill s.itu.clk.ns → exec (.admitGet h c) s = .next
    (s.ituReply { h with opcode := 0x21 } { data := [b.rate, b.burst, b.level / 1000000] })) ∧
  (∀ h c r b (s : State), 3 ≤ c → exec (.admitSet h c r b) s = .next (s.ituReply { h with opcode := 0x20 } { status := St.badParam }) ∧
    exec (.admitGet h c) s = .next (s.ituReply { h with opcode := 0x21 } { status := St.badParam })) ∧
  (∀ h i (s : State), h.inTxn = true → s.forestOn = true → exec (.bankSwap h 0 i) s = .next
    (s.stageAns .lam ⟨{ h with opcode := 4 }, [i % 64 <<< 1]⟩ s.lam.clk.ns [] [(0, i % 64)])) ∧
  (∀ h i (s : State), h.inTxn = true → fleetTxn h.txn = true → exec (.bankSwap h 1 i) s = .next
    (s.stageAns .lam ⟨{ h with opcode := 4 }, [1 ||| i % 64 <<< 1]⟩ s.lam.clk.ns [] [(1, 0)])) ∧
  (∀ h o i (s : State), h.inTxn = false → exec (.bankSwap h o i) s = .next (s.lamReply { h with opcode := 4 } { status := St.notInTxn })) ∧
  (∀ h i (s : State), h.inTxn = true → fleetTxn h.txn = false →
    exec (.bankSwap h 1 i) s = .next (s.lamReply { h with opcode := 4 } { status := St.fleetField })) ∧
  (∀ h i (s : State), h.inTxn = true → s.forestOn = true → exec (.forestUnload h i) s = .next
    (s.stageAns .lam ⟨{ h with opcode := 0x31 }, [i % 64]⟩ s.lam.clk.ns [] [(2, i % 64)])) ∧
  (∀ h i (s : State), h.inTxn = true → s.forestOn = false →
    exec (.forestUnload h i) s = .next (s.lamReply { h with opcode := 0x31 } { status := St.domainOff })) ∧
  (∀ h i (s : State), h.inTxn = false →
    exec (.forestUnload h i) s = .next (s.lamReply { h with opcode := 0x31 } { status := St.notInTxn })) ∧
  (∀ (s : State) h ws sw st, s.stageRefuse h = some st → s.stageLam h ws sw = (s, some st)) ∧
  (∀ (s : State) h ws sw g, s.stageRefuse h = none → s.retiring = false → s.lam.ctl.stg = [g] → g.txn = h.txn →
    s.stagedCount + (stageAll g.words ws).length - g.words.length ≤ 16384 → s.stageLam h ws sw =
      (s.putStg { g with words := stageAll g.words ws, swaps := g.swaps ++ sw.filter fun x => !g.swaps.contains x }, some St.ok)) ∧
  (∀ (s : State) h ws g, s.itu.txn.stg = some g → g.txn ≠ h.txn → s.stageItu h ws = (s, none)) ∧
  (∀ (s : State) h ws g, s.itu.txn.stg = some g → g.txn = h.txn → g.voted = false → g.wdog = false → 
    (stageAll g.words ws).length ≤ 256 → (s.stageItu h ws).2 = some St.ok ∧
      (s.stageItu h ws).1.itu.txn.stg = some { g with words := stageAll g.words ws } ∧ (s.stageItu h ws).1.lam = s.lam)

/-- Clauses of R378 to R383: a packet is checked in the order of R381, and a refusal is counted and answered. Clauses
of R67, R69, R382, R383, R400: announcements by packet, the rings of the host, and replies that are merged. -/
def Obligations.CommandPacketsRingsAndReplies : Prop :=
  (∀ e ws (s : State), exec (.commandPacketRx .lam e ws) s = .next (s.cmdRx e ws)) ∧
  (∀ e ws (s : State), exec (.commandPacketRx .itu e ws) s = .next (s.cmdRxItu ws)) ∧
  (∀ q ws (s : State), s.cmdRx (.child q) ws = (s.il L.CMD_CNT_RX).il L.CMD_CNT_REFUSED) ∧
  (∀ ws st (s : State), formStatus (Pkt.ofWords ws) ws = some st → s.cmdRx .fleet ws =
    (s.il L.CMD_CNT_RX).cmdRefuse (Pkt.ofWords ws).hdr st) ∧
  (∀ ws (s : State) p, p = Pkt.ofWords ws → formStatus p ws = none → p.hdr.auth = 1 → s.cmdRx .fleet ws =
    ((s.il L.CMD_CNT_RX).denied p.hdr).cmdRefuse p.hdr St.denied) ∧
  (∀ ws (s : State) p k u, p = Pkt.ofWords ws → formStatus p ws = none → p.hdr.auth = 2 → u = s.il L.CMD_CNT_RX →
    u.fleetKey = some k → p.hdr.tag ≠ p.tagOf k → s.cmdRx .fleet ws =
      (((u.il L.CMD_CNT_AUTH_FAIL).wl L.CMDQ_STAT_AUTH_FAIL 1).denied p.hdr).cmdRefuse p.hdr St.authFail) ∧
  (∀ ws (s : State) p u, p = Pkt.ofWords ws → formStatus p ws = none → u = s.il L.CMD_CNT_RX → u.cmdVerify .fleet p = (u, none) →
    sdiff16 p.hdr.epoch (u.rl L.CFG_EPOCH) < 0 → s.cmdRx .fleet ws = u.cmdRefuse p.hdr St.staleEpoch) ∧
  (∀ ws (s : State) p u v, p = Pkt.ofWords ws → formStatus p ws = none → u = s.il L.CMD_CNT_RX → u.cmdVerify .fleet p = (v, none) →
    0 ≤ sdiff16 p.hdr.epoch (u.rl L.CFG_EPOCH) → s.cmdRx .fleet ws = v.cmdRoute .fleet p) ∧
  (∀ (s : State) e p, p.hdr.auth = 1 → opFleet p.hdr.opcode = true → s.cmdRoute e p = s.cmdDenied p.hdr) ∧
  (∀ (s : State) e p, p.hdr.auth = 2 → (opModes p.hdr.opcode).contains p.hdr.amode = false →
    s.cmdRoute e p = s.cmdRefuse p.hdr St.badTarget) ∧
  (∀ (s : State) e p, p.hdr.auth = 2 → p.hdr.opcode = 1 → p.hdr.amode = 2 → p.hdr.inTxn = false → p.hdr.target % 2 ^ 19 = s.nodeNo →
    s.cmdRoute e p = s.lamReply { p.hdr with opcode := 1 } {}) ∧
  (∀ h (ws : List Nat), h = (Pkt.ofWords ws).hdr → h.pver ≠ 1 → formStatus (Pkt.ofWords ws) ws = some St.badPacket) ∧
  (∀ op, opModes op = [] ∨ ∀ m ∈ opModes op, m < 7) ∧
  (∀ h a (s : State), exec (.mainsAnn .lam h a) s = .next ((s.annRx .lam a).lamReply { h with opcode := 0x18 } {})) ∧
  (∀ h a (s : State), exec (.mainsAnn .itu h a) s = .next (((s.annRx .itu a).after .itu).ituReply { h with opcode := 0x18 } {})) ∧
  (∀ iss v (s : State), Allowed s .lam iss L.CMDQ_TAIL.addr true (s.wordAuth .lam L.CMDQ_TAIL.addr) →
    exec (.cmdqTailWrite iss v) s = .next (s.writeWord .lam iss L.CMDQ_TAIL.addr (v % 1024) 15).serve) ∧
  (∀ n (s : State), s.rl L.CMDQ_CTL_ENABLE = 0 ∨ s.rl L.CMDQ_HEAD = s.rl L.CMDQ_TAIL ∨ s.replyRoom ≤ s.lam.replies.length →
    State.ringServe n s = s) ∧
  (∀ n (s : State), s.rl L.CMDQ_CTL_ENABLE = 1 → s.rl L.CMDQ_HEAD ≠ s.rl L.CMDQ_TAIL → s.lam.replies.length < s.replyRoom →
    s.ddrOk = true → State.ringServe (n + 1) s = State.ringServe n
      ((s.wl L.CMDQ_HEAD ((s.rl L.CMDQ_HEAD + 1) % s.rl L.CMDQ_SLOTS)).cmdRx .pcie (s.ringPacket (s.rl L.CMDQ_HEAD)))) ∧
  (∀ (s : State) b l, s.lam.replies = b :: l → s.replyRoom ≠ 0 → s.ddrOk = true → s.rl L.CMDQ_CTL_ENABLE = 0 →
    Completes .replyRingWrite s fun t => t.lam.replies = l ∧ t.lam.seq = (s.lam.seq + 1) % 2 ^ 32 ∧
      t.rl L.RPLQ_TAIL = (s.rl L.RPLQ_TAIL + 1) % s.rl L.RPLQ_SLOTS % 2 ^ L.RPLQ_TAIL.width ∧ t.itu = s.itu) ∧
  (∀ (s : State), s.lam.replies = [] ∨ s.replyRoom = 0 ∨ s.ddrOk = false → exec .replyRingWrite s = .next s) ∧
  (∀ d p b (s : State), exec (.cmdReplyRx d p b) s = .next (s.replyRx (d, p) b)) ∧
  (∀ w b (s : State) m h, h = replyHdr b → s.mergeOf h.origin h.issuer h.cmdId = some m → m.wait.contains w = true → s.replyRx w b =
    s.putMerge (m.hear w (nth b 3 % 2 ^ 18) (nth b 4 % 2 ^ 18) (replyFail b) (nth b 7) (b.drop 8))) ∧
  (∀ w b (s : State) m h, h = replyHdr b → s.mergeOf h.origin h.issuer h.cmdId = some m → m.wait.contains w = false →
    s.replyRx w b = s) ∧
  (∀ o i c (s : State) m, s.mergeOf o i c = some m → m.due ≤ s.lam.clk.ns → exec (.cmdMergeTimeout o i c) s = .next (s.mergeLate m)) ∧
  (∀ o i c (s : State) m, s.mergeOf o i c = some m → s.lam.clk.ns < m.due → exec (.cmdMergeTimeout o i c) s = .next s) ∧
  (∀ o i c (s : State), s.mergeOf o i c = none → exec (.cmdMergeTimeout o i c) s = .next s) ∧
  (∀ (s : State) m, m.wait = [] → s.putMerge m = (s.dropMerge m.hdr).replyRoute m.hdr (m.body (s.rl L.CFG_EPOCH))) ∧
  (∀ (s : State) h r, s.mergeOf h.origin h.issuer h.cmdId = none → h.noReply = true → r.status = St.ok → s.lamReply h r = s) ∧
  (∀ (s : State) h r, h.noReply = true → r.status = St.ok → s.ituReply h r = s) ∧
  (∀ (s : State) h b, h.origin = s.nodeNo → h.issuer = 0 → h.auth = 1 → s.replyRoute h b =
    { s with lam := { s.lam with replies := s.lam.replies ++ [b] } })

/-- Clauses of R390 to R396: a transaction begins, is committed, aborted and asked after, prepared, decided and voted
on. -/
def Obligations.TransactionsBeginAndAreDecided : Prop :=
  (∀ h f (s : State), (f = true → s.isCrown = true) → s.lam.ctl.txns.length < 16 → ∃ u : State,
    exec (.txnBegin h f) s = .next (u.lamReply { h with opcode := 8 }
      { result := (s.lam.ctl.txnLast + 1) % 2 ^ 23 + if f then 2 ^ 23 else 0 }) ∧
    u.lam.ctl.txns = s.lam.ctl.txns ++ [{
      num := (s.lam.ctl.txnLast + 1) % 2 ^ 23 + if f then 2 ^ 23 else 0, owner := h.owner, begun := s.lam.clk.ns,
      last := s.lam.clk.ns }] ∧ u.lam.ctl.txnLast = (s.lam.ctl.txnLast + 1) % 2 ^ 23 ∧ u.itu = s.itu) ∧
  (∀ h f (s : State), (f = true → s.isCrown = true) → 16 ≤ s.lam.ctl.txns.length →
    exec (.txnBegin h f) s = .next (s.lamReply { h with opcode := 8 } { status := St.txnFull })) ∧
  (∀ h (s : State), s.isCrown = false →
    exec (.txnBegin h true) s = .next (s.lamReply { h with opcode := 8 } { status := St.badTarget })) ∧
  (∀ h (s : State) t0, s.txnOf h.txn = some t0 → fleetTxn t0.num = false → t0.state = .opened → s.slotsOk .lam = true →
    exec (.txnCommit h) s = .next ((s.putTxn { t0 with
      state := .preparing, c := (s.commitAt false).1, mc := (s.commitAt false).2,
      commit := some { h with opcode := 9 }, last := s.lam.clk.ns }).prepare t0.num (s.commitAt false).1 (s.commitAt false).2)) ∧
  (∀ h (s : State), s.txnOf h.txn = none →
    exec (.txnCommit h) s = .next (s.lamReply { h with opcode := 9 } { status := St.txnUnknown })) ∧
  (∀ h (s : State) t0, s.txnOf h.txn = some t0 → fleetTxn t0.num = false → t0.state ≠ .opened ∨ s.slotsOk .lam = false →
    exec (.txnCommit h) s = .next (s.lamReply { h with opcode := 9 } { status := St.txnState })) ∧
  (∀ h (s : State) t0, s.txnOf h.txn = some t0 → fleetTxn t0.num = true → h.auth ≠ 2 →
    exec (.txnCommit h) s = .next ((s.denied { h with opcode := 9 }).lamReply { h with opcode := 9 } { status := St.denied })) ∧
  (∀ h (s : State) t0, s.txnOf h.txn = some t0 → fleetTxn t0.num = false → t0.state = .opened →
    exec (.txnAbort h) s = .next ((s.rollback t0).lamReply { h with opcode := 0x0A } {})) ∧
  (∀ h (s : State), s.txnOf h.txn = none →
    exec (.txnAbort h) s = .next (s.lamReply { h with opcode := 0x0A } { status := St.txnUnknown })) ∧
  (∀ h (s : State), exec (.txnStatus h) s = .next (s.lamReply { h with opcode := 0x0B } { result := s.txnStatus h.txn })) ∧
  (∀ (s : State) n t0, s.txnOf n = some t0 → t0.state = .opened → s.txnStatus n = 0) ∧
  (∀ (s : State) n c, s.txnOf n = none → s.lam.ctl.decided.find? (fun d => d.1 == n) = some (n, c) → fleetTxn n = false →
    s.txnStatus n = if c then 2 else 3) ∧
  (∀ h c m (s : State), exec (.txnPrepare .lam h c m) s = .next
    ((s.prepare h.txn (fullTime (s.now .lam) (short c)) (m % 2 ^ 32)).lamReply { h with opcode := 0x0C } {})) ∧
  (∀ h c m (s : State), exec (.txnPrepare .itu h c m) s = .next
    ((s.prepareItu h.txn (fullTime (s.now .itu) (short c)) (m % 2 ^ 32)).ituReply { h with opcode := 0x0C } {})) ∧
  (∀ h b (s : State), exec (.txnDecide .lam h b) s = .next ((s.decideLam h.txn b).lamReply { h with opcode := 0x0D } {})) ∧
  (∀ h b (s : State), exec (.txnDecide .itu h b) s = .next ((s.decideItu h.txn b).ituReply { h with opcode := 0x0D } {})) ∧
  (∀ d p b (s : State), exec (.txnVoteRx d p b) s = .next (s.voteRx (d, p) b)) ∧
  (∀ (s : State) w b v, s.lam.ctl.votes.find? (fun v => v.txn == bits (nth b 0) 0 24) = some v → v.wait.contains w = true →
    bits (nth b 0) 24 8 = St.prepared →
    s.voteRx w b = s.putVotes (v.add w (nth b 1 % 2 ^ 18) (nth b 2 % 2 ^ 18) (nth b 3 % 2 ^ 18) none)) ∧
  (∀ n v (s : State), s.lam.ctl.votes.find? (fun v => v.txn == n) = some v → v.due ≤ s.lam.clk.ns → fleetTxn n = false ∨ s.isCrown = false →
    exec (.voteDeadline n) s = .next (s.votesLate v)) ∧
  (∀ n v (s : State), s.lam.ctl.votes.find? (fun v => v.txn == n) = some v → s.lam.clk.ns < v.due →
    exec (.voteDeadline n) s = .next s ∧ exec (.decideDeadline n) s = .next s) ∧
  (∀ n v (s : State), s.lam.ctl.votes.find? (fun v => v.txn == n) = some v → v.due ≤ s.lam.clk.ns → fleetTxn n = true → s.isCrown = true →
    exec (.decideDeadline n) s = .next (s.votesLate v) ∧ exec (.voteDeadline n) s = .next s) ∧
  (∀ n (s : State), s.lam.ctl.votes.find? (fun v => v.txn == n) = none →
    exec (.voteDeadline n) s = .next s ∧ exec (.decideDeadline n) s = .next s) ∧
  (∀ (s : State) v t0, s.txnOf v.txn = some t0 → v.first.isSome = true → s.putVotes v = s.decideTxn t0 false v) ∧
  (∀ (s : State) v t0, s.txnOf v.txn = some t0 → v.first = none → v.wait = [] → s.putVotes v = s.decideTxn t0 true v)

/-- Clauses of R391, R394 to R397: the commit instant, doubt, idle transactions and the watchdog. Clauses of R154 to
R156, R398, R399: hardware locks are acquired, waited for, released and abandoned. -/
def Obligations.CommitInstantWatchdogAndLocks : Prop :=
  (∀ (s : State) g l, s.dueStg = g :: l → exec (.commitInstant .lam) s = .next (((g :: l).foldl State.reachC s).retryWaits .lam)) ∧
  (∀ (s : State), s.dueStg = [] → exec (.commitInstant .lam) s = .next s) ∧
  (∀ (s : State) g, s.itu.txn.stg = some g → g.voted = true → g.c ≤ s.itu.clk.ns → g.commit = true ∨ g.doubt = false →
    exec (.commitInstant .itu) s = .next (s.reachCItu g)) ∧
  (∀ (s : State) g, s.itu.txn.stg = some g → g.voted = false ∨ s.itu.clk.ns < g.c → exec (.commitInstant .itu) s = .next s) ∧
  (∀ (s : State), s.itu.txn.stg = none → exec (.commitInstant .itu) s = .next s) ∧
  (∀ (s : State) g, g.commit = true → g.doubt = false → s.reachC g = (s.commitLam g g.c).dropStg g.txn) ∧
  (∀ (s : State) g, g.commit = false →
    s.reachC g = ((s.putStg { g with doubt := true }).il L.TXN_CNT_IN_DOUBT).outcomeLam g.txn 0) ∧
  (∀ (s : State) g, g.commit = false → s.reachCItu g =
    ((s.setIStg { s.itu.txn with stg := some { g with doubt := true } }).ii I.ITXN_CNT_IN_DOUBT).outcomeItu g.txn 0) ∧
  (∀ (s : State) g, g.commit = true → g.doubt = false →
    s.reachCItu g = ((s.setIStg { s.itu.txn with stg := none }).commitItu g).retryWaits .itu) ∧
  (∀ n (s : State) t0, s.txnOf n = some t0 → t0.state = .opened → s.rl L.TXN_IDLE_MS ≤ msSince (s.now .lam) t0.last →
    exec (.txnIdleTimeout n) s = .next (s.rollback t0)) ∧
  (∀ n (s : State) t0, s.txnOf n = some t0 → t0.state ≠ .opened ∨ msSince (s.now .lam) t0.last < s.rl L.TXN_IDLE_MS →
    exec (.txnIdleTimeout n) s = .next s) ∧
  (∀ n (s : State), s.txnOf n = none → exec (.txnIdleTimeout n) s = .next s) ∧
  (∀ (s : State) w, s.itu.txn.waits.find? (fun w => decide (100000000 < s.now .itu - w.since)) = some w →
    exec (.watchdogExpiry .itu) s = .next (s.wdogItu w)) ∧
  (∀ (s : State), s.itu.txn.waits.find? (fun w => decide (100000000 < s.now .itu - w.since)) = none →
    exec (.watchdogExpiry .itu) s = .next s) ∧
  (∀ (s : State) w, s.lam.ctl.waits.find? (fun w => decide (s.rl L.TXN_WDOG_MS * 1000000 < s.now .lam - w.since)) = some w →
    exec (.watchdogExpiry .lam) s = .next (s.wdogStage w)) ∧
  (∀ (s : State) w, s.lam.ctl.waits = [] →
    s.lam.ctl.lockWaits.find? (fun w => decide (s.rl L.TXN_WDOG_MS * 1000000 < s.now .lam - w.since)) = some w →
    exec (.watchdogExpiry .lam) s = .next (s.wdogLock w)) ∧
  (∀ (s : State), s.lam.ctl.waits = [] → s.lam.ctl.lockWaits = [] → exec (.watchdogExpiry .lam) s = .next s) ∧
  (∀ (s : State) n b, (s.keepDecision n b).lam.ctl.decided.head? = some (n, b) ∧ (s.keepDecision n b).lam.ctl.decided.length ≤ 64 ∧
    (s.keepDecision n b).lam.regs = s.lam.regs) ∧
  (∀ h i (s : State), i < 256 → s.staleGen { h with opcode := 0x10 } h.owner = false → s.lockAbove h.owner i = false →
    s.lockHeld i = false → s.rl L.LOCK_STATE_HI_ABANDONED i = 0 → ∃ u : State,
      exec (.lockAcquire h i 0) s = .next (u.lamReply { h with opcode := 0x10 } {}) ∧ u.lockHeld i = true ∧
      u.rl L.LOCK_STATE_LO_OWNER i = h.owner.id % 2 ^ L.LOCK_STATE_LO_OWNER.width ∧
      u.rl L.LOCK_STATE_LO_GEN i = h.owner.gen % 2 ^ L.LOCK_STATE_LO_GEN.width ∧ u.rl L.LOCK_STATE_HI_ABANDONED i = 0 ∧ u.itu = s.itu) ∧
  (∀ h i (s : State), i < 256 → s.staleGen { h with opcode := 0x10 } h.owner = false → s.lockAbove h.owner i = false →
    s.lockHeld i = false → s.rl L.LOCK_STATE_HI_ABANDONED i = 1 → ∃ u : State,
      exec (.lockAcquire h i 0) s = .next (u.lamReply { h with opcode := 0x10 } { status := St.okAbandoned }) ∧
      u.lockHeld i = true ∧ u.rl L.LOCK_STATE_HI_ABANDONED i = 0) ∧
  (∀ h i w (s : State), i < 256 → 0 < w → w ≤ 1000 → s.staleGen { h with opcode := 0x10 } h.owner = false →
    s.lockAbove h.owner i = false → s.lockHeld i = true → (s.lam.ctl.lockWaits.filter fun x => x.idx == i).length < 4 →
    s.lam.ctl.lockWaits.length < 64 → exec (.lockAcquire h i w) s = .next
      (s.setLockWaits (s.lam.ctl.lockWaits ++ [⟨i, { h with opcode := 0x10 }, h.owner, s.lam.clk.ns, w⟩]) i)) ∧
  (∀ h i (s : State), i < 256 → s.staleGen { h with opcode := 0x10 } h.owner = false → s.lockAbove h.owner i = false →
    s.lockHeld i = true → exec (.lockAcquire h i 0) s = .next (s.lamReply { h with opcode := 0x10 } { status := St.lockHeld })) ∧
  (∀ h i (s : State), i < 256 → s.staleGen { h with opcode := 0x10 } h.owner = false → s.lockAbove h.owner i = true →
    exec (.lockAcquire h i 0) s = .next ((s.il L.LOCK_CNT_ORDER).lamReply { h with opcode := 0x10 } { status := St.lockOrder })) ∧
  (∀ h i (s : State), i < 256 → s.staleGen { h with opcode := 0x10 } h.owner = true →
    exec (.lockAcquire h i 0) s = .next (s.lamReply { h with opcode := 0x10 } { status := St.staleGen })) ∧
  (∀ h i w (s : State), 256 ≤ i ∨ 1000 < w →
    exec (.lockAcquire h i w) s = .next (s.lamReply { h with opcode := 0x10 } { status := St.badParam })) ∧
  (∀ h i (s : State), i < 256 → s.lockHeld i = true → s.lockOwner i = h.owner →
    exec (.lockRelease h i false) s = .next ((s.lockFree i false).lamReply { h with opcode := 0x11 } {})) ∧
  (∀ h i (s : State), i < 256 → s.lockHeld i = true → s.lockOwner i ≠ h.owner →
    exec (.lockRelease h i false) s = .next (s.lamReply { h with opcode := 0x11 } { status := St.notOwner })) ∧
  (∀ h i (s : State), i < 256 → h.auth = 2 → s.lockHeld i = true → s.lockOwner i ≠ h.owner →
    exec (.lockRelease h i true) s = .next ((s.lockFree i true).lamReply { h with opcode := 0x11 } {})) ∧
  (∀ h i (s : State), i < 256 → h.auth ≠ 2 → exec (.lockRelease h i true) s = .next
    ((s.denied { h with opcode := 0x11 }).lamReply { h with opcode := 0x11 } { status := St.denied })) ∧
  (∀ (s : State) i, i < 256 → s.lam.ctl.lockWaits = [] → (s.lockFree i true).lockHeld i = false ∧
    (s.lockFree i true).rl L.LOCK_STATE_HI_ABANDONED i = 1 ∧ (s.lockFree i false).lockHeld i = false ∧
    (s.lockFree i false).rl L.LOCK_STATE_HI_ABANDONED i = 0) ∧
  (∀ h i (s : State), i < 256 → exec (.lockQuery h i) s = .next (s.lamReply { h with opcode := 0x12 }
    { result := s.wordVal .lam (L.LOCK_STATE_HI_HELD.addr + 8 * i), data := [s.wordVal .lam (L.LOCK_STATE_LO_OWNER.addr + 8 * i)] })) ∧
  (∀ h i (s : State), 256 ≤ i → exec (.lockQuery h i) s = .next (s.lamReply { h with opcode := 0x12 } { status := St.badParam })) ∧
  (∀ i (s : State) w, s.lam.ctl.lockWaits.find? (fun w => w.idx == i && decide (w.waitMs * 1000000 ≤ s.now .lam - w.since)) = some w →
    exec (.lockWaitTimeout i) s = .next ((s.setLockWaits (s.lam.ctl.lockWaits.erase w) i).lamReply w.hdr { status := St.lockTimeout })) ∧
  (∀ i (s : State), s.lam.ctl.lockWaits.find? (fun w => w.idx == i && decide (w.waitMs * 1000000 ≤ s.now .lam - w.since)) = none →
    exec (.lockWaitTimeout i) s = .next s) ∧
  (∀ h b d p g (s : State), exec (.genNotice h b d p g) s = .next ((s.genNotice b d p g).lamReply { h with opcode := 0x19 } {})) ∧
  (∀ (s : State) d p g, s.lam.ctl.txns = [] → (∀ i, i < 256 → s.lockHeld i = false) → s.genNotice false d p g =
    s.learnGen false d p g)

/-- Clauses of R404, R413, R418 to R420: stitch images are put in the store, checked, loaded, started, stopped and
asked after. -/
def Obligations.StitchImagesLoadAndRun : Prop :=
  (∀ h off bs (s : State), off + bs.length ≤ 16777216 → exec (.stitchPut h off bs) s = .next
    ((s.ddrPut (s.stcBase + off) (bs.map (· % 256))).lamReply { h with opcode := 0x48 } {})) ∧
  (∀ h off bs (s : State), 16777216 < off + bs.length →
    exec (.stitchPut h off bs) s = .next (s.lamReply { h with opcode := 0x48 } { status := St.badParam })) ∧
  (∀ h c l b off (s : State) sd k a m, sd = stcPlace l → k = c % 32 → a = s.stcBase + off → m = s.stcImage a →
    (sd = .itu → s.ipdOn 4 = true) → s.stcOn sd = true → k < stcContexts sd → s.ctxState sd k = 0 ∨ s.ctxState sd k = 6 →
    m.ok sd off = true →
    s.sigCheck 20 (s.lam.ddr.read ddrDefault (a + m.size) 128) (s.lam.ddr.read ddrDefault a m.size) = .ok →
    stcProgOk sd m.nInstr 0 (s.ddrWords (a + 64) m.nInstr) = true → s.stcNoRoom sd k m.nInstr = false →
    exec (.stitchLoad h c l b off) s = .next
      ((if b then (s.stcInstall sd k a m).stcStart sd k else s.stcInstall sd k a m).lamReply { h with opcode := 0x49 } {})) ∧
  (∀ h c l b off (s : State) sd k a m st, sd = stcPlace l → k = c % 32 → a = s.stcBase + off → m = s.stcImage a →
    (sd = .itu ∧ s.ipdOn 4 = false ∧ st = St.domainOff ∨
     (sd = .itu → s.ipdOn 4 = true) ∧ (s.stcOn sd = false ∨ stcContexts sd ≤ k) ∧ st = St.stcDisabled ∨
     (sd = .itu → s.ipdOn 4 = true) ∧ s.stcOn sd = true ∧ k < stcContexts sd ∧
      (s.ctxState sd k ≠ 0 ∧ s.ctxState sd k ≠ 6 ∧ st = St.stcRunning ∨
       (s.ctxState sd k = 0 ∨ s.ctxState sd k = 6) ∧
        (m.ok sd off = false ∧ st = St.stcBadImage ∨
         m.ok sd off = true ∧
          (s.sigCheck 20 (s.lam.ddr.read ddrDefault (a + m.size) 128) (s.lam.ddr.read ddrDefault a m.size) = .key ∧ st = St.stcSigKey ∨
           s.sigCheck 20 (s.lam.ddr.read ddrDefault (a + m.size) 128) (s.lam.ddr.read ddrDefault a m.size) = .fail ∧
            st = St.stcSigFail ∨
           s.sigCheck 20 (s.lam.ddr.read ddrDefault (a + m.size) 128) (s.lam.ddr.read ddrDefault a m.size) = .ok ∧
            (stcProgOk sd m.nInstr 0 (s.ddrWords (a + 64) m.nInstr) = false ∧ st = St.stcBadInstr ∨
             stcProgOk sd m.nInstr 0 (s.ddrWords (a + 64) m.nInstr) = true ∧ s.stcNoRoom sd k m.nInstr = true ∧
              st = St.stcNoRoom))))) →
    exec (.stitchLoad h c l b off) s = .next (s.lamReply { h with opcode := 0x49 } { status := st })) ∧
  (∀ sd c a (m : StcImage) (s : State), c < stcContexts sd →
    ((s.stcInstall sd c a m).ctx sd c).nInstr = m.nInstr ∧ ((s.stcInstall sd c a m).ctx sd c).entry = m.entry ∧
    (s.stcInstall sd c a m).ctxState sd c = 0 ∧
    (s.stcInstall sd c a m).rx sd I.STC_CTX_STAT_LOADED L.STC_CTX_STAT_LOADED c = 1 ∧
    (s.stcInstall sd c a m).rx sd I.STC_CTX_STAT_CAUSE L.STC_CTX_STAT_CAUSE c = 0) ∧
  (∀ sd c (s : State), c < stcContexts sd → (s.ctx sd c).entry < (s.ctx sd c).nInstr →
    (s.ctx sd c).spent < s.rx sd I.STC_CTX_BUDGET L.STC_CTX_BUDGET c →
    (s.stcStart sd c).ctxState sd c = 1 ∧ ((s.stcStart sd c).ctx sd c).pc = (s.ctx sd c).entry ∧
    ((s.stcStart sd c).ctx sd c).x = List.replicate 16 0 ∧ ((s.stcStart sd c).ctx sd c).latch = none ∧
    ((s.stcStart sd c).stc sd).mem = (s.stc sd).mem ∧
    (s.stcStart sd c).rx sd I.STC_CTX_STAT_LAST L.STC_CTX_STAT_LAST c = 0) ∧
  (∀ h c l (s : State) sd k, sd = stcPlace l → k = c % 32 → (sd = .itu → s.ipdOn 4 = true) → s.stcOn sd = true → k < stcContexts sd →
    s.rx sd I.STC_CTX_STAT_LOADED L.STC_CTX_STAT_LOADED k = 1 →
    exec (.stitchStart h c l) s = .next ((s.stcStart sd k).reply sd { h with opcode := 0x4A } {})) ∧
  (∀ h c l (s : State) sd k, sd = stcPlace l → k = c % 32 → (sd = .itu → s.ipdOn 4 = true) → s.stcOn sd = true → k < stcContexts sd →
    s.rx sd I.STC_CTX_STAT_LOADED L.STC_CTX_STAT_LOADED k = 0 →
    exec (.stitchStart h c l) s = .next (s.reply sd { h with opcode := 0x4A } { status := St.stcNoProgram })) ∧
  (∀ h c l (s : State) sd k, sd = stcPlace l → k = c % 32 → (sd = .itu → s.ipdOn 4 = true) → s.stcOn sd = true → k < stcContexts sd →
    exec (.stitchStop h c l) s = .next ((s.stcStop sd k 2).reply sd { h with opcode := 0x4B } {})) ∧
  (∀ h c l (s : State) sd, sd = stcPlace l → (sd = .itu → s.ipdOn 4 = true) → s.stcOn sd = false ∨ stcContexts sd ≤ c % 32 →
    exec (.stitchStart h c l) s = .next (s.reply sd { h with opcode := 0x4A } { status := St.stcDisabled }) ∧
    exec (.stitchStop h c l) s = .next (s.reply sd { h with opcode := 0x4B } { status := St.stcDisabled })) ∧
  (∀ sd c cause (s : State), c < stcContexts sd → cause < 16 → s.ctxState sd c ≠ 0 → s.ctxState sd c ≠ 6 →
    (s.stcStop sd c cause).ctxState sd c = 0 ∧ ((s.stcStop sd c cause).ctx sd c).wait = .none ∧
    (s.stcStop sd c cause).rx sd I.STC_CTX_STAT_CAUSE L.STC_CTX_STAT_CAUSE c = cause) ∧
  (∀ h c l (s : State) sd, sd = stcPlace l → (sd = .itu → s.ipdOn 4 = true) → c % 32 < stcContexts sd →
    exec (.stitchQuery h c l) s = .next (s.reply sd { h with opcode := 0x4E } { result := s.ctxStat sd (c % 32) })) ∧
  (∀ h c (s : State), s.ipdOn 4 = false →
    exec (.stitchQuery h c false) s = .next (s.ituReply { h with opcode := 0x4E } { status := St.domainOff }) ∧
    exec (.stitchStart h c false) s = .next (s.ituReply { h with opcode := 0x4A } { status := St.domainOff }) ∧
    exec (.stitchStop h c false) s = .next (s.ituReply { h with opcode := 0x4B } { status := St.domainOff }) ∧
    (∀ v, exec (.slotWrite h c false v) s = .next (s.ituReply { h with opcode := 0x4C } { status := St.domainOff })) ∧
    exec (.slotRead h c false) s = .next (s.ituReply { h with opcode := 0x4D } { status := St.domainOff })) ∧
  (∀ off sd (m : StcImage), m.ok sd off = true → m.entry < m.nInstr ∧
    1 ≤ m.nInstr ∧ m.nInstr ≤ stcStore sd ∧ m.nData ≤ stcMem sd ∧ 256 ≤ m.budget ∧ off + m.size + 128 ≤ 16777216)

/-- Clauses of R413, R421, R424: slot buffers through commands and registers, and the stop and enable bits. -/
def Obligations.StitchSlotsAndControlRegisters : Prop :=
  (∀ h n l v (s : State) sd, sd = stcPlace l → (sd = .itu → s.ipdOn 4 = true) → n % 1024 < stcSlots sd → s.slotFull sd (n % 1024) = false →
    exec (.slotWrite h n l v) s = .next (((s.slotFill sd (n % 1024) v).stcSettle sd).reply sd { h with opcode := 0x4C } {})) ∧
  (∀ h n l v (s : State) sd, sd = stcPlace l → (sd = .itu → s.ipdOn 4 = true) → n % 1024 < stcSlots sd → s.slotFull sd (n % 1024) = true →
    exec (.slotWrite h n l v) s = .next (s.reply sd { h with opcode := 0x4C } { status := St.stcSlotFull })) ∧
  (∀ h n l (s : State) sd, sd = stcPlace l → (sd = .itu → s.ipdOn 4 = true) → n % 1024 < stcSlots sd → s.slotFull sd (n % 1024) = true →
    exec (.slotRead h n l) s = .next (((s.slotEmpty sd (n % 1024)).stcSettle sd).reply sd { h with opcode := 0x4D }
      { data := [s.slotData sd (n % 1024) % 2 ^ 32, s.slotData sd (n % 1024) / 2 ^ 32] })) ∧
  (∀ h n l (s : State) sd, sd = stcPlace l → (sd = .itu → s.ipdOn 4 = true) → n % 1024 < stcSlots sd → s.slotFull sd (n % 1024) = false →
    exec (.slotRead h n l) s = .next (s.reply sd { h with opcode := 0x4D } { status := St.stcSlotEmpty })) ∧
  (∀ h n l v (s : State) sd, sd = stcPlace l → (sd = .itu → s.ipdOn 4 = true) → stcSlots sd ≤ n % 1024 →
    exec (.slotWrite h n l v) s = .next (s.reply sd { h with opcode := 0x4C } { status := St.badParam }) ∧
    exec (.slotRead h n l) s = .next (s.reply sd { h with opcode := 0x4D } { status := St.badParam })) ∧
  (∀ iss m (s : State), Allowed s .itu iss I.STC_CTL_STOP.addr true 0 → exec (.stcCtlStop .itu iss m) s = .next (s.stcStopMask .itu m)) ∧
  (∀ iss m (s : State), Allowed s .lam iss L.STC_CTL_STOP.addr true 0 → exec (.stcCtlStop .lam iss m) s = .next (s.stcStopMask .lam m)) ∧
  (∀ sd (s : State), s.stcStopMask sd 0 = s) ∧
  (∀ iss (s : State), Allowed s .lam iss L.STC_CTL_ENABLE.addr true 3 →
    exec (.stcCtlEnableWrite iss true) s = .next (s.wl L.STC_CTL_ENABLE 1)) ∧
  (∀ iss (s : State), Allowed s .lam iss L.STC_CTL_ENABLE.addr true 3 → s.rl L.STC_CTL_ENABLE = 1 →
    exec (.stcCtlEnableWrite iss false) s = .next ((s.wl L.STC_CTL_ENABLE 0).stcDisable .lam)) ∧
  (∀ sd iss n (s : State), Allowed s sd iss (slotAddr sd n) false 0 → n < stcSlots sd → s.slotFull sd n = true → ∃ u : State,
    exec (.slotDataLoRead sd iss n) s = .next { u with rdata := [s.slotData sd n % 2 ^ 32] } ∧
    u = ((s.slotEmpty sd n).stcSettle sd).setLatch iss.path (slotAddr sd n) [(slotAddr sd n + 4, s.slotData sd n / 2 ^ 32)]
      (((s.slotEmpty sd n).stcSettle sd).now sd)) ∧
  (∀ sd iss n (s : State), Allowed s sd iss (slotAddr sd n) false 0 → n < stcSlots sd → s.slotFull sd n = false →
    exec (.slotDataLoRead sd iss n) s = .next { s.ix sd I.SLOT_CNT_EMPTY_READ L.SLOT_CNT_EMPTY_READ with rdata := [0] }) ∧
  (∀ sd iss n v lo (s : State), Allowed s sd iss (slotAddr sd n + 4) true 0 → n < stcSlots sd → s.slotFull sd n = false →
    s.heldLow iss.path (slotAddr sd n) = some lo → exec (.slotDataHiWrite sd iss n v) s = .next
      (((s.dropHold iss.path (slotAddr sd n)).slotFill sd n (lo % 2 ^ 32 + v % 2 ^ 32 * 2 ^ 32)).stcSettle sd)) ∧
  (∀ sd iss n v (s : State), Allowed s sd iss (slotAddr sd n + 4) true 0 → n < stcSlots sd → s.slotFull sd n = true →
    exec (.slotDataHiWrite sd iss n v) s = .next
      ((s.dropHold iss.path (slotAddr sd n)).ix sd I.SLOT_CNT_DROP L.SLOT_CNT_DROP))

/-- Clauses of R406, R407: an issued arithmetic, comparison, load-immediate or FP32 instruction writes its result to
xD and the context goes on; x0 reads as zero and discards (R404). -/
def Obligations.StitchArithmeticWritesItsRegister : Prop :=
  (∀ sd c (s : State) w i op (g : Nat → Nat → Nat), s.Issues sd c op w →
    (i, op, g) ∈ ([
      (.add sd c, 0x04, fun a b => (a + b) % 2 ^ 64), (.sub sd c, 0x05, fun a b => ofS 64 ((a : Int) - b)),
      (.and sd c, 0x06, fun a b => a &&& b), (.or sd c, 0x07, fun a b => a ||| b), (.xor sd c, 0x08, fun a b => a ^^^ b),
      (.shl sd c, 0x09, fun a b => a * 2 ^ (b % 64) % 2 ^ 64), (.shr sd c, 0x0A, fun a b => a / 2 ^ (b % 64)),
      (.sra sd c, 0x0B, fun a b => ofS 64 (toS 64 a / 2 ^ (b % 64))), (.mul sd c, 0x0C, fun a b => a * b % 2 ^ 64),
      (.slt sd c, 0x0E, fun a b => if toS 64 a < toS 64 b then 1 else 0), (.sltu sd c, 0x0F, fun a b => if a < b then 1 else 0),
      (.fadd sd c, 0x10, fun a b => f32.add (a % 2 ^ 32) (b % 2 ^ 32)), (.fsub sd c, 0x11, fun a b => f32.sub (a % 2 ^ 32) (b % 2 ^ 32)),
      (.fmul sd c, 0x12, fun a b => f32.mul (a % 2 ^ 32) (b % 2 ^ 32)), (.fdiv sd c, 0x13, fun a b => f32.div (a % 2 ^ 32) (b % 2 ^ 32)),
      (.fmin sd c, 0x14, fun a b => f32.minNum (a % 2 ^ 32) (b % 2 ^ 32)),
      (.fmax sd c, 0x15, fun a b => f32.maxNum (a % 2 ^ 32) (b % 2 ^ 32)),
      (.ldi sd c, 0x02, fun _ _ => ofS 64 (imm22S w)), (.ldh sd c, 0x03, fun a _ => a * 2 ^ 16 % 2 ^ 64 ||| bits w 0 16),
      (.addi sd c, 0x0D, fun a _ => ofS 64 ((a : Int) + imm18S w)),
      (.fcvt sd c, 0x16, fun a _ => f32.ofInt (toS 64 a)), (.ftoi sd c, 0x17, fun a _ => ofS 64 (f32.toInt64 (a % 2 ^ 32)))] :
        List (Instr × Nat × (Nat → Nat → Nat))) →
    exec i s = .next (((s.issued sd c).setX sd c (iD w)
      (g ((s.ctx sd c).reg (iA w)) ((s.ctx sd c).reg (iB w)))).stcGoOn sd c)) ∧
  (∀ sd c (s : State), (s.ctx sd c).reg 0 = 0 ∧ ∀ v, s.setX sd c 0 v = s) ∧
  (∀ sd c n (s : State) v, n ≠ 0 → (s.setX sd c n v).ctx sd c = { s.ctx sd c with x := setNth 0 (s.ctx sd c).x n (v % 2 ^ 64) } ∧
    ((s.setX sd c n v).ctx sd c).reg n = v % 2 ^ 64)

/-- Clauses of R404, R406, R407: NOP, HALT, branches and JMP; a branch target is the branch's own index plus the
offset. Clauses of R404, R407, R408, R420: an instruction row does nothing where the context does not stand ready
before that opcode; a word that is no instruction of the place faults the context with BAD_INSTR. -/
def Obligations.StitchControlFlow : Prop :=
  (∀ sd c (s : State) w, s.Issues sd c 0x01 w → exec (.nopInstr sd c) s = .next ((s.issued sd c).stcGoOn sd c)) ∧
  (∀ sd c (s : State) w, s.Issues sd c 0x00 w → exec (.halt sd c) s = .next
    ((((s.issued sd c).unwait sd c).setCtxState sd c 0).wx sd I.STC_CTX_STAT_CAUSE L.STC_CTX_STAT_CAUSE 1 c)) ∧
  (∀ sd c (s : State) w i op (g : Nat → Nat → Bool) (off : Int), s.Issues sd c op w →
    (i, op, g, off) ∈ ([
      (.beq sd c, 0x18, fun a b => a == b, imm18S w), (.bne sd c, 0x19, fun a b => a != b, imm18S w),
      (.blt sd c, 0x1A, fun a b => decide (toS 64 a < toS 64 b), imm18S w), (.jmp sd c, 0x1B, fun _ _ => true, imm22S w)] :
        List (Instr × Nat × (Nat → Nat → Bool) × Int)) →
    (g ((s.ctx sd c).reg (iD w)) ((s.ctx sd c).reg (iA w)) = false → exec i s = .next ((s.issued sd c).stcGoOn sd c)) ∧
    (g ((s.ctx sd c).reg (iD w)) ((s.ctx sd c).reg (iA w)) = true → 0 ≤ (s.ctx sd c).pc + off →
      exec i s = .next (((s.issued sd c).setPc sd c ((s.ctx sd c).pc + off).toNat).stcGoOn sd c)) ∧
    (g ((s.ctx sd c).reg (iD w)) ((s.ctx sd c).reg (iA w)) = true → (s.ctx sd c).pc + off < 0 →
      exec i s = .next (((((s.issued sd c).free.2).setPc sd c (ofS 14 ((s.ctx sd c).pc + off))).stcFault sd c 4
        (s.issued sd c).free.1).stcGoOn sd c))) ∧
  (∀ sd c v (s : State), ((s.setPc sd c v).ctx sd c).pc = v) ∧
  (∀ sd c (s : State) i op, (i, op) ∈ [(Instr.halt sd c, 0x00), (.nopInstr sd c, 0x01), (.ldi sd c, 0x02), (.ldh sd c, 0x03),
      (.add sd c, 0x04), (.sub sd c, 0x05), (.and sd c, 0x06), (.or sd c, 0x07), (.xor sd c, 0x08), (.shl sd c, 0x09),
      (.shr sd c, 0x0A), (.sra sd c, 0x0B), (.mul sd c, 0x0C), (.addi sd c, 0x0D), (.slt sd c, 0x0E), (.sltu sd c, 0x0F),
      (.fadd sd c, 0x10), (.fsub sd c, 0x11), (.fmul sd c, 0x12), (.fdiv sd c, 0x13), (.fmin sd c, 0x14), (.fmax sd c, 0x15),
      (.fcvt sd c, 0x16), (.ftoi sd c, 0x17), (.beq sd c, 0x18), (.bne sd c, 0x19), (.blt sd c, 0x1A), (.jmp sd c, 0x1B),
      (.ld sd c, 0x20), (.st sd c, 0x21), (.srd sd c, 0x22), (.swr sd c, 0x23), (.waits sd c, 0x24), (.waitt sd c, 0x25),
      (.rdw sd c, 0x28), (.sys sd c, 0x29), (.putv sd c, 0x2B), (.emit sd c, 0x2C)] →
    (s.stcReady sd c = false → exec i s = .next s) ∧
    (s.stcReady sd c = true → stcWordOk sd (s.stcWord sd c) = false → exec i s = .next (s.stcFault sd c 3 (s.stcWord sd c))) ∧
    (s.stcReady sd c = true → stcWordOk sd (s.stcWord sd c) = true → iOp (s.stcWord sd c) ≠ op → exec i s = .next s)) ∧
  (∀ c (s : State) i op, (i, op) ∈ [(Instr.rdc c, 0x26), (.crc c, 0x2A)] →
    (s.stcReady .itu c = false → exec i s = .next s) ∧
    (s.stcReady .itu c = true → stcWordOk .itu (s.stcWord .itu c) = false →
      exec i s = .next (s.stcFault .itu c 3 (s.stcWord .itu c))) ∧
    (s.stcReady .itu c = true → stcWordOk .itu (s.stcWord .itu c) = true → iOp (s.stcWord .itu c) ≠ op → exec i s = .next s)) ∧
  (∀ c (s : State), s.stcReady .lam c = false → exec (.rdt c) s = .next s) ∧
  (∀ w, stcWordOk .lam w = true → iOp w ≠ 0x26 ∧ iOp w ≠ 0x2A) ∧ (∀ w, stcWordOk .itu w = true → iOp w ≠ 0x27) ∧
  (∀ sd c cause w (s : State), c < stcContexts sd → cause ≠ 6 → cause < 16 →
    (s.stcFault sd c cause w).ctxState sd c = 6 ∧ ((s.stcFault sd c cause w).ctx sd c).wait = .none ∧
    (s.stcFault sd c cause w).rx sd I.STC_CTX_STAT_CAUSE L.STC_CTX_STAT_CAUSE c = cause)

/-- Clauses of R407, R412: local memory, slot buffers. -/
def Obligations.StitchMemoryAndSlots : Prop :=
  (∀ sd c (s : State) w, s.Issues sd c 0x20 w → s.stcAddr sd c w < stcMem sd → exec (.ld sd c) s = .next
    (((s.issued sd c).setX sd c (iD w) (Sparse.get 0 (s.stc sd).mem (8192 * c + s.stcAddr sd c w))).stcGoOn sd c)) ∧
  (∀ sd c (s : State) w, s.Issues sd c 0x21 w → s.stcAddr sd c w < stcMem sd → exec (.st sd c) s = .next
    (((s.issued sd c).setStc sd { (s.issued sd c).stc sd with
      mem := Sparse.set 0 (s.stc sd).mem (8192 * c + s.stcAddr sd c w)
        ((s.ctx sd c).reg (iD w) % 2 ^ 64) }).stcGoOn sd c)) ∧
  (∀ sd c (s : State) w, s.Issues sd c 0x20 w → stcMem sd ≤ s.stcAddr sd c w → exec (.ld sd c) s = .next
    ((((s.issued sd c).setPc sd c (s.ctx sd c).pc).stcFault sd c 5 w).stcGoOn sd c)) ∧
  (∀ sd c (s : State) w, s.Issues sd c 0x21 w → stcMem sd ≤ s.stcAddr sd c w → exec (.st sd c) s = .next
    ((((s.issued sd c).setPc sd c (s.ctx sd c).pc).stcFault sd c 5 w).stcGoOn sd c)) ∧
  (∀ sd c w (s : State), s.stcAddr sd c w = ofS 64 (((s.ctx sd c).reg (iA w) : Int) + imm18S w)) ∧
  (∀ sd c (s : State) w n, s.Issues sd c 0x22 w → n = ((s.ctx sd c).reg (iA w) + imm18 w) % 2 ^ 64 → n < stcSlots sd →
    exec (.srd sd c) s = .next ((((s.issued sd c).stcStall sd c (.read n (iD w))).stcSettle sd).stcGoOn sd c)) ∧
  (∀ sd c (s : State) w n, s.Issues sd c 0x22 w → n = ((s.ctx sd c).reg (iA w) + imm18 w) % 2 ^ 64 → stcSlots sd ≤ n →
    exec (.srd sd c) s = .next
      ((((s.issued sd c).free.2.stcStall sd c (.read ((s.issued sd c).free.1 % stcSlots sd) (iD w))).stcSettle sd).stcGoOn sd c)) ∧
  (∀ sd c (s : State) w n, s.Issues sd c 0x23 w → n = ((s.ctx sd c).reg (iA w) + imm18 w) % 2 ^ 64 → n < stcSlots sd →
    s.slotFull sd n = false ∨ s.rx sd I.SLOT_CFG_LOSSY L.SLOT_CFG_LOSSY n ≠ 1 → exec (.swr sd c) s = .next
      ((((s.issued sd c).stcStall sd c (.write n ((s.ctx sd c).reg (iD w)))).stcSettle sd).stcGoOn sd c)) ∧
  (∀ sd c (s : State) w n, s.Issues sd c 0x23 w → n = ((s.ctx sd c).reg (iA w) + imm18 w) % 2 ^ 64 → n < stcSlots sd →
    s.slotFull sd n = true → s.rx sd I.SLOT_CFG_LOSSY L.SLOT_CFG_LOSSY n = 1 → exec (.swr sd c) s = .next
      (((((s.issued sd c).ix sd I.SLOT_CNT_DROP L.SLOT_CNT_DROP).ix sd I.STC_CNT_FULL L.STC_CNT_FULL c).setLast sd c 3).stcGoOn sd c)) ∧
  (∀ sd c wt (s : State), c < stcContexts sd → (s.stcStall sd c wt).ctxState sd c = 4 ∧ ((s.stcStall sd c wt).ctx sd c).wait = wt ∧
    ((s.stcStall sd c wt).ctx sd c).since = s.now sd) ∧
  (∀ sd c n d (s : State), c < stcContexts sd → n < stcSlots sd → (s.ctx sd c).wait = .read n d → s.slotFull sd n = true →
    s.stcServe sd c = ((((s.slotEmpty sd n).setX sd c d (s.slotData sd n)).setLast sd c 0)).stcResume sd c ∧
    (s.slotEmpty sd n).slotFull sd n = false) ∧
  (∀ sd c n v (s : State), c < stcContexts sd → n < stcSlots sd → (s.ctx sd c).wait = .write n v → s.slotFull sd n = false →
    s.stcServe sd c = ((s.slotFill sd n v).setLast sd c 0).stcResume sd c ∧
    (s.slotFill sd n v).slotFull sd n = true ∧ (s.slotFill sd n v).slotData sd n = v % 2 ^ 64)

/-- Clauses of R410 to R412: waits for slot boundaries and fleet times begin, end and time out. -/
def Obligations.StitchWaitsBeginAndEnd : Prop :=
  (∀ sd c (s : State) w, s.Issues sd c 0x24 w → exec (.waits sd c) s = .next
    (((s.issued sd c).setCtx sd c { (s.issued sd c).ctx sd c with
      wait := .slot (bits w 0 6) (bits w 6 4) (bitAt w 10) none, since := s.now sd }).setCtxState sd c 2)) ∧
  (∀ sd c (s : State) sl d ph t n e, (s.ctx sd c).wait = .slot sl d ph (some (t, n, e)) →
    sd = .lam ∨ e + s.itu.par.tapLat + 1 ≤ s.itu.smp.cyc →
    exec (.waitsRelease sd c) s = .next ((s.setCtx sd c { s.ctx sd c with latch := some (t, n, e) }).stcResume sd c)) ∧
  (∀ c (s : State) sl d ph t n e, (s.ctx .itu c).wait = .slot sl d ph (some (t, n, e)) → s.itu.smp.cyc < e + s.itu.par.tapLat + 1 →
    exec (.waitsRelease .itu c) s = .next s) ∧
  (∀ sd c (s : State) sl d ph, (s.ctx sd c).wait = .slot sl d ph none →
    exec (.waitsRelease sd c) s = .next s ∧ exec (.waittRelease sd c) s = .next s ∧ exec (.slotWaitTimeout sd c) s = .next s) ∧
  (∀ sd c (s : State) n d, (s.ctx sd c).wait = .read n d →
    s.rx sd I.SLOT_CFG_TO_US L.SLOT_CFG_TO_US n * 1000 ≤ s.now sd - (s.ctx sd c).since →
    exec (.slotWaitTimeout sd c) s = .next
      ((((s.setX sd c d 0).setLast sd c 1).ix sd I.STC_CNT_EMPTY_TO L.STC_CNT_EMPTY_TO c).stcResume sd c)) ∧
  (∀ sd c (s : State) n v, (s.ctx sd c).wait = .write n v →
    s.rx sd I.SLOT_CFG_TO_US L.SLOT_CFG_TO_US n * 1000 ≤ s.now sd - (s.ctx sd c).since →
    exec (.slotWaitTimeout sd c) s = .next
      (((s.setLast sd c 2).ix sd I.STC_CNT_FULL L.STC_CNT_FULL c).stcResume sd c)) ∧
  (∀ sd c (s : State) n, (∃ d, (s.ctx sd c).wait = .read n d) ∨ (∃ v, (s.ctx sd c).wait = .write n v) →
    s.now sd - (s.ctx sd c).since < s.rx sd I.SLOT_CFG_TO_US L.SLOT_CFG_TO_US n * 1000 →
    exec (.slotWaitTimeout sd c) s = .next s) ∧
  (∀ sd c (s : State), c < stcContexts sd → s.slotsOk sd = false → 260000 ≤ s.now sd - (s.ctx sd c).refillAt →
    ∃ u : State, exec (.budgetRefill sd c) s = .next u ∧ u.ctx sd c = { s.ctx sd c with spent := 0, refillAt := s.now sd } ∧
      u.ctxState sd c = if s.ctxState sd c = 5 then 1 else s.ctxState sd c) ∧
  (∀ sd c (s : State), s.slotsOk sd = true ∨ s.now sd - (s.ctx sd c).refillAt < 260000 → exec (.budgetRefill sd c) s = .next s) ∧
  (∀ sd c (s : State), c < stcContexts sd → ((s.ctx sd c).pc < (s.ctx sd c).nInstr) →
    (s.ctx sd c).spent < s.rx sd I.STC_CTX_BUDGET L.STC_CTX_BUDGET c →
    (s.stcResume sd c).ctxState sd c = 1 ∧ ((s.stcResume sd c).ctx sd c).wait = .none)

/-- Clauses of R405, R407, R408, R414: reads of counters, trackers, registers and system values, and the CRC units.
Clauses of R405, R414 to R416: EMIT and PUTV. -/
def Obligations.StitchReadsRecordsAndValues : Prop :=
  (∀ c (s : State) w i, s.Issues .itu c 0x26 w → i = ((s.ctx .itu c).reg (iA w) + bits w 0 12) % 4096 →
    exec (.rdc c) s = .next (((s.issued .itu c).setX .itu c (iD w)
      (if bitAt w 12 then Sparse.get 0 s.itu.smp.vals i
       else if (s.blk (i / 256)).copied then Sparse.get 0 s.itu.smp.copies i
       else Sparse.get 0 s.itu.smp.copies i ||| 2 ^ 63)).stcGoOn .itu c)) ∧
  (∀ c (s : State) w, s.Issues .lam c 0x27 w → bits w 0 7 < 96 → 2 ^ 21 ≤ (s.ctx .lam c).reg (iA w) ∨
      s.trkInUse ((s.ctx .lam c).reg (iA w)) = false →
    exec (.rdt c) s = .next (((s.issued .lam c).setX .lam c (iD w) 0).stcGoOn .lam c)) ∧
  (∀ c (s : State) w i, s.Issues .lam c 0x27 w → i = (s.ctx .lam c).reg (iA w) → bits w 0 7 < 96 → i < 2 ^ 21 →
    s.trkInUse i = true → exec (.rdt c) s = .next (((s.issued .lam c).setX .lam c (iD w)
      (nth ((s.issued .lam c).trkSnapCopy i).lam.trkSnap (bits w 0 7))).stcGoOn .lam c)) ∧
  (∀ c (s : State) w, s.Issues .lam c 0x27 w → 96 ≤ bits w 0 7 → exec (.rdt c) s = .next
    (((s.issued .lam c).free.2.setX .lam c (iD w) ((s.issued .lam c).free.1 % 2 ^ 32)).stcGoOn .lam c)) ∧
  (∀ sd c (s : State) w a, s.Issues sd c 0x28 w → a = 4 * (((s.ctx sd c).reg (iA w) + imm18 w) % 2 ^ 64) →
    exec (.rdw sd c) s = .next ((((s.issued sd c).stcRead sd c a).2.setX sd c (iD w)
      (((s.issued sd c).stcRead sd c a).1 % 2 ^ 32)).stcGoOn sd c)) ∧
  (∀ c a (s : State), 0x10000 ≤ a → s.stcRead .itu c a = (0, s)) ∧
  (∀ sd c a (s : State), (s.stcRead sd c a).2.latches = s.latches) ∧
  (∀ sd c (s : State) w, s.Issues sd c 0x29 w → ∃ v, exec (.sys sd c) s = .next (((s.issued sd c).setX sd c (iD w) v).stcGoOn sd c) ∧
    (bits w 0 4 = 0 → v = s.now sd) ∧ (bits w 0 4 = 1 → v = ((s.ctx sd c).latch.getD (0, 0, 0)).1) ∧
    (bits w 0 4 = 2 → v = ((s.ctx sd c).latch.getD (0, 0, 0)).2.1) ∧ (bits w 0 4 = 3 → v = ((s.ctx sd c).latch.getD (0, 0, 0)).2.2) ∧
    (bits w 0 4 = 4 → v = s.mc sd) ∧ (bits w 0 4 = 5 → v = if sd = .itu then s.ri I.PART_STAT_GEN (s.owner c) else 0) ∧
    (bits w 0 4 = 6 → v = c) ∧ (bits w 0 4 = 7 → v = s.rx sd I.STC_CTX_STAT_LAST L.STC_CTX_STAT_LAST c) ∧
    (bits w 0 4 = 8 → v = s.rx sd I.CUFF_EPOCH L.CFG_EPOCH) ∧ (9 ≤ bits w 0 4 → v = 0)) ∧
  (∀ c (s : State) w, s.Issues .itu c 0x2A w → bitAt w 6 = true → exec (.crc c) s = .next
    (((s.issued .itu c).crcSel (bits w 0 2) ((s.ctx .itu c).reg (iD w) % 4)).stcGoOn .itu c)) ∧
  (∀ c (s : State) w, s.Issues .itu c 0x2A w → bitAt w 6 = false → bitAt w 5 = true → exec (.crc c) s = .next
    (((s.issued .itu c).setX .itu c (iD w) ((s.issued .itu c).crcResult (bits w 0 2))).stcGoOn .itu c)) ∧
  (∀ c (s : State) w, s.Issues .itu c 0x2A w → bitAt w 6 = false → bitAt w 5 = false → exec (.crc c) s = .next
    (((s.issued .itu c).crcPut (bits w 0 2) (leBytes (bits w 2 3 + 1) ((s.ctx .itu c).reg (iD w)))).stcGoOn .itu c)) ∧
  (∀ c (s : State) w, s.Issues .itu c 0x2C w → s.ri I.PART_STAT_CUFF (s.owner c) = 1 →
    exec (.emit .itu c) s = .next (((s.issued .itu c).setLast .itu c 11).stcGoOn .itu c)) ∧
  (∀ c (s : State) w ws sh a, s.Issues .itu c 0x2C w → s.ri I.PART_STAT_CUFF (s.owner c) ≠ 1 →
    a = (s.ctx .itu c).reg (iA w) → a + 2 * bits w 5 8 ≤ stcMem .itu →
    ws = (List.range (2 * bits w 5 8)).flatMap
      (fun k => [s.stcMemAt .itu c (a + k) % 2 ^ 32, s.stcMemAt .itu c (a + k) / 2 ^ 32]) →
    sh = short (if bitAt w 13 then ((s.ctx .itu c).latch.getD (0, 0, 0)).1 else s.now .itu) →
    exec (.emit .itu c) s = .next (((s.issued .itu c).stcOffer c
      ((s.issued .itu c).ituRec (bits w 3 2) (0x0F0 + bits w 0 3) (s.owner c) sh ws)).stcGoOn .itu c)) ∧
  (∀ c (s : State) w ws sh a r, s.Issues .lam c 0x2C w → a = (s.ctx .lam c).reg (iA w) → a + 2 * bits w 5 8 ≤ stcMem .lam →
    ws = (List.range (2 * bits w 5 8)).flatMap
      (fun k => [s.stcMemAt .lam c (a + k) % 2 ^ 32, s.stcMemAt .lam c (a + k) / 2 ^ 32]) →
    sh = short (if bitAt w 13 then ((s.ctx .lam c).latch.getD (0, 0, 0)).1 else s.now .lam) →
    r = (s.issued .lam c).lamRec (bits w 3 2) (0x0F0 + bits w 0 3) (s.issued .lam c).nodeId
      ((s.issued .lam c).rl L.STAT_NODE_GEN) sh ws →
    exec (.emit .lam c) s = .next ((if r.2 then (r.1.setLast .lam c 0).il L.STC_CNT_EMIT 1 c
      else (r.1.setLast .lam c 6).il L.STC_CNT_REFUSED 1 c).stcGoOn .lam c)) ∧
  (∀ c (s : State) w, s.Issues .itu c 0x2B w → s.ri I.PART_STAT_CUFF (s.owner c) = 1 →
    exec (.putv .itu c) s = .next (((s.issued .itu c).setLast .itu c 11).stcGoOn .itu c)) ∧
  (∀ c (s : State) w, s.Issues .itu c 0x2B w → s.ri I.PART_STAT_CUFF (s.owner c) ≠ 1 → (s.ctx .itu c).latch = none →
    exec (.putv .itu c) s = .next (((s.issued .itu c).setLast .itu c 9).stcGoOn .itu c)) ∧
  (∀ c (s : State) w chan t n k, s.Issues .itu c 0x2B w → s.ri I.PART_STAT_CUFF (s.owner c) ≠ 1 →
    chan = ((s.ctx .itu c).reg (iA w) + bits w 0 12) % 4096 → (s.ctx .itu c).latch = some (t, n, k) →
    (chan, n) ∈ s.itu.stc.published →
    exec (.putv .itu c) s = .next ((((s.issued .itu c).setLast .itu c 8).ii I.STC_CNT_VAL_DUP 1 c).stcGoOn .itu c)) ∧
  (∀ c (s : State) w chan t n k u, s.Issues .itu c 0x2B w → s.ri I.PART_STAT_CUFF (s.owner c) ≠ 1 →
    chan = ((s.ctx .itu c).reg (iA w) + bits w 0 12) % 4096 → (s.ctx .itu c).latch = some (t, n, k) →
    (chan, n) ∉ s.itu.stc.published →
    u = (s.issued .itu c).stcOffer c ((s.issued .itu c).ituRec 1 0x0F0 (s.owner c) (short t)
      [chan ||| c <<< 12, (s.ctx .itu c).reg (iD w) % 2 ^ 32, n / 64 % 2 ^ 32, n % 64]) →
    exec (.putv .itu c) s = .next ((if u.ri I.STC_CTX_STAT_LAST c = 0 then
      u.setStc .itu { u.itu.stc with published := u.itu.stc.published ++ [(chan, n)] } else u).stcGoOn .itu c)) ∧
  (∀ c (s : State) w, s.Issues .lam c 0x2B w → s.role ≠ 0 →
    exec (.putv .lam c) s = .next (((s.issued .lam c).setLast .lam c 10).stcGoOn .lam c)) ∧
  (∀ c (s : State) w, s.Issues .lam c 0x2B w → s.role = 0 → (s.ctx .lam c).latch = none →
    exec (.putv .lam c) s = .next (((s.issued .lam c).setLast .lam c 9).stcGoOn .lam c)) ∧
  (∀ c (s : State) w key t n k, s.Issues .lam c 0x2B w → s.role = 0 → (s.ctx .lam c).latch = some (t, n, k) →
    key = 4096 * bits w 12 4 + ((s.ctx .lam c).reg (iA w) + bits w 0 12) % 4096 → (key, n) ∈ s.lam.stc.published →
    exec (.putv .lam c) s = .next ((((s.issued .lam c).setLast .lam c 8).il L.STC_CNT_VAL_DUP 1 c).stcGoOn .lam c)) ∧
  (∀ c (s : State) w key t n k u, s.Issues .lam c 0x2B w → s.role = 0 → (s.ctx .lam c).latch = some (t, n, k) →
    key = 4096 * bits w 12 4 + ((s.ctx .lam c).reg (iA w) + bits w 0 12) % 4096 → (key, n) ∉ s.lam.stc.published →
    u = ((s.issued .lam c).setLast .lam c 0).setStc .lam
      { (s.issued .lam c).lam.stc with published := s.lam.stc.published ++ [(key, n)] } →
    exec (.putv .lam c) s = .next ((match u.brimLookup (bits w 12 4) (short t) with
      | some (entry, epoch) => u.free.2.stitchValue (bits w 12 4) (key % 4096) ((s.ctx .lam c).reg (iD w) % 2 ^ 32) t (n / 64 % 2 ^ 32)
          (n % 64) entry epoch
          { die := u.dieId (bits w 12 4), cls := 1, typ := 0x0F0, seq := u.free.1 % 2 ^ 32, short := short t }
      | none => u).stcGoOn .lam c))

/-- Clauses of R427 to R430, R444: the compression engine takes, runs and ends the descriptors of its rings. -/
def Obligations.CompressionRunsItsDescriptors : Prop :=
  (∀ r n (s : State), s.cmpServes r = false →
    exec (.compressDescriptor r n) s = .next s ∧ exec (.decompressDescriptor r n) s = .next s) ∧
  (∀ r n (s : State), s.takeDesc r = none →
    exec (.compressDescriptor r n) s = .next s ∧ exec (.decompressDescriptor r n) s = .next s) ∧
  (∀ r (s : State), (s.cring r).run = none → s.rl L.CMP_RING_HEAD r ≠ s.rl L.CMP_RING_TAIL r →
    s.takeDesc r = some { words := s.ddrWords (s.descAddr r) 12 }) ∧
  (∀ r n (s : State) d, s.cmpServes r = true → s.takeDesc r = some d → (s.cring r).run = none → s.badDesc r d = true →
    exec (.compressDescriptor r n) s = .next ((s.setCring r (s.cring r).discard).endDesc r d Vlz.badDesc) ∧
    exec (.decompressDescriptor r n) s = .next ((s.setCring r (s.cring r).discard).endDesc r d Vlz.badDesc)) ∧
  (∀ r n (s : State) d s1 k f, s.cmpServes r = true → s.takeDesc r = some d → (s.cring r).run = none ∧ s.badDesc r d = false ∧
      s1 = s.setCring r ((s.cring r).start d) ∨ (s.cring r).run = some d ∧ s1 = s → d.op = 0 →
    s1.ddrRange d.src d.srcLen = true → s1.ddrRange d.dst 1 = true → k = min n (d.srcLen - d.pos) →
    f = State.feed r (k / 65536 + 2) (s1.ddrBytes (d.src + d.pos) (s1.cleanBytes (d.src + d.pos) k)) s1 d →
    (f.2.2 = false → exec (.compressDescriptor r n) s = .next (f.1.endDesc r f.2.1 Vlz.outLimit)) ∧
    (f.2.2 = true → s1.cleanBytes (d.src + d.pos) k < k →
      exec (.compressDescriptor r n) s = .next (f.1.endDesc r f.2.1 Vlz.poison)) ∧
    (f.2.2 = true → k ≤ s1.cleanBytes (d.src + d.pos) k → f.2.1.pos < f.2.1.srcLen → exec (.compressDescriptor r n) s = .next
      (f.1.setCring r { f.1.cring r with run := some f.2.1 }).cmpShow) ∧
    (f.2.2 = true → k ≤ s1.cleanBytes (d.src + d.pos) k → f.2.1.srcLen ≤ f.2.1.pos → f.2.1.flush = true ∨ f.2.1.fin = true →
      (f.1.cring r).block ≠ [] → exec (.compressDescriptor r n) s = .next
        ((f.1.closeBlock r f.2.1 f.2.1.fin).1.endDesc r (f.1.closeBlock r f.2.1 f.2.1.fin).2.1
          (if (f.1.closeBlock r f.2.1 f.2.1.fin).2.2 then Vlz.ok else Vlz.outLimit))) ∧
    (f.2.2 = true → k ≤ s1.cleanBytes (d.src + d.pos) k → f.2.1.srcLen ≤ f.2.1.pos → f.2.1.flush = false ∧ f.2.1.fin = false ∨
      (f.1.cring r).block = [] → exec (.compressDescriptor r n) s = .next (f.1.endDesc r f.2.1 Vlz.ok))) ∧
  (∀ r n (s : State) d s1 x, s.cmpServes r = true → s.takeDesc r = some d → (s.cring r).run = none ∧ s.badDesc r d = false ∧
      s1 = s.setCring r ((s.cring r).start d) ∨ (s.cring r).run = some d ∧ s1 = s → d.op = 1 →
    s1.ddrRange d.src d.srcLen = true → s1.ddrRange d.dst 1 = true → x = State.decBlocks r n s1 d →
    (∀ st, x.2.2 = some st → exec (.decompressDescriptor r n) s = .next (x.1.endDesc r x.2.1 st)) ∧
    (x.2.2 = none → exec (.decompressDescriptor r n) s = .next
      (x.1.setCring r { x.1.cring r with run := some x.2.1 }).cmpShow)) ∧
  (∀ r n (s : State) d s1, s.cmpServes r = true → s.takeDesc r = some d → (s.cring r).run = none ∧ s.badDesc r d = false ∧
      s1 = s.setCring r ((s.cring r).start d) ∨ (s.cring r).run = some d ∧ s1 = s →
    s1.ddrRange d.src d.srcLen = false ∨ s1.ddrRange d.dst 1 = false →
    (d.op = 0 → exec (.compressDescriptor r n) s = .next (s1.endDesc r d Vlz.memError)) ∧
    (d.op = 1 → exec (.decompressDescriptor r n) s = .next (s1.endDesc r d Vlz.memError))) ∧
  (∀ r d st (s : State), r < 2 → (((s.endDesc r d st).cring r).run = none) ∧
    (s.endDesc r d st).rl L.CMP_RING_HEAD r = (s.rl L.CMP_RING_HEAD r + 1) % s.rl L.CMP_RING_SLOTS r % 2 ^ L.CMP_RING_HEAD.width ∧
    (s.endDesc r d st).rl L.CMP_RING_STAT_LAST r = st % 2 ^ L.CMP_RING_STAT_LAST.width ∧
    (s.endDesc r d st).itu = s.itu ∧
    (st ≠ Vlz.ok → st ≠ Vlz.truncated → ((s.endDesc r d st).cring r).block = [] ∧ ((s.endDesc r d st).cring r).hist = [] ∧
      ((s.endDesc r d st).cring r).opened = false)) ∧
  (∀ iss r (s : State) d, Allowed s .lam iss (L.CMP_RING_FLUSH.addr + 0x40 * r) true 0 → r < 2 → (s.cring r).run = some d → d.op = 0 →
    (s.cring r).block ≠ [] → (s.closeBlock r d false).2.2 = true → exec (.cmpRingFlush iss r) s = .next
      (((s.closeBlock r d false).1.setCring r { (s.closeBlock r d false).1.cring r with
        run := some (s.closeBlock r d false).2.1 }).cmpShow)) ∧
  (∀ iss r (s : State), Allowed s .lam iss (L.CMP_RING_FLUSH.addr + 0x40 * r) true 0 → (s.cring r).run = none ∨ 2 ≤ r →
    exec (.cmpRingFlush iss r) s = .next s) ∧
  (∀ iss r (s : State) d, Allowed s .lam iss (L.CMP_RING_ABORT.addr + 0x40 * r) true 0 → r < 2 → (s.cring r).run = some d →
    exec (.cmpRingAbort iss r) s = .next (s.endDesc r d Vlz.aborted)) ∧
  (∀ iss r (s : State), Allowed s .lam iss (L.CMP_RING_ABORT.addr + 0x40 * r) true 0 → (s.cring r).run = none ∨ 2 ≤ r →
    exec (.cmpRingAbort iss r) s = .next s) ∧
  (∀ iss (s : State), Allowed s .lam iss L.CMP_CTL_ENABLE.addr true 0 →
    exec (.cmpCtlEnableWrite iss true) s = .next (s.wl L.CMP_CTL_ENABLE 1) ∧
    exec (.cmpCtlEnableWrite iss false) s = .next (((s.wl L.CMP_CTL_ENABLE 0).ringAbort 0).ringAbort 1))

/-- Clauses of R431, R432, R434, R435, R438: records enter the flight recorder's buffer and units of them are flushed
to NOR. -/
def Obligations.RecorderBuffersAndFlushes : Prop :=
  (∀ (s : State) o l, 2 ≤ s.recState → s.lam.anchorDue = false → s.lam.rcd.inbox = o :: l →
    exec .recorderRecordEntry s = .next ((s.setRcd { s.lam.rcd with inbox := l }).recEnter o)) ∧
  (∀ (s : State), 2 ≤ s.recState → s.lam.anchorDue = true → exec .recorderRecordEntry s = .next
    (({ s with lam := { s.lam with anchorDue := false } } : State).recEnter (s.anchorOffer 2))) ∧
  (∀ (s : State), s.recState < 2 ∨ s.lam.anchorDue = false ∧ s.lam.rcd.inbox = [] → exec .recorderRecordEntry s = .next s) ∧
  (∀ (s : State) o, s.recState = 3 → s.recEnter o = s.recLose 1) ∧
  (∀ (s : State) o, s.recState = 4 → s.recEnter o = s.recLose 2) ∧
  (∀ (s : State) o, s.recState = 2 → s.lam.rcd.lost = (0, 0, 0) → 65536 < (s.recPut o).lam.rcd.level → s.recEnter o = s.recLose 0) ∧
  (∀ (s : State) o, s.recState = 2 → s.lam.rcd.lost = (0, 0, 0) → o.flush = none → (s.recPut o).lam.rcd.level ≤ 65536 →
    (s.recPut o).lam.rcd.level ≤ s.rl L.REC_CFG_HIGH * 1024 →
    s.recEnter o = (s.recPut o).recShow ∧ (s.recEnter o).rl L.REC_BUF_LEVEL = (s.recPut o).lam.rcd.level % 2 ^ L.REC_BUF_LEVEL.width) ∧
  (∀ (s : State) o, s.recSeq % 4096 ≠ 0 ∨ o.kind = 1 → (s.recPut o).lam.rcd.buf = s.lam.rcd.buf ++ [recordBytes o s.recSeq] ∧
    (s.recPut o).recSeq = (s.recSeq + 1) % 2 ^ 40) ∧
  (∀ (s : State) o, s.recSeq % 4096 = 0 → o.kind ≠ 1 → s.recSeq < 2 ^ 40 - 2 → (s.recPut o).lam.rcd.buf = s.lam.rcd.buf ++
    [recordBytes (s.anchorOffer 1) s.recSeq, recordBytes o (s.recSeq + 1)] ∧ (s.recPut o).recSeq = s.recSeq + 2) ∧
  (∀ o seq, o.payload.length % 4 = 0 → (recordBytes o seq).length = 12 + o.payload.length) ∧
  (∀ (s : State), s.lam.rcd.want = none → exec .recorderFlushStart s = .next s) ∧
  (∀ (s : State) c, s.lam.rcd.want = some c → s.lam.rcd.unit.isSome = true ∨ (s.recState ≠ 2 ∧ s.recState ≠ 5) ∨ s.rl L.REC_STAT_ERASING ≠ 0 →
    exec .recorderFlushStart s = .next s) ∧
  (∀ (s : State) c, s.lam.rcd.want = some c → c ≠ 1 → s.lam.rcd.unit = none → s.recState = 2 ∨ s.recState = 5 →
    s.rl L.REC_STAT_ERASING = 0 → s.lam.rcd.buf ≠ [] → exec .recorderFlushStart s = .next
      (State.startUnit (s.recSectors + 1) (s.setRcd { s.lam.rcd with want := none, left := s.lam.rcd.buf.length, cause := c }))) ∧
  (∀ ok (s : State), s.lam.rcd.unit = none → exec (.unitCommit ok) s = .next s) ∧
  (∀ (s : State) u, s.lam.rcd.unit = some u → u.recs < s.lam.rcd.left → exec (.unitCommit true) s = .next
    (State.startUnit (s.recSectors + 1) (State.setRcd ((s.norProg (u.at0 + 7) [0x5A]).il L.REC_CNT_FLUSH) { s.lam.rcd with
      buf := s.lam.rcd.buf.drop u.recs, seq0 := s.lam.rcd.seq0 + u.recs, left := s.lam.rcd.left - u.recs, unit := none,
      wptr := ceil256 (s.lam.rcd.wptr + 20 + ((s.lam.rcd.buf.take u.recs).map List.length).sum) }))) ∧
  (∀ (s : State) u, s.lam.rcd.unit = some u → s.lam.rcd.left ≤ u.recs → s.recState = 2 → s.lam.rcd.want = none → ∃ t : State,
    exec (.unitCommit true) s = .next t ∧ t.lam.rcd.buf = s.lam.rcd.buf.drop u.recs ∧ t.lam.rcd.unit = none ∧ t.recState = 2 ∧
    t.rl L.REC_STAT_FLUSHING = 0 ∧ t.lam.brd.nor = (s.norProg (u.at0 + 7) [0x5A]).lam.brd.nor ∧ t.itu = s.itu) ∧
  (∀ (s : State) u, s.lam.rcd.unit = some u → exec (.unitCommit false) s = .next (State.startUnit (s.recSectors + 1)
    ((s.setRcd { s.lam.rcd with unit := none }).norError s.lam.rcd.sector))) ∧
  (∀ (s : State) sec, ∃ u : State, s.norError sec = u.recEvent 4 0 ∧ u.rl L.REC_STAT_NOR_ERR = 1 ∧
    u.lam.rcd = { s.lam.rcd with skip := s.lam.rcd.skip ++ [sec] }) ∧
  (∀ iss (s : State), Allowed s .lam iss L.REC_CTL_FLUSH.addr true 0 → exec (.recCtlFlush iss) s = .next (s.recFlush 2)) ∧
  (∀ (s : State) cause, s.recFlush cause = (s.recDrain.recWant cause).flushTry) ∧
  (∀ iss (s : State), Allowed s .lam iss L.REC_CTL_ENABLE.addr true 0 → s.rl L.REC_CTL_ENABLE = 0 → s.recSectors < 3 →
    exec (.recCtlEnableWrite iss true) s = .next (s.wl L.REC_CTL_ENABLE 1)) ∧
  (∀ iss (s : State), Allowed s .lam iss L.REC_CTL_ENABLE.addr true 0 → s.rl L.REC_CTL_ENABLE = 0 → 3 ≤ s.recSectors →
    exec (.recCtlEnableWrite iss true) s = .next (s.wl L.REC_CTL_ENABLE 1).recScan) ∧
  (∀ iss (s : State), Allowed s .lam iss L.REC_CTL_ENABLE.addr true 0 → s.rl L.REC_CTL_ENABLE = 1 →
    exec (.recCtlEnableWrite iss true) s = .next s) ∧
  (∀ iss (s : State), Allowed s .lam iss L.REC_CTL_ENABLE.addr true 0 → exec (.recCtlEnableWrite iss false) s = .next
    (((s.wl L.REC_CTL_ENABLE 0).wl L.REC_STAT_STATE 0).wl L.REC_STAT_ERASING 0))

/-- Clauses of R439, R440, R442: the recorder's commands, its freeze and its erases. -/
def Obligations.RecorderCommandsAndErases : Prop :=
  (∀ h off n (s : State), s.pdOn 2 = true → 4 ≤ n → n ≤ 3840 → n % 4 = 0 → off + n ≤ 65536 * s.recSectors → s.recState ≠ 5 → s.recState ≠ 6 →
    exec (.recRead h off n) s = .next (s.lamReply { h with opcode := 0x50 } { data := bytesToWords (s.norRead off n) })) ∧
  (∀ h off n (s : State), s.pdOn 2 = true → n < 4 ∨ 3840 < n ∨ n % 4 ≠ 0 ∨ 65536 * s.recSectors < off + n →
    exec (.recRead h off n) s = .next (s.lamReply { h with opcode := 0x50 } { status := St.badParam })) ∧
  (∀ h off n (s : State), s.pdOn 2 = true → 4 ≤ n → n ≤ 3840 → n % 4 = 0 → off + n ≤ 65536 * s.recSectors → s.recState = 5 ∨ s.recState = 6 →
    exec (.recRead h off n) s = .next (s.lamReply { h with opcode := 0x50 } { status := St.busy })) ∧
  (∀ h (s : State), s.pdOn 2 = false →
    (∀ off n, exec (.recRead h off n) s = .next (s.lamReply { h with opcode := 0x50 } { status := St.domainOff })) ∧
    (∀ b, exec (.recFreeze h b) s = .next (s.lamReply { h with opcode := 0x51 } { status := St.domainOff })) ∧
    exec (.recFlush h) s = .next (s.lamReply { h with opcode := 0x52 } { status := St.domainOff }) ∧
    exec (.recClear h) s = .next (s.lamReply { h with opcode := 0x53 } { status := St.domainOff }) ∧
    ∀ b t, exec (.recNote h b t) s = .next (s.lamReply { h with opcode := 0x54 } { status := St.domainOff })) ∧
  (∀ h (s : State), s.pdOn 2 = true → s.recState = 2 → ∃ u : State,
    exec (.recFreeze h true) s = .next (u.lamReply { h with opcode := 0x51 } {}) ∧ u.recState = 3 ∧
    u.lam.rcd.frozen = some s.lam.clk.ns ∧ u.itu = s.itu) ∧
  (∀ h (s : State), s.pdOn 2 = true → s.recState ≠ 2 →
    exec (.recFreeze h true) s = .next (s.lamReply { h with opcode := 0x51 } {})) ∧
  (∀ h (s : State), s.pdOn 2 = true → exec (.recFreeze h false) s = .next (s.unfreeze.lamReply { h with opcode := 0x51 } {})) ∧
  (∀ (s : State), s.recState ≠ 3 → s.unfreeze = s) ∧
  (∀ (s : State), s.recState = 3 → s.lam.rcd.lost = (0, 0, 0) → s.unfreeze =
    ((s.wl L.REC_STAT_STATE 2).setRcd { s.lam.rcd with frozen := none }).flushTry) ∧
  (∀ (s : State) t, s.lam.rcd.frozen = some t → s.rl L.REC_FREEZE_MS * 1000000 ≤ s.lam.clk.ns - t →
    exec .recFreezeTimeout s = .next s.unfreeze) ∧
  (∀ (s : State), s.lam.rcd.frozen = none ∨ (∃ t, s.lam.rcd.frozen = some t ∧ s.lam.clk.ns - t < s.rl L.REC_FREEZE_MS * 1000000) →
    exec .recFreezeTimeout s = .next s) ∧
  (∀ h (s : State), s.pdOn 2 = true →
    exec (.recFlush h) s = .next ((s.recDrain.recWant 2).flushTry.lamReply { h with opcode := 0x52 } {})) ∧
  (∀ h (s : State), s.pdOn 2 = true → s.recState ≠ 3 → 2 ≤ s.recState → s.rl L.REC_STAT_ERASING = 0 → ∃ u : State,
    exec (.recClear h) s = .next ((State.eraseStart (State.eraseAll u)).lamReply { h with opcode := 0x53 } {}) ∧
    u.rl L.REC_LOG_ID = (s.rl L.REC_LOG_ID + 1) % 65536 % 2 ^ L.REC_LOG_ID.width ∧ u.lam.rcd.clearing = true ∧ u.itu = s.itu) ∧
  (∀ h (s : State), s.pdOn 2 = true → s.recState = 3 ∨ s.recState < 2 ∨ s.rl L.REC_STAT_ERASING = 1 →
    exec (.recClear h) s = .next (s.lamReply { h with opcode := 0x53 } { status := St.busy })) ∧
  (∀ (s : State), s.eraseAll.lam.rcd.erases = s.lam.rcd.erases ++ ((List.range s.recSectors).drop 2).map (fun t => (t, s.nextErases t)) ∧
    s.eraseAll.lam.rcd.sector = 2 ∧ s.eraseAll.lam.rcd.wptr = 256) ∧
  (∀ h b t (s : State), s.pdOn 2 = true → t ≠ [] → t.length ≤ 1024 → exec (.recNote h b t) s = .next
    ((s.recOffer { kind := 5, flush := if b then some 4 else none, payload := t }).flushTry.lamReply { h with opcode := 0x54 } {})) ∧
  (∀ h b t (s : State), s.pdOn 2 = true → t = [] ∨ 1024 < t.length →
    exec (.recNote h b t) s = .next (s.lamReply { h with opcode := 0x54 } { status := St.badParam })) ∧
  (∀ ok (s : State), s.lam.rcd.erases = [] ∨ s.rl L.REC_STAT_ERASING = 0 → exec (.norEraseDone ok) s = .next s) ∧
  (∀ (s : State) t x p l, s.lam.rcd.erases = (t, x) :: p :: l → s.rl L.REC_STAT_ERASING = 1 →
    exec (.norEraseDone true) s = .next ((s.setRcd { s.lam.rcd with erases := p :: l }).erased t x).eraseStart ∧
    exec (.norEraseDone false) s = .next ((s.setRcd { s.lam.rcd with erases := p :: l }).norError t).eraseStart) ∧
  (∀ (s : State) t x, s.lam.rcd.erases = [(t, x)] → s.rl L.REC_STAT_ERASING = 1 →
    exec (.norEraseDone true) s = .next ((s.setRcd { s.lam.rcd with erases := [] }).erased t x).erasesDone ∧
    exec (.norEraseDone false) s = .next ((s.setRcd { s.lam.rcd with erases := [] }).norError t).erasesDone)

/-- Clauses of R448, R449, R453 to R457: straps, boot, position and keys. -/
def Obligations.BootPositionAndKeys : Prop :=
  (∀ role sb pv ba (s : State), s.lam.pins.por = false → ∃ u : State, exec (.porNRise role sb pv ba) s = .next u.bootChoose ∧
    u.rl L.LAM_STRAP_ROLE = role % 4 ∧ u.rl L.LAM_STRAP_PROV = (if pv then 1 else 0) ∧
    u.rl L.LAM_STRAP_BOOT_ALT = (if ba then 1 else 0) ∧ u.rl L.LAM_STRAP_STANDBY = (if sb = true ∧ role % 4 = 3 then 1 else 0) ∧
    u.lam.pins.por = true ∧ u.itu = s.itu ∧ u.lam.brd = s.lam.brd ∧
    u.rl L.CMD_MERGE_US = 1000 * (role % 4 + 1) ∧ u.rl L.DIGF_CLOSE_MS = 2000 + 2 * (role % 4)) ∧
  (∀ role sb pv ba (s : State), s.lam.pins.por = true → exec (.porNRise role sb pv ba) s = .next s) ∧
  (∀ (s : State), (s.imageCheck s.lam.brd.nor 0).2.1 = 0 →
    ((s.imageCheck s.lam.brd.nor 0).1.imageCheck (s.imageCheck s.lam.brd.nor 0).1.lam.brd.nor 0x1000000).2.1 = 0 →
    (s.imageCheck s.lam.brd.nor 0).2.2 >
      ((s.imageCheck s.lam.brd.nor 0).1.imageCheck (s.imageCheck s.lam.brd.nor 0).1.lam.brd.nor 0x1000000).2.2 →
    s.bootChoose.rl L.LAM_BOOT_STATE = 1 ∧ s.bootChoose.rl L.LAM_BOOT_IMAGE = 0) ∧
  (∀ (s : State), (s.imageCheck s.lam.brd.nor 0).2.1 ≠ 0 →
    ((s.imageCheck s.lam.brd.nor 0).1.imageCheck (s.imageCheck s.lam.brd.nor 0).1.lam.brd.nor 0x1000000).2.1 ≠ 0 →
    s.bootChoose.rl L.LAM_BOOT_STATE = 2) ∧
  (∀ (s : State), ∃ u : State, exec .porNAssert s = .next u ∧ u.lam.brd = { nor := s.lam.brd.nor } ∧ u.lam.keys = s.lam.keys ∧
    u.itu = s.itu ∧ u.lam.ddr = [] ∧ u.lam.pins.por = false ∧ u.rl L.KEY_STAT_PROG = s.rl L.KEY_STAT_PROG % 2 ^ L.KEY_STAT_PROG.width ∧
    u.rl L.KEY_REVOKE = s.rl L.KEY_REVOKE % 2 ^ L.KEY_REVOKE.width ∧ u.rl L.KEY_MIN_FW = s.rl L.KEY_MIN_FW % 2 ^ L.KEY_MIN_FW.width) ∧
  (∀ iss (s : State), Allowed s .lam iss L.LAM_BOOT_CMD_RUN.addr true 0 → s.rl L.LAM_BOOT_STATE = 2 → ∃ t : State,
    exec (.lamBootCmdRun iss) s = .next t ∧
    ((s.imageCheck s.lam.brd.sram 0).2.1 = 0 → t.rl L.LAM_BOOT_STATE = 1 ∧ t.rl L.LAM_BOOT_IMAGE = 2) ∧
    ((s.imageCheck s.lam.brd.sram 0).2.1 ≠ 0 →
      t = (s.imageCheck s.lam.brd.sram 0).1.wl L.LAM_BOOT_LAST_CHECK (s.imageCheck s.lam.brd.sram 0).2.1)) ∧
  (∀ iss (s : State), Allowed s .lam iss L.LAM_BOOT_CMD_RUN.addr true 0 → s.rl L.LAM_BOOT_STATE ≠ 2 →
    exec (.lamBootCmdRun iss) s = .next s) ∧
  (∀ iss r k t (s : State), Allowed s .lam iss L.LAM_POS_ROW.addr true 0 → (∀ p, p < 24 → s.portRole p = 0) →
    (∀ q, q < 16 → s.rl L.LNK_CTL_ENABLE q = 0) → ∃ u : State,
    exec (.lamPosWrite iss r k t) s = .next (u.wl L.LAM_NODE u.nodeNo) ∧ u.rl L.LAM_POS_ROW = r % 2 ^ L.LAM_POS_ROW.width ∧
    u.rl L.LAM_POS_RACK = k % 2 ^ L.LAM_POS_RACK.width ∧ u.rl L.LAM_POS_TRAY = t % 2 ^ L.LAM_POS_TRAY.width ∧ u.itu = s.itu) ∧
  (∀ iss r k t (s : State), Allowed s .lam iss L.LAM_POS_ROW.addr true 0 → (∃ p, p < 24 ∧ s.portRole p ≠ 0) ∨
    (∃ q, q < 16 ∧ s.rl L.LNK_CTL_ENABLE q ≠ 0) → exec (.lamPosWrite iss r k t) s = .next s) ∧
  (∀ iss k (s : State) d, Allowed s .lam iss L.KEY_PROG_GO.addr true 0 → s.key k = none →
    d = wordsToBytes ((List.range 24).map fun i => s.rl L.KEY_PROG_DATA i) → k < 28 → s.rl L.LAM_STRAP_PROV = 1 →
    exec (.keyProgGo iss k) s = .next (State.wl { s with lam := { s.lam with keys := s.lam.keys ++ [(k, d.take 96)] } }
      L.KEY_STAT_PROG (s.rl L.KEY_STAT_PROG ||| 1 <<< k))) ∧
  (∀ iss k (s : State) d, Allowed s .lam iss L.KEY_PROG_GO.addr true 0 → s.key k = none →
    d = wordsToBytes ((List.range 24).map fun i => s.rl L.KEY_PROG_DATA i) → 32 ≤ k → k < 48 → s.rl L.LAM_STRAP_PROV = 1 ∨ iss.auth = .fleet →
    exec (.keyProgGo iss k) s = .next (State.wl { s with lam := { s.lam with keys := s.lam.keys ++ [(k, d.take 32)] } }
      L.FLEET_KEY_PROG (s.rl L.FLEET_KEY_PROG ||| 1 <<< (k - 32)))) ∧
  (∀ iss k (s : State), Allowed s .lam iss L.KEY_PROG_GO.addr true 0 → (s.key k).isSome = true ∨ 48 ≤ k ∨ 28 ≤ k ∧ k < 32 ∨
    s.rl L.LAM_STRAP_PROV ≠ 1 ∧ (k < 28 ∨ iss.auth ≠ .fleet) → exec (.keyProgGo iss k) s = .next s) ∧
  (∀ iss v (s : State), Allowed s .lam iss L.KEY_REVOKE.addr true 3 → exec (.keyRevokeWrite iss v) s = .next
    (s.wl L.KEY_REVOKE (s.rl L.KEY_REVOKE ||| v % 2 ^ 28)))

/-- Clauses of R450 to R452: power domains of a Lamulo are asked for, refused and switched. -/
def Obligations.PowerDomainsAreSwitched : Prop :=
  (∀ iss v (s : State) d, Allowed s .lam iss L.PD_CTL.addr true 0 → d = s.pdDecide (v % 2 ^ 20) (List.range 20) (s.rl L.PD_CTL, 0) →
    d.2 = 0 → exec (.pdCtlWrite iss v) s = .next (s.wl L.PD_CTL (d.1 ||| 7)).pdRetarget) ∧
  (∀ iss v (s : State) d u, Allowed s .lam iss L.PD_CTL.addr true 0 → d = s.pdDecide (v % 2 ^ 20) (List.range 20) (s.rl L.PD_CTL, 0) →
    d.2 ≠ 0 → u = (s.wl L.PD_CTL (d.1 ||| 7)).pdRetarget →
    exec (.pdCtlWrite iss v) s = .next ((u.wl L.PD_REFUSED (u.rl L.PD_REFUSED ||| d.2)).boardEvent 5 d.2 0)) ∧
  (∀ (s : State), s.pdDecide (s.rl L.PD_CTL) (List.range 20) (s.rl L.PD_CTL, 0) = (s.rl L.PD_CTL, 0)) ∧
  (∀ (s : State) n, (List.range 20).find? (fun k => bitAt (s.rl L.PD_BUSY) k) = some n → 20000 ≤ s.lam.clk.ns - s.lam.pdFrom →
    exec .domainSwitchDone s = .next (State.pdRetarget ((State.lamLose (s.wl L.PD_STAT
      (setBits (s.rl L.PD_STAT) n 1 (if s.pdOn n then 0 else 1))) n).wl L.PD_BUSY 0))) ∧
  (∀ (s : State), s.rl L.PD_BUSY = 0 ∨ s.lam.clk.ns - s.lam.pdFrom < 20000 → exec .domainSwitchDone s = .next s) ∧
  (∀ (s : State) k, lamDomain (k / 8) = 15 → Sparse.get 0 (s.lamLose 15).lam.regs k = 0) ∧
  (∀ (s : State) n k, n ≠ 17 → n ≠ 3 → n ≠ 4 → lamDomain (k / 8) ≠ n → Sparse.wf 0 s.lam.regs = true →
    Sparse.get 0 (s.lamLose n).lam.regs k = Sparse.get 0 s.lam.regs k) ∧
  (∀ (s : State) t, ∃ u : State, exec (.thermalTrip t) s = .next u ∧
    (toS 10 t ≤ 440 ∨ s.lam.pins.thermTripN = false → u = s.wl L.LAM_TEMP t) ∧
    (440 < toS 10 t → s.lam.pins.thermTripN = true → u.lam.pins = { s.lam.pins with thermTripN := false } ∧ u.rl L.PD_CTL = 7 ∧
      u.rl L.PD_STAT = 7 ∧ u.rl L.PD_BUSY = 0 ∧ u.itu = s.itu)) ∧
  (∀ k (s : State), exec (.coreWdog k) s = .next (State.setBrd (State.flushTry (s.recFault 7 k 0))
    { (State.flushTry (s.recFault 7 k 0)).lam.brd with due := (State.flushTry (s.recFault 7 k 0)).lam.brd.due ++ [(7, k, 0)] }))

/-- R460, R461: a read of a DDR line and a write of a part of one are handled by what the check bytes say. -/
def Obligations.MemoryErrorsAndPoison : Prop :=
  (∀ l (s : State), 64 * l < s.ddrSize → l ∉ s.lam.poison →
    exec (.ddrRead l .clean) s = .next { s with rdata := s.ddrWords (64 * l) 16 }) ∧
  (∀ l (s : State), 64 * l < s.ddrSize → l ∉ s.lam.poison → exec (.ddrRead l .corrected) s = .next
    { s.il L.DDR_CNT_CE 1 (s.ddrChan (64 * l)) with rdata := s.ddrWords (64 * l) 16 }) ∧
  (∀ l (s : State), 64 * l < s.ddrSize → l ∉ s.lam.poison → ∃ u : State, exec (.ddrRead l .uncorrectable) s = .next u ∧ u.rdata = [] ∧
    l ∈ u.lam.poison ∧ u.lam.ddr = s.lam.ddr ∧ u.rl L.LAM_FAULT_DDR_UE = 1 ∧
    u.rl L.DDR_CNT_UE (s.ddrChan (64 * l)) = satN 32 (s.rl L.DDR_CNT_UE (s.ddrChan (64 * l)) + 1) ∧ u.rl L.DDR_UE_ADDR_LO = 64 * l % 2 ^ 32 ∧
    u.rl L.DDR_UE_ADDR_HI = 64 * l / 2 ^ 32 % 2 ^ L.DDR_UE_ADDR_HI.width) ∧
  (∀ l e (s : State), 64 * l < s.ddrSize → l ∈ s.lam.poison → exec (.ddrRead l e) s = .next { s with rdata := [] }) ∧
  (∀ l (s : State), s.ddrSize ≤ 64 * l → (∀ e, exec (.ddrRead l e) s = .fault .noSuchAddress) ∧
    (∀ o bs e, exec (.ddrPartialWrite l o bs e) s = .fault .noSuchAddress) ∧
    ∀ e i k, exec (.patrolScrub l e i k) s = .fault .noSuchAddress) ∧
  (∀ l o bs (s : State) a b, 64 * l < s.ddrSize → l ∉ s.lam.poison → a = 64 * l + o % 64 → b = bs.take (64 - o % 64) → b.length ≠ 64 →
    exec (.ddrPartialWrite l o bs .clean) s = .next (s.ddrPut a b) ∧
    exec (.ddrPartialWrite l o bs .corrected) s = .next ((s.ddrPut a b).il L.DDR_CNT_RMW_CE 1 (s.ddrChan a)) ∧
    ∃ u : State, exec (.ddrPartialWrite l o bs .uncorrectable) s = .next (u.il L.DDR_CNT_RMW_UE 1 (s.ddrChan a)) ∧
      u.lam.ddr = (s.ddrPut a b).lam.ddr ∧ l ∈ u.lam.poison) ∧
  (∀ l o bs e (s : State) b, 64 * l < s.ddrSize → b = bs.take (64 - o % 64) → b.length ≠ 64 → b ≠ [] → s.lam.poison.filter (· == l) = [l] →
    ∃ u : State, exec (.ddrPartialWrite l o bs e) s = .next u ∧ l ∈ u.lam.poison ∧
      u.lam.ddr = s.lam.ddr.write ddrDefault (64 * l + o % 64) b ∧
      u.rl L.DDR_CNT_RMW_UE (s.ddrChan (64 * l)) = satN 32 (s.rl L.DDR_CNT_RMW_UE (s.ddrChan (64 * l)) + 1)) ∧
  (∀ l bs e (s : State), 64 * l < s.ddrSize → bs.length = 64 → ∃ u : State, exec (.ddrPartialWrite l 0 bs e) s = .next u ∧
    u.lam.ddr = s.lam.ddr.write ddrDefault (64 * l) bs ∧ u.lam.poison = s.lam.poison.filter (· != l) ∧
    (s.lam.poison.filter (· == l) = [l] → u.rl L.DDR_CNT_POISON_CLEARED = satN 32 (s.rl L.DDR_CNT_POISON_CLEARED + 1)) ∧
    (l ∉ s.lam.poison → u.rl L.DDR_CNT_POISON_CLEARED = satN 32 (s.rl L.DDR_CNT_POISON_CLEARED)))

/-- Clauses of R459, R462 to R464: DDR training, the patrol scrub, bytes stored and the windows of the PCIe endpoint. -/
def Obligations.DdrAndPcieWindows : Prop :=
  (∀ iss (s : State), Allowed s .lam iss L.DDR_CTL_ENABLE.addr true 0 → exec (.ddrCtlEnable iss true) s = .next (s.wl L.DDR_CTL_ENABLE 1) ∧
    exec (.ddrCtlEnable iss false) s = .next ((s.wl L.DDR_CTL_ENABLE 0).wl L.DDR_STAT_TRAINED 0)) ∧
  (∀ m (s : State), s.rl L.DDR_CTL_ENABLE = 1 → exec (.ddrTrainingDone m) s = .next (s.wl L.DDR_STAT_TRAINED
    (m &&& (if s.rl L.DDR_CFG_CHANNELS = 1 then 0x0F else 0xFF) &&&
      ((if s.pdOn 3 then 0x0F else 0) ||| (if s.pdOn 4 then 0xF0 else 0))))) ∧
  (∀ m (s : State), s.rl L.DDR_CTL_ENABLE ≠ 1 → exec (.ddrTrainingDone m) s = .next s) ∧
  (∀ l e (s : State), 64 * l < s.ddrSize → exec (.patrolScrub l e false false) s = .next (s.ddrLine l e).1) ∧
  (∀ l e (s : State) c, 64 * l < s.ddrSize → c = s.ddrChan (64 * l) → exec (.patrolScrub l e false true) s = .next
    ((s.ddrLine l e).1.wl L.DDR_SCRUB_PASS (((s.ddrLine l e).1.rl L.DDR_SCRUB_PASS c + 1) % 2 ^ 32) c)) ∧
  (∀ l e (s : State), 64 * l < s.ddrSize → ∃ u : State, exec (.patrolScrub l e true false) s = .next u ∧ u.lam.poison = s.lam.poison) ∧
  (∀ a bs (s : State) k, k < bs.length → Memory.byte ddrDefault (s.ddrPut a bs).lam.ddr (a + k) = nth bs k % 256) ∧
  (∀ a bs (s : State) k, k < a ∨ a + bs.length ≤ k → Memory.byte ddrDefault (s.ddrPut a bs).lam.ddr k =
    Memory.byte ddrDefault s.lam.ddr k) ∧
  (∀ o n bs (s : State) a, s.rl L.LAM_BOOT_STATE = 1 → a = s.rl L.DDR_WIN_BASE_LO + 2 ^ 32 * s.rl L.DDR_WIN_BASE_HI + o →
    (s.ddrRange a bs.length = true → o + bs.length ≤ 2 ^ 30 → exec (.bar2Access true o n bs) s = .next (s.ddrPut a bs)) ∧
    (s.ddrRange a n = true → o + n ≤ 2 ^ 30 → s.poisoned a n = false →
      exec (.bar2Access false o n bs) s = .next { s with rdata := bytesToWords (s.ddrBytes a n) }) ∧
    (s.ddrRange a n = true → o + n ≤ 2 ^ 30 → s.poisoned a n = true →
      exec (.bar2Access false o n bs) s = .next
        { s.il L.DDR_CNT_PCIE_POISON with rdata := bytesToWords (List.replicate n 0) }) ∧
    (s.ddrRange a bs.length = false ∨ 2 ^ 30 < o + bs.length →
      exec (.bar2Access true o n bs) s = .next (s.il L.DDR_CNT_WIN_BAD)) ∧
    (s.ddrRange a n = false ∨ 2 ^ 30 < o + n → exec (.bar2Access false o n bs) s = .next
      { s.il L.DDR_CNT_WIN_BAD with rdata := bytesToWords (List.replicate n 0) })) ∧
  (∀ o n bs (s : State), s.rl L.LAM_BOOT_STATE = 2 →
    (o + bs.length ≤ 2 ^ 24 → exec (.bar2Access true o n bs) s = .next
      (s.setBrd { s.lam.brd with sram := s.lam.brd.sram.write norDefault o bs })) ∧
    (o + n ≤ 2 ^ 24 → exec (.bar2Access false o n bs) s = .next
      { s with rdata := bytesToWords (s.lam.brd.sram.read norDefault o n) }) ∧
    (2 ^ 24 < o + bs.length → exec (.bar2Access true o n bs) s = .next s)) ∧
  (∀ o n bs (s : State), s.rl L.LAM_BOOT_STATE ≠ 1 → s.rl L.LAM_BOOT_STATE ≠ 2 → exec (.bar2Access true o n bs) s = .next s) ∧
  (∀ (s : State), ∃ u : State, exec .perstN s = .next u ∧ u.itu = s.itu ∧ u.rl L.MSI_X_pending_bits 0 = 0 ∧
    u.rl L.MSI_X_pending_bits 1 = 0 ∧ (∀ i, i < 256 → u.rl L.MSI_X_table i = 0) ∧ (∀ l, l ∈ u.latches → l.path ≠ .pcie) ∧
    u.lam.brd = s.lam.brd ∧ u.lam.ddr = s.lam.ddr)

/-- R436, R466, R467: the power-fail warning is asserted, declared, found discrepant and cleared. -/
def Obligations.PowerFailWarning : Prop :=
  (∀ (s : State), s.lam.brd.pfw.a = none → s.lam.brd.pfw.b = none → exec (.pfwAssert false) s = .next
    (s.setPfw { s.lam.brd.pfw with a := some s.lam.clk.ns, clearFrom := none })) ∧
  (∀ (s : State), s.lam.brd.pfw.a = none → s.lam.brd.pfw.b = none → exec (.pfwAssert true) s = .next
    (s.setPfw { s.lam.brd.pfw with b := some s.lam.clk.ns, clearFrom := none })) ∧
  (∀ (s : State), (s.lam.brd.pfw.a.isSome = true → exec (.pfwAssert false) s = .next s) ∧
    (s.lam.brd.pfw.b.isSome = true → exec (.pfwAssert true) s = .next s)) ∧
  (∀ (s : State) t, s.lam.brd.pfw.a = none → s.lam.brd.pfw.b = some t → s.rl L.PFW_STAT_DECLARED = 0 → s.lam.clk.ns - t < s.pfwD →
    exec (.pfwAssert false) s = .next
      ((s.setPfw { s.lam.brd.pfw with a := some s.lam.clk.ns, clearFrom := none }).pfwDeclare t false)) ∧
  (∀ (s : State) t, s.lam.brd.pfw.b = none → s.lam.brd.pfw.a = some t → s.rl L.PFW_STAT_DECLARED = 0 → s.lam.clk.ns - t < s.pfwD →
    exec (.pfwAssert true) s = .next
      ((s.setPfw { s.lam.brd.pfw with b := some s.lam.clk.ns, clearFrom := none }).pfwDeclare t false)) ∧
  (∀ (s : State) p, (s.setPfw p).lam.brd.pfw = p ∧ (s.setPfw p).rl L.PFW_STAT_A = (if p.a.isSome then 1 else 0) ∧
    (s.setPfw p).rl L.PFW_STAT_B = if p.b.isSome then 1 else 0) ∧
  (∀ (s : State) t d, s.recState ≠ 2 → s.recState ≠ 3 → ∃ u : State, s.pfwDeclare t d = u.boardEvent 1
      ((if s.lam.brd.pfw.a.isSome then 1 else 0) ||| (if s.lam.brd.pfw.b.isSome then 1 else 0) <<< 1) (satN 32 (s.lam.clk.ns - t)) ∧
    u.rl L.PFW_STAT_DECLARED = 1 ∧ u.itu = s.itu) ∧
  (∀ (s : State) t d, s.recState = 2 ∨ s.recState = 3 → ∃ u : State, s.pfwDeclare t d = u.boardEvent 1
      ((if s.lam.brd.pfw.a.isSome then 1 else 0) ||| (if s.lam.brd.pfw.b.isSome then 1 else 0) <<< 1) (satN 32 (s.lam.clk.ns - t)) ∧
    u.rl L.PFW_STAT_DECLARED = 1 ∧ u.lam.rcd.frozen = none ∧ (u.recState = 4 ∨ u.recState = 5 ∨ u.recState = 6)) ∧
  (∀ (s : State), (s.lamFault L.LAM_FAULT_PFW_CHAN_A).rl L.LAM_FAULT_PFW_CHAN_A = 1 ∧
    (s.lamFault L.LAM_FAULT_PFW_CHAN_B).rl L.LAM_FAULT_PFW_CHAN_B = 1) ∧
  (∀ (s : State) t, s.rl L.PFW_STAT_DECLARED = 0 → s.lam.brd.pfw.a = some t → s.lam.brd.pfw.b = none → s.pfwD ≤ s.lam.clk.ns - t →
    exec .pfwDiscrepancyTimeout s = .next ((s.lamFault L.LAM_FAULT_PFW_CHAN_B).pfwDeclare t true)) ∧
  (∀ (s : State) t, s.rl L.PFW_STAT_DECLARED = 0 → s.lam.brd.pfw.b = some t → s.lam.brd.pfw.a = none → s.pfwD ≤ s.lam.clk.ns - t →
    exec .pfwDiscrepancyTimeout s = .next ((s.lamFault L.LAM_FAULT_PFW_CHAN_A).pfwDeclare t true)) ∧
  (∀ (s : State), s.rl L.PFW_STAT_DECLARED = 1 ∨ s.lam.brd.pfw.a.isSome = s.lam.brd.pfw.b.isSome →
    exec .pfwDiscrepancyTimeout s = .next s) ∧
  (∀ (s : State) t, s.lam.brd.pfw.a = some t → s.lam.brd.pfw.b = none → s.rl L.PFW_STAT_DECLARED = 0 →
    exec (.pfwDeassert false) s = .next ((s.il L.PFW_CNT_DISC).setPfw { s.lam.brd.pfw with a := none, clearFrom := some s.lam.clk.ns })) ∧
  (∀ (s : State) t, s.lam.brd.pfw.b = some t → s.lam.brd.pfw.a = none → s.rl L.PFW_STAT_DECLARED = 0 →
    exec (.pfwDeassert true) s = .next ((s.il L.PFW_CNT_DISC).setPfw { s.lam.brd.pfw with b := none, clearFrom := some s.lam.clk.ns })) ∧
  (∀ (s : State) t x, s.lam.brd.pfw.a = some t → s.lam.brd.pfw.b = some x →
    exec (.pfwDeassert false) s = .next (s.setPfw { s.lam.brd.pfw with a := none }) ∧
    exec (.pfwDeassert true) s = .next (s.setPfw { s.lam.brd.pfw with b := none })) ∧
  (∀ (s : State), (s.lam.brd.pfw.a = none → exec (.pfwDeassert false) s = .next s) ∧
    (s.lam.brd.pfw.b = none → exec (.pfwDeassert true) s = .next s)) ∧
  (∀ (s : State) t, s.lam.brd.pfw.clearFrom = some t → s.rl L.PFW_STAT_DECLARED = 1 → s.lam.brd.pfw.a = none → s.lam.brd.pfw.b = none →
    s.rl L.PFW_CFG_CLEAR_MS * 1000000 ≤ s.lam.clk.ns - t →
    exec .pfwClear s = .next (((s.wl L.PFW_STAT_DECLARED 0).recResume).boardEvent 2 0 0)) ∧
  (∀ (s : State), s.lam.brd.pfw.clearFrom = none ∨ s.rl L.PFW_STAT_DECLARED ≠ 1 ∨ s.lam.brd.pfw.a.isSome = true ∨
    s.lam.brd.pfw.b.isSome = true → exec .pfwClear s = .next s)

end Statements
end

