-- ==== Sys2Proof/Laws/Sparse.lean ====
section
/-! SUPPORT. Laws of the sparse stores and byte memories: read after write, and that every operation keeps the canonical form. -/

namespace Sys2Proof.Machine

theorem Sparse.get_erase_self {α : Type} (d : α) (m : List (Nat × α)) (k : Nat) :
    Sparse.get d (Sparse.erase m k) k = d := by
  induction m with
  | nil => rfl
  | cons p m ih =>
    obtain ⟨k', v⟩ := p
    by_cases h : k' = k <;> simp [Sparse.erase, h, ih, Sparse.get]

theorem Sparse.get_erase_ne {α : Type} (d : α) (m : List (Nat × α)) {k j : Nat} (h : j ≠ k) :
    Sparse.get d (Sparse.erase m k) j = Sparse.get d m j := by
  induction m with
  | nil => rfl
  | cons p m ih =>
    obtain ⟨k', v⟩ := p
    by_cases hk : k' = k
    · subst hk; simp [Sparse.erase, ih, Sparse.get, Ne.symm h]
    · simp [Sparse.erase, hk, ih, Sparse.get]

theorem Sparse.get_insert_self {α : Type} (d : α) (m : List (Nat × α)) (k : Nat) (v : α) :
    Sparse.get d (Sparse.insert m k v) k = v := by
  induction m with
  | nil => simp [Sparse.insert, Sparse.get]
  | cons p m ih =>
    obtain ⟨k', v'⟩ := p
    by_cases h1 : k < k'
    · simp [Sparse.insert, h1, Sparse.get]
    · by_cases h2 : k = k'
      · simp [Sparse.insert, h2, Sparse.get]
      · simp [Sparse.insert, h1, h2, Sparse.get, ih, Ne.symm h2]

theorem Sparse.get_insert_ne {α : Type} (d : α) (m : List (Nat × α)) {k j : Nat} (v : α) (h : j ≠ k) :
    Sparse.get d (Sparse.insert m k v) j = Sparse.get d m j := by
  induction m with
  | nil => simp [Sparse.insert, Sparse.get, Ne.symm h]
  | cons p m ih =>
    obtain ⟨k', v'⟩ := p
    by_cases h1 : k < k'
    · simp [Sparse.insert, h1, Sparse.get, Ne.symm h]
    · by_cases h2 : k = k'
      · subst h2; simp [Sparse.insert, Sparse.get, Ne.symm h]
      · simp [Sparse.insert, h1, h2, Sparse.get, ih]

/-- A key reads as it was last written. -/
@[simp] theorem Sparse.get_set_self {α : Type} [DecidableEq α] (d : α) (m : List (Nat × α)) (k : Nat) (v : α) :
    Sparse.get d (Sparse.set d m k v) k = v := by
  by_cases h : v = d
  · simp [Sparse.set, h, Sparse.get_erase_self]
  · simp [Sparse.set, h, Sparse.get_insert_self]

/-- A write leaves every other key alone. -/
theorem Sparse.get_set_ne {α : Type} [DecidableEq α] (d : α) (m : List (Nat × α)) {k j : Nat} (v : α) (h : j ≠ k) :
    Sparse.get d (Sparse.set d m k v) j = Sparse.get d m j := by
  by_cases hv : v = d
  · simp [Sparse.set, hv, Sparse.get_erase_ne d m h]
  · simp [Sparse.set, hv, Sparse.get_insert_ne d m v h]

/-- The canonical form, with its first key above a bound. -/
def Sparse.wfAbove {α : Type} [DecidableEq α] (d : α) : Nat → List (Nat × α) → Prop
  | _, [] => True
  | b, (k, v) :: m => b ≤ k ∧ v ≠ d ∧ Sparse.wfAbove d (k + 1) m

theorem Sparse.wf_cons_iff {α : Type} [DecidableEq α] (d : α) (k : Nat) (v : α) (m : List (Nat × α)) :
    Sparse.wf d ((k, v) :: m) = true ↔ v ≠ d ∧ Sparse.wfAbove d (k + 1) m := by
  induction m generalizing k v with
  | nil => simp [Sparse.wf, Sparse.wfAbove]
  | cons p m ih =>
    obtain ⟨k', v'⟩ := p
    simp only [Sparse.wf, Bool.and_eq_true, decide_eq_true_eq, Sparse.wfAbove, ih]
    constructor
    · rintro ⟨⟨a, b⟩, c, e⟩; exact ⟨a, b, c, e⟩
    · rintro ⟨a, b, c, e⟩; exact ⟨⟨a, b⟩, c, e⟩

theorem Sparse.wf_iff {α : Type} [DecidableEq α] (d : α) (m : List (Nat × α)) :
    Sparse.wf d m = true ↔ Sparse.wfAbove d 0 m := by
  cases m with
  | nil => simp [Sparse.wf, Sparse.wfAbove]
  | cons p m => obtain ⟨k, v⟩ := p; rw [Sparse.wf_cons_iff]; simp [Sparse.wfAbove]

theorem Sparse.wfAbove_mono {α : Type} [DecidableEq α] {d : α} {m : List (Nat × α)} {a b : Nat} (h : a ≤ b)
    (w : Sparse.wfAbove d b m) : Sparse.wfAbove d a m := by
  cases m with
  | nil => trivial
  | cons p m => obtain ⟨k, v⟩ := p; exact ⟨h.trans w.1, w.2⟩

theorem Sparse.wfAbove_erase {α : Type} [DecidableEq α] {d : α} (m : List (Nat × α)) (b k : Nat)
    (w : Sparse.wfAbove d b m) : Sparse.wfAbove d b (Sparse.erase m k) := by
  induction m generalizing b with
  | nil => trivial
  | cons p m ih =>
    obtain ⟨k', v⟩ := p
    obtain ⟨h1, h2, h3⟩ := w
    by_cases h : k' = k
    · simp only [Sparse.erase, h, if_true]
      exact ih b (Sparse.wfAbove_mono (by omega) h3)
    · simp only [Sparse.erase, h, if_false]
      exact ⟨h1, h2, ih _ h3⟩

theorem Sparse.wfAbove_insert {α : Type} [DecidableEq α] {d : α} (m : List (Nat × α)) (b k : Nat) (v : α)
    (hb : b ≤ k) (hv : v ≠ d) (w : Sparse.wfAbove d b m) : Sparse.wfAbove d b (Sparse.insert m k v) := by
  induction m generalizing b with
  | nil => exact ⟨hb, hv, trivial⟩
  | cons p m ih =>
    obtain ⟨k', v'⟩ := p
    obtain ⟨h1, h2, h3⟩ := w
    by_cases h : k < k'
    · simp only [Sparse.insert, h, if_true]
      exact ⟨hb, hv, by omega, h2, h3⟩
    · by_cases h' : k = k'
      · subst h'
        simp only [Sparse.insert, Nat.lt_irrefl, if_false, if_true]
        exact ⟨hb, hv, h3⟩
      · simp only [Sparse.insert, h, h', if_false]
        exact ⟨h1, h2, ih _ (by omega) h3⟩

/-- Every write keeps the canonical form. -/
theorem Sparse.wf_set {α : Type} [DecidableEq α] {d : α} {m : List (Nat × α)} (k : Nat) (v : α)
    (w : Sparse.wf d m = true) : Sparse.wf d (Sparse.set d m k v) = true := by
  rw [Sparse.wf_iff] at *
  by_cases hv : v = d
  · simp only [Sparse.set, hv, if_true]; exact Sparse.wfAbove_erase m 0 k w
  · simp only [Sparse.set, hv, if_false]; exact Sparse.wfAbove_insert m 0 k v (Nat.zero_le _) hv w

/-- Storing bytes keeps the canonical form of a memory. -/
theorem Memory.wf_write {d : Byte} (bs : List Nat) (m : Memory) (a : Nat) (w : Memory.wf d m = true) :
    Memory.wf d (Memory.write d m a bs) = true := by
  induction bs generalizing m a with
  | nil => exact w
  | cons b bs ih => exact ih _ _ (Sparse.wf_set a _ w)

/-- A byte outside those stored reads as before. -/
theorem Memory.byte_write_out {d : Byte} (bs : List Nat) (m : Memory) (a x : Nat) (h : x < a ∨ a + bs.length ≤ x) :
    Memory.byte d (Memory.write d m a bs) x = Memory.byte d m x := by
  induction bs generalizing m a with
  | nil => rfl
  | cons b bs ih =>
    simp only [List.length_cons] at h
    rw [Memory.write, ih _ _ (by omega), Memory.byte, Memory.byte, Sparse.get_set_ne _ _ _ (by omega)]

/-- A byte stored reads as the low eight bits stored. -/
theorem Memory.byte_write_in {d : Byte} (bs : List Nat) (m : Memory) (a i : Nat) (h : i < bs.length) :
    Memory.byte d (Memory.write d m a bs) (a + i) = bs[i] % 256 := by
  induction bs generalizing m a i with
  | nil => simp at h
  | cons b bs ih =>
    cases i with
    | zero => rw [Memory.write, Memory.byte_write_out _ _ _ _ (by omega), Memory.byte]; simp
    | succ i =>
      have h' : i < bs.length := by simpa using h
      have := ih (Sparse.set d m a (BitVec.ofNat 8 b)) (a + 1) i h'
      rw [Memory.write, show a + (i + 1) = a + 1 + i by omega, this]; rfl

end Sys2Proof.Machine
end

