-- ==== Sys2Proof/Laws/Regs.lean ====
section
/-! SUPPORT. Laws of the register file: a field reads as it was last written, and no field of another place changes. -/

namespace Sys2Proof.Machine

/-- A field reads as it was last written, cut to its width. -/
@[simp] theorem Regs.rd_wr_self (r : Regs) (F : Fld) (v i j : Nat) : (r.wr F v i j).rd F i j = v % 2 ^ F.width := by
  simp [Regs.rd, Regs.wr]

/-- A write leaves every field at another place alone. -/
theorem Regs.rd_wr_ne (r : Regs) (F G : Fld) (v i j i' j' : Nat) (h : G.key i' j' ≠ F.key i j) :
    (r.wr F v i j).rd G i' j' = r.rd G i' j' := by
  simp [Regs.rd, Regs.wr, Sparse.get_set_ne _ _ _ h]

/-- An advance of a counter leaves every field at another place alone. -/
theorem Regs.rd_inc_ne (r : Regs) (F G : Fld) (n i j i' j' : Nat) (h : G.key i' j' ≠ F.key i j) :
    (r.inc F n i j).rd G i' j' = r.rd G i' j' := Regs.rd_wr_ne _ _ _ _ _ _ _ _ h

/-- A counter advanced by n reads its old value and n, or the greatest value of its width. -/
theorem Regs.rd_inc_self (r : Regs) (F : Fld) (n i j : Nat) :
    (r.inc F n i j).rd F i j = satN F.width (r.rd F i j + n) % 2 ^ F.width := by
  simp [Regs.inc]

theorem Regs.wf_wr (r : Regs) (F : Fld) (v i j : Nat) (h : Sparse.wf 0 r = true) : Sparse.wf 0 (r.wr F v i j) = true :=
  Sparse.wf_set _ _ h

theorem Regs.wf_inc (r : Regs) (F : Fld) (n i j : Nat) (h : Sparse.wf 0 r = true) : Sparse.wf 0 (r.inc F n i j) = true :=
  Sparse.wf_set _ _ h

/-- The key of the key store outside a written field reads as before. -/
theorem Regs.get_wr_ne (r : Regs) (F : Fld) (v i j k : Nat) (h : k ≠ F.key i j) :
    Sparse.get 0 (r.wr F v i j) k = Sparse.get 0 r k := Sparse.get_set_ne _ _ _ h

end Sys2Proof.Machine
end

