-- ==== Sys2Proof/Laws/State.lean ====
section
/-! SUPPORT. What each update of the state leaves of each of its fields: one lemma per field per update, so that no proof unfolds one. -/

namespace Sys2Proof.Machine

@[simp] theorem State.wi_itu (s : State) (F : Fld) (v i j : Nat) : (s.wi F v i j).itu = { s.itu with regs := s.itu.regs.wr F v i j } := rfl
@[simp] theorem State.wi_lam (s : State) (F : Fld) (v i j : Nat) : (s.wi F v i j).lam = s.lam := rfl
@[simp] theorem State.wi_latches (s : State) (F : Fld) (v i j : Nat) : (s.wi F v i j).latches = s.latches := rfl
@[simp] theorem State.wi_holds (s : State) (F : Fld) (v i j : Nat) : (s.wi F v i j).holds = s.holds := rfl
@[simp] theorem State.wi_pending (s : State) (F : Fld) (v i j : Nat) : (s.wi F v i j).pending = s.pending := rfl
@[simp] theorem State.wi_rdata (s : State) (F : Fld) (v i j : Nat) : (s.wi F v i j).rdata = s.rdata := rfl
@[simp] theorem State.wi_freeN (s : State) (F : Fld) (v i j : Nat) : (s.wi F v i j).freeN = s.freeN := rfl

@[simp] theorem State.ii_itu (s : State) (F : Fld) (n i j : Nat) : (s.ii F n i j).itu = { s.itu with regs := s.itu.regs.inc F n i j } := rfl
@[simp] theorem State.ii_lam (s : State) (F : Fld) (n i j : Nat) : (s.ii F n i j).lam = s.lam := rfl
@[simp] theorem State.ii_latches (s : State) (F : Fld) (n i j : Nat) : (s.ii F n i j).latches = s.latches := rfl
@[simp] theorem State.ii_holds (s : State) (F : Fld) (n i j : Nat) : (s.ii F n i j).holds = s.holds := rfl
@[simp] theorem State.ii_pending (s : State) (F : Fld) (n i j : Nat) : (s.ii F n i j).pending = s.pending := rfl
@[simp] theorem State.ii_rdata (s : State) (F : Fld) (n i j : Nat) : (s.ii F n i j).rdata = s.rdata := rfl
@[simp] theorem State.ii_freeN (s : State) (F : Fld) (n i j : Nat) : (s.ii F n i j).freeN = s.freeN := rfl

@[simp] theorem State.wl_itu (s : State) (F : Fld) (v i j : Nat) : (s.wl F v i j).itu = s.itu := rfl
@[simp] theorem State.wl_lam (s : State) (F : Fld) (v i j : Nat) : (s.wl F v i j).lam = { s.lam with regs := s.lam.regs.wr F v i j } := rfl
@[simp] theorem State.wl_latches (s : State) (F : Fld) (v i j : Nat) : (s.wl F v i j).latches = s.latches := rfl
@[simp] theorem State.wl_holds (s : State) (F : Fld) (v i j : Nat) : (s.wl F v i j).holds = s.holds := rfl
@[simp] theorem State.wl_pending (s : State) (F : Fld) (v i j : Nat) : (s.wl F v i j).pending = s.pending := rfl
@[simp] theorem State.wl_rdata (s : State) (F : Fld) (v i j : Nat) : (s.wl F v i j).rdata = s.rdata := rfl
@[simp] theorem State.wl_freeN (s : State) (F : Fld) (v i j : Nat) : (s.wl F v i j).freeN = s.freeN := rfl

@[simp] theorem State.il_itu (s : State) (F : Fld) (n i j : Nat) : (s.il F n i j).itu = s.itu := rfl
@[simp] theorem State.il_lam (s : State) (F : Fld) (n i j : Nat) : (s.il F n i j).lam = { s.lam with regs := s.lam.regs.inc F n i j } := rfl
@[simp] theorem State.il_latches (s : State) (F : Fld) (n i j : Nat) : (s.il F n i j).latches = s.latches := rfl
@[simp] theorem State.il_holds (s : State) (F : Fld) (n i j : Nat) : (s.il F n i j).holds = s.holds := rfl
@[simp] theorem State.il_pending (s : State) (F : Fld) (n i j : Nat) : (s.il F n i j).pending = s.pending := rfl
@[simp] theorem State.il_rdata (s : State) (F : Fld) (n i j : Nat) : (s.il F n i j).rdata = s.rdata := rfl
@[simp] theorem State.il_freeN (s : State) (F : Fld) (n i j : Nat) : (s.il F n i j).freeN = s.freeN := rfl

@[simp] theorem State.free_itu (s : State) : s.free.2.itu = s.itu := rfl
@[simp] theorem State.free_lam (s : State) : s.free.2.lam = s.lam := rfl
@[simp] theorem State.free_latches (s : State) : s.free.2.latches = s.latches := rfl
@[simp] theorem State.free_holds (s : State) : s.free.2.holds = s.holds := rfl
@[simp] theorem State.free_pending (s : State) : s.free.2.pending = s.pending := rfl
@[simp] theorem State.free_rdata (s : State) : s.free.2.rdata = s.rdata := rfl
@[simp] theorem State.free_freeN (s : State) : s.free.2.freeN = s.freeN + 1 := rfl

@[simp] theorem State.setClk_itu_itu (s : State) (c : Clock) : (s.setClk .itu c).itu = { s.itu with clk := c } := rfl
@[simp] theorem State.setClk_itu_lam (s : State) (c : Clock) : (s.setClk .itu c).lam = s.lam := rfl
@[simp] theorem State.setClk_itu_latches (s : State) (c : Clock) : (s.setClk .itu c).latches = s.latches := rfl
@[simp] theorem State.setClk_itu_holds (s : State) (c : Clock) : (s.setClk .itu c).holds = s.holds := rfl
@[simp] theorem State.setClk_itu_pending (s : State) (c : Clock) : (s.setClk .itu c).pending = s.pending := rfl
@[simp] theorem State.setClk_itu_rdata (s : State) (c : Clock) : (s.setClk .itu c).rdata = s.rdata := rfl
@[simp] theorem State.setClk_itu_freeN (s : State) (c : Clock) : (s.setClk .itu c).freeN = s.freeN := rfl

@[simp] theorem State.setMains_itu_itu (s : State) (c : Mains) : (s.setMains .itu c).itu = { s.itu with mains := c } := rfl
@[simp] theorem State.setMains_itu_lam (s : State) (c : Mains) : (s.setMains .itu c).lam = s.lam := rfl
@[simp] theorem State.setMains_itu_latches (s : State) (c : Mains) : (s.setMains .itu c).latches = s.latches := rfl
@[simp] theorem State.setMains_itu_holds (s : State) (c : Mains) : (s.setMains .itu c).holds = s.holds := rfl
@[simp] theorem State.setMains_itu_pending (s : State) (c : Mains) : (s.setMains .itu c).pending = s.pending := rfl
@[simp] theorem State.setMains_itu_rdata (s : State) (c : Mains) : (s.setMains .itu c).rdata = s.rdata := rfl
@[simp] theorem State.setMains_itu_freeN (s : State) (c : Mains) : (s.setMains .itu c).freeN = s.freeN := rfl

@[simp] theorem State.setClk_lam_itu (s : State) (c : Clock) : (s.setClk .lam c).itu = s.itu := rfl
@[simp] theorem State.setClk_lam_lam (s : State) (c : Clock) : (s.setClk .lam c).lam = { s.lam with clk := c } := rfl
@[simp] theorem State.setClk_lam_latches (s : State) (c : Clock) : (s.setClk .lam c).latches = s.latches := rfl
@[simp] theorem State.setClk_lam_holds (s : State) (c : Clock) : (s.setClk .lam c).holds = s.holds := rfl
@[simp] theorem State.setClk_lam_pending (s : State) (c : Clock) : (s.setClk .lam c).pending = s.pending := rfl
@[simp] theorem State.setClk_lam_rdata (s : State) (c : Clock) : (s.setClk .lam c).rdata = s.rdata := rfl
@[simp] theorem State.setClk_lam_freeN (s : State) (c : Clock) : (s.setClk .lam c).freeN = s.freeN := rfl

@[simp] theorem State.setMains_lam_itu (s : State) (c : Mains) : (s.setMains .lam c).itu = s.itu := rfl
@[simp] theorem State.setMains_lam_lam (s : State) (c : Mains) : (s.setMains .lam c).lam = { s.lam with mains := c } := rfl
@[simp] theorem State.setMains_lam_latches (s : State) (c : Mains) : (s.setMains .lam c).latches = s.latches := rfl
@[simp] theorem State.setMains_lam_holds (s : State) (c : Mains) : (s.setMains .lam c).holds = s.holds := rfl
@[simp] theorem State.setMains_lam_pending (s : State) (c : Mains) : (s.setMains .lam c).pending = s.pending := rfl
@[simp] theorem State.setMains_lam_rdata (s : State) (c : Mains) : (s.setMains .lam c).rdata = s.rdata := rfl
@[simp] theorem State.setMains_lam_freeN (s : State) (c : Mains) : (s.setMains .lam c).freeN = s.freeN := rfl

/-! Fields of the two register files. -/

@[simp] theorem State.ri_wi_self (s : State) (F : Fld) (v i j : Nat) : (s.wi F v i j).ri F i j = v % 2 ^ F.width := Regs.rd_wr_self _ _ _ _ _

@[simp] theorem State.rl_wl_self (s : State) (F : Fld) (v i j : Nat) : (s.wl F v i j).rl F i j = v % 2 ^ F.width := Regs.rd_wr_self _ _ _ _ _

theorem State.ri_wi_ne (s : State) (F G : Fld) (v i j i' j' : Nat) (h : G.key i' j' ≠ F.key i j) : (s.wi F v i j).ri G i' j' = s.ri G i' j' :=
  Regs.rd_wr_ne _ _ _ _ _ _ _ _ h

theorem State.rl_wl_ne (s : State) (F G : Fld) (v i j i' j' : Nat) (h : G.key i' j' ≠ F.key i j) : (s.wl F v i j).rl G i' j' = s.rl G i' j' :=
  Regs.rd_wr_ne _ _ _ _ _ _ _ _ h

theorem State.ri_ii_ne (s : State) (F G : Fld) (n i j i' j' : Nat) (h : G.key i' j' ≠ F.key i j) : (s.ii F n i j).ri G i' j' = s.ri G i' j' :=
  Regs.rd_inc_ne _ _ _ _ _ _ _ _ h

theorem State.rl_il_ne (s : State) (F G : Fld) (n i j i' j' : Nat) (h : G.key i' j' ≠ F.key i j) : (s.il F n i j).rl G i' j' = s.rl G i' j' :=
  Regs.rd_inc_ne _ _ _ _ _ _ _ _ h

theorem State.ri_ii_self (s : State) (F : Fld) (n i j : Nat) : (s.ii F n i j).ri F i j = satN F.width (s.ri F i j + n) % 2 ^ F.width :=
  Regs.rd_inc_self _ _ _ _ _

theorem State.rl_il_self (s : State) (F : Fld) (n i j : Nat) : (s.il F n i j).rl F i j = satN F.width (s.rl F i j + n) % 2 ^ F.width :=
  Regs.rd_inc_self _ _ _ _ _

@[simp] theorem State.ri_wl (s : State) (F G : Fld) (v i j i' j' : Nat) : (s.wl F v i j).ri G i' j' = s.ri G i' j' := rfl

@[simp] theorem State.ri_il (s : State) (F G : Fld) (n i j i' j' : Nat) : (s.il F n i j).ri G i' j' = s.ri G i' j' := rfl

@[simp] theorem State.rl_wi (s : State) (F G : Fld) (v i j i' j' : Nat) : (s.wi F v i j).rl G i' j' = s.rl G i' j' := rfl

@[simp] theorem State.rl_ii (s : State) (F G : Fld) (n i j i' j' : Nat) : (s.ii F n i j).rl G i' j' = s.rl G i' j' := rfl

/-! Parts of the ITU and of the Lamulo replaced. -/

@[simp] theorem State.setBrd_itu (s : State) (b : Brd) : (s.setBrd b).itu = s.itu := rfl
@[simp] theorem State.setBrd_lam (s : State) (b : Brd) : (s.setBrd b).lam = { s.lam with brd := b } := rfl
@[simp] theorem State.setBrd_latches (s : State) (b : Brd) : (s.setBrd b).latches = s.latches := rfl
@[simp] theorem State.setBrd_holds (s : State) (b : Brd) : (s.setBrd b).holds = s.holds := rfl
@[simp] theorem State.setBrd_pending (s : State) (b : Brd) : (s.setBrd b).pending = s.pending := rfl
@[simp] theorem State.setBrd_rdata (s : State) (b : Brd) : (s.setBrd b).rdata = s.rdata := rfl
@[simp] theorem State.setBrd_freeN (s : State) (b : Brd) : (s.setBrd b).freeN = s.freeN := rfl

@[simp] theorem State.setPtp_itu (s : State) (p : Nat) (v : PtpPort) : (s.setPtp p v).itu = s.itu := rfl
@[simp] theorem State.setPtp_lam (s : State) (p : Nat) (v : PtpPort) :
    (s.setPtp p v).lam = { s.lam with ptp := setNth {} s.lam.ptp p v } := rfl
@[simp] theorem State.setPtp_latches (s : State) (p : Nat) (v : PtpPort) : (s.setPtp p v).latches = s.latches := rfl
@[simp] theorem State.setPtp_holds (s : State) (p : Nat) (v : PtpPort) : (s.setPtp p v).holds = s.holds := rfl
@[simp] theorem State.setPtp_pending (s : State) (p : Nat) (v : PtpPort) : (s.setPtp p v).pending = s.pending := rfl
@[simp] theorem State.setPtp_rdata (s : State) (p : Nat) (v : PtpPort) : (s.setPtp p v).rdata = s.rdata := rfl
@[simp] theorem State.setPtp_freeN (s : State) (p : Nat) (v : PtpPort) : (s.setPtp p v).freeN = s.freeN := rfl

@[simp] theorem State.setCring_itu (s : State) (r : Nat) (v : CmpRing) : (s.setCring r v).itu = s.itu := rfl
@[simp] theorem State.setCring_lam (s : State) (r : Nat) (v : CmpRing) :
    (s.setCring r v).lam = { s.lam with cmp := setNth {} s.lam.cmp r v } := rfl
@[simp] theorem State.setCring_latches (s : State) (r : Nat) (v : CmpRing) : (s.setCring r v).latches = s.latches := rfl
@[simp] theorem State.setCring_holds (s : State) (r : Nat) (v : CmpRing) : (s.setCring r v).holds = s.holds := rfl
@[simp] theorem State.setCring_pending (s : State) (r : Nat) (v : CmpRing) : (s.setCring r v).pending = s.pending := rfl
@[simp] theorem State.setCring_rdata (s : State) (r : Nat) (v : CmpRing) : (s.setCring r v).rdata = s.rdata := rfl
@[simp] theorem State.setCring_freeN (s : State) (r : Nat) (v : CmpRing) : (s.setCring r v).freeN = s.freeN := rfl

@[simp] theorem State.setEp_itu (s : State) (p : Nat) (v : EthPort) : (s.setEp p v).itu = s.itu := rfl
@[simp] theorem State.setEp_lam (s : State) (p : Nat) (v : EthPort) :
    (s.setEp p v).lam = { s.lam with eth := { s.lam.eth with ports := setNth {} s.lam.eth.ports p v } } := rfl
@[simp] theorem State.setEp_latches (s : State) (p : Nat) (v : EthPort) : (s.setEp p v).latches = s.latches := rfl
@[simp] theorem State.setEp_holds (s : State) (p : Nat) (v : EthPort) : (s.setEp p v).holds = s.holds := rfl
@[simp] theorem State.setEp_pending (s : State) (p : Nat) (v : EthPort) : (s.setEp p v).pending = s.pending := rfl
@[simp] theorem State.setEp_rdata (s : State) (p : Nat) (v : EthPort) : (s.setEp p v).rdata = s.rdata := rfl
@[simp] theorem State.setEp_freeN (s : State) (p : Nat) (v : EthPort) : (s.setEp p v).freeN = s.freeN := rfl

@[simp] theorem State.setFslot_itu (s : State) (i : Nat) (f : FSlot) : (s.setFslot i f).itu = s.itu := rfl
@[simp] theorem State.setFslot_lam (s : State) (i : Nat) (f : FSlot) :
    (s.setFslot i f).lam = { s.lam with fst := { s.lam.fst with slots := setNth {} s.lam.fst.slots i f } } := rfl
@[simp] theorem State.setFslot_latches (s : State) (i : Nat) (f : FSlot) : (s.setFslot i f).latches = s.latches := rfl
@[simp] theorem State.setFslot_holds (s : State) (i : Nat) (f : FSlot) : (s.setFslot i f).holds = s.holds := rfl
@[simp] theorem State.setFslot_pending (s : State) (i : Nat) (f : FSlot) : (s.setFslot i f).pending = s.pending := rfl
@[simp] theorem State.setFslot_rdata (s : State) (i : Nat) (f : FSlot) : (s.setFslot i f).rdata = s.rdata := rfl
@[simp] theorem State.setFslot_freeN (s : State) (i : Nat) (f : FSlot) : (s.setFslot i f).freeN = s.freeN := rfl

@[simp] theorem State.setLatchOf_itu (s : State) (q : Nat) (l : FLatch) : (s.setLatchOf q l).itu = s.itu := rfl
@[simp] theorem State.setLatchOf_lam (s : State) (q : Nat) (l : FLatch) :
    (s.setLatchOf q l).lam = { s.lam with fst := { s.lam.fst with latches := setNth none s.lam.fst.latches q (some l) } } := rfl
@[simp] theorem State.setLatchOf_latches (s : State) (q : Nat) (l : FLatch) : (s.setLatchOf q l).latches = s.latches := rfl
@[simp] theorem State.setLatchOf_holds (s : State) (q : Nat) (l : FLatch) : (s.setLatchOf q l).holds = s.holds := rfl
@[simp] theorem State.setLatchOf_pending (s : State) (q : Nat) (l : FLatch) : (s.setLatchOf q l).pending = s.pending := rfl
@[simp] theorem State.setLatchOf_rdata (s : State) (q : Nat) (l : FLatch) : (s.setLatchOf q l).rdata = s.rdata := rfl
@[simp] theorem State.setLatchOf_freeN (s : State) (q : Nat) (l : FLatch) : (s.setLatchOf q l).freeN = s.freeN := rfl

@[simp] theorem State.setGntF_itu (s : State) (g : GntF) : (s.setGntF g).itu = s.itu := rfl
@[simp] theorem State.setGntF_lam (s : State) (g : GntF) : (s.setGntF g).lam = { s.lam with gnt := g } := rfl
@[simp] theorem State.setGntF_latches (s : State) (g : GntF) : (s.setGntF g).latches = s.latches := rfl
@[simp] theorem State.setGntF_holds (s : State) (g : GntF) : (s.setGntF g).holds = s.holds := rfl
@[simp] theorem State.setGntF_pending (s : State) (g : GntF) : (s.setGntF g).pending = s.pending := rfl
@[simp] theorem State.setGntF_rdata (s : State) (g : GntF) : (s.setGntF g).rdata = s.rdata := rfl
@[simp] theorem State.setGntF_freeN (s : State) (g : GntF) : (s.setGntF g).freeN = s.freeN := rfl

@[simp] theorem State.setLdg_itu (s : State) (g : LdgF) : (s.setLdg g).itu = s.itu := rfl
@[simp] theorem State.setLdg_lam (s : State) (g : LdgF) : (s.setLdg g).lam = { s.lam with ldg := g } := rfl
@[simp] theorem State.setLdg_latches (s : State) (g : LdgF) : (s.setLdg g).latches = s.latches := rfl
@[simp] theorem State.setLdg_holds (s : State) (g : LdgF) : (s.setLdg g).holds = s.holds := rfl
@[simp] theorem State.setLdg_pending (s : State) (g : LdgF) : (s.setLdg g).pending = s.pending := rfl
@[simp] theorem State.setLdg_rdata (s : State) (g : LdgF) : (s.setLdg g).rdata = s.rdata := rfl
@[simp] theorem State.setLdg_freeN (s : State) (g : LdgF) : (s.setLdg g).freeN = s.freeN := rfl

@[simp] theorem State.setDet_itu (s : State) (q : Nat) (v : DetPort) : (s.setDet q v).itu = s.itu := rfl
@[simp] theorem State.setDet_lam (s : State) (q : Nat) (v : DetPort) :
    (s.setDet q v).lam = { s.lam with det := setNth {} s.lam.det q v } := rfl
@[simp] theorem State.setDet_latches (s : State) (q : Nat) (v : DetPort) : (s.setDet q v).latches = s.latches := rfl
@[simp] theorem State.setDet_holds (s : State) (q : Nat) (v : DetPort) : (s.setDet q v).holds = s.holds := rfl
@[simp] theorem State.setDet_pending (s : State) (q : Nat) (v : DetPort) : (s.setDet q v).pending = s.pending := rfl
@[simp] theorem State.setDet_rdata (s : State) (q : Nat) (v : DetPort) : (s.setDet q v).rdata = s.rdata := rfl
@[simp] theorem State.setDet_freeN (s : State) (q : Nat) (v : DetPort) : (s.setDet q v).freeN = s.freeN := rfl

@[simp] theorem State.setPort_itu (s : State) (q : Nat) (p : IklPort) : (s.setPort q p).itu = s.itu := rfl
@[simp] theorem State.setPort_lam (s : State) (q : Nat) (p : IklPort) :
    (s.setPort q p).lam = { s.lam with ports := setNth {} s.lam.ports q p } := rfl
@[simp] theorem State.setPort_latches (s : State) (q : Nat) (p : IklPort) : (s.setPort q p).latches = s.latches := rfl
@[simp] theorem State.setPort_holds (s : State) (q : Nat) (p : IklPort) : (s.setPort q p).holds = s.holds := rfl
@[simp] theorem State.setPort_pending (s : State) (q : Nat) (p : IklPort) : (s.setPort q p).pending = s.pending := rfl
@[simp] theorem State.setPort_rdata (s : State) (q : Nat) (p : IklPort) : (s.setPort q p).rdata = s.rdata := rfl
@[simp] theorem State.setPort_freeN (s : State) (q : Nat) (p : IklPort) : (s.setPort q p).freeN = s.freeN := rfl

@[simp] theorem State.setRcd_itu (s : State) (r : Rcd) : (s.setRcd r).itu = s.itu := rfl
@[simp] theorem State.setRcd_lam (s : State) (r : Rcd) : (s.setRcd r).lam = { s.lam with rcd := r } := rfl
@[simp] theorem State.setRcd_latches (s : State) (r : Rcd) : (s.setRcd r).latches = s.latches := rfl
@[simp] theorem State.setRcd_holds (s : State) (r : Rcd) : (s.setRcd r).holds = s.holds := rfl
@[simp] theorem State.setRcd_pending (s : State) (r : Rcd) : (s.setRcd r).pending = s.pending := rfl
@[simp] theorem State.setRcd_rdata (s : State) (r : Rcd) : (s.setRcd r).rdata = s.rdata := rfl
@[simp] theorem State.setRcd_freeN (s : State) (r : Rcd) : (s.setRcd r).freeN = s.freeN := rfl

@[simp] theorem State.setNor_itu (s : State) (m : Memory) : (s.setNor m).itu = s.itu := rfl
@[simp] theorem State.setNor_lam (s : State) (m : Memory) : (s.setNor m).lam = { s.lam with brd := { s.lam.brd with nor := m } } := rfl
@[simp] theorem State.setNor_latches (s : State) (m : Memory) : (s.setNor m).latches = s.latches := rfl
@[simp] theorem State.setNor_holds (s : State) (m : Memory) : (s.setNor m).holds = s.holds := rfl
@[simp] theorem State.setNor_pending (s : State) (m : Memory) : (s.setNor m).pending = s.pending := rfl
@[simp] theorem State.setNor_rdata (s : State) (m : Memory) : (s.setNor m).rdata = s.rdata := rfl
@[simp] theorem State.setNor_freeN (s : State) (m : Memory) : (s.setNor m).freeN = s.freeN := rfl

@[simp] theorem State.setCtl_itu (s : State) (c : Ctl) : (s.setCtl c).itu = s.itu := rfl
@[simp] theorem State.setCtl_lam (s : State) (c : Ctl) : (s.setCtl c).lam = { s.lam with ctl := c } := rfl
@[simp] theorem State.setCtl_latches (s : State) (c : Ctl) : (s.setCtl c).latches = s.latches := rfl
@[simp] theorem State.setCtl_holds (s : State) (c : Ctl) : (s.setCtl c).holds = s.holds := rfl
@[simp] theorem State.setCtl_pending (s : State) (c : Ctl) : (s.setCtl c).pending = s.pending := rfl
@[simp] theorem State.setCtl_rdata (s : State) (c : Ctl) : (s.setCtl c).rdata = s.rdata := rfl
@[simp] theorem State.setCtl_freeN (s : State) (c : Ctl) : (s.setCtl c).freeN = s.freeN := rfl

@[simp] theorem State.setTrk_itu (s : State) (i : Nat) (t : Tracker) : (s.setTrk i t).itu = s.itu := rfl
@[simp] theorem State.setTrk_lam (s : State) (i : Nat) (t : Tracker) :
    (s.setTrk i t).lam = { s.lam with trk := Sparse.set {} s.lam.trk i t } := rfl
@[simp] theorem State.setTrk_latches (s : State) (i : Nat) (t : Tracker) : (s.setTrk i t).latches = s.latches := rfl
@[simp] theorem State.setTrk_holds (s : State) (i : Nat) (t : Tracker) : (s.setTrk i t).holds = s.holds := rfl
@[simp] theorem State.setTrk_pending (s : State) (i : Nat) (t : Tracker) : (s.setTrk i t).pending = s.pending := rfl
@[simp] theorem State.setTrk_rdata (s : State) (i : Nat) (t : Tracker) : (s.setTrk i t).rdata = s.rdata := rfl
@[simp] theorem State.setTrk_freeN (s : State) (i : Nat) (t : Tracker) : (s.setTrk i t).freeN = s.freeN := rfl

@[simp] theorem State.setDig_itu (s : State) (d : Dig) : (s.setDig d).itu = { s.itu with dig := d } := rfl
@[simp] theorem State.setDig_lam (s : State) (d : Dig) : (s.setDig d).lam = s.lam := rfl
@[simp] theorem State.setDig_latches (s : State) (d : Dig) : (s.setDig d).latches = s.latches := rfl
@[simp] theorem State.setDig_holds (s : State) (d : Dig) : (s.setDig d).holds = s.holds := rfl
@[simp] theorem State.setDig_pending (s : State) (d : Dig) : (s.setDig d).pending = s.pending := rfl
@[simp] theorem State.setDig_rdata (s : State) (d : Dig) : (s.setDig d).rdata = s.rdata := rfl
@[simp] theorem State.setDig_freeN (s : State) (d : Dig) : (s.setDig d).freeN = s.freeN := rfl

@[simp] theorem State.setPwr_itu (s : State) (p : Pwr) : (s.setPwr p).itu = { s.itu with pwr := p } := rfl
@[simp] theorem State.setPwr_lam (s : State) (p : Pwr) : (s.setPwr p).lam = s.lam := rfl
@[simp] theorem State.setPwr_latches (s : State) (p : Pwr) : (s.setPwr p).latches = s.latches := rfl
@[simp] theorem State.setPwr_holds (s : State) (p : Pwr) : (s.setPwr p).holds = s.holds := rfl
@[simp] theorem State.setPwr_pending (s : State) (p : Pwr) : (s.setPwr p).pending = s.pending := rfl
@[simp] theorem State.setPwr_rdata (s : State) (p : Pwr) : (s.setPwr p).rdata = s.rdata := rfl
@[simp] theorem State.setPwr_freeN (s : State) (p : Pwr) : (s.setPwr p).freeN = s.freeN := rfl

@[simp] theorem State.setGnt_itu (s : State) (g : Gnt) : (s.setGnt g).itu = { s.itu with gnt := g } := rfl
@[simp] theorem State.setGnt_lam (s : State) (g : Gnt) : (s.setGnt g).lam = s.lam := rfl
@[simp] theorem State.setGnt_latches (s : State) (g : Gnt) : (s.setGnt g).latches = s.latches := rfl
@[simp] theorem State.setGnt_holds (s : State) (g : Gnt) : (s.setGnt g).holds = s.holds := rfl
@[simp] theorem State.setGnt_pending (s : State) (g : Gnt) : (s.setGnt g).pending = s.pending := rfl
@[simp] theorem State.setGnt_rdata (s : State) (g : Gnt) : (s.setGnt g).rdata = s.rdata := rfl
@[simp] theorem State.setGnt_freeN (s : State) (g : Gnt) : (s.setGnt g).freeN = s.freeN := rfl

@[simp] theorem State.setTags_itu (s : State) (l : List Tag) : (s.setTags l).itu = { s.itu with tags := l } := rfl
@[simp] theorem State.setTags_lam (s : State) (l : List Tag) : (s.setTags l).lam = s.lam := rfl
@[simp] theorem State.setTags_latches (s : State) (l : List Tag) : (s.setTags l).latches = s.latches := rfl
@[simp] theorem State.setTags_holds (s : State) (l : List Tag) : (s.setTags l).holds = s.holds := rfl
@[simp] theorem State.setTags_pending (s : State) (l : List Tag) : (s.setTags l).pending = s.pending := rfl
@[simp] theorem State.setTags_rdata (s : State) (l : List Tag) : (s.setTags l).rdata = s.rdata := rfl
@[simp] theorem State.setTags_freeN (s : State) (l : List Tag) : (s.setTags l).freeN = s.freeN := rfl

@[simp] theorem State.setPins_itu (s : State) (p : IPins) : (s.setPins p).itu = { s.itu with pins := p } := rfl
@[simp] theorem State.setPins_lam (s : State) (p : IPins) : (s.setPins p).lam = s.lam := rfl
@[simp] theorem State.setPins_latches (s : State) (p : IPins) : (s.setPins p).latches = s.latches := rfl
@[simp] theorem State.setPins_holds (s : State) (p : IPins) : (s.setPins p).holds = s.holds := rfl
@[simp] theorem State.setPins_pending (s : State) (p : IPins) : (s.setPins p).pending = s.pending := rfl
@[simp] theorem State.setPins_rdata (s : State) (p : IPins) : (s.setPins p).rdata = s.rdata := rfl
@[simp] theorem State.setPins_freeN (s : State) (p : IPins) : (s.setPins p).freeN = s.freeN := rfl

@[simp] theorem State.setPseq_itu (s : State) (p : Nat) (v : PartSeq) :
    (s.setPseq p v).itu = { s.itu with parts := setNth {} s.itu.parts p v } := rfl
@[simp] theorem State.setPseq_lam (s : State) (p : Nat) (v : PartSeq) : (s.setPseq p v).lam = s.lam := rfl
@[simp] theorem State.setPseq_latches (s : State) (p : Nat) (v : PartSeq) : (s.setPseq p v).latches = s.latches := rfl
@[simp] theorem State.setPseq_holds (s : State) (p : Nat) (v : PartSeq) : (s.setPseq p v).holds = s.holds := rfl
@[simp] theorem State.setPseq_pending (s : State) (p : Nat) (v : PartSeq) : (s.setPseq p v).pending = s.pending := rfl
@[simp] theorem State.setPseq_rdata (s : State) (p : Nat) (v : PartSeq) : (s.setPseq p v).rdata = s.rdata := rfl
@[simp] theorem State.setPseq_freeN (s : State) (p : Nat) (v : PartSeq) : (s.setPseq p v).freeN = s.freeN := rfl

@[simp] theorem State.setSmp_itu (s : State) (v : Smp) : (s.setSmp v).itu = { s.itu with smp := v } := rfl
@[simp] theorem State.setSmp_lam (s : State) (v : Smp) : (s.setSmp v).lam = s.lam := rfl
@[simp] theorem State.setSmp_latches (s : State) (v : Smp) : (s.setSmp v).latches = s.latches := rfl
@[simp] theorem State.setSmp_holds (s : State) (v : Smp) : (s.setSmp v).holds = s.holds := rfl
@[simp] theorem State.setSmp_pending (s : State) (v : Smp) : (s.setSmp v).pending = s.pending := rfl
@[simp] theorem State.setSmp_rdata (s : State) (v : Smp) : (s.setSmp v).rdata = s.rdata := rfl
@[simp] theorem State.setSmp_freeN (s : State) (v : Smp) : (s.setSmp v).freeN = s.freeN := rfl

@[simp] theorem State.setTrc_itu (s : State) (p : Nat) (t : Trc) : (s.setTrc p t).itu = { s.itu with trc := setNth {} s.itu.trc p t } := rfl
@[simp] theorem State.setTrc_lam (s : State) (p : Nat) (t : Trc) : (s.setTrc p t).lam = s.lam := rfl
@[simp] theorem State.setTrc_latches (s : State) (p : Nat) (t : Trc) : (s.setTrc p t).latches = s.latches := rfl
@[simp] theorem State.setTrc_holds (s : State) (p : Nat) (t : Trc) : (s.setTrc p t).holds = s.holds := rfl
@[simp] theorem State.setTrc_pending (s : State) (p : Nat) (t : Trc) : (s.setTrc p t).pending = s.pending := rfl
@[simp] theorem State.setTrc_rdata (s : State) (p : Nat) (t : Trc) : (s.setTrc p t).rdata = s.rdata := rfl
@[simp] theorem State.setTrc_freeN (s : State) (p : Nat) (t : Trc) : (s.setTrc p t).freeN = s.freeN := rfl

@[simp] theorem State.setIStg_itu (s : State) (g : IStg) : (s.setIStg g).itu = { s.itu with txn := g } := rfl
@[simp] theorem State.setIStg_lam (s : State) (g : IStg) : (s.setIStg g).lam = s.lam := rfl
@[simp] theorem State.setIStg_latches (s : State) (g : IStg) : (s.setIStg g).latches = s.latches := rfl
@[simp] theorem State.setIStg_holds (s : State) (g : IStg) : (s.setIStg g).holds = s.holds := rfl
@[simp] theorem State.setIStg_pending (s : State) (g : IStg) : (s.setIStg g).pending = s.pending := rfl
@[simp] theorem State.setIStg_rdata (s : State) (g : IStg) : (s.setIStg g).rdata = s.rdata := rfl
@[simp] theorem State.setIStg_freeN (s : State) (g : IStg) : (s.setIStg g).freeN = s.freeN := rfl

@[simp] theorem State.setVis_itu (s : State) (v : Visor) : (s.setVis v).itu = { s.itu with vis := v } := rfl
@[simp] theorem State.setVis_lam (s : State) (v : Visor) : (s.setVis v).lam = s.lam := rfl
@[simp] theorem State.setVis_latches (s : State) (v : Visor) : (s.setVis v).latches = s.latches := rfl
@[simp] theorem State.setVis_holds (s : State) (v : Visor) : (s.setVis v).holds = s.holds := rfl
@[simp] theorem State.setVis_pending (s : State) (v : Visor) : (s.setVis v).pending = s.pending := rfl
@[simp] theorem State.setVis_rdata (s : State) (v : Visor) : (s.setVis v).rdata = s.rdata := rfl
@[simp] theorem State.setVis_freeN (s : State) (v : Visor) : (s.setVis v).freeN = s.freeN := rfl

@[simp] theorem State.setRow_itu (s : State) (v : RowSmp) : (s.setRow v).itu = { s.itu with row := v } := rfl
@[simp] theorem State.setRow_lam (s : State) (v : RowSmp) : (s.setRow v).lam = s.lam := rfl
@[simp] theorem State.setRow_latches (s : State) (v : RowSmp) : (s.setRow v).latches = s.latches := rfl
@[simp] theorem State.setRow_holds (s : State) (v : RowSmp) : (s.setRow v).holds = s.holds := rfl
@[simp] theorem State.setRow_pending (s : State) (v : RowSmp) : (s.setRow v).pending = s.pending := rfl
@[simp] theorem State.setRow_rdata (s : State) (v : RowSmp) : (s.setRow v).rdata = s.rdata := rfl
@[simp] theorem State.setRow_freeN (s : State) (v : RowSmp) : (s.setRow v).freeN = s.freeN := rfl

end Sys2Proof.Machine
end

