-- ==== Sys2Proof/Laws/Emit.lean ====
section
/-! SUPPORT. What the making of a record changes, said once for each operation that makes one. -/

namespace Sys2Proof.Machine

theorem LamSent.refl (s : State) : LamSent s s := ⟨rfl, fun _ _ => rfl⟩

theorem ItuSent.refl (s : State) : ItuSent s s := ⟨rfl, fun _ _ => rfl⟩

theorem LamSent.trans {a b c : State} (h : LamSent a b) (k : LamSent b c) : LamSent a c := by
  refine ⟨?_, fun x hx => (k.2 x hx).trans (h.2 x hx)⟩
  have e := k.1
  rw [h.1] at e
  exact e

theorem ItuSent.trans {a b c : State} (h : ItuSent a b) (k : ItuSent b c) : ItuSent a c := by
  refine ⟨?_, fun x hx => (k.2 x hx).trans (h.2 x hx)⟩
  have e := k.1
  rw [h.1] at e
  exact e

/-- A register that the making of records does not count in reads as before. -/
theorem LamSent.rl {s t : State} (h : LamSent s t) (F : Fld) (i j : Nat) (hk : F.key i j ≠ L.STAT_CNT_ADMIT_REFUSED.key 0 0) :
    t.rl F i j = s.rl F i j := by
  unfold State.rl Regs.rd
  rw [h.2 _ hk]

theorem ItuSent.ri {s t : State} (h : ItuSent s t) (F : Fld) (i j : Nat) (hk : F.key i j ≠ I.ILNK_CNT_Q_REFUSED.key 0 0) :
    t.ri F i j = s.ri F i j := by
  unfold State.ri Regs.rd
  rw [h.2 _ hk]

theorem LamSent.itu {s t : State} (h : LamSent s t) : t.itu = s.itu := by rw [h.1]

theorem ItuSent.lam {s t : State} (h : ItuSent s t) : t.lam = s.lam := by rw [h.1]

theorem LamSent.clk {s t : State} (h : LamSent s t) : t.lam.clk = s.lam.clk := by rw [h.1]

theorem ItuSent.clk {s t : State} (h : ItuSent s t) : t.itu.clk = s.itu.clk := by rw [h.1]

/-! ### At the Lamulo -/

theorem lamSent_lamAdmit (s : State) (c n : Nat) : LamSent s (s.lamAdmit c n).1 := by
  unfold State.lamAdmit
  split
  · exact .refl s
  · dsimp only
    split
    · exact ⟨rfl, fun _ _ => rfl⟩
    · exact ⟨rfl, fun k hk => Regs.get_wr_ne _ _ _ _ _ _ hk⟩

theorem lamSent_send (s : State) (d : Dst) (chan : Nat) (i : Item) : LamSent s (s.send d chan i) := ⟨rfl, fun _ _ => rfl⟩

theorem lamSent_recCopy (s : State) (r : Rec) (f : Bool) : LamSent s (s.recCopy r f) := by
  unfold State.recCopy
  split
  · exact ⟨rfl, fun _ _ => rfl⟩
  · exact .refl s

theorem lamSent_lamRec (s : State) (cls typ die gen short : Nat) (body : List Nat) (d : Dst) :
    LamSent s (s.lamRec cls typ die gen short body d).1 := by
  unfold State.lamRec
  split
  · exact .refl s
  · extract_lets r a
    have ha : LamSent s a.1 := lamSent_lamAdmit s cls r.size
    clear_value a
    split
    · refine LamSent.trans ha (LamSent.trans ?_ (lamSent_recCopy _ _ _))
      exact ⟨rfl, fun _ _ => rfl⟩
    · exact ha

theorem lamSent_lamEmit (s : State) (cls typ short : Nat) (body : List Nat) (d : Dst) : LamSent s (s.lamEmit cls typ short body d) :=
  lamSent_lamRec _ _ _ _ _ _ _ _

theorem lamSent_timeAlarm (s : State) (cause : Nat) (off : Int) : LamSent s (s.timeAlarm .lam cause off) := lamSent_lamEmit _ _ _ _ _ _

theorem lamSent_mainsAlarm (s : State) (cause : Nat) : LamSent s (s.mainsAlarm .lam cause) := lamSent_lamEmit _ _ _ _ _ _

/-! ### At the ITU -/

theorem ituSent_ituAdmit (s : State) (c n : Nat) : ItuSent s (s.ituAdmit c n).1 := by
  unfold State.ituAdmit
  split
  · exact .refl s
  · exact ⟨rfl, fun _ _ => rfl⟩

theorem ituSent_ituQueue (s : State) (r : Rec) : ItuSent s (s.ituQueue r) := ⟨rfl, fun _ _ => rfl⟩

theorem ituSent_ituOffer (s : State) (r : Rec) : ItuSent s (s.ituOffer r).1 := by
  unfold State.ituOffer
  split
  · exact ⟨rfl, fun k hk => Regs.get_wr_ne _ _ _ _ _ _ hk⟩
  · dsimp only
    split
    · exact (ituSent_ituAdmit _ _ _).trans (ituSent_ituQueue _ _)
    · exact ituSent_ituAdmit _ _ _

theorem ituSent_ituEmit (s : State) (cls typ part short : Nat) (body : List Nat) : ItuSent s (s.ituEmit cls typ part short body).1 := by
  unfold State.ituEmit
  split
  · exact .refl s
  · exact ituSent_ituOffer _ _

theorem ituSent_ituEmitFenced (s : State) (cls typ part short : Nat) (body : List Nat) :
    ItuSent s (s.ituEmitFenced cls typ part short body) := ituSent_ituOffer _ _

theorem ituSent_ituEmitDie (s : State) (cls typ cause short : Nat) (body : List Nat) :
    ItuSent s (s.ituEmitDie cls typ cause short body) := by
  unfold State.ituEmitDie
  split
  · exact ⟨rfl, fun _ _ => rfl⟩
  · exact ituSent_ituOffer _ _

theorem ituSent_timeAlarm (s : State) (cause : Nat) (off : Int) : ItuSent s (s.timeAlarm .itu cause off) := ituSent_ituEmitDie _ _ _ _ _ _

theorem ituSent_mainsAlarm (s : State) (cause : Nat) : ItuSent s (s.mainsAlarm .itu cause) := ituSent_ituEmitDie _ _ _ _ _ _

theorem ituSent_ldgAlarm (s : State) (cause : Nat) : ItuSent s (s.ldgAlarm cause) := ituSent_ituEmitDie _ _ _ _ _ _

/-- Emission of every held record keeps what each keeps. -/
theorem ituSent_ituEmitHeld (s : State) : ItuSent s s.ituEmitHeld := by
  unfold State.ituEmitHeld
  have h0 : ItuSent s { s with itu := { s.itu with txq := { s.itu.txq with held := [] } } } := ⟨rfl, fun _ _ => rfl⟩
  generalize ({ s with itu := { s.itu with txq := { s.itu.txq with held := [] } } } : State) = a at h0
  generalize s.itu.txq.held = l
  induction l generalizing a with
  | nil => exact h0
  | cons x l ih => exact ih _ (h0.trans (ituSent_ituOffer _ _))

end Sys2Proof.Machine
end

