-- ==== Sys2Proof/Laws/Frame.lean ====
section
/-! SUPPORT. What an operation can do to the block, said once: the queue of commands stays, the stores keep their canonical form, and
of the ITU, the Lamulo, the DDR, the NOR flash, and the level of POR_N only the parts named may change; no key is lost. Every State-valued operation has a lemma fr_<name>
of this form, which chains them. -/

namespace Sys2Proof.Machine

/-- The parts of the block that may change. -/
structure Parts where
  itu : Bool := false
  lam : Bool := false
  ddr : Bool := false
  nor : Bool := false
  /-- the level of POR_N that the straps go by -/
  por : Bool := false

/-- s is reached from r with changes to the parts p alone, stores kept canonical and the queue kept. -/
structure Fr (p : Parts) (r s : State) : Prop where
  pend : s.pending = r.pending
  can : r.canonical = true → s.canonical = true
  itu : p.itu = false → s.itu = r.itu
  lam : p.lam = false → s.lam = r.lam
  ddr : p.ddr = false → s.lam.ddr = r.lam.ddr
  nor : p.nor = false → s.lam.brd.nor = r.lam.brd.nor
  por : p.por = false → s.lam.pins.por = r.lam.pins.por
  keys : r.lam.keys <+: s.lam.keys

/-- The same of an outcome: of its next state, if it has one. -/
structure FrO (p : Parts) (r : State) (o : Out) : Prop where
  out : ∀ t, o = .next t → Fr p r t

variable {fp : Parts} {s0 s1 : State}

theorem Fr.refl (fp : Parts) (s1 : State) : Fr fp s1 s1 := ⟨rfl, id, fun _ => rfl, fun _ => rfl, fun _ => rfl, fun _ => rfl, fun _ => rfl, List.prefix_rfl⟩

theorem FrO.next (h : Fr fp s0 s1) : FrO fp s0 (.next s1) := ⟨fun t ht => by injection ht with ht; exact ht ▸ h⟩

theorem FrO.fault (f : Fault) : FrO fp s0 (.fault f) := ⟨fun t ht => by cases ht⟩

theorem FrO.refused (f : Refusal) : FrO fp s0 (.refused f) := ⟨fun t ht => by cases ht⟩

/-- A choice keeps what both its sides keep. -/
theorem fr_ite {c : Prop} {dc : Decidable c} {a b : State} (h1 : c → Fr fp s0 a) (h2 : ¬c → Fr fp s0 b) : Fr fp s0 (if c then a else b) := by
  split
  · exact h1 ‹_›
  · exact h2 ‹_›

theorem frO_ite {c : Prop} {dc : Decidable c} {a b : Out} (h1 : c → FrO fp s0 a) (h2 : ¬c → FrO fp s0 b) : FrO fp s0 (if c then a else b) := by
  split
  · exact h1 ‹_›
  · exact h2 ‹_›

/-- A value proved about first is then taken as it is. -/
theorem fr_cut {q : Prop} (x : State) (h : Fr fp s0 x) (k : Fr fp s0 x → q) : q := k h

/-! The same of states in pairs. -/

theorem fr_fst {α : Type} {a : State} {b : α} (h : Fr fp s0 a) : Fr fp s0 (a, b).1 := h

theorem fr_snd {α : Type} {a : State} {b : α} (h : Fr fp s0 a) : Fr fp s0 (b, a).2 := h

theorem fr_ite_fst {α : Type} {c : Prop} {dc : Decidable c} {a b : State × α} (h1 : c → Fr fp s0 a.1) (h2 : ¬c → Fr fp s0 b.1) :
    Fr fp s0 (if c then a else b).1 := by
  split
  · exact h1 ‹_›
  · exact h2 ‹_›

theorem fr_ite_snd {α : Type} {c : Prop} {dc : Decidable c} {a b : α × State} (h1 : c → Fr fp s0 a.2) (h2 : ¬c → Fr fp s0 b.2) :
    Fr fp s0 (if c then a else b).2 := by
  split
  · exact h1 ‹_›
  · exact h2 ‹_›

/-- A fold keeps what each of its steps keeps. -/
theorem fr_foldl {α : Type} {f : State → α → State} (l : List α) (h : Fr fp s0 s1) (hf : ∀ s1 a, Fr fp s0 s1 → Fr fp s0 (f s1 a)) :
    Fr fp s0 (l.foldl f s1) := by
  induction l generalizing s1 with
  | nil => exact h
  | cons a l ih => exact ih (hf s1 a h)

theorem fr_foldl_fst {α β : Type} {f : State × β → α → State × β} {i : State × β} (l : List α) (h : Fr fp s0 i.1)
    (hf : ∀ x a, Fr fp s0 x.1 → Fr fp s0 (f x a).1) : Fr fp s0 (l.foldl f i).1 := by
  induction l generalizing i with
  | nil => exact h
  | cons a l ih => exact ih (hf i a h)

theorem canonical_iff (s1 : State) : s1.canonical = true ↔ Sparse.wf 0 s1.itu.regs = true ∧ Sparse.wf 0 s1.lam.regs = true ∧
    Memory.wf ddrDefault s1.lam.ddr = true ∧ Memory.wf norDefault s1.lam.brd.nor = true ∧ Memory.wf norDefault s1.lam.brd.sram = true := by
  simp [State.canonical, and_assoc]

/-- A new state that changes no store. -/
theorem Fr.upd {t : State} (h : Fr fp s0 s1) (hp : t.pending = s1.pending)
    (hi : t.itu = s1.itu ∨ fp.itu = true ∧ t.itu.regs = s1.itu.regs)
    (hl : t.lam = s1.lam ∨ fp.lam = true ∧ t.lam.regs = s1.lam.regs ∧ t.lam.ddr = s1.lam.ddr ∧ t.lam.brd.nor = s1.lam.brd.nor ∧
      t.lam.brd.sram = s1.lam.brd.sram ∧ t.lam.pins.por = s1.lam.pins.por ∧ t.lam.keys = s1.lam.keys) : Fr fp s0 t := by
  have ei : t.itu.regs = s1.itu.regs := by rcases hi with hi | hi; rw [hi]; exact hi.2
  have el : t.lam.regs = s1.lam.regs ∧ t.lam.ddr = s1.lam.ddr ∧ t.lam.brd.nor = s1.lam.brd.nor ∧ t.lam.brd.sram = s1.lam.brd.sram ∧
      t.lam.pins.por = s1.lam.pins.por ∧ t.lam.keys = s1.lam.keys := by
    rcases hl with hl | hl
    · rw [hl]; exact ⟨rfl, rfl, rfl, rfl, rfl, rfl⟩
    · exact hl.2
  refine ⟨hp.trans h.pend, fun hc => ?_, fun hf => ?_, fun hf => ?_, fun hf => el.2.1.trans (h.ddr hf), fun hf => el.2.2.1.trans (h.nor hf),
    fun hf => el.2.2.2.2.1.trans (h.por hf), el.2.2.2.2.2 ▸ h.keys⟩
  · have := h.can hc
    rw [canonical_iff] at *
    rw [ei, el.1, el.2.1, el.2.2.1, el.2.2.2.1]; exact this
  · rcases hi with hi | hi
    · rw [hi]; exact h.itu hf
    · exact absurd (hi.1.symm.trans hf) (by decide)
  · rcases hl with hl | hl
    · rw [hl]; exact h.lam hf
    · exact absurd (hl.1.symm.trans hf) (by decide)

/-- The same where the new state is written out over an old one. -/
theorem fr_mk {i : Itu} {l : Lam} {a : List Latch} {b : List Hold} {c : List Nat} {n : Nat} (h : Fr fp s0 s1)
    (hi : i = s1.itu ∨ fp.itu = true ∧ i.regs = s1.itu.regs)
    (hl : l = s1.lam ∨ fp.lam = true ∧ l.regs = s1.lam.regs ∧ l.ddr = s1.lam.ddr ∧ l.brd.nor = s1.lam.brd.nor ∧
      l.brd.sram = s1.lam.brd.sram ∧ l.pins.por = s1.lam.pins.por ∧ l.keys = s1.lam.keys) : Fr fp s0 (State.mk i l a b s1.pending c n) :=
  Fr.upd (t := State.mk i l a b s1.pending c n) h rfl hi hl

/-- A write of the ITU's register file. -/
theorem Fr.ituRegs (hp : fp.itu = true) (h : Fr fp s0 s1) (i : Itu) (hw : Sparse.wf 0 s1.itu.regs = true → Sparse.wf 0 i.regs = true) :
    Fr fp s0 { s1 with itu := i } := by
  refine ⟨h.pend, fun hc => ?_, fun hf => absurd (hp.symm.trans hf) (by decide), h.lam, h.ddr, h.nor, h.por, h.keys⟩
  have := h.can hc
  rw [canonical_iff] at *
  exact ⟨hw this.1, this.2⟩

/-- A change of the Lamulo that keeps each of its stores canonical. -/
theorem Fr.lamAll (hp : fp.lam = true) (h : Fr fp s0 s1) (l : Lam) (hw : Sparse.wf 0 s1.lam.regs = true → Sparse.wf 0 l.regs = true)
    (hd : l.ddr = s1.lam.ddr ∨ fp.ddr = true ∧ (Memory.wf ddrDefault s1.lam.ddr = true → Memory.wf ddrDefault l.ddr = true))
    (hn : l.brd.nor = s1.lam.brd.nor ∨
      fp.nor = true ∧ (Memory.wf norDefault s1.lam.brd.nor = true → Memory.wf norDefault l.brd.nor = true))
    (hs : Memory.wf norDefault s1.lam.brd.sram = true → Memory.wf norDefault l.brd.sram = true)
    (ho : l.pins.por = s1.lam.pins.por ∨ fp.por = true) (hk : s1.lam.keys <+: l.keys) :
    Fr fp s0 { s1 with lam := l } := by
  refine ⟨h.pend, fun hc => ?_, h.itu, fun hf => absurd (hp.symm.trans hf) (by decide), fun hf => ?_, fun hf => ?_, fun hf => ?_, h.keys.trans hk⟩
  · have := h.can hc
    rw [canonical_iff] at *
    refine ⟨this.1, hw this.2.1, ?_, ?_, hs this.2.2.2.2⟩
    · rcases hd with hd | hd
      · rw [hd]; exact this.2.2.1
      · exact hd.2 this.2.2.1
    · rcases hn with hn | hn
      · rw [hn]; exact this.2.2.2.1
      · exact hn.2 this.2.2.2.1
  · rcases hd with hd | hd
    · exact hd.trans (h.ddr hf)
    · exact absurd (hd.1.symm.trans hf) (by decide)
  · rcases hn with hn | hn
    · exact hn.trans (h.nor hf)
    · exact absurd (hn.1.symm.trans hf) (by decide)
  · rcases ho with ho | ho
    · exact ho.trans (h.por hf)
    · exact absurd (ho.symm.trans hf) (by decide)

theorem fr_wi (F : Fld) (v i j : Nat) (hi : fp.itu = true) (h : Fr fp s0 s1) : Fr fp s0 (s1.wi F v i j) :=
  Fr.ituRegs hi h _ (Regs.wf_wr _ _ _ _ _)

theorem fr_ii (F : Fld) (n i j : Nat) (hi : fp.itu = true) (h : Fr fp s0 s1) : Fr fp s0 (s1.ii F n i j) :=
  Fr.ituRegs hi h _ (Regs.wf_inc _ _ _ _ _)

theorem fr_wl (F : Fld) (v i j : Nat) (hl : fp.lam = true) (h : Fr fp s0 s1) : Fr fp s0 (s1.wl F v i j) :=
  Fr.lamAll hl h _ (Regs.wf_wr _ _ _ _ _) (.inl rfl) (.inl rfl) id (.inl rfl) List.prefix_rfl

theorem fr_il (F : Fld) (n i j : Nat) (hl : fp.lam = true) (h : Fr fp s0 s1) : Fr fp s0 (s1.il F n i j) :=
  Fr.lamAll hl h _ (Regs.wf_inc _ _ _ _ _) (.inl rfl) (.inl rfl) id (.inl rfl) List.prefix_rfl

theorem fr_free (h : Fr fp s0 s1) : Fr fp s0 s1.free.2 := h.upd rfl (.inl rfl) (.inl rfl)

theorem fr_when (c : Bool) (f : State → State) (h : Fr fp s0 s1) (hf : ∀ s1, Fr fp s0 s1 → Fr fp s0 (f s1)) : Fr fp s0 (s1.when c f) := by
  unfold State.when; split
  · exact hf s1 h
  · exact h

theorem Sparse.wf_filter {α : Type} [DecidableEq α] {d : α} (m : List (Nat × α)) (f : Nat × α → Bool) (w : Sparse.wf d m = true) :
    Sparse.wf d (m.filter f) = true := by
  rw [Sparse.wf_iff] at *
  suffices h : ∀ b, Sparse.wfAbove d b m → Sparse.wfAbove d b (m.filter f) from h 0 w
  intro b hb
  induction m generalizing b with
  | nil => exact hb
  | cons x m ih =>
    obtain ⟨k, v⟩ := x
    obtain ⟨h1, h2, h3⟩ := hb
    rw [List.filter_cons]
    split
    · exact ⟨h1, h2, ih (Sparse.wfAbove_mono (Nat.zero_le _) h3) _ h3⟩
    · exact Sparse.wfAbove_mono (by omega) (ih (Sparse.wfAbove_mono (Nat.zero_le _) h3) _ h3)

end Sys2Proof.Machine
end

