-- ==== Sys2Proof/Laws/FrOps.lean ====
section
/-! SUPPORT. What each operation of Machine/Ops.lean can change, in the form of Laws/Frame.lean. -/

set_option linter.unusedTactic false
set_option linter.unreachableTactic false

namespace Sys2Proof.Machine

variable {fp : Parts} {s0 s1 : State}

theorem fr_lamAdmit (c : ℕ) (n : ℕ) (fpl : fp.lam = true) (hfr : Fr fp s0 s1) : Fr fp s0 (State.lamAdmit s1 c n).1 := by
  delta State.lamAdmit
  repeat' first
    | with_reducible assumption
    | intro _
    | with_reducible apply fr_il
    | with_reducible apply fr_ite
    | (with_reducible refine fr_mk (by with_reducible assumption) ?_ ?_) <;> first | exact .inl rfl | exact .inr ⟨by assumption, rfl⟩ | exact .inr ⟨by assumption, rfl, rfl, rfl, rfl, rfl, rfl⟩
    | split

theorem fr_recCopy (r : Rec) (forwarded : Bool) (fpl : fp.lam = true) (hfr : Fr fp s0 s1) : Fr fp s0 (State.recCopy s1 r forwarded) := by
  delta State.recCopy
  repeat' first
    | intro _
    | (with_reducible refine fr_mk (by with_reducible assumption) ?_ ?_) <;> first | exact .inl rfl | exact .inr ⟨by assumption, rfl⟩ | exact .inr ⟨by assumption, rfl, rfl, rfl, rfl, rfl, rfl⟩
    | split

theorem fr_send (d : Dst) (chan : ℕ) (i : Item) (fpl : fp.lam = true) (hfr : Fr fp s0 s1) : Fr fp s0 (State.send s1 d chan i) := by
  delta State.send
  repeat' first
    | (with_reducible refine fr_mk (by with_reducible assumption) ?_ ?_) <;> first | exact .inl rfl | exact .inr ⟨by assumption, rfl⟩ | exact .inr ⟨by assumption, rfl, rfl, rfl, rfl, rfl, rfl⟩

theorem fr_lamRec (cls : ℕ) (typ : ℕ) (die : ℕ) (gen : ℕ) (short : ℕ) (body : List ℕ) (d : optParam Dst Dst.up) (fpl : fp.lam = true) (hfr : Fr fp s0 s1) : Fr fp s0 (State.lamRec s1 cls typ die gen short body d).1 := by
  delta State.lamRec
  repeat' first
    | with_reducible assumption
    | (intro x; (first | refine fr_cut (fp := fp) (s0 := s0) x ?_ (fun hx => ?_) | refine fr_cut (fp := fp) (s0 := s0) x.1 ?_ (fun hx => ?_) | refine fr_cut (fp := fp) (s0 := s0) x.2 ?_ (fun hx => ?_)); on_goal 1 => dsimp -zeta -zetaHave only [x])
    | intro _
    | lift_lets
    | with_reducible apply fr_lamAdmit
    | with_reducible apply fr_recCopy
    | with_reducible apply fr_send
    | (with_reducible refine fr_mk (by with_reducible assumption) ?_ ?_) <;> first | exact .inl rfl | exact .inr ⟨by assumption, rfl⟩ | exact .inr ⟨by assumption, rfl, rfl, rfl, rfl, rfl, rfl⟩
    | split

theorem fr_lamEmit (cls : ℕ) (typ : ℕ) (short : ℕ) (body : List ℕ) (d : optParam Dst Dst.up) (fpl : fp.lam = true) (hfr : Fr fp s0 s1) : Fr fp s0 (State.lamEmit s1 cls typ short body d) := by
  delta State.lamEmit
  repeat' first
    | with_reducible assumption
    | with_reducible apply fr_lamRec

theorem fr_ituQueue (r : Rec) (fpi : fp.itu = true) (hfr : Fr fp s0 s1) : Fr fp s0 (State.ituQueue s1 r) := by
  delta State.ituQueue
  repeat' first
    | (with_reducible refine fr_mk (by with_reducible assumption) ?_ ?_) <;> first | exact .inl rfl | exact .inr ⟨by assumption, rfl⟩ | exact .inr ⟨by assumption, rfl, rfl, rfl, rfl, rfl, rfl⟩

theorem fr_ituAdmit (c : ℕ) (n : ℕ) (fpi : fp.itu = true) (hfr : Fr fp s0 s1) : Fr fp s0 (State.ituAdmit s1 c n).1 := by
  delta State.ituAdmit
  repeat' first
    | intro _
    | (with_reducible refine fr_mk (by with_reducible assumption) ?_ ?_) <;> first | exact .inl rfl | exact .inr ⟨by assumption, rfl⟩ | exact .inr ⟨by assumption, rfl, rfl, rfl, rfl, rfl, rfl⟩
    | split

theorem fr_ituOffer (r : Rec) (fpi : fp.itu = true) (hfr : Fr fp s0 s1) : Fr fp s0 (State.ituOffer s1 r).1 := by
  delta State.ituOffer
  repeat' first
    | with_reducible assumption
    | intro _
    | with_reducible apply fr_ituQueue
    | with_reducible apply fr_ituAdmit
    | with_reducible apply fr_ii
    | with_reducible apply fr_ite_fst

theorem fr_ituPriv (iss : Issuer) (a : ℕ) (write : Bool) (fpi : fp.itu = true) (hfr : Fr fp s0 s1) : Fr fp s0 (State.ituPriv s1 iss a write) := by
  delta State.ituPriv
  repeat' first
    | with_reducible assumption
    | (intro x; (first | refine fr_cut (fp := fp) (s0 := s0) x ?_ (fun hx => ?_) | refine fr_cut (fp := fp) (s0 := s0) x.1 ?_ (fun hx => ?_) | refine fr_cut (fp := fp) (s0 := s0) x.2 ?_ (fun hx => ?_)); on_goal 1 => dsimp -zeta -zetaHave only [x])
    | with_reducible apply fr_wi
    | with_reducible apply fr_ii
    | split

theorem fr_lamPriv (a : Sys2Proof.Auth) (addr : ℕ) (write : Bool) (fpl : fp.lam = true) (hfr : Fr fp s0 s1) : Fr fp s0 (State.lamPriv s1 a addr write) := by
  delta State.lamPriv
  repeat' first
    | with_reducible assumption
    | (intro x; (first | refine fr_cut (fp := fp) (s0 := s0) x ?_ (fun hx => ?_) | refine fr_cut (fp := fp) (s0 := s0) x.1 ?_ (fun hx => ?_) | refine fr_cut (fp := fp) (s0 := s0) x.2 ?_ (fun hx => ?_)); on_goal 1 => dsimp -zeta -zetaHave only [x])
    | with_reducible apply fr_il
    | with_reducible apply fr_wl
    | split

theorem fr_ituOffAccess (fpi : fp.itu = true) (hfr : Fr fp s0 s1) : Fr fp s0 (State.ituOffAccess s1) := by
  delta State.ituOffAccess
  repeat' first
    | with_reducible assumption
    | with_reducible apply fr_wi

theorem fr_ituGuard (iss : Issuer) (a : Nat) (write : Bool) (fauth : Nat) (fpi : fp.itu = true) (hfr : Fr fp s0 s1) :
    Fr fp s0 (s1.ituGuard iss a write fauth).1 := by
  unfold State.ituGuard
  extract_lets b need own cuffed
  clear_value need own cuffed b
  split
  · exact fr_ituPriv _ _ _ fpi hfr
  · split
    · exact fr_ii _ _ _ _ fpi (fr_ituPriv _ _ _ fpi hfr)
    · split
      · exact fr_ituOffAccess fpi hfr
      · split <;> exact hfr

theorem fr_lamGuard (iss : Issuer) (a : ℕ) (write : Bool) (fauth : ℕ) (fpl : fp.lam = true) (hfr : Fr fp s0 s1) : Fr fp s0 (State.lamGuard s1 iss a write fauth).1 := by
  delta State.lamGuard
  repeat' first
    | with_reducible assumption
    | intro _
    | with_reducible apply fr_il
    | with_reducible apply fr_lamPriv
    | with_reducible apply fr_ite_fst

theorem fr_ituEmit (cls : ℕ) (typ : ℕ) (part : ℕ) (short : ℕ) (body : List ℕ) (fpi : fp.itu = true) (hfr : Fr fp s0 s1) : Fr fp s0 (State.ituEmit s1 cls typ part short body).1 := by
  delta State.ituEmit
  repeat' first
    | with_reducible assumption
    | intro _
    | with_reducible apply fr_ituOffer
    | split

theorem fr_setClk (sd : Sys2Proof.Side) (c : Clock) (fpi : fp.itu = true) (fpl : fp.lam = true) (hfr : Fr fp s0 s1) : Fr fp s0 (State.setClk s1 sd c) := by
  delta State.setClk
  repeat' first
    | (with_reducible refine fr_mk (by with_reducible assumption) ?_ ?_) <;> first | exact .inl rfl | exact .inr ⟨by assumption, rfl⟩ | exact .inr ⟨by assumption, rfl, rfl, rfl, rfl, rfl, rfl⟩
    | split

theorem fr_ituEmitHeld (fpi : fp.itu = true) (hfr : Fr fp s0 s1) : Fr fp s0 (State.ituEmitHeld s1) := by
  delta State.ituEmitHeld
  repeat' first
    | with_reducible assumption
    | intro _
    | with_reducible apply fr_ituOffer
    | with_reducible apply fr_foldl
    | (with_reducible refine fr_mk (by with_reducible assumption) ?_ ?_) <;> first | exact .inl rfl | exact .inr ⟨by assumption, rfl⟩ | exact .inr ⟨by assumption, rfl, rfl, rfl, rfl, rfl, rfl⟩

theorem fr_ituEmitFenced (cls : ℕ) (typ : ℕ) (part : ℕ) (short : ℕ) (body : List ℕ) (fpi : fp.itu = true) (hfr : Fr fp s0 s1) : Fr fp s0 (State.ituEmitFenced s1 cls typ part short body) := by
  delta State.ituEmitFenced
  repeat' first
    | with_reducible assumption
    | with_reducible apply fr_ituOffer

theorem fr_ituHold (cause : ℕ) (r : Rec) (fpi : fp.itu = true) (hfr : Fr fp s0 s1) : Fr fp s0 (State.ituHold s1 cause r) := by
  delta State.ituHold
  repeat' first
    | (with_reducible refine fr_mk (by with_reducible assumption) ?_ ?_) <;> first | exact .inl rfl | exact .inr ⟨by assumption, rfl⟩ | exact .inr ⟨by assumption, rfl, rfl, rfl, rfl, rfl, rfl⟩

theorem fr_ituEmitDie (cls : ℕ) (typ : ℕ) (cause : ℕ) (short : ℕ) (body : List ℕ) (fpi : fp.itu = true) (hfr : Fr fp s0 s1) : Fr fp s0 (State.ituEmitDie s1 cls typ cause short body) := by
  delta State.ituEmitDie
  repeat' first
    | with_reducible assumption
    | intro _
    | with_reducible apply fr_ituOffer
    | with_reducible apply fr_ituHold
    | split

theorem fr_alarm (sd : Sys2Proof.Side) (typ : ℕ) (cause : ℕ) (w1 : ℕ) (w2 : ℕ) (fpi : fp.itu = true) (fpl : fp.lam = true) (hfr : Fr fp s0 s1) : Fr fp s0 (State.alarm s1 sd typ cause w1 w2) := by
  delta State.alarm
  repeat' first
    | with_reducible assumption
    | with_reducible apply fr_ituEmitDie
    | with_reducible apply fr_lamEmit
    | split

theorem fr_timeAlarm (sd : Sys2Proof.Side) (cause : ℕ) (off : ℤ) (fpi : fp.itu = true) (fpl : fp.lam = true) (hfr : Fr fp s0 s1) : Fr fp s0 (State.timeAlarm s1 sd cause off) := by
  delta State.timeAlarm
  repeat' first
    | with_reducible assumption
    | with_reducible apply fr_alarm

theorem fr_setMains (sd : Sys2Proof.Side) (m : Mains) (fpi : fp.itu = true) (fpl : fp.lam = true) (hfr : Fr fp s0 s1) : Fr fp s0 (State.setMains s1 sd m) := by
  delta State.setMains
  repeat' first
    | (with_reducible refine fr_mk (by with_reducible assumption) ?_ ?_) <;> first | exact .inl rfl | exact .inr ⟨by assumption, rfl⟩ | exact .inr ⟨by assumption, rfl, rfl, rfl, rfl, rfl, rfl⟩
    | split

theorem fr_mainsAlarm (sd : Sys2Proof.Side) (cause : ℕ) (fpi : fp.itu = true) (fpl : fp.lam = true) (hfr : Fr fp s0 s1) : Fr fp s0 (State.mainsAlarm s1 sd cause) := by
  delta State.mainsAlarm
  repeat' first
    | with_reducible assumption
    | with_reducible apply fr_alarm

end Sys2Proof.Machine
end

