-- ==== Sys2Proof/Laws/FrMiss.lean ====
section
/-! SUPPORT. What each operation of Machine/Miss.lean can change, in the form of Laws/Frame.lean. -/

set_option linter.unusedTactic false
set_option linter.unreachableTactic false

namespace Sys2Proof.Machine

variable {fp : Parts} {s0 s1 : State}

theorem fr_miss (x : Src) (reason : ℕ) (lateUs : ℕ) (count : ℕ) (fpl : fp.lam = true) (hfr : Fr fp s0 s1) : Fr fp s0 (State.miss s1 x reason lateUs count) := by
  delta State.miss
  repeat' first
    | with_reducible assumption
    | (intro x; (first | refine fr_cut (fp := fp) (s0 := s0) x ?_ (fun hx => ?_) | refine fr_cut (fp := fp) (s0 := s0) x.1 ?_ (fun hx => ?_) | refine fr_cut (fp := fp) (s0 := s0) x.2 ?_ (fun hx => ?_)); on_goal 1 => dsimp -zeta -zetaHave only [x])
    | intro _
    | lift_lets
    | with_reducible apply fr_il
    | with_reducible apply fr_lamRec
    | (with_reducible refine fr_mk (by with_reducible assumption) ?_ ?_) <;> first | exact .inl rfl | exact .inr ⟨by assumption, rfl⟩ | exact .inr ⟨by assumption, rfl, rfl, rfl, rfl, rfl, rfl⟩
    | split

theorem fr_deadline (e : Env) (r : Rec) (full : ℕ) (fpl : fp.lam = true) (hfr : Fr fp s0 s1) : Fr fp s0 (State.deadline s1 e r full).1 := by
  delta State.deadline
  repeat' first
    | with_reducible assumption
    | intro _
    | with_reducible apply fr_miss
    | with_reducible apply fr_ite_fst

end Sys2Proof.Machine
end

