-- ==== Sys2Proof/Laws/FrCmd.lean ====
section
/-! SUPPORT. What each operation of Machine/Cmd.lean can change, in the form of Laws/Frame.lean. -/

set_option linter.unusedTactic false
set_option linter.unreachableTactic false

namespace Sys2Proof.Machine

variable {fp : Parts} {s0 s1 : State}

theorem fr_dropMerge (h : CmdHdr) (fpl : fp.lam = true) (hfr : Fr fp s0 s1) : Fr fp s0 (State.dropMerge s1 h) := by
  delta State.dropMerge
  repeat' first
    | (with_reducible refine fr_mk (by with_reducible assumption) ?_ ?_) <;> first | exact .inl rfl | exact .inr ⟨by assumption, rfl⟩ | exact .inr ⟨by assumption, rfl, rfl, rfl, rfl, rfl, rfl⟩

theorem fr_replyRoute (h : CmdHdr) (body : List ℕ) (fpl : fp.lam = true) (hfr : Fr fp s0 s1) : Fr fp s0 (State.replyRoute s1 h body) := by
  delta State.replyRoute
  repeat' first
    | with_reducible assumption
    | intro _
    | with_reducible apply fr_lamEmit
    | (with_reducible refine fr_mk (by with_reducible assumption) ?_ ?_) <;> first | exact .inl rfl | exact .inr ⟨by assumption, rfl⟩ | exact .inr ⟨by assumption, rfl, rfl, rfl, rfl, rfl, rfl⟩
    | split

theorem fr_putMerge (m : Merge) (fpl : fp.lam = true) (hfr : Fr fp s0 s1) : Fr fp s0 (State.putMerge s1 m) := by
  delta State.putMerge
  repeat' first
    | with_reducible assumption
    | (intro x; (first | refine fr_cut (fp := fp) (s0 := s0) x ?_ (fun hx => ?_) | refine fr_cut (fp := fp) (s0 := s0) x.1 ?_ (fun hx => ?_) | refine fr_cut (fp := fp) (s0 := s0) x.2 ?_ (fun hx => ?_)); on_goal 1 => dsimp -zeta -zetaHave only [x])
    | intro _
    | lift_lets
    | with_reducible apply fr_dropMerge
    | with_reducible apply fr_replyRoute
    | (with_reducible refine fr_mk (by with_reducible assumption) ?_ ?_) <;> first | exact .inl rfl | exact .inr ⟨by assumption, rfl⟩ | exact .inr ⟨by assumption, rfl, rfl, rfl, rfl, rfl, rfl⟩
    | split

theorem fr_lamReply (h : CmdHdr) (r : CmdRes) (fpl : fp.lam = true) (hfr : Fr fp s0 s1) : Fr fp s0 (State.lamReply s1 h r) := by
  delta State.lamReply
  repeat' first
    | with_reducible assumption
    | intro _
    | lift_lets
    | with_reducible apply fr_il
    | with_reducible apply fr_putMerge
    | with_reducible apply fr_replyRoute
    | with_reducible apply fr_ite
    | split

theorem fr_ituRefused (st : ℕ) (fpi : fp.itu = true) (hfr : Fr fp s0 s1) : Fr fp s0 (State.ituRefused s1 st) := by
  delta State.ituRefused
  repeat' first
    | with_reducible assumption
    | intro _
    | with_reducible apply fr_ii
    | split

theorem fr_ituReply (h : CmdHdr) (r : CmdRes) (fpi : fp.itu = true) (hfr : Fr fp s0 s1) : Fr fp s0 (State.ituReply s1 h r) := by
  delta State.ituReply
  repeat' first
    | with_reducible assumption
    | intro _
    | with_reducible apply fr_ituOffer
    | with_reducible apply fr_ituRefused
    | split

theorem fr_cmdLam (h : CmdHdr) (op : State → State × CmdRes) (fpl : fp.lam = true) (hop : ∀ x0, Fr fp s0 x0 → Fr fp s0 (op x0).1) (hfr : Fr fp s0 s1) : Fr fp s0 (State.cmdLam s1 h op) := by
  delta State.cmdLam
  repeat' first
    | with_reducible assumption
    | with_reducible apply hop
    | with_reducible apply fr_lamReply

theorem fr_cmdItu (h : CmdHdr) (op : State → State × CmdRes) (fpi : fp.itu = true) (hop : ∀ x0, Fr fp s0 x0 → Fr fp s0 (op x0).1) (hfr : Fr fp s0 s1) : Fr fp s0 (State.cmdItu s1 h op) := by
  delta State.cmdItu
  repeat' first
    | with_reducible assumption
    | with_reducible apply hop
    | with_reducible apply fr_ituReply

end Sys2Proof.Machine
end

