-- ==== Sys2Proof/Laws/FrDdr.lean ====
section
/-! SUPPORT. What each operation of Machine/Ddr.lean can change, in the form of Laws/Frame.lean. -/

set_option linter.unusedTactic false
set_option linter.unreachableTactic false

namespace Sys2Proof.Machine

variable {fp : Parts} {s0 s1 : State}

theorem fr_ddrPut (a : Nat) (bs : List Nat) (fpl : fp.lam = true) (fpd : fp.ddr = true) (hfr : Fr fp s0 s1) :
    Fr fp s0 (s1.ddrPut a bs) := by
  unfold State.ddrPut
  refine Fr.lamAll fpl ?_ _ id (.inr ⟨fpd, Memory.wf_write _ _ _⟩) (.inl rfl) id (.inl rfl) List.prefix_rfl
  exact fr_il _ _ _ _ fpl (fr_foldl _ hfr fun _ _ h => fr_il _ _ _ _ fpl h)

end Sys2Proof.Machine
end

