-- ==== Sys2Proof/Laws/FrOwnPkt.lean ====
section
/-! SUPPORT. What each operation of Machine/OwnPkt.lean can change, in the form of Laws/Frame.lean. -/

set_option linter.unusedTactic false
set_option linter.unreachableTactic false

namespace Sys2Proof.Machine

variable {fp : Parts} {s0 s1 : State}

theorem fr_signPkt (p : Pkt) (hfr : Fr fp s0 s1) : Fr fp s0 (State.signPkt s1 p).1 := by
  delta State.signPkt
  repeat' first
    | with_reducible apply fr_free
    | (with_reducible refine fr_mk (by with_reducible assumption) ?_ ?_) <;> first | exact .inl rfl | exact .inr ⟨by assumption, rfl⟩ | exact .inr ⟨by assumption, rfl, rfl, rfl, rfl, rfl, rfl⟩
    | split

theorem fr_ownPkt (op : ℕ) (amode : ℕ) (target : ℕ) (noReply : Bool) (params : List ℕ) (txn : optParam (Option ℕ) none) (fpl : fp.lam = true) (hfr : Fr fp s0 s1) : Fr fp s0 (State.ownPkt s1 op amode target noReply params txn).1 := by
  delta State.ownPkt
  repeat' first
    | with_reducible apply fr_signPkt
    | (with_reducible refine fr_mk (by with_reducible assumption) ?_ ?_) <;> first | exact .inl rfl | exact .inr ⟨by assumption, rfl⟩ | exact .inr ⟨by assumption, rfl, rfl, rfl, rfl, rfl, rfl⟩

theorem fr_cmdDown (d : Dst) (op : ℕ) (amode : ℕ) (target : ℕ) (params : List ℕ) (txn : optParam (Option ℕ) none) (fpl : fp.lam = true) (hfr : Fr fp s0 s1) : Fr fp s0 (State.cmdDown s1 d op amode target params txn) := by
  delta State.cmdDown
  repeat' first
    | with_reducible assumption
    | with_reducible apply fr_ownPkt
    | with_reducible apply fr_send

end Sys2Proof.Machine
end

