-- ==== Sys2Proof/Laws/FrSuspect.lean ====
section
/-! SUPPORT. What each operation of Machine/Suspect.lean can change, in the form of Laws/Frame.lean. -/

set_option linter.unusedTactic false
set_option linter.unreachableTactic false

namespace Sys2Proof.Machine

variable {fp : Parts} {s0 s1 : State}

theorem fr_setPassed (die : ℕ) (l : List ℕ) (fpl : fp.lam = true) (hfr : Fr fp s0 s1) : Fr fp s0 (State.setPassed s1 die l) := by
  delta State.setPassed
  repeat' first
    | (with_reducible refine fr_mk (by with_reducible assumption) ?_ ?_) <;> first | exact .inl rfl | exact .inr ⟨by assumption, rfl⟩ | exact .inr ⟨by assumption, rfl, rfl, rfl, rfl, rfl, rfl⟩

theorem fr_setSusp (die : ℕ) (e : Susp) (fpl : fp.lam = true) (fpd : fp.ddr = true) (hfr : Fr fp s0 s1) : Fr fp s0 (State.setSusp s1 die e) := by
  delta State.setSusp
  repeat' first
    | with_reducible assumption
    | with_reducible apply fr_cmdDown
    | with_reducible apply fr_ddrPut

theorem fr_suspectRec (die : ℕ) (action : ℕ) (cause : ℕ) (e : Susp) (fpl : fp.lam = true) (hfr : Fr fp s0 s1) : Fr fp s0 (State.suspectRec s1 die action cause e) := by
  delta State.suspectRec
  repeat' first
    | with_reducible assumption
    | with_reducible apply fr_lamEmit

theorem fr_clearSuspect (die : ℕ) (cause : ℕ) (fpl : fp.lam = true) (fpd : fp.ddr = true) (hfr : Fr fp s0 s1) : Fr fp s0 (State.clearSuspect s1 die cause) := by
  delta State.clearSuspect
  repeat' first
    | with_reducible assumption
    | with_reducible apply fr_il
    | with_reducible apply fr_setPassed
    | with_reducible apply fr_setSusp
    | with_reducible apply fr_suspectRec

theorem fr_markSuspect (die : ℕ) (cause : ℕ) (tbin : ℕ) (load : ℕ) (fpl : fp.lam = true) (fpd : fp.ddr = true) (hfr : Fr fp s0 s1) : Fr fp s0 (State.markSuspect s1 die cause tbin load) := by
  delta State.markSuspect
  repeat' first
    | with_reducible assumption
    | with_reducible apply fr_il
    | with_reducible apply fr_setPassed
    | with_reducible apply fr_setSusp
    | with_reducible apply fr_suspectRec

theorem fr_verdictMark (r : Rec) (fpl : fp.lam = true) (fpd : fp.ddr = true) (hfr : Fr fp s0 s1) : Fr fp s0 (State.verdictMark s1 r) := by
  delta State.verdictMark
  repeat' first
    | with_reducible assumption
    | intro _
    | with_reducible apply fr_markSuspect
    | with_reducible apply fr_ite

theorem fr_opSuspectSet (die : ℕ) (tbin : ℕ) (load : ℕ) (fpl : fp.lam = true) (fpd : fp.ddr = true) (hfr : Fr fp s0 s1) : Fr fp s0 (State.opSuspectSet s1 die tbin load).1 := by
  delta State.opSuspectSet
  repeat' first
    | with_reducible assumption
    | intro _
    | with_reducible apply fr_markSuspect
    | split

theorem fr_execSuspectSet (h : CmdHdr) (tbin : ℕ) (load : ℕ) (fpl : fp.lam = true) (fpd : fp.ddr = true) (hfr : Fr fp s0 s1) : FrO fp s0 (execSuspectSet h tbin load s1) := by
  delta execSuspectSet
  repeat' first
    | with_reducible assumption
    | intro _
    | with_reducible apply FrO.next
    | with_reducible apply fr_opSuspectSet
    | with_reducible apply fr_cmdLam

theorem fr_opSuspectClear (die : ℕ) (fpl : fp.lam = true) (fpd : fp.ddr = true) (hfr : Fr fp s0 s1) : Fr fp s0 (State.opSuspectClear s1 die).1 := by
  delta State.opSuspectClear
  repeat' first
    | with_reducible assumption
    | intro _
    | with_reducible apply fr_clearSuspect
    | split

theorem fr_execSuspectClear (h : CmdHdr) (fpl : fp.lam = true) (fpd : fp.ddr = true) (hfr : Fr fp s0 s1) : FrO fp s0 (execSuspectClear h s1) := by
  delta execSuspectClear
  repeat' first
    | with_reducible assumption
    | intro _
    | with_reducible apply FrO.next
    | with_reducible apply fr_cmdLam
    | with_reducible apply fr_opSuspectClear

end Sys2Proof.Machine
end

