-- ==== Sys2Proof/Laws/FrDigestL.lean ====
section
/-! SUPPORT. What each operation of Machine/DigestL.lean can change, in the form of Laws/Frame.lean. -/

set_option linter.unusedTactic false
set_option linter.unreachableTactic false

namespace Sys2Proof.Machine

variable {fp : Parts} {s0 s1 : State}

theorem fr_putDig (c : DigCell) (fpl : fp.lam = true) (hfr : Fr fp s0 s1) : Fr fp s0 (State.putDig s1 c) := by
  delta State.putDig
  repeat' first
    | (with_reducible refine fr_mk (by with_reducible assumption) ?_ ?_) <;> first | exact .inl rfl | exact .inr ⟨by assumption, rfl⟩ | exact .inr ⟨by assumption, rfl, rfl, rfl, rfl, rfl, rfl⟩

theorem fr_digInput (c : DigCell) (src : Src) (recT : ℕ) (fpl : fp.lam = true) (hfr : Fr fp s0 s1) : Fr fp s0 (State.digInput s1 c src recT).1 := by
  delta State.digInput
  repeat' first
    | with_reducible assumption
    | intro _
    | lift_lets
    | with_reducible apply fr_il
    | with_reducible apply fr_miss
    | with_reducible apply fr_wl
    | with_reducible apply fr_putDig
    | (with_reducible refine fr_mk (by with_reducible assumption) ?_ ?_) <;> first | exact .inl rfl | exact .inr ⟨by assumption, rfl⟩ | exact .inr ⟨by assumption, rfl, rfl, rfl, rfl, rfl, rfl⟩
    | split

theorem fr_digShard (q : ℕ) (r : Rec) (full : ℕ) (entry : ℕ) (epoch : ℕ) (env : Env) (fpl : fp.lam = true) (hfr : Fr fp s0 s1) : Fr fp s0 (State.digShard s1 q r full entry epoch env) := by
  delta State.digShard
  repeat' first
    | with_reducible assumption
    | intro _
    | with_reducible apply fr_il
    | with_reducible apply fr_digInput
    | with_reducible apply fr_recCopy
    | with_reducible apply fr_send
    | with_reducible apply fr_ite

theorem fr_digKeep (e : Env) (r : Rec) (fpl : fp.lam = true) (hfr : Fr fp s0 s1) : Fr fp s0 (State.digKeep s1 e r) := by
  delta State.digKeep
  repeat' first
    | intro _
    | (with_reducible refine fr_mk (by with_reducible assumption) ?_ ?_) <;> first | exact .inl rfl | exact .inr ⟨by assumption, rfl⟩ | exact .inr ⟨by assumption, rfl, rfl, rfl, rfl, rfl, rfl⟩
    | split

theorem fr_digPartialRx (e : Env) (r : Rec) (fpl : fp.lam = true) (hfr : Fr fp s0 s1) : Fr fp s0 (State.digPartialRx s1 e r) := by
  delta State.digPartialRx
  repeat' first
    | with_reducible assumption
    | intro _
    | with_reducible apply fr_digInput
    | split

theorem fr_digKeys (old : Regs) (c : ℕ) (fpl : fp.lam = true) (hfr : Fr fp s0 s1) : Fr fp s0 (State.digKeys s1 old c) := by
  delta State.digKeys
  repeat' first
    | with_reducible assumption
    | intro _
    | with_reducible apply fr_wl
    | with_reducible apply fr_ite
    | (with_reducible refine fr_mk (by with_reducible assumption) ?_ ?_) <;> first | exact .inl rfl | exact .inr ⟨by assumption, rfl⟩ | exact .inr ⟨by assumption, rfl, rfl, rfl, rfl, rfl, rfl⟩

theorem fr_digLocated (cohort : ℕ) (step : ℕ) (p : HeldShard × HeldShard) (fpl : fp.lam = true) (fpd : fp.ddr = true) (hfr : Fr fp s0 s1) : Fr fp s0 (State.digLocated s1 cohort step p) := by
  delta State.digLocated
  repeat' first
    | with_reducible assumption
    | with_reducible apply fr_il
    | with_reducible apply fr_markSuspect
    | with_reducible apply fr_lamEmit

theorem fr_digPartial (c : DigCell) (fpl : fp.lam = true) (hfr : Fr fp s0 s1) : Fr fp s0 (State.digPartial s1 c) := by
  delta State.digPartial
  repeat' first
    | with_reducible assumption
    | with_reducible apply fr_lamRec

theorem fr_dropDig (k : DigKey) (fpl : fp.lam = true) (hfr : Fr fp s0 s1) : Fr fp s0 (State.dropDig s1 k) := by
  delta State.dropDig
  repeat' first
    | (with_reducible refine fr_mk (by with_reducible assumption) ?_ ?_) <;> first | exact .inl rfl | exact .inr ⟨by assumption, rfl⟩ | exact .inr ⟨by assumption, rfl, rfl, rfl, rfl, rfl, rfl⟩

theorem fr_execDigPartialArrival (e : Env) (r : Rec) (fpl : fp.lam = true) (hfr : Fr fp s0 s1) : FrO fp s0 (execDigPartialArrival e r s1) := by
  delta execDigPartialArrival
  repeat' first
    | with_reducible assumption
    | intro _
    | with_reducible apply FrO.next
    | with_reducible apply fr_digPartialRx
    | split

theorem fr_execDigestCompare (cohort : ℕ) (step : ℕ) (lo : ℕ) (hi : ℕ) (fpl : fp.lam = true) (fpd : fp.ddr = true) (hfr : Fr fp s0 s1) : FrO fp s0 (execDigestCompare cohort step lo hi s1) := by
  delta execDigestCompare
  repeat' first
    | with_reducible assumption
    | (intro y; (first | have z : Option _ := y | have z : List _ := y); clear z; clear_value y)
    | intro _
    | lift_lets
    | with_reducible apply FrO.next
    | with_reducible apply fr_digLocated
    | with_reducible apply fr_il
    | with_reducible apply fr_lamEmit
    | with_reducible apply fr_wl
    | with_reducible apply fr_ite
    | with_reducible apply fr_foldl
    | (with_reducible refine fr_mk (by with_reducible assumption) ?_ ?_) <;> first | exact .inl rfl | exact .inr ⟨by assumption, rfl⟩ | exact .inr ⟨by assumption, rfl, rfl, rfl, rfl, rfl, rfl⟩
    | split

theorem fr_execDigestCellClose (cohort : ℕ) (replica : ℕ) (step : ℕ) (lo : ℕ) (hi : ℕ) (fpl : fp.lam = true) (hfr : Fr fp s0 s1) : FrO fp s0 (execDigestCellClose cohort replica step lo hi s1) := by
  delta execDigestCellClose
  repeat' first
    | with_reducible assumption
    | intro _
    | with_reducible apply FrO.next
    | with_reducible apply fr_putDig
    | with_reducible apply fr_digPartial
    | split

end Sys2Proof.Machine
end

