-- ==== Sys2Proof/Laws/FrGntEnd.lean ====
section
/-! SUPPORT. What each operation of Machine/GntEnd.lean can change, in the form of Laws/Frame.lean. -/

set_option linter.unusedTactic false
set_option linter.unreachableTactic false

namespace Sys2Proof.Machine

variable {fp : Parts} {s0 s1 : State}

theorem fr_setGnt (g : Gnt) (fpi : fp.itu = true) (hfr : Fr fp s0 s1) : Fr fp s0 (State.setGnt s1 g) := by
  delta State.setGnt
  repeat' first
    | (with_reducible refine fr_mk (by with_reducible assumption) ?_ ?_) <;> first | exact .inl rfl | exact .inr ⟨by assumption, rfl⟩ | exact .inr ⟨by assumption, rfl, rfl, rfl, rfl, rfl, rfl⟩

theorem fr_gntState (st : ℕ) (fpi : fp.itu = true) (hfr : Fr fp s0 s1) : Fr fp s0 (State.gntState s1 st) := by
  delta State.gntState
  repeat' first
    | with_reducible assumption
    | with_reducible apply fr_setGnt
    | with_reducible apply fr_wi

theorem fr_gntIdle (fpi : fp.itu = true) (hfr : Fr fp s0 s1) : Fr fp s0 (State.gntIdle s1) := by
  delta State.gntIdle
  repeat' first
    | with_reducible assumption
    | with_reducible apply fr_setGnt
    | with_reducible apply fr_gntState
    | with_reducible apply fr_wi

theorem fr_gntRan (fpi : fp.itu = true) (hfr : Fr fp s0 s1) : Fr fp s0 (State.gntRan s1) := by
  delta State.gntRan
  repeat' first
    | with_reducible assumption
    | with_reducible apply fr_setGnt

theorem fr_gntEmit (r : Rec) (hold : Bool) (fpi : fp.itu = true) (hfr : Fr fp s0 s1) : Fr fp s0 (State.gntEmit s1 r hold) := by
  delta State.gntEmit
  repeat' first
    | with_reducible assumption
    | intro _
    | with_reducible apply fr_ituOffer
    | with_reducible apply fr_gntIdle
    | with_reducible apply fr_setGnt
    | with_reducible apply fr_gntState
    | with_reducible apply fr_wi
    | split

theorem fr_canaryEnd (result : ℕ) (hold : Bool) (fpi : fp.itu = true) (hfr : Fr fp s0 s1) : Fr fp s0 (State.canaryEnd s1 result hold) := by
  delta State.canaryEnd
  repeat' first
    | with_reducible assumption
    | (intro x; (first | refine fr_cut (fp := fp) (s0 := s0) x ?_ (fun hx => ?_) | refine fr_cut (fp := fp) (s0 := s0) x.1 ?_ (fun hx => ?_) | refine fr_cut (fp := fp) (s0 := s0) x.2 ?_ (fun hx => ?_)); on_goal 1 => dsimp -zeta -zetaHave only [x])
    | intro _
    | lift_lets
    | with_reducible apply fr_gntEmit
    | with_reducible apply fr_wi
    | with_reducible apply fr_ii
    | (with_reducible refine fr_mk (by with_reducible assumption) ?_ ?_) <;> first | exact .inl rfl | exact .inr ⟨by assumption, rfl⟩ | exact .inr ⟨by assumption, rfl, rfl, rfl, rfl, rfl, rfl⟩
    | split

theorem fr_gntWaited (fpi : fp.itu = true) (hfr : Fr fp s0 s1) : Fr fp s0 (State.gntWaited s1) := by
  delta State.gntWaited
  repeat' first
    | with_reducible assumption
    | with_reducible apply fr_setGnt

theorem fr_sliceEnd (result : ℕ) (cause : ℕ) (hold : Bool) (fpi : fp.itu = true) (hfr : Fr fp s0 s1) : Fr fp s0 (State.sliceEnd s1 result cause hold) := by
  delta State.sliceEnd
  repeat' first
    | with_reducible assumption
    | (intro x; (first | refine fr_cut (fp := fp) (s0 := s0) x ?_ (fun hx => ?_) | refine fr_cut (fp := fp) (s0 := s0) x.1 ?_ (fun hx => ?_) | refine fr_cut (fp := fp) (s0 := s0) x.2 ?_ (fun hx => ?_)); on_goal 1 => dsimp -zeta -zetaHave only [x])
    | intro _
    | lift_lets
    | with_reducible apply fr_gntEmit
    | with_reducible apply fr_free
    | with_reducible apply fr_ii
    | (with_reducible refine fr_mk (by with_reducible assumption) ?_ ?_) <;> first | exact .inl rfl | exact .inr ⟨by assumption, rfl⟩ | exact .inr ⟨by assumption, rfl, rfl, rfl, rfl, rfl, rfl⟩
    | split

theorem fr_gntPowerLost (fpi : fp.itu = true) (hfr : Fr fp s0 s1) : Fr fp s0 (State.gntPowerLost s1) := by
  delta State.gntPowerLost
  repeat' first
    | with_reducible assumption
    | intro _
    | with_reducible apply fr_gntWaited
    | with_reducible apply fr_sliceEnd
    | split

end Sys2Proof.Machine
end

