-- ==== Sys2Proof/Laws/FrFreeze.lean ====
section
/-! SUPPORT. What each operation of Machine/Freeze.lean can change, in the form of Laws/Frame.lean. -/

set_option linter.unusedTactic false
set_option linter.unreachableTactic false

namespace Sys2Proof.Machine

variable {fp : Parts} {s0 s1 : State}

theorem fr_hangVoid (fpi : fp.itu = true) (hfr : Fr fp s0 s1) : Fr fp s0 (State.hangVoid s1) := by
  delta State.hangVoid
  repeat' first
    | (with_reducible refine fr_mk (by with_reducible assumption) ?_ ?_) <;> first | exact .inl rfl | exact .inr ⟨by assumption, rfl⟩ | exact .inr ⟨by assumption, rfl, rfl, rfl, rfl, rfl, rfl⟩

theorem fr_setPwr (p : Pwr) (fpi : fp.itu = true) (hfr : Fr fp s0 s1) : Fr fp s0 (State.setPwr s1 p) := by
  delta State.setPwr
  repeat' first
    | (with_reducible refine fr_mk (by with_reducible assumption) ?_ ?_) <;> first | exact .inl rfl | exact .inr ⟨by assumption, rfl⟩ | exact .inr ⟨by assumption, rfl, rfl, rfl, rfl, rfl, rfl⟩

theorem fr_forfeit (n : ℕ) (fpi : fp.itu = true) (hfr : Fr fp s0 s1) : Fr fp s0 (State.forfeit s1 n) := by
  delta State.forfeit
  repeat' first
    | with_reducible assumption
    | with_reducible apply fr_setPwr
    | with_reducible apply fr_ii

theorem fr_ldgState (fpi : fp.itu = true) (hfr : Fr fp s0 s1) : Fr fp s0 (State.ldgState s1) := by
  delta State.ldgState
  repeat' first
    | with_reducible assumption
    | with_reducible apply fr_wi

theorem fr_ldgAlarm (cause : ℕ) (fpi : fp.itu = true) (hfr : Fr fp s0 s1) : Fr fp s0 (State.ldgAlarm s1 cause) := by
  delta State.ldgAlarm
  repeat' first
    | with_reducible assumption
    | with_reducible apply fr_ituEmitDie

theorem fr_refreeze (byGrant : Bool) (fpi : fp.itu = true) (hfr : Fr fp s0 s1) : Fr fp s0 (State.refreeze s1 byGrant) := by
  delta State.refreeze
  repeat' first
    | with_reducible assumption
    | intro _
    | with_reducible apply fr_gntPowerLost
    | with_reducible apply fr_forfeit
    | with_reducible apply fr_ldgState
    | with_reducible apply fr_ldgAlarm
    | with_reducible apply fr_wi
    | with_reducible apply fr_ite

theorem fr_after (sd : Sys2Proof.Side) (fpi : fp.itu = true) (hfr : Fr fp s0 s1) : Fr fp s0 (State.after s1 sd) := by
  delta State.after
  repeat' first
    | with_reducible assumption
    | intro _
    | with_reducible apply fr_hangVoid
    | with_reducible apply fr_refreeze
    | split

end Sys2Proof.Machine
end

