-- ==== Sys2Proof/Laws/FrClock.lean ====
section
/-! SUPPORT. What each operation of Machine/Clock.lean can change, in the form of Laws/Frame.lean. -/

set_option linter.unusedTactic false
set_option linter.unreachableTactic false

namespace Sys2Proof.Machine

variable {fp : Parts} {s0 s1 : State}

theorem fr_guard (sd : Sys2Proof.Side) (iss : Issuer) (a : ℕ) (write : Bool) (fauth : ℕ) (fpi : fp.itu = true) (fpl : fp.lam = true) (hfr : Fr fp s0 s1) : Fr fp s0 (State.guard s1 sd iss a write fauth).1 := by
  delta State.guard
  repeat' first
    | with_reducible assumption
    | with_reducible apply fr_ituGuard
    | with_reducible apply fr_lamGuard
    | split

theorem fr_dropHold (path : Path) (addr : ℕ) (hfr : Fr fp s0 s1) : Fr fp s0 (State.dropHold s1 path addr) := by
  delta State.dropHold
  repeat' first
    | (with_reducible refine fr_mk (by with_reducible assumption) ?_ ?_) <;> first | exact .inl rfl | exact .inr ⟨by assumption, rfl⟩ | exact .inr ⟨by assumption, rfl, rfl, rfl, rfl, rfl, rfl⟩

theorem fr_writeIncr (sd : Sys2Proof.Side) (hi : ℕ) (lo : ℕ) (fpi : fp.itu = true) (fpl : fp.lam = true) (hfr : Fr fp s0 s1) : Fr fp s0 (State.writeIncr s1 sd hi lo) := by
  delta State.writeIncr
  repeat' first
    | with_reducible assumption
    | intro _
    | with_reducible apply fr_setClk
    | with_reducible apply fr_ite

theorem fr_setClkState (sd : Sys2Proof.Side) (v : ℕ) (fpi : fp.itu = true) (fpl : fp.lam = true) (hfr : Fr fp s0 s1) : Fr fp s0 (State.setClkState s1 sd v) := by
  delta State.setClkState
  repeat' first
    | with_reducible assumption
    | with_reducible apply fr_wi
    | with_reducible apply fr_wl
    | split

theorem fr_enterHoldover (sd : Sys2Proof.Side) (fpi : fp.itu = true) (fpl : fp.lam = true) (hfr : Fr fp s0 s1) : Fr fp s0 (State.enterHoldover s1 sd) := by
  delta State.enterHoldover
  repeat' first
    | with_reducible assumption
    | with_reducible apply fr_setClk
    | with_reducible apply fr_setClkState

theorem fr_sourceLost (sd : Sys2Proof.Side) (fpi : fp.itu = true) (fpl : fp.lam = true) (hfr : Fr fp s0 s1) : Fr fp s0 (State.sourceLost s1 sd) := by
  delta State.sourceLost
  repeat' first
    | with_reducible assumption
    | (intro x; (first | refine fr_cut (fp := fp) (s0 := s0) x ?_ (fun hx => ?_) | refine fr_cut (fp := fp) (s0 := s0) x.1 ?_ (fun hx => ?_) | refine fr_cut (fp := fp) (s0 := s0) x.2 ?_ (fun hx => ?_)); on_goal 1 => dsimp -zeta -zetaHave only [x])
    | intro _
    | with_reducible apply fr_setClk
    | with_reducible apply fr_timeAlarm
    | with_reducible apply fr_setClkState
    | with_reducible apply fr_enterHoldover
    | with_reducible apply fr_wl
    | with_reducible apply fr_ite
    | split

theorem fr_setStepUsed (sd : Sys2Proof.Side) (v : ℕ) (fpi : fp.itu = true) (fpl : fp.lam = true) (hfr : Fr fp s0 s1) : Fr fp s0 (State.setStepUsed s1 sd v) := by
  delta State.setStepUsed
  repeat' first
    | with_reducible assumption
    | with_reducible apply fr_wi
    | with_reducible apply fr_wl
    | split

theorem fr_rearm (sd : Sys2Proof.Side) (fpi : fp.itu = true) (fpl : fp.lam = true) (hfr : Fr fp s0 s1) : Fr fp s0 (State.rearm s1 sd) := by
  delta State.rearm
  repeat' first
    | with_reducible assumption
    | intro _
    | with_reducible apply fr_setClk
    | with_reducible apply fr_setClkState
    | with_reducible apply fr_setStepUsed
    | with_reducible apply fr_ite

theorem fr_setServo (sd : Sys2Proof.Side) (v : Bool) (fpi : fp.itu = true) (fpl : fp.lam = true) (hfr : Fr fp s0 s1) : Fr fp s0 (State.setServo s1 sd v) := by
  delta State.setServo
  repeat' first
    | with_reducible assumption
    | (intro x; (first | refine fr_cut (fp := fp) (s0 := s0) x ?_ (fun hx => ?_) | refine fr_cut (fp := fp) (s0 := s0) x.1 ?_ (fun hx => ?_) | refine fr_cut (fp := fp) (s0 := s0) x.2 ?_ (fun hx => ?_)); on_goal 1 => dsimp -zeta -zetaHave only [x])
    | intro _
    | with_reducible apply fr_setClk
    | with_reducible apply fr_setClkState
    | with_reducible apply fr_wi
    | with_reducible apply fr_wl
    | with_reducible apply fr_ite
    | split

theorem fr_clockStepped (sd : Sys2Proof.Side) (fpi : fp.itu = true) (fpl : fp.lam = true) (hfr : Fr fp s0 s1) : Fr fp s0 (State.clockStepped s1 sd) := by
  delta State.clockStepped
  repeat' first
    | (with_reducible refine fr_mk (by with_reducible assumption) ?_ ?_) <;> first | exact .inl rfl | exact .inr ⟨by assumption, rfl⟩ | exact .inr ⟨by assumption, rfl, rfl, rfl, rfl, rfl, rfl⟩
    | split

theorem fr_jumpRefused (sd : Sys2Proof.Side) (off : ℤ) (fpi : fp.itu = true) (fpl : fp.lam = true) (hfr : Fr fp s0 s1) : Fr fp s0 (State.jumpRefused s1 sd off) := by
  delta State.jumpRefused
  repeat' first
    | with_reducible assumption
    | (intro x; (first | refine fr_cut (fp := fp) (s0 := s0) x ?_ (fun hx => ?_) | refine fr_cut (fp := fp) (s0 := s0) x.1 ?_ (fun hx => ?_) | refine fr_cut (fp := fp) (s0 := s0) x.2 ?_ (fun hx => ?_)); on_goal 1 => dsimp -zeta -zetaHave only [x])
    | with_reducible apply fr_timeAlarm
    | with_reducible apply fr_il
    | with_reducible apply fr_wi
    | with_reducible apply fr_enterHoldover
    | with_reducible apply fr_wl
    | split

theorem fr_selectSource (sd : Sys2Proof.Side) (src : ℕ) (fpi : fp.itu = true) (fpl : fp.lam = true) (hfr : Fr fp s0 s1) : Fr fp s0 (State.selectSource s1 sd src) := by
  delta State.selectSource
  repeat' first
    | with_reducible assumption
    | (intro x; (first | refine fr_cut (fp := fp) (s0 := s0) x ?_ (fun hx => ?_) | refine fr_cut (fp := fp) (s0 := s0) x.1 ?_ (fun hx => ?_) | refine fr_cut (fp := fp) (s0 := s0) x.2 ?_ (fun hx => ?_)); on_goal 1 => dsimp -zeta -zetaHave only [x])
    | intro _
    | with_reducible apply fr_setClk
    | with_reducible apply fr_setClkState
    | with_reducible apply fr_wl
    | with_reducible apply fr_ite
    | split

theorem fr_setDegraded (sd : Sys2Proof.Side) (v : ℕ) (fpi : fp.itu = true) (fpl : fp.lam = true) (hfr : Fr fp s0 s1) : Fr fp s0 (State.setDegraded s1 sd v) := by
  delta State.setDegraded
  repeat' first
    | with_reducible assumption
    | with_reducible apply fr_wi
    | with_reducible apply fr_wl
    | split

theorem fr_servoRate (sd : Sys2Proof.Side) (m : Meas) (kp : ℕ) (ki : ℕ) (fpi : fp.itu = true) (fpl : fp.lam = true) (hfr : Fr fp s0 s1) : Fr fp s0 (State.servoRate s1 sd m kp ki) := by
  delta State.servoRate
  repeat' first
    | with_reducible assumption
    | intro _
    | with_reducible apply fr_setClk
    | with_reducible apply fr_setClkState
    | with_reducible apply fr_setDegraded
    | with_reducible apply fr_free
    | with_reducible apply fr_ite

theorem fr_servo (sd : Sys2Proof.Side) (m : Meas) (fpi : fp.itu = true) (fpl : fp.lam = true) (hfr : Fr fp s0 s1) : Fr fp s0 (State.servo s1 sd m) := by
  delta State.servo
  repeat' first
    | with_reducible assumption
    | (intro x; (first | refine fr_cut (fp := fp) (s0 := s0) x ?_ (fun hx => ?_) | refine fr_cut (fp := fp) (s0 := s0) x.1 ?_ (fun hx => ?_) | refine fr_cut (fp := fp) (s0 := s0) x.2 ?_ (fun hx => ?_)); on_goal 1 => dsimp -zeta -zetaHave only [x])
    | intro _
    | with_reducible apply fr_servoRate
    | with_reducible apply fr_setClk
    | with_reducible apply fr_clockStepped
    | with_reducible apply fr_jumpRefused
    | with_reducible apply fr_setStepUsed
    | with_reducible apply fr_wi
    | with_reducible apply fr_wl
    | with_reducible apply fr_ite
    | split

theorem fr_measure (sd : Sys2Proof.Side) (src : ℕ) (m : Meas) (fpi : fp.itu = true) (fpl : fp.lam = true) (hfr : Fr fp s0 s1) : Fr fp s0 (State.measure s1 sd src m) := by
  delta State.measure
  repeat' first
    | with_reducible assumption
    | intro _
    | with_reducible apply fr_selectSource
    | with_reducible apply fr_servo
    | with_reducible apply fr_ite

theorem fr_msCounters (fpl : fp.lam = true) (hfr : Fr fp s0 s1) : Fr fp s0 (State.msCounters s1) := by
  delta State.msCounters
  repeat' first
    | with_reducible assumption
    | (intro x; (first | refine fr_cut (fp := fp) (s0 := s0) x ?_ (fun hx => ?_) | refine fr_cut (fp := fp) (s0 := s0) x.1 ?_ (fun hx => ?_) | refine fr_cut (fp := fp) (s0 := s0) x.2 ?_ (fun hx => ?_)); on_goal 1 => dsimp -zeta -zetaHave only [x])
    | (intro y; (first | have z : Option _ := y | have z : List _ := y); clear z; clear_value y)
    | intro _
    | with_reducible apply fr_wl
    | with_reducible apply fr_foldl
    | split

theorem fr_setPtp (p : ℕ) (v : PtpPort) (fpl : fp.lam = true) (hfr : Fr fp s0 s1) : Fr fp s0 (State.setPtp s1 p v) := by
  delta State.setPtp
  repeat' first
    | (with_reducible refine fr_mk (by with_reducible assumption) ?_ ?_) <;> first | exact .inl rfl | exact .inr ⟨by assumption, rfl⟩ | exact .inr ⟨by assumption, rfl, rfl, rfl, rfl, rfl, rfl⟩

theorem fr_ptpMaster (p : ℕ) (m : PtpMsg) (fpl : fp.lam = true) (hfr : Fr fp s0 s1) : Fr fp s0 (State.ptpMaster s1 p m) := by
  delta State.ptpMaster
  repeat' first
    | with_reducible assumption
    | with_reducible apply fr_setPtp
    | split

theorem fr_ptpMeasure (p : ℕ) (fpi : fp.itu = true) (fpl : fp.lam = true) (hfr : Fr fp s0 s1) : Fr fp s0 (State.ptpMeasure s1 p) := by
  delta State.ptpMeasure
  repeat' first
    | with_reducible assumption
    | intro _
    | lift_lets
    | with_reducible apply fr_measure
    | with_reducible apply fr_setPtp
    | with_reducible apply fr_wl
    | split

theorem fr_ptpSlave (p : ℕ) (m : PtpMsg) (fpi : fp.itu = true) (fpl : fp.lam = true) (hfr : Fr fp s0 s1) : Fr fp s0 (State.ptpSlave s1 p m) := by
  delta State.ptpSlave
  repeat' first
    | with_reducible assumption
    | intro _
    | lift_lets
    | with_reducible apply fr_ptpMeasure
    | with_reducible apply fr_setPtp
    | split

theorem fr_settlingBit (fpl : fp.lam = true) (hfr : Fr fp s0 s1) : Fr fp s0 (State.settlingBit s1) := by
  delta State.settlingBit
  repeat' first
    | with_reducible assumption
    | with_reducible apply fr_wl

theorem fr_tcForward (p : ℕ) (m : PtpMsg) (fpl : fp.lam = true) (hfr : Fr fp s0 s1) : Fr fp s0 (State.tcForward s1 p m) := by
  delta State.tcForward
  repeat' first
    | with_reducible assumption
    | intro _
    | with_reducible apply fr_il
    | with_reducible apply fr_setPtp
    | with_reducible apply fr_ite

theorem fr_execPtpSyncTx (port : ℕ) (t : ℕ) (f : ℕ) (fpl : fp.lam = true) (hfr : Fr fp s0 s1) : FrO fp s0 (execPtpSyncTx port t f s1) := by
  delta execPtpSyncTx
  repeat' first
    | with_reducible assumption
    | intro _
    | with_reducible apply FrO.next
    | with_reducible apply fr_setPtp
    | with_reducible apply frO_ite

theorem fr_execTimeClockTick (sd : Sys2Proof.Side) (n : ℕ) (fpi : fp.itu = true) (fpl : fp.lam = true) (hfr : Fr fp s0 s1) : FrO fp s0 (execTimeClockTick sd n s1) := by
  delta execTimeClockTick
  repeat' first
    | with_reducible assumption
    | with_reducible apply FrO.next
    | with_reducible apply fr_setClk
    | with_reducible apply fr_msCounters
    | split

theorem fr_execSourceLost (sd : Sys2Proof.Side) (fpi : fp.itu = true) (fpl : fp.lam = true) (hfr : Fr fp s0 s1) : FrO fp s0 (execSourceLost sd s1) := by
  delta execSourceLost
  repeat' first
    | with_reducible assumption
    | with_reducible apply FrO.next
    | with_reducible apply fr_sourceLost
    | with_reducible apply fr_after
    | with_reducible apply fr_ite

theorem fr_execHoldoverDegraded (sd : Sys2Proof.Side) (fpi : fp.itu = true) (fpl : fp.lam = true) (hfr : Fr fp s0 s1) : FrO fp s0 (execHoldoverDegraded sd s1) := by
  delta execHoldoverDegraded
  repeat' first
    | with_reducible assumption
    | intro _
    | with_reducible apply FrO.next
    | with_reducible apply fr_timeAlarm
    | with_reducible apply fr_setDegraded
    | with_reducible apply fr_after
    | split

theorem fr_execPtpDelayReqTx (port : ℕ) (t : ℕ) (f : ℕ) (fpl : fp.lam = true) (hfr : Fr fp s0 s1) : FrO fp s0 (execPtpDelayReqTx port t f s1) := by
  delta execPtpDelayReqTx
  repeat' first
    | with_reducible assumption
    | intro _
    | with_reducible apply FrO.next
    | with_reducible apply fr_setPtp
    | with_reducible apply frO_ite

theorem fr_execTimeCtlEnableWrite (sd : Sys2Proof.Side) (iss : Issuer) (v : Bool) (fpi : fp.itu = true) (fpl : fp.lam = true) (hfr : Fr fp s0 s1) : FrO fp s0 (execTimeCtlEnableWrite sd iss v s1) := by
  delta execTimeCtlEnableWrite
  repeat' first
    | with_reducible assumption
    | intro _
    | with_reducible apply FrO.next
    | with_reducible apply fr_setServo
    | with_reducible apply fr_guard
    | with_reducible apply fr_after
    | with_reducible apply frO_ite

theorem fr_execPtpMessageRx (port : ℕ) (m : PtpMsg) (fpi : fp.itu = true) (fpl : fp.lam = true) (hfr : Fr fp s0 s1) : FrO fp s0 (execPtpMessageRx port m s1) := by
  delta execPtpMessageRx
  repeat' first
    | with_reducible assumption
    | intro _
    | with_reducible apply FrO.next
    | with_reducible apply fr_il
    | with_reducible apply fr_ptpMaster
    | with_reducible apply fr_setPtp
    | with_reducible apply fr_tcForward
    | with_reducible apply fr_ptpSlave
    | with_reducible apply frO_ite
    | split

theorem fr_execPortSettleEnd (port : ℕ) (fpl : fp.lam = true) (hfr : Fr fp s0 s1) : FrO fp s0 (execPortSettleEnd port s1) := by
  delta execPortSettleEnd
  repeat' first
    | with_reducible assumption
    | intro _
    | with_reducible apply FrO.next
    | with_reducible apply fr_settlingBit
    | with_reducible apply fr_setPtp
    | split

theorem fr_execTimeCtlRearm (sd : Sys2Proof.Side) (iss : Issuer) (fpi : fp.itu = true) (fpl : fp.lam = true) (hfr : Fr fp s0 s1) : FrO fp s0 (execTimeCtlRearm sd iss s1) := by
  delta execTimeCtlRearm
  repeat' first
    | with_reducible assumption
    | intro _
    | with_reducible apply FrO.next
    | with_reducible apply fr_guard
    | with_reducible apply fr_rearm
    | with_reducible apply fr_after
    | with_reducible apply frO_ite

theorem fr_execTimeIncrHiWrite (sd : Sys2Proof.Side) (iss : Issuer) (data : ℕ) (fpi : fp.itu = true) (fpl : fp.lam = true) (hfr : Fr fp s0 s1) : FrO fp s0 (execTimeIncrHiWrite sd iss data s1) := by
  delta execTimeIncrHiWrite
  repeat' first
    | with_reducible assumption
    | intro _
    | with_reducible apply FrO.next
    | with_reducible apply fr_dropHold
    | with_reducible apply fr_writeIncr
    | with_reducible apply fr_guard
    | with_reducible apply frO_ite

end Sys2Proof.Machine
end

