-- ==== Sys2Proof/Laws/FrMains.lean ====
section
/-! SUPPORT. What each operation of Machine/Mains.lean can change, in the form of Laws/Frame.lean. -/

set_option linter.unusedTactic false
set_option linter.unreachableTactic false

namespace Sys2Proof.Machine

variable {fp : Parts} {s0 s1 : State}

theorem fr_setPort (q : ℕ) (p : IklPort) (fpl : fp.lam = true) (hfr : Fr fp s0 s1) : Fr fp s0 (State.setPort s1 q p) := by
  delta State.setPort
  repeat' first
    | (with_reducible refine fr_mk (by with_reducible assumption) ?_ ?_) <;> first | exact .inl rfl | exact .inr ⟨by assumption, rfl⟩ | exact .inr ⟨by assumption, rfl, rfl, rfl, rfl, rfl, rfl⟩

theorem fr_setMainsEnable (v : Bool) (fpi : fp.itu = true) (fpl : fp.lam = true) (hfr : Fr fp s0 s1) : Fr fp s0 (State.setMainsEnable s1 v) := by
  delta State.setMainsEnable
  repeat' first
    | with_reducible assumption
    | (intro x; (first | refine fr_cut (fp := fp) (s0 := s0) x ?_ (fun hx => ?_) | refine fr_cut (fp := fp) (s0 := s0) x.1 ?_ (fun hx => ?_) | refine fr_cut (fp := fp) (s0 := s0) x.2 ?_ (fun hx => ?_)); on_goal 1 => dsimp -zeta -zetaHave only [x])
    | intro _
    | lift_lets
    | with_reducible apply fr_setMains
    | with_reducible apply fr_wl
    | (with_reducible refine fr_mk (by with_reducible assumption) ?_ ?_) <;> first | exact .inl rfl | exact .inr ⟨by assumption, rfl⟩ | exact .inr ⟨by assumption, rfl, rfl, rfl, rfl, rfl, rfl⟩
    | split

theorem fr_setAnnLost (sd : Sys2Proof.Side) (v : ℕ) (fpl : fp.lam = true) (hfr : Fr fp s0 s1) : Fr fp s0 (State.setAnnLost s1 sd v) := by
  delta State.setAnnLost
  repeat' first
    | with_reducible assumption
    | with_reducible apply fr_wl
    | split

theorem fr_annAccept (sd : Sys2Proof.Side) (a : Ann) (fpi : fp.itu = true) (fpl : fp.lam = true) (hfr : Fr fp s0 s1) : Fr fp s0 (State.annAccept s1 sd a) := by
  delta State.annAccept
  repeat' first
    | with_reducible assumption
    | (intro x; (first | refine fr_cut (fp := fp) (s0 := s0) x ?_ (fun hx => ?_) | refine fr_cut (fp := fp) (s0 := s0) x.1 ?_ (fun hx => ?_) | refine fr_cut (fp := fp) (s0 := s0) x.2 ?_ (fun hx => ?_)); on_goal 1 => dsimp -zeta -zetaHave only [x])
    | intro _
    | lift_lets
    | with_reducible apply fr_setMains
    | with_reducible apply fr_wl
    | with_reducible apply fr_setAnnLost
    | (with_reducible refine fr_mk (by with_reducible assumption) ?_ ?_) <;> first | exact .inl rfl | exact .inr ⟨by assumption, rfl⟩ | exact .inr ⟨by assumption, rfl, rfl, rfl, rfl, rfl, rfl⟩
    | split

theorem fr_countLateAnn (sd : Sys2Proof.Side) (fpl : fp.lam = true) (hfr : Fr fp s0 s1) : Fr fp s0 (State.countLateAnn s1 sd) := by
  delta State.countLateAnn
  repeat' first
    | with_reducible assumption
    | with_reducible apply fr_il
    | split

theorem fr_annMismatch (sd : Sys2Proof.Side) (a : Ann) (fpi : fp.itu = true) (fpl : fp.lam = true) (hfr : Fr fp s0 s1) : Fr fp s0 (State.annMismatch s1 sd a) := by
  delta State.annMismatch
  repeat' first
    | with_reducible assumption
    | (intro x; (first | refine fr_cut (fp := fp) (s0 := s0) x ?_ (fun hx => ?_) | refine fr_cut (fp := fp) (s0 := s0) x.1 ?_ (fun hx => ?_) | refine fr_cut (fp := fp) (s0 := s0) x.2 ?_ (fun hx => ?_)); on_goal 1 => dsimp -zeta -zetaHave only [x])
    | (intro y; (first | have z : Option _ := y | have z : List _ := y); clear z; clear_value y)
    | intro _
    | lift_lets
    | with_reducible apply fr_countLateAnn
    | with_reducible apply fr_mainsAlarm
    | with_reducible apply fr_setMains
    | with_reducible apply fr_wl
    | with_reducible apply fr_setAnnLost
    | split
    | dsimp -zeta -zetaHave only

theorem fr_annCheck (sd : Sys2Proof.Side) (a : Ann) (fpi : fp.itu = true) (fpl : fp.lam = true) (hfr : Fr fp s0 s1) : Fr fp s0 (State.annCheck s1 sd a) := by
  delta State.annCheck
  repeat' first
    | with_reducible assumption
    | intro _
    | with_reducible apply fr_countLateAnn
    | with_reducible apply fr_annAccept
    | with_reducible apply fr_annMismatch
    | with_reducible apply fr_ite

theorem fr_mainsCells (a : Ann) (fpl : fp.lam = true) (hfr : Fr fp s0 s1) : Fr fp s0 (State.mainsCells s1 a) := by
  delta State.mainsCells
  repeat' first
    | with_reducible assumption
    | intro _
    | with_reducible apply fr_setPort
    | with_reducible apply fr_foldl
    | split

theorem fr_annRelay (a : Ann) (fpi : fp.itu = true) (fpl : fp.lam = true) (hfr : Fr fp s0 s1) : Fr fp s0 (State.annRelay s1 a) := by
  delta State.annRelay
  repeat' first
    | with_reducible assumption
    | intro _
    | with_reducible apply fr_mainsCells
    | with_reducible apply fr_setMains
    | with_reducible apply fr_send
    | split

theorem fr_annRx (sd : Sys2Proof.Side) (a : Ann) (fpi : fp.itu = true) (fpl : fp.lam = true) (hfr : Fr fp s0 s1) : Fr fp s0 (State.annRx s1 sd a) := by
  delta State.annRx
  repeat' first
    | with_reducible assumption
    | intro _
    | with_reducible apply fr_annRelay
    | with_reducible apply fr_annCheck
    | split

theorem fr_crownAnnounce (fpi : fp.itu = true) (fpl : fp.lam = true) (hfr : Fr fp s0 s1) : Fr fp s0 (State.crownAnnounce s1) := by
  delta State.crownAnnounce
  repeat' first
    | with_reducible assumption
    | (intro x; (first | refine fr_cut (fp := fp) (s0 := s0) x ?_ (fun hx => ?_) | refine fr_cut (fp := fp) (s0 := s0) x.1 ?_ (fun hx => ?_) | refine fr_cut (fp := fp) (s0 := s0) x.2 ?_ (fun hx => ?_)); on_goal 1 => dsimp -zeta -zetaHave only [x])
    | intro _
    | lift_lets
    | with_reducible apply fr_setMains
    | with_reducible apply fr_send
    | with_reducible apply fr_wl
    | (with_reducible refine fr_mk (by with_reducible assumption) ?_ ?_) <;> first | exact .inl rfl | exact .inr ⟨by assumption, rfl⟩ | exact .inr ⟨by assumption, rfl, rfl, rfl, rfl, rfl, rfl⟩
    | split

theorem fr_crownConsClear (fpi : fp.itu = true) (fpl : fp.lam = true) (hfr : Fr fp s0 s1) : Fr fp s0 (State.crownConsClear s1) := by
  delta State.crownConsClear
  repeat' first
    | with_reducible assumption
    | intro _
    | with_reducible apply fr_mainsAlarm
    | with_reducible apply fr_ite
    | (with_reducible refine fr_mk (by with_reducible assumption) ?_ ?_) <;> first | exact .inl rfl | exact .inr ⟨by assumption, rfl⟩ | exact .inr ⟨by assumption, rfl, rfl, rfl, rfl, rfl, rfl⟩

theorem fr_setPeriod (v : ℕ) (fpl : fp.lam = true) (hfr : Fr fp s0 s1) : Fr fp s0 (State.setPeriod s1 v) := by
  delta State.setPeriod
  repeat' first
    | with_reducible assumption
    | with_reducible apply fr_wl

theorem fr_edgeJudge (z : Mzc) (fpl : fp.lam = true) (hfr : Fr fp s0 s1) : Fr fp s0 (s1.edgeJudge z) := by
  unfold State.edgeJudge
  have hp := fr_setPeriod z.mean fpl hfr
  generalize s1.setPeriod z.mean = p at hp ⊢
  dsimp only
  refine fr_ite (fun _ => fr_ite (fun _ => hp) fun _ => hfr) fun _ => fr_ite (fun _ => fr_ite (fun _ => fr_wl _ _ _ _ fpl hfr) fun _ => hfr) fun _ => ?_
  refine fr_ite (fun _ => fr_wl _ _ _ _ fpl ?_) fun _ => fr_wl _ _ _ _ fpl ?_
  · exact fr_mk hp (.inl rfl) (.inr ⟨fpl, rfl, rfl, rfl, rfl, rfl, rfl⟩)
  · exact fr_mk hp (.inl rfl) (.inr ⟨fpl, rfl, rfl, rfl, rfl, rfl, rfl⟩)

theorem fr_edgeFilter (t : ℕ) (d : ℕ) (fpl : fp.lam = true) (hfr : Fr fp s0 s1) : Fr fp s0 (State.edgeFilter s1 t d) := by
  delta State.edgeFilter
  repeat' first
    | with_reducible assumption
    | with_reducible apply fr_edgeJudge
    | (with_reducible refine fr_mk (by with_reducible assumption) ?_ ?_) <;> first | exact .inl rfl | exact .inr ⟨by assumption, rfl⟩ | exact .inr ⟨by assumption, rfl, rfl, rfl, rfl, rfl, rfl⟩

theorem fr_edgePhase (t : ℕ) (fpl : fp.lam = true) (hfr : Fr fp s0 s1) : Fr fp s0 (State.edgePhase s1 t) := by
  delta State.edgePhase
  repeat' first
    | with_reducible assumption
    | (intro x; (first | refine fr_cut (fp := fp) (s0 := s0) x ?_ (fun hx => ?_) | refine fr_cut (fp := fp) (s0 := s0) x.1 ?_ (fun hx => ?_) | refine fr_cut (fp := fp) (s0 := s0) x.2 ?_ (fun hx => ?_)); on_goal 1 => dsimp -zeta -zetaHave only [x])
    | intro _
    | lift_lets
    | with_reducible apply fr_il
    | with_reducible apply fr_wl
    | (with_reducible refine fr_mk (by with_reducible assumption) ?_ ?_) <;> first | exact .inl rfl | exact .inr ⟨by assumption, rfl⟩ | exact .inr ⟨by assumption, rfl, rfl, rfl, rfl, rfl, rfl⟩
    | split

theorem fr_setMainsState (sd : Sys2Proof.Side) (v : ℕ) (fpl : fp.lam = true) (hfr : Fr fp s0 s1) : Fr fp s0 (State.setMainsState s1 sd v) := by
  delta State.setMainsState
  repeat' first
    | with_reducible assumption
    | with_reducible apply fr_wl
    | split

theorem fr_mcAdvance (sd : Sys2Proof.Side) (fpi : fp.itu = true) (fpl : fp.lam = true) (hfr : Fr fp s0 s1) : Fr fp s0 (State.mcAdvance s1 sd) := by
  delta State.mcAdvance
  extract_lets m0 crown el x
  have hx : Fr fp s0 x := fr_ite (fun _ => fr_mainsAlarm _ _ fpi fpl (fr_setMains _ _ fpi fpl hfr)) (fun _ => hfr)
  clear_value x
  split
  all_goals repeat' first
    | with_reducible assumption
    | (intro x; (first | refine fr_cut (fp := fp) (s0 := s0) x ?_ (fun hx => ?_) | refine fr_cut (fp := fp) (s0 := s0) x.1 ?_ (fun hx => ?_) | refine fr_cut (fp := fp) (s0 := s0) x.2 ?_ (fun hx => ?_)); on_goal 1 => dsimp -zeta -zetaHave only [x])
    | intro _
    | lift_lets
    | with_reducible apply fr_setMainsState
    | with_reducible apply fr_mainsAlarm
    | with_reducible apply fr_setMains
    | (with_reducible refine fr_mk (by with_reducible assumption) ?_ ?_) <;> first | exact .inl rfl | exact .inr ⟨by assumption, rfl⟩ | exact .inr ⟨by assumption, rfl, rfl, rfl, rfl, rfl, rfl⟩
    | split

theorem fr_phaseError (t : ℕ) (fpl : fp.lam = true) (hfr : Fr fp s0 s1) : Fr fp s0 (State.phaseError s1 t) := by
  delta State.phaseError
  repeat' first
    | with_reducible assumption
    | with_reducible apply fr_wl
    | (with_reducible refine fr_mk (by with_reducible assumption) ?_ ?_) <;> first | exact .inl rfl | exact .inr ⟨by assumption, rfl⟩ | exact .inr ⟨by assumption, rfl, rfl, rfl, rfl, rfl, rfl⟩
    | split

theorem fr_setFirstMc (t : ℕ) (fpi : fp.itu = true) (fpl : fp.lam = true) (hfr : Fr fp s0 s1) : Fr fp s0 (State.setFirstMc s1 t) := by
  delta State.setFirstMc
  repeat' first
    | with_reducible assumption
    | with_reducible apply fr_setMains
    | (with_reducible refine fr_mk (by with_reducible assumption) ?_ ?_) <;> first | exact .inl rfl | exact .inr ⟨by assumption, rfl⟩ | exact .inr ⟨by assumption, rfl, rfl, rfl, rfl, rfl, rfl⟩

theorem fr_execMzcEdge (t : ℕ) (fpi : fp.itu = true) (fpl : fp.lam = true) (hfr : Fr fp s0 s1) : FrO fp s0 (execMzcEdge t s1) := by
  delta execMzcEdge
  repeat' first
    | with_reducible assumption
    | intro _
    | with_reducible apply FrO.next
    | with_reducible apply fr_phaseError
    | with_reducible apply fr_il
    | with_reducible apply fr_edgeFilter
    | with_reducible apply fr_setFirstMc
    | with_reducible apply fr_edgePhase
    | split

theorem fr_execMainsCellResend (fpi : fp.itu = true) (fpl : fp.lam = true) (hfr : Fr fp s0 s1) : FrO fp s0 (execMainsCellResend s1) := by
  delta execMainsCellResend
  repeat' first
    | with_reducible assumption
    | with_reducible apply FrO.next
    | with_reducible apply fr_mainsCells
    | with_reducible apply fr_setMains
    | split

theorem fr_execMainsHoldoverEntry (fpi : fp.itu = true) (fpl : fp.lam = true) (hfr : Fr fp s0 s1) : FrO fp s0 (execMainsHoldoverEntry s1) := by
  delta execMainsHoldoverEntry
  repeat' first
    | with_reducible assumption
    | intro _
    | with_reducible apply FrO.next
    | with_reducible apply fr_mainsAlarm
    | with_reducible apply fr_wl
    | with_reducible apply frO_ite
    | (with_reducible refine fr_mk (by with_reducible assumption) ?_ ?_) <;> first | exact .inl rfl | exact .inr ⟨by assumption, rfl⟩ | exact .inr ⟨by assumption, rfl, rfl, rfl, rfl, rfl, rfl⟩
    | split

theorem fr_execAnnLost (sd : Sys2Proof.Side) (fpi : fp.itu = true) (fpl : fp.lam = true) (hfr : Fr fp s0 s1) : FrO fp s0 (execAnnLost sd s1) := by
  delta execAnnLost
  repeat' first
    | with_reducible assumption
    | intro _
    | with_reducible apply FrO.next
    | with_reducible apply fr_setMains
    | with_reducible apply fr_setAnnLost
    | with_reducible apply frO_ite

theorem fr_execMainsCtlEnableWrite (iss : Issuer) (v : Bool) (fpi : fp.itu = true) (fpl : fp.lam = true) (hfr : Fr fp s0 s1) : FrO fp s0 (execMainsCtlEnableWrite iss v s1) := by
  delta execMainsCtlEnableWrite
  repeat' first
    | with_reducible assumption
    | intro _
    | with_reducible apply FrO.next
    | with_reducible apply fr_setMainsEnable
    | with_reducible apply fr_lamGuard
    | with_reducible apply frO_ite

theorem fr_execConservativeEntry (sd : Sys2Proof.Side) (fpi : fp.itu = true) (fpl : fp.lam = true) (hfr : Fr fp s0 s1) : FrO fp s0 (execConservativeEntry sd s1) := by
  delta execConservativeEntry
  repeat' first
    | with_reducible assumption
    | intro _
    | lift_lets
    | with_reducible apply FrO.next
    | with_reducible apply fr_mainsAlarm
    | with_reducible apply fr_setMains
    | (with_reducible refine fr_mk (by with_reducible assumption) ?_ ?_) <;> first | exact .inl rfl | exact .inr ⟨by assumption, rfl⟩ | exact .inr ⟨by assumption, rfl, rfl, rfl, rfl, rfl, rfl⟩
    | split

theorem fr_execMainsCellRx (a : Ann) (fpi : fp.itu = true) (fpl : fp.lam = true) (hfr : Fr fp s0 s1) : FrO fp s0 (execMainsCellRx a s1) := by
  delta execMainsCellRx
  repeat' first
    | with_reducible assumption
    | intro _
    | with_reducible apply FrO.next
    | with_reducible apply fr_annRx
    | with_reducible apply fr_after
    | with_reducible apply fr_ii
    | split

end Sys2Proof.Machine
end

