-- ==== Sys2Proof/Laws/FrPackage.lean ====
section
/-! SUPPORT. What each operation of Machine/Package.lean can change, in the form of Laws/Frame.lean. -/

set_option linter.unusedTactic false
set_option linter.unreachableTactic false

namespace Sys2Proof.Machine

variable {fp : Parts} {s0 s1 : State}

theorem fr_sweepAlign (q : ℕ) (fpl : fp.lam = true) (hfr : Fr fp s0 s1) : Fr fp s0 (State.sweepAlign s1 q) := by
  delta State.sweepAlign
  repeat' first
    | with_reducible assumption
    | intro _
    | with_reducible apply fr_wl
    | with_reducible apply fr_ite
    | split

end Sys2Proof.Machine
end

