-- ==== Sys2Proof/Laws/FrLink.lean ====
section
/-! SUPPORT. What each operation of Machine/Link.lean can change, in the form of Laws/Frame.lean. -/

set_option linter.unusedTactic false
set_option linter.unreachableTactic false

namespace Sys2Proof.Machine

variable {fp : Parts} {s0 s1 : State}

theorem fr_ldgLost (q : ℕ) (fpl : fp.lam = true) (hfr : Fr fp s0 s1) : Fr fp s0 (State.ldgLost s1 q) := by
  delta State.ldgLost
  repeat' first
    | (with_reducible refine fr_mk (by with_reducible assumption) ?_ ?_) <;> first | exact .inl rfl | exact .inr ⟨by assumption, rfl⟩ | exact .inr ⟨by assumption, rfl, rfl, rfl, rfl, rfl, rfl⟩

theorem fr_setDet (q : ℕ) (v : DetPort) (fpl : fp.lam = true) (hfr : Fr fp s0 s1) : Fr fp s0 (State.setDet s1 q v) := by
  delta State.setDet
  repeat' first
    | (with_reducible refine fr_mk (by with_reducible assumption) ?_ ?_) <;> first | exact .inl rfl | exact .inr ⟨by assumption, rfl⟩ | exact .inr ⟨by assumption, rfl, rfl, rfl, rfl, rfl, rfl⟩

theorem fr_linkRec (q : ℕ) (typ : ℕ) (w0 : ℕ) (w2 : ℕ) (fpl : fp.lam = true) (hfr : Fr fp s0 s1) : Fr fp s0 (State.linkRec s1 q typ w0 w2) := by
  delta State.linkRec
  repeat' first
    | with_reducible assumption
    | with_reducible apply fr_lamRec

theorem fr_downLam (q : ℕ) (cause : ℕ) (wasUp : Bool) (nego : Bool) (fpl : fp.lam = true) (hfr : Fr fp s0 s1) : Fr fp s0 (State.downLam s1 q cause wasUp nego) := by
  delta State.downLam
  repeat' first
    | with_reducible assumption
    | intro _
    | with_reducible apply fr_setPort
    | with_reducible apply fr_ldgLost
    | with_reducible apply fr_setDet
    | with_reducible apply fr_linkRec
    | with_reducible apply fr_wl
    | with_reducible apply fr_ite

theorem fr_setLe (sd : Sys2Proof.Side) (q : ℕ) (v : LinkEnd) (fpi : fp.itu = true) (fpl : fp.lam = true) (hfr : Fr fp s0 s1) : Fr fp s0 (State.setLe s1 sd q v) := by
  delta State.setLe
  repeat' first
    | with_reducible assumption
    | with_reducible apply fr_setPort
    | (with_reducible refine fr_mk (by with_reducible assumption) ?_ ?_) <;> first | exact .inl rfl | exact .inr ⟨by assumption, rfl⟩ | exact .inr ⟨by assumption, rfl, rfl, rfl, rfl, rfl, rfl⟩
    | split

theorem fr_lw (sd : Sys2Proof.Side) (q : ℕ) (Fi : Fld) (Fl : Fld) (v : ℕ) (fpi : fp.itu = true) (fpl : fp.lam = true) (hfr : Fr fp s0 s1) : Fr fp s0 (State.lw s1 sd q Fi Fl v) := by
  delta State.lw
  repeat' first
    | with_reducible assumption
    | with_reducible apply fr_wi
    | with_reducible apply fr_wl
    | split

theorem fr_enterLk (sd : Sys2Proof.Side) (q : ℕ) (v : ℕ) (fpi : fp.itu = true) (fpl : fp.lam = true) (hfr : Fr fp s0 s1) : Fr fp s0 (State.enterLk s1 sd q v) := by
  delta State.enterLk
  repeat' first
    | with_reducible assumption
    | with_reducible apply fr_setLe
    | with_reducible apply fr_lw

theorem fr_li (sd : Sys2Proof.Side) (q : ℕ) (Fi : Fld) (Fl : Fld) (n : optParam ℕ 1) (fpi : fp.itu = true) (fpl : fp.lam = true) (hfr : Fr fp s0 s1) : Fr fp s0 (State.li s1 sd q Fi Fl n) := by
  delta State.li
  repeat' first
    | with_reducible assumption
    | with_reducible apply fr_il
    | with_reducible apply fr_ii
    | split

theorem fr_linkDown (sd : Sys2Proof.Side) (q : ℕ) (cause : ℕ) (nego : optParam Bool false) (fpi : fp.itu = true) (fpl : fp.lam = true) (hfr : Fr fp s0 s1) : Fr fp s0 (State.linkDown s1 sd q cause nego) := by
  delta State.linkDown
  repeat' first
    | with_reducible assumption
    | intro _
    | with_reducible apply fr_downLam
    | with_reducible apply fr_setLe
    | with_reducible apply fr_enterLk
    | with_reducible apply fr_sourceLost
    | with_reducible apply fr_lw
    | with_reducible apply fr_li
    | with_reducible apply fr_after
    | with_reducible apply fr_wl
    | with_reducible apply fr_ite
    | split

theorem fr_leaveUp (sd : Sys2Proof.Side) (q : ℕ) (cause : ℕ) (fpi : fp.itu = true) (fpl : fp.lam = true) (hfr : Fr fp s0 s1) : Fr fp s0 (State.leaveUp s1 sd q cause) := by
  delta State.leaveUp
  repeat' first
    | with_reducible assumption
    | intro _
    | with_reducible apply fr_linkDown
    | split

theorem fr_setLnkEnable (q : ℕ) (v : Bool) (fpi : fp.itu = true) (fpl : fp.lam = true) (hfr : Fr fp s0 s1) : Fr fp s0 (State.setLnkEnable s1 q v) := by
  delta State.setLnkEnable
  repeat' first
    | with_reducible assumption
    | intro _
    | with_reducible apply fr_linkDown
    | with_reducible apply fr_setLe
    | with_reducible apply fr_wl
    | with_reducible apply fr_ite

theorem fr_toItu (q : ℕ) (p : Pkt) (fpl : fp.lam = true) (hfr : Fr fp s0 s1) : Fr fp s0 (State.toItu s1 q p) := by
  delta State.toItu
  repeat' first
    | with_reducible assumption
    | intro _
    | with_reducible apply fr_setPort
    | with_reducible apply fr_il
    | split

theorem fr_dieCmd (q : ℕ) (op : ℕ) (params : List ℕ) (txn : optParam (Option ℕ) none) (fpl : fp.lam = true) (hfr : Fr fp s0 s1) : Fr fp s0 (State.dieCmd s1 q op params txn) := by
  delta State.dieCmd
  repeat' first
    | with_reducible assumption
    | with_reducible apply fr_ownPkt
    | with_reducible apply fr_toItu

theorem fr_ituWriteB (q : ℕ) (addr : ℕ) (strb : ℕ) (data : ℕ) (fpl : fp.lam = true) (hfr : Fr fp s0 s1) : Fr fp s0 (State.ituWriteB s1 q addr strb data) := by
  delta State.ituWriteB
  repeat' first
    | with_reducible assumption
    | with_reducible apply fr_dieCmd

theorem fr_ituWrite (q : ℕ) (addr : ℕ) (data : ℕ) (fpl : fp.lam = true) (hfr : Fr fp s0 s1) : Fr fp s0 (State.ituWrite s1 q addr data) := by
  delta State.ituWrite
  repeat' first
    | with_reducible assumption
    | with_reducible apply fr_ituWriteB

theorem fr_ldgActive (q : ℕ) (fpl : fp.lam = true) (hfr : Fr fp s0 s1) : Fr fp s0 (State.ldgActive s1 q) := by
  delta State.ldgActive
  repeat' first
    | (with_reducible refine fr_mk (by with_reducible assumption) ?_ ?_) <;> first | exact .inl rfl | exact .inr ⟨by assumption, rfl⟩ | exact .inr ⟨by assumption, rfl, rfl, rfl, rfl, rfl, rfl⟩

theorem fr_lkBlock (sd : Sys2Proof.Side) (q : ℕ) (fpi : fp.itu = true) (fpl : fp.lam = true) (hfr : Fr fp s0 s1) : Fr fp s0 (State.lkBlock s1 sd q) := by
  delta State.lkBlock
  repeat' first
    | with_reducible assumption
    | with_reducible apply fr_setLe

theorem fr_portActive (q : ℕ) (fpl : fp.lam = true) (hfr : Fr fp s0 s1) : Fr fp s0 (State.portActive s1 q) := by
  delta State.portActive
  repeat' first
    | with_reducible assumption
    | with_reducible apply fr_setPort
    | with_reducible apply fr_ituWrite
    | with_reducible apply fr_sweepAlign
    | with_reducible apply fr_ldgActive
    | with_reducible apply fr_wl

theorem fr_upItu (fpi : fp.itu = true) (hfr : Fr fp s0 s1) : Fr fp s0 (State.upItu s1) := by
  delta State.upItu
  repeat' first
    | (with_reducible refine fr_mk (by with_reducible assumption) ?_ ?_) <;> first | exact .inl rfl | exact .inr ⟨by assumption, rfl⟩ | exact .inr ⟨by assumption, rfl, rfl, rfl, rfl, rfl, rfl⟩

theorem fr_upLam (q : ℕ) (fmt : ℕ × ℕ) (valid : Bool) (degraded : Bool) (fpl : fp.lam = true) (hfr : Fr fp s0 s1) : Fr fp s0 (State.upLam s1 q fmt valid degraded) := by
  delta State.upLam
  repeat' first
    | with_reducible assumption
    | (intro y; (first | have z : Option _ := y | have z : List _ := y); clear z; clear_value y)
    | intro _
    | lift_lets
    | with_reducible apply fr_setPort
    | with_reducible apply fr_setDet
    | with_reducible apply fr_linkRec
    | with_reducible apply fr_portActive
    | with_reducible apply fr_wl
    | split

theorem fr_execLossOfSignal (sd : Sys2Proof.Side) (q : ℕ) (lane : ℕ) (fpi : fp.itu = true) (fpl : fp.lam = true) (hfr : Fr fp s0 s1) : FrO fp s0 (execLossOfSignal sd q lane s1) := by
  delta execLossOfSignal
  repeat' first
    | with_reducible assumption
    | intro _
    | with_reducible apply FrO.next
    | with_reducible apply fr_leaveUp
    | with_reducible apply fr_lw
    | split

theorem fr_execTrainTimeout (sd : Sys2Proof.Side) (q : ℕ) (fpi : fp.itu = true) (fpl : fp.lam = true) (hfr : Fr fp s0 s1) : FrO fp s0 (execTrainTimeout sd q s1) := by
  delta execTrainTimeout
  repeat' first
    | with_reducible assumption
    | intro _
    | with_reducible apply FrO.next
    | with_reducible apply fr_linkDown
    | split

theorem fr_execNoValidBlockTimeout (sd : Sys2Proof.Side) (q : ℕ) (fpi : fp.itu = true) (fpl : fp.lam = true) (hfr : Fr fp s0 s1) : FrO fp s0 (execNoValidBlockTimeout sd q s1) := by
  delta execNoValidBlockTimeout
  repeat' first
    | with_reducible assumption
    | intro _
    | with_reducible apply FrO.next
    | with_reducible apply fr_leaveUp
    | split

theorem fr_execIlnkCtlRetrain (iss : Issuer) (fpi : fp.itu = true) (fpl : fp.lam = true) (hfr : Fr fp s0 s1) : FrO fp s0 (execIlnkCtlRetrain iss s1) := by
  delta execIlnkCtlRetrain
  repeat' first
    | with_reducible assumption
    | intro _
    | with_reducible apply FrO.next
    | with_reducible apply fr_leaveUp
    | with_reducible apply fr_ituGuard
    | with_reducible apply frO_ite

theorem fr_execLnkCtlEnableWrite (iss : Issuer) (q : ℕ) (v : Bool) (fpi : fp.itu = true) (fpl : fp.lam = true) (hfr : Fr fp s0 s1) : FrO fp s0 (execLnkCtlEnableWrite iss q v s1) := by
  delta execLnkCtlEnableWrite
  repeat' first
    | with_reducible assumption
    | intro _
    | with_reducible apply FrO.next
    | with_reducible apply fr_setLnkEnable
    | with_reducible apply fr_lamGuard
    | with_reducible apply frO_ite

theorem fr_execBlockLockAcquired (sd : Sys2Proof.Side) (q : ℕ) (fpi : fp.itu = true) (fpl : fp.lam = true) (hfr : Fr fp s0 s1) : FrO fp s0 (execBlockLockAcquired sd q s1) := by
  delta execBlockLockAcquired
  repeat' first
    | with_reducible assumption
    | intro _
    | with_reducible apply FrO.next
    | with_reducible apply fr_enterLk
    | with_reducible apply fr_lw
    | with_reducible apply fr_wl
    | split

theorem fr_execLinkTrainStart (sd : Sys2Proof.Side) (q : ℕ) (fpi : fp.itu = true) (fpl : fp.lam = true) (hfr : Fr fp s0 s1) : FrO fp s0 (execLinkTrainStart sd q s1) := by
  delta execLinkTrainStart
  repeat' first
    | with_reducible assumption
    | intro _
    | with_reducible apply FrO.next
    | with_reducible apply fr_enterLk
    | split

theorem fr_execAlignRx (sd : Sys2Proof.Side) (q : ℕ) (skew : ℕ) (paired : Bool) (fpi : fp.itu = true) (fpl : fp.lam = true) (hfr : Fr fp s0 s1) : FrO fp s0 (execAlignRx sd q skew paired s1) := by
  delta execAlignRx
  repeat' first
    | with_reducible assumption
    | intro _
    | with_reducible apply FrO.next
    | with_reducible apply fr_leaveUp
    | with_reducible apply fr_lkBlock
    | with_reducible apply fr_setLe
    | with_reducible apply frO_ite

theorem fr_execSettleEnd (sd : Sys2Proof.Side) (q : ℕ) (fpi : fp.itu = true) (fpl : fp.lam = true) (hfr : Fr fp s0 s1) : FrO fp s0 (execSettleEnd sd q s1) := by
  delta execSettleEnd
  repeat' first
    | with_reducible assumption
    | intro _
    | with_reducible apply FrO.next
    | with_reducible apply fr_enterLk
    | split

theorem fr_execBlockLockLoss (sd : Sys2Proof.Side) (q : ℕ) (lane : ℕ) (fpi : fp.itu = true) (fpl : fp.lam = true) (hfr : Fr fp s0 s1) : FrO fp s0 (execBlockLockLoss sd q lane s1) := by
  delta execBlockLockLoss
  repeat' first
    | with_reducible assumption
    | (intro x; (first | refine fr_cut (fp := fp) (s0 := s0) x ?_ (fun hx => ?_) | refine fr_cut (fp := fp) (s0 := s0) x.1 ?_ (fun hx => ?_) | refine fr_cut (fp := fp) (s0 := s0) x.2 ?_ (fun hx => ?_)); on_goal 1 => dsimp -zeta -zetaHave only [x])
    | intro _
    | with_reducible apply FrO.next
    | with_reducible apply fr_leaveUp
    | with_reducible apply fr_wl
    | split

theorem fr_execHelloRx (sd : Sys2Proof.Side) (q : ℕ) (ver : ℕ) (maxFmt : ℕ) (minFmt : ℕ) (checks : ℕ) (fpi : fp.itu = true) (fpl : fp.lam = true) (hfr : Fr fp s0 s1) : FrO fp s0 (execHelloRx sd q ver maxFmt minFmt checks s1) := by
  delta execHelloRx
  repeat' first
    | with_reducible assumption
    | (intro x; (first | refine fr_cut (fp := fp) (s0 := s0) x ?_ (fun hx => ?_) | refine fr_cut (fp := fp) (s0 := s0) x.1 ?_ (fun hx => ?_) | refine fr_cut (fp := fp) (s0 := s0) x.2 ?_ (fun hx => ?_)); on_goal 1 => dsimp -zeta -zetaHave only [x])
    | (intro y; (first | have z : Option _ := y | have z : List _ := y); clear z; clear_value y)
    | intro _
    | with_reducible apply FrO.next
    | with_reducible apply fr_setLe
    | with_reducible apply fr_wi
    | with_reducible apply fr_wl
    | split

theorem fr_execReadyRx (sd : Sys2Proof.Side) (q : ℕ) (fmt : ℕ) (check : ℕ) (valid : Bool) (degraded : Bool) (fpi : fp.itu = true) (fpl : fp.lam = true) (hfr : Fr fp s0 s1) : FrO fp s0 (execReadyRx sd q fmt check valid degraded s1) := by
  delta execReadyRx
  repeat' first
    | with_reducible assumption
    | intro _
    | with_reducible apply FrO.next
    | with_reducible apply fr_setLe
    | with_reducible apply fr_enterLk
    | with_reducible apply fr_lw
    | with_reducible apply fr_upItu
    | with_reducible apply fr_upLam
    | with_reducible apply fr_after
    | with_reducible apply frO_ite
    | split

theorem fr_execNegotiateTimeout (sd : Sys2Proof.Side) (q : ℕ) (fpi : fp.itu = true) (fpl : fp.lam = true) (hfr : Fr fp s0 s1) : FrO fp s0 (execNegotiateTimeout sd q s1) := by
  delta execNegotiateTimeout
  repeat' first
    | with_reducible assumption
    | intro _
    | with_reducible apply FrO.next
    | with_reducible apply fr_linkDown
    | split

theorem fr_execLnkCtlRetrain (iss : Issuer) (q : ℕ) (fpi : fp.itu = true) (fpl : fp.lam = true) (hfr : Fr fp s0 s1) : FrO fp s0 (execLnkCtlRetrain iss q s1) := by
  delta execLnkCtlRetrain
  repeat' first
    | with_reducible assumption
    | intro _
    | with_reducible apply FrO.next
    | with_reducible apply fr_leaveUp
    | with_reducible apply fr_lamGuard
    | with_reducible apply frO_ite

end Sys2Proof.Machine
end

