-- ==== Sys2Proof/Laws/FrTracker.lean ====
section
/-! SUPPORT. What each operation of Machine/Tracker.lean can change, in the form of Laws/Frame.lean. -/

set_option linter.unusedTactic false
set_option linter.unreachableTactic false

namespace Sys2Proof.Machine

variable {fp : Parts} {s0 s1 : State}

theorem fr_trkSnapCopy (i : ℕ) (fpl : fp.lam = true) (hfr : Fr fp s0 s1) : Fr fp s0 (State.trkSnapCopy s1 i) := by
  delta State.trkSnapCopy
  repeat' first
    | with_reducible assumption
    | with_reducible apply fr_wl
    | (with_reducible refine fr_mk (by with_reducible assumption) ?_ ?_) <;> first | exact .inl rfl | exact .inr ⟨by assumption, rfl⟩ | exact .inr ⟨by assumption, rfl, rfl, rfl, rfl, rfl, rfl⟩

theorem fr_virtQueue (inp : TrkIn) (n : ℕ) (fpl : fp.lam = true) (hfr : Fr fp s0 s1) : Fr fp s0 (State.virtQueue s1 inp n) := by
  delta State.virtQueue
  repeat' first
    | intro _
    | with_reducible apply fr_foldl
    | (with_reducible refine fr_mk (by with_reducible assumption) ?_ ?_) <;> first | exact .inl rfl | exact .inr ⟨by assumption, rfl⟩ | exact .inr ⟨by assumption, rfl, rfl, rfl, rfl, rfl, rfl⟩

theorem fr_setTrk (i : ℕ) (t : Tracker) (fpl : fp.lam = true) (hfr : Fr fp s0 s1) : Fr fp s0 (State.setTrk s1 i t) := by
  delta State.setTrk
  repeat' first
    | (with_reducible refine fr_mk (by with_reducible assumption) ?_ ?_) <;> first | exact .inl rfl | exact .inr ⟨by assumption, rfl⟩ | exact .inr ⟨by assumption, rfl, rfl, rfl, rfl, rfl, rfl⟩

theorem fr_trkCount (r : TrkRes) (fpl : fp.lam = true) (hfr : Fr fp s0 s1) : Fr fp s0 (State.trkCount s1 r) := by
  delta State.trkCount
  repeat' first
    | with_reducible assumption
    | with_reducible apply fr_il
    | split

theorem fr_trkApply (i : ℕ) (inp : TrkIn) (fpl : fp.lam = true) (hfr : Fr fp s0 s1) : Fr fp s0 (State.trkApply s1 i inp).1 := by
  delta State.trkApply
  repeat' first
    | with_reducible assumption
    | with_reducible apply fr_setTrk
    | with_reducible apply fr_trkCount

theorem fr_opTrkAssign (i : ℕ) (die : ℕ) (counter : ℕ) (free : Bool) (fpl : fp.lam = true) (fpd : fp.ddr = true) (hfr : Fr fp s0 s1) : Fr fp s0 (State.opTrkAssign s1 i die counter free).1 := by
  delta State.opTrkAssign
  repeat' first
    | with_reducible assumption
    | (intro x; (first | refine fr_cut (fp := fp) (s0 := s0) x ?_ (fun hx => ?_) | refine fr_cut (fp := fp) (s0 := s0) x.1 ?_ (fun hx => ?_) | refine fr_cut (fp := fp) (s0 := s0) x.2 ?_ (fun hx => ?_)); on_goal 1 => dsimp -zeta -zetaHave only [x]) <;> try clear_value x
    | intro _
    | lift_lets
    | with_reducible apply fr_setTrk
    | with_reducible apply fr_ddrPut
    | (with_reducible refine fr_mk (by with_reducible assumption) ?_ ?_) <;> first | exact .inl rfl | exact .inr ⟨by assumption, rfl⟩ | exact .inr ⟨by assumption, rfl, rfl, rfl, rfl, rfl, rfl⟩
    | split

theorem fr_execTrkAssign (h : CmdHdr) (tracker : ℕ) (die : ℕ) (counter : ℕ) (free : Bool) (fpl : fp.lam = true) (fpd : fp.ddr = true) (hfr : Fr fp s0 s1) : FrO fp s0 (execTrkAssign h tracker die counter free s1) := by
  delta execTrkAssign
  repeat' first
    | with_reducible assumption
    | intro _
    | with_reducible apply FrO.next
    | with_reducible apply fr_opTrkAssign
    | with_reducible apply fr_cmdLam

theorem fr_virtPut (j : ℕ) (old : ℕ) (t : Tracker) (fpl : fp.lam = true) (fpd : fp.ddr = true) (hfr : Fr fp s0 s1) : Fr fp s0 (State.virtPut s1 j old t) := by
  delta State.virtPut
  repeat' first
    | with_reducible assumption
    | with_reducible apply fr_ddrPut

theorem fr_virtApply (u : VirtUpd) (poison : Bool) (fpl : fp.lam = true) (fpd : fp.ddr = true) (hfr : Fr fp s0 s1) : Fr fp s0 (State.virtApply s1 u poison) := by
  delta State.virtApply
  repeat' first
    | with_reducible assumption
    | intro _
    | with_reducible apply fr_il
    | with_reducible apply fr_virtPut
    | with_reducible apply fr_trkCount
    | with_reducible apply fr_ddrPut
    | with_reducible apply fr_wl
    | with_reducible apply fr_ite

theorem fr_execVirtualHeadArrival (j : ℕ) (poison : Bool) (fpl : fp.lam = true) (fpd : fp.ddr = true) (hfr : Fr fp s0 s1) : FrO fp s0 (execVirtualHeadArrival j poison s1) := by
  delta execVirtualHeadArrival
  repeat' first
    | with_reducible assumption
    | intro _
    | with_reducible apply FrO.next
    | with_reducible apply fr_il
    | with_reducible apply fr_virtApply
    | with_reducible apply fr_wl
    | (with_reducible refine fr_mk (by with_reducible assumption) ?_ ?_) <;> first | exact .inl rfl | exact .inr ⟨by assumption, rfl⟩ | exact .inr ⟨by assumption, rfl, rfl, rfl, rfl, rfl, rfl⟩
    | split

theorem fr_execTrkSnapCmdWrite (iss : Issuer) (idx : ℕ) (fpl : fp.lam = true) (hfr : Fr fp s0 s1) : FrO fp s0 (execTrkSnapCmdWrite iss idx s1) := by
  delta execTrkSnapCmdWrite
  repeat' first
    | with_reducible assumption
    | intro _
    | with_reducible apply FrO.next
    | with_reducible apply fr_trkSnapCopy
    | with_reducible apply fr_lamGuard
    | with_reducible apply frO_ite

end Sys2Proof.Machine
end

