-- ==== Sys2Proof/Laws/FrDrift.lean ====
section
/-! SUPPORT. What each operation of Machine/Drift.lean can change, in the form of Laws/Frame.lean. -/

set_option linter.unusedTactic false
set_option linter.unreachableTactic false

namespace Sys2Proof.Machine

variable {fp : Parts} {s0 s1 : State}

theorem fr_assignLoad (q : ℕ) (die : ℕ) (fpl : fp.lam = true) (hfr : Fr fp s0 s1) : Fr fp s0 (State.assignLoad s1 q die) := by
  delta State.assignLoad
  repeat' first
    | with_reducible assumption
    | intro _
    | with_reducible apply fr_setDet
    | with_reducible apply fr_ite

theorem fr_driftVerdict (die : ℕ) (counter : ℕ) (d : ℕ) (tbin : ℕ) (load : ℕ) (byE : Bool) (byC : Bool) (scope : Bool) (b : Bind) (a : DetArea) (fpl : fp.lam = true) (hfr : Fr fp s0 s1) : Fr fp s0 (State.driftVerdict s1 die counter d tbin load byE byC scope b a) := by
  delta State.driftVerdict
  repeat' first
    | with_reducible assumption
    | with_reducible apply fr_il
    | with_reducible apply fr_lamEmit

theorem fr_incompNotice (d : ℕ) (counter : ℕ) (cohort : ℕ) (bad : Bool) (fpl : fp.lam = true) (hfr : Fr fp s0 s1) : Fr fp s0 (State.incompNotice s1 d counter cohort bad) := by
  delta State.incompNotice
  repeat' first
    | with_reducible assumption
    | intro _
    | with_reducible apply fr_driftVerdict
    | with_reducible apply fr_ite
    | (with_reducible refine fr_mk (by with_reducible assumption) ?_ ?_) <;> first | exact .inl rfl | exact .inr ⟨by assumption, rfl⟩ | exact .inr ⟨by assumption, rfl, rfl, rfl, rfl, rfl, rfl⟩

theorem fr_detUpdate (q : ℕ) (t : Tracker) (d : ℕ) (lt : ℕ) (fpl : fp.lam = true) (hfr : Fr fp s0 s1) : Fr fp s0 (State.detUpdate s1 q t d lt).1 := by
  delta State.detUpdate
  repeat' first
    | with_reducible assumption
    | intro _
    | with_reducible apply fr_il
    | with_reducible apply fr_incompNotice
    | with_reducible apply fr_driftVerdict
    | with_reducible apply fr_wl
    | with_reducible apply fr_ite
    | with_reducible apply fr_ite_fst
    | split

theorem fr_detRun (q : ℕ) (i : ℕ) (lt : ℕ) (fpl : fp.lam = true) (hfr : Fr fp s0 s1) : Fr fp s0 (State.detRun s1 q i lt) := by
  delta State.detRun
  repeat' first
    | with_reducible assumption
    | intro _
    | with_reducible apply fr_setTrk
    | with_reducible apply fr_detUpdate
    | with_reducible apply fr_ite
    | split

theorem fr_qref (ws : List ℕ) (fpl : fp.lam = true) (hfr : Fr fp s0 s1) : Fr fp s0 (State.qref s1 ws) := by
  delta State.qref
  repeat' first
    | (with_reducible refine fr_mk (by with_reducible assumption) ?_ ?_) <;> first | exact .inl rfl | exact .inr ⟨by assumption, rfl⟩ | exact .inr ⟨by assumption, rfl, rfl, rfl, rfl, rfl, rfl⟩

theorem fr_execQref (h : CmdHdr) (words : List ℕ) (fpl : fp.lam = true) (hfr : Fr fp s0 s1) : FrO fp s0 (execQref h words s1) := by
  delta execQref
  repeat' first
    | with_reducible assumption
    | intro _
    | with_reducible apply FrO.next
    | with_reducible apply fr_qref
    | with_reducible apply fr_cmdLam
    | split

end Sys2Proof.Machine
end

