-- ==== Sys2Proof/Laws/FrEgress.lean ====
section
/-! SUPPORT. What each operation of Machine/Egress.lean can change, in the form of Laws/Frame.lean. -/

set_option linter.unusedTactic false
set_option linter.unreachableTactic false

namespace Sys2Proof.Machine

variable {fp : Parts} {s0 s1 : State}

theorem fr_epochAsk (fpl : fp.lam = true) (hfr : Fr fp s0 s1) : Fr fp s0 (State.epochAsk s1) := by
  delta State.epochAsk
  repeat' first
    | with_reducible assumption
    | with_reducible apply fr_ownPkt
    | with_reducible apply fr_send
    | split

theorem fr_parentChange (p : ℕ) (r : Rec) (fpl : fp.lam = true) (hfr : Fr fp s0 s1) : Fr fp s0 (State.parentChange s1 p r) := by
  delta State.parentChange
  repeat' first
    | (with_reducible refine fr_mk (by with_reducible assumption) ?_ ?_) <;> first | exact .inl rfl | exact .inr ⟨by assumption, rfl⟩ | exact .inr ⟨by assumption, rfl, rfl, rfl, rfl, rfl, rfl⟩

theorem fr_setEp (p : ℕ) (v : EthPort) (fpl : fp.lam = true) (hfr : Fr fp s0 s1) : Fr fp s0 (State.setEp s1 p v) := by
  delta State.setEp
  repeat' first
    | (with_reducible refine fr_mk (by with_reducible assumption) ?_ ?_) <;> first | exact .inl rfl | exact .inr ⟨by assumption, rfl⟩ | exact .inr ⟨by assumption, rfl, rfl, rfl, rfl, rfl, rfl⟩

theorem fr_pushItem (p : ℕ) (c : ℕ) (i : Item) (fpl : fp.lam = true) (hfr : Fr fp s0 s1) : Fr fp s0 (State.pushItem s1 p c i) := by
  delta State.pushItem
  repeat' first
    | with_reducible assumption
    | with_reducible apply fr_setEp

theorem fr_spread (fpl : fp.lam = true) (hfr : Fr fp s0 s1) : Fr fp s0 (State.spread s1) := by
  delta State.spread
  repeat' first
    | with_reducible assumption
    | intro _
    | with_reducible apply fr_pushItem
    | with_reducible apply fr_foldl
    | (with_reducible refine fr_mk (by with_reducible assumption) ?_ ?_) <;> first | exact .inl rfl | exact .inr ⟨by assumption, rfl⟩ | exact .inr ⟨by assumption, rfl, rfl, rfl, rfl, rfl, rfl⟩
    | split

theorem fr_switchSource (src : ℕ) (fpl : fp.lam = true) (hfr : Fr fp s0 s1) : Fr fp s0 (State.switchSource s1 src) := by
  delta State.switchSource
  repeat' first
    | with_reducible assumption
    | intro _
    | with_reducible apply fr_wl
    | split

theorem fr_moveParent (sec : Bool) (cause : ℕ) (fpl : fp.lam = true) (hfr : Fr fp s0 s1) : Fr fp s0 (State.moveParent s1 sec cause) := by
  delta State.moveParent
  extract_lets x
  have hx : Fr fp s0 x := fr_spread fpl hfr
  clear_value x
  split
  all_goals repeat' first
    | with_reducible assumption
    | (intro x; (first | refine fr_cut (fp := fp) (s0 := s0) x ?_ (fun hx => ?_) | refine fr_cut (fp := fp) (s0 := s0) x.1 ?_ (fun hx => ?_) | refine fr_cut (fp := fp) (s0 := s0) x.2 ?_ (fun hx => ?_)); on_goal 1 => dsimp -zeta -zetaHave only [x])
    | intro _
    | lift_lets
    | with_reducible apply fr_spread
    | with_reducible apply fr_setEp
    | with_reducible apply fr_lamEmit
    | with_reducible apply fr_switchSource
    | with_reducible apply fr_wl
    | (with_reducible refine fr_mk (by with_reducible assumption) ?_ ?_) <;> first | exact .inl rfl | exact .inr ⟨by assumption, rfl⟩ | exact .inr ⟨by assumption, rfl, rfl, rfl, rfl, rfl, rfl⟩

theorem fr_opParentSet (sec : Bool) (fpl : fp.lam = true) (hfr : Fr fp s0 s1) : Fr fp s0 (State.opParentSet s1 sec).1 := by
  delta State.opParentSet
  repeat' first
    | with_reducible assumption
    | intro _
    | with_reducible apply fr_moveParent
    | split

theorem fr_execParentSet (h : CmdHdr) (sec : Bool) (fpl : fp.lam = true) (hfr : Fr fp s0 s1) : FrO fp s0 (execParentSet h sec s1) := by
  delta execParentSet
  repeat' first
    | with_reducible assumption
    | intro _
    | with_reducible apply FrO.next
    | with_reducible apply fr_opParentSet
    | with_reducible apply fr_cmdLam

theorem fr_emitFrame (p : ℕ) (f : Frame) (fpl : fp.lam = true) (hfr : Fr fp s0 s1) : Fr fp s0 (State.emitFrame s1 p f) := by
  delta State.emitFrame
  repeat' first
    | with_reducible assumption
    | with_reducible apply fr_setEp

theorem fr_ethAck (p : ℕ) (y2 : Option (ℕ × ℕ)) (fpl : fp.lam = true) (hfr : Fr fp s0 s1) : Fr fp s0 (State.ethAck s1 p y2) := by
  delta State.ethAck
  repeat' first
    | with_reducible assumption
    | intro _
    | with_reducible apply fr_setEp
    | split

theorem fr_ethCredit (p : ℕ) (y2 : Option (ℕ × ℕ)) (fpl : fp.lam = true) (hfr : Fr fp s0 s1) : Fr fp s0 (State.ethCredit s1 p y2) := by
  delta State.ethCredit
  repeat' first
    | with_reducible assumption
    | intro _
    | with_reducible apply fr_setEp
    | split

theorem fr_ethNak (p : ℕ) (c : ℕ) (v : ℕ) (fpl : fp.lam = true) (hfr : Fr fp s0 s1) : Fr fp s0 (State.ethNak s1 p c v) := by
  delta State.ethNak
  repeat' first
    | with_reducible assumption
    | intro _
    | with_reducible apply fr_setEp
    | split

theorem fr_failbackTry (fpl : fp.lam = true) (hfr : Fr fp s0 s1) : Fr fp s0 (State.failbackTry s1) := by
  delta State.failbackTry
  repeat' first
    | with_reducible assumption
    | intro _
    | with_reducible apply fr_moveParent
    | split

theorem fr_failover (p : ℕ) (cause : ℕ) (fpl : fp.lam = true) (hfr : Fr fp s0 s1) : Fr fp s0 (State.failover s1 p cause) := by
  delta State.failover
  repeat' first
    | with_reducible assumption
    | intro _
    | with_reducible apply fr_moveParent
    | split

theorem fr_freeFrames (fpl : fp.lam = true) (hfr : Fr fp s0 s1) : Fr fp s0 (State.freeFrames s1) := by
  delta State.freeFrames
  repeat' first
    | with_reducible assumption
    | intro _
    | with_reducible apply fr_setEp
    | with_reducible apply fr_foldl
    | split

theorem fr_setGate (p : ℕ) (e : ℕ) (t : ℕ) (fpl : fp.lam = true) (hfr : Fr fp s0 s1) : Fr fp s0 (State.setGate s1 p e t) := by
  delta State.setGate
  repeat' first
    | with_reducible assumption
    | with_reducible apply fr_setEp
    | with_reducible apply fr_wl

theorem fr_pickFrame (p : ℕ) (y1 : List (ℕ × Bool)) (fpl : fp.lam = true) (hfr : Fr fp s0 s1) : Fr fp s0 (State.pickFrame p y1 s1) := by
  induction y1 generalizing s1 with
  | nil => rw [State.pickFrame]; exact hfr
  | cons x l ih =>
    obtain ⟨x1, x2⟩ := x
    rw [State.pickFrame]
    split
    · exact ih hfr
    repeat' first
      | with_reducible assumption
      | with_reducible apply ih
      | intro _
      | with_reducible apply fr_setEp
      | with_reducible apply fr_emitFrame
      | with_reducible apply fr_il
      | with_reducible apply fr_ite

theorem fr_portLost (p : ℕ) (signal : Bool) (fpl : fp.lam = true) (hfr : Fr fp s0 s1) : Fr fp s0 (State.portLost s1 p signal) := by
  delta State.portLost
  repeat' first
    | with_reducible assumption
    | intro _
    | with_reducible apply fr_setEp
    | with_reducible apply fr_wl
    | split

theorem fr_execEthLinkFrameTx (p : ℕ) (fpl : fp.lam = true) (hfr : Fr fp s0 s1) : FrO fp s0 (execEthLinkFrameTx p s1) := by
  delta execEthLinkFrameTx
  repeat' first
    | with_reducible assumption
    | intro _
    | with_reducible apply FrO.next
    | with_reducible apply fr_emitFrame
    | split

theorem fr_execGateEntryChange (p : ℕ) (fpl : fp.lam = true) (hfr : Fr fp s0 s1) : FrO fp s0 (execGateEntryChange p s1) := by
  delta execGateEntryChange
  repeat' first
    | with_reducible assumption
    | (intro y; (first | have z : Option _ := y | have z : List _ := y); clear z; clear_value y)
    | intro _
    | with_reducible apply FrO.next
    | with_reducible apply fr_setGate
    | with_reducible apply frO_ite
    | split

theorem fr_execParentLos (p : ℕ) (fpl : fp.lam = true) (hfr : Fr fp s0 s1) : FrO fp s0 (execParentLos p s1) := by
  delta execParentLos
  repeat' first
    | with_reducible assumption
    | intro _
    | with_reducible apply FrO.next
    | with_reducible apply fr_portLost
    | with_reducible apply fr_failover
    | split

theorem fr_execEthFrameTx (p : ℕ) (fpl : fp.lam = true) (hfr : Fr fp s0 s1) : FrO fp s0 (execEthFrameTx p s1) := by
  delta execEthFrameTx
  repeat' first
    | with_reducible assumption
    | intro _
    | with_reducible apply FrO.next
    | with_reducible apply fr_pickFrame
    | with_reducible apply fr_spread
    | with_reducible apply fr_freeFrames
    | with_reducible apply frO_ite

theorem fr_execFailback (fpl : fp.lam = true) (hfr : Fr fp s0 s1) : FrO fp s0 (execFailback s1) := by
  delta execFailback
  repeat' first
    | with_reducible assumption
    | intro _
    | with_reducible apply FrO.next
    | with_reducible apply fr_il
    | with_reducible apply fr_failbackTry
    | (with_reducible refine fr_mk (by with_reducible assumption) ?_ ?_) <;> first | exact .inl rfl | exact .inr ⟨by assumption, rfl⟩ | exact .inr ⟨by assumption, rfl, rfl, rfl, rfl, rfl, rfl⟩
    | split

theorem fr_execPauseFrameRx (p : ℕ) (fpl : fp.lam = true) (hfr : Fr fp s0 s1) : FrO fp s0 (execPauseFrameRx p s1) := by
  delta execPauseFrameRx
  repeat' first
    | with_reducible assumption
    | intro _
    | with_reducible apply FrO.next
    | with_reducible apply fr_il
    | split

theorem fr_execParentChangeRx (p : ℕ) (r : Rec) (fpl : fp.lam = true) (hfr : Fr fp s0 s1) : FrO fp s0 (execParentChangeRx p r s1) := by
  delta execParentChangeRx
  repeat' first
    | with_reducible assumption
    | intro _
    | with_reducible apply FrO.next
    | with_reducible apply fr_parentChange
    | split

theorem fr_execFailbackAckTimeout (fpl : fp.lam = true) (hfr : Fr fp s0 s1) : FrO fp s0 (execFailbackAckTimeout s1) := by
  delta execFailbackAckTimeout
  repeat' first
    | with_reducible assumption
    | intro _
    | with_reducible apply FrO.next
    | with_reducible apply fr_moveParent
    | split

theorem fr_execLivenessTimeout (p : ℕ) (fpl : fp.lam = true) (hfr : Fr fp s0 s1) : FrO fp s0 (execLivenessTimeout p s1) := by
  delta execLivenessTimeout
  repeat' first
    | with_reducible assumption
    | intro _
    | with_reducible apply FrO.next
    | with_reducible apply fr_portLost
    | with_reducible apply fr_failover
    | split

theorem fr_execEthLinkFrameRx (p : ℕ) (f : Frame) (fpl : fp.lam = true) (hfr : Fr fp s0 s1) : FrO fp s0 (execEthLinkFrameRx p f s1) := by
  delta execEthLinkFrameRx
  repeat' first
    | with_reducible assumption
    | intro _
    | with_reducible apply FrO.next
    | with_reducible apply fr_ethCredit
    | with_reducible apply fr_epochAsk
    | with_reducible apply fr_ethAck
    | with_reducible apply fr_failbackTry
    | with_reducible apply fr_setEp
    | with_reducible apply fr_ethNak
    | with_reducible apply fr_wl
    | split

end Sys2Proof.Machine
end

