-- ==== Sys2Proof/Laws/FrForestScore.lean ====
section
/-! SUPPORT. What each operation of Machine/ForestScore.lean can change, in the form of Laws/Frame.lean. -/

set_option linter.unusedTactic false
set_option linter.unreachableTactic false

namespace Sys2Proof.Machine

variable {fp : Parts} {s0 s1 : State}

theorem fr_roughly (x : Fp) (a : Fp) (free : Bool) (hfr : Fr fp s0 s1) : Fr fp s0 (State.roughly s1 x a free).1 := by
  delta State.roughly
  repeat' first
    | with_reducible apply fr_free
    | (with_reducible refine fr_mk (by with_reducible assumption) ?_ ?_) <;> first | exact .inl rfl | exact .inr ⟨by assumption, rfl⟩ | exact .inr ⟨by assumption, rfl, rfl, rfl, rfl, rfl, rfl⟩

theorem fr_score (m : Img) (v : FVec) (o : ℕ) (shadow : Bool) (free : Bool) (hfr : Fr fp s0 s1) : Fr fp s0 (State.score s1 m v o shadow free).1 := by
  delta State.score
  repeat' first
    | with_reducible apply fr_roughly
    | (with_reducible refine fr_mk (by with_reducible assumption) ?_ ?_) <;> first | exact .inl rfl | exact .inr ⟨by assumption, rfl⟩ | exact .inr ⟨by assumption, rfl, rfl, rfl, rfl, rfl, rfl⟩

theorem fr_scores (m : Img) (v : FVec) (shadow : Bool) (free : Bool) (y5 : ℕ) (hfr : Fr fp s0 s1) : Fr fp s0 (State.scores s1 m v shadow free y5).1 := by
  induction y5 with
  | zero => exact hfr
  | succ n ih =>
    rw [State.scores]
    repeat' first
      | with_reducible apply ih
      | with_reducible apply fr_score

end Sys2Proof.Machine
end

