-- ==== Sys2Proof/Laws/FrPd.lean ====
section
/-! SUPPORT. What each operation of Machine/Pd.lean can change, in the form of Laws/Frame.lean. -/

set_option linter.unusedTactic false
set_option linter.unreachableTactic false

namespace Sys2Proof.Machine

variable {fp : Parts} {s0 s1 : State}

theorem fr_pdRetarget (fpl : fp.lam = true) (hfr : Fr fp s0 s1) : Fr fp s0 (State.pdRetarget s1) := by
  delta State.pdRetarget
  repeat' first
    | with_reducible assumption
    | intro _
    | with_reducible apply fr_wl
    | (with_reducible refine fr_mk (by with_reducible assumption) ?_ ?_) <;> first | exact .inl rfl | exact .inr ⟨by assumption, rfl⟩ | exact .inr ⟨by assumption, rfl, rfl, rfl, rfl, rfl, rfl⟩
    | split

end Sys2Proof.Machine
end

