-- ==== Sys2Proof/Laws/FrForest.lean ====
section
/-! SUPPORT. What each operation of Machine/Forest.lean can change, in the form of Laws/Frame.lean. -/

set_option linter.unusedTactic false
set_option linter.unreachableTactic false

namespace Sys2Proof.Machine

variable {fp : Parts} {s0 s1 : State}

theorem fr_fstQuarters (v : ℕ) (fpl : fp.lam = true) (hfr : Fr fp s0 s1) : Fr fp s0 (State.fstQuarters s1 v) := by
  delta State.fstQuarters
  repeat' first
    | with_reducible assumption
    | intro _
    | with_reducible apply fr_pdRetarget
    | with_reducible apply fr_wl
    | with_reducible apply fr_ite

theorem fr_forestEvent (i : ℕ) (cause : ℕ) (kind : ℕ) (old : ℕ) (count : ℕ) (shadow : optParam (List ℕ) [0, 0, 0, 0]) (out : optParam ℕ 0) (fpl : fp.lam = true) (hfr : Fr fp s0 s1) : Fr fp s0 (State.forestEvent s1 i cause kind old count shadow out) := by
  delta State.forestEvent
  repeat' first
    | with_reducible assumption
    | with_reducible apply fr_lamEmit

theorem fr_fstResume (i : ℕ) (fpl : fp.lam = true) (hfr : Fr fp s0 s1) : Fr fp s0 (State.fstResume s1 i) := by
  delta State.fstResume
  repeat' first
    | with_reducible assumption
    | intro _
    | with_reducible apply fr_forestEvent
    | with_reducible apply fr_wl
    | split

theorem fr_setFslot (i : ℕ) (f : FSlot) (fpl : fp.lam = true) (hfr : Fr fp s0 s1) : Fr fp s0 (State.setFslot s1 i f) := by
  delta State.setFslot
  repeat' first
    | (with_reducible refine fr_mk (by with_reducible assumption) ?_ ?_) <;> first | exact .inl rfl | exact .inr ⟨by assumption, rfl⟩ | exact .inr ⟨by assumption, rfl, rfl, rfl, rfl, rfl, rfl⟩

theorem fr_makeVec (i : ℕ) (subj : ℕ) (k : Tracker) (own : Option ℕ) (l : FLatch) (r : Regs) (b : FBank) (swaps : ℕ) (fpl : fp.lam = true) (hfr : Fr fp s0 s1) : Fr fp s0 (State.makeVec s1 i subj k own l r b swaps) := by
  delta State.makeVec
  repeat' first
    | with_reducible assumption
    | intro _
    | with_reducible apply fr_il
    | with_reducible apply fr_setFslot
    | with_reducible apply fr_wl
    | with_reducible apply fr_ite

theorem fr_formVec (i : ℕ) (scope : ℕ) (subj : ℕ) (k : Tracker) (own : Option ℕ) (l : FLatch) (fpl : fp.lam = true) (hfr : Fr fp s0 s1) : Fr fp s0 (State.formVec s1 i scope subj k own l) := by
  delta State.formVec
  repeat' first
    | with_reducible assumption
    | intro _
    | with_reducible apply fr_il
    | with_reducible apply fr_makeVec
    | with_reducible apply fr_ite
    | split

theorem fr_forestStream (j : ℕ) (l : FLatch) (fpl : fp.lam = true) (hfr : Fr fp s0 s1) : Fr fp s0 (State.forestStream s1 j l) := by
  delta State.forestStream
  repeat' first
    | with_reducible assumption
    | intro _
    | with_reducible apply fr_formVec
    | with_reducible apply fr_foldl

theorem fr_setLatchOf (q : ℕ) (l : FLatch) (fpl : fp.lam = true) (hfr : Fr fp s0 s1) : Fr fp s0 (State.setLatchOf s1 q l) := by
  delta State.setLatchOf
  repeat' first
    | (with_reducible refine fr_mk (by with_reducible assumption) ?_ ?_) <;> first | exact .inl rfl | exact .inr ⟨by assumption, rfl⟩ | exact .inr ⟨by assumption, rfl, rfl, rfl, rfl, rfl, rfl⟩

theorem fr_forestDie (q : ℕ) (l : FLatch) (fpl : fp.lam = true) (hfr : Fr fp s0 s1) : Fr fp s0 (State.forestDie s1 q l) := by
  delta State.forestDie
  repeat' first
    | with_reducible assumption
    | intro _
    | with_reducible apply fr_formVec
    | with_reducible apply fr_foldl
    | split

theorem fr_forestBlock (q : ℕ) (b : ℕ) (l : FLatch) (fpl : fp.lam = true) (hfr : Fr fp s0 s1) : Fr fp s0 (State.forestBlock s1 q b l) := by
  delta State.forestBlock
  repeat' first
    | with_reducible assumption
    | intro _
    | with_reducible apply fr_setLatchOf
    | with_reducible apply fr_forestDie
    | split

theorem fr_forestLatch (q : ℕ) (l : FLatch) (fpl : fp.lam = true) (hfr : Fr fp s0 s1) : Fr fp s0 (State.forestLatch s1 q l) := by
  delta State.forestLatch
  repeat' first
    | with_reducible assumption
    | intro _
    | with_reducible apply fr_setLatchOf
    | with_reducible apply fr_forestDie
    | split

theorem fr_opForestLoad (i : ℕ) (base : ℕ) (len : ℕ) (fpl : fp.lam = true) (hfr : Fr fp s0 s1) : Fr fp s0 (State.opForestLoad s1 i base len).1 := by
  delta State.opForestLoad
  repeat' first
    | with_reducible assumption
    | intro _
    | with_reducible apply fr_setFslot
    | with_reducible apply fr_wl
    | with_reducible apply fr_ite_fst

theorem fr_execForestLoad (h : CmdHdr) (slot : ℕ) (base : ℕ) (len : ℕ) (fpl : fp.lam = true) (hfr : Fr fp s0 s1) : FrO fp s0 (execForestLoad h slot base len s1) := by
  delta execForestLoad
  repeat' first
    | with_reducible assumption
    | intro _
    | with_reducible apply FrO.next
    | with_reducible apply fr_opForestLoad
    | with_reducible apply fr_cmdLam

theorem fr_forestCommit (i : ℕ) (sw : ℕ) (c : ℕ) (fpl : fp.lam = true) (hfr : Fr fp s0 s1) : Fr fp s0 (State.forestCommit s1 i sw c) := by
  delta State.forestCommit
  repeat' first
    | with_reducible assumption
    | intro _
    | with_reducible apply fr_setFslot
    | with_reducible apply fr_forestEvent
    | with_reducible apply fr_wl
    | split

theorem fr_suspend (i : ℕ) (count : ℕ) (fpl : fp.lam = true) (hfr : Fr fp s0 s1) : Fr fp s0 (State.suspend s1 i count) := by
  delta State.suspend
  repeat' first
    | with_reducible assumption
    | with_reducible apply fr_forestEvent
    | with_reducible apply fr_wl

theorem fr_disagree (i : ℕ) (b : FBank) (x : FVec) (out : ℕ) (score : ℕ) (shadow : ℕ) (allowed : Fp) (fpl : fp.lam = true) (hfr : Fr fp s0 s1) : Fr fp s0 (State.disagree s1 i b x out score shadow allowed) := by
  delta State.disagree
  repeat' first
    | with_reducible assumption
    | intro _
    | with_reducible apply fr_il
    | with_reducible apply fr_setFslot
    | with_reducible apply fr_suspend
    | with_reducible apply fr_forestEvent
    | with_reducible apply fr_wl
    | with_reducible apply fr_ite

theorem fr_forestVerdict (i : ℕ) (b : FBank) (x : FVec) (flag : ℕ) (changed : ℕ) (near : ℕ) (scores : List (ℕ × ℕ)) (fpl : fp.lam = true) (hfr : Fr fp s0 s1) : Fr fp s0 (State.forestVerdict s1 i b x flag changed near scores) := by
  delta State.forestVerdict
  repeat' first
    | with_reducible assumption
    | with_reducible apply fr_lamEmit

theorem fr_nextSeg (fpl : fp.lam = true) (hfr : Fr fp s0 s1) : Fr fp s0 (State.nextSeg s1).2 := by
  delta State.nextSeg
  repeat' first
    | with_reducible assumption
    | intro _
    | lift_lets
    | with_reducible apply fr_setFslot
    | with_reducible apply fr_foldl
    | split

theorem fr_pickSeg (fpl : fp.lam = true) (hfr : Fr fp s0 s1) : Fr fp s0 s1.pickSeg := by
  unfold State.pickSeg
  split
  · exact hfr
  · split
    · next h =>
      have hn := fr_nextSeg fpl hfr
      rw [h] at hn
      refine fr_ite (fun _ => ?_) (fun _ => hfr)
      exact fr_mk hn (.inl rfl) (.inr ⟨fpl, rfl, rfl, rfl, rfl, rfl, rfl⟩)
    · exact hfr

theorem fr_repin (fpl : fp.lam = true) (hfr : Fr fp s0 s1) : Fr fp s0 (State.repin s1) := by
  delta State.repin
  repeat' first
    | with_reducible assumption
    | intro _
    | with_reducible apply fr_setFslot
    | with_reducible apply fr_wl
    | with_reducible apply fr_foldl
    | split

theorem fr_rescore (i : ℕ) (b : FBank) (x : FVec) (scores : List (ℕ × ℕ)) (free : Bool) (fpl : fp.lam = true) (hfr : Fr fp s0 s1) : Fr fp s0 (State.rescore s1 i b x scores free) := by
  delta State.rescore
  repeat' first
    | with_reducible assumption
    | intro _
    | lift_lets
    | with_reducible apply fr_il
    | with_reducible apply fr_disagree
    | with_reducible apply fr_scores
    | split

theorem fr_setVstate (i : ℕ) (subj : ℕ) (v : VState) (fpl : fp.lam = true) (fpd : fp.ddr = true) (hfr : Fr fp s0 s1) : Fr fp s0 (State.setVstate s1 i subj v) := by
  delta State.setVstate
  repeat' first
    | with_reducible assumption
    | intro _
    | with_reducible apply fr_ddrPut
    | with_reducible apply fr_ite

theorem fr_scoreVec (i : ℕ) (b : FBank) (free : Bool) (x : FVec) (fpl : fp.lam = true) (fpd : fp.ddr = true) (hfr : Fr fp s0 s1) : Fr fp s0 (State.scoreVec s1 i b free x) := by
  delta State.scoreVec
  repeat' first
    | with_reducible assumption
    | intro _
    | with_reducible apply fr_il
    | with_reducible apply fr_setVstate
    | with_reducible apply fr_scores
    | with_reducible apply fr_rescore
    | with_reducible apply fr_forestVerdict
    | with_reducible apply fr_ite

theorem fr_execFstResumeWrite (iss : Issuer) (v : ℕ) (fpl : fp.lam = true) (hfr : Fr fp s0 s1) : FrO fp s0 (execFstResumeWrite iss v s1) := by
  delta execFstResumeWrite
  repeat' first
    | with_reducible assumption
    | intro _
    | with_reducible apply FrO.next
    | with_reducible apply fr_fstResume
    | with_reducible apply fr_lamGuard
    | with_reducible apply frO_ite

theorem fr_execForestPassEnd (slot : ℕ) (fpl : fp.lam = true) (fpd : fp.ddr = true) (hfr : Fr fp s0 s1) : FrO fp s0 (execForestPassEnd slot s1) := by
  delta execForestPassEnd
  repeat' first
    | with_reducible assumption
    | intro _
    | with_reducible apply FrO.next
    | with_reducible apply fr_scoreVec
    | with_reducible apply fr_setFslot
    | with_reducible apply fr_pickSeg
    | with_reducible apply fr_foldl
    | split

theorem fr_execVectorAgeOut (slot : ℕ) (fpl : fp.lam = true) (hfr : Fr fp s0 s1) : FrO fp s0 (execVectorAgeOut slot s1) := by
  delta execVectorAgeOut
  repeat' first
    | with_reducible assumption
    | with_reducible apply FrO.next
    | with_reducible apply fr_il
    | with_reducible apply fr_setFslot

theorem fr_execForestSegmentEnd (slot : ℕ) (cycles : ℕ) (fpl : fp.lam = true) (hfr : Fr fp s0 s1) : FrO fp s0 (execForestSegmentEnd slot cycles s1) := by
  delta execForestSegmentEnd
  repeat' first
    | with_reducible assumption
    | (intro x; (first | refine fr_cut (fp := fp) (s0 := s0) x ?_ (fun hx => ?_) | refine fr_cut (fp := fp) (s0 := s0) x.1 ?_ (fun hx => ?_) | refine fr_cut (fp := fp) (s0 := s0) x.2 ?_ (fun hx => ?_)); on_goal 1 => dsimp -zeta -zetaHave only [x])
    | intro _
    | lift_lets
    | with_reducible apply FrO.next
    | with_reducible apply fr_setFslot
    | with_reducible apply fr_pickSeg
    | (with_reducible refine fr_mk (by with_reducible assumption) ?_ ?_) <;> first | exact .inl rfl | exact .inr ⟨by assumption, rfl⟩ | exact .inr ⟨by assumption, rfl, rfl, rfl, rfl, rfl, rfl⟩
    | split

theorem fr_execForestLoadDone (slot : ℕ) (poison : Bool) (fpl : fp.lam = true) (hfr : Fr fp s0 s1) : FrO fp s0 (execForestLoadDone slot poison s1) := by
  delta execForestLoadDone
  repeat' first
    | with_reducible assumption
    | intro _
    | with_reducible apply FrO.next
    | with_reducible apply fr_setFslot
    | with_reducible apply fr_wl
    | with_reducible apply frO_ite
    | split

theorem fr_execFstCtlQuartersWrite (iss : Issuer) (v : ℕ) (fpl : fp.lam = true) (hfr : Fr fp s0 s1) : FrO fp s0 (execFstCtlQuartersWrite iss v s1) := by
  delta execFstCtlQuartersWrite
  repeat' first
    | with_reducible assumption
    | intro _
    | with_reducible apply FrO.next
    | with_reducible apply fr_fstQuarters
    | with_reducible apply fr_lamGuard
    | with_reducible apply frO_ite

theorem fr_execForestFault (slot : ℕ) (kind : ℕ) (fpl : fp.lam = true) (hfr : Fr fp s0 s1) : FrO fp s0 (execForestFault slot kind s1) := by
  delta execForestFault
  repeat' first
    | with_reducible assumption
    | (intro x; (first | refine fr_cut (fp := fp) (s0 := s0) x ?_ (fun hx => ?_) | refine fr_cut (fp := fp) (s0 := s0) x.1 ?_ (fun hx => ?_) | refine fr_cut (fp := fp) (s0 := s0) x.2 ?_ (fun hx => ?_)); on_goal 1 => dsimp -zeta -zetaHave only [x])
    | intro _
    | lift_lets
    | with_reducible apply FrO.next
    | with_reducible apply fr_il
    | with_reducible apply fr_setFslot
    | with_reducible apply fr_forestEvent
    | with_reducible apply fr_pickSeg
    | with_reducible apply fr_wl
    | (with_reducible refine fr_mk (by with_reducible assumption) ?_ ?_) <;> first | exact .inl rfl | exact .inr ⟨by assumption, rfl⟩ | exact .inr ⟨by assumption, rfl, rfl, rfl, rfl, rfl, rfl⟩
    | split

theorem fr_execForestBankRelease (slot : ℕ) (fpl : fp.lam = true) (hfr : Fr fp s0 s1) : FrO fp s0 (execForestBankRelease slot s1) := by
  delta execForestBankRelease
  repeat' first
    | with_reducible assumption
    | intro _
    | with_reducible apply FrO.next
    | with_reducible apply fr_setFslot
    | with_reducible apply fr_repin
    | split

theorem fr_execForestPassStart (slot : ℕ) (fpl : fp.lam = true) (hfr : Fr fp s0 s1) : FrO fp s0 (execForestPassStart slot s1) := by
  delta execForestPassStart
  repeat' first
    | with_reducible assumption
    | (intro x; (first | refine fr_cut (fp := fp) (s0 := s0) x ?_ (fun hx => ?_) | refine fr_cut (fp := fp) (s0 := s0) x.1 ?_ (fun hx => ?_) | refine fr_cut (fp := fp) (s0 := s0) x.2 ?_ (fun hx => ?_)); on_goal 1 => dsimp -zeta -zetaHave only [x])
    | (intro y; (first | have z : Option _ := y | have z : List _ := y); clear z; clear_value y)
    | intro _
    | lift_lets
    | with_reducible apply FrO.next
    | with_reducible apply fr_setFslot
    | with_reducible apply fr_nextSeg
    | (with_reducible refine fr_mk (by with_reducible assumption) ?_ ?_) <;> first | exact .inl rfl | exact .inr ⟨by assumption, rfl⟩ | exact .inr ⟨by assumption, rfl, rfl, rfl, rfl, rfl, rfl⟩
    | split

end Sys2Proof.Machine
end

