-- ==== Sys2Proof/Laws/FrGauntletL.lean ====
section
/-! SUPPORT. What each operation of Machine/GauntletL.lean can change, in the form of Laws/Frame.lean. -/

set_option linter.unusedTactic false
set_option linter.unreachableTactic false

namespace Sys2Proof.Machine

variable {fp : Parts} {s0 s1 : State}

theorem fr_setGntF (g : GntF) (fpl : fp.lam = true) (hfr : Fr fp s0 s1) : Fr fp s0 (State.setGntF s1 g) := by
  delta State.setGntF
  repeat' first
    | (with_reducible refine fr_mk (by with_reducible assumption) ?_ ?_) <;> first | exact .inl rfl | exact .inr ⟨by assumption, rfl⟩ | exact .inr ⟨by assumption, rfl, rfl, rfl, rfl, rfl, rfl⟩

theorem fr_pkgRelease (fpl : fp.lam = true) (hfr : Fr fp s0 s1) : Fr fp s0 (State.pkgRelease s1) := by
  delta State.pkgRelease
  repeat' first
    | with_reducible assumption
    | intro _
    | with_reducible apply fr_setGntF
    | with_reducible apply fr_wl
    | split

theorem fr_setGport (q : ℕ) (p : GPort) (fpl : fp.lam = true) (hfr : Fr fp s0 s1) : Fr fp s0 (State.setGport s1 q p) := by
  delta State.setGport
  repeat' first
    | with_reducible assumption
    | with_reducible apply fr_setGntF

theorem fr_testAtTray (q : ℕ) (r : Rec) (fpl : fp.lam = true) (hfr : Fr fp s0 s1) : Fr fp s0 (State.testAtTray s1 q r) := by
  delta State.testAtTray
  repeat' first
    | with_reducible assumption
    | intro _
    | with_reducible apply fr_il
    | with_reducible apply fr_pkgRelease
    | with_reducible apply fr_setGport
    | with_reducible apply fr_wl
    | with_reducible apply fr_ite
    | split

theorem fr_testAtCrown (r : Rec) (fpl : fp.lam = true) (fpd : fp.ddr = true) (hfr : Fr fp s0 s1) : Fr fp s0 (State.testAtCrown s1 r) := by
  delta State.testAtCrown
  repeat' first
    | with_reducible assumption
    | intro _
    | with_reducible apply fr_setPassed
    | with_reducible apply fr_clearSuspect
    | with_reducible apply fr_setSusp
    | with_reducible apply fr_markSuspect
    | with_reducible apply fr_suspectRec
    | with_reducible apply fr_ite
    | split

theorem fr_rejoinAtCrown (die : ℕ) (fpl : fp.lam = true) (fpd : fp.ddr = true) (hfr : Fr fp s0 s1) : Fr fp s0 (State.rejoinAtCrown s1 die) := by
  delta State.rejoinAtCrown
  repeat' first
    | with_reducible assumption
    | intro _
    | with_reducible apply fr_setSusp
    | with_reducible apply fr_ite

theorem fr_opGauntletLoad (base : ℕ) (len : ℕ) (fpl : fp.lam = true) (hfr : Fr fp s0 s1) : Fr fp s0 (State.opGauntletLoad s1 base len).1 := by
  delta State.opGauntletLoad
  repeat' first
    | with_reducible assumption
    | intro _
    | with_reducible apply fr_setGntF
    | with_reducible apply fr_wl
    | with_reducible apply fr_ite_fst

theorem fr_execGauntletLoad (h : CmdHdr) (base : ℕ) (len : ℕ) (fpl : fp.lam = true) (hfr : Fr fp s0 s1) : FrO fp s0 (execGauntletLoad h base len s1) := by
  delta execGauntletLoad
  repeat' first
    | with_reducible assumption
    | intro _
    | with_reducible apply FrO.next
    | with_reducible apply fr_opGauntletLoad
    | with_reducible apply fr_cmdLam

theorem fr_opGntSuspect (q : ℕ) (e : Susp) (fpl : fp.lam = true) (hfr : Fr fp s0 s1) : Fr fp s0 (State.opGntSuspect s1 q e).1 := by
  delta State.opGntSuspect
  repeat' first
    | with_reducible assumption
    | intro _
    | with_reducible apply fr_setGport
    | with_reducible apply fr_wl
    | split

theorem fr_execGntSuspect (h : CmdHdr) (port : ℕ) (entry : List ℕ) (fpl : fp.lam = true) (hfr : Fr fp s0 s1) : FrO fp s0 (execGntSuspect h port entry s1) := by
  delta execGntSuspect
  repeat' first
    | with_reducible assumption
    | intro _
    | with_reducible apply FrO.next
    | with_reducible apply fr_cmdLam
    | with_reducible apply fr_opGntSuspect

theorem fr_opGntPush (off : ℕ) (bs : List ℕ) (fpl : fp.lam = true) (fpd : fp.ddr = true) (hfr : Fr fp s0 s1) : Fr fp s0 (State.opGntPush s1 off bs).1 := by
  delta State.opGntPush
  repeat' first
    | with_reducible assumption
    | intro _
    | with_reducible apply fr_setGntF
    | with_reducible apply fr_ddrPut
    | with_reducible apply fr_wl
    | with_reducible apply fr_ite_fst

theorem fr_execGntPush (h : CmdHdr) (off : ℕ) (len : ℕ) (bs : List ℕ) (fpl : fp.lam = true) (fpd : fp.ddr = true) (hfr : Fr fp s0 s1) : FrO fp s0 (execGntPush h off len bs s1) := by
  delta execGntPush
  repeat' first
    | with_reducible assumption
    | intro _
    | with_reducible apply FrO.next
    | with_reducible apply fr_opGntPush
    | with_reducible apply fr_cmdLam
    | with_reducible apply fr_send
    | split

theorem fr_gntCommit (fpl : fp.lam = true) (hfr : Fr fp s0 s1) : Fr fp s0 (State.gntCommit s1) := by
  delta State.gntCommit
  repeat' first
    | with_reducible assumption
    | intro _
    | with_reducible apply fr_setGntF
    | with_reducible apply fr_sweepAlign
    | with_reducible apply fr_wl
    | with_reducible apply fr_foldl

theorem fr_countStep (q : ℕ) (digest : Bool) (digStep : ℕ) (fpl : fp.lam = true) (hfr : Fr fp s0 s1) : Fr fp s0 (State.countStep s1 q digest digStep) := by
  delta State.countStep
  repeat' first
    | with_reducible assumption
    | intro _
    | with_reducible apply fr_setGport
    | with_reducible apply fr_wl
    | with_reducible apply fr_ite

theorem fr_launch (q : ℕ) (item : ℕ) (m : Img) (retest : Bool) (fpl : fp.lam = true) (hfr : Fr fp s0 s1) : Fr fp s0 (State.launch s1 q item m retest) := by
  delta State.launch
  repeat' first
    | with_reducible assumption
    | intro _
    | with_reducible apply fr_il
    | with_reducible apply fr_setGport
    | with_reducible apply fr_dieCmd
    | with_reducible apply fr_setDet
    | with_reducible apply fr_foldl_fst

theorem fr_retestDue (q : ℕ) (fpl : fp.lam = true) (hfr : Fr fp s0 s1) : Fr fp s0 (State.retestDue s1 q) := by
  delta State.retestDue
  repeat' first
    | with_reducible assumption
    | intro _
    | with_reducible apply fr_wl
    | with_reducible apply fr_ite

theorem fr_schedule (q : ℕ) (idle : Bool) (fpl : fp.lam = true) (hfr : Fr fp s0 s1) : Fr fp s0 (State.schedule s1 q idle) := by
  delta State.schedule
  repeat' first
    | with_reducible assumption
    | (intro y; (first | have z : Option _ := y | have z : List _ := y); clear z; clear_value y)
    | intro _
    | lift_lets
    | with_reducible apply fr_il
    | with_reducible apply fr_launch
    | with_reducible apply fr_setGport
    | with_reducible apply fr_retestDue
    | with_reducible apply fr_wl
    | with_reducible apply fr_ite
    | split

theorem fr_pushPkg (m : Img) (fpl : fp.lam = true) (hfr : Fr fp s0 s1) : Fr fp s0 (State.pushPkg s1 m) := by
  delta State.pushPkg
  repeat' first
    | with_reducible assumption
    | intro _
    | with_reducible apply fr_cmdDown
    | with_reducible apply fr_foldl_fst

theorem fr_execPackageCheckDone (poison : Bool) (fpl : fp.lam = true) (fpd : fp.ddr = true) (hfr : Fr fp s0 s1) : FrO fp s0 (execPackageCheckDone poison s1) := by
  delta execPackageCheckDone
  repeat' first
    | with_reducible assumption
    | intro _
    | lift_lets
    | with_reducible apply FrO.next
    | with_reducible apply fr_setGntF
    | with_reducible apply fr_ddrPut
    | with_reducible apply fr_wl
    | with_reducible apply fr_pushPkg
    | split

theorem fr_execRetestAbandon (q : ℕ) (fpl : fp.lam = true) (hfr : Fr fp s0 s1) : FrO fp s0 (execRetestAbandon q s1) := by
  delta execRetestAbandon
  repeat' first
    | with_reducible assumption
    | intro _
    | lift_lets
    | with_reducible apply FrO.next
    | with_reducible apply fr_setGport
    | with_reducible apply fr_wl
    | split

end Sys2Proof.Machine
end

