-- ==== Sys2Proof/Laws/FrSampler.lean ====
section
/-! SUPPORT. What each operation of Machine/Sampler.lean can change, in the form of Laws/Frame.lean. -/

set_option linter.unusedTactic false
set_option linter.unreachableTactic false

namespace Sys2Proof.Machine

variable {fp : Parts} {s0 s1 : State}

theorem fr_setSmp (v : Smp) (fpi : fp.itu = true) (hfr : Fr fp s0 s1) : Fr fp s0 (State.setSmp s1 v) := by
  delta State.setSmp
  repeat' first
    | (with_reducible refine fr_mk (by with_reducible assumption) ?_ ?_) <;> first | exact .inl rfl | exact .inr ⟨by assumption, rfl⟩ | exact .inr ⟨by assumption, rfl, rfl, rfl, rfl, rfl, rfl⟩

theorem fr_setBlk (b : ℕ) (v : BlkAcct) (fpi : fp.itu = true) (hfr : Fr fp s0 s1) : Fr fp s0 (State.setBlk s1 b v) := by
  delta State.setBlk
  repeat' first
    | with_reducible assumption
    | with_reducible apply fr_setSmp

theorem fr_smpDiscard (r : Rec) (fpi : fp.itu = true) (hfr : Fr fp s0 s1) : Fr fp s0 (State.smpDiscard s1 r) := by
  delta State.smpDiscard
  repeat' first
    | with_reducible assumption
    | with_reducible apply fr_setBlk

theorem fr_clearCounters (fpi : fp.itu = true) (hfr : Fr fp s0 s1) : Fr fp s0 (State.clearCounters s1) := by
  delta State.clearCounters
  repeat' first
    | with_reducible assumption
    | with_reducible apply fr_setSmp

theorem fr_reopenBlocks (fpi : fp.itu = true) (hfr : Fr fp s0 s1) : Fr fp s0 (State.reopenBlocks s1) := by
  delta State.reopenBlocks
  repeat' first
    | with_reducible assumption
    | with_reducible apply fr_setSmp

theorem fr_setRun (v : Bool) (fpi : fp.itu = true) (hfr : Fr fp s0 s1) : Fr fp s0 (State.setRun s1 v) := by
  delta State.setRun
  repeat' first
    | with_reducible assumption
    | intro _
    | with_reducible apply fr_reopenBlocks
    | with_reducible apply fr_wi
    | split

theorem fr_writeCsel (i : ℕ) (data : ℕ) (fpi : fp.itu = true) (hfr : Fr fp s0 s1) : Fr fp s0 (State.writeCsel s1 i data) := by
  delta State.writeCsel
  repeat' first
    | with_reducible assumption
    | intro _
    | with_reducible apply fr_wi
    | with_reducible apply fr_setBlk
    | with_reducible apply fr_setSmp
    | with_reducible apply fr_ite

theorem fr_writeBlockCfg (b : ℕ) (data : ℕ) (fpi : fp.itu = true) (hfr : Fr fp s0 s1) : Fr fp s0 (State.writeBlockCfg s1 b data) := by
  delta State.writeBlockCfg
  repeat' first
    | with_reducible assumption
    | intro _
    | with_reducible apply fr_wi
    | with_reducible apply fr_setBlk
    | with_reducible apply fr_ite

theorem fr_setLatch (path : Path) (base : ℕ) (ws : List (ℕ × ℕ)) (t : ℕ) (hfr : Fr fp s0 s1) : Fr fp s0 (State.setLatch s1 path base ws t) := by
  delta State.setLatch
  repeat' first
    | (with_reducible refine fr_mk (by with_reducible assumption) ?_ ?_) <;> first | exact .inl rfl | exact .inr ⟨by assumption, rfl⟩ | exact .inr ⟨by assumption, rfl, rfl, rfl, rfl, rfl, rfl⟩

theorem fr_readCounterLo (path : Path) (hfr : Fr fp s0 s1) : Fr fp s0 (State.readCounterLo s1 path).2 := by
  delta State.readCounterLo
  repeat' first
    | with_reducible apply fr_setLatch
    | (with_reducible refine fr_mk (by with_reducible assumption) ?_ ?_) <;> first | exact .inl rfl | exact .inr ⟨by assumption, rfl⟩ | exact .inr ⟨by assumption, rfl, rfl, rfl, rfl, rfl, rfl⟩

theorem fr_smpCarry (r : Rec) (fpi : fp.itu = true) (hfr : Fr fp s0 s1) : Fr fp s0 (State.smpCarry s1 r).1 := by
  delta State.smpCarry
  repeat' first
    | with_reducible assumption
    | intro _
    | with_reducible apply fr_setBlk
    | with_reducible apply fr_ite_fst

theorem fr_smpCopy (b : ℕ) (fpi : fp.itu = true) (hfr : Fr fp s0 s1) : Fr fp s0 (State.smpCopy s1 b) := by
  delta State.smpCopy
  repeat' first
    | with_reducible assumption
    | with_reducible apply fr_setBlk
    | with_reducible apply fr_setSmp

theorem fr_smpSkip (b : ℕ) (fpi : fp.itu = true) (hfr : Fr fp s0 s1) : Fr fp s0 (State.smpSkip s1 b) := by
  delta State.smpSkip
  repeat' first
    | with_reducible assumption
    | with_reducible apply fr_setBlk

theorem fr_latch (b : ℕ) (n : ℕ) (t : ℕ) (fpi : fp.itu = true) (hfr : Fr fp s0 s1) : Fr fp s0 (State.latch s1 b n t) := by
  delta State.latch
  repeat' first
    | with_reducible assumption
    | intro _
    | with_reducible apply fr_smpCopy
    | with_reducible apply fr_ituQueue
    | with_reducible apply fr_ituAdmit
    | with_reducible apply fr_smpSkip
    | with_reducible apply fr_wi
    | with_reducible apply fr_setBlk
    | with_reducible apply fr_ii
    | with_reducible apply fr_ite

theorem fr_latchSlot (n : ℕ) (t : ℕ) (fpi : fp.itu = true) (hfr : Fr fp s0 s1) : Fr fp s0 (State.latchSlot s1 n t) := by
  delta State.latchSlot
  repeat' first
    | with_reducible assumption
    | intro _
    | with_reducible apply fr_latch
    | with_reducible apply fr_foldl
    | split

theorem fr_execCounterSelectWrite (iss : Issuer) (i : ℕ) (data : ℕ) (fpi : fp.itu = true) (hfr : Fr fp s0 s1) : FrO fp s0 (execCounterSelectWrite iss i data s1) := by
  delta execCounterSelectWrite
  repeat' first
    | with_reducible assumption
    | intro _
    | with_reducible apply FrO.next
    | with_reducible apply fr_ituGuard
    | with_reducible apply fr_writeCsel
    | with_reducible apply frO_ite

theorem fr_execCounterIncrement (taps : List (ℕ × ℕ)) (evts : List ℕ) (n : ℕ) (fpi : fp.itu = true) (hfr : Fr fp s0 s1) : FrO fp s0 (execCounterIncrement taps evts n s1) := by
  delta execCounterIncrement
  repeat' first
    | with_reducible assumption
    | intro _
    | with_reducible apply FrO.next
    | with_reducible apply fr_setSmp
    | with_reducible apply frO_ite
    | with_reducible apply fr_foldl

theorem fr_execSmpCtlClear (iss : Issuer) (fpi : fp.itu = true) (hfr : Fr fp s0 s1) : FrO fp s0 (execSmpCtlClear iss s1) := by
  delta execSmpCtlClear
  repeat' first
    | with_reducible assumption
    | intro _
    | with_reducible apply FrO.next
    | with_reducible apply fr_ituGuard
    | with_reducible apply fr_clearCounters
    | with_reducible apply frO_ite

theorem fr_execSmpRdLoRead (iss : Issuer) (fpi : fp.itu = true) (hfr : Fr fp s0 s1) : FrO fp s0 (execSmpRdLoRead iss s1) := by
  delta execSmpRdLoRead
  repeat' first
    | with_reducible assumption
    | (intro x; (first | refine fr_cut (fp := fp) (s0 := s0) x ?_ (fun hx => ?_) | refine fr_cut (fp := fp) (s0 := s0) x.1 ?_ (fun hx => ?_) | refine fr_cut (fp := fp) (s0 := s0) x.2 ?_ (fun hx => ?_)); on_goal 1 => dsimp -zeta -zetaHave only [x])
    | intro _
    | lift_lets
    | with_reducible apply FrO.next
    | with_reducible apply fr_ituGuard
    | with_reducible apply fr_readCounterLo
    | (with_reducible refine fr_mk (by with_reducible assumption) ?_ ?_) <;> first | exact .inl rfl | exact .inr ⟨by assumption, rfl⟩ | exact .inr ⟨by assumption, rfl, rfl, rfl, rfl, rfl, rfl⟩
    | split

theorem fr_execSmpCtlRunWrite (iss : Issuer) (v : Bool) (fpi : fp.itu = true) (hfr : Fr fp s0 s1) : FrO fp s0 (execSmpCtlRunWrite iss v s1) := by
  delta execSmpCtlRunWrite
  repeat' first
    | with_reducible assumption
    | intro _
    | with_reducible apply FrO.next
    | with_reducible apply fr_ituGuard
    | with_reducible apply fr_setRun
    | with_reducible apply frO_ite

theorem fr_execReadLatchExpiry (path : Path) (hfr : Fr fp s0 s1) : FrO fp s0 (execReadLatchExpiry path s1) := by
  delta execReadLatchExpiry
  repeat' first
    | with_reducible apply FrO.next
    | (with_reducible refine fr_mk (by with_reducible assumption) ?_ ?_) <;> first | exact .inl rfl | exact .inr ⟨by assumption, rfl⟩ | exact .inr ⟨by assumption, rfl, rfl, rfl, rfl, rfl, rfl⟩

end Sys2Proof.Machine
end

