-- ==== Sys2Proof/Laws/FrLinkCell.lean ====
section
/-! SUPPORT. What each operation of Machine/LinkCell.lean can change, in the form of Laws/Frame.lean. -/

set_option linter.unusedTactic false
set_option linter.unreachableTactic false

namespace Sys2Proof.Machine

variable {fp : Parts} {s0 s1 : State}

theorem fr_resync (sd : Sys2Proof.Side) (q : ℕ) (v : ℕ) (fpi : fp.itu = true) (fpl : fp.lam = true) (hfr : Fr fp s0 s1) : Fr fp s0 (State.resync s1 sd q v) := by
  delta State.resync
  repeat' first
    | with_reducible assumption
    | intro _
    | with_reducible apply fr_il
    | with_reducible apply fr_setLe
    | with_reducible apply fr_ite
    | split

theorem fr_takeCell (sd : Sys2Proof.Side) (q : ℕ) (v : ℕ) (first : ℕ) (payload : List ℕ) (fpi : fp.itu = true) (fpl : fp.lam = true) (hfr : Fr fp s0 s1) : Fr fp s0 (State.takeCell s1 sd q v first payload) := by
  delta State.takeCell
  repeat' first
    | with_reducible assumption
    | intro _
    | with_reducible apply fr_il
    | with_reducible apply fr_setLe
    | with_reducible apply fr_resync
    | split

theorem fr_cellRx (sd : Sys2Proof.Side) (q : ℕ) (o : List ℕ) (fpi : fp.itu = true) (fpl : fp.lam = true) (hfr : Fr fp s0 s1) : Fr fp s0 (State.cellRx s1 sd q o) := by
  delta State.cellRx
  repeat' first
    | with_reducible assumption
    | intro _
    | with_reducible apply fr_takeCell
    | with_reducible apply fr_setLe
    | with_reducible apply fr_resync
    | with_reducible apply fr_li
    | with_reducible apply fr_ite

theorem fr_feedCmd (sd : Sys2Proof.Side) (q : ℕ) (fpl : fp.lam = true) (hfr : Fr fp s0 s1) : Fr fp s0 (State.feedCmd s1 sd q) := by
  delta State.feedCmd
  repeat' first
    | with_reducible assumption
    | intro _
    | lift_lets
    | with_reducible apply fr_setPort
    | split

theorem fr_cellTx (sd : Sys2Proof.Side) (q : ℕ) (fpi : fp.itu = true) (fpl : fp.lam = true) (hfr : Fr fp s0 s1) : Fr fp s0 (State.cellTx s1 sd q) := by
  delta State.cellTx
  repeat' first
    | with_reducible assumption
    | intro _
    | lift_lets
    | with_reducible apply fr_setLe
    | with_reducible apply fr_feedCmd
    | with_reducible apply fr_li
    | split

theorem fr_takeGot (sd : Sys2Proof.Side) (q : ℕ) (vc : ℕ) (it : List ℕ) (fpi : fp.itu = true) (fpl : fp.lam = true) (hfr : Fr fp s0 s1) : Fr fp s0 (State.takeGot s1 sd q vc it) := by
  delta State.takeGot
  repeat' first
    | with_reducible assumption
    | with_reducible apply fr_setLe

theorem fr_dropStale (r : Rec) (fpi : fp.itu = true) (hfr : Fr fp s0 s1) : Fr fp s0 (State.dropStale s1 r) := by
  delta State.dropStale
  repeat' first
    | with_reducible assumption
    | intro _
    | with_reducible apply fr_wi
    | with_reducible apply fr_smpDiscard
    | with_reducible apply fr_ii
    | split

theorem fr_handRec (v : ℕ) (r : Rec) (fpi : fp.itu = true) (hfr : Fr fp s0 s1) : Fr fp s0 (State.handRec s1 v r) := by
  delta State.handRec
  repeat' first
    | with_reducible assumption
    | (intro x; (first | refine fr_cut (fp := fp) (s0 := s0) x ?_ (fun hx => ?_) | refine fr_cut (fp := fp) (s0 := s0) x.1 ?_ (fun hx => ?_) | refine fr_cut (fp := fp) (s0 := s0) x.2 ?_ (fun hx => ?_)); on_goal 1 => dsimp -zeta -zetaHave only [x])
    | intro _
    | lift_lets
    | with_reducible apply fr_smpCarry
    | with_reducible apply fr_ii
    | (with_reducible refine fr_mk (by with_reducible assumption) ?_ ?_) <;> first | exact .inl rfl | exact .inr ⟨by assumption, rfl⟩ | exact .inr ⟨by assumption, rfl, rfl, rfl, rfl, rfl, rfl⟩
    | split

theorem fr_handover (v : ℕ) (fpi : fp.itu = true) (hfr : Fr fp s0 s1) : Fr fp s0 (State.handover s1 v) := by
  delta State.handover
  repeat' first
    | with_reducible assumption
    | (intro x; (first | refine fr_cut (fp := fp) (s0 := s0) x ?_ (fun hx => ?_) | refine fr_cut (fp := fp) (s0 := s0) x.1 ?_ (fun hx => ?_) | refine fr_cut (fp := fp) (s0 := s0) x.2 ?_ (fun hx => ?_)); on_goal 1 => dsimp -zeta -zetaHave only [x])
    | (intro y; (first | have z : Option _ := y | have z : List _ := y); clear z; clear_value y)
    | intro _
    | lift_lets
    | with_reducible apply fr_dropStale
    | with_reducible apply fr_handRec
    | with_reducible apply fr_foldl
    | (with_reducible refine fr_mk (by with_reducible assumption) ?_ ?_) <;> first | exact .inl rfl | exact .inr ⟨by assumption, rfl⟩ | exact .inr ⟨by assumption, rfl, rfl, rfl, rfl, rfl, rfl⟩
    | split

theorem fr_execCellRx (sd : Sys2Proof.Side) (q : ℕ) (octets : List ℕ) (badBlocks : ℕ) (fpi : fp.itu = true) (fpl : fp.lam = true) (hfr : Fr fp s0 s1) : FrO fp s0 (execCellRx sd q octets badBlocks s1) := by
  delta execCellRx
  repeat' first
    | with_reducible assumption
    | intro _
    | with_reducible apply FrO.next
    | with_reducible apply fr_lkBlock
    | with_reducible apply fr_cellRx
    | with_reducible apply fr_li
    | split

theorem fr_execCellTx (sd : Sys2Proof.Side) (q : ℕ) (fpi : fp.itu = true) (fpl : fp.lam = true) (hfr : Fr fp s0 s1) : FrO fp s0 (execCellTx sd q s1) := by
  delta execCellTx
  repeat' first
    | with_reducible assumption
    | intro _
    | with_reducible apply FrO.next
    | with_reducible apply fr_cellTx
    | split

theorem fr_execLinkBlockTx (sd : Sys2Proof.Side) (q : ℕ) (kind : ℕ) (vc : ℕ) (fpi : fp.itu = true) (fpl : fp.lam = true) (hfr : Fr fp s0 s1) : FrO fp s0 (execLinkBlockTx sd q kind vc s1) := by
  delta execLinkBlockTx
  repeat' first
    | with_reducible assumption
    | intro _
    | with_reducible apply FrO.next
    | with_reducible apply fr_setLe
    | with_reducible apply frO_ite
    | split

theorem fr_execAckRx (sd : Sys2Proof.Side) (q : ℕ) (cseq : ℕ) (fpi : fp.itu = true) (fpl : fp.lam = true) (hfr : Fr fp s0 s1) : FrO fp s0 (execAckRx sd q cseq s1) := by
  delta execAckRx
  repeat' first
    | with_reducible assumption
    | intro _
    | with_reducible apply FrO.next
    | with_reducible apply fr_lkBlock
    | with_reducible apply fr_setLe
    | with_reducible apply frO_ite

theorem fr_execNakRx (sd : Sys2Proof.Side) (q : ℕ) (cseq : ℕ) (fpi : fp.itu = true) (fpl : fp.lam = true) (hfr : Fr fp s0 s1) : FrO fp s0 (execNakRx sd q cseq s1) := by
  delta execNakRx
  repeat' first
    | with_reducible assumption
    | intro _
    | with_reducible apply FrO.next
    | with_reducible apply fr_leaveUp
    | with_reducible apply fr_lkBlock
    | with_reducible apply fr_setLe
    | with_reducible apply frO_ite

theorem fr_execCreditRx (sd : Sys2Proof.Side) (q : ℕ) (vc : ℕ) (freed : ℕ) (fpi : fp.itu = true) (fpl : fp.lam = true) (hfr : Fr fp s0 s1) : FrO fp s0 (execCreditRx sd q vc freed s1) := by
  delta execCreditRx
  repeat' first
    | with_reducible assumption
    | intro _
    | with_reducible apply FrO.next
    | with_reducible apply fr_lkBlock
    | with_reducible apply fr_setLe
    | split

theorem fr_execRecordHandover (vc : ℕ) (fpi : fp.itu = true) (hfr : Fr fp s0 s1) : FrO fp s0 (execRecordHandover vc s1) := by
  delta execRecordHandover
  repeat' first
    | with_reducible assumption
    | intro _
    | with_reducible apply FrO.next
    | with_reducible apply fr_handover
    | split

end Sys2Proof.Machine
end

