-- ==== Sys2Proof/Laws/FrStcCore.lean ====
section
/-! SUPPORT. What each operation of Machine/StcCore.lean can change, in the form of Laws/Frame.lean. -/

set_option linter.unusedTactic false
set_option linter.unreachableTactic false

namespace Sys2Proof.Machine

variable {fp : Parts} {s0 s1 : State}

theorem fr_ix (sd : Sys2Proof.Side) (Fi : Fld) (Fl : Fld) (i : optParam ℕ 0) (fpi : fp.itu = true) (fpl : fp.lam = true) (hfr : Fr fp s0 s1) : Fr fp s0 (State.ix s1 sd Fi Fl i) := by
  delta State.ix
  repeat' first
    | with_reducible assumption
    | with_reducible apply fr_il
    | with_reducible apply fr_ii
    | split

theorem fr_setStc (sd : Sys2Proof.Side) (v : Stc) (fpi : fp.itu = true) (fpl : fp.lam = true) (hfr : Fr fp s0 s1) : Fr fp s0 (State.setStc s1 sd v) := by
  delta State.setStc
  repeat' first
    | (with_reducible refine fr_mk (by with_reducible assumption) ?_ ?_) <;> first | exact .inl rfl | exact .inr ⟨by assumption, rfl⟩ | exact .inr ⟨by assumption, rfl, rfl, rfl, rfl, rfl, rfl⟩
    | split

theorem fr_setCtx (sd : Sys2Proof.Side) (c : ℕ) (v : StcCtx) (fpi : fp.itu = true) (fpl : fp.lam = true) (hfr : Fr fp s0 s1) : Fr fp s0 (State.setCtx s1 sd c v) := by
  delta State.setCtx
  repeat' first
    | with_reducible assumption
    | with_reducible apply fr_setStc

theorem fr_setX (sd : Sys2Proof.Side) (c : ℕ) (n : ℕ) (v : ℕ) (fpi : fp.itu = true) (fpl : fp.lam = true) (hfr : Fr fp s0 s1) : Fr fp s0 (State.setX s1 sd c n v) := by
  delta State.setX
  repeat' first
    | with_reducible assumption
    | intro _
    | with_reducible apply fr_setCtx
    | split

theorem fr_wx (sd : Sys2Proof.Side) (Fi : Fld) (Fl : Fld) (v : ℕ) (i : optParam ℕ 0) (fpi : fp.itu = true) (fpl : fp.lam = true) (hfr : Fr fp s0 s1) : Fr fp s0 (State.wx s1 sd Fi Fl v i) := by
  delta State.wx
  repeat' first
    | with_reducible assumption
    | with_reducible apply fr_wi
    | with_reducible apply fr_wl
    | split

theorem fr_setCtxState (sd : Sys2Proof.Side) (c : ℕ) (v : ℕ) (fpi : fp.itu = true) (fpl : fp.lam = true) (hfr : Fr fp s0 s1) : Fr fp s0 (State.setCtxState s1 sd c v) := by
  delta State.setCtxState
  repeat' first
    | with_reducible assumption
    | with_reducible apply fr_wx

theorem fr_unwait (sd : Sys2Proof.Side) (c : ℕ) (fpi : fp.itu = true) (fpl : fp.lam = true) (hfr : Fr fp s0 s1) : Fr fp s0 (State.unwait s1 sd c) := by
  delta State.unwait
  repeat' first
    | with_reducible assumption
    | with_reducible apply fr_setStc
    | with_reducible apply fr_setCtx

theorem fr_stcFault (sd : Sys2Proof.Side) (c : ℕ) (cause : ℕ) (instr : ℕ) (fpi : fp.itu = true) (fpl : fp.lam = true) (hfr : Fr fp s0 s1) : Fr fp s0 (State.stcFault s1 sd c cause instr) := by
  delta State.stcFault
  repeat' first
    | with_reducible assumption
    | intro _
    | with_reducible apply fr_unwait
    | with_reducible apply fr_ituEmit
    | with_reducible apply fr_setCtxState
    | with_reducible apply fr_lamEmit
    | with_reducible apply fr_setCtx
    | with_reducible apply fr_wx
    | split

theorem fr_stcGoOn (sd : Sys2Proof.Side) (c : ℕ) (fpi : fp.itu = true) (fpl : fp.lam = true) (hfr : Fr fp s0 s1) : Fr fp s0 (State.stcGoOn s1 sd c) := by
  delta State.stcGoOn
  repeat' first
    | with_reducible assumption
    | intro _
    | with_reducible apply fr_ix
    | with_reducible apply fr_setCtxState
    | with_reducible apply fr_stcFault
    | with_reducible apply fr_free
    | split

theorem fr_stcResume (sd : Sys2Proof.Side) (c : ℕ) (fpi : fp.itu = true) (fpl : fp.lam = true) (hfr : Fr fp s0 s1) : Fr fp s0 (State.stcResume s1 sd c) := by
  delta State.stcResume
  repeat' first
    | with_reducible assumption
    | with_reducible apply fr_stcGoOn
    | with_reducible apply fr_unwait
    | with_reducible apply fr_setCtxState

theorem fr_setLast (sd : Sys2Proof.Side) (c : ℕ) (v : ℕ) (fpi : fp.itu = true) (fpl : fp.lam = true) (hfr : Fr fp s0 s1) : Fr fp s0 (State.setLast s1 sd c v) := by
  delta State.setLast
  repeat' first
    | with_reducible assumption
    | with_reducible apply fr_wx

theorem fr_slotFill (sd : Sys2Proof.Side) (n : ℕ) (v : ℕ) (fpi : fp.itu = true) (fpl : fp.lam = true) (hfr : Fr fp s0 s1) : Fr fp s0 (State.slotFill s1 sd n v) := by
  delta State.slotFill
  repeat' first
    | with_reducible assumption
    | with_reducible apply fr_setStc
    | with_reducible apply fr_wx

theorem fr_slotEmpty (sd : Sys2Proof.Side) (n : ℕ) (fpi : fp.itu = true) (fpl : fp.lam = true) (hfr : Fr fp s0 s1) : Fr fp s0 (State.slotEmpty s1 sd n) := by
  delta State.slotEmpty
  repeat' first
    | with_reducible assumption
    | with_reducible apply fr_wx

theorem fr_stcServe (sd : Sys2Proof.Side) (c : ℕ) (fpi : fp.itu = true) (fpl : fp.lam = true) (hfr : Fr fp s0 s1) : Fr fp s0 (State.stcServe s1 sd c) := by
  delta State.stcServe
  repeat' first
    | with_reducible assumption
    | intro _
    | with_reducible apply fr_setX
    | with_reducible apply fr_stcResume
    | with_reducible apply fr_setLast
    | with_reducible apply fr_slotFill
    | with_reducible apply fr_slotEmpty
    | split

theorem fr_stcServeAll (sd : Sys2Proof.Side) (y2 : ℕ) (fpi : fp.itu = true) (fpl : fp.lam = true) (hfr : Fr fp s0 s1) : Fr fp s0 (State.stcServeAll s1 sd y2) := by
  induction y2 generalizing s1 with
  | zero => exact hfr
  | succ n ih =>
    rw [State.stcServeAll]
    repeat' first
      | with_reducible assumption
      | with_reducible apply ih
      | intro _
      | with_reducible apply fr_stcServe
      | with_reducible apply fr_foldl

theorem fr_stcSettle (sd : Sys2Proof.Side) (fpi : fp.itu = true) (fpl : fp.lam = true) (hfr : Fr fp s0 s1) : Fr fp s0 (State.stcSettle s1 sd) := by
  delta State.stcSettle
  repeat' first
    | with_reducible assumption
    | with_reducible apply fr_stcServeAll

theorem fr_slotPush (sd : Sys2Proof.Side) (n : ℕ) (v : ℕ) (fpi : fp.itu = true) (fpl : fp.lam = true) (hfr : Fr fp s0 s1) : Fr fp s0 (State.slotPush s1 sd n v).2 := by
  delta State.slotPush
  repeat' first
    | with_reducible assumption
    | intro _
    | with_reducible apply fr_stcSettle
    | with_reducible apply fr_slotFill
    | split

theorem fr_stcRelease (p : ℕ) (fpi : fp.itu = true) (fpl : fp.lam = true) (hfr : Fr fp s0 s1) : Fr fp s0 (State.stcRelease s1 p) := by
  delta State.stcRelease
  repeat' first
    | with_reducible assumption
    | intro _
    | with_reducible apply fr_ituOffer
    | with_reducible apply fr_setCtx
    | with_reducible apply fr_foldl
    | split

theorem fr_stcOwnerReset (p : ℕ) (fpi : fp.itu = true) (fpl : fp.lam = true) (hfr : Fr fp s0 s1) : Fr fp s0 (State.stcOwnerReset s1 p) := by
  delta State.stcOwnerReset
  repeat' first
    | with_reducible assumption
    | intro _
    | with_reducible apply fr_stcFault
    | with_reducible apply fr_foldl
    | split

theorem fr_stcStop (sd : Sys2Proof.Side) (c : ℕ) (cause : ℕ) (fpi : fp.itu = true) (fpl : fp.lam = true) (hfr : Fr fp s0 s1) : Fr fp s0 (State.stcStop s1 sd c cause) := by
  delta State.stcStop
  repeat' first
    | with_reducible assumption
    | intro _
    | with_reducible apply fr_unwait
    | with_reducible apply fr_setCtxState
    | with_reducible apply fr_wx
    | split

theorem fr_stcDisable (sd : Sys2Proof.Side) (fpi : fp.itu = true) (fpl : fp.lam = true) (hfr : Fr fp s0 s1) : Fr fp s0 (State.stcDisable s1 sd) := by
  delta State.stcDisable
  repeat' first
    | with_reducible assumption
    | intro _
    | with_reducible apply fr_stcStop
    | with_reducible apply fr_foldl

theorem fr_setPc (sd : Sys2Proof.Side) (c : ℕ) (v : ℕ) (fpi : fp.itu = true) (fpl : fp.lam = true) (hfr : Fr fp s0 s1) : Fr fp s0 (State.setPc s1 sd c v) := by
  delta State.setPc
  repeat' first
    | with_reducible assumption
    | with_reducible apply fr_setCtx
    | with_reducible apply fr_wx

theorem fr_slotPop (sd : Sys2Proof.Side) (n : ℕ) (fpi : fp.itu = true) (fpl : fp.lam = true) (hfr : Fr fp s0 s1) : Fr fp s0 (State.slotPop s1 sd n).2 := by
  delta State.slotPop
  repeat' first
    | with_reducible assumption
    | intro _
    | with_reducible apply fr_stcSettle
    | with_reducible apply fr_slotEmpty
    | split

theorem fr_latchCount (y1 : Sys2Proof.Side) (hfr : Fr fp s0 s1) : Fr fp s0 (State.latchCount s1 y1).2 := by
  delta State.latchCount
  repeat' first
    | with_reducible apply fr_free
    | (with_reducible refine fr_mk (by with_reducible assumption) ?_ ?_) <;> first | exact .inl rfl | exact .inr ⟨by assumption, rfl⟩ | exact .inr ⟨by assumption, rfl, rfl, rfl, rfl, rfl, rfl⟩
    | split

theorem fr_stcMatch (sd : Sys2Proof.Side) (c : ℕ) (t : ℕ) (n : ℕ) (fpi : fp.itu = true) (fpl : fp.lam = true) (hfr : Fr fp s0 s1) : Fr fp s0 (State.stcMatch s1 sd c t n) := by
  delta State.stcMatch
  repeat' first
    | with_reducible assumption
    | intro _
    | with_reducible apply fr_latchCount
    | with_reducible apply fr_setCtx
    | with_reducible apply fr_ite
    | split

theorem fr_stcRefill (sd : Sys2Proof.Side) (c : ℕ) (fpi : fp.itu = true) (fpl : fp.lam = true) (hfr : Fr fp s0 s1) : Fr fp s0 (State.stcRefill s1 sd c) := by
  delta State.stcRefill
  repeat' first
    | with_reducible assumption
    | intro _
    | with_reducible apply fr_setCtxState
    | with_reducible apply fr_setCtx
    | with_reducible apply fr_ite

theorem fr_stcBoundary (sd : Sys2Proof.Side) (t : ℕ) (n : ℕ) (fpi : fp.itu = true) (fpl : fp.lam = true) (hfr : Fr fp s0 s1) : Fr fp s0 (State.stcBoundary s1 sd t n) := by
  delta State.stcBoundary
  repeat' first
    | with_reducible assumption
    | intro _
    | with_reducible apply fr_stcMatch
    | with_reducible apply fr_stcRefill
    | with_reducible apply fr_foldl

theorem fr_execBudgetRefill (sd : Sys2Proof.Side) (c : ℕ) (fpi : fp.itu = true) (fpl : fp.lam = true) (hfr : Fr fp s0 s1) : FrO fp s0 (execBudgetRefill sd c s1) := by
  delta execBudgetRefill
  repeat' first
    | with_reducible assumption
    | intro _
    | with_reducible apply FrO.next
    | with_reducible apply fr_stcRefill
    | split

theorem fr_execWaitsRelease (sd : Sys2Proof.Side) (c : ℕ) (fpi : fp.itu = true) (fpl : fp.lam = true) (hfr : Fr fp s0 s1) : FrO fp s0 (execWaitsRelease sd c s1) := by
  delta execWaitsRelease
  repeat' first
    | with_reducible assumption
    | intro _
    | with_reducible apply FrO.next
    | with_reducible apply fr_stcResume
    | with_reducible apply fr_setCtx
    | split

theorem fr_execSlotWaitTimeout (sd : Sys2Proof.Side) (c : ℕ) (fpi : fp.itu = true) (fpl : fp.lam = true) (hfr : Fr fp s0 s1) : FrO fp s0 (execSlotWaitTimeout sd c s1) := by
  delta execSlotWaitTimeout
  repeat' first
    | with_reducible assumption
    | intro _
    | with_reducible apply FrO.next
    | with_reducible apply fr_ix
    | with_reducible apply fr_setX
    | with_reducible apply fr_stcResume
    | with_reducible apply fr_setLast
    | with_reducible apply frO_ite
    | split

theorem fr_execWaittRelease (sd : Sys2Proof.Side) (c : ℕ) (fpi : fp.itu = true) (fpl : fp.lam = true) (hfr : Fr fp s0 s1) : FrO fp s0 (execWaittRelease sd c s1) := by
  delta execWaittRelease
  repeat' first
    | with_reducible assumption
    | intro _
    | with_reducible apply FrO.next
    | with_reducible apply fr_stcResume
    | with_reducible apply fr_setLast
    | split

end Sys2Proof.Machine
end

