-- ==== Sys2Proof/Laws/FrStcLoad.lean ====
section
/-! SUPPORT. What each operation of Machine/StcLoad.lean can change, in the form of Laws/Frame.lean. -/

set_option linter.unusedTactic false
set_option linter.unreachableTactic false

namespace Sys2Proof.Machine

variable {fp : Parts} {s0 s1 : State}

theorem fr_writeSlotHi (sd : Sys2Proof.Side) (path : Path) (n : ℕ) (data : ℕ) (fpi : fp.itu = true) (fpl : fp.lam = true) (hfr : Fr fp s0 s1) : Fr fp s0 (State.writeSlotHi s1 sd path n data) := by
  delta State.writeSlotHi
  repeat' first
    | with_reducible assumption
    | intro _
    | with_reducible apply fr_ix
    | with_reducible apply fr_dropHold
    | with_reducible apply fr_slotPush
    | with_reducible apply fr_ite

theorem fr_stcStopMask (sd : Sys2Proof.Side) (mask : ℕ) (fpi : fp.itu = true) (fpl : fp.lam = true) (hfr : Fr fp s0 s1) : Fr fp s0 (State.stcStopMask s1 sd mask) := by
  delta State.stcStopMask
  repeat' first
    | with_reducible assumption
    | intro _
    | with_reducible apply fr_stcStop
    | with_reducible apply fr_foldl
    | split

theorem fr_setStcEnable (v : ℕ) (fpi : fp.itu = true) (fpl : fp.lam = true) (hfr : Fr fp s0 s1) : Fr fp s0 (State.setStcEnable s1 v) := by
  delta State.setStcEnable
  repeat' first
    | with_reducible assumption
    | intro _
    | with_reducible apply fr_stcDisable
    | with_reducible apply fr_wl
    | split

theorem fr_cmdStc (h : CmdHdr) (isLam : Bool) (op : State → State × CmdRes) (fpi : fp.itu = true) (fpl : fp.lam = true) (hop : ∀ x0, Fr fp s0 x0 → Fr fp s0 (op x0).1) (hfr : Fr fp s0 s1) : Fr fp s0 (State.cmdStc s1 h isLam op) := by
  delta State.cmdStc
  repeat' first
    | with_reducible assumption
    | intro _
    | with_reducible apply fr_cmdItu
    | with_reducible apply fr_cmdLam
    | split

theorem fr_opStitchStop (sd : Sys2Proof.Side) (c : ℕ) (fpi : fp.itu = true) (fpl : fp.lam = true) (hfr : Fr fp s0 s1) : Fr fp s0 (State.opStitchStop s1 sd c).1 := by
  delta State.opStitchStop
  repeat' first
    | with_reducible assumption
    | intro _
    | with_reducible apply fr_stcStop
    | split

theorem fr_execStitchStop (h : CmdHdr) (c : ℕ) (isLam : Bool) (fpi : fp.itu = true) (fpl : fp.lam = true) (hfr : Fr fp s0 s1) : FrO fp s0 (execStitchStop h c isLam s1) := by
  delta execStitchStop
  repeat' first
    | with_reducible assumption
    | intro _
    | with_reducible apply FrO.next
    | with_reducible apply fr_cmdStc
    | with_reducible apply fr_opStitchStop

theorem fr_stcInstall (sd : Sys2Proof.Side) (c : ℕ) (a : ℕ) (m : StcImage) (fpi : fp.itu = true) (fpl : fp.lam = true) (hfr : Fr fp s0 s1) : Fr fp s0 (State.stcInstall s1 sd c a m) := by
  delta State.stcInstall
  repeat' first
    | with_reducible assumption
    | with_reducible apply fr_setCtxState
    | with_reducible apply fr_setStc
    | with_reducible apply fr_setCtx
    | with_reducible apply fr_wx

theorem fr_stcStart (sd : Sys2Proof.Side) (c : ℕ) (fpi : fp.itu = true) (fpl : fp.lam = true) (hfr : Fr fp s0 s1) : Fr fp s0 (State.stcStart s1 sd c) := by
  delta State.stcStart
  repeat' first
    | with_reducible assumption
    | with_reducible apply fr_stcGoOn
    | with_reducible apply fr_unwait
    | with_reducible apply fr_setCtxState
    | with_reducible apply fr_setLast
    | with_reducible apply fr_setPc
    | with_reducible apply fr_setCtx

theorem fr_opStitchLoad (sd : Sys2Proof.Side) (c : ℕ) (start : Bool) (off : ℕ) (fpi : fp.itu = true) (fpl : fp.lam = true) (hfr : Fr fp s0 s1) : Fr fp s0 (State.opStitchLoad s1 sd c start off).1 := by
  delta State.opStitchLoad
  repeat' first
    | with_reducible assumption
    | intro _
    | with_reducible apply fr_stcInstall
    | with_reducible apply fr_stcStart
    | with_reducible apply fr_ite_fst
    | split

theorem fr_execStitchLoad (h : CmdHdr) (c : ℕ) (isLam : Bool) (start : Bool) (off : ℕ) (fpi : fp.itu = true) (fpl : fp.lam = true) (hfr : Fr fp s0 s1) : FrO fp s0 (execStitchLoad h c isLam start off s1) := by
  delta execStitchLoad
  repeat' first
    | with_reducible assumption
    | intro _
    | with_reducible apply FrO.next
    | with_reducible apply fr_cmdLam
    | with_reducible apply fr_opStitchLoad

theorem fr_readSlotLo (sd : Sys2Proof.Side) (path : Path) (n : Nat) (fpi : fp.itu = true) (fpl : fp.lam = true) (hfr : Fr fp s0 s1) :
    Fr fp s0 (s1.readSlotLo sd path n).2 := by
  unfold State.readSlotLo
  have hp := fr_slotPop sd n fpi fpl hfr
  split
  · next h => rw [h] at hp; exact fr_setLatch _ _ _ _ hp
  · next h => rw [h] at hp; exact (by apply fr_ix <;> assumption)

theorem fr_opStitchStart (sd : Sys2Proof.Side) (c : ℕ) (fpi : fp.itu = true) (fpl : fp.lam = true) (hfr : Fr fp s0 s1) : Fr fp s0 (State.opStitchStart s1 sd c).1 := by
  delta State.opStitchStart
  repeat' first
    | with_reducible assumption
    | intro _
    | with_reducible apply fr_stcStart
    | split

theorem fr_execStitchStart (h : CmdHdr) (c : ℕ) (isLam : Bool) (fpi : fp.itu = true) (fpl : fp.lam = true) (hfr : Fr fp s0 s1) : FrO fp s0 (execStitchStart h c isLam s1) := by
  delta execStitchStart
  repeat' first
    | with_reducible assumption
    | intro _
    | with_reducible apply FrO.next
    | with_reducible apply fr_cmdStc
    | with_reducible apply fr_opStitchStart

theorem fr_opStitchPut (off : ℕ) (bs : List ℕ) (fpl : fp.lam = true) (fpd : fp.ddr = true) (hfr : Fr fp s0 s1) : Fr fp s0 (State.opStitchPut s1 off bs).1 := by
  delta State.opStitchPut
  repeat' first
    | with_reducible assumption
    | intro _
    | with_reducible apply fr_ddrPut
    | split

theorem fr_execStitchPut (h : CmdHdr) (off : ℕ) (bs : List ℕ) (fpl : fp.lam = true) (fpd : fp.ddr = true) (hfr : Fr fp s0 s1) : FrO fp s0 (execStitchPut h off bs s1) := by
  delta execStitchPut
  repeat' first
    | with_reducible assumption
    | intro _
    | with_reducible apply FrO.next
    | with_reducible apply fr_opStitchPut
    | with_reducible apply fr_cmdLam

theorem fr_opStitchQuery (sd : Sys2Proof.Side) (c : ℕ) (hfr : Fr fp s0 s1) : Fr fp s0 (State.opStitchQuery s1 sd c).1 := by
  delta State.opStitchQuery
  repeat' first
    | intro _
    | (with_reducible refine fr_mk (by with_reducible assumption) ?_ ?_) <;> first | exact .inl rfl | exact .inr ⟨by assumption, rfl⟩ | exact .inr ⟨by assumption, rfl, rfl, rfl, rfl, rfl, rfl⟩
    | split

theorem fr_execStitchQuery (h : CmdHdr) (c : ℕ) (isLam : Bool) (fpi : fp.itu = true) (fpl : fp.lam = true) (hfr : Fr fp s0 s1) : FrO fp s0 (execStitchQuery h c isLam s1) := by
  delta execStitchQuery
  repeat' first
    | with_reducible assumption
    | intro _
    | with_reducible apply FrO.next
    | with_reducible apply fr_cmdStc
    | with_reducible apply fr_opStitchQuery

theorem fr_opSlotRead (sd : Sys2Proof.Side) (n : Nat) (fpi : fp.itu = true) (fpl : fp.lam = true) (hfr : Fr fp s0 s1) :
    Fr fp s0 (s1.opSlotRead sd n).1 := by
  unfold State.opSlotRead
  have hp := fr_slotPop sd n fpi fpl hfr
  refine fr_ite_fst (fun _ => hfr) (fun _ => fr_ite_fst (fun _ => hfr) (fun _ => ?_))
  split <;> (next h => rw [h] at hp; exact hp)

theorem fr_execSlotRead (h : CmdHdr) (n : ℕ) (isLam : Bool) (fpi : fp.itu = true) (fpl : fp.lam = true) (hfr : Fr fp s0 s1) : FrO fp s0 (execSlotRead h n isLam s1) := by
  delta execSlotRead
  repeat' first
    | with_reducible assumption
    | intro _
    | with_reducible apply FrO.next
    | with_reducible apply fr_cmdStc
    | with_reducible apply fr_opSlotRead

theorem fr_opSlotWrite (sd : Sys2Proof.Side) (n : ℕ) (v : ℕ) (fpi : fp.itu = true) (fpl : fp.lam = true) (hfr : Fr fp s0 s1) : Fr fp s0 (State.opSlotWrite s1 sd n v).1 := by
  delta State.opSlotWrite
  repeat' first
    | with_reducible assumption
    | intro _
    | with_reducible apply fr_slotPush
    | split

theorem fr_execSlotWrite (h : CmdHdr) (n : ℕ) (isLam : Bool) (v : ℕ) (fpi : fp.itu = true) (fpl : fp.lam = true) (hfr : Fr fp s0 s1) : FrO fp s0 (execSlotWrite h n isLam v s1) := by
  delta execSlotWrite
  repeat' first
    | with_reducible assumption
    | intro _
    | with_reducible apply FrO.next
    | with_reducible apply fr_cmdStc
    | with_reducible apply fr_opSlotWrite

theorem fr_execSlotDataLoRead (sd : Sys2Proof.Side) (iss : Issuer) (n : ℕ) (fpi : fp.itu = true) (fpl : fp.lam = true) (hfr : Fr fp s0 s1) : FrO fp s0 (execSlotDataLoRead sd iss n s1) := by
  delta execSlotDataLoRead
  repeat' first
    | with_reducible assumption
    | (intro x; (first | refine fr_cut (fp := fp) (s0 := s0) x ?_ (fun hx => ?_) | refine fr_cut (fp := fp) (s0 := s0) x.1 ?_ (fun hx => ?_) | refine fr_cut (fp := fp) (s0 := s0) x.2 ?_ (fun hx => ?_)); on_goal 1 => dsimp -zeta -zetaHave only [x])
    | intro _
    | lift_lets
    | with_reducible apply FrO.next
    | with_reducible apply fr_readSlotLo
    | with_reducible apply fr_guard
    | (with_reducible refine fr_mk (by with_reducible assumption) ?_ ?_) <;> first | exact .inl rfl | exact .inr ⟨by assumption, rfl⟩ | exact .inr ⟨by assumption, rfl, rfl, rfl, rfl, rfl, rfl⟩
    | split

theorem fr_execStcCtlStop (sd : Sys2Proof.Side) (iss : Issuer) (mask : ℕ) (fpi : fp.itu = true) (fpl : fp.lam = true) (hfr : Fr fp s0 s1) : FrO fp s0 (execStcCtlStop sd iss mask s1) := by
  delta execStcCtlStop
  repeat' first
    | with_reducible assumption
    | intro _
    | with_reducible apply FrO.next
    | with_reducible apply fr_stcStopMask
    | with_reducible apply fr_guard
    | with_reducible apply frO_ite

theorem fr_execStcCtlEnableWrite (iss : Issuer) (v : Bool) (fpi : fp.itu = true) (fpl : fp.lam = true) (hfr : Fr fp s0 s1) : FrO fp s0 (execStcCtlEnableWrite iss v s1) := by
  delta execStcCtlEnableWrite
  repeat' first
    | with_reducible assumption
    | intro _
    | with_reducible apply FrO.next
    | with_reducible apply fr_setStcEnable
    | with_reducible apply fr_guard
    | with_reducible apply frO_ite

theorem fr_execSlotDataHiWrite (sd : Sys2Proof.Side) (iss : Issuer) (n : ℕ) (data : ℕ) (fpi : fp.itu = true) (fpl : fp.lam = true) (hfr : Fr fp s0 s1) : FrO fp s0 (execSlotDataHiWrite sd iss n data s1) := by
  delta execSlotDataHiWrite
  repeat' first
    | with_reducible assumption
    | intro _
    | with_reducible apply FrO.next
    | with_reducible apply fr_writeSlotHi
    | with_reducible apply fr_guard
    | with_reducible apply frO_ite

end Sys2Proof.Machine
end

