-- ==== Sys2Proof/Laws/FrPorts.lean ====
section
/-! SUPPORT. What each operation of Machine/Ports.lean can change, in the form of Laws/Frame.lean. -/

set_option linter.unusedTactic false
set_option linter.unreachableTactic false

namespace Sys2Proof.Machine

variable {fp : Parts} {s0 s1 : State}

theorem fr_setPins (p : IPins) (fpi : fp.itu = true) (hfr : Fr fp s0 s1) : Fr fp s0 (State.setPins s1 p) := by
  delta State.setPins
  repeat' first
    | (with_reducible refine fr_mk (by with_reducible assumption) ?_ ?_) <;> first | exact .inl rfl | exact .inr ⟨by assumption, rfl⟩ | exact .inr ⟨by assumption, rfl, rfl, rfl, rfl, rfl, rfl⟩

theorem fr_pdTryOff (n : ℕ) (fpi : fp.itu = true) (hfr : Fr fp s0 s1) : Fr fp s0 (State.pdTryOff s1 n) := by
  delta State.pdTryOff
  repeat' first
    | with_reducible assumption
    | intro _
    | with_reducible apply fr_setPins
    | split

theorem fr_pdTryAll (fpi : fp.itu = true) (hfr : Fr fp s0 s1) : Fr fp s0 (State.pdTryAll s1) := by
  delta State.pdTryAll
  repeat' first
    | with_reducible assumption
    | with_reducible apply fr_pdTryOff

theorem fr_wiBit (F : Fld) (n : ℕ) (v : Bool) (fpi : fp.itu = true) (hfr : Fr fp s0 s1) : Fr fp s0 (State.wiBit s1 F n v) := by
  delta State.wiBit
  repeat' first
    | with_reducible assumption
    | with_reducible apply fr_wi

theorem fr_barDrop (p : ℕ) (fpi : fp.itu = true) (hfr : Fr fp s0 s1) : Fr fp s0 (State.barDrop s1 p) := by
  delta State.barDrop
  repeat' first
    | (with_reducible refine fr_mk (by with_reducible assumption) ?_ ?_) <;> first | exact .inl rfl | exact .inr ⟨by assumption, rfl⟩ | exact .inr ⟨by assumption, rfl, rfl, rfl, rfl, rfl, rfl⟩

theorem fr_barEmit (p : ℕ) (coll : ℕ) (opn : Bool) (t : ℕ) (wait : ℕ) (temp : ℕ) (fpi : fp.itu = true) (hfr : Fr fp s0 s1) : Fr fp s0 (State.barEmit s1 p coll opn t wait temp) := by
  delta State.barEmit
  repeat' first
    | with_reducible assumption
    | (intro x; (first | refine fr_cut (fp := fp) (s0 := s0) x ?_ (fun hx => ?_) | refine fr_cut (fp := fp) (s0 := s0) x.1 ?_ (fun hx => ?_) | refine fr_cut (fp := fp) (s0 := s0) x.2 ?_ (fun hx => ?_)); on_goal 1 => dsimp -zeta -zetaHave only [x])
    | intro _
    | lift_lets
    | with_reducible apply fr_ituEmit
    | (with_reducible refine fr_mk (by with_reducible assumption) ?_ ?_) <;> first | exact .inl rfl | exact .inr ⟨by assumption, rfl⟩ | exact .inr ⟨by assumption, rfl, rfl, rfl, rfl, rfl, rfl⟩
    | split

theorem fr_barRemove (p : ℕ) (coll : ℕ) (fpi : fp.itu = true) (hfr : Fr fp s0 s1) : Fr fp s0 (State.barRemove s1 p coll) := by
  delta State.barRemove
  repeat' first
    | (with_reducible refine fr_mk (by with_reducible assumption) ?_ ?_) <;> first | exact .inl rfl | exact .inr ⟨by assumption, rfl⟩ | exact .inr ⟨by assumption, rfl, rfl, rfl, rfl, rfl, rfl⟩

theorem fr_barEntry (p : ℕ) (coll : ℕ) (fpi : fp.itu = true) (hfr : Fr fp s0 s1) : Fr fp s0 (State.barEntry s1 p coll) := by
  delta State.barEntry
  repeat' first
    | with_reducible assumption
    | (intro x; (first | refine fr_cut (fp := fp) (s0 := s0) x ?_ (fun hx => ?_) | refine fr_cut (fp := fp) (s0 := s0) x.1 ?_ (fun hx => ?_) | refine fr_cut (fp := fp) (s0 := s0) x.2 ?_ (fun hx => ?_)); on_goal 1 => dsimp -zeta -zetaHave only [x])
    | intro _
    | lift_lets
    | with_reducible apply fr_barEmit
    | with_reducible apply fr_barRemove
    | with_reducible apply fr_barDrop
    | (with_reducible refine fr_mk (by with_reducible assumption) ?_ ?_) <;> first | exact .inl rfl | exact .inr ⟨by assumption, rfl⟩ | exact .inr ⟨by assumption, rfl, rfl, rfl, rfl, rfl, rfl⟩
    | split

theorem fr_barExit (p : ℕ) (coll : ℕ) (fpi : fp.itu = true) (hfr : Fr fp s0 s1) : Fr fp s0 (State.barExit s1 p coll) := by
  delta State.barExit
  repeat' first
    | with_reducible assumption
    | with_reducible apply fr_barEmit
    | with_reducible apply fr_barRemove
    | with_reducible apply fr_barDrop
    | split

theorem fr_pdLose (n : Nat) (fpi : fp.itu = true) (hfr : Fr fp s0 s1) : Fr fp s0 (s1.pdLose n) := by
  unfold State.pdLose
  extract_lets i
  split
  · exact Fr.ituRegs fpi hfr _ (Sparse.wf_filter _ _)
  · exact Fr.ituRegs fpi hfr _ (Sparse.wf_filter _ _)
  · exact fr_wi _ _ _ _ fpi (Fr.ituRegs fpi hfr _ (Sparse.wf_filter _ _))
  · exact Fr.ituRegs fpi hfr _ (Sparse.wf_filter _ _)
  · exact hfr

theorem fr_pdDone (n : ℕ) (on : Bool) (fpi : fp.itu = true) (hfr : Fr fp s0 s1) : Fr fp s0 (State.pdDone s1 n on) := by
  delta State.pdDone
  repeat' first
    | with_reducible assumption
    | intro _
    | with_reducible apply fr_setPins
    | with_reducible apply fr_wiBit
    | with_reducible apply fr_pdLose
    | split

theorem fr_execBarEntryTimeout (part : ℕ) (coll : ℕ) (fpi : fp.itu = true) (hfr : Fr fp s0 s1) : FrO fp s0 (execBarEntryTimeout part coll s1) := by
  delta execBarEntryTimeout
  repeat' first
    | with_reducible assumption
    | intro _
    | with_reducible apply FrO.next
    | with_reducible apply fr_barEmit
    | with_reducible apply fr_barRemove
    | split

theorem fr_execBarrierEvent (exit : Bool) (part : ℕ) (coll : ℕ) (fpi : fp.itu = true) (hfr : Fr fp s0 s1) : FrO fp s0 (execBarrierEvent exit part coll s1) := by
  delta execBarrierEvent
  repeat' first
    | with_reducible assumption
    | intro _
    | with_reducible apply FrO.next
    | with_reducible apply fr_barExit
    | with_reducible apply fr_barEntry
    | with_reducible apply fr_ii
    | split

theorem fr_execPdSwAck (n : ℕ) (level : Bool) (fpi : fp.itu = true) (hfr : Fr fp s0 s1) : FrO fp s0 (execPdSwAck n level s1) := by
  delta execPdSwAck
  repeat' first
    | with_reducible assumption
    | intro _
    | with_reducible apply FrO.next
    | with_reducible apply fr_pdDone
    | split

theorem fr_execPdSwAckTimeout (n : ℕ) (fpi : fp.itu = true) (hfr : Fr fp s0 s1) : FrO fp s0 (execPdSwAckTimeout n s1) := by
  delta execPdSwAckTimeout
  repeat' first
    | with_reducible assumption
    | intro _
    | with_reducible apply FrO.next
    | with_reducible apply fr_pdDone
    | with_reducible apply fr_wiBit
    | with_reducible apply fr_wi
    | with_reducible apply fr_ii
    | split

theorem fr_execItuClkMeasure (cycles : ℕ) (fpi : fp.itu = true) (hfr : Fr fp s0 s1) : FrO fp s0 (execItuClkMeasure cycles s1) := by
  delta execItuClkMeasure
  repeat' first
    | intro _
    | with_reducible apply FrO.next
    | (with_reducible refine fr_mk (by with_reducible assumption) ?_ ?_) <;> first | exact .inl rfl | exact .inr ⟨by assumption, rfl⟩ | exact .inr ⟨by assumption, rfl, rfl, rfl, rfl, rfl, rfl⟩
    | split

end Sys2Proof.Machine
end

