-- ==== Sys2Proof/Laws/FrVisor.lean ====
section
/-! SUPPORT. What each operation of Machine/Visor.lean can change, in the form of Laws/Frame.lean. -/

set_option linter.unusedTactic false
set_option linter.unreachableTactic false

namespace Sys2Proof.Machine

variable {fp : Parts} {s0 s1 : State}

theorem fr_setRow (v : RowSmp) (fpi : fp.itu = true) (hfr : Fr fp s0 s1) : Fr fp s0 (State.setRow s1 v) := by
  delta State.setRow
  repeat' first
    | (with_reducible refine fr_mk (by with_reducible assumption) ?_ ?_) <;> first | exact .inl rfl | exact .inr ⟨by assumption, rfl⟩ | exact .inr ⟨by assumption, rfl, rfl, rfl, rfl, rfl, rfl⟩

theorem fr_setVis (v : Visor) (fpi : fp.itu = true) (hfr : Fr fp s0 s1) : Fr fp s0 (State.setVis s1 v) := by
  delta State.setVis
  repeat' first
    | (with_reducible refine fr_mk (by with_reducible assumption) ?_ ?_) <;> first | exact .inl rfl | exact .inr ⟨by assumption, rfl⟩ | exact .inr ⟨by assumption, rfl, rfl, rfl, rfl, rfl, rfl⟩

theorem fr_visRelease (fpi : fp.itu = true) (hfr : Fr fp s0 s1) : Fr fp s0 (State.visRelease s1) := by
  delta State.visRelease
  repeat' first
    | with_reducible assumption
    | with_reducible apply fr_setVis
    | with_reducible apply fr_wi

theorem fr_visAfter (fpi : fp.itu = true) (hfr : Fr fp s0 s1) : Fr fp s0 (State.visAfter s1) := by
  delta State.visAfter
  repeat' first
    | with_reducible assumption
    | intro _
    | with_reducible apply fr_visRelease
    | with_reducible apply fr_wi
    | with_reducible apply fr_ite

theorem fr_visTrigger (p : ℕ) (cause : ℕ) (hold : Bool) (emit : Bool) (fpi : fp.itu = true) (hfr : Fr fp s0 s1) : Fr fp s0 (State.visTrigger s1 p cause hold emit).1 := by
  delta State.visTrigger
  repeat' first
    | with_reducible assumption
    | intro _
    | with_reducible apply fr_setVis
    | with_reducible apply fr_setPins
    | with_reducible apply fr_wi
    | with_reducible apply fr_ii
    | split

theorem fr_rowStart (p : ℕ) (cause : ℕ) (first : ℕ) (count : ℕ) (stride : ℕ) (fpi : fp.itu = true) (hfr : Fr fp s0 s1) : Fr fp s0 (State.rowStart s1 p cause first count stride) := by
  delta State.rowStart
  repeat' first
    | with_reducible assumption
    | intro _
    | with_reducible apply fr_setRow
    | with_reducible apply fr_wi
    | split

theorem fr_rowRefuse (fpi : fp.itu = true) (hfr : Fr fp s0 s1) : Fr fp s0 (State.rowRefuse s1) := by
  delta State.rowRefuse
  repeat' first
    | with_reducible assumption
    | with_reducible apply fr_wi
    | with_reducible apply fr_ii

theorem fr_rowReset (p : ℕ) (fpi : fp.itu = true) (hfr : Fr fp s0 s1) : Fr fp s0 (State.rowReset s1 p) := by
  delta State.rowReset
  repeat' first
    | with_reducible assumption
    | intro _
    | with_reducible apply fr_setRow
    | with_reducible apply fr_rowStart
    | with_reducible apply fr_rowRefuse
    | with_reducible apply fr_wi
    | with_reducible apply fr_ite

theorem fr_rowTrigger (p : ℕ) (cause : ℕ) (first : ℕ) (count : ℕ) (stride : ℕ) (fpi : fp.itu = true) (hfr : Fr fp s0 s1) : Fr fp s0 (State.rowTrigger s1 p cause first count stride).1 := by
  delta State.rowTrigger
  repeat' first
    | with_reducible assumption
    | intro _
    | with_reducible apply fr_rowStart
    | with_reducible apply fr_rowRefuse
    | split

theorem fr_visCtlRelease (fpi : fp.itu = true) (hfr : Fr fp s0 s1) : Fr fp s0 (State.visCtlRelease s1) := by
  delta State.visCtlRelease
  repeat' first
    | with_reducible assumption
    | intro _
    | with_reducible apply fr_visRelease
    | split

theorem fr_visClose (result : ℕ) (fpi : fp.itu = true) (hfr : Fr fp s0 s1) : Fr fp s0 (State.visClose s1 result) := by
  delta State.visClose
  repeat' first
    | with_reducible assumption
    | with_reducible apply fr_setVis
    | with_reducible apply fr_setPins
    | with_reducible apply fr_wi

theorem fr_readVis0 (iss : Issuer) (hfr : Fr fp s0 s1) : Fr fp s0 (State.readVis0 s1 iss).2 := by
  delta State.readVis0
  repeat' first
    | with_reducible apply fr_setLatch
    | (with_reducible refine fr_mk (by with_reducible assumption) ?_ ?_) <;> first | exact .inl rfl | exact .inr ⟨by assumption, rfl⟩ | exact .inr ⟨by assumption, rfl, rfl, rfl, rfl, rfl, rfl⟩

theorem fr_opRowSample (p : ℕ) (first : ℕ) (count : ℕ) (stride : ℕ) (fpi : fp.itu = true) (hfr : Fr fp s0 s1) : Fr fp s0 (State.opRowSample s1 p first count stride).1 := by
  delta State.opRowSample
  repeat' first
    | with_reducible assumption
    | intro _
    | with_reducible apply fr_rowTrigger
    | with_reducible apply fr_rowRefuse
    | split

theorem fr_execRowSample (h : CmdHdr) (p : ℕ) (first : ℕ) (count : ℕ) (stride : ℕ) (fpi : fp.itu = true) (hfr : Fr fp s0 s1) : FrO fp s0 (execRowSample h p first count stride s1) := by
  delta execRowSample
  repeat' first
    | with_reducible assumption
    | intro _
    | with_reducible apply FrO.next
    | with_reducible apply fr_opRowSample
    | with_reducible apply fr_cmdItu

theorem fr_opVisorSnap (p : ℕ) (hold : Bool) (emit : Bool) (fpi : fp.itu = true) (hfr : Fr fp s0 s1) : Fr fp s0 (State.opVisorSnap s1 p hold emit).1 := by
  delta State.opVisorSnap
  repeat' first
    | with_reducible assumption
    | intro _
    | with_reducible apply fr_visTrigger
    | split

theorem fr_execVisorSnap (h : CmdHdr) (p : ℕ) (hold : Bool) (emit : Bool) (fpi : fp.itu = true) (hfr : Fr fp s0 s1) : FrO fp s0 (execVisorSnap h p hold emit s1) := by
  delta execVisorSnap
  repeat' first
    | with_reducible assumption
    | intro _
    | with_reducible apply FrO.next
    | with_reducible apply fr_opVisorSnap
    | with_reducible apply fr_cmdItu

theorem fr_storeSend (r : Rec) (fpi : fp.itu = true) (hfr : Fr fp s0 s1) : Fr fp s0 (State.storeSend s1 r) := by
  delta State.storeSend
  repeat' first
    | with_reducible assumption
    | with_reducible apply fr_ituQueue
    | with_reducible apply fr_ituAdmit

theorem fr_rowEmit (fpi : fp.itu = true) (hfr : Fr fp s0 s1) : Fr fp s0 (State.rowEmit s1) := by
  delta State.rowEmit
  repeat' first
    | with_reducible assumption
    | intro _
    | with_reducible apply fr_setRow
    | with_reducible apply fr_storeSend
    | with_reducible apply fr_ii
    | split

theorem fr_rowEnd (fpi : fp.itu = true) (hfr : Fr fp s0 s1) : Fr fp s0 (State.rowEnd s1) := by
  delta State.rowEnd
  repeat' first
    | with_reducible assumption
    | intro _
    | with_reducible apply fr_setRow
    | with_reducible apply fr_wi
    | with_reducible apply fr_rowReset
    | with_reducible apply fr_ite
    | split

theorem fr_rowMake (missing : Bool) (err : Bool) (data : List ℕ) (fpi : fp.itu = true) (hfr : Fr fp s0 s1) : Fr fp s0 (State.rowMake s1 missing err data) := by
  delta State.rowMake
  repeat' first
    | with_reducible assumption
    | intro _
    | lift_lets
    | with_reducible apply fr_setRow
    | with_reducible apply fr_rowEnd
    | with_reducible apply fr_ii
    | split

theorem fr_visEmit (fpi : fp.itu = true) (hfr : Fr fp s0 s1) : Fr fp s0 (State.visEmit s1).1 := by
  delta State.visEmit
  repeat' first
    | with_reducible assumption
    | intro _
    | with_reducible apply fr_setVis
    | with_reducible apply fr_visAfter
    | with_reducible apply fr_storeSend
    | with_reducible apply fr_ii
    | split

theorem fr_visStore (desc : ℕ) (fpi : fp.itu = true) (hfr : Fr fp s0 s1) : Fr fp s0 (State.visStore s1 desc) := by
  delta State.visStore
  repeat' first
    | with_reducible assumption
    | intro _
    | with_reducible apply fr_setVis
    | with_reducible apply fr_wi
    | with_reducible apply fr_ii
    | with_reducible apply fr_ite

theorem fr_execVisCtlTrig (iss : Issuer) (part : ℕ) (fpi : fp.itu = true) (hfr : Fr fp s0 s1) : FrO fp s0 (execVisCtlTrig iss part s1) := by
  delta execVisCtlTrig
  repeat' first
    | with_reducible assumption
    | intro _
    | with_reducible apply FrO.next
    | with_reducible apply fr_ituGuard
    | with_reducible apply fr_visTrigger
    | with_reducible apply fr_wi
    | with_reducible apply frO_ite

theorem fr_execRowRequestIssue (fpi : fp.itu = true) (hfr : Fr fp s0 s1) : FrO fp s0 (execRowRequestIssue s1) := by
  delta execRowRequestIssue
  repeat' first
    | with_reducible assumption
    | intro _
    | with_reducible apply FrO.next
    | with_reducible apply fr_setRow
    | with_reducible apply frO_ite

theorem fr_execRowCtlTrig (iss : Issuer) (part : ℕ) (fpi : fp.itu = true) (hfr : Fr fp s0 s1) : FrO fp s0 (execRowCtlTrig iss part s1) := by
  delta execRowCtlTrig
  repeat' first
    | with_reducible assumption
    | intro _
    | with_reducible apply FrO.next
    | with_reducible apply fr_rowTrigger
    | with_reducible apply fr_ituGuard
    | with_reducible apply fr_wi
    | with_reducible apply frO_ite

theorem fr_execVisRdData0Read (iss : Issuer) (fpi : fp.itu = true) (hfr : Fr fp s0 s1) : FrO fp s0 (execVisRdData0Read iss s1) := by
  delta execVisRdData0Read
  repeat' first
    | with_reducible assumption
    | (intro x; (first | refine fr_cut (fp := fp) (s0 := s0) x ?_ (fun hx => ?_) | refine fr_cut (fp := fp) (s0 := s0) x.1 ?_ (fun hx => ?_) | refine fr_cut (fp := fp) (s0 := s0) x.2 ?_ (fun hx => ?_)); on_goal 1 => dsimp -zeta -zetaHave only [x])
    | intro _
    | lift_lets
    | with_reducible apply FrO.next
    | with_reducible apply fr_ituGuard
    | with_reducible apply fr_readVis0
    | (with_reducible refine fr_mk (by with_reducible assumption) ?_ ?_) <;> first | exact .inl rfl | exact .inr ⟨by assumption, rfl⟩ | exact .inr ⟨by assumption, rfl, rfl, rfl, rfl, rfl, rfl⟩
    | split

theorem fr_execQscanTimeout (fpi : fp.itu = true) (hfr : Fr fp s0 s1) : FrO fp s0 (execQscanTimeout s1) := by
  delta execQscanTimeout
  repeat' first
    | with_reducible assumption
    | intro _
    | with_reducible apply FrO.next
    | with_reducible apply fr_visClose
    | with_reducible apply fr_wi
    | with_reducible apply fr_ii
    | split

theorem fr_execRowResponse (data : List ℕ) (err : Bool) (fpi : fp.itu = true) (hfr : Fr fp s0 s1) : FrO fp s0 (execRowResponse data err s1) := by
  delta execRowResponse
  repeat' first
    | with_reducible assumption
    | lift_lets
    | with_reducible apply FrO.next
    | with_reducible apply fr_pdTryAll
    | with_reducible apply fr_rowMake
    | with_reducible apply fr_ii
    | split

theorem fr_execVisCtlRelease (iss : Issuer) (fpi : fp.itu = true) (hfr : Fr fp s0 s1) : FrO fp s0 (execVisCtlRelease iss s1) := by
  delta execVisCtlRelease
  repeat' first
    | with_reducible assumption
    | intro _
    | with_reducible apply FrO.next
    | with_reducible apply fr_ituGuard
    | with_reducible apply fr_visCtlRelease
    | with_reducible apply frO_ite

theorem fr_execVisorRecordEmit (fpi : fp.itu = true) (hfr : Fr fp s0 s1) : FrO fp s0 (execVisorRecordEmit s1) := by
  delta execVisorRecordEmit
  repeat' first
    | with_reducible assumption
    | intro _
    | with_reducible apply FrO.next
    | with_reducible apply fr_rowEmit
    | with_reducible apply fr_visEmit
    | with_reducible apply frO_ite

theorem fr_execQscanDescriptor (desc : ℕ) (last : Bool) (fpi : fp.itu = true) (hfr : Fr fp s0 s1) : FrO fp s0 (execQscanDescriptor desc last s1) := by
  delta execQscanDescriptor
  repeat' first
    | with_reducible assumption
    | intro _
    | with_reducible apply FrO.next
    | with_reducible apply fr_visClose
    | with_reducible apply fr_visStore
    | split

theorem fr_execRowTimeout (fpi : fp.itu = true) (hfr : Fr fp s0 s1) : FrO fp s0 (execRowTimeout s1) := by
  delta execRowTimeout
  repeat' first
    | with_reducible assumption
    | intro _
    | with_reducible apply FrO.next
    | with_reducible apply fr_pdTryAll
    | with_reducible apply fr_rowMake
    | with_reducible apply fr_wi
    | with_reducible apply fr_ii
    | split

end Sys2Proof.Machine
end

