-- ==== Sys2Proof/Laws/FrRegView.lean ====
section
/-! SUPPORT. What each operation of Machine/RegView.lean can change, in the form of Laws/Frame.lean. -/

set_option linter.unusedTactic false
set_option linter.unreachableTactic false

namespace Sys2Proof.Machine

variable {fp : Parts} {s0 s1 : State}

theorem fr_setReg (sd : Sys2Proof.Side) (F : Fld) (i : ℕ) (j : ℕ) (v : ℕ) (fpi : fp.itu = true) (fpl : fp.lam = true) (hfr : Fr fp s0 s1) : Fr fp s0 (State.setReg s1 sd F i j v) := by
  delta State.setReg
  repeat' first
    | with_reducible assumption
    | with_reducible apply fr_wi
    | with_reducible apply fr_wl
    | split

theorem fr_clearRc (sd : Sys2Proof.Side) (a : ℕ) (fpi : fp.itu = true) (fpl : fp.lam = true) (hfr : Fr fp s0 s1) : Fr fp s0 (State.clearRc s1 sd a) := by
  delta State.clearRc
  repeat' first
    | with_reducible assumption
    | intro _
    | with_reducible apply fr_setReg
    | with_reducible apply fr_foldl
    | split

theorem fr_latched (path : Path) (a : Nat) (r : Nat × State) (hr : s1.latched path a = some r) (hfr : Fr fp s0 s1) : Fr fp s0 r.2 := by
  unfold State.latched at hr
  split at hr
  · cases hr
    exact fr_ite (fun _ => fr_mk hfr (.inl rfl) (.inl rfl)) fun _ => hfr
  · cases hr

theorem fr_readOpen (sd : Sys2Proof.Side) (iss : Issuer) (a : Nat) (fpi : fp.itu = true) (fpl : fp.lam = true) (hfr : Fr fp s0 s1) :
    Fr fp s0 (s1.readOpen sd iss a).2 := by
  unfold State.readOpen
  split
  · next r hr => exact fr_latched _ _ r hr hfr
  repeat' first
    | with_reducible assumption
    | with_reducible apply fr_readCounterLo
    | with_reducible apply fr_readVis0
    | with_reducible apply fr_readSlotLo
    | with_reducible apply fr_setLatch
    | with_reducible apply fr_clearRc
    | with_reducible apply fr_ite_snd
    | intro _
    | split

theorem fr_readWord (sd : Sys2Proof.Side) (iss : Issuer) (a : ℕ) (fpi : fp.itu = true) (fpl : fp.lam = true) (hfr : Fr fp s0 s1) : Fr fp s0 (State.readWord s1 sd iss a).2 := by
  delta State.readWord
  repeat' first
    | with_reducible assumption
    | intro _
    | with_reducible apply fr_readOpen
    | with_reducible apply fr_guard
    | with_reducible apply fr_ite_snd

theorem fr_execWriteHoldExpiry (path : Path) (hfr : Fr fp s0 s1) : FrO fp s0 (execWriteHoldExpiry path s1) := by
  delta execWriteHoldExpiry
  repeat' first
    | with_reducible apply FrO.next
    | (with_reducible refine fr_mk (by with_reducible assumption) ?_ ?_) <;> first | exact .inl rfl | exact .inr ⟨by assumption, rfl⟩ | exact .inr ⟨by assumption, rfl, rfl, rfl, rfl, rfl, rfl⟩

theorem fr_execRegisterRead (sd : Sys2Proof.Side) (iss : Issuer) (addr : ℕ) (fpi : fp.itu = true) (fpl : fp.lam = true) (hfr : Fr fp s0 s1) : FrO fp s0 (execRegisterRead sd iss addr s1) := by
  delta execRegisterRead
  repeat' first
    | with_reducible assumption
    | (intro x; (first | refine fr_cut (fp := fp) (s0 := s0) x ?_ (fun hx => ?_) | refine fr_cut (fp := fp) (s0 := s0) x.1 ?_ (fun hx => ?_) | refine fr_cut (fp := fp) (s0 := s0) x.2 ?_ (fun hx => ?_)); on_goal 1 => dsimp -zeta -zetaHave only [x])
    | lift_lets
    | with_reducible apply FrO.next
    | with_reducible apply fr_readWord
    | (with_reducible refine fr_mk (by with_reducible assumption) ?_ ?_) <;> first | exact .inl rfl | exact .inr ⟨by assumption, rfl⟩ | exact .inr ⟨by assumption, rfl, rfl, rfl, rfl, rfl, rfl⟩

end Sys2Proof.Machine
end

