-- ==== Sys2Proof/Laws/FrCompress.lean ====
section
/-! SUPPORT. What each operation of Machine/Compress.lean can change, in the form of Laws/Frame.lean. -/

set_option linter.unusedTactic false
set_option linter.unreachableTactic false

namespace Sys2Proof.Machine

variable {fp : Parts} {s0 s1 : State}

theorem fr_setCring (r : ℕ) (v : CmpRing) (fpl : fp.lam = true) (hfr : Fr fp s0 s1) : Fr fp s0 (State.setCring s1 r v) := by
  delta State.setCring
  repeat' first
    | (with_reducible refine fr_mk (by with_reducible assumption) ?_ ?_) <;> first | exact .inl rfl | exact .inr ⟨by assumption, rfl⟩ | exact .inr ⟨by assumption, rfl, rfl, rfl, rfl, rfl, rfl⟩

theorem fr_cmpShow (fpl : fp.lam = true) (hfr : Fr fp s0 s1) : Fr fp s0 (State.cmpShow s1) := by
  delta State.cmpShow
  repeat' first
    | with_reducible assumption
    | intro _
    | with_reducible apply fr_wl
    | with_reducible apply fr_foldl

theorem fr_raiseVec (v : ℕ) (fpl : fp.lam = true) (hfr : Fr fp s0 s1) : Fr fp s0 (State.raiseVec s1 v) := by
  delta State.raiseVec
  repeat' first
    | with_reducible assumption
    | intro _
    | with_reducible apply fr_wl
    | with_reducible apply fr_ite
    | (with_reducible refine fr_mk (by with_reducible assumption) ?_ ?_) <;> first | exact .inl rfl | exact .inr ⟨by assumption, rfl⟩ | exact .inr ⟨by assumption, rfl, rfl, rfl, rfl, rfl, rfl⟩

theorem fr_endDesc (r : ℕ) (run : CmpRun) (status : ℕ) (fpl : fp.lam = true) (fpd : fp.ddr = true) (hfr : Fr fp s0 s1) : Fr fp s0 (State.endDesc s1 r run status) := by
  delta State.endDesc
  repeat' first
    | with_reducible assumption
    | intro _
    | with_reducible apply fr_il
    | with_reducible apply fr_setCring
    | with_reducible apply fr_cmpShow
    | with_reducible apply fr_raiseVec
    | with_reducible apply fr_ddrPut
    | with_reducible apply fr_wl
    | split

theorem fr_ringAbort (r : ℕ) (fpl : fp.lam = true) (fpd : fp.ddr = true) (hfr : Fr fp s0 s1) : Fr fp s0 (State.ringAbort s1 r) := by
  delta State.ringAbort
  repeat' first
    | with_reducible assumption
    | with_reducible apply fr_endDesc
    | split

theorem fr_cmpPut (r : ℕ) (d : CmpRun) (bs : List ℕ) (fpl : fp.lam = true) (fpd : fp.ddr = true) (hfr : Fr fp s0 s1) : Fr fp s0 (State.cmpPut s1 r d bs).1 := by
  delta State.cmpPut
  repeat' first
    | with_reducible assumption
    | with_reducible apply fr_ddrPut

theorem fr_closeBlock (r : ℕ) (d : CmpRun) (last : Bool) (fpl : fp.lam = true) (fpd : fp.ddr = true) (hfr : Fr fp s0 s1) : Fr fp s0 (State.closeBlock s1 r d last).1 := by
  delta State.closeBlock
  repeat' first
    | with_reducible assumption
    | with_reducible apply fr_setCring
    | with_reducible apply fr_cmpPut

theorem fr_ringFlush (r : ℕ) (fpl : fp.lam = true) (fpd : fp.ddr = true) (hfr : Fr fp s0 s1) : Fr fp s0 (State.ringFlush s1 r) := by
  delta State.ringFlush
  repeat' first
    | with_reducible assumption
    | intro _
    | with_reducible apply fr_setCring
    | with_reducible apply fr_cmpShow
    | with_reducible apply fr_endDesc
    | with_reducible apply fr_closeBlock
    | with_reducible apply fr_ite
    | split

theorem fr_setCmpEnable (v : Bool) (fpl : fp.lam = true) (fpd : fp.ddr = true) (hfr : Fr fp s0 s1) : Fr fp s0 (State.setCmpEnable s1 v) := by
  delta State.setCmpEnable
  repeat' first
    | with_reducible assumption
    | intro _
    | with_reducible apply fr_ringAbort
    | with_reducible apply fr_wl
    | split

theorem fr_decBlock (r : ℕ) (d : CmpRun) (fpl : fp.lam = true) (fpd : fp.ddr = true) (hfr : Fr fp s0 s1) : Fr fp s0 (State.decBlock s1 r d).1 := by
  delta State.decBlock
  repeat' first
    | with_reducible assumption
    | intro _
    | with_reducible apply fr_setCring
    | with_reducible apply fr_ddrPut
    | with_reducible apply fr_ite_fst

theorem fr_decBlocks (r : ℕ) (y1 : ℕ) (y3 : CmpRun) (fpl : fp.lam = true) (fpd : fp.ddr = true) (hfr : Fr fp s0 s1) : Fr fp s0 (State.decBlocks r y1 s1 y3).1 := by
  induction y1 generalizing s1 y3 with
  | zero => exact hfr
  | succ n ih =>
    rw [State.decBlocks]
    repeat' first
      | with_reducible assumption
      | with_reducible apply ih
      | intro _
      | with_reducible apply fr_decBlock
      | split

theorem fr_feed (r : ℕ) (y1 : ℕ) (y2 : List ℕ) (y4 : CmpRun) (fpl : fp.lam = true) (fpd : fp.ddr = true) (hfr : Fr fp s0 s1) : Fr fp s0 (State.feed r y1 y2 s1 y4).1 := by
  induction y1 generalizing s1 y2 y4 with
  | zero => exact hfr
  | succ n ih =>
    rw [State.feed]
    repeat' first
      | with_reducible assumption
      | with_reducible apply ih
      | intro _
      | with_reducible apply fr_setCring
      | with_reducible apply fr_closeBlock
      | with_reducible apply fr_ite_fst

theorem fr_execCmpRingAbort (iss : Issuer) (r : ℕ) (fpl : fp.lam = true) (fpd : fp.ddr = true) (hfr : Fr fp s0 s1) : FrO fp s0 (execCmpRingAbort iss r s1) := by
  delta execCmpRingAbort
  repeat' first
    | with_reducible assumption
    | intro _
    | with_reducible apply FrO.next
    | with_reducible apply fr_ringAbort
    | with_reducible apply fr_lamGuard
    | with_reducible apply frO_ite

theorem fr_execCmpRingFlush (iss : Issuer) (r : ℕ) (fpl : fp.lam = true) (fpd : fp.ddr = true) (hfr : Fr fp s0 s1) : FrO fp s0 (execCmpRingFlush iss r s1) := by
  delta execCmpRingFlush
  repeat' first
    | with_reducible assumption
    | intro _
    | with_reducible apply FrO.next
    | with_reducible apply fr_ringFlush
    | with_reducible apply fr_lamGuard
    | with_reducible apply frO_ite

theorem fr_execCompressDescriptor (r : ℕ) (n : ℕ) (fpl : fp.lam = true) (fpd : fp.ddr = true) (hfr : Fr fp s0 s1) : FrO fp s0 (execCompressDescriptor r n s1) := by
  delta execCompressDescriptor
  repeat' first
    | with_reducible assumption
    | intro _
    | with_reducible apply FrO.next
    | with_reducible apply fr_feed
    | with_reducible apply fr_setCring
    | with_reducible apply fr_cmpShow
    | with_reducible apply fr_endDesc
    | with_reducible apply fr_closeBlock
    | with_reducible apply frO_ite
    | split

theorem fr_execDecompressDescriptor (r : ℕ) (n : ℕ) (fpl : fp.lam = true) (fpd : fp.ddr = true) (hfr : Fr fp s0 s1) : FrO fp s0 (execDecompressDescriptor r n s1) := by
  delta execDecompressDescriptor
  repeat' first
    | with_reducible assumption
    | intro _
    | lift_lets
    | with_reducible apply FrO.next
    | with_reducible apply fr_setCring
    | with_reducible apply fr_cmpShow
    | with_reducible apply fr_decBlocks
    | with_reducible apply fr_endDesc
    | with_reducible apply fr_ite
    | split

theorem fr_execCmpCtlEnableWrite (iss : Issuer) (v : Bool) (fpl : fp.lam = true) (fpd : fp.ddr = true) (hfr : Fr fp s0 s1) : FrO fp s0 (execCmpCtlEnableWrite iss v s1) := by
  delta execCmpCtlEnableWrite
  repeat' first
    | with_reducible assumption
    | intro _
    | with_reducible apply FrO.next
    | with_reducible apply fr_setCmpEnable
    | with_reducible apply fr_lamGuard
    | with_reducible apply frO_ite

end Sys2Proof.Machine
end

