-- ==== Sys2Proof/Laws/FrRecorder.lean ====
section
/-! SUPPORT. What each operation of Machine/Recorder.lean can change, in the form of Laws/Frame.lean. -/

set_option linter.unusedTactic false
set_option linter.unreachableTactic false

namespace Sys2Proof.Machine

variable {fp : Parts} {s0 s1 : State}

theorem fr_setRcd (r : Rcd) (fpl : fp.lam = true) (hfr : Fr fp s0 s1) : Fr fp s0 (State.setRcd s1 r) := by
  delta State.setRcd
  repeat' first
    | (with_reducible refine fr_mk (by with_reducible assumption) ?_ ?_) <;> first | exact .inl rfl | exact .inr ⟨by assumption, rfl⟩ | exact .inr ⟨by assumption, rfl, rfl, rfl, rfl, rfl, rfl⟩

theorem fr_recEvent (cause : ℕ) (count : ℕ) (fpl : fp.lam = true) (hfr : Fr fp s0 s1) : Fr fp s0 (State.recEvent s1 cause count) := by
  delta State.recEvent
  repeat' first
    | with_reducible assumption
    | with_reducible apply fr_lamEmit

theorem fr_recShow (fpl : fp.lam = true) (hfr : Fr fp s0 s1) : Fr fp s0 (State.recShow s1) := by
  delta State.recShow
  repeat' first
    | with_reducible assumption
    | with_reducible apply fr_wl

theorem fr_logFull (fpl : fp.lam = true) (hfr : Fr fp s0 s1) : Fr fp s0 (State.logFull s1) := by
  delta State.logFull
  repeat' first
    | with_reducible assumption
    | with_reducible apply fr_setRcd
    | with_reducible apply fr_recEvent
    | with_reducible apply fr_wl
    | with_reducible apply fr_recShow

theorem fr_setNor (m : Memory) (fpl : fp.lam = true) (fpn : fp.nor = true)
    (hm : Memory.wf norDefault s1.lam.brd.nor = true → Memory.wf norDefault m = true) (hfr : Fr fp s0 s1) : Fr fp s0 (s1.setNor m) :=
  Fr.lamAll fpl hfr _ id (.inl rfl) (.inr ⟨fpn, hm⟩) id (.inl rfl) List.prefix_rfl

theorem fr_norProg (off : ℕ) (bs : List ℕ) (fpl : fp.lam = true) (fpn : fp.nor = true) (hfr : Fr fp s0 s1) : Fr fp s0 (State.norProg s1 off bs) := by
  delta State.norProg
  repeat' first
    | with_reducible assumption
    | with_reducible apply fr_setNor
    | with_reducible apply Memory.wf_write

theorem fr_setSecState (sec : ℕ) (v : ℕ) (fpl : fp.lam = true) (fpn : fp.nor = true) (hfr : Fr fp s0 s1) : Fr fp s0 (State.setSecState s1 sec v) := by
  delta State.setSecState
  repeat' first
    | with_reducible assumption
    | with_reducible apply fr_norProg

theorem fr_startUnit (y0 : ℕ) (fpl : fp.lam = true) (fpn : fp.nor = true) (hfr : Fr fp s0 s1) : Fr fp s0 (State.startUnit y0 s1) := by
  induction y0 generalizing s1 with
  | zero => rw [State.startUnit]; apply fr_logFull <;> assumption
  | succ n ih =>
    rw [State.startUnit]
    repeat' first
      | with_reducible assumption
      | with_reducible apply ih
      | intro _
      | lift_lets
      | with_reducible apply fr_logFull
      | with_reducible apply fr_setSecState
      | with_reducible apply fr_setRcd
      | with_reducible apply fr_norProg
      | with_reducible apply fr_recShow
      | with_reducible apply fr_ite
      | split

theorem fr_flushTry (fpl : fp.lam = true) (fpn : fp.nor = true) (hfr : Fr fp s0 s1) : Fr fp s0 (State.flushTry s1) := by
  delta State.flushTry
  repeat' first
    | with_reducible assumption
    | intro _
    | lift_lets
    | with_reducible apply fr_setRcd
    | with_reducible apply fr_startUnit
    | with_reducible apply fr_recEvent
    | with_reducible apply fr_wl
    | with_reducible apply fr_ite
    | split

theorem fr_recWant (cause : ℕ) (fpl : fp.lam = true) (hfr : Fr fp s0 s1) : Fr fp s0 (State.recWant s1 cause) := by
  delta State.recWant
  repeat' first
    | with_reducible assumption
    | with_reducible apply fr_setRcd

theorem fr_recLose (why : ℕ) (fpl : fp.lam = true) (hfr : Fr fp s0 s1) : Fr fp s0 (State.recLose s1 why) := by
  delta State.recLose
  repeat' first
    | with_reducible assumption
    | intro _
    | with_reducible apply fr_il
    | with_reducible apply fr_setRcd
    | split

theorem fr_setRecSeq (n : ℕ) (fpl : fp.lam = true) (hfr : Fr fp s0 s1) : Fr fp s0 (State.setRecSeq s1 n) := by
  delta State.setRecSeq
  repeat' first
    | with_reducible assumption
    | with_reducible apply fr_wl

theorem fr_recRaw (o : RecOffer) (fpl : fp.lam = true) (hfr : Fr fp s0 s1) : Fr fp s0 (State.recRaw s1 o) := by
  delta State.recRaw
  repeat' first
    | with_reducible assumption
    | with_reducible apply fr_il
    | with_reducible apply fr_setRcd
    | with_reducible apply fr_setRecSeq

theorem fr_recPut (o : RecOffer) (fpl : fp.lam = true) (hfr : Fr fp s0 s1) : Fr fp s0 (State.recPut s1 o) := by
  delta State.recPut
  repeat' first
    | with_reducible assumption
    | intro _
    | with_reducible apply fr_recRaw
    | split

theorem fr_recEnter (o : RecOffer) (fpl : fp.lam = true) (hfr : Fr fp s0 s1) : Fr fp s0 (State.recEnter s1 o) := by
  delta State.recEnter
  repeat' first
    | with_reducible assumption
    | (intro x; (first | refine fr_cut (fp := fp) (s0 := s0) x ?_ (fun hx => ?_) | refine fr_cut (fp := fp) (s0 := s0) x.1 ?_ (fun hx => ?_) | refine fr_cut (fp := fp) (s0 := s0) x.2 ?_ (fun hx => ?_)); on_goal 1 => dsimp -zeta -zetaHave only [x])
    | intro _
    | with_reducible apply fr_recLose
    | with_reducible apply fr_setRcd
    | with_reducible apply fr_recWant
    | with_reducible apply fr_recShow
    | with_reducible apply fr_recPut
    | with_reducible apply fr_ite
    | split

theorem fr_recDrain (fpl : fp.lam = true) (hfr : Fr fp s0 s1) : Fr fp s0 (State.recDrain s1) := by
  delta State.recDrain
  repeat' first
    | with_reducible assumption
    | intro _
    | with_reducible apply fr_setRcd
    | with_reducible apply fr_recEnter
    | with_reducible apply fr_foldl
    | (with_reducible refine fr_mk (by with_reducible assumption) ?_ ?_) <;> first | exact .inl rfl | exact .inr ⟨by assumption, rfl⟩ | exact .inr ⟨by assumption, rfl, rfl, rfl, rfl, rfl, rfl⟩
    | split

theorem fr_recFlush (cause : ℕ) (fpl : fp.lam = true) (fpn : fp.nor = true) (hfr : Fr fp s0 s1) : Fr fp s0 (State.recFlush s1 cause) := by
  delta State.recFlush
  repeat' first
    | with_reducible assumption
    | with_reducible apply fr_flushTry
    | with_reducible apply fr_recWant
    | with_reducible apply fr_recDrain

theorem fr_eraseAll (fpl : fp.lam = true) (hfr : Fr fp s0 s1) : Fr fp s0 (State.eraseAll s1) := by
  delta State.eraseAll
  repeat' first
    | with_reducible assumption
    | with_reducible apply fr_setRcd

theorem fr_journalAdd (op : ℕ) (sec : ℕ) (logId : ℕ) (seq : ℕ) (fpl : fp.lam = true) (fpn : fp.nor = true) (hfr : Fr fp s0 s1) : Fr fp s0 (State.journalAdd s1 op sec logId seq) := by
  delta State.journalAdd
  repeat' first
    | with_reducible assumption
    | intro _
    | with_reducible apply fr_norProg
    | with_reducible apply fr_setRcd
    | with_reducible apply fr_ite

theorem fr_eraseStart (fpl : fp.lam = true) (fpn : fp.nor = true) (hfr : Fr fp s0 s1) : Fr fp s0 (State.eraseStart s1) := by
  delta State.eraseStart
  split
  all_goals repeat' first
    | with_reducible assumption
    | intro _
    | with_reducible apply fr_journalAdd
    | with_reducible apply fr_setRcd
    | with_reducible apply fr_wl
    | split

theorem fr_scanEnd (re : ℕ) (clearSeq : ℕ) (fpl : fp.lam = true) (fpn : fp.nor = true) (hfr : Fr fp s0 s1) : Fr fp s0 (State.scanEnd s1 re clearSeq) := by
  delta State.scanEnd
  repeat' first
    | with_reducible assumption
    | (intro x; (first | refine fr_cut (fp := fp) (s0 := s0) x ?_ (fun hx => ?_) | refine fr_cut (fp := fp) (s0 := s0) x.1 ?_ (fun hx => ?_) | refine fr_cut (fp := fp) (s0 := s0) x.2 ?_ (fun hx => ?_)); on_goal 1 => dsimp -zeta -zetaHave only [x])
    | (intro y; (first | have z : Option _ := y | have z : List _ := y); clear z; clear_value y)
    | intro _
    | lift_lets
    | with_reducible apply fr_il
    | with_reducible apply fr_setSecState
    | with_reducible apply fr_setRcd
    | with_reducible apply fr_recEvent
    | with_reducible apply fr_recDrain
    | with_reducible apply fr_recEnter
    | with_reducible apply fr_wl
    | with_reducible apply fr_recShow
    | with_reducible apply fr_setRecSeq
    | (with_reducible refine fr_mk (by with_reducible assumption) ?_ ?_) <;> first | exact .inl rfl | exact .inr ⟨by assumption, rfl⟩ | exact .inr ⟨by assumption, rfl, rfl, rfl, rfl, rfl, rfl⟩
    | split
    | dsimp -zeta -zetaHave only

theorem fr_erasesDone (fpl : fp.lam = true) (fpn : fp.nor = true) (hfr : Fr fp s0 s1) : Fr fp s0 (State.erasesDone s1) := by
  delta State.erasesDone
  repeat' first
    | with_reducible assumption
    | intro _
    | lift_lets
    | with_reducible apply fr_setRcd
    | with_reducible apply fr_flushTry
    | with_reducible apply fr_recEvent
    | with_reducible apply fr_scanEnd
    | with_reducible apply fr_wl
    | with_reducible apply fr_recShow
    | split

theorem fr_recScan (fpl : fp.lam = true) (fpn : fp.nor = true) (hfr : Fr fp s0 s1) : Fr fp s0 (State.recScan s1) := by
  delta State.recScan
  repeat' first
    | with_reducible assumption
    | (intro y; (first | have z : Option _ := y | have z : List _ := y); clear z; clear_value y)
    | intro _
    | lift_lets
    | with_reducible apply fr_il
    | with_reducible apply fr_setRcd
    | with_reducible apply fr_wl
    | with_reducible apply fr_eraseAll
    | with_reducible apply fr_eraseStart
    | with_reducible apply fr_erasesDone
    | split

theorem fr_setRecEnable (v : Bool) (fpl : fp.lam = true) (fpn : fp.nor = true) (hfr : Fr fp s0 s1) : Fr fp s0 (State.setRecEnable s1 v) := by
  delta State.setRecEnable
  repeat' first
    | with_reducible assumption
    | intro _
    | with_reducible apply fr_recScan
    | with_reducible apply fr_wl
    | with_reducible apply fr_ite

theorem fr_inRec (f : State → State × CmdRes) (hf : ∀ x0, Fr fp s0 x0 → Fr fp s0 (f x0).1) (hfr : Fr fp s0 s1) : Fr fp s0 (State.inRec s1 f).1 := by
  delta State.inRec
  repeat' first
    | intro _
    | with_reducible apply hf
    | (with_reducible refine fr_mk (by with_reducible assumption) ?_ ?_) <;> first | exact .inl rfl | exact .inr ⟨by assumption, rfl⟩ | exact .inr ⟨by assumption, rfl, rfl, rfl, rfl, rfl, rfl⟩
    | split

theorem fr_opRecFlush (fpl : fp.lam = true) (fpn : fp.nor = true) (hfr : Fr fp s0 s1) : Fr fp s0 (State.opRecFlush s1).1 := by
  delta State.opRecFlush
  repeat' first
    | with_reducible assumption
    | intro _
    | with_reducible apply fr_inRec
    | with_reducible apply fr_recFlush

theorem fr_execRecFlush (h : CmdHdr) (fpl : fp.lam = true) (fpn : fp.nor = true) (hfr : Fr fp s0 s1) : FrO fp s0 (execRecFlush h s1) := by
  delta execRecFlush
  repeat' first
    | with_reducible assumption
    | intro _
    | with_reducible apply FrO.next
    | with_reducible apply fr_opRecFlush
    | with_reducible apply fr_cmdLam

theorem fr_unfreeze (fpl : fp.lam = true) (fpn : fp.nor = true) (hfr : Fr fp s0 s1) : Fr fp s0 (State.unfreeze s1) := by
  delta State.unfreeze
  repeat' first
    | with_reducible assumption
    | intro _
    | with_reducible apply fr_setRcd
    | with_reducible apply fr_flushTry
    | with_reducible apply fr_recDrain
    | with_reducible apply fr_recEnter
    | with_reducible apply fr_wl
    | with_reducible apply fr_ite

theorem fr_opRecFreeze (on : Bool) (fpl : fp.lam = true) (fpn : fp.nor = true) (hfr : Fr fp s0 s1) : Fr fp s0 (State.opRecFreeze s1 on).1 := by
  delta State.opRecFreeze
  repeat' first
    | with_reducible assumption
    | intro _
    | with_reducible apply fr_unfreeze
    | with_reducible apply fr_inRec
    | with_reducible apply fr_setRcd
    | with_reducible apply fr_recDrain
    | with_reducible apply fr_wl
    | split

theorem fr_execRecFreeze (h : CmdHdr) (on : Bool) (fpl : fp.lam = true) (fpn : fp.nor = true) (hfr : Fr fp s0 s1) : FrO fp s0 (execRecFreeze h on s1) := by
  delta execRecFreeze
  repeat' first
    | with_reducible assumption
    | intro _
    | with_reducible apply FrO.next
    | with_reducible apply fr_opRecFreeze
    | with_reducible apply fr_cmdLam

theorem fr_opRecClear (fpl : fp.lam = true) (fpn : fp.nor = true) (hfr : Fr fp s0 s1) : Fr fp s0 (State.opRecClear s1).1 := by
  delta State.opRecClear
  repeat' first
    | with_reducible assumption
    | intro _
    | with_reducible apply fr_journalAdd
    | with_reducible apply fr_inRec
    | with_reducible apply fr_setRcd
    | with_reducible apply fr_wl
    | with_reducible apply fr_eraseAll
    | with_reducible apply fr_eraseStart
    | split

theorem fr_execRecClear (h : CmdHdr) (fpl : fp.lam = true) (fpn : fp.nor = true) (hfr : Fr fp s0 s1) : FrO fp s0 (execRecClear h s1) := by
  delta execRecClear
  repeat' first
    | with_reducible assumption
    | intro _
    | with_reducible apply FrO.next
    | with_reducible apply fr_cmdLam
    | with_reducible apply fr_opRecClear

theorem fr_opRecRead (off : ℕ) (n : ℕ) (hfr : Fr fp s0 s1) : Fr fp s0 (State.opRecRead s1 off n).1 := by
  delta State.opRecRead
  repeat' first
    | intro _
    | with_reducible apply fr_inRec
    | (with_reducible refine fr_mk (by with_reducible assumption) ?_ ?_) <;> first | exact .inl rfl | exact .inr ⟨by assumption, rfl⟩ | exact .inr ⟨by assumption, rfl, rfl, rfl, rfl, rfl, rfl⟩
    | split

theorem fr_execRecRead (h : CmdHdr) (off : ℕ) (n : ℕ) (fpl : fp.lam = true) (hfr : Fr fp s0 s1) : FrO fp s0 (execRecRead h off n s1) := by
  delta execRecRead
  repeat' first
    | with_reducible assumption
    | intro _
    | with_reducible apply FrO.next
    | with_reducible apply fr_opRecRead
    | with_reducible apply fr_cmdLam

theorem fr_recOffer (o : RecOffer) (fpl : fp.lam = true) (hfr : Fr fp s0 s1) : Fr fp s0 (State.recOffer s1 o) := by
  delta State.recOffer
  repeat' first
    | with_reducible assumption
    | intro _
    | with_reducible apply fr_setRcd
    | with_reducible apply fr_recDrain
    | with_reducible apply fr_recEnter
    | split

theorem fr_opRecNote (flush : Bool) (text : List ℕ) (fpl : fp.lam = true) (fpn : fp.nor = true) (hfr : Fr fp s0 s1) : Fr fp s0 (State.opRecNote s1 flush text).1 := by
  delta State.opRecNote
  repeat' first
    | with_reducible assumption
    | intro _
    | with_reducible apply fr_recOffer
    | with_reducible apply fr_inRec
    | with_reducible apply fr_flushTry
    | split

theorem fr_execRecNote (h : CmdHdr) (flush : Bool) (text : List ℕ) (fpl : fp.lam = true) (fpn : fp.nor = true) (hfr : Fr fp s0 s1) : FrO fp s0 (execRecNote h flush text s1) := by
  delta execRecNote
  repeat' first
    | with_reducible assumption
    | intro _
    | with_reducible apply FrO.next
    | with_reducible apply fr_opRecNote
    | with_reducible apply fr_cmdLam

theorem fr_recFault (code : ℕ) (d1 : ℕ) (d2 : ℕ) (fpl : fp.lam = true) (hfr : Fr fp s0 s1) : Fr fp s0 (State.recFault s1 code d1 d2) := by
  delta State.recFault
  repeat' first
    | with_reducible assumption
    | with_reducible apply fr_recOffer

theorem fr_norErase (sec : Nat) (fpl : fp.lam = true) (fpn : fp.nor = true) (hfr : Fr fp s0 s1) : Fr fp s0 (s1.norErase sec) :=
  fr_setNor _ fpl fpn (Sparse.wf_filter _ _) hfr

theorem fr_erased (t : ℕ) (x : ℕ) (fpl : fp.lam = true) (fpn : fp.nor = true) (hfr : Fr fp s0 s1) : Fr fp s0 (State.erased s1 t x) := by
  delta State.erased
  repeat' first
    | with_reducible assumption
    | intro _
    | with_reducible apply fr_journalAdd
    | with_reducible apply fr_norErase
    | with_reducible apply fr_norProg
    | with_reducible apply fr_setRcd
    | with_reducible apply fr_wl
    | with_reducible apply fr_ite

theorem fr_norError (sec : ℕ) (fpl : fp.lam = true) (hfr : Fr fp s0 s1) : Fr fp s0 (State.norError s1 sec) := by
  delta State.norError
  repeat' first
    | with_reducible assumption
    | with_reducible apply fr_il
    | with_reducible apply fr_setRcd
    | with_reducible apply fr_recEvent
    | with_reducible apply fr_wl

theorem fr_recPfw (a : Bool) (b : Bool) (discrepant : Bool) (ns : ℕ) (fpl : fp.lam = true) (fpn : fp.nor = true) (hfr : Fr fp s0 s1) : Fr fp s0 (State.recPfw s1 a b discrepant ns) := by
  delta State.recPfw
  repeat' first
    | with_reducible assumption
    | intro _
    | with_reducible apply fr_recOffer
    | with_reducible apply fr_setRcd
    | with_reducible apply fr_flushTry
    | with_reducible apply fr_recDrain
    | with_reducible apply fr_recEnter
    | with_reducible apply fr_wl
    | split

theorem fr_recResume (fpl : fp.lam = true) (fpn : fp.nor = true) (hfr : Fr fp s0 s1) : Fr fp s0 (State.recResume s1) := by
  delta State.recResume
  repeat' first
    | with_reducible assumption
    | intro _
    | with_reducible apply fr_recDrain
    | with_reducible apply fr_recEnter
    | with_reducible apply fr_wl
    | with_reducible apply fr_eraseStart
    | split

theorem fr_execNorEraseDone (ok : Bool) (fpl : fp.lam = true) (fpn : fp.nor = true) (hfr : Fr fp s0 s1) : FrO fp s0 (execNorEraseDone ok s1) := by
  delta execNorEraseDone
  repeat' first
    | with_reducible assumption
    | intro _
    | with_reducible apply FrO.next
    | with_reducible apply fr_norError
    | with_reducible apply fr_erased
    | with_reducible apply fr_setRcd
    | with_reducible apply fr_eraseStart
    | with_reducible apply fr_erasesDone
    | split

theorem fr_execRecorderFlushStart (fpl : fp.lam = true) (fpn : fp.nor = true) (hfr : Fr fp s0 s1) : FrO fp s0 (execRecorderFlushStart s1) := by
  delta execRecorderFlushStart
  repeat' first
    | with_reducible assumption
    | with_reducible apply FrO.next
    | with_reducible apply fr_flushTry

theorem fr_execRecCtlFlush (iss : Issuer) (fpl : fp.lam = true) (fpn : fp.nor = true) (hfr : Fr fp s0 s1) : FrO fp s0 (execRecCtlFlush iss s1) := by
  delta execRecCtlFlush
  repeat' first
    | with_reducible assumption
    | intro _
    | with_reducible apply FrO.next
    | with_reducible apply fr_recFlush
    | with_reducible apply fr_lamGuard
    | with_reducible apply frO_ite

theorem fr_execUnitCommit (ok : Bool) (fpl : fp.lam = true) (fpn : fp.nor = true) (hfr : Fr fp s0 s1) : FrO fp s0 (execUnitCommit ok s1) := by
  delta execUnitCommit
  repeat' first
    | with_reducible assumption
    | intro _
    | lift_lets
    | with_reducible apply FrO.next
    | with_reducible apply fr_norError
    | with_reducible apply fr_il
    | with_reducible apply fr_norProg
    | with_reducible apply fr_setRcd
    | with_reducible apply fr_startUnit
    | with_reducible apply fr_flushTry
    | with_reducible apply fr_wl
    | with_reducible apply fr_recShow
    | with_reducible apply fr_ite
    | split

theorem fr_execRecorderRecordEntry (fpl : fp.lam = true) (hfr : Fr fp s0 s1) : FrO fp s0 (execRecorderRecordEntry s1) := by
  delta execRecorderRecordEntry
  repeat' first
    | with_reducible assumption
    | intro _
    | with_reducible apply FrO.next
    | with_reducible apply fr_setRcd
    | with_reducible apply fr_recEnter
    | (with_reducible refine fr_mk (by with_reducible assumption) ?_ ?_) <;> first | exact .inl rfl | exact .inr ⟨by assumption, rfl⟩ | exact .inr ⟨by assumption, rfl, rfl, rfl, rfl, rfl, rfl⟩
    | split

theorem fr_execRecCtlEnableWrite (iss : Issuer) (v : Bool) (fpl : fp.lam = true) (fpn : fp.nor = true) (hfr : Fr fp s0 s1) : FrO fp s0 (execRecCtlEnableWrite iss v s1) := by
  delta execRecCtlEnableWrite
  repeat' first
    | with_reducible assumption
    | intro _
    | with_reducible apply FrO.next
    | with_reducible apply fr_setRecEnable
    | with_reducible apply fr_lamGuard
    | with_reducible apply frO_ite

theorem fr_execRecFreezeTimeout (fpl : fp.lam = true) (fpn : fp.nor = true) (hfr : Fr fp s0 s1) : FrO fp s0 (execRecFreezeTimeout s1) := by
  delta execRecFreezeTimeout
  repeat' first
    | with_reducible assumption
    | intro _
    | with_reducible apply FrO.next
    | with_reducible apply fr_unfreeze
    | split

end Sys2Proof.Machine
end

