-- ==== Sys2Proof/Laws/FrBoard.lean ====
section
/-! SUPPORT. What each operation of Machine/Board.lean can change, in the form of Laws/Frame.lean. -/

set_option linter.unusedTactic false
set_option linter.unreachableTactic false

namespace Sys2Proof.Machine

variable {fp : Parts} {s0 s1 : State}

theorem fr_setPos (row : ℕ) (rack : ℕ) (tray : ℕ) (fpl : fp.lam = true) (hfr : Fr fp s0 s1) : Fr fp s0 (State.setPos s1 row rack tray) := by
  delta State.setPos
  repeat' first
    | with_reducible assumption
    | intro _
    | with_reducible apply fr_wl
    | split

theorem fr_imageCheck (m : Memory) (at0 : ℕ) (hfr : Fr fp s0 s1) : Fr fp s0 (State.imageCheck s1 m at0).1 := by
  delta State.imageCheck
  repeat' first
    | intro _
    | with_reducible apply fr_free
    | with_reducible apply fr_ite_fst
    | (with_reducible refine fr_mk (by with_reducible assumption) ?_ ?_) <;> first | exact .inl rfl | exact .inr ⟨by assumption, rfl⟩ | exact .inr ⟨by assumption, rfl, rfl, rfl, rfl, rfl, rfl⟩
    | split

theorem fr_bootImage (image : ℕ) (version : ℕ) (fpl : fp.lam = true) (hfr : Fr fp s0 s1) : Fr fp s0 (State.bootImage s1 image version) := by
  delta State.bootImage
  repeat' first
    | with_reducible assumption
    | with_reducible apply fr_wl

theorem fr_bootRun (fpl : fp.lam = true) (hfr : Fr fp s0 s1) : Fr fp s0 (State.bootRun s1) := by
  delta State.bootRun
  repeat' first
    | with_reducible assumption
    | intro _
    | with_reducible apply fr_imageCheck
    | with_reducible apply fr_bootImage
    | with_reducible apply fr_wl
    | with_reducible apply fr_ite

theorem fr_keyProg (auth : Sys2Proof.Auth) (slot : Nat) (fpl : fp.lam = true) (hfr : Fr fp s0 s1) :
    Fr fp s0 (State.keyProg s1 auth slot) := by
  unfold State.keyProg
  extract_lets data prov _ put
  have hp : ∀ n, Fr fp s0 (put n) := fun n => Fr.lamAll fpl hfr _ id (.inl rfl) (.inl rfl) id (.inl rfl) (List.prefix_append _ _)
  split
  · exact hfr
  split
  · split
    · exact fr_wl _ _ _ _ fpl (hp _)
    · exact hfr
  split
  · split
    · exact fr_wl _ _ _ _ fpl (hp _)
    · exact hfr
  · exact hfr

theorem fr_setDdr (v : Bool) (fpl : fp.lam = true) (hfr : Fr fp s0 s1) : Fr fp s0 (State.setDdr s1 v) := by
  delta State.setDdr
  repeat' first
    | with_reducible assumption
    | intro _
    | with_reducible apply fr_wl
    | split

theorem fr_boardEvent (code : ℕ) (d1 : ℕ) (d2 : ℕ) (fpl : fp.lam = true) (hfr : Fr fp s0 s1) : Fr fp s0 (State.boardEvent s1 code d1 d2) := by
  delta State.boardEvent
  repeat' first
    | with_reducible assumption
    | with_reducible apply fr_raiseVec
    | with_reducible apply fr_lamEmit

theorem fr_setPdCtl (v : ℕ) (fpl : fp.lam = true) (hfr : Fr fp s0 s1) : Fr fp s0 (State.setPdCtl s1 v) := by
  delta State.setPdCtl
  repeat' first
    | with_reducible assumption
    | intro _
    | with_reducible apply fr_boardEvent
    | with_reducible apply fr_pdRetarget
    | with_reducible apply fr_wl
    | with_reducible apply fr_ite

theorem fr_setBrd (b : Brd) (fpl : fp.lam = true) (hn : b.nor = s1.lam.brd.nor)
    (hs : Memory.wf norDefault s1.lam.brd.sram = true → Memory.wf norDefault b.sram = true) (hfr : Fr fp s0 s1) : Fr fp s0 (s1.setBrd b) :=
  Fr.lamAll fpl hfr _ id (.inl rfl) (.inl hn) hs (.inl rfl) List.prefix_rfl

theorem fr_boardDue (fpl : fp.lam = true) (hfr : Fr fp s0 s1) : Fr fp s0 (State.boardDue s1) := by
  delta State.boardDue
  repeat' first
    | with_reducible assumption
    | intro _
    | with_reducible apply fr_setBrd
    | with_reducible apply fr_boardEvent
    | with_reducible apply fr_foldl
    | split
    | dsimp -zeta -zetaHave only

theorem fr_lamFault (F : Fld) (fpl : fp.lam = true) (hfr : Fr fp s0 s1) : Fr fp s0 (State.lamFault s1 F) := by
  delta State.lamFault
  repeat' first
    | with_reducible assumption
    | intro _
    | with_reducible apply fr_raiseVec
    | with_reducible apply fr_wl
    | with_reducible apply fr_ite

theorem fr_bootFallback (image : ℕ) (version : ℕ) (fpl : fp.lam = true) (hfr : Fr fp s0 s1) : Fr fp s0 (State.bootFallback s1 image version) := by
  delta State.bootFallback
  repeat' first
    | with_reducible assumption
    | with_reducible apply fr_boardEvent
    | with_reducible apply fr_recFault
    | with_reducible apply fr_lamFault

theorem fr_bootChoose (fpl : fp.lam = true) (hfr : Fr fp s0 s1) : Fr fp s0 (State.bootChoose s1) := by
  delta State.bootChoose
  repeat' first
    | with_reducible assumption
    | intro _
    | with_reducible apply fr_imageCheck
    | with_reducible apply fr_bootFallback
    | with_reducible apply fr_bootImage
    | with_reducible apply fr_wl
    | with_reducible apply fr_ite

theorem fr_ddrUe (line : ℕ) (fpl : fp.lam = true) (hfr : Fr fp s0 s1) : Fr fp s0 (State.ddrUe s1 line) := by
  delta State.ddrUe
  repeat' first
    | with_reducible assumption
    | with_reducible apply fr_il
    | with_reducible apply fr_boardEvent
    | with_reducible apply fr_recFault
    | with_reducible apply fr_lamFault
    | with_reducible apply fr_wl
    | (with_reducible refine fr_mk (by with_reducible assumption) ?_ ?_) <;> first | exact .inl rfl | exact .inr ⟨by assumption, rfl⟩ | exact .inr ⟨by assumption, rfl, rfl, rfl, rfl, rfl, rfl⟩

theorem fr_ddrLine (line : ℕ) (e : Ecc) (fpl : fp.lam = true) (hfr : Fr fp s0 s1) : Fr fp s0 (State.ddrLine s1 line e).1 := by
  delta State.ddrLine
  repeat' first
    | with_reducible assumption
    | intro _
    | with_reducible apply fr_il
    | with_reducible apply fr_ddrUe
    | split

theorem fr_lamLose (n : Nat) (fpl : fp.lam = true) (fpd : fp.ddr = true) (hfr : Fr fp s0 s1) : Fr fp s0 (s1.lamLose n) := by
  unfold State.lamLose
  extract_lets fresh s a1 l e l' s'
  have hs : Fr fp s0 s := fr_ite (fun _ => by repeat' first | assumption | apply fr_ringAbort) (fun _ => hfr)
  have hs' : Fr fp s0 s' := by
    refine Fr.lamAll fpl hs l' (fun h => ?_) ?_ (.inl ?_) (fun h => ?_) (.inl ?_) ?_
    · dsimp only [l']; split <;> exact Sparse.wf_filter _ _ h
    · dsimp only [l']
      split
      all_goals first | exact .inl rfl | exact .inr ⟨fpd, Sparse.wf_filter _ _⟩
    · dsimp only [l']; split <;> rfl
    · dsimp only [l']; split <;> exact h
    · dsimp only [l']; split <;> rfl
    · dsimp only [l']; split <;> exact List.prefix_rfl
  clear_value s'
  exact fr_ite (fun _ => fr_wl _ _ _ _ fpl hs') fun _ => fr_ite (fun _ => fr_wl _ _ _ _ fpl hs') fun _ => hs'

theorem fr_pfwDeclare (first : ℕ) (discrepant : Bool) (fpl : fp.lam = true) (fpn : fp.nor = true) (hfr : Fr fp s0 s1) : Fr fp s0 (State.pfwDeclare s1 first discrepant) := by
  delta State.pfwDeclare
  repeat' first
    | with_reducible assumption
    | with_reducible apply fr_boardEvent
    | with_reducible apply fr_recPfw
    | with_reducible apply fr_wl

theorem fr_roleResets (role : ℕ) (fpl : fp.lam = true) (hfr : Fr fp s0 s1) : Fr fp s0 (State.roleResets s1 role) := by
  delta State.roleResets
  repeat' first
    | with_reducible assumption
    | with_reducible apply fr_wl

theorem fr_setPfw (p : Pfw) (fpl : fp.lam = true) (hfr : Fr fp s0 s1) : Fr fp s0 (State.setPfw s1 p) := by
  delta State.setPfw
  repeat' first
    | with_reducible assumption
    | intro _
    | with_reducible apply fr_setBrd
    | with_reducible apply fr_wl
    | dsimp -zeta -zetaHave only

theorem fr_execKeyRevokeWrite (iss : Issuer) (v : ℕ) (fpl : fp.lam = true) (hfr : Fr fp s0 s1) : FrO fp s0 (execKeyRevokeWrite iss v s1) := by
  delta execKeyRevokeWrite
  repeat' first
    | with_reducible assumption
    | intro _
    | with_reducible apply FrO.next
    | with_reducible apply fr_lamGuard
    | with_reducible apply fr_wl
    | with_reducible apply frO_ite

theorem fr_execDdrCtlEnable (iss : Issuer) (v : Bool) (fpl : fp.lam = true) (hfr : Fr fp s0 s1) : FrO fp s0 (execDdrCtlEnable iss v s1) := by
  delta execDdrCtlEnable
  repeat' first
    | with_reducible assumption
    | intro _
    | with_reducible apply FrO.next
    | with_reducible apply fr_setDdr
    | with_reducible apply fr_lamGuard
    | with_reducible apply frO_ite

theorem fr_execPfwClear (fpl : fp.lam = true) (fpn : fp.nor = true) (hfr : Fr fp s0 s1) : FrO fp s0 (execPfwClear s1) := by
  delta execPfwClear
  repeat' first
    | with_reducible assumption
    | intro _
    | lift_lets
    | with_reducible apply FrO.next
    | with_reducible apply fr_boardEvent
    | with_reducible apply fr_recResume
    | with_reducible apply fr_wl
    | split

theorem fr_execPorNAssert (fpl : fp.lam = true) (fpd : fp.ddr = true) (fpo : fp.por = true) (hfr : Fr fp s0 s1) : FrO fp s0 (execPorNAssert s1) := by
  refine FrO.next (fr_wl _ _ _ _ fpl (fr_wl _ _ _ _ fpl (fr_wl _ _ _ _ fpl (fr_wl _ _ _ _ fpl ?_))))
  refine Fr.upd (Fr.lamAll fpl hfr { bkt := lamBuckets, keys := s1.lam.keys, brd := { nor := s1.lam.brd.nor } } (fun _ => rfl)
    (.inr ⟨fpd, fun _ => rfl⟩) (.inl rfl) (fun _ => rfl) (.inr fpo) List.prefix_rfl) rfl (.inl rfl) (.inl rfl)

theorem fr_execBar2Access (write : Bool) (off : ℕ) (n : ℕ) (bs : List ℕ) (fpl : fp.lam = true) (fpd : fp.ddr = true) (hfr : Fr fp s0 s1) : FrO fp s0 (execBar2Access write off n bs s1) := by
  delta execBar2Access
  have hil := fr_il L.DDR_CNT_WIN_BAD 1 0 0 fpl hfr
  have hip := fr_il L.DDR_CNT_PCIE_POISON 1 0 0 fpl hfr
  all_goals repeat' first
    | with_reducible assumption
    | intro _
    | with_reducible apply FrO.next
    | with_reducible apply fr_setBrd
    | with_reducible apply fr_il
    | with_reducible apply fr_ddrPut
    | with_reducible apply frO_ite
    | (with_reducible refine fr_mk (by with_reducible assumption) ?_ ?_) <;> first | exact .inl rfl | exact .inr ⟨by assumption, rfl⟩ | exact .inr ⟨by assumption, rfl, rfl, rfl, rfl, rfl, rfl⟩
    | with_reducible apply Memory.wf_write
    | split
    | dsimp -zeta -zetaHave only

theorem fr_execLamPosWrite (iss : Issuer) (row : ℕ) (rack : ℕ) (tray : ℕ) (fpl : fp.lam = true) (hfr : Fr fp s0 s1) : FrO fp s0 (execLamPosWrite iss row rack tray s1) := by
  delta execLamPosWrite
  repeat' first
    | with_reducible assumption
    | intro _
    | with_reducible apply FrO.next
    | with_reducible apply fr_setPos
    | with_reducible apply fr_lamGuard
    | with_reducible apply frO_ite

theorem fr_execKeyProgGo (iss : Issuer) (slot : ℕ) (fpl : fp.lam = true) (hfr : Fr fp s0 s1) : FrO fp s0 (execKeyProgGo iss slot s1) := by
  delta execKeyProgGo
  repeat' first
    | with_reducible assumption
    | intro _
    | with_reducible apply FrO.next
    | with_reducible apply fr_keyProg
    | with_reducible apply fr_lamGuard
    | with_reducible apply frO_ite

theorem fr_execPorNRise (role : Nat) (standby prov bootAlt : Bool) (fpl : fp.lam = true) (fpo : fp.por = true) (hfr : Fr fp s0 s1) :
    FrO fp s0 (execPorNRise role standby prov bootAlt s1) := by
  unfold execPorNRise
  extract_lets r _ _ s a b
  have hs : Fr fp s0 s := Fr.lamAll fpl hfr _ id (.inl rfl) (.inl rfl) id (.inr fpo) List.prefix_rfl
  clear_value s
  split
  · exact FrO.next hfr
  · exact FrO.next (fr_bootChoose fpl (fr_roleResets _ fpl (fr_wl _ _ _ _ fpl (fr_wl _ _ _ _ fpl (fr_wl _ _ _ _ fpl
      (fr_wl _ _ _ _ fpl (fr_wl _ _ _ _ fpl hs)))))))

theorem fr_execPfwDiscrepancyTimeout (fpl : fp.lam = true) (fpn : fp.nor = true) (hfr : Fr fp s0 s1) : FrO fp s0 (execPfwDiscrepancyTimeout s1) := by
  delta execPfwDiscrepancyTimeout
  repeat' first
    | with_reducible assumption
    | intro _
    | with_reducible apply FrO.next
    | with_reducible apply fr_pfwDeclare
    | with_reducible apply fr_lamFault
    | with_reducible apply frO_ite
    | split

theorem fr_execDdrTrainingDone (mask : ℕ) (fpl : fp.lam = true) (hfr : Fr fp s0 s1) : FrO fp s0 (execDdrTrainingDone mask s1) := by
  delta execDdrTrainingDone
  repeat' first
    | with_reducible assumption
    | intro _
    | with_reducible apply FrO.next
    | with_reducible apply fr_wl
    | split

theorem fr_execDdrRead (line : ℕ) (e : Ecc) (fpl : fp.lam = true) (hfr : Fr fp s0 s1) : FrO fp s0 (execDdrRead line e s1) := by
  delta execDdrRead
  repeat' first
    | with_reducible assumption
    | (intro x; (first | refine fr_cut (fp := fp) (s0 := s0) x ?_ (fun hx => ?_) | refine fr_cut (fp := fp) (s0 := s0) x.1 ?_ (fun hx => ?_) | refine fr_cut (fp := fp) (s0 := s0) x.2 ?_ (fun hx => ?_)); on_goal 1 => dsimp -zeta -zetaHave only [x])
    | intro _
    | lift_lets
    | exact FrO.fault _
    | with_reducible apply FrO.next
    | with_reducible apply fr_ddrLine
    | (with_reducible refine fr_mk (by with_reducible assumption) ?_ ?_) <;> first | exact .inl rfl | exact .inr ⟨by assumption, rfl⟩ | exact .inr ⟨by assumption, rfl, rfl, rfl, rfl, rfl, rfl⟩
    | split

theorem fr_execPfwAssert (b : Bool) (fpl : fp.lam = true) (fpn : fp.nor = true) (hfr : Fr fp s0 s1) : FrO fp s0 (execPfwAssert b s1) := by
  delta execPfwAssert
  repeat' first
    | with_reducible assumption
    | intro _
    | with_reducible apply FrO.next
    | with_reducible apply fr_pfwDeclare
    | with_reducible apply fr_setPfw
    | with_reducible apply frO_ite
    | split

theorem fr_execPerstN (fpl : fp.lam = true) (hfr : Fr fp s0 s1) : FrO fp s0 (execPerstN s1) := by
  delta execPerstN
  repeat' first
    | with_reducible assumption
    | (intro x; (first | refine fr_cut (fp := fp) (s0 := s0) x ?_ (fun hx => ?_) | refine fr_cut (fp := fp) (s0 := s0) x.1 ?_ (fun hx => ?_) | refine fr_cut (fp := fp) (s0 := s0) x.2 ?_ (fun hx => ?_)); on_goal 1 => dsimp -zeta -zetaHave only [x])
    | intro _
    | lift_lets
    | with_reducible apply FrO.next
    | with_reducible apply fr_wl
    | with_reducible apply fr_foldl
    | (with_reducible refine fr_mk (by with_reducible assumption) ?_ ?_) <;> first | exact .inl rfl | exact .inr ⟨by assumption, rfl⟩ | exact .inr ⟨by assumption, rfl, rfl, rfl, rfl, rfl, rfl⟩

theorem fr_execDdrPartialWrite (line : ℕ) (off : ℕ) (bs : List ℕ) (e : Ecc) (fpl : fp.lam = true) (fpd : fp.ddr = true) (hfr : Fr fp s0 s1) : FrO fp s0 (execDdrPartialWrite line off bs e s1) := by
  delta execDdrPartialWrite
  repeat' first
    | with_reducible assumption
    | (intro x; (first | refine fr_cut (fp := fp) (s0 := s0) x ?_ (fun hx => ?_) | refine fr_cut (fp := fp) (s0 := s0) x.1 ?_ (fun hx => ?_) | refine fr_cut (fp := fp) (s0 := s0) x.2 ?_ (fun hx => ?_)); on_goal 1 => dsimp -zeta -zetaHave only [x])
    | intro _
    | lift_lets
    | exact FrO.fault _
    | with_reducible apply FrO.next
    | with_reducible apply fr_il
    | with_reducible apply fr_ddrPut
    | (with_reducible refine fr_mk (by with_reducible assumption) ?_ ?_) <;> first | exact .inl rfl | exact .inr ⟨by assumption, rfl⟩ | exact .inr ⟨by assumption, rfl, rfl, rfl, rfl, rfl, rfl⟩
    | split

theorem fr_execLamBootCmdRun (iss : Issuer) (fpl : fp.lam = true) (hfr : Fr fp s0 s1) : FrO fp s0 (execLamBootCmdRun iss s1) := by
  delta execLamBootCmdRun
  repeat' first
    | with_reducible assumption
    | intro _
    | with_reducible apply FrO.next
    | with_reducible apply fr_bootRun
    | with_reducible apply fr_lamGuard
    | with_reducible apply frO_ite

theorem fr_execThermalTrip (temp : ℕ) (fpl : fp.lam = true) (fpd : fp.ddr = true) (hfr : Fr fp s0 s1) : FrO fp s0 (execThermalTrip temp s1) := by
  delta execThermalTrip
  repeat' first
    | with_reducible assumption
    | (intro x; (first | refine fr_cut (fp := fp) (s0 := s0) x ?_ (fun hx => ?_) | refine fr_cut (fp := fp) (s0 := s0) x.1 ?_ (fun hx => ?_) | refine fr_cut (fp := fp) (s0 := s0) x.2 ?_ (fun hx => ?_)); on_goal 1 => dsimp -zeta -zetaHave only [x])
    | intro _
    | lift_lets
    | with_reducible apply FrO.next
    | with_reducible apply fr_boardEvent
    | with_reducible apply fr_lamLose
    | with_reducible apply fr_recFault
    | with_reducible apply fr_lamFault
    | with_reducible apply fr_wl
    | with_reducible apply fr_foldl
    | (with_reducible refine fr_mk (by with_reducible assumption) ?_ ?_) <;> first | exact .inl rfl | exact .inr ⟨by assumption, rfl⟩ | exact .inr ⟨by assumption, rfl, rfl, rfl, rfl, rfl, rfl⟩
    | split

theorem fr_execPatrolScrub (line : ℕ) (e : Ecc) (intervened : Bool) (last : Bool) (fpl : fp.lam = true) (hfr : Fr fp s0 s1) : FrO fp s0 (execPatrolScrub line e intervened last s1) := by
  delta execPatrolScrub
  repeat' first
    | with_reducible assumption
    | (intro x; (first | refine fr_cut (fp := fp) (s0 := s0) x ?_ (fun hx => ?_) | refine fr_cut (fp := fp) (s0 := s0) x.1 ?_ (fun hx => ?_) | refine fr_cut (fp := fp) (s0 := s0) x.2 ?_ (fun hx => ?_)); on_goal 1 => dsimp -zeta -zetaHave only [x])
    | intro _
    | lift_lets
    | exact FrO.fault _
    | with_reducible apply FrO.next
    | with_reducible apply fr_ddrLine
    | with_reducible apply fr_wl
    | (with_reducible refine fr_mk (by with_reducible assumption) ?_ ?_) <;> first | exact .inl rfl | exact .inr ⟨by assumption, rfl⟩ | exact .inr ⟨by assumption, rfl, rfl, rfl, rfl, rfl, rfl⟩
    | split

theorem fr_execDomainSwitchDone (fpl : fp.lam = true) (fpd : fp.ddr = true) (hfr : Fr fp s0 s1) : FrO fp s0 (execDomainSwitchDone s1) := by
  delta execDomainSwitchDone
  repeat' first
    | with_reducible assumption
    | intro _
    | lift_lets
    | with_reducible apply FrO.next
    | with_reducible apply fr_pdRetarget
    | with_reducible apply fr_lamLose
    | with_reducible apply fr_wl
    | split

theorem fr_execCoreWdog (core : ℕ) (fpl : fp.lam = true) (fpn : fp.nor = true) (hfr : Fr fp s0 s1) : FrO fp s0 (execCoreWdog core s1) := by
  delta execCoreWdog
  repeat' first
    | with_reducible assumption
    | intro _
    | with_reducible apply FrO.next
    | with_reducible apply fr_setBrd
    | with_reducible apply fr_flushTry
    | with_reducible apply fr_recFault
    | dsimp -zeta -zetaHave only

theorem fr_execPdCtlWrite (iss : Issuer) (v : ℕ) (fpl : fp.lam = true) (hfr : Fr fp s0 s1) : FrO fp s0 (execPdCtlWrite iss v s1) := by
  delta execPdCtlWrite
  repeat' first
    | with_reducible assumption
    | intro _
    | with_reducible apply FrO.next
    | with_reducible apply fr_setPdCtl
    | with_reducible apply fr_lamGuard
    | with_reducible apply frO_ite

theorem fr_execPfwDeassert (b : Bool) (fpl : fp.lam = true) (hfr : Fr fp s0 s1) : FrO fp s0 (execPfwDeassert b s1) := by
  delta execPfwDeassert
  repeat' first
    | with_reducible assumption
    | intro _
    | lift_lets
    | with_reducible apply FrO.next
    | with_reducible apply fr_setPfw
    | with_reducible apply fr_il
    | split

end Sys2Proof.Machine
end

