-- ==== Sys2Proof/Laws/FrDigestI.lean ====
section
/-! SUPPORT. What each operation of Machine/DigestI.lean can change, in the form of Laws/Frame.lean. -/

set_option linter.unusedTactic false
set_option linter.unreachableTactic false

namespace Sys2Proof.Machine

variable {fp : Parts} {s0 s1 : State}

theorem fr_setDig (d : Dig) (fpi : fp.itu = true) (hfr : Fr fp s0 s1) : Fr fp s0 (State.setDig s1 d) := by
  delta State.setDig
  repeat' first
    | (with_reducible refine fr_mk (by with_reducible assumption) ?_ ?_) <;> first | exact .inl rfl | exact .inr ⟨by assumption, rfl⟩ | exact .inr ⟨by assumption, rfl, rfl, rfl, rfl, rfl, rfl⟩

theorem fr_digIdle (fpi : fp.itu = true) (hfr : Fr fp s0 s1) : Fr fp s0 (State.digIdle s1) := by
  delta State.digIdle
  repeat' first
    | with_reducible assumption
    | with_reducible apply fr_wi

theorem fr_digRelease (p : ℕ) (fpi : fp.itu = true) (hfr : Fr fp s0 s1) : Fr fp s0 (State.digRelease s1 p) := by
  delta State.digRelease
  repeat' first
    | with_reducible assumption
    | intro _
    | lift_lets
    | with_reducible apply fr_setDig
    | with_reducible apply fr_digIdle
    | split

theorem fr_digLast (result : ℕ) (fpi : fp.itu = true) (hfr : Fr fp s0 s1) : Fr fp s0 (State.digLast s1 result) := by
  delta State.digLast
  repeat' first
    | with_reducible assumption
    | intro _
    | with_reducible apply fr_wi
    | with_reducible apply fr_ii
    | split

theorem fr_digClose (result : ℕ) (fpi : fp.itu = true) (hfr : Fr fp s0 s1) : Fr fp s0 (State.digClose s1 result) := by
  delta State.digClose
  repeat' first
    | with_reducible assumption
    | (intro x; (first | refine fr_cut (fp := fp) (s0 := s0) x ?_ (fun hx => ?_) | refine fr_cut (fp := fp) (s0 := s0) x.1 ?_ (fun hx => ?_) | refine fr_cut (fp := fp) (s0 := s0) x.2 ?_ (fun hx => ?_)); on_goal 1 => dsimp -zeta -zetaHave only [x])
    | intro _
    | with_reducible apply fr_setDig
    | with_reducible apply fr_digLast
    | with_reducible apply fr_digIdle
    | with_reducible apply fr_free
    | split

theorem fr_writeDigStep (step : ℕ) (fpi : fp.itu = true) (hfr : Fr fp s0 s1) : Fr fp s0 (State.writeDigStep s1 step) := by
  delta State.writeDigStep
  repeat' first
    | with_reducible assumption
    | intro _
    | with_reducible apply fr_setDig
    | with_reducible apply fr_wi
    | with_reducible apply fr_digClose
    | with_reducible apply fr_ii
    | with_reducible apply fr_ite

theorem fr_digGuard (iss : Issuer) (a : ℕ) (fpi : fp.itu = true) (hfr : Fr fp s0 s1) : Fr fp s0 (State.digGuard s1 iss a).1 := by
  delta State.digGuard
  repeat' first
    | with_reducible assumption
    | intro _
    | with_reducible apply fr_ituGuard
    | with_reducible apply fr_ituPriv
    | split

theorem fr_digRequest (list : Bool) (a : ℕ) (n : ℕ) (fpi : fp.itu = true) (hfr : Fr fp s0 s1) : Fr fp s0 (State.digRequest s1 list a n) := by
  delta State.digRequest
  repeat' first
    | with_reducible assumption
    | intro _
    | with_reducible apply fr_setDig
    | with_reducible apply fr_ite
    | (with_reducible refine fr_mk (by with_reducible assumption) ?_ ?_) <;> first | exact .inl rfl | exact .inr ⟨by assumption, rfl⟩ | exact .inr ⟨by assumption, rfl, rfl, rfl, rfl, rfl, rfl⟩
    | split

theorem fr_digNext (fpi : fp.itu = true) (hfr : Fr fp s0 s1) : Fr fp s0 (State.digNext s1) := by
  delta State.digNext
  repeat' first
    | with_reducible assumption
    | intro _
    | with_reducible apply fr_digRequest
    | with_reducible apply fr_ite
    | split

theorem fr_digList (y1 : ℕ) (y2 : List ℕ) (fpi : fp.itu = true) (hfr : Fr fp s0 s1) : Fr fp s0 (State.digList s1 y1 y2) := by
  induction y1 generalizing s1 y2 with
  | zero => exact hfr
  | succ n ih =>
    rw [State.digList]
    repeat' first
      | with_reducible assumption
      | with_reducible apply ih
      | intro _
      | with_reducible apply fr_setDig
      | with_reducible apply fr_digClose
      | split

theorem fr_digData (t : Tag) (status : MemStatus) (fpi : fp.itu = true) (hfr : Fr fp s0 s1) : Fr fp s0 (State.digData s1 t status) := by
  delta State.digData
  repeat' first
    | with_reducible assumption
    | intro _
    | with_reducible apply fr_digNext
    | with_reducible apply fr_setDig
    | with_reducible apply fr_digList
    | with_reducible apply fr_digClose
    | with_reducible apply fr_ite
    | split

theorem fr_execDigCtlAbort (iss : Issuer) (fpi : fp.itu = true) (hfr : Fr fp s0 s1) : FrO fp s0 (execDigCtlAbort iss s1) := by
  delta execDigCtlAbort
  repeat' first
    | with_reducible assumption
    | intro _
    | with_reducible apply FrO.next
    | with_reducible apply fr_ituGuard
    | with_reducible apply fr_digClose
    | with_reducible apply frO_ite

theorem fr_execDigWindowOpen (fpi : fp.itu = true) (hfr : Fr fp s0 s1) : FrO fp s0 (execDigWindowOpen s1) := by
  delta execDigWindowOpen
  repeat' first
    | with_reducible assumption
    | intro _
    | with_reducible apply FrO.next
    | with_reducible apply fr_digNext
    | with_reducible apply fr_setDig
    | with_reducible apply fr_wi
    | split

theorem fr_execDigUnstableWrite (iss : Issuer) (fpi : fp.itu = true) (hfr : Fr fp s0 s1) : FrO fp s0 (execDigUnstableWrite iss s1) := by
  delta execDigUnstableWrite
  repeat' first
    | with_reducible assumption
    | intro _
    | with_reducible apply FrO.next
    | with_reducible apply fr_digClose
    | with_reducible apply fr_digGuard
    | with_reducible apply frO_ite

theorem fr_execDigWindowClose (fpi : fp.itu = true) (hfr : Fr fp s0 s1) : FrO fp s0 (execDigWindowClose s1) := by
  delta execDigWindowClose
  repeat' first
    | with_reducible assumption
    | intro _
    | with_reducible apply FrO.next
    | with_reducible apply fr_digClose
    | split

theorem fr_execDigShardEmit (fpi : fp.itu = true) (hfr : Fr fp s0 s1) : FrO fp s0 (execDigShardEmit s1) := by
  delta execDigShardEmit
  repeat' first
    | with_reducible assumption
    | intro _
    | lift_lets
    | with_reducible apply FrO.next
    | with_reducible apply fr_setDig
    | with_reducible apply fr_digIdle
    | with_reducible apply fr_storeSend
    | with_reducible apply fr_ii
    | with_reducible apply fr_ite
    | split

theorem fr_execDigStepWrite (iss : Issuer) (step : ℕ) (fpi : fp.itu = true) (hfr : Fr fp s0 s1) : FrO fp s0 (execDigStepWrite iss step s1) := by
  delta execDigStepWrite
  repeat' first
    | with_reducible assumption
    | intro _
    | with_reducible apply FrO.next
    | with_reducible apply fr_writeDigStep
    | with_reducible apply fr_digGuard
    | with_reducible apply frO_ite

end Sys2Proof.Machine
end

