-- ==== Sys2Proof/Laws/FrGauntletI.lean ====
section
/-! SUPPORT. What each operation of Machine/GauntletI.lean can change, in the form of Laws/Frame.lean. -/

set_option linter.unusedTactic false
set_option linter.unreachableTactic false

namespace Sys2Proof.Machine

variable {fp : Parts} {s0 s1 : State}

theorem fr_gntRelease (p : ℕ) (fpi : fp.itu = true) (hfr : Fr fp s0 s1) : Fr fp s0 (State.gntRelease s1 p) := by
  delta State.gntRelease
  repeat' first
    | with_reducible assumption
    | intro _
    | with_reducible apply fr_ituOffer
    | with_reducible apply fr_gntIdle
    | with_reducible apply fr_setGnt
    | split

theorem fr_srReq (op : ℕ) (fpi : fp.itu = true) (hfr : Fr fp s0 s1) : Fr fp s0 (State.srReq s1 op) := by
  delta State.srReq
  repeat' first
    | with_reducible assumption
    | with_reducible apply fr_setPins

theorem fr_sliceRestore (cause : ℕ) (fpi : fp.itu = true) (hfr : Fr fp s0 s1) : Fr fp s0 (State.sliceRestore s1 cause) := by
  delta State.sliceRestore
  repeat' first
    | with_reducible assumption
    | with_reducible apply fr_gntRan
    | with_reducible apply fr_setGnt
    | with_reducible apply fr_gntState
    | with_reducible apply fr_srReq

theorem fr_sliceCompare (wso : List (List ℕ)) (fpi : fp.itu = true) (hfr : Fr fp s0 s1) : Fr fp s0 (State.sliceCompare s1 wso) := by
  delta State.sliceCompare
  repeat' first
    | with_reducible assumption
    | with_reducible apply fr_setGnt
    | with_reducible apply fr_wi

theorem fr_gntAbort (wso : List (List ℕ)) (fpi : fp.itu = true) (hfr : Fr fp s0 s1) : Fr fp s0 (State.gntAbort s1 wso) := by
  delta State.gntAbort
  repeat' first
    | with_reducible assumption
    | intro _
    | with_reducible apply fr_canaryEnd
    | with_reducible apply fr_gntIdle
    | with_reducible apply fr_pdTryAll
    | with_reducible apply fr_sliceRestore
    | with_reducible apply fr_setGnt
    | with_reducible apply fr_gntWaited
    | with_reducible apply fr_sliceEnd
    | with_reducible apply fr_sliceCompare
    | split

theorem fr_opGntStage (off : ℕ) (bs : List ℕ) (fpi : fp.itu = true) (hfr : Fr fp s0 s1) : Fr fp s0 (State.opGntStage s1 off bs).1 := by
  delta State.opGntStage
  repeat' first
    | with_reducible assumption
    | intro _
    | with_reducible apply fr_setGnt
    | with_reducible apply fr_wi
    | with_reducible apply fr_ite_fst

theorem fr_execGntStage (h : CmdHdr) (off : ℕ) (bs : List ℕ) (fpi : fp.itu = true) (hfr : Fr fp s0 s1) : FrO fp s0 (execGntStage h off bs s1) := by
  delta execGntStage
  repeat' first
    | with_reducible assumption
    | intro _
    | with_reducible apply FrO.next
    | with_reducible apply fr_opGntStage
    | with_reducible apply fr_cmdItu

theorem fr_opGntRun (c : GntItem) (fpi : fp.itu = true) (hfr : Fr fp s0 s1) : Fr fp s0 (State.opGntRun s1 c).1 := by
  delta State.opGntRun
  repeat' first
    | with_reducible assumption
    | intro _
    | with_reducible apply fr_gntPowerLost
    | with_reducible apply fr_setGnt
    | with_reducible apply fr_setPins
    | with_reducible apply fr_gntState
    | with_reducible apply fr_wi
    | with_reducible apply fr_ii
    | with_reducible apply fr_ite_fst

theorem fr_execGntRun (h : CmdHdr) (item : ℕ) (pkg : ℕ) (load : ℕ) (retest : Bool) (entry : List ℕ) (fpi : fp.itu = true) (hfr : Fr fp s0 s1) : FrO fp s0 (execGntRun h item pkg load retest entry s1) := by
  delta execGntRun
  repeat' first
    | with_reducible assumption
    | intro _
    | with_reducible apply FrO.next
    | with_reducible apply fr_opGntRun
    | with_reducible apply fr_cmdItu

theorem fr_gntHung (p : ℕ) (fpi : fp.itu = true) (hfr : Fr fp s0 s1) : Fr fp s0 (State.gntHung s1 p) := by
  delta State.gntHung
  repeat' first
    | with_reducible assumption
    | intro _
    | with_reducible apply fr_gntIdle
    | with_reducible apply fr_setGnt
    | split

theorem fr_gntQuiesce (p : ℕ) (fpi : fp.itu = true) (hfr : Fr fp s0 s1) : Fr fp s0 (State.gntQuiesce s1 p) := by
  delta State.gntQuiesce
  repeat' first
    | with_reducible assumption
    | intro _
    | with_reducible apply fr_gntRan
    | with_reducible apply fr_canaryEnd
    | with_reducible apply fr_pdTryAll
    | with_reducible apply fr_setGnt
    | with_reducible apply fr_gntWaited
    | with_reducible apply fr_free
    | with_reducible apply fr_sliceEnd
    | with_reducible apply fr_wi
    | split

theorem fr_srFail (fpi : fp.itu = true) (hfr : Fr fp s0 s1) : Fr fp s0 (State.srFail s1) := by
  delta State.srFail
  repeat' first
    | with_reducible assumption
    | with_reducible apply fr_sliceEnd
    | with_reducible apply fr_wi
    | with_reducible apply fr_ii

theorem fr_execSlicePatternEnd (wso : List (List ℕ)) (fpi : fp.itu = true) (hfr : Fr fp s0 s1) : FrO fp s0 (execSlicePatternEnd wso s1) := by
  delta execSlicePatternEnd
  repeat' first
    | with_reducible assumption
    | intro _
    | with_reducible apply FrO.next
    | with_reducible apply fr_sliceRestore
    | with_reducible apply fr_sliceCompare
    | split

theorem fr_execGntCtlAbort (iss : Issuer) (wso : List (List ℕ)) (fpi : fp.itu = true) (hfr : Fr fp s0 s1) : FrO fp s0 (execGntCtlAbort iss wso s1) := by
  delta execGntCtlAbort
  repeat' first
    | with_reducible assumption
    | intro _
    | with_reducible apply FrO.next
    | with_reducible apply fr_ituGuard
    | with_reducible apply fr_gntAbort
    | with_reducible apply frO_ite

theorem fr_execSrAck (err : Bool) (fpi : fp.itu = true) (hfr : Fr fp s0 s1) : FrO fp s0 (execSrAck err s1) := by
  delta execSrAck
  repeat' first
    | with_reducible assumption
    | intro _
    | with_reducible apply FrO.next
    | with_reducible apply fr_setPins
    | with_reducible apply fr_gntState
    | with_reducible apply fr_sliceEnd
    | with_reducible apply fr_srFail
    | split

theorem fr_execSlicePowerReady (fpi : fp.itu = true) (hfr : Fr fp s0 s1) : FrO fp s0 (execSlicePowerReady s1) := by
  delta execSlicePowerReady
  repeat' first
    | with_reducible assumption
    | intro _
    | with_reducible apply FrO.next
    | with_reducible apply fr_gntWaited
    | with_reducible apply fr_gntState
    | with_reducible apply fr_srReq
    | with_reducible apply frO_ite

theorem fr_execCanaryTimeout (fpi : fp.itu = true) (hfr : Fr fp s0 s1) : FrO fp s0 (execCanaryTimeout s1) := by
  delta execCanaryTimeout
  repeat' first
    | with_reducible assumption
    | intro _
    | with_reducible apply FrO.next
    | with_reducible apply fr_canaryEnd
    | with_reducible apply fr_pdTryAll
    | with_reducible apply fr_wi
    | with_reducible apply fr_ii
    | split

theorem fr_execSlicePowerTimeout (fpi : fp.itu = true) (hfr : Fr fp s0 s1) : FrO fp s0 (execSlicePowerTimeout s1) := by
  delta execSlicePowerTimeout
  repeat' first
    | with_reducible assumption
    | intro _
    | with_reducible apply FrO.next
    | with_reducible apply fr_gntWaited
    | with_reducible apply fr_sliceEnd
    | with_reducible apply frO_ite

theorem fr_execCanaryOutputBeat (data : ℕ) (last : Bool) (fpi : fp.itu = true) (hfr : Fr fp s0 s1) : FrO fp s0 (execCanaryOutputBeat data last s1) := by
  delta execCanaryOutputBeat
  repeat' first
    | with_reducible assumption
    | intro _
    | with_reducible apply FrO.next
    | with_reducible apply fr_canaryEnd
    | with_reducible apply fr_pdTryAll
    | with_reducible apply fr_setGnt
    | split

theorem fr_execSrTimeout (fpi : fp.itu = true) (hfr : Fr fp s0 s1) : FrO fp s0 (execSrTimeout s1) := by
  delta execSrTimeout
  repeat' first
    | with_reducible assumption
    | intro _
    | with_reducible apply FrO.next
    | with_reducible apply fr_srFail
    | split

theorem fr_execSliceOvertime (wso : List (List ℕ)) (fpi : fp.itu = true) (hfr : Fr fp s0 s1) : FrO fp s0 (execSliceOvertime wso s1) := by
  delta execSliceOvertime
  repeat' first
    | with_reducible assumption
    | intro _
    | with_reducible apply FrO.next
    | with_reducible apply fr_sliceRestore
    | with_reducible apply fr_sliceCompare
    | split

end Sys2Proof.Machine
end

