-- ==== Sys2Proof/Laws/FrTrace.lean ====
section
/-! SUPPORT. What each operation of Machine/Trace.lean can change, in the form of Laws/Frame.lean. -/

set_option linter.unusedTactic false
set_option linter.unreachableTactic false

namespace Sys2Proof.Machine

variable {fp : Parts} {s0 s1 : State}

theorem fr_trcFlushed (p : ℕ) (fpi : fp.itu = true) (hfr : Fr fp s0 s1) : Fr fp s0 (State.trcFlushed s1 p) := by
  delta State.trcFlushed
  repeat' first
    | with_reducible assumption
    | intro _
    | with_reducible apply fr_wi
    | split

theorem fr_setTrc (p : ℕ) (t : Trc) (fpi : fp.itu = true) (hfr : Fr fp s0 s1) : Fr fp s0 (State.setTrc s1 p t) := by
  delta State.setTrc
  repeat' first
    | (with_reducible refine fr_mk (by with_reducible assumption) ?_ ?_) <;> first | exact .inl rfl | exact .inr ⟨by assumption, rfl⟩ | exact .inr ⟨by assumption, rfl, rfl, rfl, rfl, rfl, rfl⟩

theorem fr_putSync (p : ℕ) (tm : ℕ) (fpi : fp.itu = true) (hfr : Fr fp s0 s1) : Fr fp s0 (State.putSync s1 p tm) := by
  delta State.putSync
  repeat' first
    | with_reducible assumption
    | with_reducible apply fr_setTrc

theorem fr_setTrcEn (p : ℕ) (v : Bool) (fpi : fp.itu = true) (hfr : Fr fp s0 s1) : Fr fp s0 (State.setTrcEn s1 p v) := by
  delta State.setTrcEn
  repeat' first
    | with_reducible assumption
    | intro _
    | with_reducible apply fr_putSync
    | with_reducible apply fr_wi
    | split

theorem fr_trcFlush (p : ℕ) (fpi : fp.itu = true) (hfr : Fr fp s0 s1) : Fr fp s0 (State.trcFlush s1 p) := by
  delta State.trcFlush
  repeat' first
    | with_reducible assumption
    | intro _
    | with_reducible apply fr_wi
    | with_reducible apply fr_setTrc
    | with_reducible apply fr_ite

theorem fr_trcPut (p : ℕ) (tm : ℕ) (k : TrcPkt) (fpi : fp.itu = true) (hfr : Fr fp s0 s1) : Fr fp s0 (State.trcPut s1 p tm k) := by
  delta State.trcPut
  repeat' first
    | with_reducible assumption
    | intro _
    | with_reducible apply fr_putSync
    | with_reducible apply fr_setTrc
    | with_reducible apply fr_ite

theorem fr_trcLose (p : ℕ) (n : ℕ) (fpi : fp.itu = true) (hfr : Fr fp s0 s1) : Fr fp s0 (State.trcLose s1 p n) := by
  delta State.trcLose
  repeat' first
    | with_reducible assumption
    | intro _
    | with_reducible apply fr_wi
    | with_reducible apply fr_setTrc
    | with_reducible apply fr_ii
    | split

theorem fr_trcPutAll (tm : ℕ) (y2 : ℕ) (y3 : List (ℕ × TrcPkt)) (fpi : fp.itu = true) (hfr : Fr fp s0 s1) : Fr fp s0 (State.trcPutAll s1 tm y2 y3) := by
  induction y3 generalizing s1 y2 with
  | nil => rw [State.trcPutAll]; exact hfr
  | cons x l ih =>
    obtain ⟨x1, x2⟩ := x
    rw [State.trcPutAll]
    repeat' first
      | with_reducible assumption
      | with_reducible apply ih
      | intro _
      | with_reducible apply fr_trcPut
      | with_reducible apply fr_trcLose
      | split

theorem fr_trcMark (p : ℕ) (v : ℕ) (fpi : fp.itu = true) (hfr : Fr fp s0 s1) : Fr fp s0 (State.trcMark s1 p v) := by
  delta State.trcMark
  repeat' first
    | with_reducible assumption
    | intro _
    | with_reducible apply fr_trcPutAll
    | split

theorem fr_trcDisable (fpi : fp.itu = true) (hfr : Fr fp s0 s1) : Fr fp s0 (State.trcDisable s1) := by
  delta State.trcDisable
  repeat' first
    | with_reducible assumption
    | intro _
    | with_reducible apply fr_trcFlush
    | with_reducible apply fr_wi
    | with_reducible apply fr_foldl

theorem fr_trcDiscard (p : ℕ) (extra : ℕ) (fpi : fp.itu = true) (hfr : Fr fp s0 s1) : Fr fp s0 (State.trcDiscard s1 p extra) := by
  delta State.trcDiscard
  repeat' first
    | with_reducible assumption
    | with_reducible apply fr_trcLose
    | with_reducible apply fr_setTrc

theorem fr_trcFail (p : ℕ) (n : ℕ) (fpi : fp.itu = true) (hfr : Fr fp s0 s1) : Fr fp s0 (State.trcFail s1 p n) := by
  delta State.trcFail
  repeat' first
    | with_reducible assumption
    | with_reducible apply fr_trcDiscard
    | with_reducible apply fr_wi
    | with_reducible apply fr_trcFlushed

theorem fr_trcResetStop (p : ℕ) (fpi : fp.itu = true) (hfr : Fr fp s0 s1) : Fr fp s0 (State.trcResetStop s1 p) := by
  delta State.trcResetStop
  repeat' first
    | with_reducible assumption
    | intro _
    | with_reducible apply fr_trcDiscard
    | with_reducible apply fr_wi
    | split

theorem fr_trcAdvance (p : ℕ) (fpi : fp.itu = true) (hfr : Fr fp s0 s1) : Fr fp s0 (State.trcAdvance s1 p) := by
  delta State.trcAdvance
  repeat' first
    | with_reducible assumption
    | intro _
    | with_reducible apply fr_trcDiscard
    | with_reducible apply fr_wi
    | with_reducible apply fr_ite

theorem fr_execTraceWriteError (p : ℕ) (status : MemStatus) (fpi : fp.itu = true) (hfr : Fr fp s0 s1) : FrO fp s0 (execTraceWriteError p status s1) := by
  delta execTraceWriteError
  repeat' first
    | with_reducible assumption
    | with_reducible apply FrO.next
    | with_reducible apply fr_trcFail
    | with_reducible apply fr_pdTryAll
    | (with_reducible refine fr_mk (by with_reducible assumption) ?_ ?_) <;> first | exact .inl rfl | exact .inr ⟨by assumption, rfl⟩ | exact .inr ⟨by assumption, rfl, rfl, rfl, rfl, rfl, rfl⟩
    | split

theorem fr_execTrcPctlFlush (iss : Issuer) (p : ℕ) (fpi : fp.itu = true) (hfr : Fr fp s0 s1) : FrO fp s0 (execTrcPctlFlush iss p s1) := by
  delta execTrcPctlFlush
  repeat' first
    | with_reducible assumption
    | intro _
    | with_reducible apply FrO.next
    | with_reducible apply fr_ituGuard
    | with_reducible apply fr_trcFlush
    | with_reducible apply frO_ite

theorem fr_execTraceChunkWrite (p : ℕ) (tag : ℕ) (fpi : fp.itu = true) (hfr : Fr fp s0 s1) : FrO fp s0 (execTraceChunkWrite p tag s1) := by
  delta execTraceChunkWrite
  repeat' first
    | with_reducible assumption
    | (intro x; (first | refine fr_cut (fp := fp) (s0 := s0) x ?_ (fun hx => ?_) | refine fr_cut (fp := fp) (s0 := s0) x.1 ?_ (fun hx => ?_) | refine fr_cut (fp := fp) (s0 := s0) x.2 ?_ (fun hx => ?_)); on_goal 1 => dsimp -zeta -zetaHave only [x])
    | intro _
    | lift_lets
    | with_reducible apply FrO.next
    | with_reducible apply fr_trcAdvance
    | with_reducible apply fr_setTrc
    | (with_reducible refine fr_mk (by with_reducible assumption) ?_ ?_) <;> first | exact .inl rfl | exact .inr ⟨by assumption, rfl⟩ | exact .inr ⟨by assumption, rfl, rfl, rfl, rfl, rfl, rfl⟩
    | split

theorem fr_execTracePacketCapture (taps : List (ℕ × ℕ)) (bars : List (ℕ × Bool × ℕ)) (addrs : List (ℕ × ℕ)) (fpi : fp.itu = true) (hfr : Fr fp s0 s1) : FrO fp s0 (execTracePacketCapture taps bars addrs s1) := by
  delta execTracePacketCapture
  repeat' first
    | with_reducible assumption
    | with_reducible apply FrO.next
    | with_reducible apply fr_trcPutAll
    | (with_reducible refine fr_mk (by with_reducible assumption) ?_ ?_) <;> first | exact .inl rfl | exact .inr ⟨by assumption, rfl⟩ | exact .inr ⟨by assumption, rfl, rfl, rfl, rfl, rfl, rfl⟩

theorem fr_execTrcPctlEnWrite (iss : Issuer) (p : ℕ) (v : Bool) (fpi : fp.itu = true) (hfr : Fr fp s0 s1) : FrO fp s0 (execTrcPctlEnWrite iss p v s1) := by
  delta execTrcPctlEnWrite
  repeat' first
    | with_reducible assumption
    | intro _
    | with_reducible apply FrO.next
    | with_reducible apply fr_setTrcEn
    | with_reducible apply fr_ituGuard
    | with_reducible apply frO_ite

theorem fr_execTrcMarkWrite (iss : Issuer) (p : ℕ) (v : ℕ) (fpi : fp.itu = true) (hfr : Fr fp s0 s1) : FrO fp s0 (execTrcMarkWrite iss p v s1) := by
  delta execTrcMarkWrite
  repeat' first
    | with_reducible assumption
    | intro _
    | with_reducible apply FrO.next
    | with_reducible apply fr_trcMark
    | with_reducible apply fr_ituGuard
    | with_reducible apply frO_ite

end Sys2Proof.Machine
end

