-- ==== Sys2Proof/Laws/FrItuCtl.lean ====
section
/-! SUPPORT. What each operation of Machine/ItuCtl.lean can change, in the form of Laws/Frame.lean. -/

set_option linter.unusedTactic false
set_option linter.unreachableTactic false

namespace Sys2Proof.Machine

variable {fp : Parts} {s0 s1 : State}

theorem fr_fnClear (n : ℕ) (fpi : fp.itu = true) (fpl : fp.lam = true) (hfr : Fr fp s0 s1) : Fr fp s0 (State.fnClear s1 n) := by
  delta State.fnClear
  repeat' first
    | with_reducible assumption
    | intro _
    | with_reducible apply fr_visClose
    | with_reducible apply fr_trcDisable
    | with_reducible apply fr_digClose
    | with_reducible apply fr_stcDisable
    | (with_reducible refine fr_mk (by with_reducible assumption) ?_ ?_) <;> first | exact .inl rfl | exact .inr ⟨by assumption, rfl⟩ | exact .inr ⟨by assumption, rfl, rfl, rfl, rfl, rfl, rfl⟩
    | split

theorem fr_fnSet (n : ℕ) (fpi : fp.itu = true) (hfr : Fr fp s0 s1) : Fr fp s0 (State.fnSet s1 n) := by
  delta State.fnSet
  repeat' first
    | with_reducible assumption
    | intro _
    | with_reducible apply fr_hangVoid
    | with_reducible apply fr_reopenBlocks
    | split

theorem fr_setFn (n : ℕ) (v : Bool) (fpi : fp.itu = true) (fpl : fp.lam = true) (hfr : Fr fp s0 s1) : Fr fp s0 (State.setFn s1 n v) := by
  delta State.setFn
  repeat' first
    | with_reducible assumption
    | intro _
    | with_reducible apply fr_wi
    | with_reducible apply fr_fnClear
    | with_reducible apply fr_fnSet
    | split

theorem fr_writeFnEn (v : ℕ) (fpi : fp.itu = true) (fpl : fp.lam = true) (hfr : Fr fp s0 s1) : Fr fp s0 (State.writeFnEn s1 v) := by
  delta State.writeFnEn
  repeat' first
    | with_reducible assumption
    | intro _
    | with_reducible apply fr_setFn
    | with_reducible apply fr_foldl

theorem fr_pdRequestOff (n : ℕ) (fpi : fp.itu = true) (fpl : fp.lam = true) (hfr : Fr fp s0 s1) : Fr fp s0 (State.pdRequestOff s1 n) := by
  delta State.pdRequestOff
  repeat' first
    | with_reducible assumption
    | intro _
    | with_reducible apply fr_pdTryOff
    | with_reducible apply fr_wiBit
    | with_reducible apply fr_setFn
    | with_reducible apply fr_foldl
    | split

theorem fr_pdRequestOn (n : ℕ) (fpi : fp.itu = true) (hfr : Fr fp s0 s1) : Fr fp s0 (State.pdRequestOn s1 n) := by
  delta State.pdRequestOn
  repeat' first
    | with_reducible assumption
    | with_reducible apply fr_setPins
    | with_reducible apply fr_wiBit

theorem fr_pdRequest (n : ℕ) (on : Bool) (fpi : fp.itu = true) (fpl : fp.lam = true) (hfr : Fr fp s0 s1) : Fr fp s0 (State.pdRequest s1 n on) := by
  delta State.pdRequest
  repeat' first
    | with_reducible assumption
    | intro _
    | with_reducible apply fr_pdRequestOff
    | with_reducible apply fr_pdRequestOn
    | split

theorem fr_writePdCtl (v : ℕ) (fpi : fp.itu = true) (fpl : fp.lam = true) (hfr : Fr fp s0 s1) : Fr fp s0 (State.writePdCtl s1 v) := by
  delta State.writePdCtl
  repeat' first
    | with_reducible assumption
    | intro _
    | with_reducible apply fr_pdRequest
    | with_reducible apply fr_foldl

theorem fr_memDeliver (t : Tag) (fpi : fp.itu = true) (hfr : Fr fp s0 s1) : Fr fp s0 (State.memDeliver s1 t) := by
  delta State.memDeliver
  repeat' first
    | with_reducible assumption
    | intro _
    | with_reducible apply fr_trcFail
    | with_reducible apply fr_digData
    | with_reducible apply fr_trcFlushed
    | split

theorem fr_memLate (last : Bool) (fpi : fp.itu = true) (hfr : Fr fp s0 s1) : Fr fp s0 (State.memLate s1 last) := by
  delta State.memLate
  repeat' first
    | with_reducible assumption
    | intro _
    | with_reducible apply fr_ii
    | split

theorem fr_setTags (l : List Tag) (fpi : fp.itu = true) (hfr : Fr fp s0 s1) : Fr fp s0 (State.setTags s1 l) := by
  delta State.setTags
  repeat' first
    | (with_reducible refine fr_mk (by with_reducible assumption) ?_ ?_) <;> first | exact .inl rfl | exact .inr ⟨by assumption, rfl⟩ | exact .inr ⟨by assumption, rfl, rfl, rfl, rfl, rfl, rfl⟩

theorem fr_execMemResponse (tag : ℕ) (gen : ℕ) (status : MemStatus) (data : List ℕ) (last : Bool) (fpi : fp.itu = true) (hfr : Fr fp s0 s1) : FrO fp s0 (execMemResponse tag gen status data last s1) := by
  delta execMemResponse
  repeat' first
    | with_reducible assumption
    | intro _
    | with_reducible apply FrO.next
    | with_reducible apply fr_digNext
    | with_reducible apply fr_pdTryAll
    | with_reducible apply fr_memDeliver
    | with_reducible apply fr_setTags
    | with_reducible apply fr_memLate
    | split

theorem fr_execItuReset (fpi : fp.itu = true) (hfr : Fr fp s0 s1) : FrO fp s0 (execItuReset s1) := by
  refine FrO.next (Fr.upd (Fr.ituRegs fpi hfr _ fun _ => Regs.wf_wr _ _ _ _ _ ?_) rfl (.inl rfl) (.inl rfl))
  decide

theorem fr_execItuFnEnWrite (iss : Issuer) (v : ℕ) (fpi : fp.itu = true) (fpl : fp.lam = true) (hfr : Fr fp s0 s1) : FrO fp s0 (execItuFnEnWrite iss v s1) := by
  delta execItuFnEnWrite
  repeat' first
    | with_reducible assumption
    | intro _
    | with_reducible apply FrO.next
    | with_reducible apply fr_ituGuard
    | with_reducible apply fr_writeFnEn
    | with_reducible apply frO_ite

theorem fr_execMemTimeout (tag : ℕ) (fpi : fp.itu = true) (hfr : Fr fp s0 s1) : FrO fp s0 (execMemTimeout tag s1) := by
  delta execMemTimeout
  repeat' first
    | with_reducible assumption
    | (intro x; (first | refine fr_cut (fp := fp) (s0 := s0) x ?_ (fun hx => ?_) | refine fr_cut (fp := fp) (s0 := s0) x.1 ?_ (fun hx => ?_) | refine fr_cut (fp := fp) (s0 := s0) x.2 ?_ (fun hx => ?_)); on_goal 1 => dsimp -zeta -zetaHave only [x])
    | intro _
    | with_reducible apply FrO.next
    | with_reducible apply fr_setDig
    | with_reducible apply fr_trcFail
    | with_reducible apply fr_pdTryAll
    | with_reducible apply fr_setTags
    | with_reducible apply fr_wi
    | with_reducible apply fr_digClose
    | with_reducible apply fr_ii
    | split

theorem fr_execItuPdCtlWrite (iss : Issuer) (v : ℕ) (fpi : fp.itu = true) (fpl : fp.lam = true) (hfr : Fr fp s0 s1) : FrO fp s0 (execItuPdCtlWrite iss v s1) := by
  delta execItuPdCtlWrite
  repeat' first
    | with_reducible assumption
    | intro _
    | with_reducible apply FrO.next
    | with_reducible apply fr_ituGuard
    | with_reducible apply fr_writePdCtl
    | with_reducible apply frO_ite

end Sys2Proof.Machine
end

