-- ==== Sys2Proof/Laws/FrLedgerI.lean ====
section
/-! SUPPORT. What each operation of Machine/LedgerI.lean can change, in the form of Laws/Frame.lean. -/

set_option linter.unusedTactic false
set_option linter.unreachableTactic false

namespace Sys2Proof.Machine

variable {fp : Parts} {s0 s1 : State}

theorem fr_setFreeze (v : ℕ) (fpi : fp.itu = true) (hfr : Fr fp s0 s1) : Fr fp s0 (State.setFreeze s1 v) := by
  delta State.setFreeze
  repeat' first
    | with_reducible assumption
    | with_reducible apply fr_refreeze
    | with_reducible apply fr_wi

theorem fr_addTokens (up : ℕ) (dn : ℕ) (fpi : fp.itu = true) (hfr : Fr fp s0 s1) : Fr fp s0 (State.addTokens s1 up dn) := by
  delta State.addTokens
  repeat' first
    | with_reducible assumption
    | intro _
    | with_reducible apply fr_wi
    | with_reducible apply fr_ii
    | with_reducible apply fr_ite

theorem fr_ceilCheck (w : ℕ) (fpi : fp.itu = true) (hfr : Fr fp s0 s1) : Fr fp s0 (State.ceilCheck s1 w) := by
  delta State.ceilCheck
  repeat' first
    | with_reducible assumption
    | intro _
    | with_reducible apply fr_ldgAlarm
    | with_reducible apply fr_wi
    | with_reducible apply fr_setPwr
    | with_reducible apply fr_ii
    | with_reducible apply fr_ite

theorem fr_countMeas (w : ℕ) (press : Bool) (pin : Bool) (fpi : fp.itu = true) (hfr : Fr fp s0 s1) : Fr fp s0 (State.countMeas s1 w press pin) := by
  delta State.countMeas
  repeat' first
    | with_reducible assumption
    | with_reducible apply fr_setPwr

theorem fr_ldgReport (press : Bool) (pin : Bool) (fpi : fp.itu = true) (hfr : Fr fp s0 s1) : Fr fp s0 (State.ldgReport s1 press pin) := by
  delta State.ldgReport
  repeat' first
    | with_reducible assumption
    | (intro x; (first | refine fr_cut (fp := fp) (s0 := s0) x ?_ (fun hx => ?_) | refine fr_cut (fp := fp) (s0 := s0) x.1 ?_ (fun hx => ?_) | refine fr_cut (fp := fp) (s0 := s0) x.2 ?_ (fun hx => ?_)); on_goal 1 => dsimp -zeta -zetaHave only [x])
    | intro _
    | lift_lets
    | with_reducible apply fr_setPwr
    | with_reducible apply fr_ii
    | (with_reducible refine fr_mk (by with_reducible assumption) ?_ ?_) <;> first | exact .inl rfl | exact .inr ⟨by assumption, rfl⟩ | exact .inr ⟨by assumption, rfl, rfl, rfl, rfl, rfl, rfl⟩
    | split

theorem fr_enactSkip (fpi : fp.itu = true) (hfr : Fr fp s0 s1) : Fr fp s0 (State.enactSkip s1) := by
  delta State.enactSkip
  repeat' first
    | with_reducible assumption
    | with_reducible apply fr_ldgReport
    | with_reducible apply fr_setPwr
    | with_reducible apply fr_ii

theorem fr_setOutputs (ceil : ℕ) (floor : ℕ) (fpi : fp.itu = true) (hfr : Fr fp s0 s1) : Fr fp s0 (State.setOutputs s1 ceil floor) := by
  delta State.setOutputs
  repeat' first
    | with_reducible assumption
    | with_reducible apply fr_setPins
    | with_reducible apply fr_setPwr

theorem fr_enactLive (fpi : fp.itu = true) (hfr : Fr fp s0 s1) : Fr fp s0 (State.enactLive s1) := by
  delta State.enactLive
  repeat' first
    | with_reducible assumption
    | intro _
    | with_reducible apply fr_setOutputs
    | with_reducible apply fr_ldgState
    | with_reducible apply fr_ldgAlarm
    | with_reducible apply fr_ldgReport
    | with_reducible apply fr_wi
    | with_reducible apply fr_setPwr
    | with_reducible apply fr_ii
    | split

theorem fr_enact (fpi : fp.itu = true) (hfr : Fr fp s0 s1) : Fr fp s0 (State.enact s1) := by
  delta State.enact
  repeat' first
    | with_reducible assumption
    | intro _
    | with_reducible apply fr_enactSkip
    | with_reducible apply fr_enactLive
    | with_reducible apply fr_setPwr
    | with_reducible apply fr_ite

theorem fr_energy (w : ℕ) (dt : ℕ) (press : Bool) (pin : Bool) (fpi : fp.itu = true) (hfr : Fr fp s0 s1) : Fr fp s0 (State.energy s1 w dt press pin) := by
  delta State.energy
  repeat' first
    | with_reducible assumption
    | with_reducible apply fr_setPwr
    | with_reducible apply fr_ii

theorem fr_floorCheck (w : ℕ) (fpi : fp.itu = true) (hfr : Fr fp s0 s1) : Fr fp s0 (State.floorCheck s1 w) := by
  delta State.floorCheck
  repeat' first
    | with_reducible assumption
    | intro _
    | with_reducible apply fr_ldgAlarm
    | with_reducible apply fr_wi
    | with_reducible apply fr_setPwr
    | with_reducible apply fr_ii
    | with_reducible apply fr_ite

theorem fr_grant (ws : List ℕ) (fpi : fp.itu = true) (hfr : Fr fp s0 s1) : Fr fp s0 (State.grant s1 ws) := by
  delta State.grant
  repeat' first
    | with_reducible assumption
    | intro _
    | with_reducible apply fr_refreeze
    | with_reducible apply fr_forfeit
    | with_reducible apply fr_wi
    | with_reducible apply fr_setPwr
    | with_reducible apply fr_addTokens
    | with_reducible apply fr_ite

theorem fr_ituLedgerRx (ws : List ℕ) (fpi : fp.itu = true) (hfr : Fr fp s0 s1) : Fr fp s0 (State.ituLedgerRx s1 ws) := by
  delta State.ituLedgerRx
  repeat' first
    | with_reducible assumption
    | intro _
    | with_reducible apply fr_grant
    | with_reducible apply fr_ii
    | split

theorem fr_timely (dt : ℕ) (fpi : fp.itu = true) (hfr : Fr fp s0 s1) : Fr fp s0 (State.timely s1 dt) := by
  delta State.timely
  repeat' first
    | with_reducible assumption
    | intro _
    | with_reducible apply fr_setPwr
    | with_reducible apply fr_ite

theorem fr_execLdgDieReportEmit (fpi : fp.itu = true) (hfr : Fr fp s0 s1) : FrO fp s0 (execLdgDieReportEmit s1) := by
  delta execLdgDieReportEmit
  repeat' first
    | with_reducible assumption
    | intro _
    | with_reducible apply FrO.next
    | with_reducible apply fr_ituEmitDie
    | with_reducible apply fr_setPwr
    | with_reducible apply frO_ite

theorem fr_execLdgCtlFreeze (iss : Issuer) (v : Bool) (fpi : fp.itu = true) (hfr : Fr fp s0 s1) : FrO fp s0 (execLdgCtlFreeze iss v s1) := by
  delta execLdgCtlFreeze
  repeat' first
    | with_reducible assumption
    | intro _
    | with_reducible apply FrO.next
    | with_reducible apply fr_ituGuard
    | with_reducible apply fr_setFreeze
    | with_reducible apply frO_ite

theorem fr_execPwrStaleTimeout (fpi : fp.itu = true) (hfr : Fr fp s0 s1) : FrO fp s0 (execPwrStaleTimeout s1) := by
  delta execPwrStaleTimeout
  repeat' first
    | with_reducible assumption
    | intro _
    | with_reducible apply FrO.next
    | with_reducible apply fr_refreeze
    | with_reducible apply fr_ldgAlarm
    | with_reducible apply fr_wi
    | with_reducible apply fr_setPwr
    | with_reducible apply fr_ii
    | with_reducible apply frO_ite

theorem fr_execPwrMeasPulse (w : ℕ) (temp : ℕ) (fpi : fp.itu = true) (hfr : Fr fp s0 s1) : FrO fp s0 (execPwrMeasPulse w temp s1) := by
  delta execPwrMeasPulse
  repeat' first
    | with_reducible assumption
    | with_reducible apply FrO.next
    | with_reducible apply fr_refreeze
    | with_reducible apply fr_countMeas
    | with_reducible apply fr_ceilCheck
    | with_reducible apply fr_energy
    | with_reducible apply fr_timely
    | with_reducible apply fr_wi
    | with_reducible apply fr_floorCheck
    | with_reducible apply fr_setPwr

theorem fr_execLdgGrantRx (ws : List ℕ) (fpi : fp.itu = true) (hfr : Fr fp s0 s1) : FrO fp s0 (execLdgGrantRx ws s1) := by
  delta execLdgGrantRx
  repeat' first
    | with_reducible assumption
    | with_reducible apply FrO.next
    | with_reducible apply fr_ituLedgerRx

end Sys2Proof.Machine
end

