-- ==== Sys2Proof/Laws/FrLedgerL.lean ====
section
/-! SUPPORT. What each operation of Machine/LedgerL.lean can change, in the form of Laws/Frame.lean. -/

set_option linter.unusedTactic false
set_option linter.unreachableTactic false

namespace Sys2Proof.Machine

variable {fp : Parts} {s0 s1 : State}

theorem fr_ldgRefresh (fpl : fp.lam = true) (hfr : Fr fp s0 s1) : Fr fp s0 (State.ldgRefresh s1) := by
  delta State.ldgRefresh
  repeat' first
    | with_reducible assumption
    | with_reducible apply fr_wl

theorem fr_setLdg (g : LdgF) (fpl : fp.lam = true) (hfr : Fr fp s0 s1) : Fr fp s0 (State.setLdg s1 g) := by
  delta State.setLdg
  repeat' first
    | (with_reducible refine fr_mk (by with_reducible assumption) ?_ ?_) <;> first | exact .inl rfl | exact .inr ⟨by assumption, rfl⟩ | exact .inr ⟨by assumption, rfl, rfl, rfl, rfl, rfl, rfl⟩

theorem fr_setLdgPort (q : ℕ) (p : LdgPort) (fpl : fp.lam = true) (hfr : Fr fp s0 s1) : Fr fp s0 (State.setLdgPort s1 q p) := by
  delta State.setLdgPort
  repeat' first
    | with_reducible assumption
    | with_reducible apply fr_setLdg

theorem fr_answer (q : ℕ) (p : LdgPort) (ws : List ℕ) (applied : Bool) (fpl : fp.lam = true) (hfr : Fr fp s0 s1) : Fr fp s0 (State.answer s1 q p ws applied) := by
  delta State.answer
  repeat' first
    | with_reducible assumption
    | with_reducible apply fr_setPort
    | with_reducible apply fr_il
    | with_reducible apply fr_setLdgPort
    | with_reducible apply fr_wl

theorem fr_countSpent (q : ℕ) (p : LdgPort) (ws : List ℕ) (fpl : fp.lam = true) (hfr : Fr fp s0 s1) : Fr fp s0 (State.countSpent s1 q p ws) := by
  delta State.countSpent
  repeat' first
    | with_reducible assumption
    | (intro x; (first | refine fr_cut (fp := fp) (s0 := s0) x ?_ (fun hx => ?_) | refine fr_cut (fp := fp) (s0 := s0) x.1 ?_ (fun hx => ?_) | refine fr_cut (fp := fp) (s0 := s0) x.2 ?_ (fun hx => ?_)); on_goal 1 => dsimp -zeta -zetaHave only [x])
    | (intro y; (first | have z : Option _ := y | have z : List _ := y); clear z; clear_value y)
    | with_reducible apply fr_setLdgPort
    | with_reducible apply fr_setLdg
    | split

theorem fr_crownAdd (rate : Fld) (lv : Fld) (bu : Fld) (held : ℕ) (fpl : fp.lam = true) (hfr : Fr fp s0 s1) : Fr fp s0 (State.crownAdd s1 rate lv bu held) := by
  delta State.crownAdd
  repeat' first
    | with_reducible assumption
    | intro _
    | with_reducible apply fr_il
    | with_reducible apply fr_wl
    | with_reducible apply fr_ite

theorem fr_ldgBad (fpl : fp.lam = true) (hfr : Fr fp s0 s1) : Fr fp s0 (State.ldgBad s1) := by
  delta State.ldgBad
  repeat' first
    | with_reducible assumption
    | with_reducible apply fr_il

theorem fr_ldgFill (c : LdgChild) (nUp : ℕ) (nDn : ℕ) (fpl : fp.lam = true) (hfr : Fr fp s0 s1) : Fr fp s0 (State.ldgFill s1 c nUp nDn) := by
  delta State.ldgFill
  repeat' first
    | with_reducible assumption
    | with_reducible apply fr_il
    | with_reducible apply fr_setLdg
    | with_reducible apply fr_send
    | with_reducible apply fr_wl

theorem fr_ldgDivide (fpl : fp.lam = true) (hfr : Fr fp s0 s1) : Fr fp s0 (State.ldgDivide s1) := by
  delta State.ldgDivide
  repeat' first
    | with_reducible assumption
    | intro _
    | with_reducible apply fr_ldgFill
    | with_reducible apply fr_ldgRefresh
    | with_reducible apply fr_setLdg
    | with_reducible apply fr_wl
    | with_reducible apply fr_ite
    | with_reducible apply fr_foldl

theorem fr_ldgAdd (up : ℕ) (dn : ℕ) (fpl : fp.lam = true) (hfr : Fr fp s0 s1) : Fr fp s0 (State.ldgAdd s1 up dn) := by
  delta State.ldgAdd
  repeat' first
    | with_reducible assumption
    | with_reducible apply fr_il
    | with_reducible apply fr_wl

theorem fr_fillRx (ws : List ℕ) (fpl : fp.lam = true) (hfr : Fr fp s0 s1) : Fr fp s0 (State.fillRx s1 ws) := by
  delta State.fillRx
  repeat' first
    | with_reducible assumption
    | intro _
    | with_reducible apply fr_ldgRefresh
    | with_reducible apply fr_setLdg
    | with_reducible apply fr_ldgBad
    | with_reducible apply fr_ldgDivide
    | with_reducible apply fr_ldgAdd
    | with_reducible apply fr_ite

theorem fr_sumRx (p : ℕ) (ws : List ℕ) (fpl : fp.lam = true) (hfr : Fr fp s0 s1) : Fr fp s0 (State.sumRx s1 p ws) := by
  delta State.sumRx
  repeat' first
    | with_reducible assumption
    | intro _
    | with_reducible apply fr_ldgRefresh
    | with_reducible apply fr_setLdg
    | with_reducible apply fr_ldgBad
    | split

theorem fr_ldgChildLost (p : ℕ) (fpl : fp.lam = true) (hfr : Fr fp s0 s1) : Fr fp s0 (State.ldgChildLost s1 p) := by
  delta State.ldgChildLost
  repeat' first
    | with_reducible assumption
    | with_reducible apply fr_ldgRefresh
    | with_reducible apply fr_setLdg

theorem fr_ldgHall (fpl : fp.lam = true) (hfr : Fr fp s0 s1) : Fr fp s0 (State.ldgHall s1) := by
  delta State.ldgHall
  repeat' first
    | with_reducible assumption
    | with_reducible apply fr_lamRec

theorem fr_ldgSumTx (fpl : fp.lam = true) (hfr : Fr fp s0 s1) : Fr fp s0 (State.ldgSumTx s1) := by
  delta State.ldgSumTx
  repeat' first
    | with_reducible assumption
    | with_reducible apply fr_setLdg
    | with_reducible apply fr_send

theorem fr_ldgMc (fpl : fp.lam = true) (hfr : Fr fp s0 s1) : Fr fp s0 (State.ldgMc s1) := by
  delta State.ldgMc
  repeat' first
    | with_reducible assumption
    | intro _
    | with_reducible apply fr_ldgHall
    | with_reducible apply fr_ldgRefresh
    | with_reducible apply fr_free
    | with_reducible apply fr_crownAdd
    | with_reducible apply fr_ldgSumTx
    | with_reducible apply fr_ldgDivide
    | with_reducible apply fr_wl
    | with_reducible apply fr_ite

theorem fr_reportRx (q : ℕ) (ws : List ℕ) (fpl : fp.lam = true) (hfr : Fr fp s0 s1) : Fr fp s0 (State.reportRx s1 q ws) := by
  delta State.reportRx
  repeat' first
    | with_reducible assumption
    | intro _
    | with_reducible apply fr_answer
    | with_reducible apply fr_il
    | with_reducible apply fr_ldgRefresh
    | with_reducible apply fr_setLdgPort
    | with_reducible apply fr_setDet
    | with_reducible apply fr_countSpent
    | with_reducible apply fr_ldgBad
    | with_reducible apply fr_wl
    | split

theorem fr_execStrandExpiry (c : ℕ) (fpl : fp.lam = true) (hfr : Fr fp s0 s1) : FrO fp s0 (execStrandExpiry c s1) := by
  delta execStrandExpiry
  repeat' first
    | with_reducible assumption
    | intro _
    | with_reducible apply FrO.next
    | with_reducible apply fr_ldgRefresh
    | with_reducible apply fr_setLdgPort
    | with_reducible apply fr_setLdg
    | with_reducible apply frO_ite

theorem fr_execLdgSumRx (p : ℕ) (ws : List ℕ) (fpl : fp.lam = true) (hfr : Fr fp s0 s1) : FrO fp s0 (execLdgSumRx p ws s1) := by
  delta execLdgSumRx
  repeat' first
    | with_reducible assumption
    | with_reducible apply FrO.next
    | with_reducible apply fr_sumRx

theorem fr_execLdgFillRx (ws : List ℕ) (fpl : fp.lam = true) (hfr : Fr fp s0 s1) : FrO fp s0 (execLdgFillRx ws s1) := by
  delta execLdgFillRx
  repeat' first
    | with_reducible assumption
    | with_reducible apply FrO.next
    | with_reducible apply fr_fillRx

theorem fr_execLdgReportRx (q : ℕ) (ws : List ℕ) (fpl : fp.lam = true) (hfr : Fr fp s0 s1) : FrO fp s0 (execLdgReportRx q ws s1) := by
  delta execLdgReportRx
  repeat' first
    | with_reducible assumption
    | with_reducible apply FrO.next
    | with_reducible apply fr_reportRx

theorem fr_execFillWaitTimeout (fpl : fp.lam = true) (hfr : Fr fp s0 s1) : FrO fp s0 (execFillWaitTimeout s1) := by
  delta execFillWaitTimeout
  repeat' first
    | with_reducible assumption
    | intro _
    | with_reducible apply FrO.next
    | with_reducible apply fr_ldgDivide
    | split

end Sys2Proof.Machine
end

