-- ==== Sys2Proof/Laws/FrStcExec.lean ====
section
/-! SUPPORT. What each operation of Machine/StcExec.lean can change, in the form of Laws/Frame.lean. -/

set_option linter.unusedTactic false
set_option linter.unreachableTactic false

namespace Sys2Proof.Machine

variable {fp : Parts} {s0 s1 : State}

theorem fr_setCrcVal (u : ℕ) (v : ℕ) (fpi : fp.itu = true) (hfr : Fr fp s0 s1) : Fr fp s0 (State.setCrcVal s1 u v) := by
  delta State.setCrcVal
  repeat' first
    | with_reducible assumption
    | with_reducible apply fr_wi

theorem fr_crcPut (u : ℕ) (bs : List ℕ) (fpi : fp.itu = true) (hfr : Fr fp s0 s1) : Fr fp s0 (State.crcPut s1 u bs) := by
  delta State.crcPut
  repeat' first
    | with_reducible assumption
    | with_reducible apply fr_setCrcVal

theorem fr_crcSel (u : ℕ) (v : ℕ) (fpi : fp.itu = true) (hfr : Fr fp s0 s1) : Fr fp s0 (State.crcSel s1 u v) := by
  delta State.crcSel
  repeat' first
    | with_reducible assumption
    | with_reducible apply fr_wi
    | with_reducible apply fr_setCrcVal

theorem fr_setStcMem (sd : Sys2Proof.Side) (c : ℕ) (a : ℕ) (v : ℕ) (fpi : fp.itu = true) (fpl : fp.lam = true) (hfr : Fr fp s0 s1) : Fr fp s0 (State.setStcMem s1 sd c a v) := by
  delta State.setStcMem
  repeat' first
    | with_reducible assumption
    | with_reducible apply fr_setStc

theorem fr_emitWords (sd : Sys2Proof.Side) (c : ℕ) (a : ℕ) (y4 : ℕ) (hfr : Fr fp s0 s1) : Fr fp s0 (State.emitWords s1 sd c a y4).2 := by
  induction y4 generalizing s1 a with
  | zero => exact hfr
  | succ n ih =>
    rw [State.emitWords]
    repeat' first
      | with_reducible apply ih
      | intro _
      | with_reducible apply fr_free
      | (with_reducible refine fr_mk (by with_reducible assumption) ?_ ?_) <;> first | exact .inl rfl | exact .inr ⟨by assumption, rfl⟩ | exact .inr ⟨by assumption, rfl, rfl, rfl, rfl, rfl, rfl⟩
      | split

theorem fr_stcOffer (c : ℕ) (r : Rec) (fpi : fp.itu = true) (fpl : fp.lam = true) (hfr : Fr fp s0 s1) : Fr fp s0 (State.stcOffer s1 c r) := by
  delta State.stcOffer
  repeat' first
    | with_reducible assumption
    | intro _
    | with_reducible apply fr_ituOffer
    | with_reducible apply fr_setLast
    | with_reducible apply fr_ii
    | with_reducible apply fr_ite

theorem fr_stcIssue (sd : Sys2Proof.Side) (c : ℕ) (op : ℕ) (f : ℕ → State → State) (fpi : fp.itu = true) (fpl : fp.lam = true) (hf : ∀ x0 x1, Fr fp s0 x1 → Fr fp s0 (f x0 x1)) (hfr : Fr fp s0 s1) : Fr fp s0 (State.stcIssue s1 sd c op f) := by
  delta State.stcIssue
  repeat' first
    | with_reducible assumption
    | intro _
    | with_reducible apply hf
    | with_reducible apply fr_stcGoOn
    | with_reducible apply fr_ix
    | with_reducible apply fr_stcFault
    | with_reducible apply fr_setPc
    | with_reducible apply fr_setCtx
    | with_reducible apply fr_ite

theorem fr_stcJump (sd : Sys2Proof.Side) (c : ℕ) (off : ℤ) (fpi : fp.itu = true) (fpl : fp.lam = true) (hfr : Fr fp s0 s1) : Fr fp s0 (State.stcJump s1 sd c off) := by
  delta State.stcJump
  repeat' first
    | with_reducible assumption
    | intro _
    | with_reducible apply fr_stcFault
    | with_reducible apply fr_free
    | with_reducible apply fr_setPc
    | with_reducible apply fr_ite

theorem fr_stcB (sd : Sys2Proof.Side) (c : ℕ) (op : ℕ) (g : ℕ → ℕ → Bool) (fpi : fp.itu = true) (fpl : fp.lam = true) (hfr : Fr fp s0 s1) : Fr fp s0 (State.stcB s1 sd c op g) := by
  delta State.stcB
  repeat' first
    | with_reducible assumption
    | intro _
    | with_reducible apply fr_stcIssue
    | with_reducible apply fr_stcJump
    | split

theorem fr_stcR (sd : Sys2Proof.Side) (c : ℕ) (op : ℕ) (g : ℕ → ℕ → ℕ) (fpi : fp.itu = true) (fpl : fp.lam = true) (hfr : Fr fp s0 s1) : Fr fp s0 (State.stcR s1 sd c op g) := by
  delta State.stcR
  repeat' first
    | with_reducible assumption
    | intro _
    | with_reducible apply fr_setX
    | with_reducible apply fr_stcIssue

theorem fr_stcF (sd : Sys2Proof.Side) (c : ℕ) (op : ℕ) (g : ℕ → ℕ → ℕ) (fpi : fp.itu = true) (fpl : fp.lam = true) (hfr : Fr fp s0 s1) : Fr fp s0 (State.stcF s1 sd c op g) := by
  delta State.stcF
  repeat' first
    | with_reducible assumption
    | with_reducible apply fr_stcR

theorem fr_stcI (sd : Sys2Proof.Side) (c : ℕ) (op : ℕ) (g : ℕ → ℕ → ℕ) (fpi : fp.itu = true) (fpl : fp.lam = true) (hfr : Fr fp s0 s1) : Fr fp s0 (State.stcI s1 sd c op g) := by
  delta State.stcI
  repeat' first
    | with_reducible assumption
    | intro _
    | with_reducible apply fr_setX
    | with_reducible apply fr_stcIssue

theorem fr_stcSlotNo (sd : Sys2Proof.Side) (c : ℕ) (w : ℕ) (hfr : Fr fp s0 s1) : Fr fp s0 (State.stcSlotNo s1 sd c w).2 := by
  delta State.stcSlotNo
  repeat' first
    | intro _
    | with_reducible apply fr_free
    | with_reducible apply fr_ite_snd
    | (with_reducible refine fr_mk (by with_reducible assumption) ?_ ?_) <;> first | exact .inl rfl | exact .inr ⟨by assumption, rfl⟩ | exact .inr ⟨by assumption, rfl, rfl, rfl, rfl, rfl, rfl⟩

theorem fr_stcStall (sd : Sys2Proof.Side) (c : ℕ) (wt : StcWait) (fpi : fp.itu = true) (fpl : fp.lam = true) (hfr : Fr fp s0 s1) : Fr fp s0 (State.stcStall s1 sd c wt) := by
  delta State.stcStall
  repeat' first
    | with_reducible assumption
    | with_reducible apply fr_setCtxState
    | with_reducible apply fr_setStc
    | with_reducible apply fr_setCtx

theorem fr_stcTrap (sd : Sys2Proof.Side) (c : ℕ) (cause : ℕ) (w : ℕ) (fpi : fp.itu = true) (fpl : fp.lam = true) (hfr : Fr fp s0 s1) : Fr fp s0 (State.stcTrap s1 sd c cause w) := by
  delta State.stcTrap
  repeat' first
    | with_reducible assumption
    | with_reducible apply fr_stcFault
    | with_reducible apply fr_setPc

theorem fr_execWaits (sd : Sys2Proof.Side) (c : ℕ) (fpi : fp.itu = true) (fpl : fp.lam = true) (hfr : Fr fp s0 s1) : FrO fp s0 (execWaits sd c s1) := by
  delta execWaits
  repeat' first
    | with_reducible assumption
    | intro _
    | with_reducible apply FrO.next
    | with_reducible apply fr_setCtxState
    | with_reducible apply fr_stcIssue
    | with_reducible apply fr_setCtx

theorem fr_execCrc (c : ℕ) (fpi : fp.itu = true) (fpl : fp.lam = true) (hfr : Fr fp s0 s1) : FrO fp s0 (execCrc c s1) := by
  delta execCrc
  repeat' first
    | with_reducible assumption
    | intro _
    | with_reducible apply FrO.next
    | with_reducible apply fr_crcSel
    | with_reducible apply fr_setX
    | with_reducible apply fr_crcPut
    | with_reducible apply fr_stcIssue
    | split

theorem fr_execShr (sd : Sys2Proof.Side) (c : ℕ) (fpi : fp.itu = true) (fpl : fp.lam = true) (hfr : Fr fp s0 s1) : FrO fp s0 (execShr sd c s1) := by
  delta execShr
  repeat' first
    | with_reducible assumption
    | with_reducible apply FrO.next
    | with_reducible apply fr_stcR

theorem fr_execFsub (sd : Sys2Proof.Side) (c : ℕ) (fpi : fp.itu = true) (fpl : fp.lam = true) (hfr : Fr fp s0 s1) : FrO fp s0 (execFsub sd c s1) := by
  delta execFsub
  repeat' first
    | with_reducible assumption
    | with_reducible apply FrO.next
    | with_reducible apply fr_stcF

theorem fr_execSra (sd : Sys2Proof.Side) (c : ℕ) (fpi : fp.itu = true) (fpl : fp.lam = true) (hfr : Fr fp s0 s1) : FrO fp s0 (execSra sd c s1) := by
  delta execSra
  repeat' first
    | with_reducible assumption
    | with_reducible apply FrO.next
    | with_reducible apply fr_stcR

theorem fr_execFmul (sd : Sys2Proof.Side) (c : ℕ) (fpi : fp.itu = true) (fpl : fp.lam = true) (hfr : Fr fp s0 s1) : FrO fp s0 (execFmul sd c s1) := by
  delta execFmul
  repeat' first
    | with_reducible assumption
    | with_reducible apply FrO.next
    | with_reducible apply fr_stcF

theorem fr_execFmin (sd : Sys2Proof.Side) (c : ℕ) (fpi : fp.itu = true) (fpl : fp.lam = true) (hfr : Fr fp s0 s1) : FrO fp s0 (execFmin sd c s1) := by
  delta execFmin
  repeat' first
    | with_reducible assumption
    | with_reducible apply FrO.next
    | with_reducible apply fr_stcF

theorem fr_execAnd (sd : Sys2Proof.Side) (c : ℕ) (fpi : fp.itu = true) (fpl : fp.lam = true) (hfr : Fr fp s0 s1) : FrO fp s0 (execAnd sd c s1) := by
  delta execAnd
  repeat' first
    | with_reducible assumption
    | with_reducible apply FrO.next
    | with_reducible apply fr_stcR

theorem fr_execBlt (sd : Sys2Proof.Side) (c : ℕ) (fpi : fp.itu = true) (fpl : fp.lam = true) (hfr : Fr fp s0 s1) : FrO fp s0 (execBlt sd c s1) := by
  delta execBlt
  repeat' first
    | with_reducible assumption
    | with_reducible apply FrO.next
    | with_reducible apply fr_stcB

theorem fr_execEmit (sd : Sys2Proof.Side) (c : ℕ) (fpi : fp.itu = true) (fpl : fp.lam = true) (hfr : Fr fp s0 s1) : FrO fp s0 (execEmit sd c s1) := by
  delta execEmit
  repeat' first
    | with_reducible assumption
    | intro _
    | with_reducible apply FrO.next
    | with_reducible apply fr_il
    | with_reducible apply fr_emitWords
    | with_reducible apply fr_lamRec
    | with_reducible apply fr_stcIssue
    | with_reducible apply fr_stcOffer
    | with_reducible apply fr_setLast
    | with_reducible apply fr_ite
    | split

theorem fr_execFdiv (sd : Sys2Proof.Side) (c : ℕ) (fpi : fp.itu = true) (fpl : fp.lam = true) (hfr : Fr fp s0 s1) : FrO fp s0 (execFdiv sd c s1) := by
  delta execFdiv
  repeat' first
    | with_reducible assumption
    | with_reducible apply FrO.next
    | with_reducible apply fr_stcF

theorem fr_execFadd (sd : Sys2Proof.Side) (c : ℕ) (fpi : fp.itu = true) (fpl : fp.lam = true) (hfr : Fr fp s0 s1) : FrO fp s0 (execFadd sd c s1) := by
  delta execFadd
  repeat' first
    | with_reducible assumption
    | with_reducible apply FrO.next
    | with_reducible apply fr_stcF

theorem fr_execRdc (c : ℕ) (fpi : fp.itu = true) (fpl : fp.lam = true) (hfr : Fr fp s0 s1) : FrO fp s0 (execRdc c s1) := by
  delta execRdc
  repeat' first
    | with_reducible assumption
    | intro _
    | with_reducible apply FrO.next
    | with_reducible apply fr_setX
    | with_reducible apply fr_stcIssue

theorem fr_execHalt (sd : Sys2Proof.Side) (c : ℕ) (fpi : fp.itu = true) (fpl : fp.lam = true) (hfr : Fr fp s0 s1) : FrO fp s0 (execHalt sd c s1) := by
  delta execHalt
  repeat' first
    | with_reducible assumption
    | intro _
    | with_reducible apply FrO.next
    | with_reducible apply fr_stcIssue
    | with_reducible apply fr_stcStop

theorem fr_execAdd (sd : Sys2Proof.Side) (c : ℕ) (fpi : fp.itu = true) (fpl : fp.lam = true) (hfr : Fr fp s0 s1) : FrO fp s0 (execAdd sd c s1) := by
  delta execAdd
  repeat' first
    | with_reducible assumption
    | with_reducible apply FrO.next
    | with_reducible apply fr_stcR

theorem fr_execOr (sd : Sys2Proof.Side) (c : ℕ) (fpi : fp.itu = true) (fpl : fp.lam = true) (hfr : Fr fp s0 s1) : FrO fp s0 (execOr sd c s1) := by
  delta execOr
  repeat' first
    | with_reducible assumption
    | with_reducible apply FrO.next
    | with_reducible apply fr_stcR

theorem fr_execSlt (sd : Sys2Proof.Side) (c : ℕ) (fpi : fp.itu = true) (fpl : fp.lam = true) (hfr : Fr fp s0 s1) : FrO fp s0 (execSlt sd c s1) := by
  delta execSlt
  repeat' first
    | with_reducible assumption
    | with_reducible apply FrO.next
    | with_reducible apply fr_stcR

theorem fr_execLd (sd : Sys2Proof.Side) (c : ℕ) (fpi : fp.itu = true) (fpl : fp.lam = true) (hfr : Fr fp s0 s1) : FrO fp s0 (execLd sd c s1) := by
  delta execLd
  repeat' first
    | with_reducible assumption
    | intro _
    | with_reducible apply FrO.next
    | with_reducible apply fr_setX
    | with_reducible apply fr_stcIssue
    | with_reducible apply fr_stcTrap
    | with_reducible apply fr_ite

theorem fr_execSltu (sd : Sys2Proof.Side) (c : ℕ) (fpi : fp.itu = true) (fpl : fp.lam = true) (hfr : Fr fp s0 s1) : FrO fp s0 (execSltu sd c s1) := by
  delta execSltu
  repeat' first
    | with_reducible assumption
    | with_reducible apply FrO.next
    | with_reducible apply fr_stcR

theorem fr_execRdt (c : ℕ) (fpi : fp.itu = true) (fpl : fp.lam = true) (hfr : Fr fp s0 s1) : FrO fp s0 (execRdt c s1) := by
  delta execRdt
  repeat' first
    | with_reducible assumption
    | intro _
    | with_reducible apply FrO.next
    | with_reducible apply fr_setX
    | with_reducible apply fr_free
    | with_reducible apply fr_stcIssue
    | with_reducible apply fr_trkSnapCopy
    | with_reducible apply fr_ite

theorem fr_execFcvt (sd : Sys2Proof.Side) (c : ℕ) (fpi : fp.itu = true) (fpl : fp.lam = true) (hfr : Fr fp s0 s1) : FrO fp s0 (execFcvt sd c s1) := by
  delta execFcvt
  repeat' first
    | with_reducible assumption
    | with_reducible apply FrO.next
    | with_reducible apply fr_stcI

theorem fr_execFmax (sd : Sys2Proof.Side) (c : ℕ) (fpi : fp.itu = true) (fpl : fp.lam = true) (hfr : Fr fp s0 s1) : FrO fp s0 (execFmax sd c s1) := by
  delta execFmax
  repeat' first
    | with_reducible assumption
    | with_reducible apply FrO.next
    | with_reducible apply fr_stcF

theorem fr_execSrd (sd : Sys2Proof.Side) (c : ℕ) (fpi : fp.itu = true) (fpl : fp.lam = true) (hfr : Fr fp s0 s1) : FrO fp s0 (execSrd sd c s1) := by
  delta execSrd
  repeat' first
    | with_reducible assumption
    | intro _
    | with_reducible apply FrO.next
    | with_reducible apply fr_stcSettle
    | with_reducible apply fr_stcSlotNo
    | with_reducible apply fr_stcIssue
    | with_reducible apply fr_stcStall

theorem fr_execXor (sd : Sys2Proof.Side) (c : ℕ) (fpi : fp.itu = true) (fpl : fp.lam = true) (hfr : Fr fp s0 s1) : FrO fp s0 (execXor sd c s1) := by
  delta execXor
  repeat' first
    | with_reducible assumption
    | with_reducible apply FrO.next
    | with_reducible apply fr_stcR

theorem fr_execLdh (sd : Sys2Proof.Side) (c : ℕ) (fpi : fp.itu = true) (fpl : fp.lam = true) (hfr : Fr fp s0 s1) : FrO fp s0 (execLdh sd c s1) := by
  delta execLdh
  repeat' first
    | with_reducible assumption
    | with_reducible apply FrO.next
    | with_reducible apply fr_stcI

theorem fr_execSt (sd : Sys2Proof.Side) (c : ℕ) (fpi : fp.itu = true) (fpl : fp.lam = true) (hfr : Fr fp s0 s1) : FrO fp s0 (execSt sd c s1) := by
  delta execSt
  repeat' first
    | with_reducible assumption
    | intro _
    | with_reducible apply FrO.next
    | with_reducible apply fr_setStcMem
    | with_reducible apply fr_stcIssue
    | with_reducible apply fr_stcTrap
    | with_reducible apply fr_ite

theorem fr_execMul (sd : Sys2Proof.Side) (c : ℕ) (fpi : fp.itu = true) (fpl : fp.lam = true) (hfr : Fr fp s0 s1) : FrO fp s0 (execMul sd c s1) := by
  delta execMul
  repeat' first
    | with_reducible assumption
    | with_reducible apply FrO.next
    | with_reducible apply fr_stcR

theorem fr_execBne (sd : Sys2Proof.Side) (c : ℕ) (fpi : fp.itu = true) (fpl : fp.lam = true) (hfr : Fr fp s0 s1) : FrO fp s0 (execBne sd c s1) := by
  delta execBne
  repeat' first
    | with_reducible assumption
    | with_reducible apply FrO.next
    | with_reducible apply fr_stcB

theorem fr_execBeq (sd : Sys2Proof.Side) (c : ℕ) (fpi : fp.itu = true) (fpl : fp.lam = true) (hfr : Fr fp s0 s1) : FrO fp s0 (execBeq sd c s1) := by
  delta execBeq
  repeat' first
    | with_reducible assumption
    | with_reducible apply FrO.next
    | with_reducible apply fr_stcB

theorem fr_execSys (sd : Sys2Proof.Side) (c : ℕ) (fpi : fp.itu = true) (fpl : fp.lam = true) (hfr : Fr fp s0 s1) : FrO fp s0 (execSys sd c s1) := by
  delta execSys
  repeat' first
    | with_reducible assumption
    | intro _
    | with_reducible apply FrO.next
    | with_reducible apply fr_setX
    | with_reducible apply fr_stcIssue

theorem fr_execNopInstr (sd : Sys2Proof.Side) (c : ℕ) (fpi : fp.itu = true) (fpl : fp.lam = true) (hfr : Fr fp s0 s1) : FrO fp s0 (execNopInstr sd c s1) := by
  delta execNopInstr
  repeat' first
    | with_reducible assumption
    | intro _
    | with_reducible apply FrO.next
    | with_reducible apply fr_stcIssue

theorem fr_execWaitt (sd : Sys2Proof.Side) (c : ℕ) (fpi : fp.itu = true) (fpl : fp.lam = true) (hfr : Fr fp s0 s1) : FrO fp s0 (execWaitt sd c s1) := by
  delta execWaitt
  repeat' first
    | with_reducible assumption
    | intro _
    | with_reducible apply FrO.next
    | with_reducible apply fr_setCtxState
    | with_reducible apply fr_stcIssue
    | with_reducible apply fr_setLast
    | with_reducible apply fr_setCtx
    | with_reducible apply fr_ite

theorem fr_execLdi (sd : Sys2Proof.Side) (c : ℕ) (fpi : fp.itu = true) (fpl : fp.lam = true) (hfr : Fr fp s0 s1) : FrO fp s0 (execLdi sd c s1) := by
  delta execLdi
  repeat' first
    | with_reducible assumption
    | intro _
    | with_reducible apply FrO.next
    | with_reducible apply fr_setX
    | with_reducible apply fr_stcIssue

theorem fr_execFtoi (sd : Sys2Proof.Side) (c : ℕ) (fpi : fp.itu = true) (fpl : fp.lam = true) (hfr : Fr fp s0 s1) : FrO fp s0 (execFtoi sd c s1) := by
  delta execFtoi
  repeat' first
    | with_reducible assumption
    | with_reducible apply FrO.next
    | with_reducible apply fr_stcI

theorem fr_execShl (sd : Sys2Proof.Side) (c : ℕ) (fpi : fp.itu = true) (fpl : fp.lam = true) (hfr : Fr fp s0 s1) : FrO fp s0 (execShl sd c s1) := by
  delta execShl
  repeat' first
    | with_reducible assumption
    | with_reducible apply FrO.next
    | with_reducible apply fr_stcR

theorem fr_execJmp (sd : Sys2Proof.Side) (c : ℕ) (fpi : fp.itu = true) (fpl : fp.lam = true) (hfr : Fr fp s0 s1) : FrO fp s0 (execJmp sd c s1) := by
  delta execJmp
  repeat' first
    | with_reducible assumption
    | intro _
    | with_reducible apply FrO.next
    | with_reducible apply fr_stcIssue
    | with_reducible apply fr_stcJump

theorem fr_execAddi (sd : Sys2Proof.Side) (c : ℕ) (fpi : fp.itu = true) (fpl : fp.lam = true) (hfr : Fr fp s0 s1) : FrO fp s0 (execAddi sd c s1) := by
  delta execAddi
  repeat' first
    | with_reducible assumption
    | with_reducible apply FrO.next
    | with_reducible apply fr_stcI

theorem fr_execSub (sd : Sys2Proof.Side) (c : ℕ) (fpi : fp.itu = true) (fpl : fp.lam = true) (hfr : Fr fp s0 s1) : FrO fp s0 (execSub sd c s1) := by
  delta execSub
  repeat' first
    | with_reducible assumption
    | with_reducible apply FrO.next
    | with_reducible apply fr_stcR

theorem fr_execSwr (sd : Sys2Proof.Side) (c : ℕ) (fpi : fp.itu = true) (fpl : fp.lam = true) (hfr : Fr fp s0 s1) : FrO fp s0 (execSwr sd c s1) := by
  delta execSwr
  repeat' first
    | with_reducible assumption
    | intro _
    | with_reducible apply FrO.next
    | with_reducible apply fr_stcSettle
    | with_reducible apply fr_ix
    | with_reducible apply fr_stcSlotNo
    | with_reducible apply fr_stcIssue
    | with_reducible apply fr_stcStall
    | with_reducible apply fr_setLast
    | with_reducible apply fr_ite

end Sys2Proof.Machine
end

