-- ==== Sys2Proof/Laws/FrLinkTime.lean ====
section
/-! SUPPORT. What each operation of Machine/LinkTime.lean can change, in the form of Laws/Frame.lean. -/

set_option linter.unusedTactic false
set_option linter.unreachableTactic false

namespace Sys2Proof.Machine

variable {fp : Parts} {s0 s1 : State}

theorem fr_setLcrcVal (q : ℕ) (v : ℕ) (fpl : fp.lam = true) (hfr : Fr fp s0 s1) : Fr fp s0 (State.setLcrcVal s1 q v) := by
  delta State.setLcrcVal
  repeat' first
    | with_reducible assumption
    | with_reducible apply fr_wl

theorem fr_crcDataW (sd : Sys2Proof.Side) (u : ℕ) (data : ℕ) (strb : ℕ) (fpi : fp.itu = true) (fpl : fp.lam = true) (hfr : Fr fp s0 s1) : Fr fp s0 (State.crcDataW s1 sd u data strb) := by
  delta State.crcDataW
  repeat' first
    | with_reducible assumption
    | with_reducible apply fr_crcPut
    | with_reducible apply fr_setLcrcVal
    | split

theorem fr_crcSelW (sd : Sys2Proof.Side) (u : ℕ) (v : ℕ) (fpi : fp.itu = true) (fpl : fp.lam = true) (hfr : Fr fp s0 s1) : Fr fp s0 (State.crcSelW s1 sd u v) := by
  delta State.crcSelW
  repeat' first
    | with_reducible assumption
    | with_reducible apply fr_crcSel
    | with_reducible apply fr_setLcrcVal
    | with_reducible apply fr_wl
    | split

theorem fr_inject (q : ℕ) (kind : ℕ) (fpi : fp.itu = true) (fpl : fp.lam = true) (hfr : Fr fp s0 s1) : Fr fp s0 (State.inject s1 q kind) := by
  delta State.inject
  repeat' first
    | with_reducible assumption
    | with_reducible apply fr_setLe
    | split

theorem fr_marginLane (q : ℕ) (l : ℕ) (fin : ℕ) (h : ℕ) (w : ℕ) (fpl : fp.lam = true) (hfr : Fr fp s0 s1) : Fr fp s0 (State.marginLane s1 q l fin h w) := by
  delta State.marginLane
  repeat' first
    | with_reducible assumption
    | intro _
    | with_reducible apply fr_setPort
    | with_reducible apply fr_lamEmit
    | with_reducible apply fr_ite

theorem fr_timeDue (sd : Sys2Proof.Side) (q : ℕ) (body : List ℕ) (fpi : fp.itu = true) (fpl : fp.lam = true) (hfr : Fr fp s0 s1) : Fr fp s0 (State.timeDue s1 sd q body) := by
  delta State.timeDue
  repeat' first
    | with_reducible assumption
    | with_reducible apply fr_setLe

theorem fr_execTimeSyncRx (exch : ℕ) (t1 : ℕ) (f1 : ℕ) (asym : ℕ) (t2 : ℕ) (f2 : ℕ) (t3 : ℕ) (f3 : ℕ) (fpi : fp.itu = true) (fpl : fp.lam = true) (hfr : Fr fp s0 s1) : FrO fp s0 (execTimeSyncRx exch t1 f1 asym t2 f2 t3 f3 s1) := by
  delta execTimeSyncRx
  repeat' first
    | with_reducible assumption
    | intro _
    | with_reducible apply FrO.next
    | with_reducible apply fr_timeDue
    | with_reducible apply fr_ii
    | (with_reducible refine fr_mk (by with_reducible assumption) ?_ ?_) <;> first | exact .inl rfl | exact .inr ⟨by assumption, rfl⟩ | exact .inr ⟨by assumption, rfl, rfl, rfl, rfl, rfl, rfl⟩
    | split

theorem fr_execTimeDreqRx (q : ℕ) (exch : ℕ) (t4 : ℕ) (f4 : ℕ) (fpi : fp.itu = true) (fpl : fp.lam = true) (hfr : Fr fp s0 s1) : FrO fp s0 (execTimeDreqRx q exch t4 f4 s1) := by
  delta execTimeDreqRx
  repeat' first
    | with_reducible assumption
    | intro _
    | lift_lets
    | with_reducible apply FrO.next
    | with_reducible apply fr_setPort
    | with_reducible apply fr_timeDue
    | split

theorem fr_execTimeSyncTx (q : ℕ) (t : ℕ) (f : ℕ) (fpi : fp.itu = true) (fpl : fp.lam = true) (hfr : Fr fp s0 s1) : FrO fp s0 (execTimeSyncTx q t f s1) := by
  delta execTimeSyncTx
  repeat' first
    | with_reducible assumption
    | intro _
    | with_reducible apply FrO.next
    | with_reducible apply fr_setPort
    | with_reducible apply fr_timeDue
    | with_reducible apply frO_ite

theorem fr_execTimeDrespRx (exch : ℕ) (t4 : ℕ) (f4 : ℕ) (fpi : fp.itu = true) (fpl : fp.lam = true) (hfr : Fr fp s0 s1) : FrO fp s0 (execTimeDrespRx exch t4 f4 s1) := by
  delta execTimeDrespRx
  repeat' first
    | with_reducible assumption
    | intro _
    | with_reducible apply FrO.next
    | with_reducible apply fr_measure
    | with_reducible apply fr_after
    | with_reducible apply fr_ii
    | (with_reducible refine fr_mk (by with_reducible assumption) ?_ ?_) <;> first | exact .inl rfl | exact .inr ⟨by assumption, rfl⟩ | exact .inr ⟨by assumption, rfl, rfl, rfl, rfl, rfl, rfl⟩
    | split

theorem fr_execInjectionEnd (q : ℕ) (fpi : fp.itu = true) (fpl : fp.lam = true) (hfr : Fr fp s0 s1) : FrO fp s0 (execInjectionEnd q s1) := by
  delta execInjectionEnd
  repeat' first
    | with_reducible assumption
    | intro _
    | with_reducible apply FrO.next
    | with_reducible apply fr_setLe
    | split

theorem fr_execCrcSelWrite (sd : Sys2Proof.Side) (iss : Issuer) (u : ℕ) (v : ℕ) (fpi : fp.itu = true) (fpl : fp.lam = true) (hfr : Fr fp s0 s1) : FrO fp s0 (execCrcSelWrite sd iss u v s1) := by
  delta execCrcSelWrite
  repeat' first
    | with_reducible assumption
    | intro _
    | with_reducible apply FrO.next
    | with_reducible apply fr_crcSelW
    | with_reducible apply fr_guard
    | with_reducible apply frO_ite

theorem fr_execMarginSweep (q : ℕ) (own : List (ℕ × ℕ)) (peer : List (ℕ × ℕ)) (fpi : fp.itu = true) (fpl : fp.lam = true) (hfr : Fr fp s0 s1) : FrO fp s0 (execMarginSweep q own peer s1) := by
  delta execMarginSweep
  repeat' first
    | with_reducible assumption
    | intro _
    | with_reducible apply FrO.next
    | with_reducible apply fr_setPort
    | with_reducible apply fr_marginLane
    | with_reducible apply fr_wi
    | with_reducible apply fr_wl
    | with_reducible apply frO_ite
    | with_reducible apply fr_foldl

theorem fr_execTimeExchangeVoid (sd : Sys2Proof.Side) (q : ℕ) (fpi : fp.itu = true) (fpl : fp.lam = true) (hfr : Fr fp s0 s1) : FrO fp s0 (execTimeExchangeVoid sd q s1) := by
  delta execTimeExchangeVoid
  repeat' first
    | with_reducible assumption
    | intro _
    | with_reducible apply FrO.next
    | with_reducible apply fr_setPort
    | with_reducible apply fr_il
    | with_reducible apply fr_ii
    | (with_reducible refine fr_mk (by with_reducible assumption) ?_ ?_) <;> first | exact .inl rfl | exact .inr ⟨by assumption, rfl⟩ | exact .inr ⟨by assumption, rfl, rfl, rfl, rfl, rfl, rfl⟩
    | split

theorem fr_execFaultInjection (testing : List ℕ) (fpi : fp.itu = true) (fpl : fp.lam = true) (hfr : Fr fp s0 s1) : FrO fp s0 (execFaultInjection testing s1) := by
  delta execFaultInjection
  repeat' first
    | with_reducible assumption
    | intro _
    | with_reducible apply FrO.next
    | with_reducible apply fr_il
    | with_reducible apply fr_inject
    | with_reducible apply frO_ite
    | (with_reducible refine fr_mk (by with_reducible assumption) ?_ ?_) <;> first | exact .inl rfl | exact .inr ⟨by assumption, rfl⟩ | exact .inr ⟨by assumption, rfl, rfl, rfl, rfl, rfl, rfl⟩
    | split

theorem fr_execCrcDataWrite (sd : Sys2Proof.Side) (iss : Issuer) (u : ℕ) (data : ℕ) (strb : ℕ) (fpi : fp.itu = true) (fpl : fp.lam = true) (hfr : Fr fp s0 s1) : FrO fp s0 (execCrcDataWrite sd iss u data strb s1) := by
  delta execCrcDataWrite
  repeat' first
    | with_reducible assumption
    | intro _
    | with_reducible apply FrO.next
    | with_reducible apply fr_crcDataW
    | with_reducible apply fr_guard
    | with_reducible apply frO_ite

end Sys2Proof.Machine
end

