-- ==== Sys2Proof/Laws/FrPartition.lean ====
section
/-! SUPPORT. What each operation of Machine/Partition.lean can change, in the form of Laws/Frame.lean. -/

set_option linter.unusedTactic false
set_option linter.unreachableTactic false

namespace Sys2Proof.Machine

variable {fp : Parts} {s0 s1 : State}

theorem fr_partRelease (p : ℕ) (fpi : fp.itu = true) (fpl : fp.lam = true) (hfr : Fr fp s0 s1) : Fr fp s0 (State.partRelease s1 p) := by
  delta State.partRelease
  repeat' first
    | with_reducible assumption
    | intro _
    | with_reducible apply fr_gntRelease
    | with_reducible apply fr_stcRelease
    | with_reducible apply fr_ituEmitHeld
    | with_reducible apply fr_digRelease
    | split

theorem fr_digReset (p : ℕ) (fpi : fp.itu = true) (hfr : Fr fp s0 s1) : Fr fp s0 (State.digReset s1 p) := by
  delta State.digReset
  repeat' first
    | with_reducible assumption
    | intro _
    | with_reducible apply fr_digClose
    | with_reducible apply fr_ite

theorem fr_setPseq (p : ℕ) (v : PartSeq) (fpi : fp.itu = true) (hfr : Fr fp s0 s1) : Fr fp s0 (State.setPseq s1 p v) := by
  delta State.setPseq
  repeat' first
    | (with_reducible refine fr_mk (by with_reducible assumption) ?_ ?_) <;> first | exact .inl rfl | exact .inr ⟨by assumption, rfl⟩ | exact .inr ⟨by assumption, rfl, rfl, rfl, rfl, rfl, rfl⟩

theorem fr_dropOld (p : ℕ) (fpi : fp.itu = true) (hfr : Fr fp s0 s1) : Fr fp s0 (State.dropOld s1 p) := by
  delta State.dropOld
  repeat' first
    | with_reducible assumption
    | intro _
    | with_reducible apply fr_setRow
    | with_reducible apply fr_setVis
    | with_reducible apply fr_setDig
    | with_reducible apply fr_digIdle
    | with_reducible apply fr_visAfter
    | with_reducible apply fr_smpDiscard
    | with_reducible apply fr_ii
    | with_reducible apply fr_foldl
    | (with_reducible refine fr_mk (by with_reducible assumption) ?_ ?_) <;> first | exact .inl rfl | exact .inr ⟨by assumption, rfl⟩ | exact .inr ⟨by assumption, rfl, rfl, rfl, rfl, rfl, rfl⟩
    | split

theorem fr_advance (p : ℕ) (cause : ℕ) (fpi : fp.itu = true) (fpl : fp.lam = true) (hfr : Fr fp s0 s1) : Fr fp s0 (State.advance s1 p cause) := by
  delta State.advance
  repeat' first
    | with_reducible assumption
    | (intro x; (first | refine fr_cut (fp := fp) (s0 := s0) x ?_ (fun hx => ?_) | refine fr_cut (fp := fp) (s0 := s0) x.1 ?_ (fun hx => ?_) | refine fr_cut (fp := fp) (s0 := s0) x.2 ?_ (fun hx => ?_)); on_goal 1 => dsimp -zeta -zetaHave only [x])
    | intro _
    | lift_lets
    | with_reducible apply fr_pdTryAll
    | with_reducible apply fr_stcOwnerReset
    | with_reducible apply fr_ituEmitFenced
    | with_reducible apply fr_wi
    | with_reducible apply fr_digReset
    | with_reducible apply fr_setPseq
    | with_reducible apply fr_dropOld
    | with_reducible apply fr_trcFlushed
    | with_reducible apply fr_ii
    | (with_reducible refine fr_mk (by with_reducible assumption) ?_ ?_) <;> first | exact .inl rfl | exact .inr ⟨by assumption, rfl⟩ | exact .inr ⟨by assumption, rfl, rfl, rfl, rfl, rfl, rfl⟩

theorem fr_advanceAll (fpi : fp.itu = true) (fpl : fp.lam = true) (hfr : Fr fp s0 s1) : Fr fp s0 (State.advanceAll s1) := by
  delta State.advanceAll
  repeat' first
    | with_reducible assumption
    | intro _
    | with_reducible apply fr_wi
    | with_reducible apply fr_partRelease
    | with_reducible apply fr_advance
    | with_reducible apply fr_ite
    | with_reducible apply fr_foldl
    | (with_reducible refine fr_mk (by with_reducible assumption) ?_ ?_) <;> first | exact .inl rfl | exact .inr ⟨by assumption, rfl⟩ | exact .inr ⟨by assumption, rfl, rfl, rfl, rfl, rfl, rfl⟩

theorem fr_advAll (fpi : fp.itu = true) (fpl : fp.lam = true) (hfr : Fr fp s0 s1) : Fr fp s0 (State.advAll s1) := by
  delta State.advAll
  repeat' first
    | with_reducible assumption
    | intro _
    | with_reducible apply fr_advanceAll
    | with_reducible apply fr_wi
    | with_reducible apply fr_ii
    | with_reducible apply fr_foldl
    | (with_reducible refine fr_mk (by with_reducible assumption) ?_ ?_) <;> first | exact .inl rfl | exact .inr ⟨by assumption, rfl⟩ | exact .inr ⟨by assumption, rfl, rfl, rfl, rfl, rfl, rfl⟩
    | split

theorem fr_enterPart (p : ℕ) (v : ℕ) (fpi : fp.itu = true) (hfr : Fr fp s0 s1) : Fr fp s0 (State.enterPart s1 p v) := by
  delta State.enterPart
  repeat' first
    | with_reducible assumption
    | with_reducible apply fr_wi
    | with_reducible apply fr_setPseq

theorem fr_fence (p : ℕ) (fpi : fp.itu = true) (hfr : Fr fp s0 s1) : Fr fp s0 (State.fence s1 p) := by
  delta State.fence
  repeat' first
    | with_reducible assumption
    | with_reducible apply fr_enterPart
    | with_reducible apply fr_wi

theorem fr_partStart (p : ℕ) (cause : ℕ) (fpi : fp.itu = true) (hfr : Fr fp s0 s1) : Fr fp s0 (State.partStart s1 p cause) := by
  delta State.partStart
  repeat' first
    | with_reducible assumption
    | intro _
    | with_reducible apply fr_enterPart
    | with_reducible apply fr_visTrigger
    | with_reducible apply fr_fence
    | with_reducible apply fr_setPseq
    | with_reducible apply fr_rowReset
    | with_reducible apply fr_ite

theorem fr_partTrigger (p : ℕ) (cause : ℕ) (fpi : fp.itu = true) (hfr : Fr fp s0 s1) : Fr fp s0 (State.partTrigger s1 p cause).1 := by
  delta State.partTrigger
  repeat' first
    | with_reducible assumption
    | intro _
    | with_reducible apply fr_partStart
    | with_reducible apply fr_wi
    | with_reducible apply fr_setPseq
    | with_reducible apply fr_ii
    | split

theorem fr_opPartReset (p : ℕ) (fpi : fp.itu = true) (hfr : Fr fp s0 s1) : Fr fp s0 (State.opPartReset s1 p).1 := by
  delta State.opPartReset
  repeat' first
    | with_reducible assumption
    | with_reducible apply fr_partTrigger

theorem fr_execPartReset (h : CmdHdr) (p : ℕ) (fpi : fp.itu = true) (hfr : Fr fp s0 s1) : FrO fp s0 (execPartReset h p s1) := by
  delta execPartReset
  repeat' first
    | with_reducible assumption
    | intro _
    | with_reducible apply FrO.next
    | with_reducible apply fr_opPartReset
    | with_reducible apply fr_cmdItu

theorem fr_cutRows (p : ℕ) (fpi : fp.itu = true) (hfr : Fr fp s0 s1) : Fr fp s0 (State.cutRows s1 p) := by
  delta State.cutRows
  repeat' first
    | with_reducible assumption
    | intro _
    | with_reducible apply fr_setRow
    | with_reducible apply fr_wi
    | with_reducible apply fr_ite

theorem fr_hangDeclare (p : ℕ) (v : ℕ) (fpi : fp.itu = true) (hfr : Fr fp s0 s1) : Fr fp s0 (State.hangDeclare s1 p v) := by
  delta State.hangDeclare
  repeat' first
    | with_reducible assumption
    | intro _
    | with_reducible apply fr_ituEmit
    | with_reducible apply fr_partTrigger
    | with_reducible apply fr_wi
    | with_reducible apply fr_setPseq
    | split

theorem fr_hangCheck (p : ℕ) (fpi : fp.itu = true) (hfr : Fr fp s0 s1) : Fr fp s0 (State.hangCheck s1 p) := by
  delta State.hangCheck
  repeat' first
    | with_reducible assumption
    | intro _
    | with_reducible apply fr_hangDeclare
    | with_reducible apply fr_setPseq
    | with_reducible apply fr_ite

theorem fr_hangCheckAll (fpi : fp.itu = true) (hfr : Fr fp s0 s1) : Fr fp s0 (State.hangCheckAll s1) := by
  delta State.hangCheckAll
  repeat' first
    | with_reducible assumption
    | intro _
    | with_reducible apply fr_hangCheck
    | with_reducible apply fr_foldl

theorem fr_partDone (p : ℕ) (hung : Bool) (ns : ℕ) (fpi : fp.itu = true) (hfr : Fr fp s0 s1) : Fr fp s0 (State.partDone s1 p hung ns) := by
  delta State.partDone
  repeat' first
    | with_reducible assumption
    | with_reducible apply fr_ituEmitFenced

theorem fr_partFreeze (p : ℕ) (on : Bool) (fpi : fp.itu = true) (hfr : Fr fp s0 s1) : Fr fp s0 (State.partFreeze s1 p on) := by
  delta State.partFreeze
  repeat' first
    | with_reducible assumption
    | with_reducible apply fr_refreeze
    | with_reducible apply fr_setPwr

theorem fr_partHung (p : ℕ) (fpi : fp.itu = true) (fpl : fp.lam = true) (hfr : Fr fp s0 s1) : Fr fp s0 (State.partHung s1 p) := by
  delta State.partHung
  repeat' first
    | with_reducible assumption
    | (intro x; (first | refine fr_cut (fp := fp) (s0 := s0) x ?_ (fun hx => ?_) | refine fr_cut (fp := fp) (s0 := s0) x.1 ?_ (fun hx => ?_) | refine fr_cut (fp := fp) (s0 := s0) x.2 ?_ (fun hx => ?_)); on_goal 1 => dsimp -zeta -zetaHave only [x])
    | intro _
    | lift_lets
    | with_reducible apply fr_enterPart
    | with_reducible apply fr_setDig
    | with_reducible apply fr_partDone
    | with_reducible apply fr_setPins
    | with_reducible apply fr_gntHung
    | with_reducible apply fr_wi
    | with_reducible apply fr_setCtx
    | with_reducible apply fr_ii
    | with_reducible apply fr_foldl
    | (with_reducible refine fr_mk (by with_reducible assumption) ?_ ?_) <;> first | exact .inl rfl | exact .inr ⟨by assumption, rfl⟩ | exact .inr ⟨by assumption, rfl, rfl, rfl, rfl, rfl, rfl⟩
    | split

theorem fr_quiesce (p : ℕ) (fpi : fp.itu = true) (hfr : Fr fp s0 s1) : Fr fp s0 (State.quiesce s1 p) := by
  delta State.quiesce
  repeat' first
    | with_reducible assumption
    | with_reducible apply fr_enterPart
    | with_reducible apply fr_setPins
    | with_reducible apply fr_gntQuiesce
    | with_reducible apply fr_trcResetStop

theorem fr_execPartCtlReset (iss : Issuer) (p : ℕ) (fpi : fp.itu = true) (hfr : Fr fp s0 s1) : FrO fp s0 (execPartCtlReset iss p s1) := by
  delta execPartCtlReset
  repeat' first
    | with_reducible assumption
    | intro _
    | with_reducible apply FrO.next
    | with_reducible apply fr_ituGuard
    | with_reducible apply fr_partTrigger
    | with_reducible apply fr_wi
    | with_reducible apply frO_ite

theorem fr_execGenerationAdvance (p : ℕ) (fpi : fp.itu = true) (fpl : fp.lam = true) (hfr : Fr fp s0 s1) : FrO fp s0 (execGenerationAdvance p s1) := by
  delta execGenerationAdvance
  repeat' first
    | with_reducible assumption
    | intro _
    | with_reducible apply FrO.next
    | with_reducible apply fr_enterPart
    | with_reducible apply fr_setPins
    | with_reducible apply fr_advance
    | with_reducible apply fr_partFreeze
    | split

theorem fr_execQuiesceAck (p : ℕ) (fpi : fp.itu = true) (hfr : Fr fp s0 s1) : FrO fp s0 (execQuiesceAck p s1) := by
  delta execQuiesceAck
  repeat' first
    | with_reducible assumption
    | intro _
    | with_reducible apply FrO.next
    | with_reducible apply fr_fence
    | split

theorem fr_execResetTimeout (p : ℕ) (fpi : fp.itu = true) (fpl : fp.lam = true) (hfr : Fr fp s0 s1) : FrO fp s0 (execResetTimeout p s1) := by
  delta execResetTimeout
  repeat' first
    | with_reducible assumption
    | intro _
    | with_reducible apply FrO.next
    | with_reducible apply fr_partHung
    | split

theorem fr_execPartRstDone (p : ℕ) (fpi : fp.itu = true) (fpl : fp.lam = true) (hfr : Fr fp s0 s1) : FrO fp s0 (execPartRstDone p s1) := by
  delta execPartRstDone
  repeat' first
    | with_reducible assumption
    | intro _
    | with_reducible apply FrO.next
    | with_reducible apply fr_enterPart
    | with_reducible apply fr_partDone
    | with_reducible apply fr_setPins
    | with_reducible apply fr_wi
    | with_reducible apply fr_setPseq
    | with_reducible apply fr_partRelease
    | with_reducible apply fr_partFreeze
    | split

theorem fr_execQuiesceTimeout (p : ℕ) (fpi : fp.itu = true) (hfr : Fr fp s0 s1) : FrO fp s0 (execQuiesceTimeout p s1) := by
  delta execQuiesceTimeout
  repeat' first
    | with_reducible assumption
    | intro _
    | with_reducible apply FrO.next
    | with_reducible apply fr_fence
    | with_reducible apply fr_wi
    | with_reducible apply fr_setPseq
    | with_reducible apply fr_ii
    | split

theorem fr_execPartCtlAdvAll (iss : Issuer) (fpi : fp.itu = true) (fpl : fp.lam = true) (hfr : Fr fp s0 s1) : FrO fp s0 (execPartCtlAdvAll iss s1) := by
  delta execPartCtlAdvAll
  repeat' first
    | with_reducible assumption
    | intro _
    | with_reducible apply FrO.next
    | with_reducible apply fr_ituGuard
    | with_reducible apply fr_advAll
    | with_reducible apply frO_ite

theorem fr_execCaptureTimeout (p : ℕ) (fpi : fp.itu = true) (hfr : Fr fp s0 s1) : FrO fp s0 (execCaptureTimeout p s1) := by
  delta execCaptureTimeout
  repeat' first
    | with_reducible assumption
    | intro _
    | with_reducible apply FrO.next
    | with_reducible apply fr_quiesce
    | with_reducible apply fr_cutRows
    | with_reducible apply fr_setPseq
    | split

theorem fr_execCaptureEnd (p : ℕ) (fpi : fp.itu = true) (hfr : Fr fp s0 s1) : FrO fp s0 (execCaptureEnd p s1) := by
  delta execCaptureEnd
  repeat' first
    | with_reducible assumption
    | intro _
    | with_reducible apply FrO.next
    | with_reducible apply fr_quiesce
    | split

theorem fr_execAdvAllHeldRelease (fpi : fp.itu = true) (fpl : fp.lam = true) (hfr : Fr fp s0 s1) : FrO fp s0 (execAdvAllHeldRelease s1) := by
  delta execAdvAllHeldRelease
  repeat' first
    | with_reducible assumption
    | intro _
    | with_reducible apply FrO.next
    | with_reducible apply fr_advanceAll
    | split

theorem fr_execResetTriggerRelease (p : ℕ) (fpi : fp.itu = true) (hfr : Fr fp s0 s1) : FrO fp s0 (execResetTriggerRelease p s1) := by
  delta execResetTriggerRelease
  repeat' first
    | with_reducible assumption
    | intro _
    | with_reducible apply FrO.next
    | with_reducible apply fr_partStart
    | with_reducible apply fr_wi
    | split

end Sys2Proof.Machine
end

