-- ==== Sys2Proof/Laws/FrRegWrite.lean ====
section
/-! SUPPORT. What each operation of Machine/RegWrite.lean can change, in the form of Laws/Frame.lean. -/

set_option linter.unusedTactic false
set_option linter.unreachableTactic false

namespace Sys2Proof.Machine

variable {fp : Parts} {s0 s1 : State}

theorem fr_putPos (data : ℕ) (mask : ℕ) (fpl : fp.lam = true) (hfr : Fr fp s0 s1) : Fr fp s0 (State.putPos s1 data mask) := by
  delta State.putPos
  repeat' first
    | with_reducible assumption
    | with_reducible apply fr_setPos

theorem fr_putPair (sd : Sys2Proof.Side) (path : Path) (p : Fld × Fld) (i : ℕ) (lo : ℕ) (hi : ℕ) (fpi : fp.itu = true) (fpl : fp.lam = true) (hfr : Fr fp s0 s1) : Fr fp s0 (State.putPair s1 sd path p i lo hi) := by
  delta State.putPair
  repeat' first
    | with_reducible assumption
    | intro _
    | with_reducible apply fr_writeSlotHi
    | with_reducible apply fr_setReg
    | with_reducible apply fr_setLcrcVal
    | with_reducible apply fr_writeIncr
    | with_reducible apply fr_setCrcVal
    | with_reducible apply fr_ite
    | (with_reducible refine fr_mk (by with_reducible assumption) ?_ ?_) <;> first | exact .inl rfl | exact .inr ⟨by assumption, rfl⟩ | exact .inr ⟨by assumption, rfl, rfl, rfl, rfl, rfl, rfl⟩

theorem fr_gntAbortBit (fpi : fp.itu = true) (hfr : Fr fp s0 s1) : Fr fp s0 (State.gntAbortBit s1) := by
  delta State.gntAbortBit
  repeat' first
    | with_reducible assumption
    | intro _
    | with_reducible apply fr_sliceRestore
    | with_reducible apply fr_setGnt
    | with_reducible apply fr_free
    | with_reducible apply fr_gntAbort
    | with_reducible apply fr_wi
    | split

theorem fr_setAchEn (c : ℕ) (v : ℕ) (fpi : fp.itu = true) (hfr : Fr fp s0 s1) : Fr fp s0 (State.setAchEn s1 c v) := by
  delta State.setAchEn
  repeat' first
    | with_reducible assumption
    | intro _
    | with_reducible apply fr_wi
    | with_reducible apply fr_ite

theorem fr_setRdIdx (path : Path) (v : ℕ) (fpi : fp.itu = true) (hfr : Fr fp s0 s1) : Fr fp s0 (State.setRdIdx s1 path v) := by
  delta State.setRdIdx
  repeat' first
    | with_reducible assumption
    | intro _
    | with_reducible apply fr_wi
    | with_reducible apply fr_setSmp
    | (with_reducible refine fr_mk (by with_reducible assumption) ?_ ?_) <;> first | exact .inl rfl | exact .inr ⟨by assumption, rfl⟩ | exact .inr ⟨by assumption, rfl, rfl, rfl, rfl, rfl, rfl⟩
    | split

theorem fr_setBucket (c : ℕ) (rate : ℕ) (burst : ℕ) (fpl : fp.lam = true) (hfr : Fr fp s0 s1) : Fr fp s0 (State.setBucket s1 c rate burst) := by
  delta State.setBucket
  repeat' first
    | (with_reducible refine fr_mk (by with_reducible assumption) ?_ ?_) <;> first | exact .inl rfl | exact .inr ⟨by assumption, rfl⟩ | exact .inr ⟨by assumption, rfl, rfl, rfl, rfl, rfl, rfl⟩

theorem fr_setGrpMode (v : ℕ) (fpl : fp.lam = true) (hfr : Fr fp s0 s1) : Fr fp s0 (State.setGrpMode s1 v) := by
  delta State.setGrpMode
  repeat' first
    | with_reducible assumption
    | with_reducible apply fr_wl

theorem fr_trig (f : State → Nat → State) (w : WArg) (hf : ∀ s1 n, Fr fp s0 s1 → Fr fp s0 (f s1 n)) (hfr : Fr fp s0 s1) :
    Fr fp s0 (trig f s1 w) := by
  unfold trig; split
  · exact hf _ _ hfr
  · exact hfr

theorem fr_ituHooks (fpi : fp.itu = true) (fpl : fp.lam = true) : ∀ p ∈ ituHooks, ∀ (s1 : State) (w : WArg), Fr fp s0 s1 → Fr fp s0 (p.2 s1 w) := by
  delta ituHooks
  repeat (rw [List.forall_mem_cons]; refine ⟨?_, ?_⟩; rotate_left)
  · exact fun _ h => absurd h List.not_mem_nil
  all_goals intro s1 w hfr; dsimp -zeta -zetaHave only
  all_goals repeat' first
    | with_reducible assumption
    | with_reducible apply fr_trig
    | intro _
    | with_reducible apply fr_advAll
    | with_reducible apply fr_clearCounters
    | with_reducible apply fr_crcDataW
    | with_reducible apply fr_crcSelW
    | with_reducible apply fr_digClose
    | with_reducible apply fr_gntAbortBit
    | with_reducible apply fr_leaveUp
    | with_reducible apply fr_partTrigger
    | with_reducible apply fr_rearm
    | with_reducible apply fr_rowTrigger
    | with_reducible apply fr_setAchEn
    | with_reducible apply fr_setFreeze
    | with_reducible apply fr_setRdIdx
    | with_reducible apply fr_setRun
    | with_reducible apply fr_setServo
    | with_reducible apply fr_setTrcEn
    | with_reducible apply fr_stcStopMask
    | with_reducible apply fr_trcFlush
    | with_reducible apply fr_trcMark
    | with_reducible apply fr_visCtlRelease
    | with_reducible apply fr_visTrigger
    | with_reducible apply fr_writeDigStep

theorem fr_lamHooks (fpi : fp.itu = true) (fpl : fp.lam = true) (fpd : fp.ddr = true) (fpn : fp.nor = true) : ∀ p ∈ lamHooks, ∀ (s1 : State) (w : WArg), Fr fp s0 s1 → Fr fp s0 (p.2 s1 w) := by
  delta lamHooks
  repeat (rw [List.forall_mem_cons]; refine ⟨?_, ?_⟩; rotate_left)
  · exact fun _ h => absurd h List.not_mem_nil
  all_goals intro s1 w hfr; dsimp -zeta -zetaHave only
  all_goals repeat' first
    | with_reducible assumption
    | with_reducible apply fr_trig
    | intro _
    | with_reducible apply fr_bootRun
    | with_reducible apply fr_crcDataW
    | with_reducible apply fr_crcSelW
    | with_reducible apply fr_fstQuarters
    | with_reducible apply fr_fstResume
    | with_reducible apply fr_keyProg
    | with_reducible apply fr_ldgRefresh
    | with_reducible apply fr_leaveUp
    | with_reducible apply fr_rearm
    | with_reducible apply fr_recFlush
    | with_reducible apply fr_ringAbort
    | with_reducible apply fr_ringFlush
    | with_reducible apply fr_setBucket
    | with_reducible apply fr_setCmpEnable
    | with_reducible apply fr_setDdr
    | with_reducible apply fr_setGrpMode
    | with_reducible apply fr_setLnkEnable
    | with_reducible apply fr_setMainsEnable
    | with_reducible apply fr_setPdCtl
    | with_reducible apply fr_setRecEnable
    | with_reducible apply fr_setServo
    | with_reducible apply fr_setStcEnable
    | with_reducible apply fr_stcStopMask
    | with_reducible apply fr_trkSnapCopy
    | with_reducible apply fr_wl
    | split

theorem fr_putRw (sd : Sys2Proof.Side) (F : Fld) (w : WArg) (fpi : fp.itu = true) (fpl : fp.lam = true) (fpd : fp.ddr = true) (fpn : fp.nor = true) (hfr : Fr fp s0 s1) : Fr fp s0 (s1.putRw sd F w) := by
  unfold State.putRw
  split
  · exact hfr
  · split
    · next p hp =>
      have hm := List.mem_of_find?_eq_some hp
      cases sd
      · exact fr_ituHooks ‹_› ‹_› p hm _ _ hfr
      · exact fr_lamHooks ‹_› ‹_› ‹_› ‹_› p hm _ _ hfr
    · exact fr_setReg _ _ _ _ _ ‹_› ‹_› hfr

theorem fr_putField (sd : Sys2Proof.Side) (iss : Issuer) (a : ℕ) (word : ℕ) (mask : ℕ) (rwc : Bool) (f : Fld × ℕ × ℕ) (fpi : fp.itu = true) (fpl : fp.lam = true) (fpd : fp.ddr = true) (fpn : fp.nor = true) (hfr : Fr fp s0 s1) : Fr fp s0 (State.putField s1 sd iss a word mask rwc f) := by
  delta State.putField
  repeat' first
    | with_reducible assumption
    | intro _
    | with_reducible apply fr_setReg
    | with_reducible apply fr_putRw
    | with_reducible apply fr_ite
    | split

theorem fr_ituGroup (a : Nat) (f : State → Nat → State) (hf : ituGroup a = some f) (w : Nat) (fpi : fp.itu = true) (fpl : fp.lam = true)
    (hfr : Fr fp s0 s1) : Fr fp s0 (f s1 w) := by
  unfold ituGroup at hf
  repeat' split at hf
  all_goals first | cases hf | skip
  · exact fr_writeCsel _ _ ‹_› hfr
  · exact fr_writeFnEn _ ‹_› ‹_› hfr
  · exact fr_writePdCtl _ ‹_› ‹_› hfr
  · exact fr_writeBlockCfg _ _ ‹_› hfr

theorem fr_putWord (sd : Sys2Proof.Side) (iss : Issuer) (a data mask : Nat) (rwc hold : Bool) (fpi : fp.itu = true) (fpl : fp.lam = true) (fpd : fp.ddr = true) (fpn : fp.nor = true) (hfr : Fr fp s0 s1) :
    Fr fp s0 (s1.putWord sd iss a data mask rwc hold) := by
  unfold State.putWord
  extract_lets now
  split
  · exact hfr
  split
  · exact fr_putPos _ _ ‹_› hfr
  split
  · next f hf =>
    by_cases h : sd = .itu
    · rw [if_pos h] at hf
      exact fr_ituGroup a f hf _ ‹_› ‹_› hfr
    · rw [if_neg h] at hf; cases hf
  split
  · next p i _ =>
    refine fr_ite (fun _ => ?_) (fun _ => fr_putPair _ _ _ _ _ _ ‹_› ‹_› hfr)
    exact fr_mk (fr_dropHold _ _ hfr) (.inl rfl) (.inl rfl)
  · exact fr_putPair _ _ _ _ _ _ ‹_› ‹_› (fr_dropHold _ _ hfr)
  · exact fr_foldl _ hfr fun s1 f h => fr_putField _ _ _ _ _ _ _ ‹_› ‹_› ‹_› ‹_› h

theorem fr_writeWord (sd : Sys2Proof.Side) (iss : Issuer) (a : ℕ) (data : ℕ) (strb : ℕ) (fpi : fp.itu = true) (fpl : fp.lam = true) (fpd : fp.ddr = true) (fpn : fp.nor = true) (hfr : Fr fp s0 s1) : Fr fp s0 (State.writeWord s1 sd iss a data strb) := by
  delta State.writeWord
  repeat' first
    | with_reducible assumption
    | intro _
    | with_reducible apply fr_il
    | with_reducible apply fr_ituPriv
    | with_reducible apply fr_lamPriv
    | with_reducible apply fr_putWord
    | with_reducible apply fr_guard
    | with_reducible apply fr_after
    | with_reducible apply fr_digGuard
    | with_reducible apply fr_ite
    | split

end Sys2Proof.Machine
end

