-- ==== Sys2Proof/Laws/FrStage.lean ====
section
/-! SUPPORT. What each operation of Machine/Stage.lean can change, in the form of Laws/Frame.lean. -/

set_option linter.unusedTactic false
set_option linter.unreachableTactic false

namespace Sys2Proof.Machine

variable {fp : Parts} {s0 s1 : State}

theorem fr_stageMay (sd : Sys2Proof.Side) (auth : Auth) (fleet : Bool) (ws : List (Nat × Nat × Nat)) (fpi : fp.itu = true)
    (fpl : fp.lam = true) (hfr : Fr fp s0 s1) : Fr fp s0 (s1.stageMay sd auth fleet ws).1 := by
  unfold State.stageMay
  refine fr_foldl_fst ws hfr fun x w hx => ?_
  dsimp only
  have hg := fr_guard sd { commitIss sd with auth := auth } w.1 true (x.1.wordAuth sd w.1) fpi fpl hx
  generalize x.1.guard sd { commitIss sd with auth := auth } w.1 true (x.1.wordAuth sd w.1) = g at hg ⊢
  have hp : Fr fp s0 (match sd with
      | .itu => g.1.ituPriv { commitIss sd with auth := auth } w.1 true
      | .lam => g.1.lamPriv auth w.1 true) := by
    cases sd
    · exact fr_ituPriv _ _ _ fpi hg
    · exact fr_lamPriv _ _ _ fpl hg
  exact fr_ite_fst (fun _ => hg) fun _ => fr_ite_fst (fun _ => hp) fun _ => fr_ite (fun _ => hp) fun _ => hg

theorem fr_applyWords (sd : Sys2Proof.Side) (ws : List (ℕ × ℕ × ℕ)) (fpi : fp.itu = true) (fpl : fp.lam = true) (fpd : fp.ddr = true) (fpn : fp.nor = true) (hfr : Fr fp s0 s1) : Fr fp s0 (State.applyWords s1 sd ws) := by
  delta State.applyWords
  repeat' first
    | with_reducible assumption
    | intro _
    | with_reducible apply fr_putWord
    | with_reducible apply fr_foldl

theorem fr_tellItus (fleet : Bool) (fpl : fp.lam = true) (hfr : Fr fp s0 s1) : Fr fp s0 (State.tellItus s1 fleet) := by
  delta State.tellItus
  repeat' first
    | with_reducible assumption
    | intro _
    | with_reducible apply fr_ituWrite
    | with_reducible apply fr_foldl
    | split

theorem fr_clearBrim (fpl : fp.lam = true) (hfr : Fr fp s0 s1) : Fr fp s0 (State.clearBrim s1) := by
  delta State.clearBrim
  repeat' first
    | with_reducible assumption
    | intro _
    | with_reducible apply fr_wl
    | with_reducible apply fr_foldl

theorem fr_commitItu (g : Stg) (fpi : fp.itu = true) (fpl : fp.lam = true) (fpd : fp.ddr = true) (fpn : fp.nor = true) (hfr : Fr fp s0 s1) : Fr fp s0 (State.commitItu s1 g) := by
  delta State.commitItu
  repeat' first
    | with_reducible assumption
    | with_reducible apply fr_applyWords
    | with_reducible apply fr_after
    | with_reducible apply fr_ii

theorem fr_stragClear (cs : List ℕ) (fpl : fp.lam = true) (hfr : Fr fp s0 s1) : Fr fp s0 (State.stragClear s1 cs) := by
  delta State.stragClear
  repeat' first
    | with_reducible assumption
    | intro _
    | with_reducible apply fr_setDet
    | with_reducible apply fr_foldl
    | split

theorem fr_detClear (ds : List ℕ) (fpl : fp.lam = true) (hfr : Fr fp s0 s1) : Fr fp s0 (State.detClear s1 ds) := by
  delta State.detClear
  repeat' first
    | with_reducible assumption
    | intro _
    | with_reducible apply fr_setTrk
    | with_reducible apply fr_foldl
    | split

theorem fr_swapBanks (old : Regs) (entries : List ℕ) (c : ℕ) (fpl : fp.lam = true) (hfr : Fr fp s0 s1) : Fr fp s0 (State.swapBanks s1 old entries c) := by
  delta State.swapBanks
  repeat' first
    | with_reducible assumption
    | with_reducible apply fr_wl
    | (with_reducible refine fr_mk (by with_reducible assumption) ?_ ?_) <;> first | exact .inl rfl | exact .inr ⟨by assumption, rfl⟩ | exact .inr ⟨by assumption, rfl, rfl, rfl, rfl, rfl, rfl⟩

theorem fr_commitLam (g : Stg) (c : ℕ) (fpi : fp.itu = true) (fpl : fp.lam = true) (fpd : fp.ddr = true) (fpn : fp.nor = true) (hfr : Fr fp s0 s1) : Fr fp s0 (State.commitLam s1 g c) := by
  delta State.commitLam
  repeat' first
    | with_reducible assumption
    | intro _
    | with_reducible apply fr_clearBrim
    | with_reducible apply fr_gntCommit
    | with_reducible apply fr_applyWords
    | with_reducible apply fr_il
    | with_reducible apply fr_ldgRefresh
    | with_reducible apply fr_forestCommit
    | with_reducible apply fr_stragClear
    | with_reducible apply fr_detClear
    | with_reducible apply fr_digKeys
    | with_reducible apply fr_swapBanks
    | with_reducible apply fr_tellItus
    | with_reducible apply fr_after
    | with_reducible apply fr_wl
    | with_reducible apply fr_foldl
    | split

end Sys2Proof.Machine
end

