-- ==== Sys2Proof/Laws/FrRegCmd.lean ====
section
/-! SUPPORT. What each operation of Machine/RegCmd.lean can change, in the form of Laws/Frame.lean. -/

set_option linter.unusedTactic false
set_option linter.unreachableTactic false

namespace Sys2Proof.Machine

variable {fp : Parts} {s0 s1 : State}

theorem fr_setCtl (c : Ctl) (fpl : fp.lam = true) (hfr : Fr fp s0 s1) : Fr fp s0 (State.setCtl s1 c) := by
  delta State.setCtl
  repeat' first
    | (with_reducible refine fr_mk (by with_reducible assumption) ?_ ?_) <;> first | exact .inl rfl | exact .inr ⟨by assumption, rfl⟩ | exact .inr ⟨by assumption, rfl, rfl, rfl, rfl, rfl, rfl⟩

theorem fr_reply (sd : Sys2Proof.Side) (h : CmdHdr) (r : CmdRes) (fpi : fp.itu = true) (fpl : fp.lam = true) (hfr : Fr fp s0 s1) : Fr fp s0 (State.reply s1 sd h r) := by
  delta State.reply
  repeat' first
    | with_reducible assumption
    | with_reducible apply fr_lamReply
    | with_reducible apply fr_ituReply
    | split

theorem fr_stageItu (h : CmdHdr) (ws : List (ℕ × ℕ × ℕ)) (fpi : fp.itu = true) (hfr : Fr fp s0 s1) : Fr fp s0 (State.stageItu s1 h ws).1 := by
  delta State.stageItu
  repeat' first
    | intro _
    | with_reducible apply fr_ite_fst
    | (with_reducible refine fr_mk (by with_reducible assumption) ?_ ?_) <;> first | exact .inl rfl | exact .inr ⟨by assumption, rfl⟩ | exact .inr ⟨by assumption, rfl, rfl, rfl, rfl, rfl, rfl⟩
    | split

theorem fr_putStg (g : Stg) (fpl : fp.lam = true) (hfr : Fr fp s0 s1) : Fr fp s0 (State.putStg s1 g) := by
  delta State.putStg
  repeat' first
    | with_reducible assumption
    | with_reducible apply fr_setCtl

theorem fr_stageLam (h : CmdHdr) (ws : List (ℕ × ℕ × ℕ)) (sw : List (ℕ × ℕ)) (fpl : fp.lam = true) (hfr : Fr fp s0 s1) : Fr fp s0 (State.stageLam s1 h ws sw).1 := by
  delta State.stageLam
  repeat' first
    | with_reducible assumption
    | intro _
    | with_reducible apply fr_putStg
    | with_reducible apply fr_ite_fst
    | split

theorem fr_stage (sd : Sys2Proof.Side) (h : CmdHdr) (ws : List (ℕ × ℕ × ℕ)) (sw : List (ℕ × ℕ)) (fpi : fp.itu = true) (fpl : fp.lam = true) (hfr : Fr fp s0 s1) : Fr fp s0 (State.stage s1 sd h ws sw).1 := by
  delta State.stage
  repeat' first
    | with_reducible assumption
    | with_reducible apply fr_stageItu
    | with_reducible apply fr_stageLam
    | split

theorem fr_addWait (sd : Sys2Proof.Side) (w : StgWait) (fpi : fp.itu = true) (fpl : fp.lam = true) (hfr : Fr fp s0 s1) : Fr fp s0 (State.addWait s1 sd w) := by
  delta State.addWait
  repeat' first
    | with_reducible assumption
    | with_reducible apply fr_setCtl
    | (with_reducible refine fr_mk (by with_reducible assumption) ?_ ?_) <;> first | exact .inl rfl | exact .inr ⟨by assumption, rfl⟩ | exact .inr ⟨by assumption, rfl, rfl, rfl, rfl, rfl, rfl⟩
    | split

theorem fr_putTxn (t : Txn) (fpl : fp.lam = true) (hfr : Fr fp s0 s1) : Fr fp s0 (State.putTxn s1 t) := by
  delta State.putTxn
  repeat' first
    | with_reducible assumption
    | with_reducible apply fr_setCtl

theorem fr_touchTxn (txn : ℕ) (fpl : fp.lam = true) (hfr : Fr fp s0 s1) : Fr fp s0 (State.touchTxn s1 txn) := by
  delta State.touchTxn
  repeat' first
    | with_reducible assumption
    | with_reducible apply fr_putTxn
    | split

theorem fr_stageAns (sd : Sys2Proof.Side) (p : Pkt) (since : ℕ) (ws : List (ℕ × ℕ × ℕ)) (sw : List (ℕ × ℕ)) (fpi : fp.itu = true) (fpl : fp.lam = true) (hfr : Fr fp s0 s1) : Fr fp s0 (State.stageAns s1 sd p since ws sw) := by
  delta State.stageAns
  repeat' first
    | with_reducible assumption
    | (intro x; (first | refine fr_cut (fp := fp) (s0 := s0) x ?_ (fun hx => ?_) | refine fr_cut (fp := fp) (s0 := s0) x.1 ?_ (fun hx => ?_) | refine fr_cut (fp := fp) (s0 := s0) x.2 ?_ (fun hx => ?_)); on_goal 1 => dsimp -zeta -zetaHave only [x])
    | lift_lets
    | with_reducible apply fr_reply
    | with_reducible apply fr_stage
    | with_reducible apply fr_addWait
    | with_reducible apply fr_touchTxn
    | split

theorem fr_bankSwap (h : CmdHdr) (obj : ℕ) (slot : ℕ) (since : ℕ) (fpi : fp.itu = true) (fpl : fp.lam = true) (hfr : Fr fp s0 s1) : Fr fp s0 (State.bankSwap s1 h obj slot since) := by
  delta State.bankSwap
  repeat' first
    | with_reducible assumption
    | intro _
    | with_reducible apply fr_stageAns
    | with_reducible apply fr_lamReply
    | with_reducible apply fr_ite

theorem fr_loaderWrite (a : ℕ) (data : ℕ) (mask : ℕ) (fpi : fp.itu = true) (fpl : fp.lam = true) (hfr : Fr fp s0 s1) : Fr fp s0 (State.loaderWrite s1 a data mask) := by
  delta State.loaderWrite
  repeat' first
    | with_reducible assumption
    | (intro x; (first | refine fr_cut (fp := fp) (s0 := s0) x ?_ (fun hx => ?_) | refine fr_cut (fp := fp) (s0 := s0) x.1 ?_ (fun hx => ?_) | refine fr_cut (fp := fp) (s0 := s0) x.2 ?_ (fun hx => ?_)); on_goal 1 => dsimp -zeta -zetaHave only [x])
    | intro _
    | lift_lets
    | with_reducible apply fr_dropHold
    | with_reducible apply fr_setStcMem
    | with_reducible apply fr_ituOffAccess
    | with_reducible apply fr_setStc
    | (with_reducible refine fr_mk (by with_reducible assumption) ?_ ?_) <;> first | exact .inl rfl | exact .inr ⟨by assumption, rfl⟩ | exact .inr ⟨by assumption, rfl, rfl, rfl, rfl, rfl, rfl⟩
    | split

theorem fr_regWriteNow (sd : Sys2Proof.Side) (h : CmdHdr) (ws : List (ℕ × ℕ × ℕ)) (fpi : fp.itu = true) (fpl : fp.lam = true) (fpd : fp.ddr = true) (fpn : fp.nor = true) (hfr : Fr fp s0 s1) : Fr fp s0 (State.regWriteNow s1 sd h ws).1 := by
  delta State.regWriteNow
  repeat' first
    | with_reducible assumption
    | intro _
    | with_reducible apply fr_writeWord
    | with_reducible apply fr_loaderWrite
    | with_reducible apply fr_foldl
    | split

theorem fr_regWrite (sd : Sys2Proof.Side) (h : CmdHdr) (space : ℕ) (addr : ℕ) (count : ℕ) (strb : ℕ) (data : List ℕ) (since : ℕ) (fpi : fp.itu = true) (fpl : fp.lam = true) (fpd : fp.ddr = true) (fpn : fp.nor = true) (hfr : Fr fp s0 s1) : Fr fp s0 (State.regWrite s1 sd h space addr count strb data since) := by
  delta State.regWrite
  repeat' first
    | with_reducible assumption
    | intro _
    | with_reducible apply fr_reply
    | with_reducible apply fr_stageAns
    | with_reducible apply fr_stageMay
    | with_reducible apply fr_regWriteNow
    | with_reducible apply fr_ite

theorem fr_forestUnload (h : CmdHdr) (slot : ℕ) (since : ℕ) (fpi : fp.itu = true) (fpl : fp.lam = true) (hfr : Fr fp s0 s1) : Fr fp s0 (State.forestUnload s1 h slot since) := by
  delta State.forestUnload
  repeat' first
    | with_reducible assumption
    | intro _
    | with_reducible apply fr_stageAns
    | with_reducible apply fr_lamReply
    | with_reducible apply fr_ite

theorem fr_retryWait (sd : Sys2Proof.Side) (w : StgWait) (fpi : fp.itu = true) (fpl : fp.lam = true) (fpd : fp.ddr = true) (fpn : fp.nor = true) (hfr : Fr fp s0 s1) : Fr fp s0 (State.retryWait s1 sd w) := by
  delta State.retryWait
  repeat' first
    | with_reducible assumption
    | intro _
    | lift_lets
    | with_reducible apply fr_bankSwap
    | with_reducible apply fr_regWrite
    | with_reducible apply fr_forestUnload
    | split

theorem fr_retryWaits (sd : Sys2Proof.Side) (fpi : fp.itu = true) (fpl : fp.lam = true) (fpd : fp.ddr = true) (fpn : fp.nor = true) (hfr : Fr fp s0 s1) : Fr fp s0 (State.retryWaits s1 sd) := by
  delta State.retryWaits
  repeat' first
    | with_reducible assumption
    | intro _
    | with_reducible apply fr_retryWait
    | with_reducible apply fr_setCtl
    | with_reducible apply fr_foldl
    | (with_reducible refine fr_mk (by with_reducible assumption) ?_ ?_) <;> first | exact .inl rfl | exact .inr ⟨by assumption, rfl⟩ | exact .inr ⟨by assumption, rfl, rfl, rfl, rfl, rfl, rfl⟩
    | split

theorem fr_readWords (sd : Sys2Proof.Side) (iss : Issuer) (a : ℕ) (y4 : ℕ) (fpi : fp.itu = true) (fpl : fp.lam = true) (hfr : Fr fp s0 s1) : Fr fp s0 (State.readWords s1 sd iss a y4).2 := by
  induction y4 generalizing s1 a with
  | zero => exact hfr
  | succ n ih =>
    rw [State.readWords]
    repeat' first
      | with_reducible assumption
      | with_reducible apply ih
      | with_reducible apply fr_readWord

theorem fr_opRegRead (sd : Sys2Proof.Side) (h : CmdHdr) (space : ℕ) (addr : ℕ) (count : ℕ) (fpi : fp.itu = true) (fpl : fp.lam = true) (hfr : Fr fp s0 s1) : Fr fp s0 (State.opRegRead s1 sd h space addr count).1 := by
  delta State.opRegRead
  repeat' first
    | with_reducible assumption
    | intro _
    | with_reducible apply fr_readWords
    | split

theorem fr_execRegRead (sd : Sys2Proof.Side) (h : CmdHdr) (space : ℕ) (addr : ℕ) (count : ℕ) (fpi : fp.itu = true) (fpl : fp.lam = true) (hfr : Fr fp s0 s1) : FrO fp s0 (execRegRead sd h space addr count s1) := by
  delta execRegRead
  repeat' first
    | with_reducible assumption
    | intro _
    | with_reducible apply FrO.next
    | with_reducible apply fr_opRegRead
    | with_reducible apply fr_reply
    | split

theorem fr_execForestUnload (h : CmdHdr) (slot : ℕ) (fpi : fp.itu = true) (fpl : fp.lam = true) (hfr : Fr fp s0 s1) : FrO fp s0 (execForestUnload h slot s1) := by
  delta execForestUnload
  repeat' first
    | with_reducible assumption
    | with_reducible apply FrO.next
    | with_reducible apply fr_forestUnload

theorem fr_execNop (sd : Sys2Proof.Side) (h : CmdHdr) (fpi : fp.itu = true) (fpl : fp.lam = true) (hfr : Fr fp s0 s1) : FrO fp s0 (execNop sd h s1) := by
  delta execNop
  repeat' first
    | with_reducible assumption
    | with_reducible apply FrO.next
    | with_reducible apply fr_reply

theorem fr_execBankSwap (h : CmdHdr) (obj : ℕ) (slot : ℕ) (fpi : fp.itu = true) (fpl : fp.lam = true) (hfr : Fr fp s0 s1) : FrO fp s0 (execBankSwap h obj slot s1) := by
  delta execBankSwap
  repeat' first
    | with_reducible assumption
    | with_reducible apply FrO.next
    | with_reducible apply fr_bankSwap

theorem fr_opAdmitSet (c : ℕ) (rate : ℕ) (burst : ℕ) (fpi : fp.itu = true) (hfr : Fr fp s0 s1) : Fr fp s0 (State.opAdmitSet s1 c rate burst).1 := by
  delta State.opAdmitSet
  repeat' first
    | intro _
    | (with_reducible refine fr_mk (by with_reducible assumption) ?_ ?_) <;> first | exact .inl rfl | exact .inr ⟨by assumption, rfl⟩ | exact .inr ⟨by assumption, rfl, rfl, rfl, rfl, rfl, rfl⟩
    | split

theorem fr_execAdmitSet (h : CmdHdr) (c : ℕ) (rate : ℕ) (burst : ℕ) (fpi : fp.itu = true) (hfr : Fr fp s0 s1) : FrO fp s0 (execAdmitSet h c rate burst s1) := by
  delta execAdmitSet
  repeat' first
    | with_reducible assumption
    | intro _
    | with_reducible apply FrO.next
    | with_reducible apply fr_opAdmitSet
    | with_reducible apply fr_cmdItu

theorem fr_opAdmitGet (c : ℕ) (hfr : Fr fp s0 s1) : Fr fp s0 (State.opAdmitGet s1 c).1 := by
  delta State.opAdmitGet
  repeat' first
    | intro _
    | (with_reducible refine fr_mk (by with_reducible assumption) ?_ ?_) <;> first | exact .inl rfl | exact .inr ⟨by assumption, rfl⟩ | exact .inr ⟨by assumption, rfl, rfl, rfl, rfl, rfl, rfl⟩
    | split

theorem fr_execAdmitGet (h : CmdHdr) (c : ℕ) (fpi : fp.itu = true) (hfr : Fr fp s0 s1) : FrO fp s0 (execAdmitGet h c s1) := by
  delta execAdmitGet
  repeat' first
    | with_reducible assumption
    | intro _
    | with_reducible apply FrO.next
    | with_reducible apply fr_cmdItu
    | with_reducible apply fr_opAdmitGet

end Sys2Proof.Machine
end

