-- ==== Sys2Proof/Laws/FrTxn.lean ====
section
/-! SUPPORT. What each operation of Machine/Txn.lean can change, in the form of Laws/Frame.lean. -/

set_option linter.unusedTactic false
set_option linter.unreachableTactic false

namespace Sys2Proof.Machine

variable {fp : Parts} {s0 s1 : State}

theorem fr_dropStg (txn : ℕ) (fpl : fp.lam = true) (hfr : Fr fp s0 s1) : Fr fp s0 (State.dropStg s1 txn) := by
  delta State.dropStg
  repeat' first
    | with_reducible assumption
    | with_reducible apply fr_setCtl

theorem fr_keepDecision (txn : ℕ) (commit : Bool) (fpl : fp.lam = true) (hfr : Fr fp s0 s1) : Fr fp s0 (State.keepDecision s1 txn commit) := by
  delta State.keepDecision
  repeat' first
    | with_reducible assumption
    | with_reducible apply fr_setCtl

theorem fr_txnDies (qs : List ℕ) (op : ℕ) (txn : ℕ) (params : List ℕ) (fpl : fp.lam = true) (hfr : Fr fp s0 s1) : Fr fp s0 (State.txnDies s1 qs op txn params) := by
  delta State.txnDies
  repeat' first
    | with_reducible assumption
    | intro _
    | with_reducible apply fr_ownPkt
    | with_reducible apply fr_toItu
    | with_reducible apply fr_foldl

theorem fr_tellDies (txn : ℕ) (commit : Bool) (fpl : fp.lam = true) (hfr : Fr fp s0 s1) : Fr fp s0 (State.tellDies s1 txn commit) := by
  delta State.tellDies
  repeat' first
    | with_reducible assumption
    | with_reducible apply fr_keepDecision
    | with_reducible apply fr_txnDies
    | with_reducible apply fr_setCtl

theorem fr_outcomeLam (txn : ℕ) (o : ℕ) (fpl : fp.lam = true) (hfr : Fr fp s0 s1) : Fr fp s0 (State.outcomeLam s1 txn o) := by
  delta State.outcomeLam
  repeat' first
    | with_reducible assumption
    | with_reducible apply fr_lamEmit

theorem fr_endDoubt (g : Stg) (commit : Bool) (epoch : Option ℕ) (fpi : fp.itu = true) (fpl : fp.lam = true) (fpd : fp.ddr = true) (fpn : fp.nor = true) (hfr : Fr fp s0 s1) : Fr fp s0 (State.endDoubt s1 g commit epoch) := by
  delta State.endDoubt
  repeat' first
    | with_reducible assumption
    | intro _
    | with_reducible apply fr_dropStg
    | with_reducible apply fr_il
    | with_reducible apply fr_retryWaits
    | with_reducible apply fr_tellDies
    | with_reducible apply fr_outcomeLam
    | with_reducible apply fr_putStg
    | split

theorem fr_decideLam (txn : ℕ) (commit : Bool) (fpi : fp.itu = true) (fpl : fp.lam = true) (fpd : fp.ddr = true) (fpn : fp.nor = true) (hfr : Fr fp s0 s1) : Fr fp s0 (State.decideLam s1 txn commit) := by
  delta State.decideLam
  repeat' first
    | with_reducible assumption
    | intro _
    | with_reducible apply fr_dropStg
    | with_reducible apply fr_il
    | with_reducible apply fr_retryWaits
    | with_reducible apply fr_tellDies
    | with_reducible apply fr_endDoubt
    | with_reducible apply fr_putStg
    | split

theorem fr_txnAll (op : ℕ) (txn : ℕ) (params : List ℕ) (fpl : fp.lam = true) (hfr : Fr fp s0 s1) : Fr fp s0 (State.txnAll s1 op txn params) := by
  delta State.txnAll
  repeat' first
    | with_reducible assumption
    | with_reducible apply fr_ownPkt
    | with_reducible apply fr_send

theorem fr_decideTxn (t : Txn) (commit : Bool) (v : Votes) (fpi : fp.itu = true) (fpl : fp.lam = true) (fpd : fp.ddr = true) (fpn : fp.nor = true) (hfr : Fr fp s0 s1) : Fr fp s0 (State.decideTxn s1 t commit v) := by
  delta State.decideTxn
  repeat' first
    | with_reducible assumption
    | intro _
    | with_reducible apply fr_il
    | with_reducible apply fr_decideLam
    | with_reducible apply fr_txnAll
    | with_reducible apply fr_setCtl
    | with_reducible apply fr_lamReply
    | with_reducible apply fr_replyRoute
    | split

theorem fr_rollback (t : Txn) (fpi : fp.itu = true) (fpl : fp.lam = true) (fpd : fp.ddr = true) (fpn : fp.nor = true) (hfr : Fr fp s0 s1) : Fr fp s0 (State.rollback s1 t) := by
  delta State.rollback
  repeat' first
    | with_reducible assumption
    | with_reducible apply fr_decideTxn

theorem fr_lockWaiters (i : ℕ) (fpl : fp.lam = true) (hfr : Fr fp s0 s1) : Fr fp s0 (State.lockWaiters s1 i) := by
  delta State.lockWaiters
  repeat' first
    | with_reducible assumption
    | with_reducible apply fr_wl

theorem fr_putVotes (v : Votes) (fpi : fp.itu = true) (fpl : fp.lam = true) (fpd : fp.ddr = true) (fpn : fp.nor = true) (hfr : Fr fp s0 s1) : Fr fp s0 (State.putVotes s1 v) := by
  delta State.putVotes
  repeat' first
    | with_reducible assumption
    | intro _
    | with_reducible apply fr_setCtl
    | with_reducible apply fr_decideTxn
    | with_reducible apply fr_lamEmit
    | split

theorem fr_voteRx (w : Bool × ℕ) (body : List ℕ) (fpi : fp.itu = true) (fpl : fp.lam = true) (fpd : fp.ddr = true) (fpn : fp.nor = true) (hfr : Fr fp s0 s1) : Fr fp s0 (State.voteRx s1 w body) := by
  delta State.voteRx
  repeat' first
    | with_reducible assumption
    | intro _
    | lift_lets
    | with_reducible apply fr_rollback
    | with_reducible apply fr_lamEmit
    | with_reducible apply fr_putVotes
    | split

theorem fr_ituDoubt (q : ℕ) (txn : ℕ) (fpl : fp.lam = true) (hfr : Fr fp s0 s1) : Fr fp s0 (State.ituDoubt s1 q txn) := by
  delta State.ituDoubt
  repeat' first
    | with_reducible assumption
    | with_reducible apply fr_txnDies
    | with_reducible apply fr_ituWrite
    | split

theorem fr_statusRx (txn : ℕ) (ans : ℕ) (epoch : ℕ) (fpi : fp.itu = true) (fpl : fp.lam = true) (fpd : fp.ddr = true) (fpn : fp.nor = true) (hfr : Fr fp s0 s1) : Fr fp s0 (State.statusRx s1 txn ans epoch) := by
  delta State.statusRx
  repeat' first
    | with_reducible assumption
    | intro _
    | with_reducible apply fr_epochAsk
    | with_reducible apply fr_endDoubt
    | split

theorem fr_setIStg (g : IStg) (fpi : fp.itu = true) (hfr : Fr fp s0 s1) : Fr fp s0 (State.setIStg s1 g) := by
  delta State.setIStg
  repeat' first
    | (with_reducible refine fr_mk (by with_reducible assumption) ?_ ?_) <;> first | exact .inl rfl | exact .inr ⟨by assumption, rfl⟩ | exact .inr ⟨by assumption, rfl, rfl, rfl, rfl, rfl, rfl⟩

theorem fr_ituSay (typ : ℕ) (body : List ℕ) (fpi : fp.itu = true) (hfr : Fr fp s0 s1) : Fr fp s0 (State.ituSay s1 typ body) := by
  delta State.ituSay
  repeat' first
    | with_reducible assumption
    | with_reducible apply fr_ituOffer

theorem fr_prepareItu (txn : ℕ) (c : ℕ) (mc : ℕ) (fpi : fp.itu = true) (hfr : Fr fp s0 s1) : Fr fp s0 (State.prepareItu s1 txn c mc) := by
  delta State.prepareItu
  repeat' first
    | with_reducible assumption
    | (intro x; (first | refine fr_cut (fp := fp) (s0 := s0) x ?_ (fun hx => ?_) | refine fr_cut (fp := fp) (s0 := s0) x.1 ?_ (fun hx => ?_) | refine fr_cut (fp := fp) (s0 := s0) x.2 ?_ (fun hx => ?_)); on_goal 1 => dsimp -zeta -zetaHave only [x])
    | intro _
    | with_reducible apply fr_setIStg
    | with_reducible apply fr_ituSay
    | split

theorem fr_prepare (txn : ℕ) (c : ℕ) (mc : ℕ) (fpi : fp.itu = true) (fpl : fp.lam = true) (fpd : fp.ddr = true) (fpn : fp.nor = true) (hfr : Fr fp s0 s1) : Fr fp s0 (State.prepare s1 txn c mc) := by
  delta State.prepare
  repeat' first
    | with_reducible assumption
    | intro _
    | with_reducible apply fr_txnDies
    | with_reducible apply fr_putVotes
    | with_reducible apply fr_putStg
    | split

theorem fr_execTxnPrepare (sd : Sys2Proof.Side) (h : CmdHdr) (c : ℕ) (mc : ℕ) (fpi : fp.itu = true) (fpl : fp.lam = true) (fpd : fp.ddr = true) (fpn : fp.nor = true) (hfr : Fr fp s0 s1) : FrO fp s0 (execTxnPrepare sd h c mc s1) := by
  delta execTxnPrepare
  repeat' first
    | with_reducible assumption
    | (intro x; (first | refine fr_cut (fp := fp) (s0 := s0) x ?_ (fun hx => ?_) | refine fr_cut (fp := fp) (s0 := s0) x.1 ?_ (fun hx => ?_) | refine fr_cut (fp := fp) (s0 := s0) x.2 ?_ (fun hx => ?_)); on_goal 1 => dsimp -zeta -zetaHave only [x])
    | with_reducible apply FrO.next
    | with_reducible apply fr_reply
    | with_reducible apply fr_prepareItu
    | with_reducible apply fr_prepare
    | split

theorem fr_outcomeItu (txn : ℕ) (o : ℕ) (fpi : fp.itu = true) (hfr : Fr fp s0 s1) : Fr fp s0 (State.outcomeItu s1 txn o) := by
  delta State.outcomeItu
  repeat' first
    | with_reducible assumption
    | with_reducible apply fr_ituSay

theorem fr_decideItu (txn : ℕ) (commit : Bool) (fpi : fp.itu = true) (fpl : fp.lam = true) (fpd : fp.ddr = true) (fpn : fp.nor = true) (hfr : Fr fp s0 s1) : Fr fp s0 (State.decideItu s1 txn commit) := by
  delta State.decideItu
  repeat' first
    | with_reducible assumption
    | intro _
    | lift_lets
    | with_reducible apply fr_setIStg
    | with_reducible apply fr_retryWaits
    | with_reducible apply fr_outcomeItu
    | with_reducible apply fr_ii
    | split

theorem fr_execTxnDecide (sd : Sys2Proof.Side) (h : CmdHdr) (commit : Bool) (fpi : fp.itu = true) (fpl : fp.lam = true) (fpd : fp.ddr = true) (fpn : fp.nor = true) (hfr : Fr fp s0 s1) : FrO fp s0 (execTxnDecide sd h commit s1) := by
  delta execTxnDecide
  repeat' first
    | with_reducible assumption
    | (intro x; (first | refine fr_cut (fp := fp) (s0 := s0) x ?_ (fun hx => ?_) | refine fr_cut (fp := fp) (s0 := s0) x.1 ?_ (fun hx => ?_) | refine fr_cut (fp := fp) (s0 := s0) x.2 ?_ (fun hx => ?_)); on_goal 1 => dsimp -zeta -zetaHave only [x])
    | with_reducible apply FrO.next
    | with_reducible apply fr_decideItu
    | with_reducible apply fr_reply
    | with_reducible apply fr_decideLam
    | split

theorem fr_execTxnStatus (h : CmdHdr) (fpl : fp.lam = true) (hfr : Fr fp s0 s1) : FrO fp s0 (execTxnStatus h s1) := by
  delta execTxnStatus
  repeat' first
    | with_reducible assumption
    | intro _
    | with_reducible apply FrO.next
    | with_reducible apply fr_cmdLam

theorem fr_denied (h : CmdHdr) (fpl : fp.lam = true) (hfr : Fr fp s0 s1) : Fr fp s0 (State.denied s1 h) := by
  delta State.denied
  repeat' first
    | with_reducible assumption
    | with_reducible apply fr_lamPriv

theorem fr_txnAbort (h : CmdHdr) (fpi : fp.itu = true) (fpl : fp.lam = true) (fpd : fp.ddr = true) (fpn : fp.nor = true) (hfr : Fr fp s0 s1) : Fr fp s0 (State.txnAbort s1 h).1 := by
  delta State.txnAbort
  repeat' first
    | with_reducible assumption
    | intro _
    | with_reducible apply fr_rollback
    | with_reducible apply fr_denied
    | split

theorem fr_execTxnAbort (h : CmdHdr) (fpi : fp.itu = true) (fpl : fp.lam = true) (fpd : fp.ddr = true) (fpn : fp.nor = true) (hfr : Fr fp s0 s1) : FrO fp s0 (execTxnAbort h s1) := by
  delta execTxnAbort
  repeat' first
    | with_reducible assumption
    | intro _
    | with_reducible apply FrO.next
    | with_reducible apply fr_txnAbort
    | with_reducible apply fr_cmdLam

theorem fr_txnCommit (h : CmdHdr) (fpi : fp.itu = true) (fpl : fp.lam = true) (fpd : fp.ddr = true) (fpn : fp.nor = true) (hfr : Fr fp s0 s1) : Fr fp s0 (State.txnCommit s1 h) := by
  delta State.txnCommit
  repeat' first
    | with_reducible assumption
    | intro _
    | with_reducible apply fr_txnAll
    | with_reducible apply fr_lamReply
    | with_reducible apply fr_putTxn
    | with_reducible apply fr_prepare
    | with_reducible apply fr_denied
    | with_reducible apply fr_ite
    | split

theorem fr_execTxnCommit (h : CmdHdr) (fpi : fp.itu = true) (fpl : fp.lam = true) (fpd : fp.ddr = true) (fpn : fp.nor = true) (hfr : Fr fp s0 s1) : FrO fp s0 (execTxnCommit h s1) := by
  delta execTxnCommit
  repeat' first
    | with_reducible assumption
    | with_reducible apply FrO.next
    | with_reducible apply fr_txnCommit

theorem fr_txnBegin (h : CmdHdr) (fleet : Bool) (fpl : fp.lam = true) (hfr : Fr fp s0 s1) : Fr fp s0 (State.txnBegin s1 h fleet).1 := by
  delta State.txnBegin
  repeat' first
    | with_reducible assumption
    | intro _
    | with_reducible apply fr_setCtl
    | with_reducible apply fr_ite_fst

theorem fr_execTxnBegin (h : CmdHdr) (fleet : Bool) (fpl : fp.lam = true) (hfr : Fr fp s0 s1) : FrO fp s0 (execTxnBegin h fleet s1) := by
  delta execTxnBegin
  repeat' first
    | with_reducible assumption
    | intro _
    | with_reducible apply FrO.next
    | with_reducible apply fr_txnBegin
    | with_reducible apply fr_cmdLam

theorem fr_statusPoll (fpl : fp.lam = true) (hfr : Fr fp s0 s1) : Fr fp s0 (State.statusPoll s1) := by
  delta State.statusPoll
  repeat' first
    | with_reducible assumption
    | intro _
    | with_reducible apply fr_ownPkt
    | with_reducible apply fr_send
    | with_reducible apply fr_foldl

theorem fr_reachC (g : Stg) (fpi : fp.itu = true) (fpl : fp.lam = true) (fpd : fp.ddr = true) (fpn : fp.nor = true) (hfr : Fr fp s0 s1) : Fr fp s0 (State.reachC s1 g) := by
  delta State.reachC
  repeat' first
    | with_reducible assumption
    | intro _
    | with_reducible apply fr_dropStg
    | with_reducible apply fr_il
    | with_reducible apply fr_epochAsk
    | with_reducible apply fr_outcomeLam
    | with_reducible apply fr_commitLam
    | with_reducible apply fr_putStg
    | split

theorem fr_reachCItu (g : Stg) (fpi : fp.itu = true) (fpl : fp.lam = true) (fpd : fp.ddr = true) (fpn : fp.nor = true) (hfr : Fr fp s0 s1) : Fr fp s0 (State.reachCItu s1 g) := by
  delta State.reachCItu
  repeat' first
    | with_reducible assumption
    | intro _
    | with_reducible apply fr_setIStg
    | with_reducible apply fr_retryWaits
    | with_reducible apply fr_commitItu
    | with_reducible apply fr_outcomeItu
    | with_reducible apply fr_ii
    | split

theorem fr_votesLate (v : Votes) (fpi : fp.itu = true) (fpl : fp.lam = true) (fpd : fp.ddr = true) (fpn : fp.nor = true) (hfr : Fr fp s0 s1) : Fr fp s0 (State.votesLate s1 v) := by
  delta State.votesLate
  repeat' first
    | with_reducible assumption
    | with_reducible apply fr_putVotes

theorem fr_wdogAbort (y : ℕ) (begun : ℕ) (fpi : fp.itu = true) (fpl : fp.lam = true) (fpd : fp.ddr = true) (fpn : fp.nor = true) (hfr : Fr fp s0 s1) : Fr fp s0 (State.wdogAbort s1 y begun) := by
  delta State.wdogAbort
  repeat' first
    | with_reducible assumption
    | intro _
    | with_reducible apply fr_rollback
    | with_reducible apply fr_lamEmit
    | with_reducible apply fr_putStg
    | with_reducible apply fr_ite
    | split

theorem fr_wdogCount (fpl : fp.lam = true) (hfr : Fr fp s0 s1) : Fr fp s0 (State.wdogCount s1) := by
  delta State.wdogCount
  repeat' first
    | with_reducible assumption
    | with_reducible apply fr_il
    | with_reducible apply fr_wl

theorem fr_wdogItu (w : StgWait) (fpi : fp.itu = true) (hfr : Fr fp s0 s1) : Fr fp s0 (State.wdogItu s1 w) := by
  delta State.wdogItu
  repeat' first
    | with_reducible assumption
    | (intro x; (first | refine fr_cut (fp := fp) (s0 := s0) x ?_ (fun hx => ?_) | refine fr_cut (fp := fp) (s0 := s0) x.1 ?_ (fun hx => ?_) | refine fr_cut (fp := fp) (s0 := s0) x.2 ?_ (fun hx => ?_)); on_goal 1 => dsimp -zeta -zetaHave only [x])
    | intro _
    | lift_lets
    | with_reducible apply fr_setIStg
    | with_reducible apply fr_ituSay
    | with_reducible apply fr_ituReply
    | split

theorem fr_wdogLock (w : LockWait) (fpi : fp.itu = true) (fpl : fp.lam = true) (fpd : fp.ddr = true) (fpn : fp.nor = true) (hfr : Fr fp s0 s1) : Fr fp s0 (State.wdogLock s1 w) := by
  delta State.wdogLock
  repeat' first
    | with_reducible assumption
    | intro _
    | lift_lets
    | with_reducible apply fr_setCtl
    | with_reducible apply fr_wdogCount
    | with_reducible apply fr_lamReply
    | with_reducible apply fr_lockWaiters
    | with_reducible apply fr_wdogAbort
    | split

theorem fr_wdogStage (w : StgWait) (fpi : fp.itu = true) (fpl : fp.lam = true) (fpd : fp.ddr = true) (fpn : fp.nor = true) (hfr : Fr fp s0 s1) : Fr fp s0 (State.wdogStage s1 w) := by
  delta State.wdogStage
  repeat' first
    | with_reducible assumption
    | intro _
    | lift_lets
    | with_reducible apply fr_retryWaits
    | with_reducible apply fr_wdogCount
    | with_reducible apply fr_wdogAbort
    | split

theorem fr_execCommitInstant (sd : Sys2Proof.Side) (fpi : fp.itu = true) (fpl : fp.lam = true) (fpd : fp.ddr = true) (fpn : fp.nor = true) (hfr : Fr fp s0 s1) : FrO fp s0 (execCommitInstant sd s1) := by
  delta execCommitInstant
  repeat' first
    | with_reducible assumption
    | intro _
    | with_reducible apply FrO.next
    | with_reducible apply fr_retryWaits
    | with_reducible apply fr_reachCItu
    | with_reducible apply fr_reachC
    | with_reducible apply fr_foldl
    | split

theorem fr_execTxnVoteRx (fromDie : Bool) (p : ℕ) (body : List ℕ) (fpi : fp.itu = true) (fpl : fp.lam = true) (fpd : fp.ddr = true) (fpn : fp.nor = true) (hfr : Fr fp s0 s1) : FrO fp s0 (execTxnVoteRx fromDie p body s1) := by
  delta execTxnVoteRx
  repeat' first
    | with_reducible assumption
    | with_reducible apply FrO.next
    | with_reducible apply fr_voteRx

theorem fr_execVoteDeadline (txn : ℕ) (fpi : fp.itu = true) (fpl : fp.lam = true) (fpd : fp.ddr = true) (fpn : fp.nor = true) (hfr : Fr fp s0 s1) : FrO fp s0 (execVoteDeadline txn s1) := by
  delta execVoteDeadline
  repeat' first
    | with_reducible assumption
    | intro _
    | with_reducible apply FrO.next
    | with_reducible apply fr_votesLate
    | split

theorem fr_execDecideDeadline (txn : ℕ) (fpi : fp.itu = true) (fpl : fp.lam = true) (fpd : fp.ddr = true) (fpn : fp.nor = true) (hfr : Fr fp s0 s1) : FrO fp s0 (execDecideDeadline txn s1) := by
  delta execDecideDeadline
  repeat' first
    | with_reducible assumption
    | intro _
    | with_reducible apply FrO.next
    | with_reducible apply fr_votesLate
    | split

theorem fr_execWatchdogExpiry (sd : Sys2Proof.Side) (fpi : fp.itu = true) (fpl : fp.lam = true) (fpd : fp.ddr = true) (fpn : fp.nor = true) (hfr : Fr fp s0 s1) : FrO fp s0 (execWatchdogExpiry sd s1) := by
  delta execWatchdogExpiry
  repeat' first
    | with_reducible assumption
    | intro _
    | lift_lets
    | with_reducible apply FrO.next
    | with_reducible apply fr_wdogStage
    | with_reducible apply fr_wdogLock
    | with_reducible apply fr_wdogItu
    | split

theorem fr_execTxnIdleTimeout (txn : ℕ) (fpi : fp.itu = true) (fpl : fp.lam = true) (fpd : fp.ddr = true) (fpn : fp.nor = true) (hfr : Fr fp s0 s1) : FrO fp s0 (execTxnIdleTimeout txn s1) := by
  delta execTxnIdleTimeout
  repeat' first
    | with_reducible assumption
    | intro _
    | with_reducible apply FrO.next
    | with_reducible apply fr_rollback
    | split

end Sys2Proof.Machine
end

