-- ==== Sys2Proof/Laws/FrLocks.lean ====
section
/-! SUPPORT. What each operation of Machine/Locks.lean can change, in the form of Laws/Frame.lean. -/

set_option linter.unusedTactic false
set_option linter.unreachableTactic false

namespace Sys2Proof.Machine

variable {fp : Parts} {s0 s1 : State}

theorem fr_setLockWaits (l : List LockWait) (i : ℕ) (fpl : fp.lam = true) (hfr : Fr fp s0 s1) : Fr fp s0 (State.setLockWaits s1 l i) := by
  delta State.setLockWaits
  repeat' first
    | with_reducible assumption
    | with_reducible apply fr_setCtl
    | with_reducible apply fr_lockWaiters

theorem fr_lockGrant (i : ℕ) (o : Owner) (fpl : fp.lam = true) (hfr : Fr fp s0 s1) : Fr fp s0 (State.lockGrant s1 i o).1 := by
  delta State.lockGrant
  repeat' first
    | with_reducible assumption
    | with_reducible apply fr_wl

theorem fr_lockFree (i : ℕ) (abandoned : Bool) (fpl : fp.lam = true) (hfr : Fr fp s0 s1) : Fr fp s0 (State.lockFree s1 i abandoned) := by
  delta State.lockFree
  repeat' first
    | with_reducible assumption
    | intro _
    | lift_lets
    | with_reducible apply fr_il
    | with_reducible apply fr_lamReply
    | with_reducible apply fr_setLockWaits
    | with_reducible apply fr_lockGrant
    | with_reducible apply fr_wl
    | with_reducible apply fr_ite
    | split

theorem fr_abandon (isNode : Bool) (id : ℕ) (part : ℕ) (gen : ℕ) (fpi : fp.itu = true) (fpl : fp.lam = true) (fpd : fp.ddr = true) (fpn : fp.nor = true) (hfr : Fr fp s0 s1) : Fr fp s0 (State.abandon s1 isNode id part gen) := by
  delta State.abandon
  repeat' first
    | with_reducible assumption
    | intro _
    | with_reducible apply fr_rollback
    | with_reducible apply fr_lockFree
    | with_reducible apply fr_foldl
    | split

theorem fr_sendGen (isNode : Bool) (id : ℕ) (part : ℕ) (gen : ℕ) (fpl : fp.lam = true) (hfr : Fr fp s0 s1) : Fr fp s0 (State.sendGen s1 isNode id part gen) := by
  delta State.sendGen
  repeat' first
    | with_reducible assumption
    | with_reducible apply fr_ownPkt
    | with_reducible apply fr_send

theorem fr_learnGen (isNode : Bool) (id : ℕ) (part : ℕ) (gen : ℕ) (fpl : fp.lam = true) (hfr : Fr fp s0 s1) : Fr fp s0 (State.learnGen s1 isNode id part gen) := by
  delta State.learnGen
  repeat' first
    | with_reducible assumption
    | with_reducible apply fr_setCtl

theorem fr_partGenPass (die : ℕ) (part : ℕ) (gen : ℕ) (fpi : fp.itu = true) (fpl : fp.lam = true) (fpd : fp.ddr = true) (fpn : fp.nor = true) (hfr : Fr fp s0 s1) : Fr fp s0 (State.partGenPass s1 die part gen) := by
  delta State.partGenPass
  repeat' first
    | with_reducible assumption
    | intro _
    | with_reducible apply fr_sendGen
    | with_reducible apply fr_abandon
    | with_reducible apply fr_learnGen
    | split

theorem fr_lockRelease (h : CmdHdr) (i : ℕ) (force : Bool) (fpl : fp.lam = true) (hfr : Fr fp s0 s1) : Fr fp s0 (State.lockRelease s1 h i force).1 := by
  delta State.lockRelease
  repeat' first
    | with_reducible assumption
    | intro _
    | with_reducible apply fr_lockFree
    | with_reducible apply fr_denied
    | split

theorem fr_execLockRelease (h : CmdHdr) (idx : ℕ) (force : Bool) (fpl : fp.lam = true) (hfr : Fr fp s0 s1) : FrO fp s0 (execLockRelease h idx force s1) := by
  delta execLockRelease
  repeat' first
    | with_reducible assumption
    | intro _
    | with_reducible apply FrO.next
    | with_reducible apply fr_lockRelease
    | with_reducible apply fr_cmdLam

theorem fr_lockQuery (i : ℕ) (hfr : Fr fp s0 s1) : Fr fp s0 (State.lockQuery s1 i).1 := by
  delta State.lockQuery
  repeat' first
    | intro _
    | (with_reducible refine fr_mk (by with_reducible assumption) ?_ ?_) <;> first | exact .inl rfl | exact .inr ⟨by assumption, rfl⟩ | exact .inr ⟨by assumption, rfl, rfl, rfl, rfl, rfl, rfl⟩
    | split

theorem fr_execLockQuery (h : CmdHdr) (idx : ℕ) (fpl : fp.lam = true) (hfr : Fr fp s0 s1) : FrO fp s0 (execLockQuery h idx s1) := by
  delta execLockQuery
  repeat' first
    | with_reducible assumption
    | intro _
    | with_reducible apply FrO.next
    | with_reducible apply fr_lockQuery
    | with_reducible apply fr_cmdLam

theorem fr_genNotice (isNode : Bool) (id : ℕ) (part : ℕ) (gen : ℕ) (fpi : fp.itu = true) (fpl : fp.lam = true) (fpd : fp.ddr = true) (fpn : fp.nor = true) (hfr : Fr fp s0 s1) : Fr fp s0 (State.genNotice s1 isNode id part gen) := by
  delta State.genNotice
  repeat' first
    | with_reducible assumption
    | with_reducible apply fr_abandon
    | with_reducible apply fr_learnGen

theorem fr_execGenNotice (h : CmdHdr) (isNode : Bool) (id : ℕ) (part : ℕ) (gen : ℕ) (fpi : fp.itu = true) (fpl : fp.lam = true) (fpd : fp.ddr = true) (fpn : fp.nor = true) (hfr : Fr fp s0 s1) : FrO fp s0 (execGenNotice h isNode id part gen s1) := by
  delta execGenNotice
  repeat' first
    | with_reducible assumption
    | intro _
    | with_reducible apply FrO.next
    | with_reducible apply fr_genNotice
    | with_reducible apply fr_cmdLam

theorem fr_lockAcquire (h : CmdHdr) (i : ℕ) (waitMs : ℕ) (fpl : fp.lam = true) (hfr : Fr fp s0 s1) : Fr fp s0 (State.lockAcquire s1 h i waitMs) := by
  delta State.lockAcquire
  repeat' first
    | with_reducible assumption
    | intro _
    | with_reducible apply fr_il
    | with_reducible apply fr_lamReply
    | with_reducible apply fr_setLockWaits
    | with_reducible apply fr_lockGrant
    | with_reducible apply fr_ite

theorem fr_execLockAcquire (h : CmdHdr) (idx : ℕ) (waitMs : ℕ) (fpl : fp.lam = true) (hfr : Fr fp s0 s1) : FrO fp s0 (execLockAcquire h idx waitMs s1) := by
  delta execLockAcquire
  repeat' first
    | with_reducible assumption
    | with_reducible apply FrO.next
    | with_reducible apply fr_lockAcquire

theorem fr_execLockWaitTimeout (idx : ℕ) (fpl : fp.lam = true) (hfr : Fr fp s0 s1) : FrO fp s0 (execLockWaitTimeout idx s1) := by
  delta execLockWaitTimeout
  repeat' first
    | with_reducible assumption
    | with_reducible apply FrO.next
    | with_reducible apply fr_lamReply
    | with_reducible apply fr_setLockWaits
    | split

end Sys2Proof.Machine
end

