-- ==== Sys2Proof/Laws/FrReply.lean ====
section
/-! SUPPORT. What each operation of Machine/Reply.lean can change, in the form of Laws/Frame.lean. -/

set_option linter.unusedTactic false
set_option linter.unreachableTactic false

namespace Sys2Proof.Machine

variable {fp : Parts} {s0 s1 : State}

theorem fr_replyRx (w : Bool × ℕ) (body : List ℕ) (fpi : fp.itu = true) (fpl : fp.lam = true) (fpd : fp.ddr = true) (fpn : fp.nor = true) (hfr : Fr fp s0 s1) : Fr fp s0 (State.replyRx s1 w body) := by
  delta State.replyRx
  repeat' first
    | with_reducible assumption
    | intro _
    | lift_lets
    | with_reducible apply fr_statusRx
    | with_reducible apply fr_putMerge
    | with_reducible apply fr_replyRoute
    | split

theorem fr_mergeLate (m : Merge) (fpl : fp.lam = true) (hfr : Fr fp s0 s1) : Fr fp s0 (State.mergeLate s1 m) := by
  delta State.mergeLate
  repeat' first
    | with_reducible assumption
    | with_reducible apply fr_putMerge

theorem fr_execCmdReplyRx (fromDie : Bool) (p : ℕ) (body : List ℕ) (fpi : fp.itu = true) (fpl : fp.lam = true) (fpd : fp.ddr = true) (fpn : fp.nor = true) (hfr : Fr fp s0 s1) : FrO fp s0 (execCmdReplyRx fromDie p body s1) := by
  delta execCmdReplyRx
  repeat' first
    | with_reducible assumption
    | with_reducible apply FrO.next
    | with_reducible apply fr_replyRx

theorem fr_execCmdMergeTimeout (origin : ℕ) (issuer : ℕ) (cmdId : ℕ) (fpl : fp.lam = true) (hfr : Fr fp s0 s1) : FrO fp s0 (execCmdMergeTimeout origin issuer cmdId s1) := by
  delta execCmdMergeTimeout
  repeat' first
    | with_reducible assumption
    | intro _
    | with_reducible apply FrO.next
    | with_reducible apply fr_mergeLate
    | split

end Sys2Proof.Machine
end

