-- ==== Sys2Proof/Laws/FrStats.lean ====
section
/-! SUPPORT. What each operation of Machine/Stats.lean can change, in the form of Laws/Frame.lean. -/

set_option linter.unusedTactic false
set_option linter.unreachableTactic false

namespace Sys2Proof.Machine

variable {fp : Parts} {s0 s1 : State}

theorem fr_putCell (c : Cell) (fpl : fp.lam = true) (hfr : Fr fp s0 s1) : Fr fp s0 (State.putCell s1 c) := by
  delta State.putCell
  repeat' first
    | (with_reducible refine fr_mk (by with_reducible assumption) ?_ ?_) <;> first | exact .inl rfl | exact .inr ⟨by assumption, rfl⟩ | exact .inr ⟨by assumption, rfl, rfl, rfl, rfl, rfl, rfl⟩

theorem fr_cellInput (c : Cell) (l : LeafIn) (fpl : fp.lam = true) (hfr : Fr fp s0 s1) : Fr fp s0 (State.cellInput s1 c l) := by
  delta State.cellInput
  repeat' first
    | with_reducible assumption
    | intro _
    | with_reducible apply fr_il
    | with_reducible apply fr_putCell
    | with_reducible apply fr_miss
    | with_reducible apply fr_wl
    | split

theorem fr_dieInput (i : ℕ) (w : ℕ) (q : ℕ) (entry : ℕ) (epoch : ℕ) (v : ℕ) (fmt2 : Bool) (src : Src) (t : ℕ) (mc : ℕ) (slot : ℕ) (fpl : fp.lam = true) (hfr : Fr fp s0 s1) : Fr fp s0 (State.dieInput s1 i w q entry epoch v fmt2 src t mc slot) := by
  delta State.dieInput
  repeat' first
    | with_reducible assumption
    | with_reducible apply fr_cellInput
    | split

theorem fr_partialRx (e : Env) (r : Rec) (poison : Bool) (fpl : fp.lam = true) (hfr : Fr fp s0 s1) : Fr fp s0 (State.partialRx s1 e r poison) := by
  delta State.partialRx
  repeat' first
    | with_reducible assumption
    | intro _
    | with_reducible apply fr_il
    | with_reducible apply fr_miss
    | with_reducible apply fr_cellInput
    | with_reducible apply fr_wl
    | with_reducible apply fr_ite

theorem fr_sendQref (c : Cell) (p : Partial) (d : ℕ) (fpl : fp.lam = true) (hfr : Fr fp s0 s1) : Fr fp s0 (State.sendQref s1 c p d) := by
  delta State.sendQref
  repeat' first
    | with_reducible assumption
    | with_reducible apply fr_cmdDown

theorem fr_qrefsOf (c : Cell) (p : Partial) (fpl : fp.lam = true) (hfr : Fr fp s0 s1) : Fr fp s0 (State.qrefsOf s1 c p) := by
  delta State.qrefsOf
  repeat' first
    | with_reducible assumption
    | intro _
    | with_reducible apply fr_sendQref
    | with_reducible apply fr_foldl
    | split

theorem fr_dropCell (c : Cell) (fpl : fp.lam = true) (hfr : Fr fp s0 s1) : Fr fp s0 (State.dropCell s1 c) := by
  delta State.dropCell
  repeat' first
    | (with_reducible refine fr_mk (by with_reducible assumption) ?_ ?_) <;> first | exact .inl rfl | exact .inr ⟨by assumption, rfl⟩ | exact .inr ⟨by assumption, rfl, rfl, rfl, rfl, rfl, rfl⟩

theorem fr_closeCell (c : Cell) (poison : Bool) (lost : List ℕ) (fpl : fp.lam = true) (hfr : Fr fp s0 s1) : Fr fp s0 (State.closeCell s1 c poison lost) := by
  delta State.closeCell
  repeat' first
    | with_reducible assumption
    | intro _
    | with_reducible apply fr_il
    | with_reducible apply fr_qrefsOf
    | with_reducible apply fr_miss
    | with_reducible apply fr_dropCell
    | with_reducible apply fr_free
    | with_reducible apply fr_lamRec
    | with_reducible apply fr_wl
    | with_reducible apply fr_ite
    | with_reducible apply fr_foldl

theorem fr_statOpen (n : ℕ) (t : ℕ) (fpl : fp.lam = true) (hfr : Fr fp s0 s1) : Fr fp s0 (State.statOpen s1 n t) := by
  delta State.statOpen
  repeat' first
    | with_reducible assumption
    | intro _
    | with_reducible apply fr_putCell
    | with_reducible apply fr_wl
    | with_reducible apply fr_ite
    | with_reducible apply fr_foldl

theorem fr_execPartialArrival (e : Env) (r : Rec) (poison : Bool) (fpl : fp.lam = true) (hfr : Fr fp s0 s1) : FrO fp s0 (execPartialArrival e r poison s1) := by
  delta execPartialArrival
  repeat' first
    | with_reducible assumption
    | intro _
    | with_reducible apply FrO.next
    | with_reducible apply fr_partialRx
    | split

theorem fr_execStatCellClose (spec : ℕ) (gid : ℕ) (t : ℕ) (poison : Bool) (lost : List ℕ) (fpl : fp.lam = true) (hfr : Fr fp s0 s1) : FrO fp s0 (execStatCellClose spec gid t poison lost s1) := by
  delta execStatCellClose
  repeat' first
    | with_reducible assumption
    | intro _
    | with_reducible apply FrO.next
    | with_reducible apply fr_closeCell
    | split

end Sys2Proof.Machine
end

