-- ==== Sys2Proof/Laws/FrStcReg.lean ====
section
/-! SUPPORT. What each operation of Machine/StcReg.lean can change, in the form of Laws/Frame.lean. -/

set_option linter.unusedTactic false
set_option linter.unreachableTactic false

namespace Sys2Proof.Machine

variable {fp : Parts} {s0 s1 : State}

theorem fr_stitchValue (q : ℕ) (chan : ℕ) (v : ℕ) (t : ℕ) (mc : ℕ) (slot : ℕ) (entry : ℕ) (epoch : ℕ) (src : Src) (fpl : fp.lam = true) (hfr : Fr fp s0 s1) : Fr fp s0 (State.stitchValue s1 q chan v t mc slot entry epoch src) := by
  delta State.stitchValue
  repeat' first
    | with_reducible assumption
    | intro _
    | with_reducible apply fr_dieInput
    | with_reducible apply fr_foldl
    | (with_reducible refine fr_mk (by with_reducible assumption) ?_ ?_) <;> first | exact .inl rfl | exact .inr ⟨by assumption, rfl⟩ | exact .inr ⟨by assumption, rfl, rfl, rfl, rfl, rfl, rfl⟩

theorem fr_putvItu (c : ℕ) (chan : ℕ) (v : ℕ) (fpi : fp.itu = true) (fpl : fp.lam = true) (hfr : Fr fp s0 s1) : Fr fp s0 (State.putvItu s1 c chan v) := by
  delta State.putvItu
  split <;> try split
  all_goals repeat' first
    | with_reducible assumption
    | intro _
    | with_reducible apply fr_setStc
    | with_reducible apply fr_stcOffer
    | with_reducible apply fr_setLast
    | with_reducible apply fr_ii
    | with_reducible apply fr_ite

theorem fr_putvLam (c : ℕ) (chan : ℕ) (v : ℕ) (q : ℕ) (fpi : fp.itu = true) (fpl : fp.lam = true) (hfr : Fr fp s0 s1) : Fr fp s0 (State.putvLam s1 c chan v q) := by
  delta State.putvLam
  split <;> try split
  all_goals repeat' first
    | with_reducible assumption
    | intro _
    | lift_lets
    | with_reducible apply fr_stitchValue
    | with_reducible apply fr_il
    | with_reducible apply fr_free
    | with_reducible apply fr_setStc
    | with_reducible apply fr_setLast
    | split

theorem fr_stcRead (sd : Sys2Proof.Side) (c : ℕ) (a : ℕ) (fpi : fp.itu = true) (fpl : fp.lam = true) (hfr : Fr fp s0 s1) : Fr fp s0 (State.stcRead s1 sd c a).2 := by
  delta State.stcRead
  repeat' first
    | with_reducible assumption
    | (intro x; (first | refine fr_cut (fp := fp) (s0 := s0) x ?_ (fun hx => ?_) | refine fr_cut (fp := fp) (s0 := s0) x.1 ?_ (fun hx => ?_) | refine fr_cut (fp := fp) (s0 := s0) x.2 ?_ (fun hx => ?_)); on_goal 1 => dsimp -zeta -zetaHave only [x])
    | intro _
    | lift_lets
    | with_reducible apply fr_readWord
    | (with_reducible refine fr_mk (by with_reducible assumption) ?_ ?_) <;> first | exact .inl rfl | exact .inr ⟨by assumption, rfl⟩ | exact .inr ⟨by assumption, rfl, rfl, rfl, rfl, rfl, rfl⟩
    | split

theorem fr_execPutv (sd : Sys2Proof.Side) (c : ℕ) (fpi : fp.itu = true) (fpl : fp.lam = true) (hfr : Fr fp s0 s1) : FrO fp s0 (execPutv sd c s1) := by
  delta execPutv
  repeat' first
    | with_reducible assumption
    | intro _
    | with_reducible apply FrO.next
    | with_reducible apply fr_stcIssue
    | with_reducible apply fr_putvItu
    | with_reducible apply fr_putvLam
    | split

theorem fr_execRdw (sd : Sys2Proof.Side) (c : ℕ) (fpi : fp.itu = true) (fpl : fp.lam = true) (hfr : Fr fp s0 s1) : FrO fp s0 (execRdw sd c s1) := by
  delta execRdw
  repeat' first
    | with_reducible assumption
    | intro _
    | with_reducible apply FrO.next
    | with_reducible apply fr_stcRead
    | with_reducible apply fr_setX
    | with_reducible apply fr_stcIssue

end Sys2Proof.Machine
end

