-- ==== Sys2Proof/Laws/FrStraggler.lean ====
section
/-! SUPPORT. What each operation of Machine/Straggler.lean can change, in the form of Laws/Frame.lean. -/

set_option linter.unusedTactic false
set_option linter.unreachableTactic false

namespace Sys2Proof.Machine

variable {fp : Parts} {s0 s1 : State}

theorem fr_dropBar (cohort : ℕ) (coll : ℕ) (fpl : fp.lam = true) (hfr : Fr fp s0 s1) : Fr fp s0 (State.dropBar s1 cohort coll) := by
  delta State.dropBar
  repeat' first
    | (with_reducible refine fr_mk (by with_reducible assumption) ?_ ?_) <;> first | exact .inl rfl | exact .inr ⟨by assumption, rfl⟩ | exact .inr ⟨by assumption, rfl, rfl, rfl, rfl, rfl, rfl⟩

theorem fr_putBar (c : BarCell) (fpl : fp.lam = true) (hfr : Fr fp s0 s1) : Fr fp s0 (State.putBar s1 c) := by
  delta State.putBar
  repeat' first
    | with_reducible assumption
    | (intro x; (first | refine fr_cut (fp := fp) (s0 := s0) x ?_ (fun hx => ?_) | refine fr_cut (fp := fp) (s0 := s0) x.1 ?_ (fun hx => ?_) | refine fr_cut (fp := fp) (s0 := s0) x.2 ?_ (fun hx => ?_)); on_goal 1 => dsimp -zeta -zetaHave only [x])
    | lift_lets
    | with_reducible apply fr_dropBar
    | (with_reducible refine fr_mk (by with_reducible assumption) ?_ ?_) <;> first | exact .inl rfl | exact .inr ⟨by assumption, rfl⟩ | exact .inr ⟨by assumption, rfl, rfl, rfl, rfl, rfl, rfl⟩

theorem fr_closeBar (c : BarCell) (fpl : fp.lam = true) (hfr : Fr fp s0 s1) : Fr fp s0 (State.closeBar s1 c) := by
  delta State.closeBar
  repeat' first
    | with_reducible assumption
    | (intro x; (first | refine fr_cut (fp := fp) (s0 := s0) x ?_ (fun hx => ?_) | refine fr_cut (fp := fp) (s0 := s0) x.1 ?_ (fun hx => ?_) | refine fr_cut (fp := fp) (s0 := s0) x.2 ?_ (fun hx => ?_)); on_goal 1 => dsimp -zeta -zetaHave only [x])
    | intro _
    | lift_lets
    | with_reducible apply fr_dropBar
    | with_reducible apply fr_il
    | with_reducible apply fr_cmdDown
    | with_reducible apply fr_lamRec
    | (with_reducible refine fr_mk (by with_reducible assumption) ?_ ?_) <;> first | exact .inl rfl | exact .inr ⟨by assumption, rfl⟩ | exact .inr ⟨by assumption, rfl, rfl, rfl, rfl, rfl, rfl⟩
    | split

theorem fr_barMerge (cohort : ℕ) (coll : ℕ) (leaf : ℕ) (b : Bar) (src : Src) (fpl : fp.lam = true) (hfr : Fr fp s0 s1) : Fr fp s0 (State.barMerge s1 cohort coll leaf b src).1 := by
  delta State.barMerge
  repeat' first
    | with_reducible assumption
    | intro _
    | with_reducible apply fr_putBar
    | with_reducible apply fr_il
    | with_reducible apply fr_miss
    | with_reducible apply fr_closeBar
    | with_reducible apply fr_wl
    | with_reducible apply fr_ite
    | with_reducible apply fr_ite_fst
    | split

theorem fr_pendPut (q : ℕ) (p : PendBar) (fpl : fp.lam = true) (hfr : Fr fp s0 s1) : Fr fp s0 (State.pendPut s1 q p) := by
  delta State.pendPut
  repeat' first
    | with_reducible assumption
    | intro _
    | with_reducible apply fr_il
    | with_reducible apply fr_setDet
    | with_reducible apply fr_wl
    | with_reducible apply fr_ite

theorem fr_barEvent (q : ℕ) (r : Rec) (full : ℕ) (entry : ℕ) (epoch : ℕ) (fpl : fp.lam = true) (hfr : Fr fp s0 s1) : Fr fp s0 (State.barEvent s1 q r full entry epoch) := by
  delta State.barEvent
  repeat' first
    | with_reducible assumption
    | intro _
    | with_reducible apply fr_il
    | with_reducible apply fr_barMerge
    | with_reducible apply fr_pendPut
    | with_reducible apply fr_ite

theorem fr_barPartialRx (e : Env) (r : Rec) (fpl : fp.lam = true) (hfr : Fr fp s0 s1) : Fr fp s0 (State.barPartialRx s1 e r) := by
  delta State.barPartialRx
  repeat' first
    | with_reducible assumption
    | intro _
    | with_reducible apply fr_barMerge
    | split

theorem fr_stragVerdict (q : ℕ) (fpl : fp.lam = true) (hfr : Fr fp s0 s1) : Fr fp s0 (State.stragVerdict s1 q) := by
  delta State.stragVerdict
  repeat' first
    | with_reducible assumption
    | with_reducible apply fr_il
    | with_reducible apply fr_setDet
    | with_reducible apply fr_lamEmit

theorem fr_stragUpdate (q : ℕ) (p : PendBar) (coll : ℕ) (b : Bar) (fpl : fp.lam = true) (hfr : Fr fp s0 s1) : Fr fp s0 (State.stragUpdate s1 q p coll b) := by
  delta State.stragUpdate
  repeat' first
    | with_reducible assumption
    | intro _
    | with_reducible apply fr_setDet
    | with_reducible apply fr_stragVerdict
    | with_reducible apply fr_ite

theorem fr_barRef (ws : List ℕ) (fpl : fp.lam = true) (hfr : Fr fp s0 s1) : Fr fp s0 (State.barRef s1 ws) := by
  delta State.barRef
  repeat' first
    | with_reducible assumption
    | intro _
    | with_reducible apply fr_setDet
    | with_reducible apply fr_stragUpdate
    | with_reducible apply fr_ite
    | with_reducible apply fr_foldl
    | split

theorem fr_execBarRef (h : CmdHdr) (words : List ℕ) (fpl : fp.lam = true) (hfr : Fr fp s0 s1) : FrO fp s0 (execBarRef h words s1) := by
  delta execBarRef
  repeat' first
    | with_reducible assumption
    | intro _
    | with_reducible apply FrO.next
    | with_reducible apply fr_barRef
    | with_reducible apply fr_cmdLam
    | with_reducible apply fr_when
    | split

theorem fr_execPendingExpiry (q : ℕ) (fpl : fp.lam = true) (hfr : Fr fp s0 s1) : FrO fp s0 (execPendingExpiry q s1) := by
  delta execPendingExpiry
  repeat' first
    | with_reducible assumption
    | intro _
    | with_reducible apply FrO.next
    | with_reducible apply fr_il
    | with_reducible apply fr_setDet
    | split

theorem fr_execBarrierCellClose (cohort : ℕ) (coll : ℕ) (fpl : fp.lam = true) (hfr : Fr fp s0 s1) : FrO fp s0 (execBarrierCellClose cohort coll s1) := by
  delta execBarrierCellClose
  repeat' first
    | with_reducible assumption
    | intro _
    | with_reducible apply FrO.next
    | with_reducible apply fr_closeBar
    | split

theorem fr_execStragVerdictRepeat (q : ℕ) (fpl : fp.lam = true) (hfr : Fr fp s0 s1) : FrO fp s0 (execStragVerdictRepeat q s1) := by
  delta execStragVerdictRepeat
  repeat' first
    | with_reducible assumption
    | intro _
    | with_reducible apply FrO.next
    | with_reducible apply fr_stragVerdict
    | with_reducible apply frO_ite

theorem fr_execBarPartialArrival (e : Env) (r : Rec) (fpl : fp.lam = true) (hfr : Fr fp s0 s1) : FrO fp s0 (execBarPartialArrival e r s1) := by
  delta execBarPartialArrival
  repeat' first
    | with_reducible assumption
    | intro _
    | with_reducible apply FrO.next
    | with_reducible apply fr_barPartialRx
    | split

end Sys2Proof.Machine
end

