-- ==== Sys2Proof/Laws/FrArrive.lean ====
section
/-! SUPPORT. What each operation of Machine/Arrive.lean can change, in the form of Laws/Frame.lean. -/

set_option linter.unusedTactic false
set_option linter.unreachableTactic false

namespace Sys2Proof.Machine

variable {fp : Parts} {s0 s1 : State}

theorem fr_dieReport (q : ℕ) (r : Rec) (fpl : fp.lam = true) (hfr : Fr fp s0 s1) : Fr fp s0 (State.dieReport s1 q r) := by
  delta State.dieReport
  repeat' first
    | with_reducible assumption
    | with_reducible apply fr_wl

theorem fr_forward (e : Env) (r : Rec) (fpl : fp.lam = true) (hfr : Fr fp s0 s1) : Fr fp s0 (State.forward s1 e r) := by
  delta State.forward
  repeat' first
    | with_reducible assumption
    | with_reducible apply fr_recCopy
    | with_reducible apply fr_send

theorem fr_trkFeed (q : ℕ) (i : ℕ) (l : FLatch) (inp : TrkIn) (dv : ℕ) (entry : ℕ) (fmt2 : Bool) (src : Src) (fpl : fp.lam = true) (hfr : Fr fp s0 s1) : Fr fp s0 (State.trkFeed s1 q i l inp dv entry fmt2 src) := by
  delta State.trkFeed
  repeat' first
    | with_reducible assumption
    | intro _
    | with_reducible apply fr_dieInput
    | with_reducible apply fr_foldl

theorem fr_trkEntry (q : ℕ) (i : ℕ) (feed : Bool) (l : FLatch) (inp : TrkIn) (entry : ℕ) (fmt2 : Bool) (src : Src) (fpl : fp.lam = true) (hfr : Fr fp s0 s1) : Fr fp s0 (State.trkEntry s1 q i feed l inp entry fmt2 src) := by
  delta State.trkEntry
  repeat' first
    | with_reducible assumption
    | (intro x; (first | refine fr_cut (fp := fp) (s0 := s0) x ?_ (fun hx => ?_) | refine fr_cut (fp := fp) (s0 := s0) x.1 ?_ (fun hx => ?_) | refine fr_cut (fp := fp) (s0 := s0) x.2 ?_ (fun hx => ?_)); on_goal 1 => dsimp -zeta -zetaHave only [x])
    | intro _
    | with_reducible apply fr_assignLoad
    | with_reducible apply fr_forestStream
    | with_reducible apply fr_detRun
    | with_reducible apply fr_trkFeed
    | with_reducible apply fr_trkApply
    | with_reducible apply fr_ite
    | split

theorem fr_blockEntry (q : ℕ) (l : FLatch) (inp : TrkIn) (n : ℕ) (entry : ℕ) (fmt2 : Bool) (src : Src) (fpl : fp.lam = true) (hfr : Fr fp s0 s1) : Fr fp s0 (State.blockEntry s1 q l inp n entry fmt2 src) := by
  delta State.blockEntry
  repeat' first
    | with_reducible assumption
    | (intro x; (first | refine fr_cut (fp := fp) (s0 := s0) x ?_ (fun hx => ?_) | refine fr_cut (fp := fp) (s0 := s0) x.1 ?_ (fun hx => ?_) | refine fr_cut (fp := fp) (s0 := s0) x.2 ?_ (fun hx => ?_)); on_goal 1 => dsimp -zeta -zetaHave only [x])
    | (intro y; (first | have z : Option _ := y | have z : List _ := y); clear z; clear_value y)
    | intro _
    | with_reducible apply fr_il
    | with_reducible apply fr_virtQueue
    | with_reducible apply fr_trkEntry
    | with_reducible apply fr_ite
    | with_reducible apply fr_foldl
    | split

theorem fr_sampleBlock (q : ℕ) (r : Rec) (full : ℕ) (entry : ℕ) (epoch : ℕ) (src : Src) (fpl : fp.lam = true) (hfr : Fr fp s0 s1) : Fr fp s0 (State.sampleBlock s1 q r full entry epoch src) := by
  delta State.sampleBlock
  repeat' first
    | with_reducible assumption
    | intro _
    | with_reducible apply fr_blockEntry
    | with_reducible apply fr_forestBlock
    | with_reducible apply fr_forestLatch
    | with_reducible apply fr_foldl
    | split

theorem fr_acceptIkl (q : ℕ) (r : Rec) (full : ℕ) (entry : ℕ) (epoch : ℕ) (e : Env) (fpi : fp.itu = true) (fpl : fp.lam = true) (fpd : fp.ddr = true) (fpn : fp.nor = true) (hfr : Fr fp s0 s1) : Fr fp s0 (State.acceptIkl s1 q r full entry epoch e) := by
  delta State.acceptIkl
  repeat' first
    | with_reducible assumption
    | intro _
    | with_reducible apply fr_stitchValue
    | with_reducible apply fr_digShard
    | with_reducible apply fr_testAtTray
    | with_reducible apply fr_voteRx
    | with_reducible apply fr_dieReport
    | with_reducible apply fr_ituDoubt
    | with_reducible apply fr_barEvent
    | with_reducible apply fr_partGenPass
    | with_reducible apply fr_forward
    | with_reducible apply fr_sampleBlock
    | with_reducible apply fr_replyRx
    | split

theorem fr_nodeGen (e : Env) (r : Rec) (fpi : fp.itu = true) (fpl : fp.lam = true) (fpd : fp.ddr = true) (fpn : fp.nor = true) (hfr : Fr fp s0 s1) : Fr fp s0 (State.nodeGen s1 e r) := by
  delta State.nodeGen
  repeat' first
    | with_reducible assumption
    | intro _
    | lift_lets
    | with_reducible apply fr_sendGen
    | with_reducible apply fr_abandon
    | with_reducible apply fr_learnGen
    | split

theorem fr_atCrown (e : Env) (r : Rec) (fpi : fp.itu = true) (fpl : fp.lam = true) (fpd : fp.ddr = true) (fpn : fp.nor = true) (hfr : Fr fp s0 s1) : Fr fp s0 (State.atCrown s1 e r) := by
  delta State.atCrown
  repeat' first
    | with_reducible assumption
    | intro _
    | with_reducible apply fr_digKeep
    | with_reducible apply fr_nodeGen
    | with_reducible apply fr_testAtCrown
    | with_reducible apply fr_rejoinAtCrown
    | with_reducible apply fr_verdictMark
    | split

theorem fr_acceptUp (p : ℕ) (e : Env) (r : Rec) (fpi : fp.itu = true) (fpl : fp.lam = true) (fpd : fp.ddr = true) (fpn : fp.nor = true) (hfr : Fr fp s0 s1) : Fr fp s0 (State.acceptUp s1 p e r) := by
  delta State.acceptUp
  repeat' first
    | with_reducible assumption
    | intro _
    | with_reducible apply fr_voteRx
    | with_reducible apply fr_partialRx
    | with_reducible apply fr_barPartialRx
    | with_reducible apply fr_parentChange
    | with_reducible apply fr_partGenPass
    | with_reducible apply fr_forward
    | with_reducible apply fr_atCrown
    | with_reducible apply fr_digPartialRx
    | with_reducible apply fr_deadline
    | with_reducible apply fr_replyRx
    | split

theorem fr_partBand (q : ℕ) (r : Rec) (fpl : fp.lam = true) (hfr : Fr fp s0 s1) : Fr fp s0 (State.partBand s1 q r) := by
  delta State.partBand
  repeat' first
    | with_reducible assumption
    | intro _
    | with_reducible apply fr_setPort
    | split

theorem fr_genTest (q : ℕ) (r : Rec) (fpl : fp.lam = true) (hfr : Fr fp s0 s1) : Fr fp s0 (State.genTest s1 q r).1 := by
  delta State.genTest
  repeat' first
    | with_reducible assumption
    | intro _
    | with_reducible apply fr_il
    | with_reducible apply fr_ite_fst

theorem fr_repeatTest (q : ℕ) (r : Rec) (fpl : fp.lam = true) (hfr : Fr fp s0 s1) : Fr fp s0 (State.repeatTest s1 q r).1 := by
  delta State.repeatTest
  repeat' first
    | with_reducible assumption
    | intro _
    | with_reducible apply fr_setPort
    | with_reducible apply fr_il
    | with_reducible apply fr_ite_fst
    | split

theorem fr_partGenRx (q : ℕ) (r : Rec) (fpl : fp.lam = true) (hfr : Fr fp s0 s1) : Fr fp s0 (State.partGenRx s1 q r) := by
  delta State.partGenRx
  repeat' first
    | with_reducible assumption
    | with_reducible apply fr_setPort
    | with_reducible apply fr_wl

theorem fr_brimStale (fpl : fp.lam = true) (hfr : Fr fp s0 s1) : Fr fp s0 (State.brimStale s1) := by
  delta State.brimStale
  repeat' first
    | (with_reducible refine fr_mk (by with_reducible assumption) ?_ ?_) <;> first | exact .inl rfl | exact .inr ⟨by assumption, rfl⟩ | exact .inr ⟨by assumption, rfl, rfl, rfl, rfl, rfl, rfl⟩

theorem fr_arriveIkl (q : ℕ) (r : Rec) (fpi : fp.itu = true) (fpl : fp.lam = true) (fpd : fp.ddr = true) (fpn : fp.nor = true) (hfr : Fr fp s0 s1) : Fr fp s0 (State.arriveIkl s1 q r) := by
  delta State.arriveIkl
  repeat' first
    | with_reducible assumption
    | intro _
    | with_reducible apply fr_il
    | with_reducible apply fr_acceptIkl
    | with_reducible apply fr_partBand
    | with_reducible apply fr_genTest
    | with_reducible apply fr_repeatTest
    | with_reducible apply fr_partGenRx
    | with_reducible apply fr_brimStale
    | with_reducible apply fr_deadline
    | with_reducible apply fr_ite
    | split

theorem fr_recUp (p : ℕ) (e : Env) (r : Rec) (fpi : fp.itu = true) (fpl : fp.lam = true) (fpd : fp.ddr = true) (fpn : fp.nor = true) (hfr : Fr fp s0 s1) : Fr fp s0 (State.recUp s1 p e r) := by
  delta State.recUp
  repeat' first
    | with_reducible assumption
    | intro _
    | with_reducible apply fr_il
    | with_reducible apply fr_miss
    | with_reducible apply fr_acceptUp
    | split

theorem fr_recIkl (q : ℕ) (r : Rec) (fpi : fp.itu = true) (fpl : fp.lam = true) (fpd : fp.ddr = true) (fpn : fp.nor = true) (hfr : Fr fp s0 s1) : Fr fp s0 (State.recIkl s1 q r) := by
  delta State.recIkl
  repeat' first
    | with_reducible assumption
    | intro _
    | with_reducible apply fr_il
    | with_reducible apply fr_arriveIkl
    | with_reducible apply fr_resync
    | split

theorem fr_execRecordArrivalUplink (p : ℕ) (e : Env) (r : Rec) (fpi : fp.itu = true) (fpl : fp.lam = true) (fpd : fp.ddr = true) (fpn : fp.nor = true) (hfr : Fr fp s0 s1) : FrO fp s0 (execRecordArrivalUplink p e r s1) := by
  delta execRecordArrivalUplink
  repeat' first
    | with_reducible assumption
    | intro _
    | with_reducible apply FrO.next
    | with_reducible apply fr_recUp
    | split

theorem fr_execRecordArrivalIkl (q : ℕ) (r : Rec) (fpi : fp.itu = true) (fpl : fp.lam = true) (fpd : fp.ddr = true) (fpn : fp.nor = true) (hfr : Fr fp s0 s1) : FrO fp s0 (execRecordArrivalIkl q r s1) := by
  delta execRecordArrivalIkl
  repeat' first
    | with_reducible assumption
    | intro _
    | with_reducible apply FrO.next
    | with_reducible apply fr_takeGot
    | with_reducible apply fr_recIkl
    | split

end Sys2Proof.Machine
end

