-- ==== Sys2Proof/Laws/FrEpochSync.lean ====
section
/-! SUPPORT. What each operation of Machine/EpochSync.lean can change, in the form of Laws/Frame.lean. -/

set_option linter.unusedTactic false
set_option linter.unreachableTactic false

namespace Sys2Proof.Machine

variable {fp : Parts} {s0 s1 : State}

theorem fr_syncSend (child : ℕ) (fpl : fp.lam = true) (hfr : Fr fp s0 s1) : Fr fp s0 (State.syncSend s1 child) := by
  delta State.syncSend
  repeat' first
    | with_reducible assumption
    | intro _
    | with_reducible apply fr_cmdDown
    | with_reducible apply fr_foldl

theorem fr_syncTake (ws : List ℕ) (fpi : fp.itu = true) (fpl : fp.lam = true) (fpd : fp.ddr = true) (fpn : fp.nor = true) (hfr : Fr fp s0 s1) : Fr fp s0 (State.syncTake s1 ws) := by
  delta State.syncTake
  repeat' first
    | with_reducible assumption
    | intro _
    | with_reducible apply fr_applyWords
    | with_reducible apply fr_tellItus
    | with_reducible apply fr_wl
    | with_reducible apply fr_ite
    | (with_reducible refine fr_mk (by with_reducible assumption) ?_ ?_) <;> first | exact .inl rfl | exact .inr ⟨by assumption, rfl⟩ | exact .inr ⟨by assumption, rfl, rfl, rfl, rfl, rfl, rfl⟩

theorem fr_epochSync (h : CmdHdr) (ws : List ℕ) (fpi : fp.itu = true) (fpl : fp.lam = true) (fpd : fp.ddr = true) (fpn : fp.nor = true) (hfr : Fr fp s0 s1) : Fr fp s0 (State.epochSync s1 h ws).1 := by
  delta State.epochSync
  repeat' first
    | with_reducible assumption
    | intro _
    | with_reducible apply fr_syncSend
    | with_reducible apply fr_syncTake
    | split

theorem fr_execEpochSync (h : CmdHdr) (ws : List ℕ) (fpi : fp.itu = true) (fpl : fp.lam = true) (fpd : fp.ddr = true) (fpn : fp.nor = true) (hfr : Fr fp s0 s1) : FrO fp s0 (execEpochSync h ws s1) := by
  delta execEpochSync
  repeat' first
    | with_reducible assumption
    | intro _
    | with_reducible apply FrO.next
    | with_reducible apply fr_epochSync
    | with_reducible apply fr_cmdLam

end Sys2Proof.Machine
end

