-- ==== Sys2Proof/Laws/FrRejoin.lean ====
section
/-! SUPPORT. What each operation of Machine/Rejoin.lean can change, in the form of Laws/Frame.lean. -/

set_option linter.unusedTactic false
set_option linter.unreachableTactic false

namespace Sys2Proof.Machine

variable {fp : Parts} {s0 s1 : State}

theorem fr_setRejoin (q : ℕ) (r : Rejoin) (fpl : fp.lam = true) (hfr : Fr fp s0 s1) : Fr fp s0 (State.setRejoin s1 q r) := by
  delta State.setRejoin
  repeat' first
    | with_reducible assumption
    | with_reducible apply fr_setPort

theorem fr_rejoinGrant (q : Option ℕ) (grant : Bool) (fpl : fp.lam = true) (hfr : Fr fp s0 s1) : Fr fp s0 (State.rejoinGrant s1 q grant) := by
  delta State.rejoinGrant
  repeat' first
    | with_reducible assumption
    | intro _
    | with_reducible apply fr_setRejoin
    | with_reducible apply fr_foldl
    | split

theorem fr_execRejoinGrant (h : CmdHdr) (q : Option ℕ) (grant : Bool) (fpl : fp.lam = true) (hfr : Fr fp s0 s1) : FrO fp s0 (execRejoinGrant h q grant s1) := by
  delta execRejoinGrant
  repeat' first
    | with_reducible assumption
    | intro _
    | with_reducible apply FrO.next
    | with_reducible apply fr_cmdLam
    | with_reducible apply fr_rejoinGrant
    | split

theorem fr_rejoinRec (q : ℕ) (fpl : fp.lam = true) (hfr : Fr fp s0 s1) : Fr fp s0 (State.rejoinRec s1 q) := by
  delta State.rejoinRec
  repeat' first
    | with_reducible assumption
    | with_reducible apply fr_lamRec

theorem fr_writeAdvAll (q : ℕ) (fpl : fp.lam = true) (hfr : Fr fp s0 s1) : Fr fp s0 (State.writeAdvAll s1 q) := by
  delta State.writeAdvAll
  repeat' first
    | with_reducible assumption
    | with_reducible apply fr_ituWrite

theorem fr_rejoinStep (q : ℕ) (reads : RejoinReads) (fpl : fp.lam = true) (hfr : Fr fp s0 s1) : Fr fp s0 (State.rejoinStep s1 q reads) := by
  delta State.rejoinStep
  repeat' first
    | with_reducible assumption
    | intro _
    | lift_lets
    | with_reducible apply fr_rejoinRec
    | with_reducible apply fr_ituWrite
    | with_reducible apply fr_writeAdvAll
    | with_reducible apply fr_setRejoin
    | with_reducible apply fr_ituWriteB
    | with_reducible apply fr_portActive
    | split

theorem fr_execRejoinStep (q : ℕ) (reads : RejoinReads) (fpl : fp.lam = true) (hfr : Fr fp s0 s1) : FrO fp s0 (execRejoinStep q reads s1) := by
  delta execRejoinStep
  repeat' first
    | with_reducible assumption
    | intro _
    | with_reducible apply FrO.next
    | with_reducible apply fr_rejoinStep
    | split

theorem fr_execPrevGenRelease (q : ℕ) (p : ℕ) (fpl : fp.lam = true) (hfr : Fr fp s0 s1) : FrO fp s0 (execPrevGenRelease q p s1) := by
  delta execPrevGenRelease
  repeat' first
    | with_reducible assumption
    | intro _
    | lift_lets
    | with_reducible apply FrO.next
    | with_reducible apply fr_setPort
    | with_reducible apply fr_wl
    | split

theorem fr_execRejoinTimeout (q : ℕ) (fpi : fp.itu = true) (fpl : fp.lam = true) (hfr : Fr fp s0 s1) : FrO fp s0 (execRejoinTimeout q s1) := by
  delta execRejoinTimeout
  repeat' first
    | with_reducible assumption
    | intro _
    | with_reducible apply FrO.next
    | with_reducible apply fr_free
    | with_reducible apply fr_setRejoin
    | with_reducible apply fr_alarm
    | with_reducible apply frO_ite

end Sys2Proof.Machine
end

