-- ==== Sys2Proof/Laws/FrCmdRx.lean ====
section
/-! SUPPORT. What each operation of Machine/CmdRx.lean can change, in the form of Laws/Frame.lean. -/

set_option linter.unusedTactic false
set_option linter.unreachableTactic false

namespace Sys2Proof.Machine

variable {fp : Parts} {s0 s1 : State}

theorem fr_cmdRefuse (h : CmdHdr) (st : ℕ) (fpl : fp.lam = true) (hfr : Fr fp s0 s1) : Fr fp s0 (State.cmdRefuse s1 h st) := by
  delta State.cmdRefuse
  repeat' first
    | with_reducible assumption
    | with_reducible apply fr_il
    | with_reducible apply fr_replyRoute

theorem fr_mainsAnnOp (sd : Sys2Proof.Side) (h : CmdHdr) (a : Ann) (fpi : fp.itu = true) (fpl : fp.lam = true) (hfr : Fr fp s0 s1) : Fr fp s0 (State.mainsAnnOp s1 sd h a) := by
  delta State.mainsAnnOp
  repeat' first
    | with_reducible assumption
    | with_reducible apply fr_lamReply
    | with_reducible apply fr_annRx
    | with_reducible apply fr_ituReply
    | with_reducible apply fr_after
    | split

theorem fr_via (f : State → Out) (hf : ∀ s1, Fr fp s0 s1 → FrO fp s0 (f s1)) (hfr : Fr fp s0 s1) : Fr fp s0 (s1.via f) := by
  unfold State.via
  split
  · next h => exact (hf s1 hfr).out _ h
  · exact hfr

theorem fr_stcHere (h : CmdHdr) (ok : Bool) (f : State → Out) (fpl : fp.lam = true) (hf : ∀ x0, Fr fp s0 x0 → FrO fp s0 (f x0)) (hfr : Fr fp s0 s1) : Fr fp s0 (State.stcHere s1 h ok f) := by
  delta State.stcHere
  repeat' first
    | with_reducible assumption
    | intro _
    | with_reducible apply fr_lamReply
    | with_reducible apply fr_via
    | split

theorem fr_lamOp (p : Pkt) (begins : Bool) (port : Option ℕ) (fpi : fp.itu = true) (fpl : fp.lam = true) (fpd : fp.ddr = true) (fpn : fp.nor = true) (hfr : Fr fp s0 s1) : Fr fp s0 (State.lamOp s1 p begins port) := by
  delta State.lamOp
  repeat' first
    | with_reducible assumption
    | intro _
    | lift_lets
    | with_reducible apply fr_execGauntletLoad
    | with_reducible apply fr_execStitchStop
    | with_reducible apply fr_execTxnPrepare
    | with_reducible apply fr_execEpochSync
    | with_reducible apply fr_execTxnDecide
    | with_reducible apply fr_execStitchLoad
    | with_reducible apply fr_execTxnStatus
    | with_reducible apply fr_execRegRead
    | with_reducible apply fr_execRecFlush
    | with_reducible apply fr_execForestUnload
    | with_reducible apply fr_execLockRelease
    | with_reducible apply fr_execRecFreeze
    | with_reducible apply fr_execStitchStart
    | with_reducible apply fr_execParentSet
    | with_reducible apply fr_execRecClear
    | with_reducible apply fr_execSuspectSet
    | with_reducible apply fr_execBarRef
    | with_reducible apply fr_execTrkAssign
    | with_reducible apply fr_execQref
    | with_reducible apply fr_execNop
    | with_reducible apply fr_lamReply
    | with_reducible apply fr_mainsAnnOp
    | with_reducible apply fr_regWrite
    | with_reducible apply fr_execSuspectClear
    | with_reducible apply fr_execStitchPut
    | with_reducible apply fr_execStitchQuery
    | with_reducible apply fr_execTxnAbort
    | with_reducible apply fr_execBankSwap
    | with_reducible apply fr_execLockQuery
    | with_reducible apply fr_execRejoinGrant
    | with_reducible apply fr_execForestLoad
    | with_reducible apply fr_execTxnCommit
    | with_reducible apply fr_execGntSuspect
    | with_reducible apply fr_execSlotRead
    | with_reducible apply fr_execSlotWrite
    | with_reducible apply fr_via
    | with_reducible apply fr_execGenNotice
    | with_reducible apply fr_execTxnBegin
    | with_reducible apply fr_stcHere
    | with_reducible apply fr_execRecRead
    | with_reducible apply fr_execLockAcquire
    | with_reducible apply fr_execGntPush
    | with_reducible apply fr_execRecNote
    | split

theorem fr_passTo (p : Pkt) (w : Bool × ℕ) (fpl : fp.lam = true) (hfr : Fr fp s0 s1) : Fr fp s0 (State.passTo s1 p w) := by
  delta State.passTo
  repeat' first
    | with_reducible assumption
    | intro _
    | with_reducible apply fr_toItu
    | with_reducible apply fr_send
    | split

theorem fr_markStaged (h : CmdHdr) (ws : List (Bool × ℕ)) (fpl : fp.lam = true) (hfr : Fr fp s0 s1) : Fr fp s0 (State.markStaged s1 h ws) := by
  delta State.markStaged
  repeat' first
    | with_reducible assumption
    | intro _
    | with_reducible apply fr_setCtl
    | split

theorem fr_passOne (p : Pkt) (w : Bool × ℕ) (fpl : fp.lam = true) (hfr : Fr fp s0 s1) : Fr fp s0 (State.passOne s1 p w) := by
  delta State.passOne
  repeat' first
    | with_reducible assumption
    | intro _
    | with_reducible apply fr_il
    | with_reducible apply fr_cmdRefuse
    | with_reducible apply fr_passTo
    | with_reducible apply fr_when
    | with_reducible apply fr_markStaged
    | split

theorem fr_atPort (p : Pkt) (begins : Bool) (q : ℕ) (fpi : fp.itu = true) (fpl : fp.lam = true) (fpd : fp.ddr = true) (fpn : fp.nor = true) (hfr : Fr fp s0 s1) : Fr fp s0 (State.atPort s1 p begins q) := by
  delta State.atPort
  repeat' first
    | with_reducible assumption
    | intro _
    | with_reducible apply fr_cmdRefuse
    | with_reducible apply fr_lamOp
    | with_reducible apply fr_passOne
    | with_reducible apply fr_ite

theorem fr_cmdDenied (h : CmdHdr) (fpl : fp.lam = true) (hfr : Fr fp s0 s1) : Fr fp s0 (State.cmdDenied s1 h) := by
  delta State.cmdDenied
  repeat' first
    | with_reducible assumption
    | with_reducible apply fr_cmdRefuse
    | with_reducible apply fr_denied

theorem fr_fanOut (p : Pkt) (begins : Bool) (own : Bool) (dies : List ℕ) (kids : List ℕ) (fpi : fp.itu = true) (fpl : fp.lam = true) (fpd : fp.ddr = true) (fpn : fp.nor = true) (hfr : Fr fp s0 s1) : Fr fp s0 (State.fanOut s1 p begins own dies kids) := by
  delta State.fanOut
  repeat' first
    | with_reducible assumption
    | intro _
    | lift_lets
    | with_reducible apply fr_il
    | with_reducible apply fr_cmdRefuse
    | with_reducible apply fr_setCtl
    | with_reducible apply fr_lamOp
    | with_reducible apply fr_putMerge
    | with_reducible apply fr_passTo
    | with_reducible apply fr_dropMerge
    | with_reducible apply fr_markStaged
    | with_reducible apply fr_ite
    | with_reducible apply fr_foldl
    | split

theorem fr_toSubtree (p : Pkt) (begins : Bool) (fpi : fp.itu = true) (fpl : fp.lam = true) (fpd : fp.ddr = true) (fpn : fp.nor = true) (hfr : Fr fp s0 s1) : Fr fp s0 (State.toSubtree s1 p begins) := by
  delta State.toSubtree
  repeat' first
    | with_reducible assumption
    | intro _
    | with_reducible apply fr_fanOut
    | with_reducible apply fr_when
    | with_reducible apply fr_send

theorem fr_passToward (p : Pkt) (n : ℕ) (fpl : fp.lam = true) (hfr : Fr fp s0 s1) : Fr fp s0 (State.passToward s1 p n) := by
  delta State.passToward
  repeat' first
    | with_reducible assumption
    | intro _
    | with_reducible apply fr_cmdRefuse
    | with_reducible apply fr_passOne
    | with_reducible apply fr_cmdDenied
    | split

theorem fr_toDie (p : Pkt) (begins : Bool) (die : ℕ) (fpi : fp.itu = true) (fpl : fp.lam = true) (fpd : fp.ddr = true) (fpn : fp.nor = true) (hfr : Fr fp s0 s1) : Fr fp s0 (State.toDie s1 p begins die) := by
  delta State.toDie
  repeat' first
    | with_reducible assumption
    | intro _
    | with_reducible apply fr_passToward
    | with_reducible apply fr_cmdRefuse
    | with_reducible apply fr_atPort
    | with_reducible apply fr_cmdDenied
    | split

theorem fr_toRank (p : Pkt) (begins : Bool) (fpi : fp.itu = true) (fpl : fp.lam = true) (fpd : fp.ddr = true) (fpn : fp.nor = true) (hfr : Fr fp s0 s1) : Fr fp s0 (State.toRank s1 p begins) := by
  delta State.toRank
  repeat' first
    | with_reducible assumption
    | intro _
    | with_reducible apply fr_cmdRefuse
    | with_reducible apply fr_atPort
    | with_reducible apply fr_signPkt
    | with_reducible apply fr_cmdDenied
    | with_reducible apply fr_toDie
    | with_reducible apply fr_ite
    | split

theorem fr_toCohort (p : Pkt) (begins : Bool) (fpi : fp.itu = true) (fpl : fp.lam = true) (fpd : fp.ddr = true) (fpn : fp.nor = true) (hfr : Fr fp s0 s1) : Fr fp s0 (State.toCohort s1 p begins) := by
  delta State.toCohort
  repeat' first
    | with_reducible assumption
    | intro _
    | with_reducible apply fr_fanOut
    | split

theorem fr_cmdRoute (entry : Entry) (p : Pkt) (fpi : fp.itu = true) (fpl : fp.lam = true) (fpd : fp.ddr = true) (fpn : fp.nor = true) (hfr : Fr fp s0 s1) : Fr fp s0 (State.cmdRoute s1 entry p) := by
  delta State.cmdRoute
  repeat' first
    | with_reducible assumption
    | intro _
    | with_reducible apply fr_toSubtree
    | with_reducible apply fr_passToward
    | with_reducible apply fr_cmdRefuse
    | with_reducible apply fr_lamOp
    | with_reducible apply fr_touchTxn
    | with_reducible apply fr_cmdDenied
    | with_reducible apply fr_toDie
    | with_reducible apply fr_toRank
    | with_reducible apply fr_toCohort
    | with_reducible apply fr_ite
    | split

theorem fr_keepSeq (h : CmdHdr) (fpl : fp.lam = true) (hfr : Fr fp s0 s1) : Fr fp s0 (State.keepSeq s1 h) := by
  delta State.keepSeq
  repeat' first
    | with_reducible assumption
    | with_reducible apply fr_setCtl

theorem fr_cmdVerify (entry : Entry) (p : Pkt) (fpl : fp.lam = true) (hfr : Fr fp s0 s1) : Fr fp s0 (State.cmdVerify s1 entry p).1 := by
  delta State.cmdVerify
  repeat' first
    | with_reducible assumption
    | intro _
    | with_reducible apply fr_il
    | with_reducible apply fr_denied
    | with_reducible apply fr_wl
    | with_reducible apply fr_keepSeq
    | with_reducible apply fr_ite_fst

theorem fr_cmdRx (entry : Entry) (ws : List ℕ) (fpi : fp.itu = true) (fpl : fp.lam = true) (fpd : fp.ddr = true) (fpn : fp.nor = true) (hfr : Fr fp s0 s1) : Fr fp s0 (State.cmdRx s1 entry ws) := by
  delta State.cmdRx
  repeat' first
    | with_reducible assumption
    | intro _
    | lift_lets
    | with_reducible apply fr_il
    | with_reducible apply fr_cmdVerify
    | with_reducible apply fr_cmdRefuse
    | with_reducible apply fr_cmdRoute
    | split

theorem fr_ituOp (p : Pkt) (fpi : fp.itu = true) (fpl : fp.lam = true) (fpd : fp.ddr = true) (fpn : fp.nor = true) (hfr : Fr fp s0 s1) : Fr fp s0 (State.ituOp s1 p) := by
  delta State.ituOp
  repeat' first
    | with_reducible assumption
    | intro _
    | lift_lets
    | with_reducible apply fr_execRowSample
    | with_reducible apply fr_execStitchStop
    | with_reducible apply fr_execTxnPrepare
    | with_reducible apply fr_execAdmitSet
    | with_reducible apply fr_execTxnDecide
    | with_reducible apply fr_execGntStage
    | with_reducible apply fr_execRegRead
    | with_reducible apply fr_execPartReset
    | with_reducible apply fr_execAdmitGet
    | with_reducible apply fr_execStitchStart
    | with_reducible apply fr_execNop
    | with_reducible apply fr_mainsAnnOp
    | with_reducible apply fr_regWrite
    | with_reducible apply fr_execStitchQuery
    | with_reducible apply fr_execVisorSnap
    | with_reducible apply fr_execSlotRead
    | with_reducible apply fr_execSlotWrite
    | with_reducible apply fr_via
    | with_reducible apply fr_ituReply
    | with_reducible apply fr_execGntRun
    | split

theorem fr_cmdRxItu (ws : List ℕ) (fpi : fp.itu = true) (fpl : fp.lam = true) (fpd : fp.ddr = true) (fpn : fp.nor = true) (hfr : Fr fp s0 s1) : Fr fp s0 (State.cmdRxItu s1 ws) := by
  delta State.cmdRxItu
  repeat' first
    | with_reducible assumption
    | intro _
    | lift_lets
    | with_reducible apply fr_takeGot
    | with_reducible apply fr_ituPriv
    | with_reducible apply fr_ituOp
    | with_reducible apply fr_ituReply
    | split

theorem fr_ringServe (y0 : ℕ) (fpi : fp.itu = true) (fpl : fp.lam = true) (fpd : fp.ddr = true) (fpn : fp.nor = true) (hfr : Fr fp s0 s1) : Fr fp s0 (State.ringServe y0 s1) := by
  induction y0 generalizing s1 with
  | zero => exact hfr
  | succ n ih =>
    rw [State.ringServe]
    repeat' first
      | with_reducible assumption
      | with_reducible apply ih
      | intro _
      | with_reducible apply fr_wl
      | with_reducible apply fr_cmdRx
      | split

theorem fr_serve (fpi : fp.itu = true) (fpl : fp.lam = true) (fpd : fp.ddr = true) (fpn : fp.nor = true) (hfr : Fr fp s0 s1) : Fr fp s0 (State.serve s1) := by
  delta State.serve
  repeat' first
    | with_reducible assumption
    | with_reducible apply fr_ringServe

theorem fr_execReplyRingWrite (fpi : fp.itu = true) (fpl : fp.lam = true) (fpd : fp.ddr = true) (fpn : fp.nor = true) (hfr : Fr fp s0 s1) : FrO fp s0 (execReplyRingWrite s1) := by
  delta execReplyRingWrite
  split
  all_goals repeat' first
    | with_reducible assumption
    | intro _
    | with_reducible apply FrO.next
    | with_reducible apply fr_serve
    | with_reducible apply fr_raiseVec
    | with_reducible apply fr_ddrPut
    | with_reducible apply fr_wl
    | (with_reducible refine fr_mk (by with_reducible assumption) ?_ ?_) <;> first | exact .inl rfl | exact .inr ⟨by assumption, rfl⟩ | exact .inr ⟨by assumption, rfl, rfl, rfl, rfl, rfl, rfl⟩
    | split

theorem fr_execCommandPacketRx (sd : Sys2Proof.Side) (entry : Entry) (ws : List ℕ) (fpi : fp.itu = true) (fpl : fp.lam = true) (fpd : fp.ddr = true) (fpn : fp.nor = true) (hfr : Fr fp s0 s1) : FrO fp s0 (execCommandPacketRx sd entry ws s1) := by
  delta execCommandPacketRx
  repeat' first
    | with_reducible assumption
    | with_reducible apply FrO.next
    | with_reducible apply fr_cmdRx
    | with_reducible apply fr_cmdRxItu
    | split

theorem fr_execMainsAnn (sd : Sys2Proof.Side) (h : CmdHdr) (a : Ann) (fpi : fp.itu = true) (fpl : fp.lam = true) (hfr : Fr fp s0 s1) : FrO fp s0 (execMainsAnn sd h a s1) := by
  delta execMainsAnn
  repeat' first
    | with_reducible assumption
    | with_reducible apply FrO.next
    | with_reducible apply fr_mainsAnnOp

theorem fr_writeServe (iss : Issuer) (a data strb : Nat) (fpi : fp.itu = true) (fpl : fp.lam = true) (fpd : fp.ddr = true)
    (fpn : fp.nor = true) (hfr : Fr fp s0 s1) : Fr fp s0 (s1.writeServe iss a data strb) := by
  have h := fr_writeWord .lam iss a data strb fpi fpl fpd fpn hfr
  exact fr_ite (fun _ => fr_serve fpi fpl fpd fpn h) fun _ => h

theorem fr_execCmdqTailWrite (iss : Issuer) (v : ℕ) (fpi : fp.itu = true) (fpl : fp.lam = true) (fpd : fp.ddr = true) (fpn : fp.nor = true) (hfr : Fr fp s0 s1) : FrO fp s0 (execCmdqTailWrite iss v s1) := by
  delta execCmdqTailWrite
  repeat' first
    | with_reducible assumption
    | with_reducible apply FrO.next
    | with_reducible apply fr_writeServe

theorem fr_execRegisterWrite (sd : Sys2Proof.Side) (iss : Issuer) (addr : ℕ) (data : ℕ) (strb : ℕ) (fpi : fp.itu = true) (fpl : fp.lam = true) (fpd : fp.ddr = true) (fpn : fp.nor = true) (hfr : Fr fp s0 s1) : FrO fp s0 (execRegisterWrite sd iss addr data strb s1) := by
  delta execRegisterWrite
  repeat' first
    | with_reducible assumption
    | with_reducible apply FrO.next
    | with_reducible apply fr_writeServe
    | with_reducible apply fr_writeWord
    | split

theorem fr_execRegWrite (sd : Sys2Proof.Side) (h : CmdHdr) (space : ℕ) (addr : ℕ) (count : ℕ) (strb : ℕ) (data : List ℕ) (fpi : fp.itu = true) (fpl : fp.lam = true) (fpd : fp.ddr = true) (fpn : fp.nor = true) (hfr : Fr fp s0 s1) : FrO fp s0 (execRegWrite sd h space addr count strb data s1) := by
  delta execRegWrite
  repeat' first
    | with_reducible assumption
    | with_reducible apply FrO.next
    | with_reducible apply fr_serve
    | with_reducible apply fr_regWrite
    | split

end Sys2Proof.Machine
end

