-- ==== Sys2Proof/Laws/FrEthRx.lean ====
section
/-! SUPPORT. What each operation of Machine/EthRx.lean can change, in the form of Laws/Frame.lean. -/

set_option linter.unusedTactic false
set_option linter.unreachableTactic false

namespace Sys2Proof.Machine

variable {fp : Parts} {s0 s1 : State}

theorem fr_cmdLost (p : ℕ) (i : Item) (fpl : fp.lam = true) (hfr : Fr fp s0 s1) : Fr fp s0 (State.cmdLost s1 p i) := by
  delta State.cmdLost
  repeat' first
    | with_reducible assumption
    | intro _
    | lift_lets
    | with_reducible apply fr_putMerge
    | with_reducible apply fr_replyRoute
    | split

theorem fr_cmdFramesLost (p : ℕ) (fpl : fp.lam = true) (hfr : Fr fp s0 s1) : Fr fp s0 (State.cmdFramesLost s1 p) := by
  delta State.cmdFramesLost
  repeat' first
    | with_reducible assumption
    | intro _
    | with_reducible apply fr_setEp
    | with_reducible apply fr_cmdLost
    | with_reducible apply fr_foldl

theorem fr_frameAcks (p : ℕ) (f : Frame) (fpl : fp.lam = true) (hfr : Fr fp s0 s1) : Fr fp s0 (State.frameAcks s1 p f) := by
  delta State.frameAcks
  repeat' first
    | with_reducible assumption
    | with_reducible apply fr_ethCredit
    | with_reducible apply fr_ethAck
    | with_reducible apply fr_failbackTry

theorem fr_sendNak (p : ℕ) (c : ℕ) (fpl : fp.lam = true) (hfr : Fr fp s0 s1) : Fr fp s0 (State.sendNak s1 p c) := by
  delta State.sendNak
  repeat' first
    | with_reducible assumption
    | with_reducible apply fr_emitFrame
    | with_reducible apply fr_il
    | with_reducible apply fr_setEp

theorem fr_policedMiss (f : Frame) (fpl : fp.lam = true) (hfr : Fr fp s0 s1) : Fr fp s0 (State.policedMiss s1 f) := by
  delta State.policedMiss
  repeat' first
    | with_reducible assumption
    | with_reducible apply fr_miss
    | split

theorem fr_police (p : ℕ) (c : ℕ) (f : Frame) (fpl : fp.lam = true) (hfr : Fr fp s0 s1) : Fr fp s0 (State.police s1 p c f).1 := by
  delta State.police
  repeat' first
    | with_reducible assumption
    | intro _
    | with_reducible apply fr_il
    | with_reducible apply fr_setEp
    | with_reducible apply fr_ite_fst

theorem fr_itemDown (p : ℕ) (y2 : Item) (fpi : fp.itu = true) (fpl : fp.lam = true) (fpd : fp.ddr = true) (fpn : fp.nor = true) (hfr : Fr fp s0 s1) : Fr fp s0 (State.itemDown s1 p y2) := by
  delta State.itemDown
  repeat' first
    | with_reducible assumption
    | intro _
    | with_reducible apply fr_fillRx
    | with_reducible apply fr_ldgBad
    | with_reducible apply fr_annRx
    | with_reducible apply fr_cmdRx
    | with_reducible apply fr_replyRx
    | with_reducible apply fr_after
    | split

theorem fr_itemUp (p : ℕ) (y2 : Item) (fpi : fp.itu = true) (fpl : fp.lam = true) (fpd : fp.ddr = true) (fpn : fp.nor = true) (hfr : Fr fp s0 s1) : Fr fp s0 (State.itemUp s1 p y2) := by
  delta State.itemUp
  repeat' first
    | with_reducible assumption
    | with_reducible apply fr_sumRx
    | with_reducible apply fr_cmdRx
    | with_reducible apply fr_recUp
    | split

theorem fr_itemRx (p : ℕ) (i : Item) (fpi : fp.itu = true) (fpl : fp.lam = true) (fpd : fp.ddr = true) (fpn : fp.nor = true) (hfr : Fr fp s0 s1) : Fr fp s0 (State.itemRx s1 p i) := by
  delta State.itemRx
  repeat' first
    | with_reducible assumption
    | with_reducible apply fr_cmdRx
    | with_reducible apply fr_itemDown
    | with_reducible apply fr_itemUp
    | split

theorem fr_frameTake (p : ℕ) (c : ℕ) (f : Frame) (fpi : fp.itu = true) (fpl : fp.lam = true) (fpd : fp.ddr = true) (fpn : fp.nor = true) (hfr : Fr fp s0 s1) : Fr fp s0 (State.frameTake s1 p c f) := by
  delta State.frameTake
  repeat' first
    | with_reducible assumption
    | intro _
    | with_reducible apply fr_setEp
    | with_reducible apply fr_policedMiss
    | with_reducible apply fr_freeFrames
    | with_reducible apply fr_police
    | with_reducible apply fr_itemRx
    | with_reducible apply fr_ite
    | with_reducible apply fr_foldl

theorem fr_frameRx (p : ℕ) (f : Frame) (fpi : fp.itu = true) (fpl : fp.lam = true) (fpd : fp.ddr = true) (fpn : fp.nor = true) (hfr : Fr fp s0 s1) : Fr fp s0 (State.frameRx s1 p f) := by
  delta State.frameRx
  repeat' first
    | with_reducible assumption
    | intro _
    | with_reducible apply fr_sendNak
    | with_reducible apply fr_setEp
    | with_reducible apply fr_frameTake
    | with_reducible apply fr_when
    | with_reducible apply fr_ite

theorem fr_restartRx (p : ℕ) (f : Frame) (fpl : fp.lam = true) (hfr : Fr fp s0 s1) : Fr fp s0 (State.restartRx s1 p f) := by
  delta State.restartRx
  repeat' first
    | with_reducible assumption
    | intro _
    | with_reducible apply fr_miss
    | with_reducible apply fr_setEp
    | with_reducible apply fr_cmdFramesLost
    | with_reducible apply fr_when
    | with_reducible apply fr_ite

theorem fr_execChildPortLoss (p : ℕ) (signal : Bool) (fpl : fp.lam = true) (hfr : Fr fp s0 s1) : FrO fp s0 (execChildPortLoss p signal s1) := by
  delta execChildPortLoss
  repeat' first
    | with_reducible assumption
    | intro _
    | with_reducible apply FrO.next
    | with_reducible apply fr_ldgChildLost
    | with_reducible apply fr_cmdFramesLost
    | with_reducible apply fr_portLost
    | with_reducible apply frO_ite

theorem fr_execEthFrameRx (p : ℕ) (f : Frame) (bad : Bool) (fpi : fp.itu = true) (fpl : fp.lam = true) (fpd : fp.ddr = true) (fpn : fp.nor = true) (hfr : Fr fp s0 s1) : FrO fp s0 (execEthFrameRx p f bad s1) := by
  delta execEthFrameRx
  repeat' first
    | with_reducible assumption
    | intro _
    | with_reducible apply FrO.next
    | with_reducible apply fr_frameRx
    | with_reducible apply fr_il
    | with_reducible apply fr_restartRx
    | with_reducible apply fr_execEthLinkFrameRx
    | with_reducible apply fr_frameAcks
    | split

end Sys2Proof.Machine
end

