-- ==== Sys2Proof/Laws/FrSched.lean ====
section
/-! SUPPORT. What each operation of Machine/Sched.lean can change, in the form of Laws/Frame.lean. -/

set_option linter.unusedTactic false
set_option linter.unreachableTactic false

namespace Sys2Proof.Machine

variable {fp : Parts} {s0 s1 : State}

theorem fr_admitLostItu (t : ℕ) (ended : ℕ) (fpi : fp.itu = true) (hfr : Fr fp s0 s1) : Fr fp s0 (State.admitLostItu s1 t ended) := by
  delta State.admitLostItu
  repeat' first
    | with_reducible assumption
    | (intro x; (first | refine fr_cut (fp := fp) (s0 := s0) x ?_ (fun hx => ?_) | refine fr_cut (fp := fp) (s0 := s0) x.1 ?_ (fun hx => ?_) | refine fr_cut (fp := fp) (s0 := s0) x.2 ?_ (fun hx => ?_)); on_goal 1 => dsimp -zeta -zetaHave only [x])
    | intro _
    | lift_lets
    | with_reducible apply fr_ituOffer
    | (with_reducible refine fr_mk (by with_reducible assumption) ?_ ?_) <;> first | exact .inl rfl | exact .inr ⟨by assumption, rfl⟩ | exact .inr ⟨by assumption, rfl, rfl, rfl, rfl, rfl, rfl⟩
    | split

theorem fr_admitLostLam (t : ℕ) (ended : ℕ) (fpl : fp.lam = true) (hfr : Fr fp s0 s1) : Fr fp s0 (State.admitLostLam s1 t ended) := by
  delta State.admitLostLam
  repeat' first
    | with_reducible assumption
    | (intro x; (first | refine fr_cut (fp := fp) (s0 := s0) x ?_ (fun hx => ?_) | refine fr_cut (fp := fp) (s0 := s0) x.1 ?_ (fun hx => ?_) | refine fr_cut (fp := fp) (s0 := s0) x.2 ?_ (fun hx => ?_)); on_goal 1 => dsimp -zeta -zetaHave only [x])
    | intro _
    | lift_lets
    | with_reducible apply fr_lamRec
    | (with_reducible refine fr_mk (by with_reducible assumption) ?_ ?_) <;> first | exact .inl rfl | exact .inr ⟨by assumption, rfl⟩ | exact .inr ⟨by assumption, rfl, rfl, rfl, rfl, rfl, rfl⟩
    | split

theorem fr_enactAt (n : ℕ) (fpi : fp.itu = true) (hfr : Fr fp s0 s1) : Fr fp s0 (State.enactAt s1 n) := by
  delta State.enactAt
  repeat' first
    | with_reducible assumption
    | intro _
    | with_reducible apply fr_enact
    | split

theorem fr_epochRetry (fpl : fp.lam = true) (hfr : Fr fp s0 s1) : Fr fp s0 (State.epochRetry s1) := by
  delta State.epochRetry
  repeat' first
    | with_reducible assumption
    | intro _
    | with_reducible apply fr_epochAsk
    | split

theorem fr_freeWords (n : ℕ) (hfr : Fr fp s0 s1) : Fr fp s0 (State.freeWords s1 n).2 := by
  delta State.freeWords
  repeat' first
    | (with_reducible refine fr_mk (by with_reducible assumption) ?_ ?_) <;> first | exact .inl rfl | exact .inr ⟨by assumption, rfl⟩ | exact .inr ⟨by assumption, rfl, rfl, rfl, rfl, rfl, rfl⟩

theorem fr_gatesRestart (t : ℕ) (fpl : fp.lam = true) (hfr : Fr fp s0 s1) : Fr fp s0 (State.gatesRestart s1 t) := by
  delta State.gatesRestart
  repeat' first
    | with_reducible assumption
    | intro _
    | with_reducible apply fr_setGate
    | with_reducible apply fr_foldl
    | split

theorem fr_mcItu (t : ℕ) (ended : ℕ) (fpi : fp.itu = true) (hfr : Fr fp s0 s1) : Fr fp s0 (State.mcItu s1 t ended) := by
  delta State.mcItu
  repeat' first
    | with_reducible assumption
    | intro _
    | with_reducible apply fr_hangCheckAll
    | with_reducible apply fr_admitLostItu
    | with_reducible apply fr_setSmp
    | with_reducible apply fr_setPwr
    | split

theorem fr_recLostMc (fpl : fp.lam = true) (hfr : Fr fp s0 s1) : Fr fp s0 (State.recLostMc s1) := by
  delta State.recLostMc
  repeat' first
    | with_reducible assumption
    | intro _
    | with_reducible apply fr_setRcd
    | with_reducible apply fr_recEvent
    | with_reducible apply fr_ite

theorem fr_pollReport (q : ℕ) (fpl : fp.lam = true) (hfr : Fr fp s0 s1) : Fr fp s0 (State.pollReport s1 q) := by
  delta State.pollReport
  repeat' first
    | with_reducible assumption
    | with_reducible apply fr_free
    | with_reducible apply fr_lamRec
    | with_reducible apply fr_freeWords

theorem fr_poll (q : ℕ) (ws : List ℕ) (fpl : fp.lam = true) (hfr : Fr fp s0 s1) : Fr fp s0 (State.poll s1 q ws) := by
  delta State.poll
  repeat' first
    | with_reducible assumption
    | intro _
    | with_reducible apply fr_setPort
    | with_reducible apply fr_setDet
    | with_reducible apply fr_countStep
    | with_reducible apply fr_pollReport
    | split

theorem fr_trayPolls (polls : List (ℕ × List ℕ)) (fpl : fp.lam = true) (hfr : Fr fp s0 s1) : Fr fp s0 (State.trayPolls s1 polls) := by
  delta State.trayPolls
  repeat' first
    | with_reducible assumption
    | intro _
    | with_reducible apply fr_poll
    | with_reducible apply fr_schedule
    | with_reducible apply fr_foldl
    | split

theorem fr_mcLam (t : ℕ) (ended : ℕ) (polls : List (ℕ × List ℕ)) (fpi : fp.itu = true) (fpl : fp.lam = true) (hfr : Fr fp s0 s1) : Fr fp s0 (State.mcLam s1 t ended polls) := by
  delta State.mcLam
  repeat' first
    | with_reducible assumption
    | intro _
    | with_reducible apply fr_ldgMc
    | with_reducible apply fr_crownAnnounce
    | with_reducible apply fr_statusPoll
    | with_reducible apply fr_epochRetry
    | with_reducible apply fr_crownConsClear
    | with_reducible apply fr_recLostMc
    | with_reducible apply fr_trayPolls
    | with_reducible apply fr_admitLostLam
    | with_reducible apply fr_boardDue
    | split

theorem fr_slotActs (sd : Sys2Proof.Side) (n : ℕ) (t : ℕ) (fpi : fp.itu = true) (fpl : fp.lam = true) (hfr : Fr fp s0 s1) : Fr fp s0 (State.slotActs s1 sd n t) := by
  delta State.slotActs
  repeat' first
    | with_reducible assumption
    | with_reducible apply fr_statOpen
    | with_reducible apply fr_stcBoundary
    | with_reducible apply fr_latchSlot
    | with_reducible apply fr_enactAt
    | with_reducible apply fr_gatesRestart
    | split

theorem fr_takeoverAbort (txn : ℕ) (fpi : fp.itu = true) (fpl : fp.lam = true) (fpd : fp.ddr = true) (fpn : fp.nor = true) (hfr : Fr fp s0 s1) : Fr fp s0 (State.takeoverAbort s1 txn) := by
  delta State.takeoverAbort
  repeat' first
    | with_reducible assumption
    | with_reducible apply fr_decideLam
    | with_reducible apply fr_txnAll

theorem fr_execMcStart (sd : Sys2Proof.Side) (polls : List (ℕ × List ℕ)) (fpi : fp.itu = true) (fpl : fp.lam = true) (hfr : Fr fp s0 s1) : FrO fp s0 (execMcStart sd polls s1) := by
  delta execMcStart
  repeat' first
    | with_reducible assumption
    | intro _
    | with_reducible apply FrO.next
    | with_reducible apply fr_mcLam
    | with_reducible apply fr_mcAdvance
    | with_reducible apply fr_mcItu
    | with_reducible apply fr_after
    | split

theorem fr_execCrownTakeover (fpi : fp.itu = true) (fpl : fp.lam = true) (fpd : fp.ddr = true) (fpn : fp.nor = true) (hfr : Fr fp s0 s1) : FrO fp s0 (execCrownTakeover s1) := by
  delta execCrownTakeover
  repeat' first
    | with_reducible assumption
    | intro _
    | with_reducible apply FrO.next
    | with_reducible apply fr_takeoverAbort
    | with_reducible apply fr_wl
    | with_reducible apply fr_foldl
    | (with_reducible refine fr_mk (by with_reducible assumption) ?_ ?_) <;> first | exact .inl rfl | exact .inr ⟨by assumption, rfl⟩ | exact .inr ⟨by assumption, rfl, rfl, rfl, rfl, rfl, rfl⟩
    | split

theorem fr_execRetiringBankRelease (fpi : fp.itu = true) (fpl : fp.lam = true) (fpd : fp.ddr = true) (fpn : fp.nor = true) (hfr : Fr fp s0 s1) : FrO fp s0 (execRetiringBankRelease s1) := by
  delta execRetiringBankRelease
  repeat' first
    | with_reducible assumption
    | intro _
    | with_reducible apply FrO.next
    | with_reducible apply fr_retryWaits
    | (with_reducible refine fr_mk (by with_reducible assumption) ?_ ?_) <;> first | exact .inl rfl | exact .inr ⟨by assumption, rfl⟩ | exact .inr ⟨by assumption, rfl, rfl, rfl, rfl, rfl, rfl⟩
    | split

theorem fr_execSlotBoundary (sd : Sys2Proof.Side) (fpi : fp.itu = true) (fpl : fp.lam = true) (hfr : Fr fp s0 s1) : FrO fp s0 (execSlotBoundary sd s1) := by
  delta execSlotBoundary
  repeat' first
    | with_reducible assumption
    | intro _
    | lift_lets
    | with_reducible apply FrO.next
    | with_reducible apply fr_setMains
    | with_reducible apply fr_slotActs
    | split

end Sys2Proof.Machine
end

