-- ==== Sys2Proof/Laws/Stitch.lean ====
section
/-! SUPPORT. Stitch contexts (17): what a read gives after a write, and what issuing an instruction is. -/

namespace Sys2Proof.Machine

theorem getD_setNth_self {α : Type} (d : α) (l : List α) (n : Nat) (v : α) : (setNth d l n v).getD n d = v := by
  induction n generalizing l with
  | zero => cases l <;> simp [setNth]
  | succ n ih => cases l <;> simpa [setNth] using ih _

theorem getD_setNth_ne {α : Type} (d : α) (l : List α) (n m : Nat) (v : α) (h : m ≠ n) :
    (setNth d l n v).getD m d = l.getD m d := by
  induction n generalizing l m with
  | zero => cases m <;> cases l <;> simp_all [setNth]
  | succ n ih =>
    cases m with
    | zero => cases l <;> simp [setNth]
    | succ m =>
      cases l with
      | nil => simpa [setNth] using ih [] m (by omega)
      | cons a l => simpa [setNth] using ih l m (by omega)

@[simp] theorem State.stc_setStc (s : State) (sd : Side) (v : Stc) : (s.setStc sd v).stc sd = v := by cases sd <;> rfl
@[simp] theorem State.stc_wx (s : State) (sd sd' : Side) (F G : Fld) (v i : Nat) : (s.wx sd F G v i).stc sd' = s.stc sd' := by
  cases sd <;> cases sd' <;> rfl
@[simp] theorem State.stc_ix (s : State) (sd sd' : Side) (F G : Fld) (i : Nat) : (s.ix sd F G i).stc sd' = s.stc sd' := by
  cases sd <;> cases sd' <;> rfl
@[simp] theorem State.rx_setStc (s : State) (sd sd' : Side) (F G : Fld) (v : Stc) (i : Nat) :
    (s.setStc sd v).rx sd' F G i = s.rx sd' F G i := by cases sd <;> cases sd' <;> rfl
@[simp] theorem State.now_setStc (s : State) (sd sd' : Side) (v : Stc) : (s.setStc sd v).now sd' = s.now sd' := by
  cases sd <;> cases sd' <;> rfl
@[simp] theorem State.now_wx (s : State) (sd sd' : Side) (F G : Fld) (v i : Nat) : (s.wx sd F G v i).now sd' = s.now sd' := by
  cases sd <;> cases sd' <;> rfl
@[simp] theorem State.now_ix (s : State) (sd sd' : Side) (F G : Fld) (i : Nat) : (s.ix sd F G i).now sd' = s.now sd' := by
  cases sd <;> cases sd' <;> rfl

@[simp] theorem State.ctx_setCtx (s : State) (sd : Side) (c : Nat) (v : StcCtx) : (s.setCtx sd c v).ctx sd c = v := by
  unfold State.ctx State.setCtx; rw [State.stc_setStc]; exact getD_setNth_self ..
theorem State.ctx_setCtx_ne (s : State) (sd : Side) (c k : Nat) (v : StcCtx) (h : k ≠ c) :
    (s.setCtx sd c v).ctx sd k = s.ctx sd k := by
  unfold State.ctx State.setCtx; rw [State.stc_setStc]; exact getD_setNth_ne _ _ _ _ _ h
@[simp] theorem State.ctx_wx (s : State) (sd sd' : Side) (F G : Fld) (v i c : Nat) : (s.wx sd F G v i).ctx sd' c = s.ctx sd' c := by
  simp [State.ctx]
@[simp] theorem State.ctx_ix (s : State) (sd sd' : Side) (F G : Fld) (i c : Nat) : (s.ix sd F G i).ctx sd' c = s.ctx sd' c := by
  simp [State.ctx]
@[simp] theorem State.rx_setCtx (s : State) (sd sd' : Side) (F G : Fld) (c : Nat) (v : StcCtx) (i : Nat) :
    (s.setCtx sd c v).rx sd' F G i = s.rx sd' F G i := by simp [State.setCtx]
@[simp] theorem State.now_setCtx (s : State) (sd sd' : Side) (c : Nat) (v : StcCtx) : (s.setCtx sd c v).now sd' = s.now sd' := by
  simp [State.setCtx]

/-- A field of a part just written. -/
@[simp] theorem State.rx_wx_self (s : State) (sd : Side) (F G : Fld) (v i : Nat) :
    (s.wx sd F G v i).rx sd F G i = v % 2 ^ (match sd with | .itu => F | .lam => G).width := by
  cases sd <;> simp [State.rx, State.wx, State.ri, State.wi, State.rl, State.wl]

/-- A field whose key is another is left. -/
theorem State.rx_wx_ne (s : State) (sd : Side) (F G F' G' : Fld) (v i i' : Nat) (h : F'.key i' 0 ≠ F.key i 0) (h' : G'.key i' 0 ≠ G.key i 0) :
    (s.wx sd F G v i).rx sd F' G' i' = s.rx sd F' G' i' := by
  cases sd
  · exact Regs.rd_wr_ne _ _ _ _ _ _ _ _ h
  · exact Regs.rd_wr_ne _ _ _ _ _ _ _ _ h'

/-- The same of a counter. -/
theorem State.rx_ix_ne (s : State) (sd : Side) (F G F' G' : Fld) (i i' : Nat) (h : F'.key i' 0 ≠ F.key i 0) (h' : G'.key i' 0 ≠ G.key i 0) :
    (s.ix sd F G i).rx sd F' G' i' = s.rx sd F' G' i' := by
  cases sd
  · exact Regs.rd_inc_ne _ _ _ _ _ _ _ _ h
  · exact Regs.rd_inc_ne _ _ _ _ _ _ _ _ h'

/-- The context of an issued instruction: one more spent, the PC past the word. -/
@[simp] theorem State.ctx_issued (s : State) (sd : Side) (c : Nat) :
    (s.issued sd c).ctx sd c = { s.ctx sd c with spent := (s.ctx sd c).spent + 1, pc := (s.ctx sd c).pc + 1 } := by
  simp [State.issued, State.setPc]
@[simp] theorem State.now_issued (s : State) (sd sd' : Side) (c : Nat) : (s.issued sd c).now sd' = s.now sd' := by
  simp [State.issued, State.setPc]

/-- What a context that stands before an instruction does: its effect on the issued state, and the context goes on. -/
theorem State.stcIssue_of_issues (s : State) (sd : Side) (c op w : Nat) (f : Nat → State → State) (h : s.Issues sd c op w) :
    s.stcIssue sd c op f = (f w (s.issued sd c)).stcGoOn sd c := by
  obtain ⟨h1, h2, h3, h4⟩ := h
  subst h2
  simp [State.stcIssue, h1, h3, h4, State.issued]

/-- The three ways in which a row does not have its effect. -/
theorem State.stcIssue_not_ready (s : State) (sd : Side) (c op : Nat) (f : Nat → State → State) (h : s.stcReady sd c = false) :
    s.stcIssue sd c op f = s := by simp [State.stcIssue, h]
theorem State.stcIssue_bad_word (s : State) (sd : Side) (c op : Nat) (f : Nat → State → State) (h : s.stcReady sd c = true)
    (hw : stcWordOk sd (s.stcWord sd c) = false) : s.stcIssue sd c op f = s.stcFault sd c 3 (s.stcWord sd c) := by
  simp [State.stcIssue, h, hw]
theorem State.stcIssue_other (s : State) (sd : Side) (c op : Nat) (f : Nat → State → State) (h : iOp (s.stcWord sd c) ≠ op)
    (hw : stcWordOk sd (s.stcWord sd c) = true) : s.stcIssue sd c op f = s := by
  by_cases hr : s.stcReady sd c = true <;> simp_all [State.stcIssue]

/-- A context that is not in RUN does not go on. -/
theorem State.stcGoOn_of_not_run (s : State) (sd : Side) (c : Nat) (h : s.ctxState sd c ≠ 1) : s.stcGoOn sd c = s := by
  simp [State.stcGoOn, h]

/-- Registers of a context: x0 reads as zero and discards (R404). -/
@[simp] theorem StcCtx.reg_zero (k : StcCtx) : k.reg 0 = 0 := rfl
@[simp] theorem State.setX_zero (s : State) (sd : Side) (c v : Nat) : s.setX sd c 0 v = s := rfl
theorem State.ctx_setX (s : State) (sd : Side) (c n v : Nat) (h : n ≠ 0) :
    (s.setX sd c n v).ctx sd c = { s.ctx sd c with x := setNth 0 (s.ctx sd c).x n (v % 2 ^ 64) } := by simp [State.setX, h]
theorem State.reg_setX (s : State) (sd : Side) (c n v : Nat) (h : n ≠ 0) : ((s.setX sd c n v).ctx sd c).reg n = v % 2 ^ 64 := by
  rw [State.ctx_setX s sd c n v h]; unfold StcCtx.reg nth; rw [if_neg h]; exact getD_setNth_self ..

end Sys2Proof.Machine
end

section
/-! PROOFS. Accesses outside their authority (R4): when the access test refuses, what it records, and that the row of a
refused access has no effect beyond the test's own. -/

namespace Sys2Proof.Machine

/-! What a refused access leaves behind. -/

/-- t is s but for the fields Fs of the ITU's register file, each at index 0. -/
def ItuDiffersAt (Fs : List Fld) (s t : State) : Prop :=
  ∃ r, t = { s with itu := { s.itu with regs := r } } ∧
    ∀ k, k ∉ Fs.map (fun F => F.key 0 0) → Sparse.get 0 r k = Sparse.get 0 s.itu.regs k

/-- t is s but for the fields Fs of the Lamulo's register file, each at index 0. -/
def LamDiffersAt (Fs : List Fld) (s t : State) : Prop :=
  ∃ r, t = { s with lam := { s.lam with regs := r } } ∧
    ∀ k, k ∉ Fs.map (fun F => F.key 0 0) → Sparse.get 0 r k = Sparse.get 0 s.lam.regs k

section Differs
variable {Fs : List Fld} {F : Fld} {s t : State}

/-- A write to a field leaves every key outside a list that holds the field. -/
theorem Regs.get_wr_notMem (hF : F ∈ Fs) (r : Regs) (v : Nat) {k : Nat} (hk : k ∉ Fs.map (fun F => F.key 0 0)) :
    Sparse.get 0 (r.wr F v 0 0) k = Sparse.get 0 r k :=
  Regs.get_wr_ne r F v 0 0 k fun e => hk (e ▸ List.mem_map_of_mem hF)

theorem ItuDiffersAt.refl (Fs : List Fld) (s : State) : ItuDiffersAt Fs s s := ⟨s.itu.regs, rfl, fun _ _ => rfl⟩

theorem ItuDiffersAt.wi (h : ItuDiffersAt Fs s t) (hF : F ∈ Fs) (v : Nat) : ItuDiffersAt Fs s (t.wi F v) := by
  obtain ⟨r, rfl, hr⟩ := h
  exact ⟨r.wr F v 0 0, rfl, fun k hk => (Regs.get_wr_notMem hF r v hk).trans (hr k hk)⟩

theorem ItuDiffersAt.ii (h : ItuDiffersAt Fs s t) (hF : F ∈ Fs) : ItuDiffersAt Fs s (t.ii F) := h.wi hF _

theorem LamDiffersAt.refl (Fs : List Fld) (s : State) : LamDiffersAt Fs s s := ⟨s.lam.regs, rfl, fun _ _ => rfl⟩

theorem LamDiffersAt.wl (h : LamDiffersAt Fs s t) (hF : F ∈ Fs) (v : Nat) : LamDiffersAt Fs s (t.wl F v) := by
  obtain ⟨r, rfl, hr⟩ := h
  exact ⟨r.wr F v 0 0, rfl, fun k hk => (Regs.get_wr_notMem hF r v hk).trans (hr k hk)⟩

theorem LamDiffersAt.il (h : LamDiffersAt Fs s t) (hF : F ∈ Fs) : LamDiffersAt Fs s (t.il F) := h.wl hF _

end Differs

/-- The ITU records an access without authority in its privileged counters and nowhere else (R4, R402). -/
theorem ituDiffersAt_ituPriv (iss : Issuer) (a : Nat) (w : Bool) (s : State) :
    ItuDiffersAt [I.PRIV_CNT_PART, I.PRIV_CNT_TRAY, I.PRIV_CNT_FLEET, I.PRIV_LAST_ADDR, I.PRIV_LAST_PART, I.PRIV_LAST_LEVEL,
      I.PRIV_LAST_WRITE] s (s.ituPriv iss a w) := by
  refine (((ItuDiffersAt.wi ?count ?_ _).wi ?_ _).wi ?_ _).wi ?_ _
  case count =>
    cases iss.auth with
    | partition => exact (ItuDiffersAt.refl _ s).ii (by simp)
    | tray => exact (ItuDiffersAt.refl _ s).ii (by simp)
    | fleet => exact (ItuDiffersAt.refl _ s).ii (by simp)
  all_goals simp

/-- The Lamulo records an access without authority in its privileged counters and nowhere else (R4, R401). -/
theorem lamDiffersAt_lamPriv (au : Auth) (a : Nat) (w : Bool) (s : State) :
    LamDiffersAt [L.PRIV_CNT_TRAY, L.PRIV_CNT_FLEET, L.PRIV_LAST_ADDR, L.PRIV_LAST_LEVEL, L.PRIV_LAST_WRITE] s
      (s.lamPriv au a w) := by
  refine ((LamDiffersAt.wl ?count ?_ _).wl ?_ _).wl ?_ _
  case count =>
    cases au with
    | partition => exact (LamDiffersAt.refl _ s).il (by simp)
    | tray => exact (LamDiffersAt.refl _ s).il (by simp)
    | fleet => exact (LamDiffersAt.refl _ s).il (by simp)
  all_goals simp

/-! When the access test refuses for want of authority. -/

section Guard
variable {s : State} {iss : Issuer} {a f : Nat} {w : Bool}

/-- The ITU refuses an issuer below the level that the block or the field asks (R4, R92). -/
theorem refused_itu_of_level (h : authLvl iss.auth < if w then (if f = 0 then (ituBlock a).2.1 else f) else (ituBlock a).1) :
    Refused s .itu iss a w f (s.ituPriv iss a w) := by
  simp [Refused, State.guard, State.ituGuard, h]

/-- The ITU refuses a partition at the registers of another partition (R92). -/
theorem refused_itu_of_other_partition {p : Nat} (hau : iss.auth = .partition) (hp : ituOwnPart a = some p) (hne : iss.part ≠ p) :
    Refused s .itu iss a w f (s.ituPriv iss a w) := by
  simp [Refused, State.guard, State.ituGuard, hau, hp, hne]

/-- The Lamulo refuses an issuer below the level that the field, or the read of a privileged counter, asks (R4, R401). -/
theorem refused_lam_of_level
    (h : authLvl iss.auth < if w = false ∧ 0x1200C0 ≤ a ∧ a ≤ 0x1200C8 then 3 else if w = true ∧ f ≠ 0 then f else 2) :
    Refused s .lam iss a w f (s.lamPriv iss.auth a w) := by
  cases w with
  | false => simp_all [Refused, State.guard, State.lamGuard]
  | true => by_cases hf : f = 0 <;> simp_all [Refused, State.guard, State.lamGuard]

/-- Where the digest belongs to another partition, not in its Cuff, a partition's write is refused (R302, R314). -/
theorem digGuard_of_other_partition (hau : iss.auth = .partition) (hp : iss.part ≠ s.ri I.DIG_CFG_PART)
    (hc : s.ri I.PART_STAT_CUFF iss.part = 0) (a : Nat) : s.digGuard iss a = (s.ituPriv iss a true, false) :=
  if_pos ⟨hau, hp, hc⟩

end Guard

/-! What a row does whose access is refused. -/

section Rows
variable {s t : State} {sd : Side} {iss : Issuer} {a f : Nat} {w b : Bool} {o : Out}

theorem Refused.fst (h : Refused s sd iss a w f t) : (s.guard sd iss a w f).1 = t := congrArg Prod.fst h
theorem Refused.snd (h : Refused s sd iss a w f t) : (s.guard sd iss a w f).2 = false := congrArg Prod.snd h

/-- A row that acts only after its access test leaves what the test left. -/
theorem Refused.ite (h : Refused s sd iss a w f t) :
    (if (s.guard sd iss a w f).2 then o else .next (s.guard sd iss a w f).1) = .next t := by
  simp [h.fst, h.snd]

/-- The same of a row that asks more than the access test. -/
theorem Refused.ite_and (h : Refused s sd iss a w f t) :
    (if (s.guard sd iss a w f).2 && b then o else .next (s.guard sd iss a w f).1) = .next t := by
  simp [h.fst, h.snd]

/-- A read that is refused answers zero. -/
theorem Refused.ite_read (h : Refused s sd iss a w f t) :
    (if (s.guard sd iss a w f).2 then o else .next { (s.guard sd iss a w f).1 with rdata := [0] }) =
      .next { t with rdata := [0] } := by
  simp [h.fst, h.snd]

/-- The same of a read that asks more than the access test. -/
theorem Refused.ite_read_and (h : Refused s sd iss a w f t) :
    (if (s.guard sd iss a w f).2 && b then o else .next { (s.guard sd iss a w f).1 with rdata := [0] }) =
      .next { t with rdata := [0] } := by
  simp [h.fst, h.snd]

/-- A word whose read is refused reads zero. -/
theorem Refused.readWord (h : Refused s sd iss a false 0 t) : s.readWord sd iss a = (0, t) := by
  simp [State.readWord, h.fst, h.snd]

/-- A word whose write is refused is left, where it is no word that the partition of DIG_CFG.PART may write (R302, R314). -/
theorem Refused.writeWord (h : Refused s sd iss a true (s.wordAuth sd a) t) (hd : sd = .itu → digOwn a = false) (d m : Nat) :
    s.writeWord sd iss a d m = t := by
  have hg : ¬ (sd = .itu ∧ digOwn a = true) := by
    rintro ⟨rfl, hown⟩
    simp [hd rfl] at hown
  simp [State.writeWord, hg, h.fst, h.snd]

/-- A refused write of a Lamulo word does not let the command ring go on. -/
theorem Refused.writeServe (h : Refused s .lam iss a true (s.wordAuth .lam a) t) (d m : Nat) : s.writeServe iss a d m = t := by
  simp [State.writeServe, h.snd, h.writeWord]

theorem exec_registerRead_of_refused (h : Refused s sd iss (a / 4 * 4) false 0 t) :
    exec (.registerRead sd iss a) s = .next { t with rdata := [0] } := by
  simp [exec, execRegisterRead, h.readWord]

theorem exec_registerWrite_of_refused (hd : sd = .itu → digOwn (a / 4 * 4) = false) (d m : Nat)
    (h : Refused s sd iss (a / 4 * 4) true (s.wordAuth sd (a / 4 * 4)) t) : exec (.registerWrite sd iss a d m) s = .next t := by
  cases sd with
  | itu => exact congrArg Host.Outcome.next (h.writeWord hd _ _)
  | lam => exact congrArg Host.Outcome.next (h.writeServe _ _)

theorem exec_counterSelectWrite_of_refused {i v : Nat} (hi : i < 4096) (h : Refused s .itu iss (0x1000 + 4 * i) true 0 t) :
    exec (.counterSelectWrite iss i v) s = .next t :=
  (if_neg (Nat.not_le.mpr hi)).trans h.ite

theorem exec_digStepWrite_of_other_partition (hau : iss.auth = .partition) (hp : iss.part ≠ s.ri I.DIG_CFG_PART)
    (hc : s.ri I.PART_STAT_CUFF iss.part = 0) (v : Nat) :
    exec (.digStepWrite iss v) s = .next (s.ituPriv iss I.DIG_STEP.addr true) := by
  simp [exec, execDigStepWrite, digGuard_of_other_partition hau hp hc]

theorem exec_digUnstableWrite_of_other_partition (hau : iss.auth = .partition) (hp : iss.part ≠ s.ri I.DIG_CFG_PART)
    (hc : s.ri I.PART_STAT_CUFF iss.part = 0) :
    exec (.digUnstableWrite iss) s = .next (s.ituPriv iss I.DIG_UNSTABLE.addr true) := by
  simp [exec, execDigUnstableWrite, digGuard_of_other_partition hau hp hc]

end Rows

/-- The rows of a list, each with the byte offset and the authority that its access test is given, leave what the test
leaves where it refuses. -/
def RowsStop (s t : State) (sd : Side) (iss : Issuer) (l : List (Instr × Nat × Nat)) : Prop :=
  ∀ c a f, (c, a, f) ∈ l → Refused s sd iss a true f t → exec c s = .next t

section RowLists
variable {s t : State} {sd : Side} {iss : Issuer} {c : Instr} {a f : Nat} {l : List (Instr × Nat × Nat)}

theorem RowsStop.nil : RowsStop s t sd iss [] := fun _ _ _ hmem => absurd hmem List.not_mem_nil

theorem RowsStop.cons (hrow : Refused s sd iss a true f t → exec c s = .next t) (hl : RowsStop s t sd iss l) :
    RowsStop s t sd iss ((c, a, f) :: l) := by
  intro c' a' f' hmem
  rcases List.mem_cons.mp hmem with heq | hmem
  · cases heq; exact hrow
  · exact hl c' a' f' hmem

end RowLists

/-- Settles O4: the access tests refuse and record as R4 says, and every row asks its test first. -/
theorem accessOutsideAuthorityHasNoEffect : Obligations.AccessOutsideAuthorityHasNoEffect := by
  refine ⟨?ituLevel, ?lamLevel, ituDiffersAt_ituPriv, lamDiffersAt_lamPriv, ?wordRead, ?cmdqTail, ?counterRead, ?visorRead,
    ?slotRead, ?wordWrite, ?digest, ?ituRows, ?lamRows⟩
  case ituLevel =>
    rintro iss w f a s (h | ⟨hau, p, hp, hne⟩)
    · exact refused_itu_of_level h
    · exact refused_itu_of_other_partition hau hp hne
  case lamLevel => exact fun iss w f a s h => refused_lam_of_level h
  case wordRead => exact fun sd iss a s t h => exec_registerRead_of_refused h
  case cmdqTail => exact fun iss v s t h => congrArg Host.Outcome.next (h.writeServe _ _)
  case counterRead => exact fun iss s t h => h.ite_read
  case visorRead => exact fun iss s t h => h.ite_read
  case slotRead => exact fun sd iss n s t h => h.ite_read_and
  case wordWrite => exact fun sd iss a d b s t hd h => exec_registerWrite_of_refused hd d b h
  case digest =>
    exact fun iss s hau hp hc =>
      ⟨exec_digStepWrite_of_other_partition hau hp hc, exec_digUnstableWrite_of_other_partition hau hp hc⟩
  case ituRows =>
    intro iss v b w p s t
    show RowsStop s t .itu iss _
    exact
      -- domains, function enables, counters
      .cons Refused.ite <| .cons Refused.ite <| .cons Refused.ite <| .cons Refused.ite <|
      .cons (exec_counterSelectWrite_of_refused (Nat.mod_lt _ (by decide))) <|
      -- visor, row, partition and trace units
      .cons Refused.ite <| .cons Refused.ite <| .cons Refused.ite <| .cons Refused.ite <| .cons Refused.ite <|
      .cons Refused.ite <| .cons Refused.ite <| .cons Refused.ite <|
      -- link, digest, gauntlet and ledger units
      .cons Refused.ite <| .cons Refused.ite <| .cons Refused.ite <| .cons Refused.ite <|
      -- time and stitch control
      .cons Refused.ite <| .cons Refused.ite <| .cons Refused.ite <| .cons Refused.ite <|
      -- slots and CRC units, which also test the unit's number
      .cons Refused.ite_and <| .cons Refused.ite_and <| .cons Refused.ite_and <|
      .nil
  case lamRows =>
    intro iss v b p x y s t
    show RowsStop s t .lam iss _
    exact
      -- time, mains and trackers
      .cons Refused.ite <| .cons Refused.ite <| .cons Refused.ite <| .cons Refused.ite <| .cons Refused.ite <|
      -- link ports, which also test the port
      .cons Refused.ite_and <| .cons Refused.ite_and <|
      -- forest and stitch control
      .cons Refused.ite <| .cons Refused.ite <| .cons Refused.ite <| .cons Refused.ite <|
      -- slots and CRC units, which also test the unit's number
      .cons Refused.ite_and <| .cons Refused.ite_and <| .cons Refused.ite_and <|
      -- compression and recorder
      .cons Refused.ite <| .cons Refused.ite_and <| .cons Refused.ite_and <| .cons Refused.ite <| .cons Refused.ite <|
      -- domains, DDR, position, boot and keys
      .cons Refused.ite <| .cons Refused.ite <| .cons Refused.ite <| .cons Refused.ite <| .cons Refused.ite <|
      .cons Refused.ite <|
      .nil

end Sys2Proof.Machine
end

section
/-! PROOFS. The wait for fleet time (R411): what WAITT does in each order of target and local time, and when a waiting
context is released. -/

namespace Sys2Proof.Machine

/-- Context c waits for local time t: it is in WAITT. -/
def State.waitTime (s : State) (sd : Side) (c t : Nat) : State :=
  (s.setCtx sd c { s.ctx sd c with wait := .time t, since := s.now sd }).setCtxState sd c 3

/-- The local clock of a part is replaced alone: its count is the new one, and the stitch contexts are left. -/
@[simp] theorem State.now_setClk (s : State) (sd : Side) (k : Clock) : (s.setClk sd k).now sd = k.ns := by cases sd <;> rfl
@[simp] theorem State.ctx_setClk (s : State) (sd sd' : Side) (k : Clock) (c : Nat) :
    (s.setClk sd k).ctx sd' c = s.ctx sd' c := by cases sd <;> cases sd' <;> rfl

/-- STC_CTX_STAT.STATE is three bits wide in either part. -/
@[simp] theorem State.ctxState_setCtxState (s : State) (sd : Side) (c v : Nat) :
    (s.setCtxState sd c v).ctxState sd c = v % 8 := by
  cases sd <;> exact State.rx_wx_self ..

/-- A context that waits for a time does not go on. -/
@[simp] theorem State.stcGoOn_waitTime (s : State) (sd : Side) (c t : Nat) :
    (s.waitTime sd c t).stcGoOn sd c = s.waitTime sd c t :=
  State.stcGoOn_of_not_run _ _ _ (by simp [State.waitTime])

/-- The issue of an instruction leaves the registers of its context. -/
theorem State.reg_issued (s : State) (sd : Side) (c n : Nat) :
    ((s.issued sd c).ctx sd c).reg n = (s.ctx sd c).reg n := by
  rw [State.ctx_issued]; rfl

section Waitt
variable {s : State} {sd : Side} {c w t : Nat}

/-- WAITT compares the target that xA held with the local time, both as they stood before the issue. -/
theorem exec_waitt_of_issues (h : s.Issues sd c 0x25 w) (ht : t = (s.ctx sd c).reg (iA w)) :
    exec (.waitt sd c) s = .next
      ((if t < s.now sd then (s.issued sd c).setLast sd c 5
        else if s.now sd + 1000000000 < t then (s.issued sd c).setLast sd c 4
        else if t = s.now sd then (s.issued sd c).setLast sd c 0
        else (s.issued sd c).waitTime sd c t).stcGoOn sd c) := by
  subst ht
  change execWaitt sd c s = _
  simp only [execWaitt, State.stcIssue_of_issues _ _ _ _ _ _ h, State.reg_issued, State.now_issued, State.waitTime]

theorem exec_waitt_of_passed (h : s.Issues sd c 0x25 w) (ht : t = (s.ctx sd c).reg (iA w)) (hlt : t < s.now sd) :
    exec (.waitt sd c) s = .next (((s.issued sd c).setLast sd c 5).stcGoOn sd c) := by
  rw [exec_waitt_of_issues h ht, if_pos hlt]

theorem exec_waitt_of_too_far (h : s.Issues sd c 0x25 w) (ht : t = (s.ctx sd c).reg (iA w))
    (hfar : s.now sd + 1000000000 < t) :
    exec (.waitt sd c) s = .next (((s.issued sd c).setLast sd c 4).stcGoOn sd c) := by
  have hle : ¬ t < s.now sd := by omega
  rw [exec_waitt_of_issues h ht, if_neg hle, if_pos hfar]

theorem exec_waitt_of_reached (h : s.Issues sd c 0x25 w) (ht : t = (s.ctx sd c).reg (iA w)) (hnow : t = s.now sd) :
    exec (.waitt sd c) s = .next (((s.issued sd c).setLast sd c 0).stcGoOn sd c) := by
  have hle : ¬ t < s.now sd := by omega
  have hnear : ¬ s.now sd + 1000000000 < t := by omega
  rw [exec_waitt_of_issues h ht, if_neg hle, if_neg hnear, if_pos hnow]

theorem exec_waitt_of_ahead (h : s.Issues sd c 0x25 w) (ht : t = (s.ctx sd c).reg (iA w)) (hlt : s.now sd < t)
    (hnear : t ≤ s.now sd + 1000000000) : exec (.waitt sd c) s = .next ((s.issued sd c).waitTime sd c t) := by
  rw [exec_waitt_of_issues h ht, if_neg hlt.not_gt, if_neg hnear.not_gt, if_neg hlt.ne', State.stcGoOn_waitTime]

/-- WAITT_RELEASE of a context that waits for time t looks at the local time alone. -/
theorem exec_waittRelease_of_time (hw : (s.ctx sd c).wait = .time t) :
    exec (.waittRelease sd c) s = if t ≤ s.now sd then .next ((s.setLast sd c 0).stcResume sd c) else .next s := by
  simp [exec, execWaittRelease, hw]

end Waitt

/-- Settles O6: the branches of WAITT by the order of target and local time, those of its release, and that a new clock
gives the time but leaves the wait (R48). -/
theorem waitForFleetTime : Obligations.WaitForFleetTime := by
  refine ⟨?late, ?tooFar, ?reached, ?ahead, ?release, ?early, ?clock⟩
  case late => exact fun sd c s w t h ht => exec_waitt_of_passed h ht
  case tooFar => exact fun sd c s w t h ht => exec_waitt_of_too_far h ht
  case reached => exact fun sd c s w t h ht => exec_waitt_of_reached h ht
  case ahead =>
    intro sd c s w t h ht hlt hnear
    rw [exec_waitt_of_ahead h ht hlt hnear, State.waitTime, State.now_issued]
  case release => exact fun sd c s t hw hle => (exec_waittRelease_of_time hw).trans (if_pos hle)
  case early => exact fun sd c s t hw hlt => (exec_waittRelease_of_time hw).trans (if_neg hlt.not_ge)
  case clock => exact fun sd c k s => ⟨s.now_setClk sd k, s.ctx_setClk sd sd k c⟩

end Sys2Proof.Machine
end

section
/-! PROOFS. What a row can change, in the form of Laws/Frame.lean: the parts are those of the rows' own classes
(ituRow, lamRow, ddrRow, norRow), and the level of POR_N for the two rows that are its edges. -/

namespace Sys2Proof.Machine

/-- The rows that are the two edges of POR_N (R448, R453). -/
def porRow : Instr → Bool
  | .porNRise .. | .porNAssert => true
  | _ => false

/-- The parts of the block that a row may change. -/
def rowParts (c : Instr) : Parts :=
  { itu := !lamRow c, lam := !ituRow c, ddr := ddrRow c, nor := norRow c, por := porRow c }

/-- Every row keeps to its parts: one case per arm of exec, each by the law of the arm's meaning. -/
theorem frO_exec {s0 s1 : State} (c : Instr) (h : Fr (rowParts c) s0 s1) : FrO (rowParts c) s0 (exec c s1) := by
  cases c with
  | registerWrite => exact fr_execRegisterWrite _ _ _ _ _ rfl rfl rfl rfl h
  | slotBoundary => exact fr_execSlotBoundary _ rfl rfl h
  | mcStart => exact fr_execMcStart _ _ rfl rfl h
  | timeIncrHiWrite => exact fr_execTimeIncrHiWrite _ _ _ rfl rfl h
  | timeCtlEnableWrite => exact fr_execTimeCtlEnableWrite _ _ _ rfl rfl h
  | timeCtlRearm => exact fr_execTimeCtlRearm _ _ rfl rfl h
  | sourceLost => exact fr_execSourceLost _ rfl rfl h
  | holdoverDegraded => exact fr_execHoldoverDegraded _ rfl rfl h
  | ptpMessageRx => exact fr_execPtpMessageRx _ _ rfl rfl h
  | ptpSyncTx => exact fr_execPtpSyncTx _ _ _ rfl h
  | ptpDelayReqTx => exact fr_execPtpDelayReqTx _ _ _ rfl h
  | portSettleEnd => exact fr_execPortSettleEnd _ rfl h
  | mzcEdge => exact fr_execMzcEdge _ rfl rfl h
  | annLost => exact fr_execAnnLost _ rfl rfl h
  | conservativeEntry => exact fr_execConservativeEntry _ rfl rfl h
  | mainsCtlEnableWrite => exact fr_execMainsCtlEnableWrite _ _ rfl rfl h
  | ituPdCtlWrite => exact fr_execItuPdCtlWrite _ _ rfl rfl h
  | pdSwAck => exact fr_execPdSwAck _ _ rfl h
  | pdSwAckTimeout => exact fr_execPdSwAckTimeout _ rfl h
  | ituFnEnWrite => exact fr_execItuFnEnWrite _ _ rfl rfl h
  | pwrMeasPulse => exact fr_execPwrMeasPulse _ _ rfl h
  | ituClkMeasure => exact fr_execItuClkMeasure _ rfl h
  | barrierEvent => exact fr_execBarrierEvent _ _ _ rfl h
  | barEntryTimeout => exact fr_execBarEntryTimeout _ _ rfl h
  | memResponse => exact fr_execMemResponse _ _ _ _ _ rfl h
  | memTimeout => exact fr_execMemTimeout _ rfl h
  | rowResponse => exact fr_execRowResponse _ _ rfl h
  | qscanDescriptor => exact fr_execQscanDescriptor _ _ rfl h
  | canaryOutputBeat => exact fr_execCanaryOutputBeat _ _ rfl h
  | srAck => exact fr_execSrAck _ rfl h
  | quiesceAck => exact fr_execQuiesceAck _ rfl h
  | quiesceTimeout => exact fr_execQuiesceTimeout _ rfl h
  | partRstDone => exact fr_execPartRstDone _ rfl rfl h
  | resetTimeout => exact fr_execResetTimeout _ rfl rfl h
  | counterSelectWrite => exact fr_execCounterSelectWrite _ _ _ rfl h
  | smpCtlClear => exact fr_execSmpCtlClear _ rfl h
  | smpCtlRunWrite => exact fr_execSmpCtlRunWrite _ _ rfl h
  | recordHandover => exact fr_execRecordHandover _ rfl h
  | smpRdLoRead => exact fr_execSmpRdLoRead _ rfl h
  | virtualHeadArrival => exact fr_execVirtualHeadArrival _ _ rfl rfl h
  | trkSnapCmdWrite => exact fr_execTrkSnapCmdWrite _ _ rfl h
  | trkAssign => exact fr_execTrkAssign _ _ _ _ _ rfl rfl h
  | visCtlTrig => exact fr_execVisCtlTrig _ _ rfl h
  | visorSnap => exact fr_execVisorSnap _ _ _ _ rfl h
  | visCtlRelease => exact fr_execVisCtlRelease _ rfl h
  | visRdData0Read => exact fr_execVisRdData0Read _ rfl h
  | rowCtlTrig => exact fr_execRowCtlTrig _ _ rfl h
  | rowSample => exact fr_execRowSample _ _ _ _ _ rfl h
  | tracePacketCapture => exact fr_execTracePacketCapture _ _ _ rfl h
  | traceChunkWrite => exact fr_execTraceChunkWrite _ _ rfl h
  | trcPctlFlush => exact fr_execTrcPctlFlush _ _ rfl h
  | trcPctlEnWrite => exact fr_execTrcPctlEnWrite _ _ _ rfl h
  | trcMarkWrite => exact fr_execTrcMarkWrite _ _ _ rfl h
  | partCtlReset => exact fr_execPartCtlReset _ _ rfl h
  | partReset => exact fr_execPartReset _ _ rfl h
  | resetTriggerRelease => exact fr_execResetTriggerRelease _ rfl h
  | captureEnd => exact fr_execCaptureEnd _ rfl h
  | captureTimeout => exact fr_execCaptureTimeout _ rfl h
  | generationAdvance => exact fr_execGenerationAdvance _ rfl rfl h
  | prevGenRelease => exact fr_execPrevGenRelease _ _ rfl h
  | partCtlAdvAll => exact fr_execPartCtlAdvAll _ rfl rfl h
  | rejoinStep => exact fr_execRejoinStep _ _ rfl h
  | rejoinTimeout => exact fr_execRejoinTimeout _ rfl rfl h
  | rejoinGrant => exact fr_execRejoinGrant _ _ _ rfl h
  | genNotice => exact fr_execGenNotice _ _ _ _ _ rfl rfl rfl rfl h
  | epochSync => exact fr_execEpochSync _ _ rfl rfl rfl rfl h
  | linkTrainStart => exact fr_execLinkTrainStart _ _ rfl rfl h
  | blockLockAcquired => exact fr_execBlockLockAcquired _ _ rfl rfl h
  | settleEnd => exact fr_execSettleEnd _ _ rfl rfl h
  | helloRx => exact fr_execHelloRx _ _ _ _ _ _ rfl rfl h
  | readyRx => exact fr_execReadyRx _ _ _ _ _ _ rfl rfl h
  | lossOfSignal => exact fr_execLossOfSignal _ _ _ rfl rfl h
  | blockLockLoss => exact fr_execBlockLockLoss _ _ _ rfl rfl h
  | noValidBlockTimeout => exact fr_execNoValidBlockTimeout _ _ rfl rfl h
  | lnkCtlRetrain => exact fr_execLnkCtlRetrain _ _ rfl rfl h
  | ilnkCtlRetrain => exact fr_execIlnkCtlRetrain _ rfl rfl h
  | lnkCtlEnableWrite => exact fr_execLnkCtlEnableWrite _ _ _ rfl rfl h
  | cellRx => exact fr_execCellRx _ _ _ _ rfl rfl h
  | nakRx => exact fr_execNakRx _ _ _ rfl rfl h
  | ackRx => exact fr_execAckRx _ _ _ rfl rfl h
  | creditRx => exact fr_execCreditRx _ _ _ _ rfl rfl h
  | cellTx => exact fr_execCellTx _ _ rfl rfl h
  | linkBlockTx => exact fr_execLinkBlockTx _ _ _ _ rfl rfl h
  | recordArrivalIkl => exact fr_execRecordArrivalIkl _ _ rfl rfl rfl rfl h
  | timeSyncTx => exact fr_execTimeSyncTx _ _ _ rfl rfl h
  | timeSyncRx => exact fr_execTimeSyncRx _ _ _ _ _ _ _ _ rfl rfl h
  | timeDreqRx => exact fr_execTimeDreqRx _ _ _ _ rfl rfl h
  | timeDrespRx => exact fr_execTimeDrespRx _ _ _ rfl rfl h
  | mainsCellRx => exact fr_execMainsCellRx _ rfl rfl h
  | crcSelWrite => exact fr_execCrcSelWrite _ _ _ _ rfl rfl h
  | crcDataWrite => exact fr_execCrcDataWrite _ _ _ _ _ rfl rfl h
  | recordArrivalUplink => exact fr_execRecordArrivalUplink _ _ _ rfl rfl rfl rfl h
  | partialArrival => exact fr_execPartialArrival _ _ _ rfl h
  | statCellClose => exact fr_execStatCellClose _ _ _ _ _ rfl h
  | barPartialArrival => exact fr_execBarPartialArrival _ _ rfl h
  | barrierCellClose => exact fr_execBarrierCellClose _ _ rfl h
  | barRef => exact fr_execBarRef _ _ rfl h
  | qref => exact fr_execQref _ _ rfl h
  | stragVerdictRepeat => exact fr_execStragVerdictRepeat _ rfl h
  | forestPassStart => exact fr_execForestPassStart _ rfl h
  | forestSegmentEnd => exact fr_execForestSegmentEnd _ _ rfl h
  | forestPassEnd => exact fr_execForestPassEnd _ rfl rfl h
  | vectorAgeOut => exact fr_execVectorAgeOut _ rfl h
  | forestFault => exact fr_execForestFault _ _ rfl h
  | fstResumeWrite => exact fr_execFstResumeWrite _ _ rfl h
  | fstCtlQuartersWrite => exact fr_execFstCtlQuartersWrite _ _ rfl h
  | forestLoad => exact fr_execForestLoad _ _ _ _ rfl h
  | forestLoadDone => exact fr_execForestLoadDone _ _ rfl h
  | forestUnload => exact fr_execForestUnload _ _ rfl rfl h
  | forestBankRelease => exact fr_execForestBankRelease _ rfl h
  | bankSwap => exact fr_execBankSwap _ _ _ rfl rfl h
  | digStepWrite => exact fr_execDigStepWrite _ _ rfl h
  | digUnstableWrite => exact fr_execDigUnstableWrite _ rfl h
  | digCtlAbort => exact fr_execDigCtlAbort _ rfl h
  | digPartialArrival => exact fr_execDigPartialArrival _ _ rfl h
  | digestCellClose => exact fr_execDigestCellClose _ _ _ _ _ rfl h
  | digestCompare => exact fr_execDigestCompare _ _ _ _ rfl rfl h
  | gauntletLoad => exact fr_execGauntletLoad _ _ _ rfl h
  | gntPush => exact fr_execGntPush _ _ _ _ rfl rfl h
  | packageCheckDone => exact fr_execPackageCheckDone _ rfl rfl h
  | gntStage => exact fr_execGntStage _ _ _ rfl h
  | gntRun => exact fr_execGntRun _ _ _ _ _ _ rfl h
  | slicePatternEnd => exact fr_execSlicePatternEnd _ rfl h
  | sliceOvertime => exact fr_execSliceOvertime _ rfl h
  | gntCtlAbort => exact fr_execGntCtlAbort _ _ rfl h
  | gntSuspect => exact fr_execGntSuspect _ _ _ rfl h
  | suspectSet => exact fr_execSuspectSet _ _ _ rfl rfl h
  | suspectClear => exact fr_execSuspectClear _ rfl rfl h
  | ldgGrantRx => exact fr_execLdgGrantRx _ rfl h
  | ldgReportRx => exact fr_execLdgReportRx _ _ rfl h
  | ldgFillRx => exact fr_execLdgFillRx _ rfl h
  | ldgSumRx => exact fr_execLdgSumRx _ _ rfl h
  | ldgCtlFreeze => exact fr_execLdgCtlFreeze _ _ rfl h
  | ethFrameRx => exact fr_execEthFrameRx _ _ _ rfl rfl rfl rfl h
  | ethLinkFrameRx => exact fr_execEthLinkFrameRx _ _ rfl h
  | ethFrameTx => exact fr_execEthFrameTx _ rfl h
  | ethLinkFrameTx => exact fr_execEthLinkFrameTx _ rfl h
  | gateEntryChange => exact fr_execGateEntryChange _ rfl h
  | parentLos => exact fr_execParentLos _ rfl h
  | livenessTimeout => exact fr_execLivenessTimeout _ rfl h
  | parentSet => exact fr_execParentSet _ _ rfl h
  | parentChangeRx => exact fr_execParentChangeRx _ _ rfl h
  | commandPacketRx => exact fr_execCommandPacketRx _ _ _ rfl rfl rfl rfl h
  | cmdReplyRx => exact fr_execCmdReplyRx _ _ _ rfl rfl rfl rfl h
  | cmdMergeTimeout => exact fr_execCmdMergeTimeout _ _ _ rfl h
  | cmdqTailWrite => exact fr_execCmdqTailWrite _ _ rfl rfl rfl rfl h
  | nop => exact fr_execNop _ _ rfl rfl h
  | regRead => exact fr_execRegRead _ _ _ _ _ rfl rfl h
  | regWrite => exact fr_execRegWrite _ _ _ _ _ _ _ rfl rfl rfl rfl h
  | txnBegin => exact fr_execTxnBegin _ _ rfl h
  | txnCommit => exact fr_execTxnCommit _ rfl rfl rfl rfl h
  | txnAbort => exact fr_execTxnAbort _ rfl rfl rfl rfl h
  | txnStatus => exact fr_execTxnStatus _ rfl h
  | txnPrepare => exact fr_execTxnPrepare _ _ _ _ rfl rfl rfl rfl h
  | txnDecide => exact fr_execTxnDecide _ _ _ rfl rfl rfl rfl h
  | txnVoteRx => exact fr_execTxnVoteRx _ _ _ rfl rfl rfl rfl h
  | voteDeadline => exact fr_execVoteDeadline _ rfl rfl rfl rfl h
  | decideDeadline => exact fr_execDecideDeadline _ rfl rfl rfl rfl h
  | commitInstant => exact fr_execCommitInstant _ rfl rfl rfl rfl h
  | txnIdleTimeout => exact fr_execTxnIdleTimeout _ rfl rfl rfl rfl h
  | watchdogExpiry => exact fr_execWatchdogExpiry _ rfl rfl rfl rfl h
  | lockAcquire => exact fr_execLockAcquire _ _ _ rfl h
  | lockRelease => exact fr_execLockRelease _ _ _ rfl h
  | lockQuery => exact fr_execLockQuery _ _ rfl h
  | lockWaitTimeout => exact fr_execLockWaitTimeout _ rfl h
  | mainsAnn => exact fr_execMainsAnn _ _ _ rfl rfl h
  | admitSet => exact fr_execAdmitSet _ _ _ _ rfl h
  | admitGet => exact fr_execAdmitGet _ _ rfl h
  | halt => exact fr_execHalt _ _ rfl rfl h
  | nopInstr => exact fr_execNopInstr _ _ rfl rfl h
  | ldi => exact fr_execLdi _ _ rfl rfl h
  | ldh => exact fr_execLdh _ _ rfl rfl h
  | add => exact fr_execAdd _ _ rfl rfl h
  | sub => exact fr_execSub _ _ rfl rfl h
  | and => exact fr_execAnd _ _ rfl rfl h
  | or => exact fr_execOr _ _ rfl rfl h
  | xor => exact fr_execXor _ _ rfl rfl h
  | shl => exact fr_execShl _ _ rfl rfl h
  | shr => exact fr_execShr _ _ rfl rfl h
  | sra => exact fr_execSra _ _ rfl rfl h
  | mul => exact fr_execMul _ _ rfl rfl h
  | addi => exact fr_execAddi _ _ rfl rfl h
  | slt => exact fr_execSlt _ _ rfl rfl h
  | sltu => exact fr_execSltu _ _ rfl rfl h
  | fadd => exact fr_execFadd _ _ rfl rfl h
  | fsub => exact fr_execFsub _ _ rfl rfl h
  | fmul => exact fr_execFmul _ _ rfl rfl h
  | fdiv => exact fr_execFdiv _ _ rfl rfl h
  | fmin => exact fr_execFmin _ _ rfl rfl h
  | fmax => exact fr_execFmax _ _ rfl rfl h
  | fcvt => exact fr_execFcvt _ _ rfl rfl h
  | ftoi => exact fr_execFtoi _ _ rfl rfl h
  | beq => exact fr_execBeq _ _ rfl rfl h
  | bne => exact fr_execBne _ _ rfl rfl h
  | blt => exact fr_execBlt _ _ rfl rfl h
  | jmp => exact fr_execJmp _ _ rfl rfl h
  | ld => exact fr_execLd _ _ rfl rfl h
  | st => exact fr_execSt _ _ rfl rfl h
  | srd => exact fr_execSrd _ _ rfl rfl h
  | swr => exact fr_execSwr _ _ rfl rfl h
  | slotWaitTimeout => exact fr_execSlotWaitTimeout _ _ rfl rfl h
  | waits => exact fr_execWaits _ _ rfl rfl h
  | waitsRelease => exact fr_execWaitsRelease _ _ rfl rfl h
  | waitt => exact fr_execWaitt _ _ rfl rfl h
  | waittRelease => exact fr_execWaittRelease _ _ rfl rfl h
  | rdc => exact fr_execRdc _ rfl rfl h
  | rdt => exact fr_execRdt _ rfl rfl h
  | rdw => exact fr_execRdw _ _ rfl rfl h
  | sys => exact fr_execSys _ _ rfl rfl h
  | crc => exact fr_execCrc _ rfl rfl h
  | putv => exact fr_execPutv _ _ rfl rfl h
  | emit => exact fr_execEmit _ _ rfl rfl h
  | budgetRefill => exact fr_execBudgetRefill _ _ rfl rfl h
  | stitchPut => exact fr_execStitchPut _ _ _ rfl rfl h
  | stitchLoad => exact fr_execStitchLoad _ _ _ _ _ rfl rfl h
  | stitchStart => exact fr_execStitchStart _ _ _ rfl rfl h
  | stitchStop => exact fr_execStitchStop _ _ _ rfl rfl h
  | slotWrite => exact fr_execSlotWrite _ _ _ _ rfl rfl h
  | slotRead => exact fr_execSlotRead _ _ _ rfl rfl h
  | stitchQuery => exact fr_execStitchQuery _ _ _ rfl rfl h
  | stcCtlStop => exact fr_execStcCtlStop _ _ _ rfl rfl h
  | stcCtlEnableWrite => exact fr_execStcCtlEnableWrite _ _ rfl rfl h
  | slotDataLoRead => exact fr_execSlotDataLoRead _ _ _ rfl rfl h
  | slotDataHiWrite => exact fr_execSlotDataHiWrite _ _ _ _ rfl rfl h
  | compressDescriptor => exact fr_execCompressDescriptor _ _ rfl rfl h
  | decompressDescriptor => exact fr_execDecompressDescriptor _ _ rfl rfl h
  | cmpCtlEnableWrite => exact fr_execCmpCtlEnableWrite _ _ rfl rfl h
  | recCtlEnableWrite => exact fr_execRecCtlEnableWrite _ _ rfl rfl h
  | recCtlFlush => exact fr_execRecCtlFlush _ rfl rfl h
  | recRead => exact fr_execRecRead _ _ _ rfl h
  | recFreeze => exact fr_execRecFreeze _ _ rfl rfl h
  | recFlush => exact fr_execRecFlush _ rfl rfl h
  | recClear => exact fr_execRecClear _ rfl rfl h
  | recNote => exact fr_execRecNote _ _ _ rfl rfl h
  | porNRise => exact fr_execPorNRise _ _ _ _ rfl rfl h
  | pdCtlWrite => exact fr_execPdCtlWrite _ _ rfl h
  | pfwAssert => exact fr_execPfwAssert _ rfl rfl h
  | ddrCtlEnable => exact fr_execDdrCtlEnable _ _ rfl h
  | ddrRead => exact fr_execDdrRead _ _ rfl h
  | lamPosWrite => exact fr_execLamPosWrite _ _ _ _ rfl h
  | counterIncrement => exact fr_execCounterIncrement _ _ _ rfl h
  | timeClockTick => exact fr_execTimeClockTick _ _ rfl rfl h
  | registerRead => exact fr_execRegisterRead _ _ _ rfl rfl h
  | pfwDeassert => exact fr_execPfwDeassert _ rfl h
  | childPortLoss => exact fr_execChildPortLoss _ _ rfl h
  | readLatchExpiry => exact fr_execReadLatchExpiry _ h
  | traceWriteError => exact fr_execTraceWriteError _ _ rfl h
  | trainTimeout => exact fr_execTrainTimeout _ _ rfl rfl h
  | negotiateTimeout => exact fr_execNegotiateTimeout _ _ rfl rfl h
  | alignRx => exact fr_execAlignRx _ _ _ _ rfl rfl h
  | timeExchangeVoid => exact fr_execTimeExchangeVoid _ _ rfl rfl h
  | marginSweep => exact fr_execMarginSweep _ _ _ rfl rfl h
  | faultInjection => exact fr_execFaultInjection _ rfl rfl h
  | injectionEnd => exact fr_execInjectionEnd _ rfl rfl h
  | pendingExpiry => exact fr_execPendingExpiry _ rfl h
  | retestAbandon => exact fr_execRetestAbandon _ rfl h
  | strandExpiry => exact fr_execStrandExpiry _ rfl h
  | pauseFrameRx => exact fr_execPauseFrameRx _ rfl h
  | cmpRingFlush => exact fr_execCmpRingFlush _ _ rfl rfl h
  | cmpRingAbort => exact fr_execCmpRingAbort _ _ rfl rfl h
  | unitCommit => exact fr_execUnitCommit _ rfl rfl h
  | norEraseDone => exact fr_execNorEraseDone _ rfl rfl h
  | lamBootCmdRun => exact fr_execLamBootCmdRun _ rfl h
  | thermalTrip => exact fr_execThermalTrip _ rfl rfl h
  | ddrPartialWrite => exact fr_execDdrPartialWrite _ _ _ _ rfl rfl h
  | patrolScrub => exact fr_execPatrolScrub _ _ _ _ rfl h
  | bar2Access => exact fr_execBar2Access _ _ _ _ rfl rfl h
  | keyProgGo => exact fr_execKeyProgGo _ _ rfl h
  | keyRevokeWrite => exact fr_execKeyRevokeWrite _ _ rfl h
  | writeHoldExpiry => exact fr_execWriteHoldExpiry _ h
  | coreWdog => exact fr_execCoreWdog _ rfl rfl h
  | ddrTrainingDone => exact fr_execDdrTrainingDone _ rfl h
  | retiringBankRelease => exact fr_execRetiringBankRelease rfl rfl rfl rfl h
  | mainsHoldoverEntry => exact fr_execMainsHoldoverEntry rfl rfl h
  | crownTakeover => exact fr_execCrownTakeover rfl rfl rfl rfl h
  | ituReset => exact fr_execItuReset rfl h
  | pwrStaleTimeout => exact fr_execPwrStaleTimeout rfl h
  | rowRequestIssue => exact fr_execRowRequestIssue rfl h
  | rowTimeout => exact fr_execRowTimeout rfl h
  | qscanTimeout => exact fr_execQscanTimeout rfl h
  | canaryTimeout => exact fr_execCanaryTimeout rfl h
  | srTimeout => exact fr_execSrTimeout rfl h
  | visorRecordEmit => exact fr_execVisorRecordEmit rfl h
  | advAllHeldRelease => exact fr_execAdvAllHeldRelease rfl rfl h
  | mainsCellResend => exact fr_execMainsCellResend rfl rfl h
  | digWindowOpen => exact fr_execDigWindowOpen rfl h
  | digWindowClose => exact fr_execDigWindowClose rfl h
  | digShardEmit => exact fr_execDigShardEmit rfl h
  | slicePowerReady => exact fr_execSlicePowerReady rfl h
  | slicePowerTimeout => exact fr_execSlicePowerTimeout rfl h
  | fillWaitTimeout => exact fr_execFillWaitTimeout rfl h
  | ldgDieReportEmit => exact fr_execLdgDieReportEmit rfl h
  | failback => exact fr_execFailback rfl h
  | replyRingWrite => exact fr_execReplyRingWrite rfl rfl rfl rfl h
  | recorderRecordEntry => exact fr_execRecorderRecordEntry rfl h
  | recorderFlushStart => exact fr_execRecorderFlushStart rfl rfl h
  | recFreezeTimeout => exact fr_execRecFreezeTimeout rfl rfl h
  | domainSwitchDone => exact fr_execDomainSwitchDone rfl rfl h
  | pfwDiscrepancyTimeout => exact fr_execPfwDiscrepancyTimeout rfl rfl h
  | pfwClear => exact fr_execPfwClear rfl rfl h
  | perstN => exact fr_execPerstN rfl h
  | porNAssert => exact fr_execPorNAssert rfl rfl rfl h
  | failbackAckTimeout => exact fr_execFailbackAckTimeout rfl h

/-- What a row leaves of the state it started from. -/
theorem fr_of_exec_next {c : Instr} {s t : State} (h : exec c s = .next t) : Fr (rowParts c) s t :=
  (frO_exec c (.refl _ s)).out t h

end Sys2Proof.Machine
end

section
/-! PROOFS. What logging changes (R197, R431 to R438, R465, R469): the recorder, its registers, the egress of records and the
pending MSI-X vectors; the rest of the Lamulo stays. -/

namespace Sys2Proof.Machine

/-- The fields that logging writes, at index 0: records refused, pending vectors, and what the recorder shows. -/
def logFlds : List Fld :=
  [L.STAT_CNT_ADMIT_REFUSED, L.MSI_X_pending_bits, L.REC_NEXT_SEQ_LO, L.REC_NEXT_SEQ_HI, L.REC_BUF_LEVEL, L.REC_WPTR,
   L.REC_STAT_FLUSHING, L.REC_CNT_RECORDS, L.REC_CNT_LOST_BUF, L.REC_CNT_LOST_FROZEN, L.REC_CNT_LOST_FULL]

/-- The keys of those fields and of Fs, at index 0. -/
def logKeys (Fs : List Fld) : List Nat := (logFlds ++ Fs).map fun F => F.key 0 0

/-- t is reached from s by logging and by writes to the fields Fs at index 0: the ITU, the pins, the DDR with its poisoned
lines, the time from which the recorder is frozen, and every other register stay. -/
structure Logs (Fs : List Fld) (s t : State) : Prop where
  itu : t.itu = s.itu
  pins : t.lam.pins = s.lam.pins
  ddr : t.lam.ddr = s.lam.ddr
  poison : t.lam.poison = s.lam.poison
  frozen : t.lam.rcd.frozen = s.lam.rcd.frozen
  regs : ∀ k, k ∉ logKeys Fs → Sparse.get 0 t.lam.regs k = Sparse.get 0 s.lam.regs k

namespace Logs
variable {Fs Gs : List Fld} {F : Fld} {s0 s t : State}

theorem refl (Fs : List Fld) (s : State) : Logs Fs s s := ⟨rfl, rfl, rfl, rfl, rfl, fun _ _ => rfl⟩

theorem trans (h : Logs Fs s0 s) (h' : Logs Fs s t) : Logs Fs s0 t :=
  ⟨h'.itu.trans h.itu, h'.pins.trans h.pins, h'.ddr.trans h.ddr, h'.poison.trans h.poison, h'.frozen.trans h.frozen,
    fun k hk => (h'.regs k hk).trans (h.regs k hk)⟩

theorem mono (hsub : Fs ⊆ Gs) (h : Logs Fs s0 s) : Logs Gs s0 s :=
  ⟨h.itu, h.pins, h.ddr, h.poison, h.frozen, fun k hk => h.regs k fun hmem =>
    hk (List.map_subset _ (List.append_subset.mpr ⟨List.subset_append_left .., fun _ hx => List.mem_append_right _ (hsub hx)⟩) hmem)⟩

/-- A choice between two states that logging reaches. -/
theorem ite {c : Prop} {_ : Decidable c} (h : Logs Fs s0 s) (h' : Logs Fs s0 t) : Logs Fs s0 (if c then s else t) := by
  split
  · exact h
  · exact h'

/-- A register outside the fields named reads as before. -/
theorem rl (h : Logs Fs s t) (F : Fld) (i j : Nat) (hk : F.key i j ∉ logKeys Fs) :
    t.rl F i j = s.rl F i j := by
  unfold State.rl Regs.rd
  rw [h.regs _ hk]

theorem wl (h : Logs Fs s0 s) (hF : F ∈ Fs) (v : Nat) : Logs Fs s0 (s.wl F v) :=
  ⟨h.itu, h.pins, h.ddr, h.poison, h.frozen, fun k hk =>
    (Regs.get_wr_notMem (List.mem_append_right _ hF) _ v hk).trans (h.regs k hk)⟩

theorem wlLog (h : Logs Fs s0 s) (v : Nat) (hF : F ∈ logFlds := by simp [logFlds]) : Logs Fs s0 (s.wl F v) :=
  ⟨h.itu, h.pins, h.ddr, h.poison, h.frozen, fun k hk =>
    (Regs.get_wr_notMem (List.mem_append_left _ hF) _ v hk).trans (h.regs k hk)⟩

theorem ilLog (h : Logs Fs s0 s) (hF : F ∈ logFlds := by simp [logFlds]) : Logs Fs s0 (s.il F) := h.wlLog _ hF

theorem setRcd (h : Logs Fs s0 s) {r : Rcd} (hr : r.frozen = s0.lam.rcd.frozen) : Logs Fs s0 (s.setRcd r) :=
  ⟨h.itu, h.pins, h.ddr, h.poison, hr, h.regs⟩

theorem norProg (h : Logs Fs s0 s) (off : Nat) (bs : List Nat) : Logs Fs s0 (s.norProg off bs) :=
  ⟨h.itu, h.pins, h.ddr, h.poison, h.frozen, h.regs⟩

theorem setSecState (h : Logs Fs s0 s) (sec v : Nat) : Logs Fs s0 (s.setSecState sec v) := h.norProg _ _

/-! Records, vectors and LAM_FAULT. -/

/-- Making a record is logging. -/
theorem lamSent (h : Logs Fs s0 s) (hs : LamSent s t) : Logs Fs s0 t := by
  refine h.trans ⟨hs.itu, ?_, ?_, ?_, ?_, fun k hk => hs.2 k fun e => hk (e ▸ ?mem)⟩
  case mem => exact List.mem_map_of_mem (f := fun F : Fld => F.key 0 0) (List.mem_append_left Fs List.mem_cons_self)
  all_goals rw [hs.1]

theorem raiseVec (h : Logs Fs s0 s) : Logs Fs s0 (s.raiseVec 0) := by
  dsimp only [State.raiseVec]
  split
  · exact h.wlLog _
  · exact ⟨h.itu, h.pins, h.ddr, h.poison, h.frozen, h.regs⟩

theorem boardEvent (h : Logs Fs s0 s) (code d1 d2 : Nat) : Logs Fs s0 (s.boardEvent code d1 d2) :=
  (h.lamSent (lamSent_lamEmit ..)).raiseVec

theorem recEvent (h : Logs Fs s0 s) (cause count : Nat) : Logs Fs s0 (s.recEvent cause count) :=
  h.lamSent (lamSent_lamEmit ..)

/-- Setting a bit of LAM_FAULT is, but for the bit, logging. -/
theorem lamFault (h : Logs Fs s0 (s.wl F 1)) : Logs Fs s0 (s.lamFault F) := by
  unfold State.lamFault
  exact h.raiseVec.ite h

/-! Entries of the recorder. -/

theorem recShow (h : Logs Fs s0 s) : Logs Fs s0 s.recShow :=
  .wlLog (.wlLog (.wlLog h _) _) _

theorem setRecSeq (h : Logs Fs s0 s) (n : Nat) : Logs Fs s0 (s.setRecSeq n) :=
  .wlLog (.wlLog h _) _

theorem recRaw (h : Logs Fs s0 s) (o : RecOffer) : Logs Fs s0 (s.recRaw o) := by
  refine .ilLog (.setRecSeq (.setRcd h ?_) _)
  exact h.frozen

theorem recPut (h : Logs Fs s0 s) (o : RecOffer) : Logs Fs s0 (s.recPut o) :=
  ((h.recRaw _).recRaw o).ite (h.recRaw o)

theorem recLose (h : Logs Fs s0 s) (why : Nat) : Logs Fs s0 (s.recLose why) := by
  unfold State.recLose
  extract_lets r b s'
  have hs : Logs Fs s0 s' := h.setRcd h.frozen
  exact .ite (.ilLog hs) (.ite (.ilLog hs) (.ilLog hs))

theorem recWant (h : Logs Fs s0 s) (cause : Nat) : Logs Fs s0 (s.recWant cause) := h.setRcd h.frozen

theorem recEnter (h : Logs Fs s0 s) (o : RecOffer) : Logs Fs s0 (s.recEnter o) := by
  unfold State.recEnter
  extract_lets st r q t t' t''
  have ht : Logs Fs s0 t := h.ite ((h.recPut _).setRcd (h.recPut _).frozen)
  have ht' : Logs Fs s0 t' := ht.recPut o
  have ht'' : Logs Fs s0 t'' := by
    dsimp only [t'']
    split
    · exact ht'.recWant _
    · exact ht'
  exact (h.recLose 1).ite ((h.recLose 2).ite ((h.recLose 0).ite ((h.recLose 0).ite ((ht''.recWant 0).ite ht'').recShow)))

theorem foldl_recEnter (l : List RecOffer) (h : Logs Fs s0 s) : Logs Fs s0 (l.foldl State.recEnter s) := by
  induction l generalizing s with
  | nil => exact h
  | cons o l ih => exact ih (h.recEnter o)

theorem recDrain (h : Logs Fs s0 s) : Logs Fs s0 s.recDrain := by
  unfold State.recDrain
  split
  · exact h
  extract_lets m s' l
  have hm : Logs Fs s0 { s with lam := { s.lam with anchorDue := false } } :=
    ⟨h.itu, h.pins, h.ddr, h.poison, h.frozen, h.regs⟩
  have hs : Logs Fs s0 s' := (hm.recEnter _).ite h
  exact foldl_recEnter l (hs.setRcd hs.frozen)

theorem recOffer (h : Logs Fs s0 s) (o : RecOffer) : Logs Fs s0 (s.recOffer o) :=
  .ite (h.setRcd h.frozen) (h.recDrain.recEnter o)

theorem recFault (h : Logs Fs s0 s) (code d1 d2 : Nat) : Logs Fs s0 (s.recFault code d1 d2) := h.recOffer _

end Logs

/-! Flushes (R434, R435, R438): they alone of the recorder's operations write its state. -/

/-- t is reached from s by logging, with the recorder's state as in s or one of vs. -/
def LogsState (vs : List Nat) (s t : State) : Prop :=
  Logs [L.REC_STAT_STATE] s t ∧ (t.recState = s.recState ∨ t.recState ∈ vs)

section Flush
variable {vs ws : List Nat} {s0 s t : State}

theorem Logs.recState (h : Logs [] s t) : t.recState = s.recState := h.rl L.REC_STAT_STATE 0 0 (by decide)

theorem LogsState.of_logs (h : Logs [] s t) : LogsState vs s t := ⟨h.mono (List.nil_subset _), .inl h.recState⟩

theorem LogsState.mono (hsub : vs ⊆ ws) (h : LogsState vs s t) : LogsState ws s t := ⟨h.1, h.2.imp_right fun e => hsub e⟩

theorem LogsState.ite {c : Prop} {_ : Decidable c} (h : LogsState vs s0 s) (h' : LogsState vs s0 t) :
    LogsState vs s0 (if c then s else t) := by
  split
  · exact h
  · exact h'

/-- The recorder's state written last, then logging. -/
theorem LogsState.of_wl (h : Logs [] s0 s) {v : Nat} (hv : v % 2 ^ 3 ∈ vs) (h' : Logs [] (s.wl L.REC_STAT_STATE v) t) :
    LogsState vs s0 t := by
  refine ⟨(((h.mono (List.nil_subset _)).wl List.mem_cons_self v)).trans (h'.mono (List.nil_subset _)), .inr ?_⟩
  rw [h'.recState, State.recState, State.rl_wl_self]
  exact hv

theorem logsState_logFull (h : Logs [] s0 s) : LogsState [4] s0 s.logFull := by
  unfold State.logFull
  extract_lets r s'
  have hs : Logs [] s0 s' := h.setRcd h.frozen
  exact .of_wl hs (by decide) ((Logs.refl _ _).recEvent 1 0).recShow

theorem logsState_startUnit (n : Nat) (h : Logs [] s0 s) : LogsState [4] s0 (State.startUnit n s) := by
  induction n generalizing s with
  | zero => exact logsState_logFull h
  | succ n ih =>
    rw [State.startUnit]
    extract_lets s1 s2 a bs s3
    have h1 : Logs [] s0 s1 := (h.setSecState _ _).ite h
    have h3 : Logs [] s0 s3 := (h.setSecState _ _).norProg _ _
    refine .ite ?_ (.of_logs (.recShow (h3.setRcd h3.frozen)))
    split
    · exact ih (h1.setRcd h.frozen)
    · exact logsState_logFull h1

theorem logsState_flushTry (h : Logs [] s0 s) : LogsState [4, 6] s0 s.flushTry := by
  unfold State.flushTry
  extract_lets r
  split
  · extract_lets s1 s2
    have h1 : Logs [] s0 s1 := h.setRcd h.frozen
    have h2 : Logs [] s0 s2 := (h1.recEvent 3 0).ite h1
    refine .ite (.ite (.ite ?empty (.of_logs h2)) ?unit) (.of_logs h)
    case empty => exact .of_wl (v := 6) h2 (by decide) (.refl _ _)
    case unit => exact (logsState_startUnit _ h2).mono (by decide)
  · exact .of_logs h

end Flush

end Sys2Proof.Machine
end

section
/-! PROOFS. Straps (R448): sampled on the rising edge of POR_N into LAM_STRAP, and the boot that follows leaves them. -/

namespace Sys2Proof.Machine

/-- The fields, beside those of logging, that the edge writes once it has sampled the straps: the node number, the
reset values of the role, and what the boot ROM reports. -/
def bootFlds : List Fld :=
  [L.LAM_NODE, L.STAT_CLOSE_US, L.CMD_MERGE_US, L.DET_BAR_CLOSE_US, L.DIGF_CLOSE_MS, L.LAM_BOOT_STATE, L.LAM_BOOT_IMAGE,
   L.LAM_FW_VERSION, L.LAM_FAULT_BOOT_FALLBACK]

/-! The boot ROM (R455). -/

/-- The check of an image takes at most one free value. -/
theorem State.imageCheck_fst (s : State) (m : Memory) (a : Nat) :
    (s.imageCheck m a).1 = s ∨ (s.imageCheck m a).1 = s.free.2 := by
  unfold State.imageCheck
  dsimp only
  split_ifs
  iterate 4 exact .inl rfl
  · split
    · exact .inl rfl
    · exact .inl rfl
    · exact .inr rfl
  · split <;> exact .inl rfl

namespace Logs
variable {s0 s : State}

theorem wlBoot {F : Fld} (h : Logs bootFlds s0 s) (v : Nat) (hF : F ∈ bootFlds := by simp [bootFlds]) :
    Logs bootFlds s0 (s.wl F v) := h.wl hF v

theorem imageCheck {Fs : List Fld} (h : Logs Fs s0 s) (m : Memory) (a : Nat) : Logs Fs s0 (s.imageCheck m a).1 := by
  rcases s.imageCheck_fst m a with e | e
  · rw [e]; exact h
  · rw [e]; exact ⟨h.itu, h.pins, h.ddr, h.poison, h.frozen, h.regs⟩

theorem bootImage (h : Logs bootFlds s0 s) (image version : Nat) : Logs bootFlds s0 (s.bootImage image version) :=
  .wlBoot (.wlBoot (.wlBoot h _) _) _

theorem bootFallback (h : Logs bootFlds s0 s) (image version : Nat) : Logs bootFlds s0 (s.bootFallback image version) :=
  ((h.wlBoot 1).lamFault.recFault 6 image version).boardEvent 6 image version

theorem bootChoose (h : Logs bootFlds s0 s) : Logs bootFlds s0 s.bootChoose := by
  unfold State.bootChoose
  extract_lets a b t va vb prefB ta tb
  have ht : Logs bootFlds s0 t := (h.imageCheck _ _).imageCheck _ _
  have hta : Logs bootFlds s0 ta := ht.bootImage 0 va
  have htb : Logs bootFlds s0 tb := ht.bootImage 1 vb
  refine .ite (.ite htb hta) (.ite ?onlyA (.ite ?onlyB (ht.wlBoot 2)))
  case onlyA => exact (hta.bootFallback 0 va).ite hta
  case onlyB => exact htb.ite (htb.bootFallback 1 vb)

theorem roleResets (h : Logs bootFlds s0 s) (role : Nat) : Logs bootFlds s0 (s.roleResets role) :=
  .wlBoot (.wlBoot (.wlBoot (.wlBoot h _) _) _) _

end Logs

/-! The sampling. -/

/-- The straps sampled into the pins as the Lamulo holds them and into LAM_STRAP (R448). -/
def State.sampled (s : State) (role : Nat) (standby prov bootAlt : Bool) : State :=
  (((({ s with lam := { s.lam with pins := { s.lam.pins with
      role := role, standby := standby, prov := prov, bootAlt := bootAlt, por := true } } } : State).wl L.LAM_STRAP_ROLE role).wl
    L.LAM_STRAP_STANDBY (b2n (standby && role == 3))).wl L.LAM_STRAP_PROV (b2n prov)).wl L.LAM_STRAP_BOOT_ALT (b2n bootAlt)

section Sampling
variable (s : State) (role : Nat) (standby prov bootAlt : Bool)

theorem b2n_mod_two (b : Bool) : b2n b % 2 = b2n b := by cases b <;> rfl

theorem State.rl_sampled_role : (s.sampled role standby prov bootAlt).rl L.LAM_STRAP_ROLE = role % 4 := by
  unfold State.sampled
  rw [State.rl_wl_ne _ _ _ _ _ _ _ _ (by decide), State.rl_wl_ne _ _ _ _ _ _ _ _ (by decide),
    State.rl_wl_ne _ _ _ _ _ _ _ _ (by decide), State.rl_wl_self]
  rfl

theorem State.rl_sampled_standby :
    (s.sampled role standby prov bootAlt).rl L.LAM_STRAP_STANDBY = b2n (standby && role == 3) := by
  unfold State.sampled
  rw [State.rl_wl_ne _ _ _ _ _ _ _ _ (by decide), State.rl_wl_ne _ _ _ _ _ _ _ _ (by decide), State.rl_wl_self]
  exact b2n_mod_two _

theorem State.rl_sampled_prov : (s.sampled role standby prov bootAlt).rl L.LAM_STRAP_PROV = b2n prov := by
  unfold State.sampled
  rw [State.rl_wl_ne _ _ _ _ _ _ _ _ (by decide), State.rl_wl_self]
  exact b2n_mod_two _

theorem State.rl_sampled_bootAlt : (s.sampled role standby prov bootAlt).rl L.LAM_STRAP_BOOT_ALT = b2n bootAlt := by
  unfold State.sampled
  rw [State.rl_wl_self]
  exact b2n_mod_two _

variable {s}

/-- The rising edge samples the straps; the node number, the reset values of the role and the boot follow. -/
theorem exec_porNRise_of_low (h : s.lam.pins.por = false) : ∃ t, exec (.porNRise role standby prov bootAlt) s = .next t ∧
    Logs bootFlds (s.sampled (role % 4) standby prov bootAlt) t := by
  refine ⟨_, if_neg (by simp [h]), ?_⟩
  exact (((Logs.refl _ _).wlBoot _).roleResets _).bootChoose

theorem exec_porNRise_of_high (h : s.lam.pins.por = true) : exec (.porNRise role standby prov bootAlt) s = .next s :=
  if_pos h

end Sampling

/-- The edges of POR_N are the only rows that may change its level. -/
theorem porRow_eq_false {c : Instr} (hrise : ∀ role sb pv ba, c ≠ .porNRise role sb pv ba) (hassert : c ≠ .porNAssert) :
    porRow c = false := by
  cases c with
  | porNRise role sb pv ba => exact absurd rfl (hrise role sb pv ba)
  | porNAssert => exact absurd rfl hassert
  | _ => rfl

/-- Settles O7: the edge writes LAM_STRAP and what follows it in the same row leaves the word; a further edge waits for
POR_N to go low, and no row but the two edges moves POR_N. -/
theorem strapsAreSampledOnce : Obligations.StrapsAreSampledOnce := by
  refine ⟨?rise, ?high, ?assert, ?others⟩
  case rise =>
    intro role sb pv ba s h
    obtain ⟨t, ht, hlogs⟩ := exec_porNRise_of_low role sb pv ba h
    have hstrap : ∀ F, F.key 0 0 ∉ logKeys bootFlds →
        t.rl F = (s.sampled (role % 4) sb pv ba).rl F := fun F hF => hlogs.rl F 0 0 hF
    refine ⟨t, ht, congrArg LPins.por hlogs.pins, ?_, ?_, ?_, ?_⟩
    · rw [hstrap _ (by decide), State.rl_sampled_role, Nat.mod_mod]
    · rw [hstrap _ (by decide), State.rl_sampled_prov, b2n]
    · rw [hstrap _ (by decide), State.rl_sampled_bootAlt, b2n]
    · rw [hstrap _ (by decide), State.rl_sampled_standby, b2n]
      simp
  case high => exact fun role sb pv ba s h => exec_porNRise_of_high role sb pv ba h
  case assert => exact fun s => ⟨_, rfl, rfl⟩
  case others => exact fun c s t hrise hassert h => (fr_of_exec_next h).por (porRow_eq_false hrise hassert)

end Sys2Proof.Machine
end

section
/-! PROOFS. The power-fail warning (R436, R466, R467): its monitor, the declaration with the recorder's part in it, and
the end of a declaration. -/

namespace Sys2Proof.Machine

/-! The monitor. -/

/-- The time at which a channel (b: PFW_B) was asserted, if it is. -/
def Pfw.chan (p : Pfw) (b : Bool) : Option Nat := if b then p.b else p.a

/-- The monitor with a channel set. -/
def Pfw.setChan (p : Pfw) (b : Bool) (v : Option Nat) : Pfw := if b then { p with b := v } else { p with a := v }

section Monitor
variable (s : State) (p : Pfw)

theorem State.rl_setPfw_a : (s.setPfw p).rl L.PFW_STAT_A = b2n p.a.isSome := by
  unfold State.setPfw
  rw [State.rl_wl_ne _ _ _ _ _ _ _ _ (by decide), State.rl_wl_self]
  exact b2n_mod_two _

theorem State.rl_setPfw_b : (s.setPfw p).rl L.PFW_STAT_B = b2n p.b.isSome := by
  unfold State.setPfw
  rw [State.rl_wl_self]
  exact b2n_mod_two _

/-- The monitor's update leaves every register but the two that show it. -/
theorem State.rl_setPfw_ne {F : Fld} (ha : F.key 0 0 ≠ L.PFW_STAT_A.key 0 0) (hb : F.key 0 0 ≠ L.PFW_STAT_B.key 0 0) :
    (s.setPfw p).rl F = s.rl F :=
  (State.rl_wl_ne _ _ _ _ _ _ _ _ hb).trans (State.rl_wl_ne _ _ _ _ _ _ _ _ ha)

theorem State.rl_setPfw_declared : (s.setPfw p).rl L.PFW_STAT_DECLARED = s.rl L.PFW_STAT_DECLARED :=
  s.rl_setPfw_ne p (by decide) (by decide)

theorem State.pfwD_setPfw : (s.setPfw p).pfwD = s.pfwD :=
  congrArg (· * 1000) (s.rl_setPfw_ne p (by decide) (by decide))

end Monitor

/-! The rows, by what the monitor holds of the channel and of the other one. -/

section Rows
variable {s : State} {b : Bool} {t x : Nat}

theorem exec_pfwAssert_of_asserted (hown : (s.lam.brd.pfw.chan b).isSome = true) : exec (.pfwAssert b) s = .next s :=
  if_pos hown

/-- A channel asserted while the other is not: the monitor alone changes. -/
theorem exec_pfwAssert_of_first (hown : s.lam.brd.pfw.chan b = none) (hother : s.lam.brd.pfw.chan (!b) = none) :
    exec (.pfwAssert b) s = .next (s.setPfw { s.lam.brd.pfw.setChan b (some s.lam.clk.ns) with clearFrom := none }) := by
  cases b <;> simp_all [exec, execPfwAssert, Pfw.chan, Pfw.setChan, State.now, State.clk]

/-- A channel asserted within D of the other: power failure is declared. -/
theorem exec_pfwAssert_of_second (hown : s.lam.brd.pfw.chan b = none) (hother : s.lam.brd.pfw.chan (!b) = some t)
    (hdecl : s.rl L.PFW_STAT_DECLARED = 0) (hnear : s.lam.clk.ns - t < s.pfwD) :
    exec (.pfwAssert b) s =
      .next ((s.setPfw { s.lam.brd.pfw.setChan b (some s.lam.clk.ns) with clearFrom := none }).pfwDeclare t false) := by
  cases b <;>
    simp_all [exec, execPfwAssert, Pfw.chan, Pfw.setChan, State.now, State.clk, State.rl_setPfw_declared, State.pfwD_setPfw]

theorem exec_pfwDeassert_of_deasserted (hown : s.lam.brd.pfw.chan b = none) : exec (.pfwDeassert b) s = .next s := by
  cases b <;> simp_all [exec, execPfwDeassert, Pfw.chan]

/-- A lone assertion that ends before a declaration is counted (R466). -/
theorem exec_pfwDeassert_of_lone (hown : s.lam.brd.pfw.chan b = some t) (hother : s.lam.brd.pfw.chan (!b) = none)
    (hdecl : s.rl L.PFW_STAT_DECLARED = 0) : exec (.pfwDeassert b) s =
      .next ((s.il L.PFW_CNT_DISC).setPfw { s.lam.brd.pfw.setChan b none with clearFrom := some s.lam.clk.ns }) := by
  cases b <;> simp_all [exec, execPfwDeassert, Pfw.chan, Pfw.setChan, State.now, State.clk]

theorem exec_pfwDeassert_of_both (hown : s.lam.brd.pfw.chan b = some t) (hother : s.lam.brd.pfw.chan (!b) = some x) :
    exec (.pfwDeassert b) s = .next (s.setPfw (s.lam.brd.pfw.setChan b none)) := by
  cases b <;> simp_all [exec, execPfwDeassert, Pfw.chan, Pfw.setChan]

/-- A channel alone for D: power failure is declared and the other channel's fault is set (R466). -/
theorem exec_pfwDiscrepancyTimeout_of_a (hdecl : s.rl L.PFW_STAT_DECLARED = 0) (ha : s.lam.brd.pfw.a = some t)
    (hb : s.lam.brd.pfw.b = none) (hlong : s.pfwD ≤ s.lam.clk.ns - t) :
    exec .pfwDiscrepancyTimeout s = .next ((s.lamFault L.LAM_FAULT_PFW_CHAN_B).pfwDeclare t true) := by
  simp [exec, execPfwDiscrepancyTimeout, hdecl, ha, hb, State.now, State.clk, hlong]

theorem exec_pfwDiscrepancyTimeout_of_b (hdecl : s.rl L.PFW_STAT_DECLARED = 0) (hb : s.lam.brd.pfw.b = some t)
    (ha : s.lam.brd.pfw.a = none) (hlong : s.pfwD ≤ s.lam.clk.ns - t) :
    exec .pfwDiscrepancyTimeout s = .next ((s.lamFault L.LAM_FAULT_PFW_CHAN_A).pfwDeclare t true) := by
  simp [exec, execPfwDiscrepancyTimeout, hdecl, ha, hb, State.now, State.clk, hlong]

theorem exec_pfwDiscrepancyTimeout_of_declared (hdecl : s.rl L.PFW_STAT_DECLARED = 1) :
    exec .pfwDiscrepancyTimeout s = .next s := if_pos hdecl

/-- With both channels alike there is no discrepancy. -/
theorem exec_pfwDiscrepancyTimeout_of_alike (h : s.lam.brd.pfw.a.isSome = s.lam.brd.pfw.b.isSome) :
    exec .pfwDiscrepancyTimeout s = .next s := by
  cases ha : s.lam.brd.pfw.a <;> cases hb : s.lam.brd.pfw.b <;> simp_all [exec, execPfwDiscrepancyTimeout]

/-- A declaration clears CLEAR_MS after the last deassertion (R467). -/
theorem exec_pfwClear_of_due (hfrom : s.lam.brd.pfw.clearFrom = some t) (hdecl : s.rl L.PFW_STAT_DECLARED = 1)
    (ha : s.lam.brd.pfw.a = none) (hb : s.lam.brd.pfw.b = none)
    (hlong : s.rl L.PFW_CFG_CLEAR_MS * 1000000 ≤ s.lam.clk.ns - t) :
    exec .pfwClear s = .next (((s.wl L.PFW_STAT_DECLARED 0).recResume).boardEvent 2 0 0) := by
  simp [exec, execPfwClear, hfrom, hdecl, ha, hb, State.now, State.clk, hlong]

theorem exec_pfwClear_of_not_due (h : s.lam.brd.pfw.clearFrom = none ∨ s.rl L.PFW_STAT_DECLARED ≠ 1 ∨
    s.lam.brd.pfw.a.isSome = true ∨ s.lam.brd.pfw.b.isSome = true) : exec .pfwClear s = .next s := by
  show execPfwClear s = _
  unfold execPfwClear
  dsimp only
  split
  next t hfrom =>
    rw [if_neg]
    rintro ⟨hdecl, ha, hb, -⟩
    simp [hfrom, hdecl, ha, hb] at h
  next => rfl

end Rows

/-! The recorder's part of a declaration (R436). -/

/-- The fields of the recorder's registers, beside those of logging, that a declaration writes while it records. -/
def pfwFlds : List Fld := [L.REC_STAT_STATE, L.REC_STAT_ERASING]

section Declare
variable {s : State} (a b d : Bool) (ns : Nat)

/-- A recorder that does not record takes the record as any other. -/
theorem logs_recPfw_of_idle (h2 : s.recState ≠ 2) (h3 : s.recState ≠ 3) : Logs [] s (s.recPfw a b d ns) := by
  unfold State.recPfw
  rw [if_neg (not_or.mpr ⟨h2, h3⟩)]
  exact (Logs.refl _ s).recOffer _

/-- A recorder that records or is frozen leaves the freeze, takes the record, and is flushing for power failure, done
with it, or full. -/
theorem logs_recPfw_of_recording (h : s.recState = 2 ∨ s.recState = 3) :
    Logs pfwFlds ((s.wl L.REC_STAT_STATE 2).setRcd { s.lam.rcd with frozen := none }) (s.recPfw a b d ns) ∧
      (s.recPfw a b d ns).recState ∈ [5, 4, 6] := by
  unfold State.recPfw
  rw [if_pos h]
  generalize ((s.wl L.REC_STAT_STATE 2).setRcd { s.lam.rcd with frozen := none }) = u
  extract_lets u0 u1 u2
  have h1 : Logs [] u u1 := ((Logs.refl _ u).recDrain).recEnter _
  have h2 : Logs pfwFlds u u2 :=
    ((h1.mono (List.nil_subset _)).wl (by simp [pfwFlds]) 5).wl (by simp [pfwFlds]) 0
  have hstate : u2.recState = 5 := (State.rl_wl_ne _ _ _ _ _ _ _ _ (by decide)).trans (State.rl_wl_self ..)
  have hw : Logs [] u2 (u2.setRcd { u2.lam.rcd with want := some 3 }) := .setRcd (.refl _ _) rfl
  obtain ⟨hf, hvs⟩ := logsState_flushTry hw
  refine ⟨h2.trans (hf.mono (by simp [pfwFlds])), ?_⟩
  rw [hstate] at hvs
  exact List.mem_cons.mpr hvs

end Declare

/-- The state at which a declaration reports to the fleet (R436, R466). -/
def State.pfwRecorded (s : State) (t : Nat) (d : Bool) : State :=
  (s.wl L.PFW_STAT_DECLARED 1).recPfw s.lam.brd.pfw.a.isSome s.lam.brd.pfw.b.isSome d (s.lam.clk.ns - t)

section Recorded
variable {s : State} (t : Nat) (d : Bool)

theorem State.recState_wl_declared (s : State) (v : Nat) : (s.wl L.PFW_STAT_DECLARED v).recState = s.recState :=
  State.rl_wl_ne _ _ _ _ _ _ _ _ (by decide)

theorem rl_pfwRecorded_declared (s : State) : (s.pfwRecorded t d).rl L.PFW_STAT_DECLARED = 1 := by
  have hset : (s.wl L.PFW_STAT_DECLARED 1).rl L.PFW_STAT_DECLARED = 1 := State.rl_wl_self ..
  by_cases h : (s.wl L.PFW_STAT_DECLARED 1).recState = 2 ∨ (s.wl L.PFW_STAT_DECLARED 1).recState = 3
  · have hrec := (logs_recPfw_of_recording s.lam.brd.pfw.a.isSome s.lam.brd.pfw.b.isSome d (s.lam.clk.ns - t) h).1
    have hwl : ((s.wl L.PFW_STAT_DECLARED 1).wl L.REC_STAT_STATE 2).rl L.PFW_STAT_DECLARED = 1 :=
      (State.rl_wl_ne _ _ _ _ _ _ _ _ (by decide)).trans hset
    exact (hrec.rl _ 0 0 (by decide)).trans hwl
  · obtain ⟨h2, h3⟩ := not_or.mp h
    exact ((logs_recPfw_of_idle _ _ _ _ h2 h3).rl _ 0 0 (by decide)).trans hset

end Recorded

/-- A fault bit set reads 1 (R471). -/
theorem rl_lamFault_self {F : Fld} (hw : F.width = 1) (hF : F.key 0 0 ∉ logKeys []) (s : State) :
    (s.lamFault F).rl F = 1 := by
  rw [(Logs.lamFault (Logs.refl [] (s.wl F 1))).rl F 0 0 hF, State.rl_wl_self, hw]
  rfl

/-- Settles O60: the rows by what the monitor holds of each channel, and of the declaration the recorder's part, which
leaves PFW_STAT.DECLARED set. -/
theorem powerFailWarning : Obligations.PowerFailWarning := by
  refine ⟨?firstA, ?firstB, ?again, ?secondA, ?secondB, ?monitor, ?idle, ?recording, ?fault, ?discA, ?discB, ?noDisc,
    ?loneA, ?loneB, ?both, ?gone, ?clear, ?noClear⟩
  case firstA => exact fun s ha hb => exec_pfwAssert_of_first (b := false) ha hb
  case firstB => exact fun s ha hb => exec_pfwAssert_of_first (b := true) hb ha
  case again =>
    exact fun s => ⟨exec_pfwAssert_of_asserted (b := false), exec_pfwAssert_of_asserted (b := true)⟩
  case secondA => exact fun s t ha hb hd hn => exec_pfwAssert_of_second (b := false) ha hb hd hn
  case secondB => exact fun s t hb ha hd hn => exec_pfwAssert_of_second (b := true) hb ha hd hn
  case monitor => exact fun s p => ⟨rfl, s.rl_setPfw_a p, s.rl_setPfw_b p⟩
  case idle =>
    intro s t d h2 h3
    refine ⟨s.pfwRecorded t d, rfl, rl_pfwRecorded_declared t d s, ?_⟩
    rw [← s.recState_wl_declared 1] at h2 h3
    exact (logs_recPfw_of_idle _ _ _ _ h2 h3).itu
  case recording =>
    intro s t d h
    rw [← s.recState_wl_declared 1] at h
    obtain ⟨hlogs, hstate⟩ := logs_recPfw_of_recording s.lam.brd.pfw.a.isSome s.lam.brd.pfw.b.isSome d (s.lam.clk.ns - t) h
    refine ⟨s.pfwRecorded t d, rfl, rl_pfwRecorded_declared t d s, hlogs.frozen, ?_⟩
    rw [State.pfwRecorded]
    simp only [List.mem_cons, List.not_mem_nil, or_false] at hstate
    tauto
  case fault =>
    exact fun s => ⟨rl_lamFault_self rfl (by decide) s, rl_lamFault_self rfl (by decide) s⟩
  case discA => exact fun s t hd ha hb hl => exec_pfwDiscrepancyTimeout_of_a hd ha hb hl
  case discB => exact fun s t hd hb ha hl => exec_pfwDiscrepancyTimeout_of_b hd hb ha hl
  case noDisc =>
    exact fun s h => h.elim exec_pfwDiscrepancyTimeout_of_declared exec_pfwDiscrepancyTimeout_of_alike
  case loneA => exact fun s t ha hb hd => exec_pfwDeassert_of_lone (b := false) ha hb hd
  case loneB => exact fun s t hb ha hd => exec_pfwDeassert_of_lone (b := true) hb ha hd
  case both =>
    exact fun s t x ha hb => ⟨exec_pfwDeassert_of_both (b := false) ha hb, exec_pfwDeassert_of_both (b := true) hb ha⟩
  case gone =>
    exact fun s => ⟨exec_pfwDeassert_of_deasserted (b := false), exec_pfwDeassert_of_deasserted (b := true)⟩
  case clear => exact fun s t hf hd ha hb hl => exec_pfwClear_of_due hf hd ha hb hl
  case noClear => exact fun s h => exec_pfwClear_of_not_due h

end Sys2Proof.Machine
end

section
/-! PROOFS. Memory errors and poison (R460, R461): a read of a line, and what a write of bytes does to the poisoned lines
that it covers wholly and in part. -/

namespace Sys2Proof.Machine

theorem satN_lt (w v : Nat) : satN w v < 2 ^ w :=
  lt_of_le_of_lt (min_le_right _ _) (Nat.sub_lt (Nat.two_pow_pos w) Nat.one_pos)

/-- A counter advanced holds the saturated sum. -/
theorem State.rl_il_self_satN (s : State) (F : Fld) (n i j : Nat) : (s.il F n i j).rl F i j = satN F.width (s.rl F i j + n) := by
  rw [State.rl_il_self, Nat.mod_eq_of_lt (satN_lt _ _)]

/-! ### Bytes stored -/

/-- Line l lies wholly in the n bytes from address a. -/
def lineWhole (a n l : Nat) : Bool := decide (a ≤ 64 * l) && decide (64 * l + 64 ≤ a + n)

/-- Line l lies in the n bytes from address a in part. -/
def lineCut (a n l : Nat) : Bool := !lineWhole a n l && decide (a < 64 * l + 64) && decide (64 * l < a + n)

/-- The bytes of a line are the whole of that line alone. -/
theorem lineWhole_line (l x : Nat) : lineWhole (64 * l) 64 x = (x == l) := by
  rw [lineWhole, Bool.eq_iff_iff]
  simp only [Bool.and_eq_true, decide_eq_true_eq, beq_iff_eq]
  omega

/-- Fewer bytes than a line's, within the line, are the whole of none and a part of that line alone. -/
theorem lineWhole_part {l o n : Nat} (hin : o + n ≤ 64) (hlt : n ≠ 64) (x : Nat) : lineWhole (64 * l + o) n x = false := by
  simp only [lineWhole, Bool.and_eq_false_iff, decide_eq_false_iff_not]
  omega

theorem lineCut_part {l o n : Nat} (hin : o + n ≤ 64) (hlt : n ≠ 64) (hpos : n ≠ 0) (x : Nat) :
    lineCut (64 * l + o) n x = (x == l) := by
  rw [lineCut, lineWhole_part hin hlt, Bool.eq_iff_iff]
  simp only [Bool.not_false, Bool.true_and, Bool.and_eq_true, decide_eq_true_eq, beq_iff_eq]
  omega

/-- The writes counted of the poisoned lines covered in part (R461). -/
def State.countCut (s : State) (l : List Nat) : State :=
  l.foldl (fun s x => s.il L.DDR_CNT_RMW_UE 1 (s.ddrChan (64 * x))) s

theorem State.countCut_eq (s : State) (l : List Nat) : s.countCut l = { s with lam := { s.lam with regs := (s.countCut l).lam.regs } } := by
  induction l generalizing s with
  | nil => rfl
  | cons x l ih => exact ih (s.il L.DDR_CNT_RMW_UE 1 (s.ddrChan (64 * x)))

/-- They change the counters of the channels alone. -/
theorem State.rl_countCut (s : State) (l : List Nat) (F : Fld) (i j : Nat) (hF : ∀ c, F.key i j ≠ L.DDR_CNT_RMW_UE.key c 0) :
    (s.countCut l).rl F i j = s.rl F i j := by
  induction l generalizing s with
  | nil => rfl
  | cons x l ih => exact (ih _).trans (State.rl_il_ne _ _ _ _ _ _ _ _ (hF _))

/-- The poisoned lines that n bytes from address a touch, counted (R461). -/
def State.countPoison (s : State) (a n : Nat) : State :=
  (s.countCut (s.lam.poison.filter (lineCut a n))).il L.DDR_CNT_POISON_CLEARED (s.lam.poison.filter (lineWhole a n)).length

section Put
variable (s : State) (a : Nat) (bs : List Nat)

/-- What storing bytes is: the counts of the poisoned lines, the bytes, and the lines left poisoned (R461). -/
theorem State.ddrPut_eq : s.ddrPut a bs = { s.countPoison a bs.length with
    lam := { (s.countPoison a bs.length).lam with
      ddr := s.lam.ddr.write ddrDefault a bs, poison := s.lam.poison.filter fun l => !lineWhole a bs.length l } } := by
  have hddr : (s.countCut (s.lam.poison.filter (lineCut a bs.length))).lam.ddr = s.lam.ddr := by rw [State.countCut_eq]
  rw [← hddr]
  rfl

theorem State.ddr_ddrPut : (s.ddrPut a bs).lam.ddr = s.lam.ddr.write ddrDefault a bs := by rw [State.ddrPut_eq]

theorem State.poison_ddrPut : (s.ddrPut a bs).lam.poison = s.lam.poison.filter fun l => !lineWhole a bs.length l := by
  rw [State.ddrPut_eq]

theorem State.rl_ddrPut (F : Fld) (i j : Nat) : (s.ddrPut a bs).rl F i j = (s.countPoison a bs.length).rl F i j := by
  rw [State.ddrPut_eq]
  rfl

theorem State.rl_ddrPut_cleared : (s.ddrPut a bs).rl L.DDR_CNT_POISON_CLEARED =
    satN 32 (s.rl L.DDR_CNT_POISON_CLEARED + (s.lam.poison.filter (lineWhole a bs.length)).length) := by
  rw [State.rl_ddrPut, State.countPoison, State.rl_il_self_satN, State.rl_countCut]
  · rfl
  · intro c
    simp only [Fld.key, L.DDR_CNT_POISON_CLEARED, L.DDR_CNT_RMW_UE]
    omega

/-- One poisoned line covered in part is counted in its channel. -/
theorem State.rl_ddrPut_rmwUe {l : Nat} (hcut : s.lam.poison.filter (lineCut a bs.length) = [l]) :
    (s.ddrPut a bs).rl L.DDR_CNT_RMW_UE (s.ddrChan (64 * l)) =
      satN 32 (s.rl L.DDR_CNT_RMW_UE (s.ddrChan (64 * l)) + 1) := by
  rw [State.rl_ddrPut, State.countPoison, hcut, State.rl_il_ne, State.countCut, List.foldl_cons,
    List.foldl_nil, State.rl_il_self_satN]
  · rfl
  · simp only [Fld.key, L.DDR_CNT_POISON_CLEARED, L.DDR_CNT_RMW_UE]
    omega

theorem State.ddrChan_ddrPut (x : Nat) : (s.ddrPut a bs).ddrChan x = s.ddrChan x := by
  have hcfg : (s.ddrPut a bs).rl L.DDR_CFG_CHANNELS = s.rl L.DDR_CFG_CHANNELS := by
    rw [State.rl_ddrPut, State.countPoison, State.rl_il_ne _ _ _ _ _ _ _ _ (by decide), State.rl_countCut]
    intro c
    simp only [Fld.key, L.DDR_CFG_CHANNELS, L.DDR_CNT_RMW_UE]
    omega
  unfold State.ddrChan
  rw [hcfg]

end Put

/-! ### An uncorrectable read -/

theorem mem_poisonAdd_self (l : List Nat) (x : Nat) : x ∈ poisonAdd l x := by
  induction l with
  | nil => exact List.mem_cons_self
  | cons y l ih =>
    unfold poisonAdd
    split_ifs with hlt heq
    · exact List.mem_cons_self
    · exact heq ▸ List.mem_cons_self
    · exact List.mem_cons_of_mem _ ih

section Ue
variable (s : State) (l : Nat)

/-- The line poisoned, counted and named, with its fault bit, before the event is logged (R460, R469). -/
def State.ueMarked : State :=
  (((({ s with lam := { s.lam with poison := poisonAdd s.lam.poison l } } : State).il L.DDR_CNT_UE 1 (s.ddrChan (64 * l))).wl
    L.DDR_UE_ADDR_LO (64 * l % 2 ^ 32)).wl L.DDR_UE_ADDR_HI (64 * l / 2 ^ 32)).wl L.LAM_FAULT_DDR_UE 1

theorem logs_ddrUe : Logs [] (s.ueMarked l) (s.ddrUe l) :=
  (((Logs.refl [] (s.ueMarked l)).lamFault).recFault _ _ _).boardEvent _ _ _

theorem State.rl_ddrUe_fault : (s.ddrUe l).rl L.LAM_FAULT_DDR_UE = 1 :=
  ((logs_ddrUe s l).rl _ 0 0 (by decide)).trans (State.rl_wl_self ..)

theorem State.rl_ddrUe_addrHi : (s.ddrUe l).rl L.DDR_UE_ADDR_HI = 64 * l / 2 ^ 32 % 2 ^ L.DDR_UE_ADDR_HI.width := by
  rw [(logs_ddrUe s l).rl _ 0 0 (by decide), State.ueMarked, State.rl_wl_ne _ _ _ _ _ _ _ _ (by decide), State.rl_wl_self]

theorem State.rl_ddrUe_addrLo : (s.ddrUe l).rl L.DDR_UE_ADDR_LO = 64 * l % 2 ^ 32 := by
  rw [(logs_ddrUe s l).rl _ 0 0 (by decide), State.ueMarked, State.rl_wl_ne _ _ _ _ _ _ _ _ (by decide),
    State.rl_wl_ne _ _ _ _ _ _ _ _ (by decide), State.rl_wl_self]
  exact Nat.mod_mod _ _

/-- A counter of uncorrectable reads lies above every register that the marking and the logging write. -/
theorem State.rl_ddrUe_count :
    (s.ddrUe l).rl L.DDR_CNT_UE (s.ddrChan (64 * l)) = satN 32 (s.rl L.DDR_CNT_UE (s.ddrChan (64 * l)) + 1) := by
  have hkey : ∀ c, 8 * 0x140104 ≤ L.DDR_CNT_UE.key c 0 := fun c => by simp only [Fld.key, L.DDR_CNT_UE]; omega
  have hlog : ∀ k ∈ logKeys [], k < 8 * 0x140104 := by decide
  have hne : ∀ F : Fld, F.key 0 0 < 8 * 0x140104 → L.DDR_CNT_UE.key (s.ddrChan (64 * l)) 0 ≠ F.key 0 0 :=
    fun F hF e => absurd (hkey (s.ddrChan (64 * l))) (by omega)
  rw [(logs_ddrUe s l).rl _ _ _ fun hmem => absurd (hlog _ hmem) (hkey _).not_gt, State.ueMarked,
    State.rl_wl_ne _ _ _ _ _ _ _ _ (hne _ (by decide)), State.rl_wl_ne _ _ _ _ _ _ _ _ (hne _ (by decide)),
    State.rl_wl_ne _ _ _ _ _ _ _ _ (hne _ (by decide)), State.rl_il_self_satN]
  rfl

end Ue

/-! ### The rows -/

section Rows
variable {s : State} {l : Nat} {e : Ecc}

theorem State.ddrLine_of_poisoned (h : l ∈ s.lam.poison) (e : Ecc) : s.ddrLine l e = (s, true) :=
  if_pos (List.contains_iff_mem.mpr h)

/-- A line that is not poisoned goes by its check bytes (R460). -/
theorem State.ddrLine_of_sound (h : l ∉ s.lam.poison) : s.ddrLine l .clean = (s, false) ∧
    s.ddrLine l .corrected = (s.il L.DDR_CNT_CE 1 (s.ddrChan (64 * l)), false) ∧
    s.ddrLine l .uncorrectable = (s.ddrUe l, true) := by
  have hn : ¬ s.lam.poison.contains l = true := by simpa using h
  exact ⟨if_neg hn, if_neg hn, if_neg hn⟩

theorem exec_ddrRead_of_inside (hin : 64 * l < s.ddrSize) (e : Ecc) : exec (.ddrRead l e) s = .next
    { (s.ddrLine l e).1 with rdata := if (s.ddrLine l e).2 then [] else (s.ddrLine l e).1.ddrWords (64 * l) 16 } :=
  if_neg hin.not_ge

/-- A write of a whole line, or of a poisoned one, needs no read. -/
theorem exec_ddrPartialWrite_of_no_read {o : Nat} {bs b : List Nat} (hin : 64 * l < s.ddrSize) (hb : b = bs.take (64 - o % 64))
    (h : b.length = 64 ∨ l ∈ s.lam.poison) (e : Ecc) :
    exec (.ddrPartialWrite l o bs e) s = .next (s.ddrPut (64 * l + o % 64) b) := by
  subst hb
  refine (if_neg hin.not_ge).trans (if_pos ?_)
  exact h.imp_right List.contains_iff_mem.mpr

theorem exec_ddrPartialWrite_of_line {bs : List Nat} (hin : 64 * l < s.ddrSize) (hlen : bs.length = 64) (e : Ecc) :
    exec (.ddrPartialWrite l 0 bs e) s = .next (s.ddrPut (64 * l) bs) :=
  exec_ddrPartialWrite_of_no_read hin (List.take_of_length_le hlen.le).symm (.inl hlen) e

/-- A write of a part of a sound line goes by what the read finds (R461). -/
theorem exec_ddrPartialWrite_of_read {o : Nat} {bs b : List Nat} (hin : 64 * l < s.ddrSize) (hb : b = bs.take (64 - o % 64))
    (hlen : b.length ≠ 64) (hl : l ∉ s.lam.poison) :
    exec (.ddrPartialWrite l o bs .clean) s = .next (s.ddrPut (64 * l + o % 64) b) ∧
    exec (.ddrPartialWrite l o bs .corrected) s =
      .next ((s.ddrPut (64 * l + o % 64) b).il L.DDR_CNT_RMW_CE 1 (s.ddrChan (64 * l + o % 64))) ∧
    exec (.ddrPartialWrite l o bs .uncorrectable) s = .next (State.il { s.ddrPut (64 * l + o % 64) b with
      lam := { (s.ddrPut (64 * l + o % 64) b).lam with poison := poisonAdd (s.ddrPut (64 * l + o % 64) b).lam.poison l } }
      L.DDR_CNT_RMW_UE 1 (s.ddrChan (64 * l + o % 64))) := by
  have hread : ¬ (b.length = 64 ∨ s.lam.poison.contains l = true) := by simp [hlen, hl]
  subst hb
  refine ⟨?_, ?_, ?_⟩
  · exact (if_neg hin.not_ge).trans (if_neg hread)
  · exact (if_neg hin.not_ge).trans (if_neg hread)
  · refine ((if_neg hin.not_ge).trans (if_neg hread)).trans ?_
    rw [← s.ddrChan_ddrPut (64 * l + o % 64) (bs.take (64 - o % 64))]
    rfl

end Rows

/-- Settles O58: a read by the line's state and the check bytes; a write by whether it needs a read first, with the
poisoned lines that it covers wholly cleared and those that it covers in part counted. -/
theorem memoryErrorsAndPoison : Obligations.MemoryErrorsAndPoison := by
  refine ⟨?clean, ?corrected, ?uncorrectable, ?poisoned, ?outside, ?partSound, ?partPoisoned, ?whole⟩
  case clean =>
    intro l s hin hl
    rw [exec_ddrRead_of_inside hin, (State.ddrLine_of_sound hl).1]
    rfl
  case corrected =>
    intro l s hin hl
    rw [exec_ddrRead_of_inside hin, (State.ddrLine_of_sound hl).2.1]
    rfl
  case uncorrectable =>
    intro l s hin hl
    refine ⟨{ s.ddrUe l with rdata := [] }, ?_, rfl, ?_, (logs_ddrUe s l).ddr, s.rl_ddrUe_fault l, s.rl_ddrUe_count l,
      s.rl_ddrUe_addrLo l, s.rl_ddrUe_addrHi l⟩
    · rw [exec_ddrRead_of_inside hin, (State.ddrLine_of_sound hl).2.2]
      rfl
    · rw [(logs_ddrUe s l).poison]
      exact mem_poisonAdd_self _ _
  case poisoned =>
    intro l e s hin hl
    rw [exec_ddrRead_of_inside hin, State.ddrLine_of_poisoned hl]
    rfl
  case outside => exact fun l s h => ⟨fun e => if_pos h, fun o bs e => if_pos h, fun e i k => if_pos h⟩
  case partSound =>
    rintro l o bs s a b hin hl rfl hb hlen
    obtain ⟨hclean, hcorrected, hue⟩ := exec_ddrPartialWrite_of_read hin hb hlen hl
    exact ⟨hclean, hcorrected, _, hue, rfl, mem_poisonAdd_self _ _⟩
  case partPoisoned =>
    intro l o bs e s b hin hb hlen hne hpoison
    have hl : l ∈ s.lam.poison := List.mem_of_mem_filter (hpoison ▸ List.mem_singleton_self l)
    have hfit : o % 64 + b.length ≤ 64 := by rw [hb, List.length_take]; omega
    have hpos : b.length ≠ 0 := by simpa using hne
    refine ⟨_, exec_ddrPartialWrite_of_no_read hin hb (.inr hl) e, ?_, State.ddr_ddrPut .., ?_⟩
    · rw [State.poison_ddrPut, List.mem_filter, lineWhole_part hfit hlen]
      exact ⟨hl, rfl⟩
    · refine State.rl_ddrPut_rmwUe _ _ _ ?_
      rw [← hpoison]
      exact List.filter_congr fun x _ => lineCut_part hfit hlen hpos x
  case whole =>
    intro l bs e s hin hlen
    have hwhole : s.lam.poison.filter (lineWhole (64 * l) bs.length) = s.lam.poison.filter (· == l) :=
      List.filter_congr fun x _ => by rw [hlen, lineWhole_line]
    refine ⟨_, exec_ddrPartialWrite_of_line hin hlen e, State.ddr_ddrPut .., ?_, fun hp => ?_, fun hl => ?_⟩
    · rw [State.poison_ddrPut]
      exact List.filter_congr fun x _ => congrArg not (by rw [hlen]; exact lineWhole_line l x)
    · exact (State.rl_ddrPut_cleared ..).trans (by rw [hwhole, hp]; rfl)
    · have hnone : s.lam.poison.filter (· == l) = [] :=
        List.filter_eq_nil_iff.mpr fun x hx heq => hl (beq_iff_eq.mp heq ▸ hx)
      exact (State.rl_ddrPut_cleared ..).trans (by rw [hwhole, hnone]; rfl)

end Sys2Proof.Machine
end

section
/-! PROOFS. What every step keeps: the queue but for its front, the canonical form, the keys; and what the classes of
rows leave, each read off the law of the rows (fr_of_exec_next). -/

namespace Sys2Proof.Machine

/-- A step is idle on an empty queue, or is the front command run with the queue's rest. -/
theorem step_next_cases {s t : State} (h : step s = .next t) :
    (s.pending = [] ∧ t = s) ∨ ∃ c q, s.pending = c :: q ∧ exec c (s.withPending q) = .next t := by
  unfold step at h
  split at h
  next hq => exact .inl ⟨hq, (Host.Outcome.next.inj h).symm⟩
  next c q hq => exact .inr ⟨c, q, hq, h⟩

/-- A key stays where further keys are programmed behind it. -/
theorem State.key_of_prefix {s t : State} {k : Nat} {d : List Nat} (h : s.lam.keys <+: t.lam.keys) (hk : s.key k = some d) :
    t.key k = some d := by
  obtain ⟨l, hl⟩ := h
  obtain ⟨x, hx, hd⟩ := Option.map_eq_some_iff.mp hk
  exact Option.map_eq_some_iff.mpr ⟨x, by rw [← hl, List.find?_append, hx]; rfl, hd⟩

/-- Settles O1: both branches of the step. -/
theorem stepRunsTheFrontCommand : Obligations.StepRunsTheFrontCommand :=
  ⟨fun _ _ _ => rfl, fun s h => by rw [step, h]⟩

/-- Settles O13: a row keeps the stores canonical (Fr.can), and the queue is no store. -/
theorem everyStepKeepsTheCanonicalForm : Obligations.EveryStepKeepsTheCanonicalForm := by
  intro s t hs h
  rcases step_next_cases h with ⟨-, rfl⟩ | ⟨c, q, -, hc⟩
  · exact hs
  · exact (fr_of_exec_next hc).can hs

/-- Settles O14: a row only adds keys behind those programmed (Fr.keys). -/
theorem programmedKeysStay : Obligations.ProgrammedKeysStay := by
  intro s t k d hk h
  rcases step_next_cases h with ⟨-, rfl⟩ | ⟨c, q, -, hc⟩
  · exact hk
  · exact State.key_of_prefix (s := s.withPending q) (fr_of_exec_next hc).keys hk

/-- Settles O9: the rows of the ITU do not have the Lamulo among their parts. -/
theorem ituRowsLeaveTheLamulo : Obligations.ItuRowsLeaveTheLamulo := by
  intro c s t hrow h
  have hfr := fr_of_exec_next h
  exact ⟨hfr.lam (congrArg not hrow), hfr.pend⟩

/-- Settles O10: the rows of the Lamulo do not have the ITU among their parts. -/
theorem lamuloRowsLeaveTheItu : Obligations.LamuloRowsLeaveTheItu := by
  intro c s t hrow h
  have hfr := fr_of_exec_next h
  exact ⟨hfr.itu (congrArg not hrow), hfr.pend⟩

/-- Settles O11: the rows outside ddrRow and norRow leave the memory itself, so every byte of it. -/
theorem memoryIsLeftByRowsThatStoreNothing : Obligations.MemoryIsLeftByRowsThatStoreNothing :=
  ⟨fun _ _ _ hrow h a => congrArg (Memory.byte ddrDefault · a) ((fr_of_exec_next h).ddr hrow),
    fun _ _ _ hrow h a => congrArg (Memory.byte norDefault · a) ((fr_of_exec_next h).nor hrow)⟩

/-- Settles O12: the front command leaves the rest of the queue as it was put to it (Fr.pend). -/
theorem stepTakesOneCommand : Obligations.StepTakesOneCommand := by
  intro s t h
  rcases step_next_cases h with ⟨hq, rfl⟩ | ⟨c, q, hq, hc⟩
  · rw [hq]; rfl
  · rw [(fr_of_exec_next hc).pend, hq]; rfl

end Sys2Proof.Machine
end

section
/-! PROOFS. Accesses that pass their test, and fields read after writes elsewhere: what most rows' proofs share. -/

namespace Sys2Proof.Machine

section Guard
variable {s : State} {sd : Side} {iss : Issuer} {a f : Nat} {w : Bool}

/-- The access tests of the two parts, under the names by which the rows call them. -/
theorem Allowed.guard (h : Allowed s sd iss a w f) : s.guard sd iss a w f = (s, true) := h
theorem Allowed.itu (h : Allowed s .itu iss a w f) : s.ituGuard iss a w f = (s, true) := h
theorem Allowed.lam (h : Allowed s .lam iss a w f) : s.lamGuard iss a w f = (s, true) := h

/-- A row that asks its test first does what it does once the test is passed. -/
theorem Allowed.ite (h : Allowed s sd iss a w f) (F G : State → Out) :
    (if (s.guard sd iss a w f).2 then F (s.guard sd iss a w f).1 else G (s.guard sd iss a w f).1) = F s := by
  rw [h.guard]; exact if_pos rfl

/-- The same of a row that leaves what the test left otherwise. -/
theorem Allowed.next (h : Allowed s sd iss a w f) (F : State → State) :
    (if (s.guard sd iss a w f).2 then .next (F (s.guard sd iss a w f).1) else .next (s.guard sd iss a w f).1 : Out) = .next (F s) :=
  h.ite (fun g => .next (F g)) .next

/-- The same of a row that asks more than the test. -/
theorem Allowed.next_and (h : Allowed s sd iss a w f) {b : Bool} (hb : b = true) (F : State → State) :
    (if (s.guard sd iss a w f).2 && b then .next (F (s.guard sd iss a w f).1) else .next (s.guard sd iss a w f).1 : Out) =
      .next (F s) := by
  rw [h.guard, hb]; exact if_pos rfl

end Guard

/-- A row whose outcome is known has its effect. -/
theorem Completes.of_eq {c : Instr} {s t : State} {P : State → Prop} (h : exec c s = .next t) (hP : P t) : Completes c s P :=
  ⟨t, h, hP⟩

/-! Two fields of one place, at the same index: a write of one leaves the other. -/

section Word
variable (s : State) (F G : Fld) (v n i j : Nat) (h1 : G.s1 = F.s1) (h2 : G.s2 = F.s2) (hb : 8 * G.addr + G.lo ≠ 8 * F.addr + F.lo)
include h1 h2 hb

theorem Fld.key_ne_of_base : G.key i j ≠ F.key i j := by
  simp only [Fld.key, h1, h2]; omega

theorem State.ri_wi_word : (s.wi F v i j).ri G i j = s.ri G i j := s.ri_wi_ne F G v i j i j (F.key_ne_of_base G i j h1 h2 hb)
theorem State.ri_ii_word : (s.ii F n i j).ri G i j = s.ri G i j := s.ri_ii_ne F G n i j i j (F.key_ne_of_base G i j h1 h2 hb)
theorem State.rl_wl_word : (s.wl F v i j).rl G i j = s.rl G i j := s.rl_wl_ne F G v i j i j (F.key_ne_of_base G i j h1 h2 hb)
theorem State.rl_il_word : (s.il F n i j).rl G i j = s.rl G i j := s.rl_il_ne F G n i j i j (F.key_ne_of_base G i j h1 h2 hb)

end Word

/-- A fold keeps a reading that each of its steps keeps. -/
theorem State.foldl_keeps {α β : Type} (get : State → β) {f : State → α → State} (hf : ∀ s a, get (f s a) = get s) (l : List α) (s : State) :
    get (l.foldl f s) = get s := by
  induction l generalizing s with
  | nil => rfl
  | cons a l ih => exact (ih (f s a)).trans (hf s a)

/-- A fold whose every step leaves the start leaves it. -/
theorem foldl_eq_self {α σ : Type} {f : σ → α → σ} {s : σ} {l : List α} (h : ∀ a ∈ l, f s a = s) : l.foldl f s = s := by
  induction l with
  | nil => rfl
  | cons a l ih =>
    rw [List.foldl_cons, h a List.mem_cons_self]
    exact ih fun b hb => h b (List.mem_cons_of_mem _ hb)

/-- A choice keeps a reading that both its sides keep. -/
theorem State.ite_keeps {β : Type} (get : State → β) {c : Prop} {_ : Decidable c} {a b : State} {v : β} (ha : get a = v) (hb : get b = v) :
    get (if c then a else b) = v := by
  split
  · exact ha
  · exact hb

/-- The entry of a list just set, and any other. -/
theorem nth_setNth_self (l : List Nat) (n v : Nat) : nth (setNth 0 l n v) n = v := getD_setNth_self ..
theorem nth_setNth_ne (l : List Nat) {n m : Nat} (v : Nat) (h : m ≠ n) : nth (setNth 0 l n v) m = nth l m := getD_setNth_ne _ _ _ _ _ h

end Sys2Proof.Machine
end

section
/-! PROOFS. Counters of the ITU (R95 to R109): counting, the select table, clearing, starting and live reads. -/

namespace Sys2Proof.Machine

section Counters
variable {s : State} {i : Nat}

@[simp] theorem State.ri_setSmp (s : State) (v : Smp) (F : Fld) (i j : Nat) : (s.setSmp v).ri F i j = s.ri F i j := rfl
@[simp] theorem State.csel_setSmp (s : State) (v : Smp) (i : Nat) : (s.setSmp v).csel i = s.csel i := rfl
@[simp] theorem State.cselInc_setSmp (s : State) (v : Smp) (c : CSel) (taps : List (Nat × Nat)) (evts : List Nat) :
    (s.setSmp v).cselInc c taps evts = s.cselInc c taps evts := rfl

/-- An account just set. -/
theorem State.blk_setBlk (s : State) (b : Nat) (v : BlkAcct) : (s.setBlk b v).blk b = v := getD_setNth_self ..

/-- A select entry written: its fields, its counter at zero, RESTART of its block; of the rest only SMP_STAT. -/
theorem State.writeCsel_spec (s : State) (i data : Nat) :
    (s.writeCsel i data).ri I.CSEL_SRC i = bits data 0 2 ∧ (s.writeCsel i data).ri I.CSEL_INDEX i = bits data 2 10 ∧
    (s.writeCsel i data).itu.smp.vals = Sparse.set 0 s.itu.smp.vals i 0 ∧
    ((s.writeCsel i data).blk (i / 256)).restart = i % 256 :: (s.blk (i / 256)).restart.filter (· != i % 256) ∧
    (s.writeCsel i data).lam = s.lam := by
  have hstat : ∀ (u : State) (F : Fld), F = I.CSEL_SRC ∨ F = I.CSEL_INDEX → (u.wi I.SMP_STAT_SEL_RANGE 1).ri F i = u.ri F i := by
    rintro u F (rfl | rfl) <;> refine State.ri_wi_ne _ _ _ _ _ _ _ _ ?_ <;>
      simp only [Fld.key, I.CSEL_SRC, I.CSEL_INDEX, I.SMP_STAT_SEL_RANGE] <;> omega
  unfold State.writeCsel
  extract_lets s1 m s2 b s3

  have hsrc : s3.ri I.CSEL_SRC i = bits data 0 2 := by
    simp (disch := decide) only [s3, s2, s1, State.setBlk, State.ri_setSmp, State.ri_wi_word, State.ri_wi_self]
    exact Nat.mod_mod _ _
  have hidx : s3.ri I.CSEL_INDEX i = bits data 2 10 := by
    simp (disch := decide) only [s3, s2, s1, State.setBlk, State.ri_setSmp, State.ri_wi_word, State.ri_wi_self]
    exact Nat.mod_mod _ _
  have hblk : (s3.blk (i / 256)).restart = i % 256 :: (s.blk (i / 256)).restart.filter (· != i % 256) :=
    congrArg BlkAcct.restart (State.blk_setBlk ..)
  split
  · exact ⟨hsrc, hidx, rfl, hblk, rfl⟩
  · exact ⟨(hstat _ _ (.inl rfl)).trans hsrc, (hstat _ _ (.inr rfl)).trans hidx, rfl, hblk, rfl⟩

/-- With the counters off, only the cycle count runs. -/
theorem exec_counterIncrement_of_off (taps : List (Nat × Nat)) (evts : List Nat) (n : Nat) (h : s.ri I.ITU_FN_EN_COUNTERS = 0) :
    exec (.counterIncrement taps evts n) s = .next (s.setSmp { s.itu.smp with cyc := (s.itu.smp.cyc + n) % 2 ^ 64 }) := if_pos h

/-- With the counters on, the counter of the one entry in use advances by its increment in each cycle. -/
theorem exec_counterIncrement_of_one (taps : List (Nat × Nat)) (evts : List Nat) (n : Nat) (h : s.ri I.ITU_FN_EN_COUNTERS = 1)
    (hi : s.cselUsed = [i]) : exec (.counterIncrement taps evts n) s = .next (s.setSmp { s.itu.smp with
      cyc := (s.itu.smp.cyc + n) % 2 ^ 64
      vals := Sparse.set 0 s.itu.smp.vals i ((Sparse.get 0 s.itu.smp.vals i + n * s.cselInc (s.csel i) taps evts) % 2 ^ 48) }) := by
  have hu : (s.setSmp { s.itu.smp with cyc := (s.itu.smp.cyc + n) % 2 ^ 64 }).cselUsed = [i] := hi
  refine (if_neg (by simp [h])).trans ?_
  rw [hu]
  rfl

/-- SMP_CTL.RUN by what is written, the enable of the counters and the bit as it stands. -/
theorem State.setRun_of_off (h : s.ri I.ITU_FN_EN_COUNTERS = 0) : s.setRun true = s.wi I.SMP_CTL_RUN 0 := by simp [State.setRun, h]
theorem State.setRun_of_stopped (h : s.ri I.ITU_FN_EN_COUNTERS = 1) (hr : s.ri I.SMP_CTL_RUN = 0) :
    s.setRun true = (s.wi I.SMP_CTL_RUN 1).reopenBlocks := by simp [State.setRun, h, hr]
theorem State.setRun_false (s : State) : s.setRun false = s.wi I.SMP_CTL_RUN 0 := by simp [State.setRun, b2n]

/-- The state of a tap is a byte (R96). -/
theorem tapState_lt (taps : List (Nat × Nat)) (t : Nat) : tapState taps t < 256 := by
  unfold tapState
  split
  · exact Nat.mod_lt _ (by decide)
  · decide

end Counters

/-- Settles O23: the rows by the enable of the counters, the entry named, and SMP_CTL.RUN. -/
theorem countersCountAndAreRead : Obligations.CountersCountAndAreRead := by
  refine ⟨?off, ?count, ?select, ?noEntry, ?clear, ?start, ?startOff, ?stop, ?read, fun _ _ => rfl, tapState_lt⟩
  case off => exact fun taps evts n s h => exec_counterIncrement_of_off taps evts n h
  case count =>
    intro taps evts n s i h hi
    refine .of_eq (exec_counterIncrement_of_one taps evts n h hi) ⟨?_, fun k hk => ?_, rfl, rfl, rfl⟩
    · exact Sparse.get_set_self ..
    · exact Sparse.get_set_ne _ _ _ hk
  case select =>
    intro iss i data s hi h
    obtain ⟨hsrc, hidx, hvals, hblk, hlam⟩ := s.writeCsel_spec i data
    refine .of_eq ((if_neg (Nat.not_le.mpr hi)).trans (h.next (·.writeCsel i data))) ⟨hsrc, hidx, ?_, hblk, fun k hk => ?_, hlam⟩
    · rw [hvals, Sparse.get_set_self]
    · rw [hvals, Sparse.get_set_ne _ _ _ hk]
  case noEntry => exact fun iss i data s h => if_pos h
  case clear => exact fun iss s h => h.next (·.clearCounters)
  case start =>
    intro iss s h hon hrun
    rw [← State.setRun_of_stopped hon hrun]
    exact h.next (·.setRun true)
  case startOff =>
    intro iss s h hoff
    rw [← State.setRun_of_off hoff]
    exact h.next (·.setRun true)
  case stop =>
    intro iss s h
    rw [← State.setRun_false]
    exact h.next (·.setRun false)
  case read =>
    exact fun iss s h => h.ite (fun g => .next { (g.readCounterLo iss.path).2 with rdata := [(g.readCounterLo iss.path).1] })
      fun g => .next { g with rdata := [0] }

end Sys2Proof.Machine
end

section
/-! PROOFS. Partition resets (R145 to R151, R159): triggers, the states of the sequence, the generation advance. -/

namespace Sys2Proof.Machine

/-! What the operations of an advance leave of PART_STAT.GEN (R149). -/

section Gen
variable {p : Nat} (hp : p < 16)

@[simp] theorem State.ri_setPseq (s : State) (p : Nat) (v : PartSeq) (F : Fld) (i j : Nat) : (s.setPseq p v).ri F i j = s.ri F i j := rfl
@[simp] theorem State.ri_setPins (s : State) (v : IPins) (F : Fld) (i j : Nat) : (s.setPins v).ri F i j = s.ri F i j := rfl
@[simp] theorem State.ri_setVis (s : State) (v : Visor) (F : Fld) (i j : Nat) : (s.setVis v).ri F i j = s.ri F i j := rfl
@[simp] theorem State.ri_setRow (s : State) (v : RowSmp) (F : Fld) (i j : Nat) : (s.setRow v).ri F i j = s.ri F i j := rfl
@[simp] theorem State.ri_setDig (s : State) (v : Dig) (F : Fld) (i j : Nat) : (s.setDig v).ri F i j = s.ri F i j := rfl
@[simp] theorem State.ri_setStc (s : State) (v : Stc) (F : Fld) (i j : Nat) : (s.setStc .itu v).ri F i j = s.ri F i j := rfl
@[simp] theorem State.ri_setCtx (s : State) (c : Nat) (v : StcCtx) (F : Fld) (i j : Nat) : (s.setCtx .itu c v).ri F i j = s.ri F i j := rfl
@[simp] theorem State.ri_setTxq (s : State) (v : SendQ) (F : Fld) (i j : Nat) :
    ({ s with itu := { s.itu with txq := v } } : State).ri F i j = s.ri F i j := rfl

/-- The offer of a record keeps the generations. -/
theorem State.gen_ituEmitFenced (s : State) (cls typ part short : Nat) (body : List Nat) :
    (s.ituEmitFenced cls typ part short body).ri I.PART_STAT_GEN p = s.ri I.PART_STAT_GEN p :=
  (ituSent_ituEmitFenced ..).ri _ _ _ (by simp only [Fld.key, I.PART_STAT_GEN, I.ILNK_CNT_Q_REFUSED]; omega)

theorem State.gen_ituEmit (s : State) (cls typ part short : Nat) (body : List Nat) :
    (s.ituEmit cls typ part short body).1.ri I.PART_STAT_GEN p = s.ri I.PART_STAT_GEN p :=
  (ituSent_ituEmit ..).ri _ _ _ (by simp only [Fld.key, I.PART_STAT_GEN, I.ILNK_CNT_Q_REFUSED]; omega)

theorem State.gen_visAfter (s : State) : s.visAfter.ri I.PART_STAT_GEN p = s.ri I.PART_STAT_GEN p := by
  have hw : ∀ v, (s.wi I.VIS_STAT_STATE v).ri I.PART_STAT_GEN p = s.ri I.PART_STAT_GEN p := fun v =>
    State.ri_wi_ne _ _ _ _ _ _ _ _ (by simp only [Fld.key, I.PART_STAT_GEN, I.VIS_STAT_STATE]; omega)
  exact State.ite_keeps (·.ri I.PART_STAT_GEN p) (State.ite_keeps (·.ri I.PART_STAT_GEN p) (hw 3) (hw 0)) rfl

theorem State.gen_trcFlushed (s : State) : (s.trcFlushed p).ri I.PART_STAT_GEN p = s.ri I.PART_STAT_GEN p :=
  State.ite_keeps (·.ri I.PART_STAT_GEN p)
    (State.ri_wi_ne _ _ _ _ _ _ _ _ (by simp only [Fld.key, I.PART_STAT_GEN, I.TRC_PSTAT_FLUSH_BUSY]; omega)) rfl

theorem State.gen_pdTryAll (s : State) : s.pdTryAll.ri I.PART_STAT_GEN p = s.ri I.PART_STAT_GEN p := by
  have hoff : ∀ (u : State) n, (u.pdTryOff n).ri I.PART_STAT_GEN p = u.ri I.PART_STAT_GEN p := fun u n =>
    State.ite_keeps (·.ri I.PART_STAT_GEN p) rfl rfl
  simp only [State.pdTryAll, hoff]

include hp

theorem State.gen_digIdle (s : State) : s.digIdle.ri I.PART_STAT_GEN p = s.ri I.PART_STAT_GEN p :=
  State.ri_wi_ne _ _ _ _ _ _ _ _ (by simp only [Fld.key, I.PART_STAT_GEN, I.DIG_STAT_STATE]; omega)

theorem State.gen_dropOld (s : State) : (s.dropOld p).ri I.PART_STAT_GEN p = s.ri I.PART_STAT_GEN p := by
  unfold State.dropOld
  extract_lets g t a b c k v w d all itu s1 vis s2 row s3 dig s4 s5 s6 s7 s8
  have h2 : s2.ri I.PART_STAT_GEN p = s.ri I.PART_STAT_GEN p :=
    State.ite_keeps (·.ri I.PART_STAT_GEN p) rfl (State.gen_visAfter _)
  have h5 : s5.ri I.PART_STAT_GEN p = s.ri I.PART_STAT_GEN p :=
    State.ite_keeps (·.ri I.PART_STAT_GEN p) h2 ((State.gen_digIdle hp _).trans h2)
  have h6 : s6.ri I.PART_STAT_GEN p = s.ri I.PART_STAT_GEN p :=
    (State.foldl_keeps (f := fun u r => u.smpDiscard r) (·.ri I.PART_STAT_GEN p) (fun _ _ => rfl) _ _).trans h5
  have h7 : s7.ri I.PART_STAT_GEN p = s6.ri I.PART_STAT_GEN p :=
    State.ri_ii_ne _ _ _ _ _ _ _ _ (by simp only [Fld.key, I.PART_STAT_GEN, I.VIS_CNT_DISCARD]; omega)
  have h8 : s8.ri I.PART_STAT_GEN p = s7.ri I.PART_STAT_GEN p :=
    State.ri_ii_ne _ _ _ _ _ _ _ _ (by simp only [Fld.key, I.PART_STAT_GEN, I.ROW_CNT_DISCARD]; omega)
  have h9 : (s8.ii I.CUFF_CNT_DROP all.length p).ri I.PART_STAT_GEN p = s8.ri I.PART_STAT_GEN p :=
    State.ri_ii_ne _ _ _ _ _ _ _ _ (by simp only [Fld.key, I.PART_STAT_GEN, I.CUFF_CNT_DROP]; omega)
  exact h9.trans (h8.trans (h7.trans (h6.trans rfl)))

/-- A stitch context at fault leaves the generations: its words lie beyond them. -/
theorem State.gen_stcFault (s : State) (c cause w : Nat) :
    (s.stcFault .itu c cause w).ri I.PART_STAT_GEN p = s.ri I.PART_STAT_GEN p := by
  have hstate : ∀ (u : State) v, (u.wi I.STC_CTX_STAT_STATE v c).ri I.PART_STAT_GEN p = u.ri I.PART_STAT_GEN p := fun u v =>
    State.ri_wi_ne _ _ _ _ _ _ _ _ (by simp only [Fld.key, I.PART_STAT_GEN, I.STC_CTX_STAT_STATE]; omega)
  have hcause : ∀ (u : State) v, (u.wi I.STC_CTX_STAT_CAUSE v c).ri I.PART_STAT_GEN p = u.ri I.PART_STAT_GEN p := fun u v =>
    State.ri_wi_ne _ _ _ _ _ _ _ _ (by simp only [Fld.key, I.PART_STAT_GEN, I.STC_CTX_STAT_CAUSE]; omega)
  have hfault : ∀ (u : State) v, (u.wi I.STC_STAT_FAULT v).ri I.PART_STAT_GEN p = u.ri I.PART_STAT_GEN p := fun u v =>
    State.ri_wi_ne _ _ _ _ _ _ _ _ (by simp only [Fld.key, I.PART_STAT_GEN, I.STC_STAT_FAULT]; omega)
  unfold State.stcFault
  extract_lets body s1 v s2 r
  have h2 : s2.ri I.PART_STAT_GEN p = s.ri I.PART_STAT_GEN p := (hfault _ _).trans ((hcause _ _).trans (hstate _ _))
  exact State.ite_keeps (·.ri I.PART_STAT_GEN p) h2 ((State.gen_ituEmit _ _ _ _ _ _).trans h2)

theorem State.gen_stcOwnerReset (s : State) (q : Nat) : (s.stcOwnerReset q).ri I.PART_STAT_GEN p = s.ri I.PART_STAT_GEN p :=
  State.foldl_keeps (·.ri I.PART_STAT_GEN p) (fun _ _ => State.ite_keeps (·.ri I.PART_STAT_GEN p) (State.gen_stcFault hp _ _ _ _) rfl) _ _

/-- An advance takes the partition to its next generation, modulo 256 (R149). -/
theorem State.gen_advance (s : State) (cause : Nat) : (s.advance p cause).ri I.PART_STAT_GEN p = (s.ri I.PART_STAT_GEN p + 1) % 256 := by
  have hlo : ∀ (u : State) v, (u.wi I.PART_LAST_ADV_LO v p).ri I.PART_STAT_GEN p = u.ri I.PART_STAT_GEN p := fun u v =>
    State.ri_wi_ne _ _ _ _ _ _ _ _ (by simp only [Fld.key, I.PART_STAT_GEN, I.PART_LAST_ADV_LO]; omega)
  have hhi : ∀ (u : State) v, (u.wi I.PART_LAST_ADV_HI v p).ri I.PART_STAT_GEN p = u.ri I.PART_STAT_GEN p := fun u v =>
    State.ri_wi_ne _ _ _ _ _ _ _ _ (by simp only [Fld.key, I.PART_STAT_GEN, I.PART_LAST_ADV_HI]; omega)
  have hcnt : ∀ (u : State) n, (u.ii I.PART_CNT_RESET n p).ri I.PART_STAT_GEN p = u.ri I.PART_STAT_GEN p := fun u n =>
    State.ri_ii_ne _ _ _ _ _ _ _ _ (by simp only [Fld.key, I.PART_STAT_GEN, I.PART_CNT_RESET]; omega)
  unfold State.advance
  extract_lets old t s1 s2 q s3 itu s4 s5 s6
  have h4 : s4.ri I.PART_STAT_GEN p = (old + 1) % 256 :=
    calc s4.ri I.PART_STAT_GEN p = s3.ri I.PART_STAT_GEN p := rfl
      _ = s2.ri I.PART_STAT_GEN p := hcnt _ _
      _ = (old + 1) % 256 % 2 ^ 8 := by rw [hhi, hlo, State.ri_wi_self]; rfl
      _ = (old + 1) % 256 := Nat.mod_mod _ _
  rw [State.gen_stcOwnerReset hp, State.gen_ituEmitFenced, State.gen_pdTryAll, State.gen_trcFlushed, State.gen_dropOld hp, h4]

end Gen

/-! The rows. -/

section Rows
variable {s : State} {p : Nat}

@[simp] theorem State.pseq_setPseq (s : State) (p : Nat) (v : PartSeq) : (s.setPseq p v).pseq p = v := getD_setNth_self ..

/-- A trigger of a partition in RUN with nothing held is taken: at once, or at the end of the gap. -/
theorem State.partTrigger_of_run (cause : Nat) (hp : p < s.itu.par.partitions) (hrun : s.pstate p = 0) (hheld : (s.pseq p).held = none)
    (hadv : s.itu.advHeld = false) : s.partTrigger p cause = if s.inGap p then
      ((s.wi I.PART_STAT_HELD 1 p).setPseq p { s.pseq p with held := some cause }, .accepted) else (s.partStart p cause, .accepted) :=
  (if_neg hp.not_ge).trans (if_neg (by simp [hrun, hheld, hadv]))

theorem State.partTrigger_of_no_partition (cause : Nat) (hp : s.itu.par.partitions ≤ p) :
    s.partTrigger p cause = (s.ii I.PART_CNT_REFUSED, .noPartition) := if_pos hp

theorem State.partTrigger_of_quiesce (cause : Nat) (hp : p < s.itu.par.partitions) (hq : s.pstate p = 2) :
    s.partTrigger p cause = (s.ii I.PART_CNT_REFUSED, .refused) :=
  (if_neg hp.not_ge).trans (if_pos (.inl (by simp [hq])))

/-- PART_RESET is answered by how its trigger is taken. -/
theorem exec_partReset_of_accepted (h : CmdHdr) (hr : (s.partTrigger (p % 16) 1).2 = .accepted) :
    exec (.partReset h p) s = .next ((s.partTrigger (p % 16) 1).1.ituReply { h with opcode := 0x25 } {}) := by
  simp only [exec, execPartReset, State.cmdItu, State.opPartReset, hr]
theorem exec_partReset_of_noPartition (h : CmdHdr) (hr : (s.partTrigger (p % 16) 1).2 = .noPartition) :
    exec (.partReset h p) s = .next ((s.partTrigger (p % 16) 1).1.ituReply { h with opcode := 0x25 } { status := St.badParam }) := by
  simp only [exec, execPartReset, State.cmdItu, State.opPartReset, hr]
theorem exec_partReset_of_refused (h : CmdHdr) (hr : (s.partTrigger (p % 16) 1).2 = .refused) :
    exec (.partReset h p) s = .next ((s.partTrigger (p % 16) 1).1.ituReply { h with opcode := 0x25 } { status := St.busy }) := by
  simp only [exec, execPartReset, State.cmdItu, State.opPartReset, hr]

/-- A held trigger starts once its gap has passed. -/
theorem exec_resetTriggerRelease_of_held {c : Nat} (hc : (s.pseq p).held = some c) : exec (.resetTriggerRelease p) s =
    if s.inGap p then .next s else .next ((s.wi I.PART_STAT_HELD 0 p).partStart p c) := by
  simp [exec, execResetTriggerRelease, hc]

theorem exec_resetTriggerRelease_of_gap (hg : s.inGap p = true) : exec (.resetTriggerRelease p) s = .next s := by
  simp only [exec, execResetTriggerRelease, hg]
  split <;> rfl

/-- No acknowledge within 100 us: the fault, then the fence as an acknowledge raises it. -/
theorem exec_quiesceTimeout_of_due (h2 : s.pstate p = 2) (hdue : 100000 ≤ s.itu.clk.ns - (s.pseq p).since) :
    exec (.quiesceTimeout p) s = .next (State.fence (((s.ii I.ITU_CNT_QUIESCE_TO).wi I.ITU_FAULT_QUIESCE_TO 1).setPseq p
      { s.pseq p with qto := true }) p) := if_pos ⟨h2, hdue⟩

/-- The fence: the Cuff is raised, the state is FENCE, and of other fields none changes. -/
theorem State.fence_spec (u : State) (p : Nat) : (u.fence p).ri I.PART_STAT_CUFF p = 1 ∧ (u.fence p).ri I.PART_STAT_STATE p = 3 ∧
    (u.fence p).pseq p = { u.pseq p with since := u.itu.clk.ns } := by
  refine ⟨?_, ?_, State.pseq_setPseq ..⟩
  · simp (disch := decide) only [State.fence, State.enterPart, State.ri_setPseq, State.ri_wi_word, State.ri_wi_self]; rfl
  · simp only [State.fence, State.enterPart, State.ri_setPseq, State.ri_wi_self]; rfl

/-- The state in which a partition whose reset is done enters RUN (R147). -/
def State.partRstRun (s : State) (p : Nat) : State :=
  let r := (s.setPins { s.itu.pins with quiesce := setBits s.itu.pins.quiesce p 1 0, rst := setBits s.itu.pins.rst p 1 0 }).wi
    I.PART_STAT_CUFF 0 p
  ((r.partDone p false (s.now .itu - (s.pseq p).since)).enterPart p 0).setPseq p { r.pseq p with hangVal := none, hangFresh := true }

theorem exec_partRstDone_of_reset (h4 : s.pstate p = 4) :
    exec (.partRstDone p) s = .next (((s.partRstRun p).partRelease p).partFreeze p false) := if_pos h4

theorem State.partRstRun_spec (s : State) (p : Nat) : (s.partRstRun p).ri I.PART_STAT_CUFF p = 0 ∧ (s.partRstRun p).ri I.PART_STAT_STATE p = 0 ∧
    (s.partRstRun p).itu.pins = { s.itu.pins with quiesce := setBits s.itu.pins.quiesce p 1 0, rst := setBits s.itu.pins.rst p 1 0 } ∧
    (s.partRstRun p).itu.clk = s.itu.clk ∧ (s.partRstRun p).lam = s.lam := by
  unfold State.partRstRun
  extract_lets i r q
  have hsent : ItuSent r (r.partDone p false (s.now .itu - (s.pseq p).since)) := ituSent_ituEmitFenced ..
  refine ⟨?_, State.ri_wi_self .., ?_, hsent.clk, hsent.lam⟩
  · have hdone := hsent.ri I.PART_STAT_CUFF p 0 (by simp only [Fld.key, I.PART_STAT_CUFF, I.ILNK_CNT_Q_REFUSED]; omega)
    simp (disch := decide) only [State.enterPart, State.ri_setPseq, State.ri_wi_word, hdone]
    exact State.ri_wi_self ..
  · exact congrArg (fun t : State => t.itu.pins) hsent.1

theorem State.advAll_of_run (hrun : ∀ p ∈ s.partList, s.pstate p = 0 ∧ (s.pseq p).held = none ∧ s.inGap p = false)
    (hadv : s.itu.advHeld = false) : s.advAll = s.advanceAll := by
  have hbusy : ¬ (s.partList.any fun p => (s.pstate p != 0 && s.pstate p != 5) || (s.pseq p).held.isSome) = true := by
    rw [List.any_eq_true]
    rintro ⟨p, hp, h⟩
    obtain ⟨h0, hheld, -⟩ := hrun p hp
    simp [h0, hheld] at h
  have hgap : ¬ s.partList.any s.inGap = true := by
    rw [List.any_eq_true]
    rintro ⟨p, hp, h⟩
    exact absurd ((hrun p hp).2.2.symm.trans h) (by decide)
  unfold State.advAll
  rw [if_neg hbusy, if_neg (by simp [hadv]), if_neg hgap]

theorem State.advAll_of_quiesce (hp : p ∈ s.partList) (hq : s.pstate p = 2) : s.advAll = s.ii I.PART_CNT_REFUSED :=
  if_pos (List.any_eq_true.mpr ⟨p, hp, by simp [hq]⟩)

end Rows

/-- Settles O24: the rows by the state of the partition, the time in it and what is held. -/
theorem partitionResetsRunTheirStates : Obligations.PartitionResetsRunTheirStates := by
  refine ⟨?start, ?hold, ?noPartition, ?busy, ?ctlReset, ?accepted, ?bad, ?refused, ?release, ?gap, ?captureEnd, ?notCapture,
    ?captureTimeout, ?quiesceAck, ?notQuiesce, ?quiesceTimeout, ?advance, ?notFence, ?gen, ?rstDone, ?notReset, ?resetTimeout,
    ?advAll, ?advRefused, ?advRelease, ?advNone⟩
  case start =>
    exact fun s p cause hp hrun hheld hadv hg => (State.partTrigger_of_run cause hp hrun hheld hadv).trans (if_neg (by simp [hg]))
  case hold => exact fun s p cause hp hrun hheld hadv hg => (State.partTrigger_of_run cause hp hrun hheld hadv).trans (if_pos hg)
  case noPartition => exact fun s p cause hp => State.partTrigger_of_no_partition cause hp
  case busy => exact fun s p cause hp hq => State.partTrigger_of_quiesce cause hp hq
  case ctlReset => exact fun iss p s h => h.next fun g => ((g.wi I.PART_CTL_PART p).partTrigger (p % 16) 0).1
  case accepted => exact fun h p s hr => exec_partReset_of_accepted h hr
  case bad => exact fun h p s hr => exec_partReset_of_noPartition h hr
  case refused => exact fun h p s hr => exec_partReset_of_refused h hr
  case release => exact fun p c s hc hg => (exec_resetTriggerRelease_of_held hc).trans (if_neg (by simp [hg]))
  case gap => exact fun p s hg => exec_resetTriggerRelease_of_gap hg
  case captureEnd => exact fun p s h1 hq hr => if_pos ⟨h1, hq, hr⟩
  case notCapture => exact fun p s h => ⟨if_neg fun hc => h hc.1, if_neg fun hc => h hc.1⟩
  case captureTimeout => exact fun p s h1 hdue hq => if_pos ⟨h1, hdue, hq⟩
  case quiesceAck => exact fun p s h2 => if_pos h2
  case notQuiesce => exact fun p s h => ⟨if_neg h, if_neg fun hc => h hc.1⟩
  case quiesceTimeout =>
    intro p s hp h2 hdue
    let u := ((s.ii I.ITU_CNT_QUIESCE_TO).wi I.ITU_FAULT_QUIESCE_TO 1).setPseq p { s.pseq p with qto := true }
    obtain ⟨hcuff, hstate, hseq⟩ := u.fence_spec p
    refine .of_eq (exec_quiesceTimeout_of_due h2 hdue) ⟨hcuff, hstate, ?_, ?_, rfl, rfl⟩
    · have hset : u.ri I.ITU_FAULT_QUIESCE_TO = 1 := State.ri_wi_self (s.ii I.ITU_CNT_QUIESCE_TO) I.ITU_FAULT_QUIESCE_TO 1 0 0
      refine (State.ri_wi_ne _ _ _ _ _ _ _ _ ?_).trans ((State.ri_wi_ne _ _ _ _ _ _ _ _ ?_).trans hset) <;>
        simp only [Fld.key, I.ITU_FAULT_QUIESCE_TO, I.PART_STAT_STATE, I.PART_STAT_CUFF] <;> omega
    · rw [hseq]; exact congrArg PartSeq.qto (State.pseq_setPseq ..)
  case advance => exact fun p s _ h3 hr => ⟨_, rfl, if_pos ⟨h3, hr⟩⟩
  case notFence => exact fun p s h => if_neg fun hc => h hc.1
  case gen => exact fun p cause s hp => State.gen_advance hp s cause
  case rstDone =>
    intro p s _ h4
    obtain ⟨hcuff, hstate, hpins, hclk, hlam⟩ := s.partRstRun_spec p
    exact ⟨_, exec_partRstDone_of_reset h4, hcuff, hstate, by rw [hpins], by rw [hpins], hclk, hlam⟩
  case notReset => exact fun p s h => ⟨if_neg h, if_neg fun hc => h hc.1⟩
  case resetTimeout => exact fun p s h4 hdue => if_pos ⟨h4, hdue⟩
  case advAll =>
    intro iss s h hrun hadv
    rw [← State.advAll_of_run hrun hadv]
    exact h.next (·.advAll)
  case advRefused =>
    intro iss s p h hp hq
    rw [← State.advAll_of_quiesce hp hq]
    exact h.next (·.advAll)
  case advRelease => exact fun s hadv hg => if_pos ⟨hadv, by simp [hg]⟩
  case advNone => exact fun s hadv => if_neg (by simp [hadv])

end Sys2Proof.Machine
end

section
/-! PROOFS. Reduction cells (R206 to R210, R219 to R223): what an input does to its cell, and a cell's close. -/

namespace Sys2Proof.Machine

section Cells
variable {s : State} {c d : Cell} {l x : LeafIn}

/-- An input joins a leaf that holds nothing yet; of two scalar inputs of a leaf the second is a duplicate. -/
theorem Cell.add_of_new (h : c.ins.find? (fun x => x.leaf == l.leaf) = none) : c.add l = some { c with ins := c.ins ++ [l] } := by
  simp [Cell.add, h]
theorem Cell.add_of_scalar (h : c.ins.find? (fun x => x.leaf == l.leaf) = some x) (hx : x.scalar = true) (hl : l.scalar = true) :
    c.add l = none := by
  simp [Cell.add, h, hx, hl]

/-- An input in time, with the engine on, goes to its open cell or, if there is room, opens it. -/
theorem State.cellInput_of_open (hon : s.statOn = true) (ht : s.now .lam ≤ s.cellEnd c.t) (hd : s.findCell c.spec c.gid c.t = some d) :
    s.cellInput c l = match d.add l with | some d => (s.putCell d).il L.STAT_CNT_UPD | none => s.il L.STAT_CNT_DUP := by
  unfold State.cellInput
  rw [if_neg (by simp [hon]), if_neg ht.not_gt, hd] <;> rfl

theorem State.cellInput_of_none (hon : s.statOn = true) (ht : s.now .lam ≤ s.cellEnd c.t) (hd : s.findCell c.spec c.gid c.t = none) :
    s.cellInput c l = if s.cellRoom c then (s.putCell { c with ins := [l] }).il L.STAT_CNT_UPD
      else ((s.wl L.STAT_STAT_NOCELL 1).il L.STAT_CNT_NOCELL l.count).miss l.src missNocell 0 l.count := by
  unfold State.cellInput
  rw [if_neg (by simp [hon]), if_neg ht.not_gt, hd]

theorem State.cellInput_of_late (hon : s.statOn = true) (ht : s.cellEnd c.t < s.now .lam) :
    s.cellInput c l = (s.il L.STAT_CNT_LATE).miss l.src missLate ((s.now .lam - c.t - 50000000) / 1000) l.count := by
  unfold State.cellInput
  rw [if_neg (by simp [hon]), if_pos ht]

/-- A partial that does not fit the entry in force is counted and reported (R208). -/
theorem State.partialRx_of_unfit (e : Env) (r : Rec) (hon : s.statOn = true)
    (hfit : partialFits (s.redSpec (bits (nth r.body 0) 0 9) (envTime e r)) r = false) :
    s.partialRx e r false = (s.il L.STAT_CNT_SPEC).miss (srcOf e r) missSpec 0
      ((headPartial r (s.rl L.CFG_EPOCH)).nIn + (headPartial r (s.rl L.CFG_EPOCH)).nNan) := by
  simp [State.partialRx, hon, hfit]

/-- Making several records keeps what making one keeps. -/
theorem lamSent_foldl {α : Type} {f : State → α → State} (hf : ∀ s a, LamSent s (f s a)) (l : List α) (s : State) :
    LamSent s (l.foldl f s) := by
  induction l generalizing s with
  | nil => exact .refl s
  | cons a l ih => exact (hf s a).trans (ih _)

theorem LamSent.ite {s a b : State} {c : Prop} {_ : Decidable c} (ha : LamSent s a) (hb : LamSent s b) : LamSent s (if c then a else b) := by
  split
  · exact ha
  · exact hb

/-- The state in which a poisoned cell emits: the cell is gone and the poison is counted and marked. -/
def State.poisonedDrop (s : State) (c : Cell) : State := ((s.dropCell c).il L.STAT_CNT_POISON).wl L.STAT_STAT_POISON 1

/-- A poisoned cell that closes marks its poison, perhaps STAT_STAT.MIXED, and makes records. -/
theorem State.closeCell_poison (s : State) (c : Cell) : ∃ u : State, (u = (s.poisonedDrop c).free.2 ∨ u = (s.poisonedDrop c).free.2.wl L.STAT_STAT_MIXED 1) ∧
    LamSent u (s.closeCell c true []) := by
  let u := if (((s.poisonedDrop c).free.2.cellResult c (s.poisonedDrop c).free.1 []).2).mixed then
    (s.poisonedDrop c).free.2.wl L.STAT_STAT_MIXED 1 else (s.poisonedDrop c).free.2
  have hbad : (c.ins.filter fun l => ([] : List Nat).contains l.leaf) = [] := List.filter_eq_nil_iff.mpr fun _ _ => by simp
  refine ⟨u, ?_, ?_⟩
  · unfold u
    split
    · exact .inr rfl
    · exact .inl rfl
  · unfold State.closeCell
    simp only [hbad, List.foldl_nil, ↓reduceIte]
    exact (LamSent.ite (lamSent_lamRec ..) (.refl _)).trans
      (LamSent.ite (lamSent_foldl (fun _ _ => lamSent_lamRec ..) _ _) (.refl _))

end Cells

/-- Settles O31: an input by the time, the cell of its key and the leaf's inputs; the close by the cell of the key. -/
theorem reductionCellsTakeInputsAndClose : Obligations.ReductionCellsTakeInputsAndClose := by
  refine ⟨?arrive, ?tray, ?unfit, ?join, ?duplicate, ?opens, ?noRoom, ?late, ?close, ?poison, ?notDue⟩
  case arrive => exact fun e r p s hrole htyp => if_pos ⟨hrole, htyp⟩
  case tray => exact fun e r p s hrole => if_neg fun h => h.1 hrole
  case unfit => exact fun e r s hon hfit => State.partialRx_of_unfit e r hon hfit
  case join =>
    intro s c l d hon ht hd hnew
    rw [State.cellInput_of_open hon ht hd, Cell.add_of_new hnew]
  case duplicate =>
    intro s c l d x hon ht hd hx hxs hls
    rw [State.cellInput_of_open hon ht hd, Cell.add_of_scalar hx hxs hls]
  case opens => exact fun s c l hon ht hd hroom => (State.cellInput_of_none hon ht hd).trans (if_pos hroom)
  case noRoom => exact fun s c l hon ht hd hroom => (State.cellInput_of_none hon ht hd).trans (if_neg (by simp [hroom]))
  case late => exact fun s c l hon ht => State.cellInput_of_late hon ht
  case close =>
    intro i g t p l s c hc ht hon
    simp [exec, execStatCellClose, hc, ht, hon]
  case poison =>
    intro s c
    obtain ⟨u, hu, hsent⟩ := s.closeCell_poison c
    refine ⟨?_, ?_, (fr_closeCell (fp := { lam := true }) _ _ _ rfl (.refl _ s)).itu rfl⟩
    · rw [hsent.rl _ _ _ (by decide)]
      rcases hu with rfl | rfl
      · exact State.rl_wl_self ..
      · exact (State.rl_wl_ne _ _ _ _ _ _ _ _ (by decide)).trans (State.rl_wl_self ..)
    · rw [hsent.1]
      rcases hu with rfl | rfl <;> rfl
  case notDue =>
    intro i g t p l s h
    simp only [exec, execStatCellClose]
    split
    next c hc =>
      rcases h with h | h
      · simp [h] at hc
      · exact if_neg fun hdue => h.not_ge hdue.1
    next => rfl

end Sys2Proof.Machine
end

section
/-! PROOFS. Verdict states of the forest engine (R260 to R262) and stream trackers (R110 to R117). -/

namespace Sys2Proof.Machine

/-! Differences modulo a power of two, read as signed (R7). -/

/-- A difference that fits w bits unsigned is kept. -/
theorem ofS_of_lt {w : Nat} {z : Int} (h0 : 0 ≤ z) (h : z < 2 ^ w) : ofS w z = z.toNat := by
  rw [ofS, Int.emod_eq_of_lt h0 h]

/-- A value that fits 64 bits signed is what its 64 bits read as. -/
theorem toS_ofS_64 {z : Int} (hlo : -2 ^ 63 ≤ z) (hhi : z < 2 ^ 63) : toS 64 (ofS 64 z) = z := by
  have hu : (ofS 64 z : Int) = z % 2 ^ 64 := by rw [ofS]; omega
  generalize ofS 64 z = u at hu
  unfold toS
  extract_lets v
  split <;> omega

section Verdict
variable (v : VState) (b : FBank) (confirm o x : Nat)

/-- The test of an output by whether it hits its threshold and how often it has. -/
theorem VState.test_of_miss (h : (if bitAt v.flag o then f32.lt x (nth b.off o) else f32.le (nth b.on o) x) = false) :
    v.test b confirm o x = ({ v with cnt := setNth 0 v.cnt o 0 }, false) := by
  simp only [VState.test, h]; rfl

theorem VState.test_of_hit (h : (if bitAt v.flag o then f32.lt x (nth b.off o) else f32.le (nth b.on o) x) = true) :
    v.test b confirm o x = if confirm ≤ min (nth v.cnt o + 1) 15 then ({ v with flag := v.flag ^^^ 2 ^ o, cnt := setNth 0 v.cnt o 0 }, true)
      else ({ v with cnt := setNth 0 v.cnt o (min (nth v.cnt o + 1) 15) }, false) := by
  simp only [VState.test, h]
  simp

end Verdict

section Tracker
variable {t : Tracker} {i : TrkIn}

/-- A restart by an input, whatever its binding. -/
theorem Tracker.restart_rebind_spec (t : Tracker) (i : TrkIn) (v : Nat) :
    ((t.restart i.full i.cyc v).rebind i).lastVal = v ∧ ((t.restart i.full i.cyc v).rebind i).lastTime = i.full ∧
    ((t.restart i.full i.cyc v).rebind i).lastCyc = i.cyc ∧ ((t.restart i.full i.cyc v).rebind i).warm = 0 ∧
    ((t.restart i.full i.cyc v).rebind i).discont = true ∧ ((t.restart i.full i.cyc v).rebind i).total = 0 ∧
    ((t.restart i.full i.cyc v).rebind i).detect = List.replicate 16 0 ∧ ((t.restart i.full i.cyc v).rebind i).gen = i.gen := by
  unfold Tracker.rebind
  split <;> exact ⟨rfl, rfl, rfl, rfl, rfl, rfl, rfl, rfl⟩

theorem Tracker.update_of_restart (hx : bitAt i.x 49 = false) (h : t.valid = false ∨ t.unused = true ∨ bitAt i.x 48 = true ∨ i.gen ≠ t.gen) :
    t.update i = ((t.restart i.full i.cyc (i.x % 2 ^ 48)).rebind i, .restarted) :=
  (if_neg (by simp [hx])).trans (if_pos h)

/-- An input that neither is invalid nor restarts goes by the signed difference of its time. -/
theorem Tracker.update_of_known (hx : bitAt i.x 49 = false) (hv : t.valid = true) (hu : t.unused = false) (hm : bitAt i.x 48 = false)
    (hg : i.gen = t.gen) : t.update i = if toS 64 (ofS 64 ((i.full : Int) - t.lastTime)) ≤ 0 then (t, .old)
      else if 2000000000 < toS 64 (ofS 64 ((i.full : Int) - t.lastTime)) then
        ((t.restart i.full i.cyc (i.x % 2 ^ 48)).rebind i, .restarted)
      else ((t.advance i (ofS 48 (((i.x % 2 ^ 48 : Nat) : Int) - t.lastVal)) (toS 64 (ofS 64 ((i.full : Int) - t.lastTime))).toNat
        (ofS 32 ((i.cyc : Int) - t.lastCyc))).rebind i, .interval (ofS 48 (((i.x % 2 ^ 48 : Nat) : Int) - t.lastVal))) :=
  (if_neg (by simp [hx])).trans (if_neg (by simp [hv, hu, hm, hg]))

/-- An accepted interval: later by no more than 2 s, the value not below the last (R112). -/
theorem Tracker.update_of_interval (hx : bitAt i.x 49 = false) (hv : t.valid = true) (hu : t.unused = false) (hm : bitAt i.x 48 = false)
    (hg : i.gen = t.gen) (hlt : t.lastTime < i.full) (hnear : i.full ≤ t.lastTime + 2000000000) (hval : t.lastVal ≤ i.x % 2 ^ 48) :
    t.update i = ((t.advance i (i.x % 2 ^ 48 - t.lastVal) (i.full - t.lastTime) (ofS 32 ((i.cyc : Int) - t.lastCyc))).rebind i,
      .interval (i.x % 2 ^ 48 - t.lastVal)) := by
  have hd : toS 64 (ofS 64 ((i.full : Int) - t.lastTime)) = (i.full : Int) - t.lastTime := toS_ofS_64 (by omega) (by omega)
  have hdv : ofS 48 (((i.x % 2 ^ 48 : Nat) : Int) - t.lastVal) = i.x % 2 ^ 48 - t.lastVal := by
    rw [ofS_of_lt (by omega) (by omega)]; omega
  have hdt : ((i.full : Int) - t.lastTime).toNat = i.full - t.lastTime := by omega
  rw [Tracker.update_of_known hx hv hu hm hg, hd, hdv, hdt, if_neg (by omega), if_neg (by omega)]

end Tracker

section Rows
variable {s : State} {i : Nat}

/-- The oldest update waiting for a head that has come in time is applied. -/
theorem exec_virtualHeadArrival_of_waiting {j : Nat} {u : VirtUpd} (p : Bool) (hu : s.lam.virtQ.find? (fun u => u.j == j) = some u)
    (ht : s.lam.clk.ns ≤ u.slotEnd) : exec (.virtualHeadArrival j p) s = .next
      (({ s with lam := { s.lam with virtQ := s.lam.virtQ.erase u } } : State).virtApply u (p || s.lam.poison.contains (s.virtAddr j / 64))) := by
  simp only [exec, execVirtualHeadArrival, hu]
  have hlate : ¬ u.slotEnd < State.now { s with lam := { s.lam with virtQ := s.lam.virtQ.erase u } } .lam := ht.not_gt
  rw [if_neg hlate]
  rfl

/-- The command of a snapshot copies a tracker, or zeros where none is in use. -/
theorem exec_trkSnapCmdWrite_of_allowed {iss : Issuer} (h : Allowed s .lam iss L.TRK_SNAP_CMD.addr true 0) (hi : i < 2 ^ 21) :
    exec (.trkSnapCmdWrite iss i) s = .next (s.trkSnapCopy i) := by
  have hcopy : exec (.trkSnapCmdWrite iss i) s = .next (s.trkSnapCopy (i % 2 ^ 21)) := h.next (·.trkSnapCopy (i % 2 ^ 21))
  rwa [Nat.mod_eq_of_lt hi] at hcopy

theorem State.rl_trkSnapCopy_done (s : State) (i : Nat) : (s.trkSnapCopy i).rl L.TRK_SNAP_STAT_DONE = 1 :=
  (State.rl_wl_ne _ _ _ _ _ _ _ _ (by decide)).trans (State.rl_wl_self ..)
theorem State.rl_trkSnapCopy_badIdx (s : State) (i : Nat) : (s.trkSnapCopy i).rl L.TRK_SNAP_STAT_BAD_IDX = b2n (!s.trkInUse i) :=
  (State.rl_wl_self ..).trans (b2n_mod_two _)
theorem State.trkSnap_trkSnapCopy (s : State) (i : Nat) : (s.trkSnapCopy i).lam.trkSnap = if !s.trkInUse i then List.replicate 96 0
    else if i < 65536 then (s.trkAt i).words else (s.virtAt (i - 65536)).words := rfl

theorem State.trkInUse_of_lt (s : State) (hi : i < 65536) : s.trkInUse i = true := by simp [State.trkInUse, hi]

/-- TRK_ASSIGN of a hardware tracker: KEY alone, or the tracker freed. -/
theorem exec_trkAssign_of_lt (h : CmdHdr) {d c : Nat} (f : Bool) (hi : i < 65536) : exec (.trkAssign h i d c f) s = .next
    ((s.setTrk i (if f then { s.trkAt i with valid := false } else { die := d % 2 ^ 17, counter := c % 4096, valid := true })).lamReply
      { h with opcode := 0x22 } {}) := by
  have hmod : i % 2 ^ 21 = i := Nat.mod_eq_of_lt (by omega)
  simp only [exec, execTrkAssign, State.cmdLam, State.opTrkAssign, hmod, s.trkInUse_of_lt hi, if_pos hi]
  rfl

theorem exec_trkAssign_of_unused (h : CmdHdr) (d c : Nat) (f : Bool) (hi : i < 2 ^ 21) (hu : s.trkInUse i = false) :
    exec (.trkAssign h i d c f) s = .next (s.lamReply { h with opcode := 0x22 } { status := St.badParam }) := by
  simp only [exec, execTrkAssign, State.cmdLam, State.opTrkAssign, Nat.mod_eq_of_lt hi, hu]
  rfl

end Rows

/-- Settles O35: the state a vector meets, an output's test by its flag, hit and count; the trackers by the index, the
waiting update, and the signed time difference of the input. -/
theorem verdictStatesAndTrackers : Obligations.VerdictStatesAndTrackers := by
  refine ⟨?meets, ?restarts, ?sets, ?clears, ?misses, ?counts, fun _ => rfl, ?head, ?noHead, ?headPoison, ?snap, ?snapBad, ?assign, ?free,
    ?assignBad, ?invalid, ?trkRestart, ?old, ?interval⟩
  case meets => exact fun v x h1 h2 h3 h4 h5 => if_neg (by simp [h1, h2, h3, h4, h5])
  case restarts =>
    intro v x h
    have hmeet : v.meet x = { valid := true, gen := x.gen, swaps := x.swaps, rank := x.bind.rank, bound := x.bind.bound } :=
      if_pos (by simpa [or_assoc] using h)
    rw [hmeet]
    exact ⟨rfl, rfl, rfl, rfl, rfl⟩
  case sets => exact fun v b confirm o x hf hle hc => (v.test_of_hit b confirm o x (by simp [hf, hle])).trans (if_pos hc)
  case clears => exact fun v b confirm o x hf hlt hc => (v.test_of_hit b confirm o x (by simp [hf, hlt])).trans (if_pos hc)
  case misses => exact fun v b confirm o x hf hle => v.test_of_miss b confirm o x (by simp [hf, hle])
  case counts => exact fun v b confirm o x hf hle hc => (v.test_of_hit b confirm o x (by simp [hf, hle])).trans (if_neg hc.not_ge)
  case head => exact fun j p s u hu ht => exec_virtualHeadArrival_of_waiting p hu ht
  case noHead => exact fun j p s h => by simp only [exec, execVirtualHeadArrival, h]
  case headPoison =>
    intro s u
    refine ⟨?_, (fr_virtApply (fp := { lam := true, ddr := true }) u true rfl rfl (.refl _ s)).itu rfl⟩
    exact (State.rl_il_ne _ _ _ _ _ _ _ _ (by decide)).trans
      ((State.rl_il_ne _ _ _ _ _ _ _ _ (by decide)).trans (State.rl_wl_self ..))
  case snap =>
    intro iss i s h hi
    refine .of_eq (exec_trkSnapCmdWrite_of_allowed h (by omega)) ⟨?_, s.rl_trkSnapCopy_done i, ?_, rfl⟩
    · rw [State.trkSnap_trkSnapCopy, s.trkInUse_of_lt hi, if_pos hi]; rfl
    · rw [State.rl_trkSnapCopy_badIdx, s.trkInUse_of_lt hi]; rfl
  case snapBad =>
    intro iss i s h hi hu
    refine .of_eq (exec_trkSnapCmdWrite_of_allowed h hi) ⟨?_, s.rl_trkSnapCopy_done i, ?_, rfl⟩
    · rw [State.trkSnap_trkSnapCopy, hu]; rfl
    · rw [State.rl_trkSnapCopy_badIdx, hu]; rfl
  case assign =>
    intro h i d c s hi hd hc
    rw [exec_trkAssign_of_lt h false hi, Nat.mod_eq_of_lt hd, Nat.mod_eq_of_lt hc]
    rfl
  case free => exact fun h i d c s hi => exec_trkAssign_of_lt h true hi
  case assignBad => exact fun h i d c f s hi hu => exec_trkAssign_of_unused h d c f hi hu
  case invalid => exact fun t i h => if_pos h
  case trkRestart =>
    intro t i hx h
    rw [Tracker.update_of_restart hx h]
    exact ⟨rfl, Tracker.restart_rebind_spec t i _⟩
  case old =>
    intro t i hx hv hu hm hg hle hnear
    rw [Tracker.update_of_known hx hv hu hm hg, toS_ofS_64 (by omega) (by omega), if_pos (by omega)]
  case interval =>
    intro t i hx hv hu hm hg hlt hnear _ hval hb
    rw [Tracker.update_of_interval hx hv hu hm hg hlt hnear hval]
    simp [Tracker.rebind, Tracker.advance, Tracker.put, hb]

end Sys2Proof.Machine
end

section
/-! PROOFS. Transactions (R390 to R393): their begin, commit, abort and status, the votes and the decision. -/

namespace Sys2Proof.Machine

section Txn
variable {s : State} {h : CmdHdr} {n : Nat} {t : Txn} {v : Votes}

/-- TXN_BEGIN by the kind of the transaction, the node and the transactions open. -/
theorem State.txnBegin_of_target (h : CmdHdr) (hc : s.isCrown = false) : s.txnBegin h true = (s, { status := St.badTarget }) :=
  if_pos (by simp [hc])
theorem State.txnBegin_of_full (h : CmdHdr) {f : Bool} (hc : f = true → s.isCrown = true) (hfull : 16 ≤ s.lam.ctl.txns.length) :
    s.txnBegin h f = (s, { status := St.txnFull }) :=
  (if_neg (by cases f <;> simp [hc])).trans (if_pos hfull)
theorem State.txnBegin_of_room (h : CmdHdr) {f : Bool} (hc : f = true → s.isCrown = true) (hroom : s.lam.ctl.txns.length < 16) :
    ∃ d, s.txnBegin h f = (s.setCtl { s.lam.ctl with
      txnLast := (s.lam.ctl.txnLast + 1) % 2 ^ 23
      txns := s.lam.ctl.txns ++ [{ num := (s.lam.ctl.txnLast + 1) % 2 ^ 23 + if f then 2 ^ 23 else 0, owner := h.owner,
                                   begun := s.lam.clk.ns, last := s.lam.clk.ns }]
      decided := d }, { result := (s.lam.ctl.txnLast + 1) % 2 ^ 23 + if f then 2 ^ 23 else 0 }) :=
  ⟨_, (if_neg (by cases f <;> simp [hc])).trans (if_neg hroom.not_ge)⟩

/-- TXN_COMMIT by the transaction that its number names. -/
theorem State.txnCommit_of_unknown (ht : s.txnOf h.txn = none) : s.txnCommit h = s.lamReply h { status := St.txnUnknown } := by
  simp only [State.txnCommit, ht]
theorem State.txnCommit_of_denied (ht : s.txnOf h.txn = some t) (hf : fleetTxn t.num = true) (ha : h.auth ≠ 2) :
    s.txnCommit h = (s.denied h).lamReply h { status := St.denied } := by
  simp only [State.txnCommit, ht, hf, if_pos (And.intro trivial ha)]
theorem State.txnCommit_of_state (ht : s.txnOf h.txn = some t) (hf : fleetTxn t.num = false)
    (hst : t.state ≠ .opened ∨ s.slotsOk .lam = false) : s.txnCommit h = s.lamReply h { status := St.txnState } := by
  have hbad : t.state ≠ .opened ∨ (!s.slotsOk .lam) = true := hst.imp_right fun e => by rw [e]; rfl
  simp only [State.txnCommit, ht, hf, if_pos hbad]
  rfl
theorem State.txnCommit_of_tray (ht : s.txnOf h.txn = some t) (hf : fleetTxn t.num = false) (hst : t.state = .opened)
    (hok : s.slotsOk .lam = true) : s.txnCommit h = (s.putTxn { t with
      state := .preparing, c := (s.commitAt false).1, mc := (s.commitAt false).2, commit := some h, last := s.lam.clk.ns }).prepare
        t.num (s.commitAt false).1 (s.commitAt false).2 := by
  have hgood : ¬ (t.state ≠ .opened ∨ (!s.slotsOk .lam) = true) := by simp [hst, hok]
  simp only [State.txnCommit, ht, hf, if_neg hgood]
  rfl

theorem State.txnAbort_of_unknown (ht : s.txnOf h.txn = none) : s.txnAbort h = (s, { status := St.txnUnknown }) := by
  simp only [State.txnAbort, ht]
theorem State.txnAbort_of_opened (ht : s.txnOf h.txn = some t) (hf : fleetTxn t.num = false) (hst : t.state = .opened) :
    s.txnAbort h = (s.rollback t, {}) := by
  simp [State.txnAbort, ht, hf, hst]

/-- Votes gathered, by what has come. -/
theorem State.putVotes_of_against (ht : s.txnOf v.txn = some t) (hv : v.first.isSome = true) : s.putVotes v = s.decideTxn t false v := by
  simp only [State.putVotes, ht, hv, if_true]
theorem State.putVotes_of_all (ht : s.txnOf v.txn = some t) (hv : v.first = none) (hw : v.wait = []) : s.putVotes v = s.decideTxn t true v := by
  simp [State.putVotes, ht, hv, hw]

theorem State.voteRx_of_prepared {w : Bool × Nat} {b : List Nat} (hv : s.lam.ctl.votes.find? (fun v => v.txn == bits (nth b 0) 0 24) = some v)
    (hw : v.wait.contains w = true) (hst : bits (nth b 0) 24 8 = St.prepared) :
    s.voteRx w b = s.putVotes (v.add w (nth b 1 % 2 ^ 18) (nth b 2 % 2 ^ 18) (nth b 3 % 2 ^ 18) none) := by
  simp only [State.voteRx, hv, hw, hst, if_true]

/-- The two deadlines of the votes of a transaction: that of the decision is the Crown's own for its FLEET transactions. -/
theorem exec_voteDeadline_of_votes (hv : s.lam.ctl.votes.find? (fun v => v.txn == n) = some v) : exec (.voteDeadline n) s =
    if v.due ≤ s.now .lam ∧ !(fleetTxn n && s.isCrown) then .next (s.votesLate v) else .next s := by
  simp only [exec, execVoteDeadline, hv]
theorem exec_decideDeadline_of_votes (hv : s.lam.ctl.votes.find? (fun v => v.txn == n) = some v) : exec (.decideDeadline n) s =
    if v.due ≤ s.now .lam ∧ fleetTxn n ∧ s.isCrown then .next (s.votesLate v) else .next s := by
  simp only [exec, execDecideDeadline, hv]

end Txn

/-- Settles O44: the commands by the transaction that they name, the votes by what has come and when. -/
theorem transactionsBeginAndAreDecided : Obligations.TransactionsBeginAndAreDecided := by
  refine ⟨?begins, ?full, ?target, ?commit, ?commitUnknown, ?commitState, ?commitDenied, ?abort, ?abortUnknown, fun _ _ => rfl, ?opened,
    ?decided, fun _ _ _ _ => rfl, fun _ _ _ _ => rfl, fun _ _ _ => rfl, fun _ _ _ => rfl, fun _ _ _ _ => rfl, ?vote, ?late, ?notDue,
    ?fleetLate, ?noVotes, ?against, ?all⟩
  case begins =>
    intro h f s hc hroom
    obtain ⟨d, hd⟩ := s.txnBegin_of_room h hc hroom
    refine ⟨(s.txnBegin h f).1, ?_, by rw [hd]; rfl, by rw [hd]; rfl, by rw [hd]; rfl⟩
    rw [hd]
    exact congrArg (fun r : State × CmdRes => Host.Outcome.next (r.1.lamReply { h with opcode := 8 } r.2)) hd
  case full =>
    exact fun h f s hc hfull => congrArg (fun r : State × CmdRes => Host.Outcome.next (r.1.lamReply { h with opcode := 8 } r.2))
      (State.txnBegin_of_full h hc hfull)
  case target =>
    exact fun h s hc => congrArg (fun r : State × CmdRes => Host.Outcome.next (r.1.lamReply { h with opcode := 8 } r.2))
      (State.txnBegin_of_target h hc)
  case commit =>
    exact fun h s t ht hf hst hok => congrArg Host.Outcome.next (State.txnCommit_of_tray (h := { h with opcode := 9 }) ht hf hst hok)
  case commitUnknown => exact fun h s ht => congrArg Host.Outcome.next (State.txnCommit_of_unknown (h := { h with opcode := 9 }) ht)
  case commitState =>
    exact fun h s t ht hf hst => congrArg Host.Outcome.next (State.txnCommit_of_state (h := { h with opcode := 9 }) ht hf hst)
  case commitDenied =>
    exact fun h s t ht hf ha => congrArg Host.Outcome.next (State.txnCommit_of_denied (h := { h with opcode := 9 }) ht hf ha)
  case abort =>
    exact fun h s t ht hf hst => congrArg (fun r : State × CmdRes => Host.Outcome.next (r.1.lamReply { h with opcode := 0x0A } r.2))
      (State.txnAbort_of_opened (h := h) ht hf hst)
  case abortUnknown =>
    exact fun h s ht => congrArg (fun r : State × CmdRes => Host.Outcome.next (r.1.lamReply { h with opcode := 0x0A } r.2))
      (State.txnAbort_of_unknown (h := h) ht)
  case opened =>
    intro s n t ht hst
    simp only [State.txnStatus, ht, hst, if_true]
  case decided =>
    intro s n c ht hd hf
    simp [State.txnStatus, ht, hd, hf]
  case vote => exact fun s w b v hv hw hst => State.voteRx_of_prepared hv hw hst
  case late =>
    exact fun n v s hv hdue hf => (exec_voteDeadline_of_votes hv).trans (if_pos ⟨hdue, by rcases hf with e | e <;> simp [e]⟩)
  case notDue =>
    exact fun n v s hv hlt => ⟨(exec_voteDeadline_of_votes hv).trans (if_neg fun h => hlt.not_ge h.1),
      (exec_decideDeadline_of_votes hv).trans (if_neg fun h => hlt.not_ge h.1)⟩
  case fleetLate =>
    exact fun n v s hv hdue hf hc => ⟨(exec_decideDeadline_of_votes hv).trans (if_pos ⟨hdue, hf, hc⟩),
      (exec_voteDeadline_of_votes hv).trans (if_neg (by simp [hf, hc]))⟩
  case noVotes => exact fun n s hv => ⟨by simp only [exec, execVoteDeadline, hv], by simp only [exec, execDecideDeadline, hv]⟩
  case against => exact fun s v t ht hv => State.putVotes_of_against ht hv
  case all => exact fun s v t ht hv hw => State.putVotes_of_all ht hv hw

end Sys2Proof.Machine
end

section
/-! PROOFS. The commit instant, doubt, idle transactions and the watchdog (R391, R394 to R397); hardware locks (R154 to R156,
R398, R399). -/

namespace Sys2Proof.Machine

section Instant
variable {s : State} {g : Stg} {n : Nat} {t : Txn} {w : StgWait}

/-- The commit instant of an ITU by what it has staged. -/
theorem exec_commitInstant_itu_of_staged (hg : s.itu.txn.stg = some g) : exec (.commitInstant .itu) s =
    .next (if g.voted && decide (g.c ≤ s.now .itu) && (g.commit || !g.doubt) then s.reachCItu g else s) := by
  simp only [exec, execCommitInstant, hg]

/-- The instant at a Lamulo and at an ITU by whether the decision has come. -/
theorem State.reachC_of_commit (hc : g.commit = true) (hd : g.doubt = false) : s.reachC g = (s.commitLam g g.c).dropStg g.txn := by
  simp [State.reachC, hc, hd]
theorem State.reachC_of_undecided (hc : g.commit = false) :
    s.reachC g = ((s.putStg { g with doubt := true }).il L.TXN_CNT_IN_DOUBT).outcomeLam g.txn 0 := by
  simp [State.reachC, hc]
theorem State.reachCItu_of_commit (hc : g.commit = true) (hd : g.doubt = false) :
    s.reachCItu g = ((s.setIStg { s.itu.txn with stg := none }).commitItu g).retryWaits .itu := by
  simp [State.reachCItu, hc, hd]
theorem State.reachCItu_of_undecided (hc : g.commit = false) : s.reachCItu g =
    ((s.setIStg { s.itu.txn with stg := some { g with doubt := true } }).ii I.ITXN_CNT_IN_DOUBT).outcomeItu g.txn 0 := by
  simp [State.reachCItu, hc]

theorem exec_txnIdleTimeout_of_txn (ht : s.txnOf n = some t) : exec (.txnIdleTimeout n) s =
    if t.state = .opened ∧ s.rl L.TXN_IDLE_MS ≤ msSince (s.now .lam) t.last then .next (s.rollback t) else .next s := by
  simp only [exec, execTxnIdleTimeout, ht]

end Instant

section Locks
variable {s : State} {h : CmdHdr} {i w : Nat}

/-- LOCK_ACQUIRE in the order of its tests: the operands, the owner's generation, the order of locks, the lock. -/
theorem State.lockAcquire_of_bad (hb : 256 ≤ i ∨ 1000 < w) : s.lockAcquire h i w = s.lamReply h { status := St.badParam } := if_pos hb

theorem State.lockAcquire_of_stale (hi : i < 256) (hw : w ≤ 1000) (hs : s.staleGen h h.owner = true) :
    s.lockAcquire h i w = s.lamReply h { status := St.staleGen } :=
  (if_neg (by omega)).trans (if_pos hs)

theorem State.lockAcquire_of_order (hi : i < 256) (hw : w ≤ 1000) (hs : s.staleGen h h.owner = false) (ha : s.lockAbove h.owner i = true) :
    s.lockAcquire h i w = (s.il L.LOCK_CNT_ORDER).lamReply h { status := St.lockOrder } :=
  (if_neg (by omega)).trans ((if_neg (by simp [hs])).trans (if_pos ha))

theorem State.lockAcquire_of_free (hi : i < 256) (hw : w ≤ 1000) (hs : s.staleGen h h.owner = false) (ha : s.lockAbove h.owner i = false)
    (hl : s.lockHeld i = false) :
    s.lockAcquire h i w = (s.lockGrant i h.owner).1.lamReply h { status := (s.lockGrant i h.owner).2 } :=
  (if_neg (by omega)).trans ((if_neg (by simp [hs])).trans ((if_neg (by simp [ha])).trans (if_pos (by simp [hl]))))

theorem State.lockAcquire_of_held (hi : i < 256) (hw : w ≤ 1000) (hs : s.staleGen h h.owner = false) (ha : s.lockAbove h.owner i = false)
    (hl : s.lockHeld i = true) : s.lockAcquire h i w =
      if w = 0 ∨ 4 ≤ (s.lam.ctl.lockWaits.filter fun w => w.idx == i).length ∨ 64 ≤ s.lam.ctl.lockWaits.length then
        s.lamReply h { status := St.lockHeld }
      else s.setLockWaits (s.lam.ctl.lockWaits ++ [⟨i, h, h.owner, s.now .lam, w⟩]) i :=
  (if_neg (by omega)).trans ((if_neg (by simp [hs])).trans ((if_neg (by simp [ha])).trans (if_neg (by simp [hl]))))

/-- The registers of a lock just granted. -/
theorem State.lockGrant_spec (s : State) (i : Nat) (o : Owner) : (s.lockGrant i o).1.lockHeld i = true ∧
    (s.lockGrant i o).1.rl L.LOCK_STATE_LO_OWNER i = o.id % 2 ^ L.LOCK_STATE_LO_OWNER.width ∧
    (s.lockGrant i o).1.rl L.LOCK_STATE_LO_GEN i = o.gen % 2 ^ L.LOCK_STATE_LO_GEN.width ∧
    (s.lockGrant i o).1.rl L.LOCK_STATE_HI_ABANDONED i = 0 ∧ (s.lockGrant i o).1.itu = s.itu := by
  refine ⟨?_, ?_, ?_, ?_, rfl⟩
  · simp (disch := decide) only [State.lockHeld, State.lockGrant, State.rl_wl_word, State.rl_wl_self]; rfl
  all_goals simp (disch := decide) only [State.lockGrant, State.rl_wl_word, State.rl_wl_self]
  rfl

theorem State.lockGrant_status (s : State) (i : Nat) (o : Owner) :
    (s.lockGrant i o).2 = if s.rl L.LOCK_STATE_HI_ABANDONED i = 1 then St.okAbandoned else St.ok := rfl

/-- A lock that nobody waits for, just released. -/
theorem State.lockFree_spec (hw : s.lam.ctl.lockWaits = []) (b : Bool) :
    (s.lockFree i b).lockHeld i = false ∧ (s.lockFree i b).rl L.LOCK_STATE_HI_ABANDONED i = b2n b := by
  have hcount : ∀ (u : State) (F : Fld), F = L.LOCK_STATE_HI_HELD ∨ F = L.LOCK_STATE_HI_ABANDONED →
      (if b then u.il L.LOCK_CNT_ABANDONED else u).rl F i = u.rl F i := by
    rintro u F (rfl | rfl) <;> refine State.ite_keeps (fun x : State => x.rl _ i) (State.rl_il_ne _ _ _ _ _ _ _ _ ?_) rfl <;>
      simp only [Fld.key, L.LOCK_STATE_HI_HELD, L.LOCK_STATE_HI_ABANDONED, L.LOCK_CNT_ABANDONED] <;> omega
  have hfree : s.lockFree i b = if b then ((s.wl L.LOCK_STATE_HI_HELD 0 i).wl L.LOCK_STATE_HI_ABANDONED (b2n b) i).il L.LOCK_CNT_ABANDONED
      else (s.wl L.LOCK_STATE_HI_HELD 0 i).wl L.LOCK_STATE_HI_ABANDONED (b2n b) i := by
    cases b <;> simp [State.lockFree, hw]
  rw [State.lockHeld, hfree, hcount _ _ (.inl rfl), hcount _ _ (.inr rfl)]
  simp (disch := decide) only [State.rl_wl_word, State.rl_wl_self]
  exact ⟨rfl, b2n_mod_two b⟩

/-- LOCK_RELEASE in the order of its tests. -/
theorem State.lockRelease_of_denied (hi : i < 256) (ha : h.auth ≠ 2) : s.lockRelease h i true = (s.denied h, { status := St.denied }) :=
  (if_neg hi.not_ge).trans (if_pos (by simp [ha]))

theorem State.lockRelease_of_held {f : Bool} (hi : i < 256) (ha : f = true → h.auth = 2) (hl : s.lockHeld i = true) : s.lockRelease h i f =
    if s.lockOwner i == h.owner then (s.lockFree i false, {}) else if f then (s.lockFree i true, {}) else (s, { status := St.notOwner }) :=
  (if_neg hi.not_ge).trans ((if_neg (by cases f <;> simp [ha])).trans (if_neg (by simp [hl])))

/-- With no lock held and no transaction open a new generation abandons nothing. -/
theorem State.abandon_of_idle (isNode : Bool) (id part gen : Nat) (ht : s.lam.ctl.txns = []) (hl : ∀ i, i < 256 → s.lockHeld i = false) :
    s.abandon isNode id part gen = s := by
  have hlocks : (List.range 256).foldl (fun s i =>
      if s.lockHeld i && (s.lockOwner i).left isNode id part gen then s.lockFree i true else s) s = s :=
    foldl_eq_self fun i hi => if_neg (by simp [hl i (List.mem_range.mp hi)])
  unfold State.abandon
  rw [hlocks]
  simp only [ht, List.filter_nil, List.foldl_nil]

end Locks

/-- A command that the Lamulo executes, with its result known, is answered by it. -/
theorem cmdLam_of_eq {s t : State} {h : CmdHdr} {op : State → State × CmdRes} {r : CmdRes} (e : op s = (t, r)) :
    (.next (s.cmdLam h op) : Out) = .next (t.lamReply h r) := by
  rw [State.cmdLam, e]

/-- Settles O45: the instant by what is staged and decided; the watchdog by the longest wait; the locks in the order of the
tests of each command. -/
theorem commitInstantWatchdogAndLocks : Obligations.CommitInstantWatchdogAndLocks := by
  refine ⟨?due, ?noneDue, ?ituDue, ?ituNotDue, ?ituNone, fun _ _ => State.reachC_of_commit, fun _ _ => State.reachC_of_undecided,
    fun _ _ => State.reachCItu_of_undecided, fun _ _ => State.reachCItu_of_commit, ?idle, ?notIdle, ?noTxn, ?wdogItu, ?noWdogItu, ?wdogStage,
    ?wdogLock, ?noWdog, ?decision, ?acquire, ?acquireAbandoned, ?waits, ?held, ?order, ?stale, ?bad, ?release, ?notOwner, ?force, ?forceDenied,
    ?freed, ?query, ?queryBad, ?timeout, ?noTimeout, fun _ _ _ _ _ _ => rfl, ?notice⟩
  case due =>
    intro s g l hl
    have hne : s.dueStg ≠ [] := by simp [hl]
    simp only [exec, execCommitInstant, if_neg hne]
    rw [hl]
  case noneDue => exact fun s h => congrArg Host.Outcome.next (if_pos h)
  case ituDue =>
    exact fun s g hg hv hc hd => (exec_commitInstant_itu_of_staged hg).trans
      (congrArg Host.Outcome.next (if_pos (by rcases hd with e | e <;> simp [hv, e, State.now, State.clk, hc])))
  case ituNotDue =>
    exact fun s g hg h => (exec_commitInstant_itu_of_staged hg).trans
      (congrArg Host.Outcome.next (if_neg (by rcases h with e | e <;> simp [State.now, State.clk, e, Nat.not_le.mpr])))
  case ituNone => exact fun s h => by simp only [exec, execCommitInstant, h]
  case idle => exact fun n s t ht hst hidle => (exec_txnIdleTimeout_of_txn ht).trans (if_pos ⟨hst, hidle⟩)
  case notIdle =>
    refine fun n s t ht h => (exec_txnIdleTimeout_of_txn ht).trans (if_neg fun hc => ?_)
    exact h.elim (fun hst => hst hc.1) fun hlt => hlt.not_ge hc.2
  case noTxn => exact fun n s ht => by simp only [exec, execTxnIdleTimeout, ht]
  case wdogItu => exact fun s w hw => by simp only [exec, execWatchdogExpiry, hw]
  case noWdogItu => exact fun s hw => by simp only [exec, execWatchdogExpiry, hw]
  case wdogStage => exact fun s w hw => by simp only [exec, execWatchdogExpiry, hw]
  case wdogLock => exact fun s w hs hw => by simp only [exec, execWatchdogExpiry, hs, List.find?_nil, hw]
  case noWdog => exact fun s hs hl => by simp only [exec, execWatchdogExpiry, hs, hl, List.find?_nil]
  case decision => exact fun s n b => ⟨rfl, List.length_take_le .., rfl⟩
  case acquire =>
    intro h i s hi hs ha hl hab
    obtain ⟨hheld, howner, hgen, habandoned, hitu⟩ := s.lockGrant_spec i h.owner
    refine ⟨_, (congrArg Host.Outcome.next (State.lockAcquire_of_free (h := { h with opcode := 0x10 }) hi (Nat.zero_le _) hs ha hl)).trans ?_,
      hheld, howner, hgen, habandoned, hitu⟩
    rw [State.lockGrant_status, if_neg (by simp [hab])]
    rfl
  case acquireAbandoned =>
    intro h i s hi hs ha hl hab
    obtain ⟨hheld, -, -, habandoned, -⟩ := s.lockGrant_spec i h.owner
    refine ⟨_, (congrArg Host.Outcome.next (State.lockAcquire_of_free (h := { h with opcode := 0x10 }) hi (Nat.zero_le _) hs ha hl)).trans ?_,
      hheld, habandoned⟩
    rw [State.lockGrant_status, if_pos hab]
    rfl
  case waits =>
    intro h i w s hi hw hw' hs ha hl hfour hall
    exact congrArg Host.Outcome.next
      ((State.lockAcquire_of_held (h := { h with opcode := 0x10 }) hi hw' hs ha hl).trans (if_neg (by omega)))
  case held =>
    exact fun h i s hi hs ha hl => congrArg Host.Outcome.next
      ((State.lockAcquire_of_held (h := { h with opcode := 0x10 }) hi (Nat.zero_le _) hs ha hl).trans (if_pos (.inl rfl)))
  case order =>
    exact fun h i s hi hs ha =>
      congrArg Host.Outcome.next (State.lockAcquire_of_order (h := { h with opcode := 0x10 }) hi (Nat.zero_le _) hs ha)
  case stale =>
    exact fun h i s hi hs => congrArg Host.Outcome.next (State.lockAcquire_of_stale (h := { h with opcode := 0x10 }) hi (Nat.zero_le _) hs)
  case bad => exact fun h i w s hb => congrArg Host.Outcome.next (State.lockAcquire_of_bad hb)
  case release => exact fun h i s hi hl ho => cmdLam_of_eq ((State.lockRelease_of_held hi (by simp) hl).trans (if_pos (by simp [ho])))
  case notOwner => exact fun h i s hi hl ho => cmdLam_of_eq ((State.lockRelease_of_held hi (by simp) hl).trans (if_neg (by simpa using ho)))
  case force =>
    exact fun h i s hi ha hl ho => cmdLam_of_eq ((State.lockRelease_of_held hi (fun _ => ha) hl).trans (if_neg (by simpa using ho)))
  case forceDenied => exact fun h i s hi ha => cmdLam_of_eq (State.lockRelease_of_denied hi ha)
  case freed =>
    intro s i _ hw
    obtain ⟨hheld, habandoned⟩ := State.lockFree_spec (i := i) hw true
    obtain ⟨hheld', habandoned'⟩ := State.lockFree_spec (i := i) hw false
    exact ⟨hheld, habandoned, hheld', habandoned'⟩
  case query => exact fun h i s hi => cmdLam_of_eq (if_neg hi.not_ge)
  case queryBad => exact fun h i s hi => cmdLam_of_eq (if_pos hi)
  case timeout => exact fun i s w hw => by simp only [exec, execLockWaitTimeout, hw]
  case noTimeout => exact fun i s hw => by simp only [exec, execLockWaitTimeout, hw]
  case notice =>
    intro s d p g ht hl
    exact State.abandon_of_idle (s := s.learnGen false d p g) false d p g ht hl

end Sys2Proof.Machine
end

section
/-! PROOFS. The arithmetic instructions of a stitch context (R406, R407) by their formats, and its registers (R404). -/

namespace Sys2Proof.Machine

section Format
variable {s : State} {sd : Side} {c op w : Nat}

/-- What an issued instruction of format R, of FP32 and of format I writes to xD. -/
theorem State.stcR_of_issues (h : s.Issues sd c op w) (g : Nat → Nat → Nat) : s.stcR sd c op g =
    ((s.issued sd c).setX sd c (iD w) (g ((s.ctx sd c).reg (iA w)) ((s.ctx sd c).reg (iB w)))).stcGoOn sd c := by
  rw [State.stcR, State.stcIssue_of_issues _ _ _ _ _ _ h, State.reg_issued, State.reg_issued]
theorem State.stcI_of_issues (h : s.Issues sd c op w) (g : Nat → Nat → Nat) : s.stcI sd c op g =
    ((s.issued sd c).setX sd c (iD w) (g w ((s.ctx sd c).reg (iA w)))).stcGoOn sd c := by
  rw [State.stcI, State.stcIssue_of_issues _ _ _ _ _ _ h, State.reg_issued]

/-- An instruction of format R or I whose function is written otherwise. -/
theorem next_stcR_of_issues (h : s.Issues sd c op w) {g g' : Nat → Nat → Nat} (e : ∀ a b, g a b = g' a b) :
    (.next (s.stcR sd c op g) : Out) =
      .next (((s.issued sd c).setX sd c (iD w) (g' ((s.ctx sd c).reg (iA w)) ((s.ctx sd c).reg (iB w)))).stcGoOn sd c) :=
  congrArg Host.Outcome.next ((State.stcR_of_issues h g).trans (by rw [e]))
theorem next_stcI_of_issues (h : s.Issues sd c op w) {g : Nat → Nat → Nat} {v : Nat} (e : g w ((s.ctx sd c).reg (iA w)) = v) :
    (.next (s.stcI sd c op g) : Out) = .next (((s.issued sd c).setX sd c (iD w) v).stcGoOn sd c) :=
  congrArg Host.Outcome.next ((State.stcI_of_issues h g).trans (by rw [e]))

end Format

theorem b2n_decide (p : Prop) [Decidable p] : b2n (decide p) = if p then 1 else 0 := by
  by_cases h : p <;> simp [b2n, h]

/-- Instruction i of opcode op, issued by context c, writes g of xA and xB to xD. -/
def State.Writes (s : State) (sd : Side) (c w : Nat) (i : Instr) (op : Nat) (g : Nat → Nat → Nat) : Prop :=
  s.Issues sd c op w → exec i s =
    .next (((s.issued sd c).setX sd c (iD w) (g ((s.ctx sd c).reg (iA w)) ((s.ctx sd c).reg (iB w)))).stcGoOn sd c)

/-- An instruction that is one of format R writes what the format's function says. -/
theorem State.writes_of_stcR {s : State} {sd : Side} {c w op : Nat} {i : Instr} {g g' : Nat → Nat → Nat}
    (hi : exec i s = .next (s.stcR sd c op g)) (e : ∀ a b, g a b = g' a b) : s.Writes sd c w i op g' :=
  fun h => hi.trans (next_stcR_of_issues h e)
theorem State.writes_of_stcI {s : State} {sd : Side} {c w op : Nat} {i : Instr} {g g' : Nat → Nat → Nat}
    (hi : exec i s = .next (s.stcI sd c op g)) (e : ∀ a b, g w a = g' a b) : s.Writes sd c w i op g' :=
  fun h => hi.trans (next_stcI_of_issues h (e _ _))

/-- What holds of every row of a table holds of its first and of the rest. -/
theorem forall_mem_cons_row {α β γ : Type} {P : α → β → γ → Prop} {a : α} {b : β} {g : γ} {l : List (α × β × γ)} (h : P a b g)
    (hl : ∀ i o f, (i, o, f) ∈ l → P i o f) : ∀ i o f, (i, o, f) ∈ (a, b, g) :: l → P i o f := by
  intro i o f hm
  rcases List.mem_cons.mp hm with e | hm
  · obtain ⟨rfl, rfl, rfl⟩ := e
    exact h
  · exact hl i o f hm

/-- Settles O48: each row of the table by its format; only the shifts and the comparisons are written otherwise than in the model. -/
theorem stitchArithmeticWritesItsRegister : Obligations.StitchArithmeticWritesItsRegister := by
  refine ⟨?arith, fun _ _ _ => ⟨rfl, fun _ => rfl⟩, fun sd c n s v h => ⟨State.ctx_setX s sd c n v h, State.reg_setX s sd c n v h⟩⟩
  case arith =>
    intro sd c s w
    suffices rows : ∀ i op g, _ → s.Writes sd c w i op g from fun i op g h hi => rows i op g hi h
    refine forall_mem_cons_row ?add <| forall_mem_cons_row ?sub <| forall_mem_cons_row ?and <| forall_mem_cons_row ?or <|
      forall_mem_cons_row ?xor <| forall_mem_cons_row ?shl <| forall_mem_cons_row ?shr <| forall_mem_cons_row ?sra <|
      forall_mem_cons_row ?mul <| forall_mem_cons_row ?slt <| forall_mem_cons_row ?sltu <| forall_mem_cons_row ?fadd <|
      forall_mem_cons_row ?fsub <| forall_mem_cons_row ?fmul <| forall_mem_cons_row ?fdiv <| forall_mem_cons_row ?fmin <|
      forall_mem_cons_row ?fmax <| forall_mem_cons_row ?ldi <| forall_mem_cons_row ?ldh <| forall_mem_cons_row ?addi <|
      forall_mem_cons_row ?fcvt <| forall_mem_cons_row ?ftoi <|
      fun _ _ _ h => absurd h List.not_mem_nil
    case shl => exact State.writes_of_stcR rfl fun a b => congrArg (· % 2 ^ 64) (Nat.shiftLeft_eq a (b % 64))
    case shr => exact State.writes_of_stcR rfl fun a b => Nat.shiftRight_eq_div_pow a (b % 64)
    case slt => exact State.writes_of_stcR rfl fun _ _ => b2n_decide _
    case sltu => exact State.writes_of_stcR rfl fun _ _ => b2n_decide _
    case ldi => exact fun h => congrArg Host.Outcome.next (State.stcIssue_of_issues s sd c _ w _ h)
    case ldh => exact State.writes_of_stcI rfl fun a _ => congrArg (· % 2 ^ 64 ||| bits w 0 16) (Nat.shiftLeft_eq a 16)
    case addi => exact State.writes_of_stcI rfl fun _ _ => rfl
    case fcvt => exact State.writes_of_stcI rfl fun _ _ => rfl
    case ftoi => exact State.writes_of_stcI rfl fun _ _ => rfl
    all_goals exact State.writes_of_stcR rfl fun _ _ => rfl

end Sys2Proof.Machine
end

section
/-! PROOFS. Local memory and slot buffers of stitch contexts (R407, R412): what an issued instruction finds in them. -/

namespace Sys2Proof.Machine

section Issued
variable {s : State} {sd : Side} {c w : Nat}

/-- The registers of the slots are other ones than the counters of the contexts. -/
theorem State.rx_issued {F G : Fld} {n : Nat} (hc : c < stcContexts sd) (hF : 0xA000 ≤ F.addr) (hG : 0x132000 ≤ G.addr) :
    (s.issued sd c).rx sd F G n = s.rx sd F G n := by
  have hc : c < 32 := hc.trans_le (by cases sd <;> decide)
  rw [State.issued, State.setPc, State.rx_wx_ne, State.rx_setCtx, State.rx_ix_ne, State.rx_setCtx]
  all_goals simp only [Fld.key, I.STC_CTX_PC, L.STC_CTX_PC, I.STC_CNT_INSTR, L.STC_CNT_INSTR]; omega
theorem State.slotFull_issued {n : Nat} (hc : c < stcContexts sd) : (s.issued sd c).slotFull sd n = s.slotFull sd n :=
  congrArg (· == 1) (State.rx_issued hc (by decide) (by decide))
theorem State.mem_issued : ((s.issued sd c).stc sd).mem = (s.stc sd).mem := by
  simp [State.issued, State.setPc, State.setCtx]
theorem State.stcAddr_issued : (s.issued sd c).stcAddr sd c w = s.stcAddr sd c w := by
  rw [State.stcAddr, State.reg_issued]; rfl
theorem State.stcTrap_issued (cause : Nat) :
    (s.issued sd c).stcTrap sd c cause w = ((s.issued sd c).setPc sd c (s.ctx sd c).pc).stcFault sd c cause w := by
  rw [State.stcTrap, State.ctx_issued]; rfl

/-- The slot that an issued SRD or SWR names. -/
theorem State.stcSlotNo_of_lt {n : Nat} (hn : n = ((s.ctx sd c).reg (iA w) + imm18 w) % 2 ^ 64) (hlt : n < stcSlots sd) :
    (s.issued sd c).stcSlotNo sd c w = (n, s.issued sd c) := by
  subst hn
  simp only [State.stcSlotNo, State.reg_issued, if_pos hlt]
theorem State.stcSlotNo_of_le {n : Nat} (hn : n = ((s.ctx sd c).reg (iA w) + imm18 w) % 2 ^ 64) (hle : stcSlots sd ≤ n) :
    (s.issued sd c).stcSlotNo sd c w = ((s.issued sd c).free.1 % stcSlots sd, (s.issued sd c).free.2) := by
  subst hn
  simp only [State.stcSlotNo, State.reg_issued, if_neg hle.not_gt]

theorem State.Issues.lt {op : Nat} (h : s.Issues sd c op w) : c < stcContexts sd := by
  obtain ⟨hready, -⟩ := h
  simp only [State.stcReady, Bool.and_eq_true, decide_eq_true_eq] at hready
  exact hready.1.1

/-- SRD and SWR of an issued instruction, by the slot that they name. -/
theorem exec_srd_of_slotNo {n : Nat} {t : State} (h : s.Issues sd c 0x22 w) (hn : (s.issued sd c).stcSlotNo sd c w = (n, t)) :
    exec (.srd sd c) s = .next (((t.stcStall sd c (.read n (iD w))).stcSettle sd).stcGoOn sd c) := by
  simp only [exec, execSrd, State.stcIssue_of_issues _ _ _ _ _ _ h, hn]
theorem exec_swr_of_slot {n : Nat} (h : s.Issues sd c 0x23 w) (hn : (s.issued sd c).stcSlotNo sd c w = (n, s.issued sd c)) :
    exec (.swr sd c) s = .next ((if s.slotFull sd n && s.rx sd I.SLOT_CFG_LOSSY L.SLOT_CFG_LOSSY n == 1 then
      (((s.issued sd c).ix sd I.SLOT_CNT_DROP L.SLOT_CNT_DROP).ix sd I.STC_CNT_FULL L.STC_CNT_FULL c).setLast sd c 3
    else ((s.issued sd c).stcStall sd c (.write n ((s.ctx sd c).reg (iD w)))).stcSettle sd).stcGoOn sd c) := by
  have hc := h.lt
  simp only [exec, execSwr, State.stcIssue_of_issues _ _ _ _ _ _ h, hn, State.reg_issued, State.slotFull_issued hc]
  rw [State.rx_issued hc (by decide) (by decide)]

/-- LD and ST, by their address. -/
theorem exec_ld_of_issues (h : s.Issues sd c 0x20 w) : exec (.ld sd c) s = .next ((if s.stcAddr sd c w < stcMem sd then
      (s.issued sd c).setX sd c (iD w) (Sparse.get 0 (s.stc sd).mem (8192 * c + s.stcAddr sd c w))
    else ((s.issued sd c).setPc sd c (s.ctx sd c).pc).stcFault sd c 5 w).stcGoOn sd c) := by
  simp only [exec, execLd, State.stcIssue_of_issues _ _ _ _ _ _ h, State.stcAddr_issued, State.stcTrap_issued, State.stcMemAt,
    State.mem_issued]
theorem exec_st_of_issues (h : s.Issues sd c 0x21 w) : exec (.st sd c) s = .next ((if s.stcAddr sd c w < stcMem sd then
      (s.issued sd c).setStc sd { (s.issued sd c).stc sd with
        mem := Sparse.set 0 (s.stc sd).mem (8192 * c + s.stcAddr sd c w) ((s.ctx sd c).reg (iD w) % 2 ^ 64) }
    else ((s.issued sd c).setPc sd c (s.ctx sd c).pc).stcFault sd c 5 w).stcGoOn sd c) := by
  simp only [exec, execSt, State.stcIssue_of_issues _ _ _ _ _ _ h, State.stcAddr_issued, State.stcTrap_issued, State.setStcMem,
    State.mem_issued, State.reg_issued]

end Issued

section Slots
variable (s : State) (sd : Side) (n v : Nat)

/-- A slot emptied is empty; one filled is full and holds the word. -/
theorem State.slotFull_slotEmpty : (s.slotEmpty sd n).slotFull sd n = false := by cases sd <;> simp [State.slotFull, State.slotEmpty]
theorem State.slotFull_slotFill : (s.slotFill sd n v).slotFull sd n = true := by
  cases sd <;> simp [State.slotFull, State.slotFill, I.SLOT_STAT_FULL, L.SLOT_STAT_FULL]
theorem State.slotData_slotFill : (s.slotFill sd n v).slotData sd n = v % 2 ^ 64 := by simp [State.slotData, State.slotFill]

/-- A stalled context, by the slot that it waits for. -/
theorem State.stcServe_of_read {s : State} {c d : Nat} {sd : Side} {n : Nat} (hw : (s.ctx sd c).wait = .read n d)
    (hf : s.slotFull sd n = true) :
    s.stcServe sd c = ((((s.slotEmpty sd n).setX sd c d (s.slotData sd n)).setLast sd c 0)).stcResume sd c := by
  simp only [State.stcServe, hw, hf, if_true]
theorem State.stcServe_of_write {s : State} {c v : Nat} {sd : Side} {n : Nat} (hw : (s.ctx sd c).wait = .write n v)
    (hf : s.slotFull sd n = false) : s.stcServe sd c = ((s.slotFill sd n v).setLast sd c 0).stcResume sd c := by
  simp only [State.stcServe, hw, hf]
  rfl

end Slots

/-- Settles O50: local memory by the address of the instruction, slots by their number and by who waits. -/
theorem stitchMemoryAndSlots : Obligations.StitchMemoryAndSlots := by
  refine ⟨?ld, ?st, ?ldFault, ?stFault, fun _ _ _ _ => rfl, ?srd, ?srdOutside, ?swr, ?swrLossy, ?stall, ?read, ?write⟩
  case ld => exact fun sd c s w h ha => by rw [exec_ld_of_issues h, if_pos ha]
  case st => exact fun sd c s w h ha => by rw [exec_st_of_issues h, if_pos ha]
  case ldFault => exact fun sd c s w h ha => by rw [exec_ld_of_issues h, if_neg ha.not_gt]
  case stFault => exact fun sd c s w h ha => by rw [exec_st_of_issues h, if_neg ha.not_gt]
  case srd => exact fun sd c s w n h hn hlt => exec_srd_of_slotNo h (State.stcSlotNo_of_lt hn hlt)
  case srdOutside => exact fun sd c s w n h hn hle => exec_srd_of_slotNo h (State.stcSlotNo_of_le hn hle)
  case swr =>
    refine fun sd c s w n h hn hlt hfree => (exec_swr_of_slot h (State.stcSlotNo_of_lt hn hlt)).trans ?_
    rw [if_neg (by rcases hfree with e | e <;> simp [e])]
  case swrLossy =>
    refine fun sd c s w n h hn hlt hf hl => (exec_swr_of_slot h (State.stcSlotNo_of_lt hn hlt)).trans ?_
    rw [if_pos (by rw [hf, hl]; rfl)]
  case stall =>
    refine fun sd c wt s _ => ⟨?_, ?_, ?_⟩
    · cases sd <;> simp [State.ctxState, State.stcStall, State.setCtxState, I.STC_CTX_STAT_STATE, L.STC_CTX_STAT_STATE]
    · simp [State.stcStall, State.setCtxState]
    · simp [State.stcStall, State.setCtxState]
  case read => exact fun sd c n d s _ _ hw hf => ⟨State.stcServe_of_read hw hf, s.slotFull_slotEmpty sd n⟩
  case write =>
    exact fun sd c n v s _ _ hw hf => ⟨State.stcServe_of_write hw hf, s.slotFull_slotFill sd n v, s.slotData_slotFill sd n v⟩

end Sys2Proof.Machine
end

section
/-! PROOFS. The compression engine (R427 to R430): what ends a descriptor leaves, and the descriptors by how they run. -/

namespace Sys2Proof.Machine

/-! ### The rings (R429) -/

section Rings
variable (s : State) (r : Nat)

@[simp] theorem State.cring_setCring (c : CmpRing) : (s.setCring r c).cring r = c := getD_setNth_self ..

/-- The rings are not among what storing bytes, raising a vector and showing the rings change. -/
theorem State.cmp_ddrPut (a : Nat) (bs : List Nat) : (s.ddrPut a bs).lam.cmp = s.lam.cmp := by
  rw [State.ddrPut_eq, State.countPoison, State.countCut_eq]
  rfl
theorem State.cmp_raiseVec (v : Nat) : (s.raiseVec v).lam.cmp = s.lam.cmp :=
  State.ite_keeps (·.lam.cmp) rfl rfl
theorem State.cmp_cmpShow : s.cmpShow.lam.cmp = s.lam.cmp := by
  refine State.foldl_keeps (·.lam.cmp) ?_ _ s
  exact fun _ _ => rfl

/-- Nor are the fields of a ring that its registers do not show. -/
theorem State.rl_raiseVec (v : Nat) (F : Fld) (i j : Nat) (hF : 0x9008 ≤ F.addr) : (s.raiseVec v).rl F i j = s.rl F i j := by
  refine State.ite_keeps (·.rl F i j) (s.rl_wl_ne _ _ _ _ _ _ _ ?_) rfl
  simp only [Fld.key, L.MSI_X_pending_bits]
  omega
theorem State.rl_cmpShow (F : Fld) (i j : Nat) (hR : F.key i j ≠ L.CMP_STAT_RUNNING.key 0 0)
    (hF : ∀ k, F.key i j ≠ L.CMP_RING_STAT_BUSY.key k 0 ∧ F.key i j ≠ L.CMP_RING_STAT_HELD.key k 0) : s.cmpShow.rl F i j = s.rl F i j :=
  (State.rl_wl_ne _ _ _ _ _ _ _ _ hR).trans
    (State.foldl_keeps (·.rl F i j) (fun s k => (State.rl_wl_ne _ _ _ _ _ _ _ _ (hF k).2).trans (s.rl_wl_ne _ _ _ _ _ _ _ (hF k).1)) _ s)

/-- Storing bytes changes the counters of the DDR alone. -/
theorem State.rl_ddrPut_of_lt (a : Nat) (bs : List Nat) (F : Fld) (i j : Nat) (hF : F.key i j < L.DDR_CNT_POISON_CLEARED.key 0 0) :
    (s.ddrPut a bs).rl F i j = s.rl F i j := by
  rw [State.rl_ddrPut, State.countPoison, State.rl_il_ne _ _ _ _ _ _ _ _ hF.ne, State.rl_countCut]
  intro c
  simp only [Fld.key, L.DDR_CNT_POISON_CLEARED, L.DDR_CNT_RMW_UE] at hF ⊢
  omega

end Rings

/-- The fields of a ring that a descriptor's end reads and sets. -/
def ringFlds : List Fld := [L.CMP_RING_HEAD, L.CMP_RING_SLOTS, L.CMP_RING_STAT_LAST]

section End
variable {s : State} {r : Nat} {F : Fld}

/-- They are none of the counters, nor of what CMP_STAT shows. -/
theorem ringFlds_key (hF : F ∈ ringFlds) (hr : r < 2) : (∀ G ∈ [L.CMP_CNT_IN_KIB, L.CMP_CNT_OUT_KIB, L.CMP_CNT_DESC, L.CMP_CNT_ERR,
      L.CMP_STAT_ERROR, L.CMP_STAT_RUNNING], F.key r 0 ≠ G.key 0 0) ∧ F.key r 0 < L.DDR_CNT_POISON_CLEARED.key 0 0 ∧ 0x9008 ≤ F.addr ∧
    ∀ k, F.key r 0 ≠ L.CMP_RING_STAT_BUSY.key k 0 ∧ F.key r 0 ≠ L.CMP_RING_STAT_HELD.key k 0 := by
  have hr : r = 0 ∨ r = 1 := by omega
  simp only [ringFlds, List.mem_cons, List.not_mem_nil, or_false] at hF
  refine ⟨?_, ?_, ?_, fun k => ?_⟩
  · rcases hF with rfl | rfl | rfl <;> rcases hr with rfl | rfl <;> decide
  · rcases hF with rfl | rfl | rfl <;> rcases hr with rfl | rfl <;> decide
  · rcases hF with rfl | rfl | rfl <;> decide
  · rcases hF with rfl | rfl | rfl <;>
      simp only [Fld.key, L.CMP_RING_HEAD, L.CMP_RING_SLOTS, L.CMP_RING_STAT_LAST, L.CMP_RING_STAT_BUSY, L.CMP_RING_STAT_HELD] <;> omega

/-- HEAD and LAST of the ring whose descriptor ends, and the ring. -/
theorem State.endDesc_shows (d : CmpRun) (st : Nat) (hr : r < 2) :
    ((s.endDesc r d st).rl L.CMP_RING_HEAD r =
      (s.rl L.CMP_RING_HEAD r + 1) % s.rl L.CMP_RING_SLOTS r % 2 ^ L.CMP_RING_HEAD.width) ∧
    (s.endDesc r d st).rl L.CMP_RING_STAT_LAST r = st % 2 ^ L.CMP_RING_STAT_LAST.width ∧
    ∃ i o, (s.endDesc r d st).cring r =
      { (if st = Vlz.ok ∨ st = Vlz.truncated then s.cring r else (s.cring r).discard) with run := none, inRem := i, outRem := o } := by
  unfold State.endDesc
  extract_lets a s1 s2 c c' i o s3 s4 s5 s6 s7 s8
  have h2 {F} (hF : F ∈ ringFlds) : s2.rl F r = s.rl F r :=
    (State.rl_ddrPut_of_lt _ _ _ _ _ _ (ringFlds_key hF hr).2.1).trans (s.rl_ddrPut_of_lt _ _ _ _ _ (ringFlds_key hF hr).2.1)
  have h4 {F} (hF : F ∈ ringFlds) : s4.rl F r = s.rl F r :=
    (State.rl_il_ne _ _ _ _ _ _ _ _ ((ringFlds_key hF hr).1 _ (by decide))).trans
      ((State.rl_il_ne _ _ _ _ _ _ _ _ ((ringFlds_key hF hr).1 _ (by decide))).trans (h2 hF))
  have hshow {F} (hF : F ∈ ringFlds) : (State.cmpShow s8).rl F r = s7.rl F r := by
    obtain ⟨hstat, -, haddr, hring⟩ := ringFlds_key hF hr
    exact (State.rl_cmpShow _ _ _ _ (hstat _ (by decide)) hring).trans (State.ite_keeps (·.rl F r) (State.rl_raiseVec _ _ _ _ _ haddr) rfl)
  have h6 {F} (hF : F ∈ ringFlds) : s6.rl F r = s5.rl F r :=
    State.ite_keeps (·.rl F r) rfl ((State.rl_wl_ne _ _ _ _ _ _ _ _ ((ringFlds_key hF hr).1 _ (by decide))).trans
      (State.rl_il_ne _ _ _ _ _ _ _ _ ((ringFlds_key hF hr).1 _ (by decide))))
  have h5 {F} (hF : F ∈ ringFlds) (hne : F.key r 0 ≠ L.CMP_RING_STAT_LAST.key r 0) : s6.rl F r = s.rl F r :=
    (h6 hF).trans ((State.rl_wl_ne _ _ _ _ _ _ _ _ hne).trans
      ((State.rl_il_ne _ _ _ _ _ _ _ _ ((ringFlds_key hF hr).1 _ (by decide))).trans (h4 hF)))
  have hne (F : Fld) (h1 : F.s1 = 0x40) (h2 : F.s2 = 0) (hb : 8 * F.addr + F.lo ≠ 8 * L.CMP_RING_STAT_LAST.addr + 2) :
      F.key r 0 ≠ L.CMP_RING_STAT_LAST.key r 0 := Fld.key_ne_of_base _ _ _ _ h1 h2 hb
  refine ⟨?head, ?last, i % 1024, o % 1024, ?ring⟩
  case head =>
    rw [hshow (by decide), State.rl_wl_self, h5 (by decide) (hne _ rfl rfl (by decide)), h5 (by decide) (hne _ rfl rfl (by decide))]
  case last =>
    rw [hshow (by decide), State.rl_wl_ne _ _ _ _ _ _ _ _ (hne L.CMP_RING_HEAD rfl rfl (by decide)).symm, h6 (by decide), State.rl_wl_self]
  case ring =>
    have hc : c = s.cring r := by
      show (s2.lam.cmp).getD r {} = _
      rw [State.cmp_ddrPut, State.cmp_ddrPut]
      rfl
    have h6 : s6.lam.cmp = s3.lam.cmp := State.ite_keeps (·.lam.cmp) rfl rfl
    have h8 : s8.lam.cmp = s3.lam.cmp := State.ite_keeps (·.lam.cmp) ((State.cmp_raiseVec _ _).trans h6) h6
    show (s8.cmpShow.lam.cmp).getD r {} = _
    rw [State.cmp_cmpShow, h8]
    refine (State.cring_setCring _ _ _).trans ?_
    rw [show c' = if st = Vlz.ok ∨ st = Vlz.truncated then s.cring r else (s.cring r).discard by simp only [c', hc]]

end End

/-! ### Descriptors (R427 to R430) -/

section Desc
variable {s s1 : State} {r n : Nat} {d : CmpRun}

/-- Descriptor d of ring r begins, or goes on, in state s1. -/
def State.Runs (s : State) (r : Nat) (d : CmpRun) (s1 : State) : Prop :=
  (s.cring r).run = none ∧ s.badDesc r d = false ∧ s1 = s.setCring r ((s.cring r).start d) ∨ (s.cring r).run = some d ∧ s1 = s

/-- Then it is not refused, and the stream is begun where none runs. -/
theorem State.Runs.notBad (h : s.Runs r d s1) : ¬ ((s.cring r).run.isNone = true ∧ s.badDesc r d = true) := by
  rcases h with ⟨-, hb, -⟩ | ⟨hr, -⟩
  · simp [hb]
  · simp [hr]
theorem State.Runs.begun (h : s.Runs r d s1) :
    (if (s.cring r).run.isNone = true then s.setCring r ((s.cring r).start d) else s) = s1 := by
  rcases h with ⟨hr, -, rfl⟩ | ⟨hr, rfl⟩ <;> simp [hr]

/-- A ring that is not served, and one with nothing to run. -/
theorem exec_descriptor_of_unserved (h : s.cmpServes r = false) :
    exec (.compressDescriptor r n) s = .next s ∧ exec (.decompressDescriptor r n) s = .next s := by
  simp [exec, execCompressDescriptor, execDecompressDescriptor, h]
theorem exec_descriptor_of_none (h : s.takeDesc r = none) :
    exec (.compressDescriptor r n) s = .next s ∧ exec (.decompressDescriptor r n) s = .next s := by
  simp [exec, execCompressDescriptor, execDecompressDescriptor, h]

/-- A descriptor that cannot run. -/
theorem exec_descriptor_of_bad (hs : s.cmpServes r = true) (ht : s.takeDesc r = some d) (hr : (s.cring r).run = none)
    (hb : s.badDesc r d = true) :
    exec (.compressDescriptor r n) s = .next ((s.setCring r (s.cring r).discard).endDesc r d Vlz.badDesc) ∧
    exec (.decompressDescriptor r n) s = .next ((s.setCring r (s.cring r).discard).endDesc r d Vlz.badDesc) := by
  simp [exec, execCompressDescriptor, execDecompressDescriptor, hs, ht, hr, hb]

/-- A compress descriptor that runs, by what the input laid into blocks leaves. -/
theorem exec_compressDescriptor_of_runs {k : Nat} {f : State × CmpRun × Bool} (hs : s.cmpServes r = true) (ht : s.takeDesc r = some d)
    (hd : s.Runs r d s1) (hop : d.op = 0) (hsrc : s1.ddrRange d.src d.srcLen = true) (hdst : s1.ddrRange d.dst 1 = true)
    (hk : k = min n (d.srcLen - d.pos))
    (hf : f = State.feed r (k / 65536 + 2) (s1.ddrBytes (d.src + d.pos) (s1.cleanBytes (d.src + d.pos) k)) s1 d) :
    exec (.compressDescriptor r n) s =
      if !f.2.2 then .next (f.1.endDesc r f.2.1 Vlz.outLimit)
      else if s1.cleanBytes (d.src + d.pos) k < k then .next (f.1.endDesc r f.2.1 Vlz.poison)
      else if f.2.1.pos < f.2.1.srcLen then .next (f.1.setCring r { f.1.cring r with run := some f.2.1 }).cmpShow
      else if (f.2.1.flush ∨ f.2.1.fin) ∧ (f.1.cring r).block ≠ [] then
        .next ((f.1.closeBlock r f.2.1 f.2.1.fin).1.endDesc r (f.1.closeBlock r f.2.1 f.2.1.fin).2.1
          (if (f.1.closeBlock r f.2.1 f.2.1.fin).2.2 then Vlz.ok else Vlz.outLimit))
      else .next (f.1.endDesc r f.2.1 Vlz.ok) := by
  subst hf hk
  simp only [exec, execCompressDescriptor, hs, ht, if_neg hd.notBad, hd.begun, hop, hsrc, hdst]
  rfl

/-- A decompress descriptor that runs, by the blocks decoded. -/
theorem exec_decompressDescriptor_of_runs (hs : s.cmpServes r = true) (ht : s.takeDesc r = some d)
    (hd : s.Runs r d s1) (hop : d.op = 1) (hsrc : s1.ddrRange d.src d.srcLen = true) (hdst : s1.ddrRange d.dst 1 = true) :
    exec (.decompressDescriptor r n) s =
      match (State.decBlocks r n s1 d).2.2 with
      | some st => .next ((State.decBlocks r n s1 d).1.endDesc r (State.decBlocks r n s1 d).2.1 st)
      | none => .next ((State.decBlocks r n s1 d).1.setCring r
          { (State.decBlocks r n s1 d).1.cring r with run := some (State.decBlocks r n s1 d).2.1 }).cmpShow := by
  simp only [exec, execDecompressDescriptor, hs, ht, if_neg hd.notBad, hd.begun, hop, hsrc, hdst] <;> rfl

/-- A descriptor whose source or destination is not memory. -/
theorem exec_descriptor_of_outside (hs : s.cmpServes r = true) (ht : s.takeDesc r = some d) (hd : s.Runs r d s1)
    (hout : s1.ddrRange d.src d.srcLen = false ∨ s1.ddrRange d.dst 1 = false) :
    (d.op = 0 → exec (.compressDescriptor r n) s = .next (s1.endDesc r d Vlz.memError)) ∧
    (d.op = 1 → exec (.decompressDescriptor r n) s = .next (s1.endDesc r d Vlz.memError)) := by
  have hbad : (!s1.ddrRange d.src d.srcLen || !s1.ddrRange d.dst 1) = true := by rcases hout with h | h <;> simp [h]
  refine ⟨fun hop => ?_, fun hop => ?_⟩
  · simp only [exec, execCompressDescriptor, hs, ht, if_neg hd.notBad, hd.begun, hop, hbad]
    rfl
  · simp only [exec, execDecompressDescriptor, hs, ht, if_neg hd.notBad, hd.begun, hop, hbad]
    rfl

/-- FLUSH and ABORT of a ring, by what runs there. -/
theorem State.ringFlush_of_none (h : (s.cring r).run = none) : s.ringFlush r = s := by simp only [State.ringFlush, h]
theorem State.ringFlush_of_block (h : (s.cring r).run = some d) (hop : d.op = 0) (hb : (s.cring r).block ≠ [])
    (hfit : (s.closeBlock r d false).2.2 = true) : s.ringFlush r = ((s.closeBlock r d false).1.setCring r
      { (s.closeBlock r d false).1.cring r with run := some (s.closeBlock r d false).2.1 }).cmpShow := by
  simp only [State.ringFlush, h, hop, hfit, if_pos (And.intro trivial hb), if_true]
theorem State.ringAbort_of_none (h : (s.cring r).run = none) : s.ringAbort r = s := by simp only [State.ringAbort, h]
theorem State.ringAbort_of_some (h : (s.cring r).run = some d) : s.ringAbort r = s.endDesc r d Vlz.aborted := by
  simp only [State.ringAbort, h]

/-- A strobe of a ring that passes its test. -/
theorem Allowed.ring {iss : Issuer} {a : Nat} (h : Allowed s .lam iss a true 0) (f : State → State) :
    (if (s.guard .lam iss a true 0).2 && decide (r < 2) then .next (f (s.guard .lam iss a true 0).1)
      else .next (s.guard .lam iss a true 0).1 : Out) = .next (if r < 2 then f s else s) := by
  rw [h.guard]
  by_cases hr : r < 2 <;> simp [hr]

end Desc

/-- Settles O53: the descriptors by how they begin and what their input leaves, their end, and the strobes of the rings. -/
theorem compressionRunsItsDescriptors : Obligations.CompressionRunsItsDescriptors := by
  refine ⟨fun _ _ _ h => exec_descriptor_of_unserved h, fun _ _ _ h => exec_descriptor_of_none h, ?take,
    fun _ _ _ _ hs ht hr hb => exec_descriptor_of_bad hs ht hr hb, ?compress, ?decompress,
    fun _ _ _ _ _ hs ht hd hout => exec_descriptor_of_outside hs ht hd hout, ?ends, ?flush, ?noFlush, ?abort, ?noAbort, ?enable⟩
  case take =>
    intro r s hr hne
    simp only [State.takeDesc, hr, if_neg hne]
  case compress =>
    intro r n s d s1 k f hs ht hd hop hsrc hdst hk hf
    rw [exec_compressDescriptor_of_runs hs ht hd hop hsrc hdst hk hf]
    refine ⟨fun hfit => if_pos (by rw [hfit]; rfl), fun hfit hbad => ?_, fun hfit hclean hpos => ?_,
      fun hfit hclean hpos hend hblk => ?_, fun hfit hclean hpos hend => ?_⟩
    all_goals refine (if_neg (by simp [hfit])).trans ?_
    · exact if_pos hbad
    · rw [if_neg hclean.not_gt, if_pos hpos]
    · rw [if_neg hclean.not_gt, if_neg hpos.not_gt, if_pos ⟨hend, hblk⟩]
    · rw [if_neg hclean.not_gt, if_neg hpos.not_gt, if_neg]
      rintro ⟨hflag, hblk⟩
      rcases hend with ⟨h1, h2⟩ | h
      · simp [h1, h2] at hflag
      · exact hblk h
  case decompress =>
    intro r n s d s1 x hs ht hd hop hsrc hdst hx
    have e := exec_decompressDescriptor_of_runs (n := n) hs ht hd hop hsrc hdst
    rw [← hx] at e
    exact ⟨fun st hst => by rw [e, hst], fun hst => by rw [e, hst]⟩
  case ends =>
    intro r d st s hr
    obtain ⟨hhead, hlast, i, o, hring⟩ := s.endDesc_shows d st hr
    refine ⟨by rw [hring], hhead, hlast, (fr_endDesc (fp := { lam := true, ddr := true }) r d st rfl rfl (.refl _ s)).itu rfl, ?_⟩
    intro hok htr
    rw [hring, if_neg (by simp [hok, htr])]
    exact ⟨rfl, rfl, rfl⟩
  case flush =>
    exact fun iss r s d ha hr hrun hop hb hfit => (ha.ring (·.ringFlush r)).trans
      (congrArg Host.Outcome.next ((if_pos hr).trans (State.ringFlush_of_block hrun hop hb hfit)))
  case noFlush =>
    refine fun iss r s ha h => (ha.ring (·.ringFlush r)).trans (congrArg Host.Outcome.next ?_)
    rcases h with h | h
    · exact State.ite_keeps id (State.ringFlush_of_none h) rfl
    · exact if_neg h.not_gt
  case abort =>
    exact fun iss r s d ha hr hrun => (ha.ring (·.ringAbort r)).trans
      (congrArg Host.Outcome.next ((if_pos hr).trans (State.ringAbort_of_some hrun)))
  case noAbort =>
    refine fun iss r s ha h => (ha.ring (·.ringAbort r)).trans (congrArg Host.Outcome.next ?_)
    rcases h with h | h
    · exact State.ite_keeps id (State.ringAbort_of_none h) rfl
    · exact if_neg h.not_gt
  case enable => exact fun iss s ha => ⟨ha.next (·.setCmpEnable true), ha.next (·.setCmpEnable false)⟩

end Sys2Proof.Machine
end

section
/-! PROOFS. The flight recorder (R431 to R438): records numbered into the buffer, entries by the recorder's state, flushes. -/

namespace Sys2Proof.Machine

theorem length_leBytes (k n : Nat) : (leBytes k n).length = k := by
  induction k generalizing n with
  | zero => rfl
  | succ k ih => exact congrArg (· + 1) (ih _)

/-- The length of a record whose payload is whole words. -/
theorem length_recordBytes (o : RecOffer) (seq : Nat) (h : o.payload.length % 4 = 0) :
    (recordBytes o seq).length = 12 + o.payload.length := by
  simp only [recordBytes, List.length_append, length_leBytes, List.length_replicate, h]
  omega

section Put
variable (s : State) (o : RecOffer)

/-- The next SEQ, as it was set. -/
theorem State.recSeq_setRecSeq (n : Nat) : (s.setRecSeq n).recSeq = n % 2 ^ 40 := by
  have hlo : (s.setRecSeq n).rl L.REC_NEXT_SEQ_LO = n % 2 ^ 32 % 2 ^ 32 :=
    (State.rl_wl_ne _ _ _ _ _ _ _ _ (by decide)).trans (s.rl_wl_self _ _ _ _)
  have hhi : (s.setRecSeq n).rl L.REC_NEXT_SEQ_HI = n / 2 ^ 32 % 256 % 2 ^ 8 := State.rl_wl_self _ _ _ _ _
  rw [State.recSeq, hlo, hhi]
  omega

theorem State.recSeq_recRaw : (s.recRaw o).recSeq = (s.recSeq + 1) % 2 ^ 40 := by
  have hcnt (t : State) : (t.il L.REC_CNT_RECORDS).recSeq = t.recSeq := by
    rw [State.recSeq, State.rl_il_ne _ _ _ _ _ _ _ _ (by decide), State.rl_il_ne _ _ _ _ _ _ _ _ (by decide)]
    rfl
  rw [State.recRaw, hcnt, State.recSeq_setRecSeq, Nat.mod_mod]
theorem State.buf_recRaw : (s.recRaw o).lam.rcd.buf = s.lam.rcd.buf ++ [recordBytes o s.recSeq] := rfl

/-- A record put in the buffer, with no ANCHOR due and after one. -/
theorem State.recPut_of_plain {s : State} {o : RecOffer} (h : s.recSeq % 4096 ≠ 0 ∨ o.kind = 1) : s.recPut o = s.recRaw o :=
  if_neg fun ⟨h1, h2⟩ => h.elim (fun e => e h1) h2
theorem State.recPut_of_anchor {s : State} {o : RecOffer} (h : s.recSeq % 4096 = 0) (hk : o.kind ≠ 1) :
    s.recPut o = (s.recRaw (s.anchorOffer 1)).recRaw o := if_pos ⟨h, hk⟩

end Put

section Enter
variable {s : State} {o : RecOffer}

/-- An entry by the recorder's state: lost while frozen and while full; in the buffer where it fits. -/
theorem State.recEnter_of_frozen (h : s.recState = 3) : s.recEnter o = s.recLose 1 := if_pos h
theorem State.recEnter_of_full (h : s.recState = 4) : s.recEnter o = s.recLose 2 :=
  (if_neg (by rw [h]; decide)).trans (if_pos h)
theorem State.recEnter_of_overflow (h : s.recState = 2) (hl : s.lam.rcd.lost = (0, 0, 0))
    (hover : 65536 < (s.recPut o).lam.rcd.level) : s.recEnter o = s.recLose 0 := by
  unfold State.recEnter
  simp only [h, hl, if_true, if_pos hover]
  rfl
theorem State.recEnter_of_room (h : s.recState = 2) (hl : s.lam.rcd.lost = (0, 0, 0)) (hf : o.flush = none)
    (hroom : (s.recPut o).lam.rcd.level ≤ 65536) (hlow : (s.recPut o).lam.rcd.level ≤ s.rl L.REC_CFG_HIGH * 1024) :
    s.recEnter o = (s.recPut o).recShow := by
  unfold State.recEnter
  simp only [h, hl, hf, if_true, if_neg hroom.not_gt, if_neg hlow.not_gt]
  rfl

/-- What the registers then show. -/
theorem State.rl_recShow_level (s : State) : s.recShow.rl L.REC_BUF_LEVEL = s.lam.rcd.level % 2 ^ L.REC_BUF_LEVEL.width :=
  (State.rl_wl_ne _ _ _ _ _ _ _ _ (by decide)).trans ((State.rl_wl_ne _ _ _ _ _ _ _ _ (by decide)).trans (s.rl_wl_self _ _ _ _))
theorem State.rl_recShow_flushing (s : State) : s.recShow.rl L.REC_STAT_FLUSHING = b2n s.lam.rcd.unit.isSome :=
  (State.rl_wl_self _ _ _ _ _).trans (b2n_mod_two _)
theorem State.recState_recShow (s : State) : s.recShow.recState = s.recState := (Logs.refl [] s).recShow.recState

/-- The oldest record offered, or the ANCHOR due, enters. -/
theorem exec_recordEntry_of_offer {l : List RecOffer} (h : 2 ≤ s.recState) (ha : s.lam.anchorDue = false) (hi : s.lam.rcd.inbox = o :: l) :
    exec .recorderRecordEntry s = .next ((s.setRcd { s.lam.rcd with inbox := l }).recEnter o) := by
  simp only [exec, execRecorderRecordEntry, if_neg h.not_gt, ha, hi]
  rfl
theorem exec_recordEntry_of_none (h : s.recState < 2 ∨ s.lam.anchorDue = false ∧ s.lam.rcd.inbox = []) :
    exec .recorderRecordEntry s = .next s := by
  rcases h with h | ⟨ha, hi⟩
  · exact if_pos h
  · by_cases h2 : s.recState < 2
    · exact if_pos h2
    · simp only [exec, execRecorderRecordEntry, if_neg h2, ha, hi]
      rfl

end Enter

section Flush
variable {s : State} {c : Nat} {u : RecUnit}

/-- A flush that is asked for, by whether it can begin. -/
theorem State.flushTry_of_none (h : s.lam.rcd.want = none) : s.flushTry = s := by simp only [State.flushTry, h]
theorem State.flushTry_of_wait (h : s.lam.rcd.want = some c)
    (hbusy : s.lam.rcd.unit.isSome = true ∨ (s.recState ≠ 2 ∧ s.recState ≠ 5) ∨ s.rl L.REC_STAT_ERASING ≠ 0) : s.flushTry = s := by
  simp only [State.flushTry, h]
  refine if_neg fun ⟨hu, hst, he⟩ => ?_
  rcases hbusy with hb | ⟨h2, h5⟩ | hb
  · simp [Option.isNone_iff_eq_none.mp hu] at hb
  · exact hst.elim h2 h5
  · exact hb he
theorem State.flushTry_of_buf (h : s.lam.rcd.want = some c) (hc : c ≠ 1) (hu : s.lam.rcd.unit = none)
    (hst : s.recState = 2 ∨ s.recState = 5) (he : s.rl L.REC_STAT_ERASING = 0) (hb : s.lam.rcd.buf ≠ []) :
    s.flushTry = State.startUnit (s.recSectors + 1)
      (s.setRcd { s.lam.rcd with want := none, left := s.lam.rcd.buf.length, cause := c }) := by
  simp only [State.flushTry, h, hu, if_neg hc, if_neg hb]
  exact if_pos ⟨rfl, hst, he⟩

/-- The unit that commits or fails. -/
theorem exec_unitCommit_of_none {ok : Bool} (h : s.lam.rcd.unit = none) : exec (.unitCommit ok) s = .next s := by
  simp only [exec, execUnitCommit, h]

/-- The recorder once unit u is in the log. -/
def State.unitDone (s : State) (u : RecUnit) : State :=
  State.setRcd ((s.norProg (u.at0 + 7) [0x5A]).il L.REC_CNT_FLUSH) { s.lam.rcd with
    buf := s.lam.rcd.buf.drop u.recs, seq0 := s.lam.rcd.seq0 + u.recs, left := s.lam.rcd.left - u.recs, unit := none,
    wptr := ceil256 (s.lam.rcd.wptr + 20 + ((s.lam.rcd.buf.take u.recs).map List.length).sum) }
theorem State.recSectors_unitDone : (s.unitDone u).recSectors = s.recSectors := State.rl_il_ne _ _ _ _ _ _ _ _ (by decide)
theorem State.recState_unitDone : (s.unitDone u).recState = s.recState := State.rl_il_ne _ _ _ _ _ _ _ _ (by decide)

theorem exec_unitCommit_of_more (h : s.lam.rcd.unit = some u) (hmore : u.recs < s.lam.rcd.left) :
    exec (.unitCommit true) s = .next (State.startUnit (s.recSectors + 1) (s.unitDone u)) := by
  simp only [exec, execUnitCommit, h, if_pos hmore, if_true]
  exact congrArg (fun n => Host.Outcome.next (State.startUnit (n + 1) (s.unitDone u))) State.recSectors_unitDone
theorem exec_unitCommit_of_last (h : s.lam.rcd.unit = some u) (hlast : s.lam.rcd.left ≤ u.recs) (hst : s.recState = 2)
    (hw : s.lam.rcd.want = none) : exec (.unitCommit true) s = .next (s.unitDone u).recShow := by
  simp only [exec, execUnitCommit, h, if_neg hlast.not_gt, if_true]
  refine congrArg Host.Outcome.next ?_
  have hst' : ¬ ((s.unitDone u).recState = 5 ∧ (s.unitDone u).lam.rcd.want = none) := by
    rw [State.recState_unitDone, hst]
    exact fun e => absurd e.1 (by decide)
  exact (congrArg (fun t : State => t.recShow.flushTry) (if_neg hst')).trans (State.flushTry_of_none hw)
theorem exec_unitCommit_of_failed (h : s.lam.rcd.unit = some u) : exec (.unitCommit false) s =
    .next (State.startUnit (s.recSectors + 1) ((s.setRcd { s.lam.rcd with unit := none }).norError s.lam.rcd.sector)) := by
  simp only [exec, execUnitCommit, h]
  rfl

/-- A sector that reported a failure is passed over from then on, and the host is told (R440, R443). -/
theorem State.norError_event (s : State) (sec : Nat) : ∃ u : State, s.norError sec = u.recEvent 4 0 ∧
    u.rl L.REC_STAT_NOR_ERR = 1 ∧ u.lam.rcd = { s.lam.rcd with skip := s.lam.rcd.skip ++ [sec] } :=
  ⟨_, rfl, (s.il L.REC_CNT_NOR_ERR).rl_wl_self L.REC_STAT_NOR_ERR 1 0 0, rfl⟩

theorem State.recSectors_enable (s : State) (v : Nat) : (s.wl L.REC_CTL_ENABLE v).recSectors = s.recSectors :=
  s.rl_wl_ne _ _ _ _ _ _ _ (by decide)

/-- REC_CTL.ENABLE by its value before and by the sectors there are. -/
theorem State.setRecEnable_of_few (h : s.rl L.REC_CTL_ENABLE = 0) (hn : s.recSectors < 3) :
    s.setRecEnable true = s.wl L.REC_CTL_ENABLE 1 := by
  simp only [State.setRecEnable, h]
  exact if_pos ((s.recSectors_enable 1).trans_lt hn)
theorem State.setRecEnable_of_sectors (h : s.rl L.REC_CTL_ENABLE = 0) (hn : 3 ≤ s.recSectors) :
    s.setRecEnable true = (s.wl L.REC_CTL_ENABLE 1).recScan := by
  simp only [State.setRecEnable, h]
  exact if_neg (hn.trans_eq (s.recSectors_enable 1).symm).not_gt
theorem State.setRecEnable_of_on (h : s.rl L.REC_CTL_ENABLE = 1) : s.setRecEnable true = s := if_pos h

end Flush

/-- Settles O54: entries and flushes by the recorder's state, units by what is left of the flush, ENABLE by the sectors. -/
theorem recorderBuffersAndFlushes : Obligations.RecorderBuffersAndFlushes := by
  refine ⟨fun _ _ _ h ha hi => exec_recordEntry_of_offer h ha hi, ?anchor, fun _ h => exec_recordEntry_of_none h,
    fun _ _ h => State.recEnter_of_frozen h, fun _ _ h => State.recEnter_of_full h, fun _ _ h hl ho => State.recEnter_of_overflow h hl ho,
    ?room, ?plain, ?periodic, fun o seq h => length_recordBytes o seq h, fun _ h => congrArg Host.Outcome.next (State.flushTry_of_none h),
    fun _ _ h hb => congrArg Host.Outcome.next (State.flushTry_of_wait h hb),
    fun _ _ h hc hu hst he hb => congrArg Host.Outcome.next (State.flushTry_of_buf h hc hu hst he hb),
    fun _ _ h => exec_unitCommit_of_none h, fun _ _ h hm => exec_unitCommit_of_more h hm, ?last, fun _ _ h => exec_unitCommit_of_failed h,
    fun s sec => s.norError_event sec, fun _ _ ha => ha.next (·.recFlush 2), fun _ _ => rfl,
    fun _ _ ha h hn => (ha.next (·.setRecEnable true)).trans (congrArg Host.Outcome.next (State.setRecEnable_of_few h hn)),
    fun _ _ ha h hn => (ha.next (·.setRecEnable true)).trans (congrArg Host.Outcome.next (State.setRecEnable_of_sectors h hn)),
    fun _ _ ha h => (ha.next (·.setRecEnable true)).trans (congrArg Host.Outcome.next (State.setRecEnable_of_on h)),
    fun _ _ ha => ha.next (·.setRecEnable false)⟩
  case anchor => exact fun s h ha => (if_neg h.not_gt).trans (if_pos ha)
  case room =>
    intro s o h hl hf hroom hlow
    have e := State.recEnter_of_room h hl hf hroom hlow
    exact ⟨e, by rw [e, State.rl_recShow_level]⟩
  case plain =>
    intro s o h
    rw [State.recPut_of_plain h]
    exact ⟨s.buf_recRaw o, s.recSeq_recRaw o⟩
  case periodic =>
    intro s o h hk hlt
    have hseq : (s.recRaw (s.anchorOffer 1)).recSeq = s.recSeq + 1 :=
      (s.recSeq_recRaw _).trans (Nat.mod_eq_of_lt (by omega))
    rw [State.recPut_of_anchor h hk, State.buf_recRaw, State.recSeq_recRaw (s.recRaw _), hseq, State.buf_recRaw, List.append_assoc]
    exact ⟨rfl, Nat.mod_eq_of_lt (by omega)⟩
  case last =>
    intro s u h hlast hst hw
    exact ⟨_, exec_unitCommit_of_last h hlast hst hw, rfl, rfl, (State.recState_recShow _).trans (State.recState_unitDone.trans hst),
      State.rl_recShow_flushing _, rfl, rfl⟩

end Sys2Proof.Machine
end

section
/-! PROOFS. The reset state (R10, R81, R201, R401). -/

namespace Sys2Proof.Machine

/-- An empty register file holds its map's reset values. -/
theorem Regs.rd_nil (F : Fld) (i j : Nat) : Regs.rd [] F i j = F.rst i := by simp [Regs.rd, Sparse.get]

theorem State.ipdOn_reset (n : Nat) : State.reset.ipdOn n = bitAt 1 n := congrArg (bitAt · n) (Regs.rd_nil I.ITU_PD_STAT_ON 0 0)

/-- Settles O2: the register files of the reset state are empty. -/
theorem resetHoldsTheMapValues : Obligations.ResetHoldsTheMapValues := by
  refine ⟨fun F i j => ⟨Regs.rd_nil F i j, Regs.rd_nil F i j⟩, rfl, rfl, rfl, by decide, ⟨State.ipdOn_reset 0, fun n h0 h4 => ?domains⟩,
    Regs.rd_nil L.TXN_WDOG_MS 0 0, Regs.rd_nil L.PFW_CFG_DISC_US 0 0, Regs.rd_nil L.DDR_CFG_SCRUB_H 0 0, rfl, rfl,
    fun c _ => (Regs.rd_nil I.STC_CTX_STAT_STATE c 0).trans ?ctx, fun q _ => congrArg StcCtx.latch (List.getElem?_getD_replicate_default_eq ({} : StcCtx) 32 q)⟩
  case ctx => simp [Fld.rst, I.STC_CTX_STAT_STATE]
  case domains =>
    rw [State.ipdOn_reset]
    interval_cases n <;> rfl

end Sys2Proof.Machine
end

section
/-! PROOFS. Accesses with authority to power domains that are off (R83, R148, R452), and commands of domains that are off. -/

namespace Sys2Proof.Machine

section Domains
variable {s : State} {iss : Issuer} {a f : Nat} {w : Bool} {h : CmdHdr}

/-- With the level that R4 asks, the Lamulo's access test asks only the domain. -/
theorem State.lamGuard_of_level
    (hl : (if w = false ∧ 0x1200C0 ≤ a ∧ a ≤ 0x1200C8 then 3 else if w = true ∧ f ≠ 0 then f else 2) ≤ authLvl iss.auth) :
    s.lamGuard iss a w f = if s.pdOn (lamDomain a) then (s, true) else (s.il L.PD_CNT_OFF_ACCESS, false) := by
  have hneed : ¬ authLvl iss.auth < if (!w && decide (0x1200C0 ≤ a) && decide (a ≤ 0x1200C8)) = true then 3
      else if w = true then (if f = 0 then 2 else f) else 2 := by
    refine Nat.not_lt.mpr (le_trans (le_of_eq ?_) hl)
    cases w <;> by_cases hf : f = 0 <;> simp [hf]
  refine (if_neg hneed).trans ?_
  cases s.pdOn (lamDomain a) <;> rfl

/-- The ITU's, outside the registers of a partition and outside the Cuff. -/
theorem State.ituGuard_of_level (hl : (if w then (if f = 0 then (ituBlock a).2.1 else f) else (ituBlock a).1) ≤ authLvl iss.auth)
    (hown : ituOwnPart a = none) : s.ituGuard iss a w f =
      if iss.path = .host ∧ s.ri I.PART_STAT_CUFF iss.part = 1 then ((s.ituPriv iss a w).ii I.CUFF_CNT_REG 1 iss.part, false)
      else if s.ipdOn (ituBlock a).2.2 then (s, true) else (s.wi I.ITU_FAULT_PD_OFF_ACCESS 1, false) := by
  have hlev : ¬ (decide (authLvl iss.auth < if w then (if f = 0 then (ituBlock a).2.1 else f) else (ituBlock a).1) || !true) = true := by
    simp [hl]
  simp only [State.ituGuard, hown]
  refine (if_neg hlev).trans ?_
  by_cases hc : iss.path = .host ∧ s.ri I.PART_STAT_CUFF iss.part = 1
  · rw [if_pos hc]
    exact if_pos (by simp [hc])
  · rw [if_neg hc]
    refine (if_neg (by simpa using hc)).trans ?_
    cases s.ipdOn (ituBlock a).2.2 <;> rfl

theorem refused_lam_of_off (hl : (if w = false ∧ 0x1200C0 ≤ a ∧ a ≤ 0x1200C8 then 3 else if w = true ∧ f ≠ 0 then f else 2) ≤
    authLvl iss.auth) (hoff : s.pdOn (lamDomain a) = false) : Refused s .lam iss a w f (s.il L.PD_CNT_OFF_ACCESS) :=
  (State.lamGuard_of_level hl).trans (if_neg (by simp [hoff]))

/-- A command of the recorder with D2 off. -/
theorem State.inRec_of_off (hoff : s.pdOn 2 = false) (f : State → State × CmdRes) : s.inRec f = (s, { status := St.domainOff }) :=
  if_neg (by simp [hoff])

end Domains

/-- Settles O5: the access tests once the level is met, and each command's test of its domain. -/
theorem accessToADomainThatIsOff : Obligations.AccessToADomainThatIsOff := by
  refine ⟨?lam, ?read, ?write, ?recorder, ?detector, ?forest, ?itu, ?cuff⟩
  case lam => exact fun iss w f a s hl => ⟨refused_lam_of_off hl, fun hon => (State.lamGuard_of_level hl).trans (if_pos hon)⟩
  case read =>
    intro iss a s h2 hpriv hoff
    refine exec_registerRead_of_refused (refused_lam_of_off ?_ hoff)
    split
    · next hp => simp [authLvl, hpriv hp.2.1 hp.2.2]
    · exact h2
  case write =>
    intro iss a d b s hl h2 hoff
    refine exec_registerWrite_of_refused (sd := .lam) nofun d b (refused_lam_of_off ?_ hoff)
    rw [if_neg (by simp)]
    split
    · exact hl
    · exact h2
  case recorder =>
    exact fun h s hoff => ⟨fun _ _ => cmdLam_of_eq (State.inRec_of_off hoff _), fun _ => cmdLam_of_eq (State.inRec_of_off hoff _),
      cmdLam_of_eq (State.inRec_of_off hoff _), cmdLam_of_eq (State.inRec_of_off hoff _), fun _ _ => cmdLam_of_eq (State.inRec_of_off hoff _)⟩
  case detector =>
    intro h s hr hoff
    have e (f : State × CmdRes) : (if s.role ≠ 0 then (s, { status := St.badTarget }) else if !s.pdOn 15 then
        (s, { status := St.domainOff }) else f : State × CmdRes) = (s, { status := St.domainOff }) :=
      (if_neg (by simp [hr])).trans (if_pos (by simp [hoff]))
    exact ⟨fun _ => cmdLam_of_eq (e _), fun _ => cmdLam_of_eq (e _)⟩
  case forest =>
    intro h s hoff
    refine ⟨fun i b n => cmdLam_of_eq (if_pos (by simp [hoff])), fun ht i => congrArg Host.Outcome.next ?_,
      fun ht i => congrArg Host.Outcome.next ?_⟩
    · exact (if_neg (by simpa using ht)).trans (if_pos (by simp [hoff]))
    · exact (if_neg (by simpa using ht)).trans (if_pos ⟨rfl, by simp [hoff]⟩)
  case itu =>
    intro iss w f a s hl hown hc
    have hc' : ¬ (iss.path = .host ∧ s.ri I.PART_STAT_CUFF iss.part = 1) := fun h => hc h.1 h.2
    exact ⟨fun hoff => (State.ituGuard_of_level hl hown).trans ((if_neg hc').trans (if_neg (by simp [hoff]))),
      fun hon => (State.ituGuard_of_level hl hown).trans ((if_neg hc').trans (if_pos hon))⟩
  case cuff => exact fun iss w f a s hl hown hh hc => (State.ituGuard_of_level hl hown).trans (if_pos ⟨hh, hc⟩)

end Sys2Proof.Machine
end

section
/-! PROOFS. Replies (R382, R400 to R402): silent ones, refusals counted, and the reply ring. -/

namespace Sys2Proof.Machine

section Reply
variable {s : State} {h : CmdHdr} {r : CmdRes}

theorem stOk_of_refused (hr : 0x10 ≤ r.status) : stOk r.status = false := decide_eq_false hr.not_gt

/-- A merge is found by the header alone. -/
theorem State.mergeOf_il (F : Fld) (o i c : Nat) : (s.il F).mergeOf o i c = s.mergeOf o i c := rfl

theorem State.lamReply_of_alone (hm : s.mergeOf h.origin h.issuer h.cmdId = none) (hok : stOk r.status = true) : s.lamReply h r =
    if silent h r.status then s else s.replyRoute h (replyBody h r false 1 0 0 false (s.rl L.CFG_EPOCH)) := by
  simp only [State.lamReply, hok, if_true, hm]
  rfl

/-- A reply on its way changes no more than a record made does, and the replies that wait. -/
theorem State.rl_replyRoute (b : List Nat) (F : Fld) (i j : Nat) (hF : F.key i j ≠ L.STAT_CNT_ADMIT_REFUSED.key 0 0) :
    (s.replyRoute h b).rl F i j = s.rl F i j :=
  State.ite_keeps (·.rl F i j) rfl (State.ite_keeps (·.rl F i j) rfl ((lamSent_lamEmit ..).rl _ _ _ hF))

/-- What a part refuses it counts; what the ITU answers OK it does not. -/
theorem State.rl_lamReply_of_refused (hm : s.mergeOf h.origin h.issuer h.cmdId = none) (hr : 0x10 ≤ r.status) :
    (s.lamReply h r).rl L.CMD_CNT_REFUSED = satN 32 (s.rl L.CMD_CNT_REFUSED + 1) := by
  have hsilent : ¬ silent h r.status = true := by
    have hne : r.status ≠ St.ok := fun e => by rw [e] at hr; exact absurd hr (by decide)
    simp [silent, hne]
  simp only [State.lamReply, stOk_of_refused hr, Bool.false_eq_true, if_false, State.mergeOf_il, hm, if_neg hsilent]
  exact (State.rl_replyRoute _ _ _ _ (by decide)).trans (s.rl_il_self_satN L.CMD_CNT_REFUSED 1 0 0)

theorem State.ri_ituReply_of_refused (hr : 0x10 ≤ r.status) (hst : r.status ≠ St.staleEpoch) :
    (s.ituReply h r).ri I.ICMD_CNT_REFUSED = satN 32 (s.ri I.ICMD_CNT_REFUSED + 1) := by
  have hcnt : s.ituRefused r.status = s.ii I.ICMD_CNT_REFUSED :=
    (if_neg (by simp [stOk_of_refused hr])).trans (if_neg hst)
  rw [State.ituReply, hcnt]
  refine (State.ite_keeps (·.ri I.ICMD_CNT_REFUSED) rfl ((ituSent_ituOffer _ _).ri _ _ _ (by decide))).trans ?_
  exact (s.ri_ii_self _ _ _ _).trans (Nat.mod_eq_of_lt (satN_lt _ _))

theorem State.ituReply_of_ok (hst : r.status = St.ok) : s.ituReply h r = if h.noReply then s else
    (s.ituOffer (s.ituRec 3 0x0E0 0 (s.now .itu) (replyBody h r false 1 0 0 false (s.ri I.CUFF_EPOCH)))).1 := by
  simp only [State.ituReply, State.ituRefused, silent, hst]
  cases h.noReply <;> rfl

end Reply

section Ring
variable {s : State} {body : List Nat} {rest : List (List Nat)}

/-- The ring waits for a reply, a free slot and memory. -/
theorem exec_replyRingWrite_of_none (h : s.lam.replies = [] ∨ s.replyRoom = 0 ∨ s.ddrOk = false) : exec .replyRingWrite s = .next s := by
  rcases hl : s.lam.replies with _ | ⟨body, rest⟩
  · simp only [exec, execReplyRingWrite, hl]
  · have hno : s.replyRoom = 0 ∨ (!s.ddrOk) = true := by
      rcases h with h | h | h
      · exact absurd (hl.symm.trans h) nofun
      · exact .inl h
      · exact .inr (by rw [h]; rfl)
    simp only [exec, execReplyRingWrite, hl]
    exact if_pos hno

/-- Storing bytes and raising a vector leave all but memory, registers and the vector. -/
theorem State.replies_ddrPut (s : State) (a : Nat) (bs : List Nat) :
    (s.ddrPut a bs).lam.replies = s.lam.replies ∧ (s.ddrPut a bs).lam.seq = s.lam.seq ∧ (s.ddrPut a bs).itu = s.itu := by
  rw [State.ddrPut_eq, State.countPoison, State.countCut_eq]
  exact ⟨rfl, rfl, rfl⟩
theorem State.replies_raiseVec (s : State) (v : Nat) :
    (s.raiseVec v).lam.replies = s.lam.replies ∧ (s.raiseVec v).lam.seq = s.lam.seq ∧ (s.raiseVec v).itu = s.itu :=
  ⟨State.ite_keeps (·.lam.replies) rfl rfl, State.ite_keeps (·.lam.seq) rfl rfl, State.ite_keeps (·.itu) rfl rfl⟩

theorem exec_replyRingWrite_of_room (hl : s.lam.replies = body :: rest) (hroom : s.replyRoom ≠ 0) (hok : s.ddrOk = true) :
    ∃ a bs v n, exec .replyRingWrite s = .next (((State.ddrPut
      { s with lam := { s.lam with replies := rest, seq := (s.lam.seq + 1) % 2 ^ 32 } } a bs).wl L.RPLQ_TAIL n).raiseVec v).serve := by
  simp only [exec, execReplyRingWrite, hl]
  exact ⟨_, _, _, _, if_neg (by simp [hroom, hok])⟩

end Ring

/-- Settles O8: the replies of the two parts by their status, and the reply ring. -/
theorem repliesLeaveTheirNode : Obligations.RepliesLeaveTheirNode := by
  refine ⟨?ituSilent, ?lamSilent, ?host, fun _ _ _ hr hst => State.ri_ituReply_of_refused hr hst,
    fun _ _ _ hr hm => State.rl_lamReply_of_refused hm hr, ?ituSent, ?parts, ?ring, fun _ h => exec_replyRingWrite_of_none h⟩
  case ituSilent => exact fun h r s hst hno => (State.ituReply_of_ok hst).trans (if_pos hno)
  case lamSilent =>
    exact fun h r s hst hno hm => (State.lamReply_of_alone hm (by rw [hst]; rfl)).trans (if_pos (by rw [silent, hno, hst]; rfl))
  case host =>
    intro h r s hno hm hok horigin hiss ha
    refine (State.lamReply_of_alone hm hok).trans ((if_neg (by simp [silent, hno])).trans ?_)
    refine (if_neg (by simp [hiss])).trans (if_pos ⟨horigin, hiss, ?_⟩)
    exact ha.imp_right fun e => by rw [e]; rfl
  case ituSent =>
    intro h r s hst
    rw [State.ituReply_of_ok hst]
    split
    · exact .refl s
    · exact ituSent_ituOffer _ _
  case parts =>
    exact fun h r s => ⟨(fr_ituReply (fp := { itu := true }) h r rfl (.refl _ s)).lam rfl,
      (fr_lamReply (fp := { lam := true }) h r rfl (.refl _ s)).itu rfl⟩
  case ring =>
    intro s body rest hl hroom hok
    obtain ⟨a, bs, v, n, e⟩ := exec_replyRingWrite_of_room hl hroom hok
    obtain ⟨h1, h2, h3⟩ := State.replies_ddrPut { s with lam := { s.lam with replies := rest, seq := (s.lam.seq + 1) % 2 ^ 32 } } a bs
    obtain ⟨k1, k2, k3⟩ := State.replies_raiseVec ((State.ddrPut
      { s with lam := { s.lam with replies := rest, seq := (s.lam.seq + 1) % 2 ^ 32 } } a bs).wl L.RPLQ_TAIL n) v
    exact ⟨_, e, k1.trans h1, k2.trans h2, k3.trans h3⟩

end Sys2Proof.Machine
end

section
/-! PROOFS. The local clock and its servo (R44, R45, R48, R51), and the PTP ports (R53 to R58). -/

namespace Sys2Proof.Machine

/-! ### The clock -/

theorem Clock.tick_value (c : Clock) (n : Nat) :
    (c.tick n).ns * 2 ^ 32 + (c.tick n).frac = (c.ns * 2 ^ 32 + c.frac + n * c.incr) % 2 ^ 96 :=
  Nat.div_add_mod' _ _

theorem Clock.tick_incr (c : Clock) (n : Nat) : (c.tick n).incr = c.incr := by
  cases c
  dsimp only [Clock.tick]
theorem Clock.tick_ticks (c : Clock) (n : Nat) : (c.tick n).ticks = c.ticks + n := by
  cases c
  dsimp only [Clock.tick]

/-- What n ticks of a clock make of it: its value, the increment and the count of ticks. -/
def Clock.Ticked (c : Clock) (n : Nat) (c' : Clock) : Prop :=
  c'.ns * 2 ^ 32 + c'.frac = (c.ns * 2 ^ 32 + c.frac + n * c.incr) % 2 ^ 96 ∧ c'.incr = c.incr ∧ c'.ticks = c.ticks + n

theorem Clock.ticked (c : Clock) (n : Nat) : c.Ticked n (c.tick n) := ⟨c.tick_value n, c.tick_incr n, c.tick_ticks n⟩

/-- t is s but for registers of the Lamulo. -/
def LamRegsOnly (s t : State) : Prop := ∃ r, t = { s with lam := { s.lam with regs := r } }

theorem LamRegsOnly.refl (s : State) : LamRegsOnly s s := ⟨s.lam.regs, rfl⟩
theorem LamRegsOnly.wl {s t : State} (h : LamRegsOnly s t) (F : Fld) (v i j : Nat) : LamRegsOnly s (t.wl F v i j) := by
  obtain ⟨r, rfl⟩ := h
  exact ⟨_, rfl⟩
theorem LamRegsOnly.ite {s t u : State} {c : Prop} {_ : Decidable c} (ht : LamRegsOnly s t) (hu : LamRegsOnly s u) :
    LamRegsOnly s (if c then t else u) := by
  split
  · exact ht
  · exact hu
theorem LamRegsOnly.foldl {α : Type} {f : State → α → State} {s : State} (hf : ∀ t a, LamRegsOnly s t → LamRegsOnly s (f t a)) (l : List α)
    {t : State} (h : LamRegsOnly s t) : LamRegsOnly s (l.foldl f t) := by
  induction l generalizing t with
  | nil => exact h
  | cons a l ih => exact ih (hf t a h)

theorem lamRegsOnly_msCounters (s : State) : LamRegsOnly s s.msCounters := by
  unfold State.msCounters
  extract_lets now s1 hold s2
  have h1 : LamRegsOnly s s1 := by
    dsimp only [s1]
    split
    · exact ((LamRegsOnly.refl s).wl _ _ _ _).ite (.refl s)
    · exact .refl s
  have h2 : LamRegsOnly s s2 := by
    dsimp only [s2]
    clear_value hold
    split
    · exact h1.wl _ _ _ _
    · exact h1
  exact h2.foldl (fun t q h => (h.wl _ _ _ _).ite h) _

/-- State t is s after n ticks of the clock of part sd, which touch nothing of the other part. -/
def TickShows (sd : Side) (n : Nat) (s t : State) : Prop :=
  (t.clk sd).ns * 2 ^ 32 + (t.clk sd).frac = ((s.clk sd).ns * 2 ^ 32 + (s.clk sd).frac + n * (s.clk sd).incr) % 2 ^ 96 ∧
  (t.clk sd).incr = (s.clk sd).incr ∧ (t.clk sd).ticks = (s.clk sd).ticks + n ∧
  (sd = .itu → t.lam = s.lam ∧ t.itu.regs = s.itu.regs) ∧ (sd = .lam → t.itu = s.itu ∧ t.lam.ddr = s.lam.ddr)

/-- Stated of a clock c, so that its checks never unfold the ticks. -/
theorem tickShows_itu {s : State} {n : Nat} {c : Clock} (h : s.itu.clk.Ticked n c) : TickShows .itu n s (s.setClk .itu c) := by
  obtain ⟨hv, hi, hn⟩ := h
  exact ⟨hv, hi, hn, fun _ => ⟨rfl, rfl⟩, nofun⟩
theorem tickShows_lam {s : State} {n : Nat} {c : Clock} (h : s.lam.clk.Ticked n c) : TickShows .lam n s (s.setClk .lam c).msCounters := by
  obtain ⟨hv, hi, hn⟩ := h
  obtain ⟨r, e⟩ := lamRegsOnly_msCounters (s.setClk .lam c)
  rw [e]
  exact ⟨hv, hi, hn, nofun, fun _ => ⟨rfl, rfl⟩⟩

section Servo
variable {s : State} {sd : Side}

/-- The increment written, by the servo and the bound. -/
theorem State.writeIncr_of_on (h : s.servoOn sd = true) (hi lo : Nat) : s.writeIncr sd hi lo = s := if_pos h
theorem State.writeIncr_of_off (h : s.servoOn sd = false) (hi lo : Nat) : s.writeIncr sd hi lo =
    if 0xFFF2E48F ≤ hi % 2 ^ 32 * 2 ^ 32 + lo % 2 ^ 32 ∧ hi % 2 ^ 32 * 2 ^ 32 + lo % 2 ^ 32 ≤ 0x1000D1B71 then
      s.setClk sd { s.clk sd with incr := hi % 2 ^ 32 * 2 ^ 32 + lo % 2 ^ 32 } else s := if_neg (by simp [h])

theorem exec_timeIncrHiWrite_of_allowed {iss : Issuer} {data : Nat} (ha : Allowed s sd iss (incrHiAddr sd) true 0) :
    exec (.timeIncrHiWrite sd iss data) s = .next ((s.writeIncr sd data
      ((s.heldLow iss.path (incrHiAddr sd - 4)).getD ((s.clk sd).incr % 2 ^ 32))).dropHold iss.path (incrHiAddr sd - 4)) :=
  ha.next fun g => (g.writeIncr sd data ((g.heldLow iss.path (incrHiAddr sd - 4)).getD ((g.clk sd).incr % 2 ^ 32))).dropHold
    iss.path (incrHiAddr sd - 4)

end Servo

/-- Settles O15: a tick adds the increment to the 96-bit value, and a write of the increment is applied by the servo and the bound. -/
theorem localClockTicksAndIncrement : Obligations.LocalClockTicksAndIncrement := by
  refine ⟨?tick, ?write, ?on⟩
  case tick =>
    intro sd n s
    cases sd with
    | itu => exact .of_eq (P := TickShows .itu n s) rfl (tickShows_itu (s.itu.clk.ticked n))
    | lam => exact .of_eq (P := TickShows .lam n s) rfl (tickShows_lam (s.lam.clk.ticked n))
  case write =>
    intro sd iss data s lo ha hoff hlo
    rw [hlo, ← State.writeIncr_of_off hoff]
    exact exec_timeIncrHiWrite_of_allowed ha
  case on =>
    intro sd iss data s ha hon
    refine (exec_timeIncrHiWrite_of_allowed ha).trans ?_
    rw [State.writeIncr_of_on hon]

end Sys2Proof.Machine
end

section
/-! PROOFS. The servo of a clock (R48, R51): its enable, REARM, loss of its source and HOLDOVER. -/

namespace Sys2Proof.Machine

section Servo
variable {s : State} {sd : Side}

/-- The servo is enabled or disabled. -/
def State.servoEnable (s : State) (sd : Side) (v : Nat) : State :=
  match sd with
  | .itu => s.wi I.ITIME_CTL_ENABLE v
  | .lam => s.wl L.TIME_CTL_ENABLE v

theorem State.setServo_of_start (hoff : s.servoOn sd = false) (hsrc : (s.clk sd).source = true) :
    s.setServo sd true = (s.servoEnable sd 1).setClkState sd 1 := by
  cases sd <;> exact (if_pos (by rw [hoff]; rfl)).trans (if_pos hsrc)
theorem State.setServo_of_stop (hon : s.servoOn sd = true) :
    s.setServo sd false = ((s.servoEnable sd 0).setClk sd { s.clk sd with holdFrom := none }).setClkState sd 0 := by
  cases sd <;> simp only [State.setServo, hon, Bool.not_true, Bool.and_false, Bool.false_eq_true, if_false, Bool.not_false,
    Bool.and_true, if_true] <;> rfl

/-- REARM of a servo that runs, and of one that does not. -/
theorem State.rearm_of_on (hon : (s.setStepUsed sd 0).servoOn sd = true) : s.rearm sd =
    ((s.setStepUsed sd 0).setClk sd { (s.setStepUsed sd 0).clk sd with holdFrom := none }).setClkState sd 1 := if_pos hon
theorem State.rearm_of_off (hoff : (s.setStepUsed sd 0).servoOn sd = false) : s.rearm sd = s.setStepUsed sd 0 := if_neg (by simp [hoff])
theorem State.servoOn_setStepUsed (v : Nat) : (s.setStepUsed sd v).servoOn sd = s.servoOn sd := by
  cases sd
  · exact congrArg (· == 1) (s.ri_wi_word _ _ _ _ _ rfl rfl (by decide))
  · exact congrArg (· == 1) (s.rl_wl_word _ _ _ _ _ rfl rfl (by decide))

/-- The selected source of the Lamulo's clock is lost, after the step and before it. -/
theorem State.sourceLost_of_none (h : (s.clk sd).source = false) : s.sourceLost sd = s := if_neg (by simp [h])
/-- The Lamulo with its source gone. -/
def State.noSource (s : State) : State := (s.setClk .lam { s.lam.clk with source := false }).wl L.TIME_STAT_SOURCE 0xF
theorem State.rl_noSource (F : Fld) (h : F.key 0 0 ≠ L.TIME_STAT_SOURCE.key 0 0) : s.noSource.rl F = s.rl F := State.rl_wl_ne _ _ _ _ _ _ _ _ h
theorem State.sourceLost_lam (h : s.lam.clk.source = true) :
    s.sourceLost .lam = if s.rl L.TIME_STAT_STATE = 0 ∨ s.rl L.TIME_STAT_STATE = 3 then s.noSource
      else if s.rl L.TIME_STAT_STEP_USED = 1 then (s.noSource.enterHoldover .lam).timeAlarm .lam 2 0 else s.noSource.setClkState .lam 0 := by
  rw [← s.rl_noSource L.TIME_STAT_STATE (by decide), ← s.rl_noSource L.TIME_STAT_STEP_USED (by decide)]
  exact if_pos h

/-- HOLDOVER begins: the increment freezes, and the state shows it. -/
theorem State.enterHoldover_lam (hst : s.rl L.TIME_STAT_STATE ≠ 3) : s.enterHoldover .lam = (s.setClk .lam { s.lam.clk with
    incr := ofS 64 (incrNominal + s.lam.clk.integral), holdFrom := some s.lam.clk.ns }).wl L.TIME_STAT_STATE 3 := by
  have hfrom : (if s.clkState .lam = 3 then (s.clk .lam).holdFrom else some (s.clk .lam).ns) = some s.lam.clk.ns := if_neg hst
  rw [State.enterHoldover, hfrom]
  rfl

/-- 1,000 ms of HOLDOVER, and a clock that is not in it. -/
theorem exec_holdoverDegraded_of_due {t0 : Nat} (hf : (s.clk sd).holdFrom = some t0) (hst : s.clkState sd = 3) (hd : s.degraded sd = 0)
    (hdue : 1000000000 ≤ s.now sd - t0) :
    exec (.holdoverDegraded sd) s = .next (((s.setDegraded sd 1).timeAlarm sd 1 0).after sd) := by
  simp only [exec, execHoldoverDegraded, hf]
  exact if_pos ⟨hst, hd, (Nat.le_div_iff_mul_le (by decide)).mpr hdue⟩
theorem exec_holdoverDegraded_of_not (hst : s.clkState sd ≠ 3) : exec (.holdoverDegraded sd) s = .next s := by
  simp only [exec, execHoldoverDegraded]
  split
  · exact if_neg fun h => hst h.1
  · rfl

end Servo

/-- Settles O16: the servo's commands and events by the state of the clock. -/
theorem servoStatesFollowTheRules : Obligations.ServoStatesFollowTheRules := by
  refine ⟨?lamStart, ?lamStop, ?ituStart, ?ituStop, ?rearm, ?rearmOff, ?lost, ?lostBefore, ?lostNone, ?degraded, ?notHoldover⟩
  case lamStart =>
    exact fun iss s ha hoff hsrc => (ha.next fun g => (g.setServo .lam true).after .lam).trans
      (congrArg (fun t : State => Host.Outcome.next (t.after .lam)) (State.setServo_of_start hoff hsrc))
  case lamStop =>
    exact fun iss s ha hon => (ha.next fun g => (g.setServo .lam false).after .lam).trans
      (congrArg (fun t : State => Host.Outcome.next (t.after .lam)) (State.setServo_of_stop hon))
  case ituStart =>
    exact fun iss s ha hoff hsrc => (ha.next fun g => (g.setServo .itu true).after .itu).trans
      (congrArg (fun t : State => Host.Outcome.next (t.after .itu)) (State.setServo_of_start hoff hsrc))
  case ituStop =>
    exact fun iss s ha hon => (ha.next fun g => (g.setServo .itu false).after .itu).trans
      (congrArg (fun t : State => Host.Outcome.next (t.after .itu)) (State.setServo_of_stop hon))
  case rearm =>
    intro iss s ha hon
    refine .of_eq ((ha.next fun g => (g.rearm .lam).after .lam).trans (congrArg (fun t : State => Host.Outcome.next (t.after .lam))
      (State.rearm_of_on ((State.servoOn_setStepUsed 0).trans hon)))) ⟨?_, ?_, rfl, rfl⟩
    · exact (State.rl_wl_ne _ _ _ _ _ _ _ _ (by decide)).trans (s.rl_wl_self L.TIME_STAT_STEP_USED 0 0 0)
    · exact State.rl_wl_self _ _ _ _ _
  case rearmOff =>
    exact fun iss s ha hoff => (ha.next fun g => (g.rearm .itu).after .itu).trans (congrArg (fun t : State => Host.Outcome.next (t.after .itu))
      (State.rearm_of_off ((State.servoOn_setStepUsed 0).trans hoff)))
  case lost =>
    intro s hsrc hst hused
    have e : s.sourceLost .lam = _ := (State.sourceLost_lam hsrc).trans
      ((if_neg (by rw [hst]; decide)).trans ((if_pos hused).trans (by
        rw [State.enterHoldover_lam (by rw [s.rl_noSource _ (by decide), hst]; decide)])))
    have hsent := lamSent_timeAlarm ((s.noSource.setClk .lam { s.noSource.lam.clk with
      incr := ofS 64 (incrNominal + s.noSource.lam.clk.integral), holdFrom := some s.noSource.lam.clk.ns }).wl L.TIME_STAT_STATE 3) 2 0
    refine .of_eq (congrArg Host.Outcome.next e) ⟨?_, ?_, hsent.clk, hsent.itu⟩
    · exact (hsent.rl _ _ _ (by decide)).trans (State.rl_wl_self _ _ _ _ _)
    · exact (hsent.rl _ _ _ (by decide)).trans ((State.rl_wl_ne _ _ _ _ _ _ _ _ (by decide)).trans
        ((s.setClk .lam { s.lam.clk with source := false }).rl_wl_self L.TIME_STAT_SOURCE 0xF 0 0))
  case lostBefore =>
    exact fun s hsrc hst hused => congrArg Host.Outcome.next ((State.sourceLost_lam hsrc).trans
      ((if_neg (by rw [hst]; decide)).trans (if_neg (by rw [hused]; decide))))
  case lostNone => exact fun sd s h => congrArg (fun t : State => Host.Outcome.next (t.after sd)) (State.sourceLost_of_none h)
  case degraded =>
    intro s t0 hf hst hd hdue
    have hsent := lamSent_timeAlarm (s.setDegraded .lam 1) 1 0
    refine .of_eq (exec_holdoverDegraded_of_due hf hst hd hdue) ⟨?_, ?_, hsent.clk, hsent.itu⟩
    · exact (hsent.rl _ _ _ (by decide)).trans (State.rl_wl_self _ _ _ _ _)
    · exact (hsent.rl _ _ _ (by decide)).trans ((State.rl_wl_ne _ _ _ _ _ _ _ _ (by decide)).trans hst)
  case notHoldover => exact fun sd s h => exec_holdoverDegraded_of_not h

end Sys2Proof.Machine
end

section
/-! PROOFS. The PTP ports (R53 to R58): what the time function of a port does with a message, and what it sends. -/

namespace Sys2Proof.Machine

section Ptp
variable {s : State} {p t f : Nat} {m : PtpMsg}

/-- A message at a port, by its mode, its settling and the domain. -/
theorem exec_ptpMessageRx_of_off (h : s.rl L.TIME_PORT_CFG_MODE p = 0) : exec (.ptpMessageRx p m) s = .next s := if_pos (.inr h)
theorem exec_ptpMessageRx_of_settling (hp : p < 24) (hm : s.rl L.TIME_PORT_CFG_MODE p ≠ 0) (hset : (s.ptp p).settled = false)
    (he : m.kind.event = true) : exec (.ptpMessageRx p m) s = .next (s.il L.TIME_CNT_SETTLE) :=
  (if_neg fun h => h.elim hp.not_ge hm).trans (if_pos (by rw [hset, he]; rfl))
theorem exec_ptpMessageRx_of_settled (hp : p < 24) (hm : s.rl L.TIME_PORT_CFG_MODE p ≠ 0) (h4 : s.rl L.TIME_PORT_CFG_MODE p ≠ 4)
    (hset : (s.ptp p).settled = true) (hd : m.domain = s.rl L.TIME_PORT_CFG_DOMAIN p) : exec (.ptpMessageRx p m) s =
      if s.rl L.TIME_PORT_CFG_MODE p = 1 then .next (s.ptpMaster p m) else .next (s.ptpSlave p m) := by
  refine (if_neg fun h => h.elim hp.not_ge hm).trans ((if_neg (by rw [hset]; simp)).trans ((if_neg h4).trans (if_neg fun h => h hd)))

/-- A Delay_Req at a master, and a two-step Sync at a slave. -/
theorem State.ptpMaster_of_delayReq (hk : m.kind = .delayReq) : s.ptpMaster p m = s.setPtp p { s.ptp p with
    out := some { m with kind := .delayResp, t := s.rxStamp p m.rxT m.rxF / 65536, f := s.rxStamp p m.rxT m.rxF % 65536 } } := by
  simp only [State.ptpMaster, hk]
theorem State.ptpSlave_of_twoStep (hk : m.kind = .sync true) : s.ptpSlave p m = s.setPtp p { s.ptp p with
    t1 := none, t2 := some (s.rxStamp p m.rxT m.rxF, 0), syncCorr := some (toS 64 m.corr), tick2 := s.lam.clk.ticks } := by
  simp only [State.ptpSlave, hk]

/-- The ports, one of them replaced. -/
theorem State.ptp_setPtp_self (v : PtpPort) : (s.setPtp p v).ptp p = v := getD_setNth_self ..
theorem State.ptp_setPtp_ne (v : PtpPort) {q : Nat} (h : q ≠ p) : (s.setPtp p v).ptp q = s.ptp q := getD_setNth_ne _ _ _ _ _ h

end Ptp

/-- Settles O17: messages by the mode of the port, and what it sends. -/
theorem ptpPortsSendAndAnswer : Obligations.PtpPortsSendAndAnswer := by
  refine ⟨?delayReq, fun _ _ _ hp hm hset he => exec_ptpMessageRx_of_settling hp hm hset he, fun _ _ _ h => exec_ptpMessageRx_of_off h,
    ?twoStep, fun _ _ _ _ hm hset => if_pos ⟨hm, hset⟩, fun _ _ _ _ hm => if_neg fun h => hm h.1, ?request, ?noRequest, ?settle⟩
  case delayReq =>
    exact fun p m s hp hm hset hd hk => (exec_ptpMessageRx_of_settled hp (by simp [hm]) (by simp [hm]) hset hd).trans
      ((if_pos hm).trans (congrArg Host.Outcome.next (State.ptpMaster_of_delayReq hk)))
  case twoStep =>
    exact fun p m s hp hm hset hd hk => (exec_ptpMessageRx_of_settled hp (by simp [hm]) (by simp [hm]) hset hd).trans
      ((if_neg (by simp [hm])).trans (congrArg Host.Outcome.next (State.ptpSlave_of_twoStep hk)))
  case request => exact fun p t f s hm hset => if_pos ⟨.inl hm, hset⟩
  case noRequest => exact fun p t f s hm => if_neg (by simp [hm])
  case settle =>
    exact fun p s hp => .of_eq (if_pos hp) ⟨congrArg PtpPort.settled (State.ptp_setPtp_self _),
      fun q hq => State.ptp_setPtp_ne _ hq, rfl, rfl⟩

end Sys2Proof.Machine
end

section
/-! PROOFS. The mains chain (R62 to R73): edges at the Crown, its holdover, and the announcements at the other nodes. -/

namespace Sys2Proof.Machine

section Edges
variable {s : State} {e : Nat}

/-- An edge at a Crown that captures, by its kind; elsewhere it is nothing. -/
theorem exec_mzcEdge_of_glitch (hr : s.role = 3) (hc : s.rl L.MAINS_CTL_CAPTURE = 1)
    (hk : edgeKind s.lam.mzc.last s.period e = .glitch) : exec (.mzcEdge e) s = .next (s.il L.MAINS_CNT_GLITCH) := by
  simp only [exec, execMzcEdge, if_pos (And.intro hr hc), hk]
theorem exec_mzcEdge_of_phaseOnly (hr : s.role = 3) (hc : s.rl L.MAINS_CTL_CAPTURE = 1)
    (hk : edgeKind s.lam.mzc.last s.period e = .phaseOnly) (hf : s.lam.mzc.firstSet = false) :
    exec (.mzcEdge e) s = .next ((s.phaseError e).edgePhase e) := by
  simp only [exec, execMzcEdge, if_pos (And.intro hr hc), hk, hf]
  rfl
theorem exec_mzcEdge_of_filter (hr : s.role = 3) (hc : s.rl L.MAINS_CTL_CAPTURE = 1)
    (hk : edgeKind s.lam.mzc.last s.period e = .filter) (hf : s.lam.mzc.firstSet = false) :
    exec (.mzcEdge e) s = .next ((s.phaseError e).edgeFilter e (e - s.lam.mzc.last.getD 0)) := by
  simp only [exec, execMzcEdge, if_pos (And.intro hr hc), hk, hf]
  rfl
theorem exec_mzcEdge_of_idle (h : s.role ≠ 3 ∨ s.rl L.MAINS_CTL_CAPTURE ≠ 1) : exec (.mzcEdge e) s = .next s :=
  if_neg fun ⟨hr, hc⟩ => h.elim (fun h => h hr) fun h => h hc

/-- The kind of an edge once a period is known (R62). -/
theorem edgeKind_of_period {l p : Nat} (hp : p ≠ 0) : edgeKind (some l) p e = if (e - l) * 2 ^ 32 * 4 < 3 * p then .glitch
    else if (e - l) * 2 ^ 32 * 4 ≤ 5 * p ∧ 15384615 ≤ e - l ∧ e - l ≤ 22222223 then .filter else .phaseOnly := by
  simp only [edgeKind, if_neg hp, Bool.and_eq_true, decide_eq_true_eq]

theorem State.rl_edgePhase_state (h : s.rl L.MAINS_STAT_STATE = 0) : (s.edgePhase e).rl L.MAINS_STAT_STATE = 1 := by
  have h0 : (s.il L.MAINS_CNT_MISSED).rl L.MAINS_STAT_STATE = 0 := (s.rl_il_ne _ _ _ _ _ _ _ (by decide)).trans h
  exact (congrArg (fun t : State => t.rl L.MAINS_STAT_STATE) (if_pos h0)).trans (State.rl_wl_self _ _ _ _ _)

/-- A record made leaves the Crown's capture as it is. -/
theorem LamSent.mzc {s t : State} (h : LamSent s t) : t.lam.mzc = s.lam.mzc := by rw [h.1]
theorem LamSent.isCrown {s t : State} (h : LamSent s t) : t.isCrown = s.isCrown := by
  rw [State.isCrown, State.role, h.rl _ _ _ (by decide), h.rl _ _ _ (by decide), h.mzc]
  rfl
theorem ItuSent.mains {s t : State} (h : ItuSent s t) : t.itu.mains = s.itu.mains := by rw [h.1]

/-- Three periods without an edge, and fewer. -/
theorem exec_mainsHoldoverEntry_of_due {l : Nat} (hl : s.lam.mzc.last = some l) (hr : s.role = 3) (hst : s.rl L.MAINS_STAT_STATE = 2)
    (hdue : 3 * s.period ≤ (s.lam.clk.ns - l) * 2 ^ 32) : exec .mainsHoldoverEntry s = .next
      (((State.wl { s with lam := { s.lam with mzc := { s.lam.mzc with run := 0, holdFrom := some s.lam.clk.ns } } }
        L.MAINS_STAT_STATE 4).wl L.MAINS_HOLD_MS 0).mainsAlarm .lam 0) := by
  simp only [exec, execMainsHoldoverEntry, hl]
  exact if_pos ⟨hr, .inl hst, hdue⟩
theorem exec_mainsHoldoverEntry_of_early {l : Nat} (hl : s.lam.mzc.last = some l) (h : (s.lam.clk.ns - l) * 2 ^ 32 < 3 * s.period) :
    exec .mainsHoldoverEntry s = .next s := by
  simp only [exec, execMainsHoldoverEntry, hl]
  exact if_neg fun hc => h.not_ge hc.2.2

end Edges

section Chain
variable {s : State} {sd : Side} {t0 : Nat} {a : Ann}

/-- Conservative mode, at the Crown by its holdover and elsewhere by the announcements lost. -/
theorem exec_conservativeEntry_of_crown (hc : s.isCrown = true) (hf : s.lam.mzc.holdFrom = some t0) (hst : s.rl L.MAINS_STAT_STATE = 4)
    (hcons : s.lam.mzc.cons = false) (hdue : 10000000000 ≤ s.lam.clk.ns - t0) : exec (.conservativeEntry .lam) s = .next
      (State.mainsAlarm { s with lam := { s.lam with mzc := { s.lam.mzc with cons := true } } } .lam 1) := by
  refine (if_pos (by rw [hc]; rfl)).trans ?_
  simp only [hf]
  exact if_pos ⟨hst, hcons, hdue⟩
theorem exec_conservativeEntry_of_lost (hc : sd = .lam → s.isCrown = false) (hf : (s.mains sd).lostFrom = some t0)
    (hcons : (s.mains sd).localCons = false) (hdue : 10000000000 ≤ s.now sd - t0) : exec (.conservativeEntry sd) s = .next
      ((s.setMains sd { s.mains sd with localCons := true }).mainsAlarm sd 1) := by
  refine (if_neg (by cases sd <;> simp [hc])).trans ?_
  simp only [hf]
  exact if_pos ⟨hcons, hdue⟩
theorem exec_conservativeEntry_of_none (hc : s.isCrown = false) (hf : (s.mains sd).lostFrom = none) :
    exec (.conservativeEntry sd) s = .next s := by
  refine (if_neg (by simp [hc])).trans ?_
  simp only [hf]

theorem State.conservative_itu (s : State) :
    s.conservative .itu = (s.itu.mains.localCons || s.itu.mains.known.any fun a => bitAt a.flags 1) := rfl

/-- A change of MAINS_CTL.ENABLE discards the chain. -/
def State.chainGone (s : State) (v : Bool) : State := ((s.wl L.MAINS_CTL_ENABLE (b2n v)).setMains .lam {}).wl L.MAINS_STAT_ANN_LOST 0
theorem State.setMainsEnable_of_crown {v : Bool} (h : s.rl L.MAINS_CTL_ENABLE ≠ b2n v) (hr : (s.chainGone v).role = 3) :
    ∃ z, s.setMainsEnable v = { s.chainGone v with lam := { (s.chainGone v).lam with mzc := z } } :=
  ⟨_, (if_neg h).trans (if_pos hr)⟩
theorem State.setMainsEnable_of_other {v : Bool} (h : s.rl L.MAINS_CTL_ENABLE ≠ b2n v) (hr : (s.chainGone v).role ≠ 3) :
    s.setMainsEnable v = (s.chainGone v).wl L.MAINS_STAT_STATE 0 := (if_neg h).trans (if_neg hr)
theorem State.rl_chainGone (v : Bool) : (s.chainGone v).role = s.role ∧ (s.chainGone v).rl L.MAINS_STAT_ANN_LOST = 0 ∧
    (s.chainGone v).rl L.MAINS_CTL_ENABLE = b2n v :=
  ⟨(State.rl_wl_ne _ _ _ _ _ _ _ _ (by decide)).trans (s.rl_wl_ne L.MAINS_CTL_ENABLE L.LAM_STRAP_ROLE _ _ _ _ _ (by decide)),
    State.rl_wl_self _ _ _ _ _, (State.rl_wl_ne _ _ _ _ _ _ _ _ (by decide)).trans
      ((s.rl_wl_self L.MAINS_CTL_ENABLE _ _ _).trans (b2n_mod_two v))⟩

/-- A MAINS cell at the ITU: held already, or accepted as the first. -/
theorem State.annCheck_of_known (hheld : (s.mains .itu).held = true) (hk : (s.mains .itu).known.contains a = true) : s.annCheck .itu a = s := by
  simp only [State.annCheck, hheld, hk]
  rfl
theorem State.annCheck_of_first (hheld : (s.mains .itu).held = false) (hst : s.clkState .itu = 2) (hlt : s.now .itu < a.startNs) :
    s.annCheck .itu a = s.annAccept .itu a := by
  simp only [State.annCheck, hheld, hst, if_neg hlt.not_ge]
  rfl

end Chain

/-- Settles O18: edges by their kind, the chain by what it holds. -/
theorem mainsCaptureAndAnnouncements : Obligations.MainsCaptureAndAnnouncements := by
  refine ⟨fun _ _ hr hc hk => exec_mzcEdge_of_glitch hr hc hk, fun _ _ hr hc hk hf => exec_mzcEdge_of_phaseOnly hr hc hk hf,
    fun _ _ hr hc hk hf => exec_mzcEdge_of_filter hr hc hk hf, fun _ _ h => exec_mzcEdge_of_idle h,
    fun _ _ => ⟨rfl, rfl, State.rl_edgePhase_state⟩, fun _ _ _ hp => edgeKind_of_period hp, ?holdover,
    fun _ _ hl h => exec_mainsHoldoverEntry_of_early hl h, ?annLost, fun _ _ h => if_neg fun hc => h.not_ge hc.1, ?crown, ?lost, ?none,
    ?enable, fun _ _ _ ha h => (ha.next (·.setMainsEnable _)).trans (congrArg Host.Outcome.next (if_pos h)), fun _ _ h => if_pos h, ?known,
    ?first, fun _ _ => rfl, ?resend, ?noResend⟩
  case holdover =>
    intro s l hl hr hst hdue
    have hsent := lamSent_mainsAlarm ((State.wl { s with lam := { s.lam with mzc := { s.lam.mzc with
      run := 0, holdFrom := some s.lam.clk.ns } } } L.MAINS_STAT_STATE 4).wl L.MAINS_HOLD_MS 0) 0
    refine .of_eq (exec_mainsHoldoverEntry_of_due hl hr hst hdue) ⟨?_, ?_, hsent.mzc, hsent.itu⟩
    · exact (hsent.rl _ _ _ (by decide)).trans ((State.rl_wl_ne _ _ _ _ _ _ _ _ (by decide)).trans (State.rl_wl_self _ _ _ _ _))
    · exact (hsent.rl _ _ _ (by decide)).trans (State.rl_wl_self _ _ _ _ _)
  case annLost => exact fun sd s hm hf hc => if_pos ⟨hm, hf, by cases sd <;> simp [hc]⟩
  case crown =>
    intro s t0 hc hf hst hcons hdue
    have hsent := lamSent_mainsAlarm { s with lam := { s.lam with mzc := { s.lam.mzc with cons := true } } } 1
    refine .of_eq (exec_conservativeEntry_of_crown hc hf hst hcons hdue) ⟨hsent.mzc, ?_, hsent.itu⟩
    exact (if_pos (by rw [hsent.isCrown]; exact hc)).trans (congrArg Mzc.cons hsent.mzc)
  case lost =>
    intro s t0 hf hcons hdue
    have hsent := ituSent_mainsAlarm (s.setMains .itu { s.itu.mains with localCons := true }) 1
    refine .of_eq (exec_conservativeEntry_of_lost nofun hf hcons hdue) ⟨hsent.mains, ?_, hsent.lam⟩
    have hl : (State.mainsAlarm (s.setMains .itu { s.itu.mains with localCons := true }) .itu 1).itu.mains.localCons = true :=
      congrArg Mains.localCons hsent.mains
    exact (State.conservative_itu _).trans ((Bool.or_eq_true _ _).mpr (.inl hl))
  case none => exact fun sd s hf hc => exec_conservativeEntry_of_none hc hf
  case enable =>
    intro iss v s ha h
    obtain ⟨hrole, hann, hen⟩ := s.rl_chainGone v
    by_cases hr : (s.chainGone v).role = 3
    · obtain ⟨z, e⟩ := State.setMainsEnable_of_crown h hr
      exact .of_eq ((ha.next (·.setMainsEnable v)).trans (congrArg Host.Outcome.next e))
        ⟨rfl, hann, hen, fun hne => absurd (hrole.symm.trans hr) hne, rfl, rfl⟩
    · refine .of_eq ((ha.next (·.setMainsEnable v)).trans (congrArg Host.Outcome.next (State.setMainsEnable_of_other h hr)))
        ⟨rfl, ?_, ?_, fun _ => State.rl_wl_self _ _ _ _ _, rfl, rfl⟩
      · exact (State.rl_wl_ne _ _ _ _ _ _ _ _ (by decide)).trans hann
      · exact (State.rl_wl_ne _ _ _ _ _ _ _ _ (by decide)).trans hen
  case known =>
    exact fun a s hset hk hheld => (if_neg hset).trans (congrArg (fun t : State => Host.Outcome.next (t.after .itu))
      (State.annCheck_of_known hheld hk))
  case first =>
    exact fun a s hset hheld hst hlt => (if_neg hset).trans (congrArg (fun t : State => Host.Outcome.next (t.after .itu))
      (State.annCheck_of_first hheld hst hlt))
  case resend => exact fun a s h => by simp only [exec, execMainsCellResend, h]
  case noResend => exact fun s h => by simp only [exec, execMainsCellResend, h]

end Sys2Proof.Machine
end

section
/-! PROOFS. Slot boundaries and mains cycles (R65, R68, R69), and the release of retiring banks (R29). -/

namespace Sys2Proof.Machine

section Slots
variable {s : State} {sd : Side} {a : Ann}

@[simp] theorem State.mains_setMains (m : Mains) : (s.setMains sd m).mains sd = m := by cases sd <;> rfl
/-- The slot of the current MC is no condition of R52. -/
theorem State.slotsOk_setMains {m : Mains} (h : m.cur = (s.mains sd).cur) : (s.setMains sd m).slotsOk sd = s.slotsOk sd := by
  cases sd
  · exact congrArg (fun c : Option Ann => _ && c.isSome) h
  · exact congrArg (fun c : Option Ann => _ && c.isSome) h

/-- The next boundary of the current MC, once its time has come. -/
theorem exec_slotBoundary_of_due (hc : (s.mains sd).cur = some a) (hn : (s.mains sd).slot < 64)
    (hdue : a.slotAt (s.mains sd).slot ≤ s.now sd) :
    exec (.slotBoundary sd) s = .next (if s.slotsOk sd then
        (s.setMains sd { s.mains sd with slot := (s.mains sd).slot + 1 }).slotActs sd (s.mains sd).slot (a.slotAt (s.mains sd).slot)
      else s.setMains sd { s.mains sd with slot := (s.mains sd).slot + 1 }) := by
  have hok : (s.setMains sd { s.mains sd with slot := (s.mains sd).slot + 1 }).slotsOk sd = s.slotsOk sd := State.slotsOk_setMains rfl
  simp only [exec, execSlotBoundary]
  split
  · next b hb =>
    obtain rfl : a = b := Option.some.inj (hc.symm.trans hb)
    exact (if_pos ⟨hn, hdue⟩).trans (by rw [hok])
  · next hb => exact absurd (hc.symm.trans hb) nofun
theorem exec_slotBoundary_of_early (hc : (s.mains sd).cur = some a) (h : s.now sd < a.slotAt (s.mains sd).slot) :
    exec (.slotBoundary sd) s = .next s := by
  simp only [exec, execSlotBoundary, hc]
  exact if_neg fun hd => h.not_ge hd.2

end Slots

section Cycle
variable {s : State} {sd : Side} {a c : Ann} {rest : List Ann}

/-- A state of the chain shown by the register of the Lamulo leaves the chain. -/
theorem State.mains_setMainsState (v : Nat) : (s.setMainsState sd v).mains sd = s.mains sd := by cases sd <;> rfl

/-- The chain moves to the MC announced next, or to the one extrapolated. -/
theorem State.mains_mcAdvance_of_next (hn : (s.mains sd).next = a :: rest) (hl : (s.mains sd).localCons = false) :
    (s.mcAdvance sd).mains sd = { s.mains sd with cur := some a, next := rest, extrap := false, good := (s.mains sd).good + 1, slot := 0 } := by
  simp only [State.mcAdvance, hl, Bool.false_and, Bool.false_eq_true, if_false, hn]
  exact State.ite_keeps (·.mains sd) (State.mains_setMains _) ((State.mains_setMainsState _).trans (State.mains_setMains _))
theorem State.mains_mcAdvance_of_missing (hn : (s.mains sd).next = []) (hc : (s.mains sd).cur = some c)
    (hl : (s.mains sd).localCons = false) : (s.mcAdvance sd).mains sd = { s.mains sd with
      cur := some c.extrapolate, extrap := true, good := 0, missed := (s.mains sd).missed + 1, slot := 0 } := by
  simp only [State.mcAdvance, hl, Bool.false_and, Bool.false_eq_true, if_false, hn, hc]
  refine State.ite_keeps (·.mains sd) ?_ ((State.mains_setMainsState _).trans ?_)
  all_goals exact State.ite_keeps (·.mains sd) (by cases sd <;> rfl) (State.mains_setMains _)

end Cycle

/-- An announcement sent is the next of the Crown's own chain. (Stated of any announcement, so that its check never unfolds one.) -/
theorem State.next_announced (s : State) (m : Mains) (a : Ann) : (((s.setMains .lam { m with next := [a] }).send .all 3 (.mains a)).send
    .standby 3 (.mains a)).lam.mains.next = [a] := rfl

/-- The chain of the active Crown in TRACK: the next MC is announced with the length of R65. -/
theorem State.mains_crownAnnounce {s : State} {c : Ann} (hc : s.lam.mains.cur = some c) (hst : s.rl L.MAINS_STAT_STATE = 2) :
    ∃ a, s.crownAnnounce.lam.mains.next = [a] ∧ a.mc = (c.mc + 1) % 2 ^ 48 ∧ a.start = c.start + c.length ∧
    a.length = ofS 64 ((s.period : Int) + clampZ (s.predErr c.mc) (-(s.rl L.MAINS_SLEW_LIMIT * nsUnit)) (s.rl L.MAINS_SLEW_LIMIT * nsUnit)) := by
  have hp (v : Nat) : (s.wl L.MAINS_STAT_STATE v).period = s.period := by
    rw [State.period, State.rl_wl_ne _ _ _ _ _ _ _ _ (by decide), State.rl_wl_ne _ _ _ _ _ _ _ _ (by decide)]
    rfl
  simp only [State.crownAnnounce, hc, hst, beq_self_eq_true, Bool.true_or, if_true]
  exact ⟨_, State.next_announced _ _ _, rfl, rfl, by rw [hp]⟩

/-- Settles O19: boundaries and cycles by whether their time has come, the chain by what is announced. -/
theorem cyclesAndSlotsBegin : Obligations.CyclesAndSlotsBegin := by
  refine ⟨?slot, ?slotOff, fun _ _ _ hc h => exec_slotBoundary_of_early hc h, ?itu, ?lam, fun _ _ _ h => if_pos (by rw [h]; rfl), ?next,
    ?missing, fun _ _ hc hst => State.mains_crownAnnounce hc hst, ?release, fun _ h => if_neg (by simp [h])⟩
  case slot =>
    intro sd s a hc hn hdue hok
    rw [exec_slotBoundary_of_due hc hn hdue, if_pos hok]
  case slotOff =>
    intro sd s a hc hn hdue hok
    rw [exec_slotBoundary_of_due hc hn hdue, if_neg (by simp [hok])]
  case itu => exact fun polls s h => if_neg (by simp [h])
  case lam => exact fun polls s h => if_neg (by simp [h])
  case next =>
    intro sd s a rest hn hl
    rw [State.mains_mcAdvance_of_next hn hl]
    exact ⟨rfl, rfl, rfl⟩
  case missing =>
    intro sd s c hn hc hl
    rw [State.mains_mcAdvance_of_missing hn hc hl]
    exact ⟨rfl, rfl⟩
  case release => exact fun s hr hd => if_pos (by rw [hr, hd]; rfl)

end Sys2Proof.Machine
end

section
/-! PROOFS. Reset of the ITU (R80, R89), its function enables (R82), its power domains (R81 to R83) and the measure of its clock (R90). -/

namespace Sys2Proof.Machine

section Enables
variable {s : State} {n d : Nat} {F : Fld}

/-- An enable bit written, by its domain and its value. -/
theorem State.setFn_of_off (h : fnBits[n]? = some (F, d)) (hd : s.ipdOn d = false) : s.setFn n true = s.wi I.ITU_FAULT_PD_OFF_ACCESS 1 := by
  simp only [State.setFn, h, hd]
  rfl
theorem State.setFn_of_set (h : fnBits[n]? = some (F, d)) (hd : s.ipdOn d = true) (hF : s.ri F = 0) :
    s.setFn n true = (s.wi F 1).fnSet n := by
  simp only [State.setFn, h, hd, hF]
  rfl
theorem State.setFn_of_clear (h : fnBits[n]? = some (F, d)) (hF : s.ri F = 1) : s.setFn n false = (s.wi F 0).fnClear n := by
  simp only [State.setFn, h, hF]
  rfl

end Enables

section Power
variable {s : State} {n t0 : Nat}

/-- A domain that is not switching, asked on. -/
theorem State.pdRequest_of_on (hb : bitAt (s.ri I.ITU_PD_STAT_BUSY) n = false) (hc : bitAt (s.ri I.ITU_PD_CTL_ON) (n - 1) = false) :
    s.pdRequest n true = s.pdRequestOn n :=
  (if_neg (by simp [hb, hc])).trans (if_pos rfl)
theorem State.ri_pdRequestOn : (s.pdRequestOn n).ri I.ITU_PD_STAT_BUSY =
    setBits (s.ri I.ITU_PD_STAT_BUSY) n 1 1 % 2 ^ I.ITU_PD_STAT_BUSY.width := by
  refine ((s.wiBit I.ITU_PD_CTL_ON (n - 1) true).ri_wi_self _ _ _ _).trans ?_
  rw [State.wiBit, State.ri_wi_ne _ _ _ _ _ _ _ _ (by decide)]
  rfl

/-- The acknowledge of a switched domain, and none within 10 us. -/
theorem exec_pdSwAck_of_level {level : Bool} (h1 : 1 ≤ n) (h4 : n ≤ 4) (hb : bitAt (s.ri I.ITU_PD_STAT_BUSY) n = true)
    (hl : bitAt s.itu.pins.pdReq (n - 1) = level) (hd : s.pdDraining n = false) : exec (.pdSwAck n level) s = .next (s.pdDone n level) :=
  if_pos ⟨h1, h4, hb, hl, by rw [hd]; rfl⟩
theorem exec_pdSwAckTimeout_of_due (h : s.itu.pins.pdSince.find? (fun x => x.1 == n) = some (n, t0)) (hdue : 10000 ≤ s.itu.clk.ns - t0) :
    exec (.pdSwAckTimeout n) s =
      .next ((((s.pdDone n false).wiBit I.ITU_PD_STAT_TIMEOUT n true).ii I.ITU_CNT_PD_TO).wi I.ITU_FAULT_PD_TO 1) := by
  simp only [exec, execPdSwAckTimeout, h]
  exact if_pos hdue

/-- A domain lost leaves the Lamulo and the local clock. -/
theorem State.pdLose_keeps : (s.pdLose n).lam = s.lam ∧ (s.pdLose n).itu.clk = s.itu.clk := by
  unfold State.pdLose
  split <;> exact ⟨rfl, rfl⟩

end Power

/-- Settles O20: the reset state field by field, enables and domains by their bits. -/
theorem ituResetEnablesAndDomains : Obligations.ItuResetEnablesAndDomains := by
  refine ⟨?reset, fun _ _ _ ha => ha.next (·.writeFnEn _), fun _ _ _ _ h hd => State.setFn_of_off h hd,
    fun _ _ _ _ h hd hF => State.setFn_of_set h hd hF, fun _ _ _ _ h hF => State.setFn_of_clear h hF,
    fun _ _ _ ha => ha.next (·.writePdCtl _), ?on, fun _ _ _ hb => if_pos (.inl hb), ?ack,
    fun n level s hb => if_neg fun ⟨_, _, h, _⟩ => by simp [hb] at h, ?timeout, ?noTimeout, fun _ _ hc => if_neg hc, fun s => show execItuClkMeasure 0 s = .next s from if_pos rfl⟩
  case reset =>
    exact fun s => .of_eq rfl ⟨rfl, rfl, rfl, rfl, rfl, rfl, Regs.rd_wr_self _ _ _ _ _,
      fun F i j h => (Regs.rd_wr_ne [] I.LDG_CMAX F _ 0 0 i j h).trans (Regs.rd_nil F i j)⟩
  case on =>
    intro s n hb hc
    rw [State.pdRequest_of_on hb hc]
    exact ⟨rfl, State.ri_pdRequestOn⟩
  case ack =>
    intro n s h1 h4 hb hl hd
    refine .of_eq (exec_pdSwAck_of_level h1 h4 hb hl hd) ⟨?_, ?_, rfl, rfl⟩
    · exact (State.ri_wi_ne (s.wiBit I.ITU_PD_STAT_ON n true) _ _ _ _ _ _ _ (by decide)).trans (s.ri_wi_self _ _ _ _)
    · refine ((s.wiBit I.ITU_PD_STAT_ON n true).ri_wi_self _ _ _ _).trans ?_
      rw [State.wiBit, State.ri_wi_ne _ _ _ _ _ _ _ _ (by decide)]
      rfl
  case timeout =>
    intro n t0 s h hdue
    obtain ⟨hlam, hclk⟩ := State.pdLose_keeps (n := n) (s := ((s.wiBit I.ITU_PD_STAT_ON n false).wiBit I.ITU_PD_STAT_BUSY n false).setPins
      { s.itu.pins with pdSince := s.itu.pins.pdSince.filter fun x => x.1 != n })
    exact .of_eq (exec_pdSwAckTimeout_of_due h hdue) ⟨State.ri_wi_self _ _ _ _ _, hlam, hclk⟩
  case noTimeout => exact fun n s h => by simp only [exec, execPdSwAckTimeout, h]

end Sys2Proof.Machine
end

section
/-! PROOFS. Responses of the memory port (R87), barrier events (R225, R226), and the ledger client's measurements and grants
(R339 to R355). -/

namespace Sys2Proof.Machine

/-! ### What most operations of the ITU keep -/

/-- The last measurement and the faults of the memory port and of a stale measurement. -/
def measFlds : List Fld := [I.ITU_PWR_NOW_W, I.ITU_FAULT_PWR_STALE, I.ITU_FAULT_MEM_TO]

/-- The Lamulo, the local clock, the measurements and those fields are as in s. -/
structure MeasKept (s t : State) : Prop where
  lam : t.lam = s.lam
  clk : t.itu.clk = s.itu.clk
  last : t.itu.pwr.last = s.itu.pwr.last
  nMeas : t.itu.pwr.nMeas = s.itu.pwr.nMeas
  eTotal : t.itu.pwr.eTotal = s.itu.pwr.eTotal
  stale : t.itu.pwr.stale = s.itu.pwr.stale
  ri : ∀ F ∈ measFlds, t.ri F = s.ri F

namespace MeasKept
variable {s0 s t : State} {G : Fld}

theorem refl (s : State) : MeasKept s s := ⟨rfl, rfl, rfl, rfl, rfl, rfl, fun _ _ => rfl⟩
theorem trans (h : MeasKept s0 s) (k : MeasKept s t) : MeasKept s0 t :=
  ⟨k.lam.trans h.lam, k.clk.trans h.clk, k.last.trans h.last, k.nMeas.trans h.nMeas, k.eTotal.trans h.eTotal, k.stale.trans h.stale,
    fun F hF => (k.ri F hF).trans (h.ri F hF)⟩
theorem ite {c : Prop} {_ : Decidable c} (h : MeasKept s0 s) (k : MeasKept s0 t) : MeasKept s0 (if c then s else t) := by
  split
  · exact h
  · exact k

/-- Other fields written and counted. -/
theorem wi (h : MeasKept s0 s) (v i j : Nat) (hF : ∀ F ∈ measFlds, F.key 0 0 ≠ G.key i j := by decide) : MeasKept s0 (s.wi G v i j) :=
  h.trans ⟨rfl, rfl, rfl, rfl, rfl, rfl, fun F hm => s.ri_wi_ne G F v i j 0 0 (hF F hm)⟩
theorem ii (h : MeasKept s0 s) (n i j : Nat) (hF : ∀ F ∈ measFlds, F.key 0 0 ≠ G.key i j := by decide) : MeasKept s0 (s.ii G n i j) :=
  h.trans ⟨rfl, rfl, rfl, rfl, rfl, rfl, fun F hm => s.ri_ii_ne G F n i j 0 0 (hF F hm)⟩

/-- Fields of a partition lie above them all. -/
theorem measFlds_key_ne {F : Fld} (hm : F ∈ measFlds) (hG : 0x38 ≤ G.addr) (i j : Nat) : F.key 0 0 ≠ G.key i j := by
  have hF : F.key 0 0 < 8 * 0x38 := by
    revert F
    decide
  simp only [Fld.key] at hF ⊢
  omega

/-- Records made, and the parts of the ITU that are no measurement. -/
theorem sent (h : MeasKept s0 s) (k : ItuSent s t) : MeasKept s0 t := by
  refine h.trans ⟨k.lam, k.clk, ?_, ?_, ?_, ?_, fun F hm => k.ri F 0 0 ?_⟩
  case refine_5 =>
    revert F
    decide
  all_goals rw [k.1]
theorem setPins (h : MeasKept s0 s) (p : IPins) : MeasKept s0 (s.setPins p) := h.trans ⟨rfl, rfl, rfl, rfl, rfl, rfl, fun _ _ => rfl⟩
theorem setGnt (h : MeasKept s0 s) (g : Gnt) : MeasKept s0 (s.setGnt g) := h.trans ⟨rfl, rfl, rfl, rfl, rfl, rfl, fun _ _ => rfl⟩
theorem setTags (h : MeasKept s0 s) (l : List Tag) : MeasKept s0 (s.setTags l) := h.trans ⟨rfl, rfl, rfl, rfl, rfl, rfl, fun _ _ => rfl⟩
theorem setDig (h : MeasKept s0 s) (d : Dig) : MeasKept s0 (s.setDig d) := h.trans ⟨rfl, rfl, rfl, rfl, rfl, rfl, fun _ _ => rfl⟩
theorem setTrc (h : MeasKept s0 s) (p : Nat) (t : Trc) : MeasKept s0 (s.setTrc p t) := h.trans ⟨rfl, rfl, rfl, rfl, rfl, rfl, fun _ _ => rfl⟩
theorem free (h : MeasKept s0 s) : MeasKept s0 s.free.2 := h.trans ⟨rfl, rfl, rfl, rfl, rfl, rfl, fun _ _ => rfl⟩
theorem setPwr (h : MeasKept s0 s) {p : Pwr} (h1 : p.last = s.itu.pwr.last) (h2 : p.nMeas = s.itu.pwr.nMeas)
    (h3 : p.eTotal = s.itu.pwr.eTotal) (h4 : p.stale = s.itu.pwr.stale) : MeasKept s0 (s.setPwr p) :=
  h.trans ⟨rfl, rfl, h1, h2, h3, h4, fun _ _ => rfl⟩
theorem ldgAlarm (h : MeasKept s0 s) (c : Nat) : MeasKept s0 (s.ldgAlarm c) := h.sent (ituSent_ldgAlarm s c)

/-! A band that freezes (R351), and the Gauntlet's slice that then ends. -/

theorem gntState (h : MeasKept s0 s) (st : Nat) : MeasKept s0 (s.gntState st) := (h.wi _ _ _).setGnt _
theorem gntEmit (h : MeasKept s0 s) (r : Rec) (hold : Bool) : MeasKept s0 (s.gntEmit r hold) :=
  .ite (((h.gntState 6).wi _ _ _).setGnt _) ((((((h.sent (ituSent_ituOffer s r)).gntState 0).wi _ _ _).wi _ _ _)).setGnt _)
theorem sliceEnd (h : MeasKept s0 s) (result cause : Nat) (hold : Bool) : MeasKept s0 (s.sliceEnd result cause hold) := by
  unfold State.sliceEnd
  extract_lets g c s1 s2 fr temp s3 f body itu pins s4
  have h2 : MeasKept s0 s2 := .ite ((h.ii _ _ _).ii _ _ _) (.ite ((h.ii _ _ _).ii _ _ _) (h.ii _ _ _))
  have h3 : MeasKept s0 s3 := h2.ite h2.free
  exact (h3.setPins _).gntEmit _ _
theorem gntPowerLost (h : MeasKept s0 s) : MeasKept s0 s.gntPowerLost := ((h.setGnt _).sliceEnd 2 1 false).ite h
theorem refreeze (h : MeasKept s0 s) (b : Bool) : MeasKept s0 (s.refreeze b) := by
  unfold State.refreeze
  extract_lets was now s1 held s2
  have h1 : MeasKept s0 s1 := h.wi _ _ _
  have hf : MeasKept s0 (s1.forfeit held) := (h1.ii _ _ _).setPwr rfl rfl rfl rfl
  have h2 : MeasKept s0 s2 := (hf.wi _ _ _).wi _ _ _
  exact h.ite (.ite ((h1.wi _ _ _).ldgAlarm 0).gntPowerLost (.ite (((h2.wi _ _ _).wi _ _ _).ldgAlarm 1) h1))

/-! The checks of a measurement (R91, R475). -/

theorem ceilCheck (h : MeasKept s0 s) (w : Nat) : MeasKept s0 (s.ceilCheck w) := by
  unfold State.ceilCheck
  extract_lets p isOver run s1 s2 s3
  have h1 : MeasKept s0 s1 := h.setPwr rfl rfl rfl rfl
  have h2 : MeasKept s0 s2 := (h1.ii _ _ _).wi _ _ _
  have h3 : MeasKept s0 s3 := h.setPwr rfl rfl rfl rfl
  exact .ite (.ite (.ite ((h2.wi _ _ _).ldgAlarm 2) h2) h1) (.ite (.ite ((h3.wi _ _ _).ldgAlarm 6) h3) (h.setPwr rfl rfl rfl rfl))
theorem floorCheck (h : MeasKept s0 s) (w : Nat) : MeasKept s0 (s.floorCheck w) := by
  unfold State.floorCheck
  extract_lets p under s1
  have h1 : MeasKept s0 s1 := h.setPwr rfl rfl rfl rfl
  exact .ite (.ite (((h1.ii _ _ _).wi _ _ _).ldgAlarm 3) h1) (h.setPwr rfl rfl rfl rfl)

/-! A failed transaction of the memory port (R87, R139, R305). -/

theorem trcLose (h : MeasKept s0 s) (p n : Nat) : MeasKept s0 (s.trcLose p n) :=
  h.ite (((h.setTrc _ _).ii _ _ _ fun _ hm => measFlds_key_ne hm (by decide) _ _).wi _ _ _ fun _ hm => measFlds_key_ne hm (by decide) _ _)
theorem trcFlushed (h : MeasKept s0 s) (p : Nat) : MeasKept s0 (s.trcFlushed p) :=
  .ite (h.wi _ _ _ fun _ hm => measFlds_key_ne hm (by decide) _ _) h
theorem trcFail (h : MeasKept s0 s) (p n : Nat) : MeasKept s0 (s.trcFail p n) :=
  ((((h.wi _ _ _ fun _ hm => measFlds_key_ne hm (by decide) _ _).wi _ _ _ fun _ hm => measFlds_key_ne hm (by decide) _ _).setTrc _ _).trcLose
    p _).trcFlushed p
theorem digLast (h : MeasKept s0 s) (result : Nat) : MeasKept s0 (s.digLast result) := by
  unfold State.digLast
  extract_lets d z s1 s2 s3 s4 s5
  have h4 : MeasKept s0 s4 := ((((((((((h.wi _ _ _).wi _ _ _).wi _ _ _).wi _ _ _).wi _ _ _).wi _ _ _).wi _ _ _).wi _ _ _).wi _ _ _).wi _ _ _).ii _ _ _
  have h5 : MeasKept s0 s5 := .ite (h4.ii _ _ _) h4
  exact .ite (h5.ii _ _ _) h5
theorem digClose (h : MeasKept s0 s) (result : Nat) : MeasKept s0 (s.digClose result) := by
  unfold State.digClose
  extract_lets d s1 fr opn s2 r s3 t s4
  have h1 : MeasKept s0 s1 := by
    dsimp only [s1]
    split
    · exact h
    · exact h.setDig _
  have h2 : MeasKept s0 s2 := h1.ite h1.free
  have h4 : MeasKept s0 s4 := .ite ((h2.digLast _).setDig _) ((h2.digLast _).setDig _)
  exact h.ite (h4.wi _ _ _)
theorem pdTryAll (h : MeasKept s0 s) : MeasKept s0 s.pdTryAll := by
  have off {u : State} (hu : MeasKept s0 u) (n : Nat) : MeasKept s0 (u.pdTryOff n) := .ite (hu.setPins _) hu
  exact off (off (off (off h 1) 2) 3) 4

end MeasKept

/-! ### The memory port (R87) -/

section Memory
variable {s : State} {tag gen : Nat} {st : MemStatus} {data : List Nat} {last : Bool} {x : Tag}

/-- A response for no tag, for another generation or for a fenced partition is discarded. -/
theorem exec_memResponse_of_unknown (h : s.itu.tags.find? (fun t => t.tag == tag) = none) :
    exec (.memResponse tag gen st data last) s = .next (s.memLate last) := by
  simp only [exec, execMemResponse, h]
theorem exec_memResponse_of_old (h : s.itu.tags.find? (fun t => t.tag == tag) = some x)
    (hold : gen ≠ s.ri I.PART_STAT_GEN x.part ∨ s.ri I.PART_STAT_CUFF x.part = 1) :
    exec (.memResponse tag gen st data last) s = .next (s.memLate last) := by
  simp only [exec, execMemResponse, h]
  exact if_pos hold

/-- A response of the generation now current, by whether its tag has been retired. -/
theorem exec_memResponse_of_current (h : s.itu.tags.find? (fun t => t.tag == tag) = some x) (hc : s.ri I.PART_STAT_CUFF x.part = 0) :
    exec (.memResponse tag (s.ri I.PART_STAT_GEN x.part) st data last) s = if x.retired then
        .next ((s.setTags (if last then s.itu.tags.filter (fun y => y.tag != tag) else s.itu.tags)).memLate last).digNext
      else if last then .next (((s.setTags (s.itu.tags.filter fun y => y.tag != tag)).memDeliver (x.beat st data)).pdTryAll.digNext)
      else .next (s.setTags (s.itu.tags.map fun y => if y.tag = tag then x.beat st data else y)) := by
  simp only [exec, execMemResponse, h]
  exact if_neg (by simp [hc])

/-- A transaction without its response: its tag is retired and its requester fails. -/
theorem exec_memTimeout_of_due (h : s.itu.tags.find? (fun t => t.tag == tag && !t.retired) = some x) (hdue : 20000 ≤ s.itu.clk.ns - x.at0) :
    ∃ t, exec (.memTimeout tag) s = .next t ∧ MeasKept (((s.setTags (s.itu.tags.map fun y => if y.tag = tag then
      { y with retired := true } else y)).ii I.ITU_CNT_MEM_TO).wi I.ITU_FAULT_MEM_TO 1) t := by
  simp only [exec, execMemTimeout, h]
  refine ⟨_, if_neg hdue.not_gt, .pdTryAll ?_⟩
  split
  · exact (MeasKept.refl _).trcFail _ _
  · exact .ite (((MeasKept.refl _).setDig _).digClose 4) (.refl _)

end Memory

/-! ### Barrier events (R225, R226) -/

section Barrier
variable {s : State} {p c : Nat} {o : BarOpen} {exit : Bool}

theorem exec_barrierEvent_of_off (h : s.ri I.ITU_FN_EN_COUNTERS = 0 ∨ s.itu.par.partitions ≤ p) : exec (.barrierEvent exit p c) s = .next s :=
  if_pos h
theorem exec_barrierEvent_of_on (hen : s.ri I.ITU_FN_EN_COUNTERS ≠ 0) (hp : p < s.itu.par.partitions) : exec (.barrierEvent exit p c) s =
    if s.ri I.PART_STAT_CUFF p = 1 then .next (s.ii I.CUFF_CNT_BAR 1 p)
    else if exit then .next (s.barExit p (c % 65536)) else .next (s.barEntry p (c % 65536)) :=
  if_neg fun h => h.elim hen hp.not_ge

theorem State.barEntry_of_none (h : s.barFind p c = none) : s.barEntry p c = if 16 ≤ s.itu.bars.length then s.barDrop p
    else { s with itu := { s.itu with bars := s.itu.bars ++ [⟨p, c, s.barTime, s.ri I.ITU_PWR_NOW_TEMP⟩] } } := by
  simp only [State.barEntry, h]
theorem State.barExit_of_none (h : s.barFind p c = none) : s.barExit p c = s.barDrop p := by simp only [State.barExit, h]
theorem State.barExit_of_some (h : s.barFind p c = some o) : s.barExit p c =
    (s.barEmit p c false s.barTime (s.barTime - o.entry) (s.ri I.ITU_PWR_NOW_TEMP)).barRemove p c := by simp only [State.barExit, h]

/-- A record of a barrier leaves the open entries, the Lamulo and the clock. -/
theorem ItuSent.bars {s t : State} (h : ItuSent s t) : t.itu.bars = s.itu.bars := by rw [h.1]
theorem State.barEmit_keeps (p coll : Nat) (opn : Bool) (t wait temp : Nat) : (s.barEmit p coll opn t wait temp).itu.bars = s.itu.bars ∧
    (s.barEmit p coll opn t wait temp).lam = s.lam ∧ (s.barEmit p coll opn t wait temp).itu.clk = s.itu.clk := by
  have h := ituSent_ituEmit s 0 0x060 p t [coll ||| b2n opn <<< 16, satN 32 wait, temp ||| nth s.itu.barLost p <<< 10, s.mcAt .itu t]
  exact ⟨State.ite_keeps (·.itu.bars) h.bars h.bars, State.ite_keeps (·.lam) h.lam h.lam, State.ite_keeps (·.itu.clk) h.clk h.clk⟩

theorem exec_barEntryTimeout_of_due (h : s.barFind p c = some o) (hdue : 1000000000 ≤ s.itu.clk.ns - o.entry) :
    exec (.barEntryTimeout p c) s = .next ((s.barEmit p c true o.entry 0 o.temp).barRemove p c) := by
  simp only [exec, execBarEntryTimeout, h]
  exact if_pos hdue

end Barrier

/-! ### Power (R339, R350, R351) -/

theorem bits_lt (v lo w : Nat) : bits v lo w < 2 ^ w := Nat.mod_lt _ (Nat.two_pow_pos w)

section Power
variable {s : State} {ws : List Nat}

/-- The energies and counts of a measurement. -/
theorem State.energy_shows (w dt : Nat) (press pin : Bool) : (s.energy w dt press pin).itu.pwr.eTotal = (s.itu.pwr.eTotal + w * dt) % 2 ^ 64 ∧
    (s.energy w dt press pin).itu.pwr.nMeas = s.itu.pwr.nMeas ∧ (s.energy w dt press pin).lam = s.lam ∧
    (s.energy w dt press pin).itu.clk = s.itu.clk ∧ (s.energy w dt press pin).ri I.ITU_PWR_NOW_W = s.ri I.ITU_PWR_NOW_W :=
  ⟨rfl, rfl, rfl, rfl, (State.ri_ii_ne _ _ _ _ _ _ _ _ (by decide)).trans (s.ri_ii_ne _ _ _ _ _ _ _ (by decide))⟩
theorem State.timely_shows (dt : Nat) : (s.timely dt).itu.pwr.eTotal = s.itu.pwr.eTotal ∧ (s.timely dt).itu.pwr.nMeas = s.itu.pwr.nMeas ∧
    (s.timely dt).lam = s.lam ∧ (s.timely dt).itu.clk = s.itu.clk ∧ (s.timely dt).ri I.ITU_PWR_NOW_W = s.ri I.ITU_PWR_NOW_W :=
  ⟨State.ite_keeps (·.itu.pwr.eTotal) rfl rfl, State.ite_keeps (·.itu.pwr.nMeas) rfl rfl, State.ite_keeps (·.lam) rfl rfl,
    State.ite_keeps (·.itu.clk) rfl rfl, State.ite_keeps (·.ri I.ITU_PWR_NOW_W) rfl rfl⟩

/-- The state in which a measurement is checked. -/
def State.measured (s : State) (w temp dt : Nat) (press pin : Bool) : State :=
  (((((s.wi I.ITU_PWR_NOW_W w).wi I.ITU_PWR_NOW_TEMP temp).energy w (min dt 30000) press pin).countMeas w press pin)).timely dt

theorem State.measured_shows (w temp dt : Nat) (press pin : Bool) : (s.measured w temp dt press pin).itu.pwr.eTotal =
      (s.itu.pwr.eTotal + w * min dt 30000) % 2 ^ 64 ∧ (s.measured w temp dt press pin).itu.pwr.nMeas = s.itu.pwr.nMeas + 1 ∧
    (s.measured w temp dt press pin).lam = s.lam ∧ (s.measured w temp dt press pin).itu.clk = s.itu.clk ∧
    (s.measured w temp dt press pin).ri I.ITU_PWR_NOW_W = w % 2 ^ 16 := by
  obtain ⟨e1, n1, l1, c1, r1⟩ := State.energy_shows (s := (s.wi I.ITU_PWR_NOW_W w).wi I.ITU_PWR_NOW_TEMP temp) w (min dt 30000) press pin
  obtain ⟨e2, n2, l2, c2, r2⟩ := State.timely_shows (s := (((s.wi I.ITU_PWR_NOW_W w).wi I.ITU_PWR_NOW_TEMP temp).energy w (min dt 30000)
    press pin).countMeas w press pin) dt
  refine ⟨e2.trans e1, n2.trans (congrArg (· + 1) n1), l2.trans l1, c2.trans c1, r2.trans (r1.trans ?_)⟩
  exact (State.ri_wi_ne _ _ _ _ _ _ _ _ (by decide)).trans (s.ri_wi_self _ _ _ _)

/-- A measurement: what it counts, then the checks. -/
theorem exec_pwrMeasPulse_eq {w temp dt : Nat} (hdt : dt = (s.itu.pwr.last.map (s.itu.clk.ns - ·)).getD 0) :
    ∃ t press pin, exec (.pwrMeasPulse w temp) s = .next t ∧
      MeasKept ((s.measured (w % 65536) temp dt press pin).setPwr { (s.measured (w % 65536) temp dt press pin).itu.pwr with
        last := some (s.measured (w % 65536) temp dt press pin).itu.clk.ns }) t := by
  subst hdt
  refine ⟨_, s.pressed (w % 65536), s.pinned (w % 65536), rfl, ?_⟩
  cases h : s.itu.pwr.last <;> exact (((MeasKept.refl _).ceilCheck _).floorCheck _).refreeze false

/-- A grant to a band that is not frozen and stays so. -/
theorem State.grant_of_live (hf : s.ri I.LDG_STAT_FROZEN = 0) (hc : State.freezeCauses ((s.wi I.LDG_SLOT (bits (nth ws 1) 16 6)).setPwr
      { s.itu.pwr with hold := bits (nth ws 1) 23 3, grantSeq := ldgSeq ws }) = 0) : s.grant ws =
    (((s.wi I.LDG_SLOT (bits (nth ws 1) 16 6)).setPwr { s.itu.pwr with hold := bits (nth ws 1) 23 3, grantSeq := ldgSeq ws }).wi
      I.LDG_STAT_FRESH 0).addTokens (bits (nth ws 1) 0 8) (bits (nth ws 1) 8 8) := by
  have hwas : State.ri ((s.wi I.LDG_SLOT (bits (nth ws 1) 16 6)).setPwr { s.itu.pwr with
      hold := bits (nth ws 1) 23 3, grantSeq := ldgSeq ws }) I.LDG_STAT_FROZEN = 0 := (s.ri_wi_ne _ _ _ _ _ _ _ (by decide)).trans hf
  have hsame : State.refreeze ((s.wi I.LDG_SLOT (bits (nth ws 1) 16 6)).setPwr { s.itu.pwr with
      hold := bits (nth ws 1) 23 3, grantSeq := ldgSeq ws }) true = _ := if_pos (hwas.trans hc.symm)
  refine (congrArg (fun u : State => if u.ri I.LDG_STAT_FROZEN ≠ 0 then u.forfeit (bits (nth ws 1) 0 8 + bits (nth ws 1) 8 8)
    else (u.wi I.LDG_STAT_FRESH 0).addTokens (bits (nth ws 1) 0 8) (bits (nth ws 1) 8 8)) hsame).trans ?_
  exact if_neg (not_not.mpr hwas)

/-- Tokens added leave the other registers of the ledger. -/
theorem State.ri_addTokens (up dn : Nat) (F : Fld) (hu : F.key 0 0 ≠ I.LDG_TOK_UP.key 0 0) (hd : F.key 0 0 ≠ I.LDG_TOK_DN.key 0 0)
    (hb : F.key 0 0 ≠ I.LDG_CNT_GRANT_BAD.key 0 0) : (s.addTokens up dn).ri F = s.ri F := by
  have h : State.ri ((s.wi I.LDG_TOK_UP (min (s.ri I.LDG_TOK_UP + up) (s.ri I.LDG_CFG_BURST_UP))).wi I.LDG_TOK_DN
      (min (s.ri I.LDG_TOK_DN + dn) (s.ri I.LDG_CFG_BURST_DN))) F = s.ri F :=
    (State.ri_wi_ne _ _ _ _ _ _ _ _ hd).trans (s.ri_wi_ne _ _ _ _ _ _ _ hu)
  exact State.ite_keeps (·.ri F) ((State.ri_ii_ne _ _ _ _ _ _ _ _ hb).trans h) h
theorem State.ri_addTokens_up (up dn : Nat) : (s.addTokens up dn).ri I.LDG_TOK_UP =
    min (s.ri I.LDG_TOK_UP + up) (s.ri I.LDG_CFG_BURST_UP) % 2 ^ I.LDG_TOK_UP.width := by
  have h : State.ri ((s.wi I.LDG_TOK_UP (min (s.ri I.LDG_TOK_UP + up) (s.ri I.LDG_CFG_BURST_UP))).wi I.LDG_TOK_DN
      (min (s.ri I.LDG_TOK_DN + dn) (s.ri I.LDG_CFG_BURST_DN))) I.LDG_TOK_UP = _ :=
    (State.ri_wi_ne _ _ _ _ _ _ _ _ (by decide)).trans (s.ri_wi_self _ _ _ _)
  exact State.ite_keeps (·.ri I.LDG_TOK_UP) ((State.ri_ii_ne _ _ _ _ _ _ _ _ (by decide)).trans h) h

end Power

/-- Settles O21: responses by their tag, barriers by the open entry, measurements by what the checks after them keep. -/
theorem memoryBarrierAndLedgerEvents : Obligations.MemoryBarrierAndLedgerEvents := by
  refine ⟨fun _ _ _ _ _ _ h => exec_memResponse_of_unknown h, fun _ _ _ _ _ _ _ h hg => exec_memResponse_of_old h (.inl hg), ?beat, ?lastBeat,
    fun _ _ _ _ _ _ _ h hc => exec_memResponse_of_old h (.inr hc), ?retired, ?timeout, ?noTimeout, ?entry, ?exitNone, ?exitSome, ?full,
    fun _ _ _ _ h => exec_barrierEvent_of_off h, fun _ _ _ _ hen hp hc => (exec_barrierEvent_of_on hen hp).trans (if_pos hc), ?entryTimeout,
    ?noEntry, ?meas, ?stale, ?notStale, ?grant, ?noGrant, ?tokens, fun _ _ _ ha => ha.next (·.setFreeze _), ?report, ?noReport⟩
  case beat =>
    exact fun tag st d s x h hc hr => (exec_memResponse_of_current h hc).trans ((if_neg (by simp [hr])).trans (if_neg (by simp)))
  case lastBeat =>
    exact fun tag st d s x h hc hr => (exec_memResponse_of_current h hc).trans ((if_neg (by simp [hr])).trans (if_pos rfl))
  case retired => exact fun tag st d s x h hc hr => (exec_memResponse_of_current h hc).trans (if_pos hr)
  case timeout =>
    intro tag s x h hdue
    obtain ⟨t, e, hk⟩ := exec_memTimeout_of_due h hdue
    exact .of_eq e ⟨hk.lam, hk.clk, (hk.ri _ (by decide)).trans (State.ri_wi_self _ _ _ _ _)⟩
  case noTimeout => exact fun tag s h => by simp only [exec, execMemTimeout, h]
  case entry =>
    intro p c s hen hp hc hf hlt
    rw [exec_barrierEvent_of_on hen hp, if_neg hc, State.barEntry_of_none hf, if_neg hlt.not_ge]
    rfl
  case exitNone =>
    intro p c s hen hp hc hf
    rw [exec_barrierEvent_of_on hen hp, if_neg hc, State.barExit_of_none hf]
    rfl
  case exitSome =>
    intro p c s o hen hp hc hf
    obtain ⟨h1, h2, h3⟩ := s.barEmit_keeps p (c % 65536) false s.barTime (s.barTime - o.entry) (s.ri I.ITU_PWR_NOW_TEMP)
    refine .of_eq ((exec_barrierEvent_of_on hen hp).trans ((if_neg hc).trans ((if_pos rfl).trans
      (congrArg Host.Outcome.next (State.barExit_of_some hf))))) ⟨?_, h2, h3⟩
    exact congrArg (List.filter _) h1
  case full =>
    intro p c s hen hp hc hf hge
    rw [exec_barrierEvent_of_on hen hp, if_neg hc, State.barEntry_of_none hf, if_pos hge]
    rfl
  case entryTimeout =>
    intro p c s o hf hdue
    obtain ⟨h1, h2, h3⟩ := s.barEmit_keeps p c true o.entry 0 o.temp
    exact .of_eq (exec_barEntryTimeout_of_due hf hdue) ⟨congrArg (List.filter _) h1, h2, h3⟩
  case noEntry => exact fun p c s h => by simp only [exec, execBarEntryTimeout, h]
  case meas =>
    intro w temp s
    obtain ⟨t, press, pin, e, hk⟩ := exec_pwrMeasPulse_eq (s := s) (w := w) (temp := temp) rfl
    obtain ⟨he, hn, hl, hc, hr⟩ := s.measured_shows (w % 65536) temp ((s.itu.pwr.last.map (s.itu.clk.ns - ·)).getD 0) press pin
    refine .of_eq e ⟨?_, hk.last.trans (congrArg (fun c : Clock => some c.ns) hc), hk.clk.trans hc, hk.lam.trans hl, hk.nMeas.trans hn,
      hk.eTotal.trans (he.trans ?_)⟩
    · exact (hk.ri _ (by decide)).trans (hr.trans (Nat.mod_mod _ _))
    · cases s.itu.pwr.last <;> rfl
  case stale =>
    intro s hs hdue
    have hk : MeasKept (((s.ii I.ITU_CNT_PWR_STALE).wi I.ITU_FAULT_PWR_STALE 1).setPwr { s.itu.pwr with stale := true, timely := 0 }) _ :=
      ((MeasKept.refl _).ldgAlarm 4).refreeze false
    exact .of_eq (if_pos ⟨hs, hdue⟩) ⟨hk.stale, (hk.ri _ (by decide)).trans
      ((s.ii I.ITU_CNT_PWR_STALE).ri_wi_self I.ITU_FAULT_PWR_STALE 1 0 0), hk.lam⟩
  case notStale => exact fun s h => if_neg (by simp [h])
  case grant => exact fun ws s h1 h2 h3 => congrArg Host.Outcome.next (if_pos ⟨h1, h2, h3⟩)
  case noGrant => exact fun ws s h => congrArg Host.Outcome.next (if_neg fun hc => h hc.2.2)
  case tokens =>
    intro s ws hf hc
    have ne (F : Fld) (v : Nat) (h1 : F.key 0 0 ≠ I.LDG_SLOT.key 0 0) (h2 : F.key 0 0 ≠ I.LDG_STAT_FRESH.key 0 0) :
        State.ri (((s.wi I.LDG_SLOT v).setPwr { s.itu.pwr with hold := bits (nth ws 1) 23 3, grantSeq := ldgSeq ws }).wi I.LDG_STAT_FRESH 0) F =
          s.ri F := (State.ri_wi_ne _ _ _ _ _ _ _ _ h2).trans (s.ri_wi_ne _ _ _ _ _ _ _ h1)
    rw [State.grant_of_live hf hc]
    refine ⟨?_, ?_, ?_⟩
    · rw [State.ri_addTokens _ _ _ (by decide) (by decide) (by decide), State.ri_wi_ne _ _ _ _ _ _ _ _ (by decide)]
      exact (s.ri_wi_self _ _ _ _).trans (Nat.mod_eq_of_lt (bits_lt _ _ _))
    · rw [State.ri_addTokens _ _ _ (by decide) (by decide) (by decide)]
      exact State.ri_wi_self _ _ _ _ _
    · rw [State.ri_addTokens_up, ne _ _ (by decide) (by decide), ne _ _ (by decide) (by decide)]
  case report => exact fun s h => .of_eq (if_pos h) (ituSent_ituEmitDie _ _ _ _ _ _)
  case noReport => exact fun s h => if_neg h.not_ge

end Sys2Proof.Machine
end


section
/-! PROOFS. Visor snapshots and row samples (R118 to R129). -/

namespace Sys2Proof.Machine

/-- A command of the ITU answers what its operation answered. -/
theorem cmdItu_of_eq {s t : State} {h : CmdHdr} {op : State → State × CmdRes} {r : CmdRes} (e : op s = (t, r)) :
    (.next (s.cmdItu h op) : Out) = .next (t.ituReply h r) := by rw [State.cmdItu, e]

/-! A trigger, refused and accepted. -/

section Trigger
variable {s : State} {p cause : Nat} {hold emit : Bool}

theorem State.visTrigger_of_refused (h : s.visRefused p = true) :
    s.visTrigger p cause hold emit = ((s.wi I.VIS_STAT_BUSY_REFUSED 1).ii I.VIS_CNT_REFUSED, false) := if_pos h

/-- The registers of an accepted trigger, before the store and the pin are set. -/
def State.visBegun (s : State) (p : Nat) : State :=
  ((((s.wi I.VIS_SNAP_ID ((s.ri I.VIS_SNAP_ID + 1) % 65536)).wi I.VIS_STAT_STATE 1).wi I.VIS_STAT_PART p).wi I.VIS_STORED 0).wi I.VIS_RECEIVED 0

theorem State.ri_visBegun_state (s : State) (p : Nat) : (s.visBegun p).ri I.VIS_STAT_STATE = 1 := by
  rw [State.visBegun, State.ri_wi_ne _ _ _ _ _ _ _ _ (by decide), State.ri_wi_ne _ _ _ _ _ _ _ _ (by decide),
    State.ri_wi_ne _ _ _ _ _ _ _ _ (by decide), State.ri_wi_self]
  rfl

theorem State.ri_visBegun_snapId (s : State) (p : Nat) : (s.visBegun p).ri I.VIS_SNAP_ID = (s.ri I.VIS_SNAP_ID + 1) % 65536 := by
  rw [State.visBegun, State.ri_wi_ne _ _ _ _ _ _ _ _ (by decide), State.ri_wi_ne _ _ _ _ _ _ _ _ (by decide),
    State.ri_wi_ne _ _ _ _ _ _ _ _ (by decide), State.ri_wi_ne _ _ _ _ _ _ _ _ (by decide), State.ri_wi_self]
  exact Nat.mod_mod _ _

theorem State.visTrigger_of_accepted (h : s.visRefused p = false) : ∃ v, v.descs = [] ∧ v.at0 = s.itu.clk.ns ∧
    s.visTrigger p cause hold emit =
      (((s.visBegun p).setVis v).setPins { s.itu.pins with qscan := some p }, true) :=
  ⟨_, rfl, rfl, if_neg (by simp [h])⟩

end Trigger

/-! The scan closes. -/

section Close
variable (s : State) (result : Nat)

theorem State.visClose_shows (h : result < 4) : (s.visClose result).itu.pins.qscan = none ∧ (s.visClose result).ri I.VIS_STAT_STATE = 2 ∧
    (s.visClose result).ri I.VIS_STAT_RESULT = result ∧ (s.visClose result).itu.vis.descs = s.itu.vis.descs ∧
    (s.visClose result).lam = s.lam := by
  refine ⟨rfl, ?_, ?_, rfl, rfl⟩
  · rw [State.visClose, State.ri_wi_ne _ _ _ _ _ _ _ _ (by decide), State.ri_wi_ne _ _ _ _ _ _ _ _ (by decide), State.ri_wi_self]
    rfl
  · rw [State.visClose, State.ri_wi_ne _ _ _ _ _ _ _ _ (by decide), State.ri_wi_self]
    exact Nat.mod_eq_of_lt h

end Close

/-- What the store shows after a descriptor of the partition it scans, where there is room. -/
theorem State.visStore_of_room {s : State} {d : Nat} (hp : bits d 24 4 = s.itu.vis.part) (hr : s.itu.vis.descs.length < s.itu.par.visorDesc) :
    (s.visStore d).itu.vis.descs = s.itu.vis.descs ++ [d % 2 ^ 128] ∧ (s.visStore d).itu.vis.received = satN 32 (s.itu.vis.received + 1) ∧
      (s.visStore d).itu.pins = s.itu.pins ∧ (s.visStore d).lam = s.lam := by
  rw [State.visStore, if_neg (not_not_intro hp)]
  exact ⟨if_pos hr, rfl, rfl, rfl⟩

theorem State.visStore_lam (s : State) (d : Nat) : (s.visStore d).lam = s.lam := State.ite_keeps State.lam rfl rfl

section Scan
variable {s : State} {d p : Nat}

theorem exec_qscanDescriptor_inner (h : s.itu.pins.qscan = some p) : exec (.qscanDescriptor d false) s = .next (s.visStore d) := by
  simp only [exec, execQscanDescriptor, h]
  exact if_neg Bool.false_ne_true

theorem exec_qscanDescriptor_last (h : s.itu.pins.qscan = some p) :
    ∃ r < 4, exec (.qscanDescriptor d true) s = .next ((s.visStore d).visClose r) := by
  simp only [exec, execQscanDescriptor, h]
  refine ⟨_, ?_, if_pos trivial⟩
  split <;> decide

theorem exec_qscanTimeout_of_due (h : s.itu.pins.qscan = some p) (hd : 64000 ≤ s.itu.clk.ns - s.itu.vis.at0) :
    exec .qscanTimeout s = .next (((s.visClose 1).wi I.ITU_FAULT_QSCAN_PARTIAL 1).ii I.ITU_CNT_QSCAN_PARTIAL) := by
  simp only [exec, execQscanTimeout, h]
  exact if_pos hd

end Scan

section Emit
variable {s : State} {r : Rec} {rest : List Rec}

theorem State.visEmit_of_stale (ht : s.itu.vis.todo = r :: rest) (h : s.isStale r = true) :
    s.visEmit = (((s.setVis { s.itu.vis with todo := rest }).ii I.VIS_CNT_DISCARD).visAfter, true) := by
  simp only [State.visEmit, ht]
  exact if_pos h

theorem State.visEmit_of_ready (ht : s.itu.vis.todo = r :: rest) (h : s.isStale r = false) (hr : s.storeReady r = true) :
    s.visEmit = (((s.storeSend r).setVis { s.itu.vis with todo := rest }).visAfter, true) := by
  simp only [State.visEmit, ht]
  exact (if_neg (by simp [h])).trans (if_pos hr)

theorem State.visEmit_of_nil (ht : s.itu.vis.todo = []) : s.visEmit = (s, false) := by
  simp only [State.visEmit, ht]

theorem exec_visorRecordEmit_of_eq {t : State} {b : Bool} (h : s.visEmit = (t, b)) :
    exec .visorRecordEmit s = .next (if b then t else s.rowEmit) := by
  show execVisorRecordEmit s = _
  rw [execVisorRecordEmit, h]
  cases b <;> rfl

end Emit

/-! Row samples. -/

theorem State.rowTrigger_of_ok {s : State} {p cause first count stride : Nat} (h : s.rowRefused first count = false) (hb : s.itu.row.busy = false) :
    s.rowTrigger p cause first count stride = (s.rowStart p cause first count stride, true) := if_neg (by simp [h, hb])

theorem State.rowStart_row (s : State) (p cause first count stride : Nat) : (s.rowStart p cause first count stride).itu.row =
    { busy := true, part := p, cause := cause, first := first, n := rowCount s.itu.par.rowIdxW first count stride, stride := stride,
      sampleId := (s.ri I.ROW_SAMPLE_ID + 1) % 65536, todo := s.itu.row.todo } := by
  simp only [State.rowStart]
  split <;> rfl

/-- A row's record joins the buffer; where rows of the sample remain, the sample goes on (R128, R129). -/
theorem State.rowMake_of_more {s : State} {missing err : Bool} {data : List Nat} {o : Nat × Nat × Nat × Bool × Nat} (ho : s.itu.row.out = some o)
    (hn : s.itu.row.next < s.itu.row.n) (hc : s.itu.row.cutting = false) :
    ∃ rc, (s.rowMake missing err data).itu.row = { s.itu.row with todo := s.itu.row.todo ++ [rc], out := none } ∧ rc.typ = 0x030 ∧
      rc.body.length = 132 ∧ rc.gen = o.2.2.1 := by
  obtain ⟨idx, at0, gen, frozen, mc⟩ := o
  simp only [State.rowMake, ho, State.rowEnd]
  rw [if_neg (by simp [State.setRow, hc, hn])]
  refine ⟨_, rfl, rfl, ?_, rfl⟩
  have : ((data ++ List.replicate 128 0).take 128).length = 128 := by simp
  split <;> simp

section Response
variable {s : State}

theorem exec_rowResponse_of_out {data : List Nat} {err : Bool} {o : Nat × Nat × Nat × Bool × Nat} (h : s.itu.row.out = some o) :
    exec (.rowResponse data err) s = .next (((if err then s.ii I.ROW_CNT_ERR else s).rowMake false err data).pdTryAll) := by
  simp only [exec, execRowResponse, h]

theorem exec_rowTimeout_of_due {idx a0 : Nat} {r : Nat × Bool × Nat} (h : s.itu.row.out = some (idx, a0, r)) (hd : 2000 ≤ s.itu.clk.ns - a0) :
    exec .rowTimeout s =
      .next (((((s.ii I.ROW_CNT_MISSING).ii I.ITU_CNT_ROW_TO).wi I.ITU_FAULT_ROW_TO 1).rowMake true false []).pdTryAll) := by
  simp only [exec, execRowTimeout, h]
  exact if_pos hd

end Response

/-- Settles O22: each row of the Visor and of the row sampler by the case of its test that the clause names. -/
theorem visorSnapshotsAndRowSamples : Obligations.VisorSnapshotsAndRowSamples := by
  unfold Obligations.VisorSnapshotsAndRowSamples
  refine ⟨?accepted, ?refused, ?trig, ?snap, ?snapOff, ?desc, ?foreign, ?last, ?descIdle, ?timeout, ?timeoutIdle, ?emit, ?stale, ?emitRow,
    ?release, ?noRelease, ?read, ?rowOk, ?rowRefused, ?rowStart, ?rowTrig, ?rowSample, ?rowBad, ?request, ?full, ?response, ?noResponse,
    ?make, ?rowTimeout, ?rowNoTimeout⟩
  case accepted =>
    intro s p cause hold emit h
    obtain ⟨v, hd, ha, e⟩ := State.visTrigger_of_accepted (s := s) (cause := cause) (hold := hold) (emit := emit) h
    rw [e]
    exact ⟨rfl, rfl, s.ri_visBegun_state p, hd, ha, s.ri_visBegun_snapId p⟩
  case refused => exact fun s p cause hold emit => State.visTrigger_of_refused
  case trig =>
    exact fun iss p s ha => ha.next fun g => ((g.wi I.VIS_CTL_PART p).visTrigger (p % 16) 0
      ((g.wi I.VIS_CTL_PART p).ri I.VIS_CTL_HOLD == 1) ((g.wi I.VIS_CTL_PART p).ri I.VIS_CTL_EMIT == 1)).1
  case snap =>
    intro h p hold emit s hon hr
    obtain ⟨v, -, -, e⟩ := State.visTrigger_of_accepted (s := s) (cause := 1) (hold := hold) (emit := emit) hr
    refine cmdItu_of_eq ((if_neg (by simp [hon])).trans ?_)
    simp only [e, if_true]
  case snapOff => exact fun h p hold emit s hoff => cmdItu_of_eq (if_pos (by simp [hoff]))
  case desc => exact fun d s p hq hp hr => .of_eq (exec_qscanDescriptor_inner hq) (State.visStore_of_room hp hr)
  case foreign => exact fun d s p hq hp => (exec_qscanDescriptor_inner hq).trans (congrArg Host.Outcome.next (if_pos hp))
  case last =>
    intro d s p hq
    obtain ⟨r, hr, e⟩ := exec_qscanDescriptor_last (d := d) hq
    obtain ⟨h1, h2, -, -, h5⟩ := (s.visStore d).visClose_shows r hr
    exact .of_eq e ⟨h1, h2, h5.trans (s.visStore_lam d)⟩
  case descIdle => exact fun d last s h => by simp only [exec, execQscanDescriptor, h]
  case timeout =>
    intro s p hq hd
    obtain ⟨h1, h2, h3, h4, h5⟩ := s.visClose_shows 1 (by decide)
    refine .of_eq (exec_qscanTimeout_of_due hq hd) ⟨h1, ?_, ?_, ?_, h4, h5⟩
    · rw [State.ri_ii_ne _ _ _ _ _ _ _ _ (by decide), State.ri_wi_ne _ _ _ _ _ _ _ _ (by decide), h2]
    · rw [State.ri_ii_ne _ _ _ _ _ _ _ _ (by decide), State.ri_wi_ne _ _ _ _ _ _ _ _ (by decide), h3]
    · rw [State.ri_ii_ne _ _ _ _ _ _ _ _ (by decide), State.ri_wi_self]
      rfl
  case timeoutIdle => exact fun s h => by simp only [exec, execQscanTimeout, h]
  case emit => exact fun s r rest ht h hr => exec_visorRecordEmit_of_eq (State.visEmit_of_ready ht h hr)
  case stale => exact fun s r rest ht h => exec_visorRecordEmit_of_eq (State.visEmit_of_stale ht h)
  case emitRow => exact fun s ht => exec_visorRecordEmit_of_eq (State.visEmit_of_nil ht)
  case release => exact fun iss s ha h => (ha.next State.visCtlRelease).trans (congrArg Host.Outcome.next (if_pos h))
  case noRelease => exact fun iss s ha h => (ha.next State.visCtlRelease).trans (congrArg Host.Outcome.next (if_neg h))
  case read =>
    intro iss s ha
    have e : exec (.visRdData0Read iss) s = .next { (s.readVis0 iss).2 with rdata := [(s.readVis0 iss).1] } :=
      ha.ite (fun g => .next { (g.readVis0 iss).2 with rdata := [(g.readVis0 iss).1] }) fun g => .next { g with rdata := [0] }
    exact .of_eq e ⟨rfl, rfl, rfl⟩
  case rowOk => exact fun s p cause first count stride => State.rowTrigger_of_ok
  case rowRefused => exact fun s p cause first count stride h => if_pos (by simpa using h)
  case rowStart => exact State.rowStart_row
  case rowTrig =>
    exact fun iss p s ha => ha.next fun g => ((g.wi I.ROW_CTL_PART p).rowTrigger (p % 16) 0 ((g.wi I.ROW_CTL_PART p).ri I.ROW_FIRST)
      ((g.wi I.ROW_CTL_PART p).ri I.ROW_COUNT) ((g.wi I.ROW_CTL_PART p).ri I.ROW_STRIDE)).1
  case rowSample =>
    intro h p first count stride s hon hst hc hr hb
    refine cmdItu_of_eq ((if_neg (by simp [hon])).trans ((if_neg (by omega)).trans ?_))
    simp only [State.rowTrigger_of_ok hr hb, if_true]
  case rowBad =>
    exact fun h p first count stride s hon hbad => cmdItu_of_eq ((if_neg (by simp [hon])).trans (if_pos hbad))
  case request => exact fun s h1 h2 h3 h4 h5 h6 h7 => if_pos ⟨h1, h2, h3, h4, h5, h6, h7⟩
  case full => exact fun s h => if_neg fun ⟨_, _, _, _, hlt, _⟩ => absurd hlt h.not_gt
  case response => exact fun data err s o => exec_rowResponse_of_out
  case noResponse => exact fun data err s h => by simp only [exec, execRowResponse, h]
  case make => exact fun s missing err data o => State.rowMake_of_more
  case rowTimeout => exact fun s idx a0 r => exec_rowTimeout_of_due
  case rowNoTimeout => exact fun s h => by simp only [exec, execRowTimeout, h]

end Sys2Proof.Machine
end


section
/-! PROOFS. Trace: packets captured or lost, chunks written or failed, and the trace registers (R131 to R142). -/

namespace Sys2Proof.Machine

section Trc
variable (s : State) (p : Nat)

theorem State.trc_setTrc_self (t : Trc) : (s.setTrc p t).trc p = t := getD_setNth_self ..

/-- A packet lost is counted, and the chunk being assembled stays (R136). -/
theorem State.trcLose_of_ne {n : Nat} (h : n ≠ 0) :
    s.trcLose p n = ((s.setTrc p { s.trc p with lost := (s.trc p).lost + n, needSync := true }).ii I.TRC_LOST n p).wi I.TRC_PSTAT_LOST 1 p :=
  if_neg h

/-- The chunk being assembled, padded, joins those that wait to be written (R138). -/
def Trc.padded (t : Trc) : Trc :=
  { t with full := t.full ++ [(t.chunk ++ List.replicate (512 - t.chunk.length) 0, t.packets)], chunk := [], packets := 0 }

theorem State.trcFlush_of_chunk (h : (s.trc p).chunk ≠ []) :
    s.trcFlush p = (s.setTrc p (s.trc p).padded).wi I.TRC_PSTAT_FLUSH_BUSY 1 p := if_neg h

end Trc

section Put
variable {s : State} {tm p : Nat} {k : TrcPkt}

/-- The packet after the cycle's eight is lost (R136). -/
theorem State.trcPutAll_zero {l : List (Nat × TrcPkt)} : s.trcPutAll tm 0 ((p, k) :: l) = (s.trcLose p 1).trcPutAll tm 0 l := by
  rw [State.trcPutAll]
  exact if_pos (.inl rfl)

theorem State.trcPutAll_one {n : Nat} : s.trcPutAll tm (n + 1) [(p, k)] =
    if 16384 < (s.trcPut p tm k).trcLevel then s.trcLose p 1 else s.trcPut p tm k := by
  rw [State.trcPutAll]
  by_cases h : 16384 < (s.trcPut p tm k).trcLevel
  · rw [if_pos h]
    exact if_pos (.inr h)
  · rw [if_neg h]
    exact if_neg (by simp [h])

end Put

/-- One group of a LEB128 number holds a value below 128 (R133). -/
theorem leb128_of_lt {n v : Nat} (h : v < 128) : leb128 (n + 1) v = [v] := if_pos h

section Chunk
variable {s : State} {p tag n : Nat} {bs : List Nat} {rest : List (List Nat × Nat)}

/-- The state in which the oldest chunk of p has left under a tag (R132). -/
def State.trcSent (s : State) (p tag : Nat) (bs : List Nat) (n : Nat) (rest : List (List Nat × Nat)) : State :=
  { s with itu := { s.itu with trc := setNth {} s.itu.trc p { s.trc p with full := rest }, tags := s.itu.tags ++ [{
      tag := tag, part := p, gen := s.ri I.PART_STAT_GEN p, user := .trace p, addr := s.trcBase p + 64 * s.ri I.TRC_WPTR p, bytes := 512, write := true, at0 := s.itu.clk.ns, data := bs, packets := n }] } }

theorem State.trc_trcSent : (s.trcSent p tag bs n rest).trc p = { s.trc p with full := rest } := getD_setNth_self ..

theorem exec_traceChunkWrite_of_free (hf : (s.trc p).full = (bs, n) :: rest) (ht : s.tagFree p tag = true) :
    exec (.traceChunkWrite p tag) s = .next ((s.trcSent p tag bs n rest).trcAdvance p) := by
  simp only [exec, execTraceChunkWrite, hf]
  exact if_pos ht

theorem exec_traceChunkWrite_of_busy (h : s.tagFree p tag = false ∨ (s.trc p).full = []) : exec (.traceChunkWrite p tag) s = .next s := by
  simp only [exec, execTraceChunkWrite]
  split
  next => rfl
  next bs n rest hf => exact if_neg (by simpa [hf] using h)

end Chunk

theorem State.trcAdvance_of_room {s : State} {p : Nat} (h : s.ri I.TRC_WPTR p + 8 < s.trcLines p) :
    s.trcAdvance p = s.wi I.TRC_WPTR (s.ri I.TRC_WPTR p + 8) p := if_neg h.not_ge

theorem State.trcAdvance_of_wrap {s : State} {p : Nat} (h : s.trcLines p ≤ s.ri I.TRC_WPTR p + 8) (hm : s.ri I.TRC_PCTL_MODE p = 0) :
    s.trcAdvance p = (s.wi I.TRC_WPTR 0 p).wi I.TRC_PSTAT_WRAPPED 1 p := (if_pos h).trans (if_pos hm)

section Fail
variable {s : State} {p : Nat} {st : MemStatus}

theorem exec_traceWriteError_of_tag {g : Tag} (h : st ≠ .ok) (hg : s.itu.tags.find? (fun t => t.user == .trace p && !t.retired) = some g) :
    exec (.traceWriteError p st) s = .next
      ((({ s with itu := { s.itu with tags := s.itu.tags.erase g } } : State).trcFail p g.packets).pdTryAll) := by
  cases st with
  | ok => exact absurd rfl h
  | _ => simp only [exec, execTraceWriteError, hg]

theorem exec_traceWriteError_of_none (h : st = .ok ∨ s.itu.tags.find? (fun t => t.user == .trace p && !t.retired) = none) :
    exec (.traceWriteError p st) s = .next s := by
  cases st with
  | ok => rfl
  | _ => simp only [exec, execTraceWriteError, h.resolve_left (by decide)]

end Fail

section Enable
variable {s : State} {p : Nat}

theorem State.setTrcEn_of_region (hs : s.ri I.TRC_SIZE p ≠ 0) (he : s.ri I.TRC_PCTL_EN p = 0) : s.setTrcEn p true = State.putSync
    ((((s.wi I.TRC_PCTL_EN 1 p).wi I.TRC_WPTR 0 p).wi I.TRC_PSTAT_FULL 0 p).wi I.TRC_PSTAT_WRAPPED 0 p) p s.itu.clk.ns :=
  (if_pos rfl).trans (if_neg (by simp [hs, he]))

theorem State.setTrcEn_of_no_region (hs : s.ri I.TRC_SIZE p = 0) : s.setTrcEn p true = s := (if_pos rfl).trans (if_pos (.inl hs))

theorem State.trcMark_of_active {v : Nat} (ha : s.trcActive p = true) (hl : (s.trcPut p s.itu.clk.ns (.mark v)).trcLevel ≤ 16384) :
    s.trcMark p v = s.trcPut p s.itu.clk.ns (.mark v) :=
  (if_pos ha).trans (State.trcPutAll_one.trans (if_neg hl.not_gt))

end Enable

/-- Settles O25: each trace row by the case of its test that the clause names. -/
theorem traceCapturesAndWrites : Obligations.TraceCapturesAndWrites := by
  unfold Obligations.TraceCapturesAndWrites
  refine ⟨?quiet, ?one, ?ninth, ?lose, ?tapBytes, ?chunk, ?advance, ?wrap, ?noChunk, ?error, ?noError, ?flush, ?noFlush, ?enable, ?noRegion,
    ?disable, ?mark, ?noMark⟩
  case quiet =>
    intro taps bars addrs s h
    simp only [exec, execTracePacketCapture, h, State.trcPutAll]
  case one =>
    intro taps bars addrs s p k h
    refine ⟨_, rfl, ?_⟩
    simp only [exec, execTracePacketCapture, h]
    exact congrArg Host.Outcome.next State.trcPutAll_one
  case ninth => exact fun s tm p k l => State.trcPutAll_zero
  case lose =>
    intro s p n hn
    have ht : (s.trcLose p n).trc p = { s.trc p with lost := (s.trc p).lost + n, needSync := true } := by
      rw [s.trcLose_of_ne p hn]; exact s.trc_setTrc_self p _
    refine ⟨?_, by rw [ht], by rw [ht]⟩
    rw [s.trcLose_of_ne p hn]
    exact State.ri_wi_self _ _ _ _ _
  case tapBytes =>
    intro i st dt prev h
    rw [TrcPkt.bytes, leb128_of_lt h]
    rfl
  case chunk =>
    intro p tag s bs n rest hf ht
    exact ⟨s.trcSent p tag bs n rest, exec_traceChunkWrite_of_free hf ht, by rw [State.trc_trcSent], rfl, rfl, rfl⟩
  case advance => exact fun s p => State.trcAdvance_of_room
  case wrap => exact fun s p => State.trcAdvance_of_wrap
  case noChunk => exact fun p tag s => exec_traceChunkWrite_of_busy
  case error => exact fun p st s g => exec_traceWriteError_of_tag
  case noError => exact fun p st s => exec_traceWriteError_of_none
  case flush =>
    intro iss p s ha hc
    have ht := s.trc_setTrc_self p (s.trc p).padded
    refine .of_eq ((ha.next (·.trcFlush p)).trans (congrArg Host.Outcome.next (s.trcFlush_of_chunk p hc))) ⟨?_, ?_, ?_, rfl⟩
    · exact congrArg Trc.chunk ht
    · exact State.ri_wi_self _ _ _ _ _
    · exact congrArg Trc.full ht
  case noFlush => exact fun iss p s ha hc => (ha.next (·.trcFlush p)).trans (congrArg Host.Outcome.next (if_pos hc))
  case enable =>
    exact fun iss p s ha hs he => (ha.next (·.setTrcEn p true)).trans (congrArg Host.Outcome.next (State.setTrcEn_of_region hs he))
  case noRegion => exact fun iss p s ha hs => (ha.next (·.setTrcEn p true)).trans (congrArg Host.Outcome.next (State.setTrcEn_of_no_region hs))
  case disable => exact fun iss p s ha => ha.next (·.setTrcEn p false)
  case mark =>
    exact fun iss p v s ha hact hl => (ha.next (·.trcMark p (v % 2 ^ 32))).trans (congrArg Host.Outcome.next (State.trcMark_of_active hact hl))
  case noMark =>
    exact fun iss p v s ha hact => (ha.next (·.trcMark p (v % 2 ^ 32))).trans (congrArg Host.Outcome.next (if_neg (by simp [hact])))

end Sys2Proof.Machine
end


section
/-! PROOFS. The windows of the Ualitis digest (R294, R302 to R306). -/

namespace Sys2Proof.Machine

/-! What the pieces of a window leave. -/

section Pieces
variable (s : State)

/-- The next request of a window issues a tag at most. -/
theorem State.digRequest_keeps (list : Bool) (a n : Nat) : (s.digRequest list a n).itu.regs = s.itu.regs ∧
    (s.digRequest list a n).lam = s.lam ∧ ∃ g, (s.digRequest list a n).itu.dig = { s.itu.dig with tag := g } := by
  rw [State.digRequest]
  split
  next g hg =>
    split
    · exact ⟨rfl, rfl, some g, rfl⟩
    · exact ⟨rfl, rfl, s.itu.dig.tag, rfl⟩
  next => exact ⟨rfl, rfl, s.itu.dig.tag, rfl⟩

theorem State.digNext_keeps : s.digNext.itu.regs = s.itu.regs ∧ s.digNext.lam = s.lam ∧ ∃ g, s.digNext.itu.dig = { s.itu.dig with tag := g } := by
  have hs : s.itu.regs = s.itu.regs ∧ s.lam = s.lam ∧ ∃ g, s.itu.dig = { s.itu.dig with tag := g } := ⟨rfl, rfl, s.itu.dig.tag, rfl⟩
  rw [State.digNext]
  split
  · exact hs
  · split
    · exact s.digRequest_keeps _ _ _
    · split
      · exact s.digRequest_keeps _ _ _
      · exact hs

/-- The DIG_LAST registers say the window that closed; the engine and the Lamulo stay. -/
theorem State.digLast_shows (r : Nat) (h : r < 8) : (s.digLast r).lam = s.lam ∧ (s.digLast r).itu.dig = s.itu.dig ∧
    (s.digLast r).ri I.DIG_STAT_RESULT = r ∧ (s.digLast r).ri I.DIG_LAST_STEP = s.itu.dig.step % 2 ^ 32 ∧
    (s.digLast r).ri I.DIG_LAST_D1_LO = if r = 0 then s.itu.dig.d1 % 2 ^ 32 else 0 := by
  unfold State.digLast
  extract_lets d z s1 s2 s3 s4 s5
  have keep {β : Type} (get : State → β) (h1 : ∀ u : State, get (u.ii I.DIG_CNT_OVERRUN) = get u) (h2 : ∀ u : State, get (u.ii I.DIG_CNT_ERR) = get u) :
      get (if r = 2 ∨ r = 3 ∨ r = 4 ∨ r = 6 then s5.ii I.DIG_CNT_ERR else s5) = get s4 :=
    have h5 : get s5 = get s4 := State.ite_keeps get (h1 s4) rfl
    State.ite_keeps get ((h2 s5).trans h5) h5
  refine ⟨keep State.lam (fun _ => rfl) fun _ => rfl, keep (·.itu.dig) (fun _ => rfl) fun _ => rfl, ?_, ?_, ?_⟩
  · refine (keep (State.ri · I.DIG_STAT_RESULT) (fun u => State.ri_ii_ne _ _ _ _ _ _ _ _ (by decide))
      fun u => State.ri_ii_ne _ _ _ _ _ _ _ _ (by decide)).trans ?_
    simp (disch := decide) only [s4, State.ri_ii_ne, State.ri_wi_self]
    exact Nat.mod_eq_of_lt h
  · refine (keep (State.ri · I.DIG_LAST_STEP) (fun u => State.ri_ii_ne _ _ _ _ _ _ _ _ (by decide))
      fun u => State.ri_ii_ne _ _ _ _ _ _ _ _ (by decide)).trans ?_
    simp (disch := decide) only [s4, s3, s2, s1, State.ri_ii_ne, State.ri_wi_ne, State.ri_wi_self]
    rfl
  · refine (keep (State.ri · I.DIG_LAST_D1_LO) (fun u => State.ri_ii_ne _ _ _ _ _ _ _ _ (by decide))
      fun u => State.ri_ii_ne _ _ _ _ _ _ _ _ (by decide)).trans ?_
    simp (disch := decide) only [s4, s3, s2, s1, State.ri_ii_ne, State.ri_wi_ne, State.ri_wi_self, lo32, z, d]
    split
    · exact Nat.mod_mod _ _
    · rfl

/-- A window that was open closes with any result but RESET: its record waits to be sent (R305, R306). -/
theorem State.digClose_of_open {r t0 : Nat} (h5 : r ≠ 5) (hb : s.digBusy = true) (ho : s.itu.dig.openAt = some t0) : s.digClose r =
    ((s.digLast r).setDig { todo := (s.digLast r).itu.dig.todo ++ [s.digRec r s.itu.dig.gen (short t0)], held := s.itu.dig.held }).wi
      I.DIG_STAT_STATE 3 := by
  simp only [State.digClose, ho, hb, State.digIdle]
  simp only [Bool.not_true, Bool.false_eq_true, if_false, Option.isSome_some, if_true, if_neg h5]
  exact congrArg (fun v => State.wi _ I.DIG_STAT_STATE v) (if_neg (List.append_ne_nil_of_right_ne_nil _ (List.cons_ne_nil _ _)))

theorem State.digClose_of_idle {r : Nat} (hb : s.digBusy = false) : s.digClose r = s := if_pos (by simp [hb])

/-- A field that no window keeps does not change whether one is armed or reading. -/
theorem State.digBusy_wi_step (v : Nat) : (s.wi I.DIG_STEP v).digBusy = s.digBusy := by
  simp (disch := decide) only [State.digBusy, State.ri_wi_ne]
theorem State.digBusy_ii_discard : (s.ii I.DIG_CNT_DISCARD).digBusy = s.digBusy := by
  simp (disch := decide) only [State.digBusy, State.ri_ii_ne]

end Pieces

/-! Rows that ask the digest's own access test (R302, R314). -/

section Step
variable {s : State} {iss : Issuer} {step : Nat}

theorem exec_digStepWrite_of_guard (hg : s.digGuard iss I.DIG_STEP.addr = (s, true)) (h32 : step < 2 ^ 32) :
    exec (.digStepWrite iss step) s = .next (s.writeDigStep step) := by
  show execDigStepWrite iss step s = _
  rw [execDigStepWrite, hg, Nat.mod_eq_of_lt h32]
  rfl

theorem exec_digUnstableWrite_of_guard (hg : s.digGuard iss I.DIG_UNSTABLE.addr = (s, true)) :
    exec (.digUnstableWrite iss) s = .next (s.digClose 1) := by
  show execDigUnstableWrite iss s = _
  rw [execDigUnstableWrite, hg]
  rfl

theorem State.writeDigStep_of_arm (hb : s.digBusy = false) (he : s.ri I.ITU_FN_EN_DIGEST = 1) (hev : s.ri I.DIG_CFG_EVERY ≠ 0)
    (hd : step % s.ri I.DIG_CFG_EVERY = 0) (h1 : 2 ≤ s.digKey1) (h2 : 2 ≤ s.digKey2) (hr : s.ri I.PART_STAT_STATE (s.ri I.DIG_CFG_PART) = 0) :
    s.writeDigStep step = ((s.wi I.DIG_STEP step).setDig
      { step := step, armAt := s.itu.clk.ns, todo := s.itu.dig.todo, held := s.itu.dig.held }).wi I.DIG_STAT_STATE 1 := by
  rw [State.writeDigStep, State.digClose_of_idle _ ((s.digBusy_wi_step step).trans hb)]
  exact if_pos ⟨he, ⟨hev, hd⟩, h1, h2, by simp [hb], hr⟩

theorem State.writeDigStep_of_skip (hb : s.digBusy = false) (he : s.ri I.ITU_FN_EN_DIGEST = 0) (hev : s.ri I.DIG_CFG_EVERY ≠ 0)
    (hd : step % s.ri I.DIG_CFG_EVERY = 0) : s.writeDigStep step = (s.wi I.DIG_STEP step).ii I.DIG_CNT_SKIPPED := by
  rw [State.writeDigStep, State.digClose_of_idle _ ((s.digBusy_wi_step step).trans hb)]
  exact (if_neg fun h => absurd h.1 (by simp [he])).trans (if_pos ⟨hev, hd⟩)

theorem State.writeDigStep_of_busy (hev : s.ri I.DIG_CFG_EVERY = 0) :
    s.writeDigStep step = (s.wi I.DIG_STEP step).digClose 1 :=
  (if_neg fun h => h.2.1.1 hev).trans (if_neg fun h => h.1 hev)

end Step

/-! The hash (R294). -/

section Coef
variable (d : Dig) (i c : Nat)

theorem Dig.coef_of_in (h1 : d.lo ≤ i) (h2 : i < d.hi) : d.coef i c = { d with
    d1 := (d.d1 + (c + 1) * d.w1) % digP, d2 := (d.d2 + (c + 1) * d.w2) % digP, v := (d.v + d.w1) % digP, n := d.n + 1,
    pos := d.pos + 1, w1 := d.w1 * d.k1 % digP, w2 := d.w2 * d.k2 % digP } := by
  rw [Dig.coef, if_pos ⟨h1, h2⟩]

theorem Dig.coef_of_out (h : i < d.lo ∨ d.hi ≤ i) :
    d.coef i c = { d with pos := d.pos + 1, w1 := d.w1 * d.k1 % digP, w2 := d.w2 * d.k2 % digP } := by
  rw [Dig.coef, if_neg (by omega)]

end Coef

/-- Square and multiply is the power modulo the prime. -/
theorem powmod_eq (n b e : Nat) (h : e < 2 ^ n) : powmod n b e = b ^ e % digP := by
  induction n generalizing b e with
  | zero =>
    rw [Nat.lt_one_iff.mp h]
    rfl
  | succ n ih =>
    have half : powmod n (b * b % digP) (e / 2) = b ^ (2 * (e / 2)) % digP := by
      rw [ih _ _ (by omega), ← Nat.pow_mod, ← Nat.pow_two, Nat.pow_mul]
    rw [powmod]
    simp only [half]
    split
    next ho =>
      calc b ^ (2 * (e / 2)) % digP * b % digP = b ^ (2 * (e / 2)) * b % digP := Nat.mod_mul_mod _ _ _
        _ = b ^ e % digP := by rw [← Nat.pow_succ]; congr 2; omega
    next ho => rw [show 2 * (e / 2) = e by omega]

/-- The engine as a window opens (R303, R304). -/
def State.digOpened (s : State) : Dig :=
  { s.itu.dig with
    openAt := some s.itu.clk.ns, part := s.ri I.DIG_CFG_PART, gen := s.ri I.PART_STAT_GEN (s.ri I.DIG_CFG_PART),
    k1 := s.digKey1, k2 := s.digKey2, keySeq := s.ri I.DIG_KEY_SEQ, lo := s.digLo, hi := s.digHi,
    base := s.ri64 I.DIG_RUNS_BASE_LO I.DIG_RUNS_BASE_HI, count := s.ri I.DIG_RUNS_COUNT }

theorem exec_digWindowOpen_of_can {s : State} (h : s.digCanOpen = true) :
    exec .digWindowOpen s = .next ((s.setDig s.digOpened).wi I.DIG_STAT_STATE 2).digNext := if_pos h

/-- Settles O26: each row of the digest window by the case of its test that the clause names; the hash by induction on the bits. -/
theorem digestWindowsArmOpenAndClose : Obligations.DigestWindowsArmOpenAndClose := by
  unfold Obligations.DigestWindowsArmOpenAndClose
  refine ⟨?arm, ?skip, ?overrun, ?unstable, ?stable, ?opens, ?notOpen, ?done, ?notDone, ?abort, ?noAbort, ?closes, ?coefIn, ?coefOut, ?power,
    ?emit, ?stale, ?nothing⟩
  case arm =>
    intro iss step s hg hb he hev h32 hd h1 h2 hr
    refine .of_eq ((exec_digStepWrite_of_guard hg h32).trans (congrArg Host.Outcome.next (State.writeDigStep_of_arm hb he hev hd h1 h2 hr)))
      ⟨?_, State.ri_wi_self _ _ _ _ _, rfl, rfl, rfl, rfl⟩
    refine (State.ri_wi_ne _ _ _ _ _ _ _ _ (by decide)).trans ((s.ri_wi_self _ _ _ _).trans (Nat.mod_eq_of_lt h32))
  case skip =>
    exact fun iss step s hg hb h32 hev hd he =>
      (exec_digStepWrite_of_guard hg h32).trans (congrArg Host.Outcome.next (State.writeDigStep_of_skip hb he hev hd))
  case overrun =>
    exact fun iss step s hg _ h32 hev => (exec_digStepWrite_of_guard hg h32).trans (congrArg Host.Outcome.next (State.writeDigStep_of_busy hev))
  case unstable => exact fun iss s hg _ => exec_digUnstableWrite_of_guard hg
  case stable => exact fun iss s hg hb => (exec_digUnstableWrite_of_guard hg).trans (congrArg Host.Outcome.next (s.digClose_of_idle hb))
  case opens =>
    intro s h
    obtain ⟨hr, hl, g, hd⟩ := ((s.setDig s.digOpened).wi I.DIG_STAT_STATE 2).digNext_keeps
    refine .of_eq (exec_digWindowOpen_of_can h) ⟨?_, ?_, ?_, ?_, ?_, ?_, ?_, ?_, ?_, hl⟩
    · exact (congrArg (fun g : Regs => g.rd I.DIG_STAT_STATE) hr).trans (State.ri_wi_self _ _ _ _ _)
    all_goals rw [hd]; rfl
  case notOpen => exact fun s h => if_neg (by simp [h])
  case done => exact fun s h => if_pos h
  case notDone => exact fun s h => if_neg (by simp [h])
  case abort => exact fun iss s ha _ => ha.next (·.digClose 7)
  case noAbort => exact fun iss s ha hb => (ha.next (·.digClose 7)).trans (congrArg Host.Outcome.next (s.digClose_of_idle hb))
  case closes =>
    intro s r t0 h8 h5 hb ho
    obtain ⟨h1, h2, h3, h4, h5'⟩ := s.digLast_shows r h8
    rw [s.digClose_of_open h5 hb ho]
    refine ⟨State.ri_wi_self _ _ _ _ _, ?_, ?_, ?_, congrArg (fun d : Dig => d.todo ++ _) h2, h1⟩
    · exact (State.ri_wi_ne _ _ _ _ _ _ _ _ (by decide)).trans h3
    · exact (State.ri_wi_ne _ _ _ _ _ _ _ _ (by decide)).trans h4
    · exact (State.ri_wi_ne _ _ _ _ _ _ _ _ (by decide)).trans h5'
  case coefIn => exact fun d i c h1 h2 => by rw [d.coef_of_in i c h1 h2]; exact ⟨rfl, rfl, rfl, rfl, rfl⟩
  case coefOut => exact fun d i c h => by rw [d.coef_of_out i c h]; exact ⟨rfl, rfl, rfl, rfl⟩
  case power => exact powmod_eq
  case emit =>
    intro s r l ht hs hr hb
    simp only [exec, execDigShardEmit, ht]
    exact (if_neg (by simp [hs])).trans ((if_pos hr).trans (congrArg Host.Outcome.next (if_pos hb)))
  case stale =>
    intro s r l ht hs hb
    simp only [exec, execDigShardEmit, ht]
    exact (if_pos hs).trans (congrArg Host.Outcome.next (if_pos (s.digBusy_ii_discard.trans hb)))
  case nothing => exact fun s h => by simp only [exec, execDigShardEmit, h]

end Sys2Proof.Machine
end


section
/-! PROOFS. Digest cells and the comparison at the Crown (R307 to R312). -/

namespace Sys2Proof.Machine

/-! What locating a divergence leaves: the digest cells, and the ITU. -/

section Located
variable (s : State)

theorem LamSent.digCells {s t : State} (h : LamSent s t) : t.lam.digCells = s.lam.digCells := by rw [h.1]

theorem State.digCells_ddrPut (a : Nat) (bs : List Nat) : (s.ddrPut a bs).lam.digCells = s.lam.digCells := by
  rw [State.ddrPut_eq, State.countPoison, State.countCut_eq]
  rfl
theorem State.itu_ddrPut (a : Nat) (bs : List Nat) : (s.ddrPut a bs).itu = s.itu := by
  rw [State.ddrPut_eq, State.countPoison, State.countCut_eq]
  rfl

/-- A packet of the Lamulo's own changes its tag sequence, the items waiting for egress and the free values drawn (R378, R379). -/
theorem State.cmdDown_eq (d : Dst) (op amode target : Nat) (ps : List Nat) (txn : Option Nat) : ∃ n e f,
    s.cmdDown d op amode target ps txn = { s with lam := { s.lam with tagSeq := n, egress := e }, freeN := f } := by
  rw [State.cmdDown, State.ownPkt, State.signPkt]
  split
  · exact ⟨_, _, _, rfl⟩
  · exact ⟨_, _, _, rfl⟩

theorem State.setSusp_keeps (die : Nat) (e : Susp) :
    (s.setSusp die e).lam.digCells = s.lam.digCells ∧ (s.setSusp die e).itu = s.itu := by
  rw [State.setSusp]
  obtain ⟨n, g, f, h⟩ := (s.ddrPut (s.suspAddr die) (wordsToBytes { e with due := false, mark := false }.words)).cmdDown_eq
    (.node (trayNode die)) 0x3C 2 (trayNode die) (die % 16 :: e.words) none
  rw [h]
  exact ⟨s.digCells_ddrPut _ _, s.itu_ddrPut _ _⟩

theorem State.suspectRec_keeps (die action cause : Nat) (e : Susp) :
    (s.suspectRec die action cause e).lam.digCells = s.lam.digCells ∧ (s.suspectRec die action cause e).itu = s.itu :=
  ⟨(lamSent_lamEmit _ _ _ _ _ _).digCells, (lamSent_lamEmit _ _ _ _ _ _).itu⟩

theorem State.markSuspect_keeps (die cause tbin load : Nat) :
    (s.markSuspect die cause tbin load).lam.digCells = s.lam.digCells ∧ (s.markSuspect die cause tbin load).itu = s.itu := by
  unfold State.markSuspect
  extract_lets e e'
  clear_value e'
  obtain ⟨h1, h2⟩ := State.suspectRec_keeps (((s.setSusp die e').setPassed die []).il L.GNTF_CNT_SUSPECT_SET) die 0 cause e'
  obtain ⟨h3, h4⟩ := s.setSusp_keeps die e'
  exact ⟨h1.trans h3, h2.trans h4⟩

theorem State.digLocated_keeps (cohort step : Nat) (p : HeldShard × HeldShard) :
    (s.digLocated cohort step p).lam.digCells = s.lam.digCells ∧ (s.digLocated cohort step p).itu = s.itu :=
  have h := s.markSuspect_keeps p.1.die 3 (tbinOf (bits (nth p.1.body 1) 12 10)) 0
  ⟨(lamSent_lamEmit _ _ _ _ _ _).digCells.trans h.1, (lamSent_lamEmit _ _ _ _ _ _).itu.trans h.2⟩

end Located

/-! An input of a digest cell (R308). -/

section Input
variable {s : State} {c d : DigCell} {src : Src} {n : Nat}

theorem State.digInput_of_joins (hf : s.findDig c.key = some d) (hl : c.leaves.any d.leaves.contains = false) (hc : d.closed = false)
    (hk : (d.merge c).keyMix = false) : s.digInput c src n = (s.putDig (d.merge c), true) := by
  simp only [State.digInput, hf, hl, hc, hk]
  rfl

theorem State.digInput_of_twice (hf : s.findDig c.key = some d) (hl : c.leaves.any d.leaves.contains = true) :
    s.digInput c src n = (s.il L.DIGF_CNT_DUP, false) := by
  simp only [State.digInput, hf, hl]
  rfl

theorem State.digInput_of_first (hf : s.findDig c.key = none) (he : s.now .lam ≤ s.digEnd c.openMin) (ho : s.digOpen < 1024)
    (hk : c.keyMix = false) (hm : s.digMixed c.cohort c.replica c.openMin = false) (h0 : s.lam.digCells = []) :
    (s.digInput c src n).2 = true ∧ (s.digInput c src n).1.lam.digCells = [c] := by
  have hs : { s with lam := { s.lam with digCells := s.lam.digCells.filter fun d => !(d.closed && decide (s.digEnd d.openMin < s.now .lam) &&
      !s.isCrown) } } = s := by rw [h0]; exact congrArg (fun l => { s with lam := { s.lam with digCells := l } }) h0.symm
  simp only [State.digInput, hf, hs, if_neg he.not_gt, if_pos ho, hm, Bool.or_false,
    if_neg (show ¬c.keyMix = true by simp [hk]), true_and]
  simp only [State.putDig, h0, List.filter_nil, List.nil_append]

end Input

/-! Cells close (R308, R309) and a group is compared (R310). -/

section Close
variable {cohort replica step lo hi : Nat} {s : State} {x : DigCell}

theorem exec_digestCellClose_of_due (hf : s.findDig ⟨cohort, replica, step, lo, hi⟩ = some x) (hc : x.closed = false) (hon : s.digOn = true)
    (hd : s.digExpected cohort replica x.openMin ≤ x.shards ∨ s.digEnd x.openMin ≤ s.now .lam) :
    exec (.digestCellClose cohort replica step lo hi) s = .next (if s.isCrown then s.putDig { x with closed := true }
      else (s.putDig { x with closed := true }).digPartial x) := by
  simp only [exec, execDigestCellClose, hf]
  exact if_pos ⟨by simp [hc], hon, hd⟩

theorem exec_digestCellClose_of_early (hf : s.findDig ⟨cohort, replica, step, lo, hi⟩ = some x)
    (hn : x.shards < s.digExpected cohort replica x.openMin) (he : s.now .lam < s.digEnd x.openMin) :
    exec (.digestCellClose cohort replica step lo hi) s = .next s := by
  simp only [exec, execDigestCellClose, hf]
  exact if_neg fun h => h.2.2.elim hn.not_ge he.not_ge

/-- The comparison takes the group's cells out, and makes records, marks and counts besides. -/
theorem exec_digestCompare_of_due {l : List DigCell} (hg : s.digGroup cohort step lo hi = x :: l) (hcr : s.isCrown = true) (hon : s.digOn = true)
    (he : s.digEnd ((x :: l).foldl (fun m c => min m c.openMin) x.openMin) ≤ s.now .lam) :
    ∃ t, exec (.digestCompare cohort step lo hi) s = .next t ∧
      t.lam.digCells = s.lam.digCells.filter (fun y => !(x :: l).contains y) ∧ t.itu = s.itu := by
  simp only [exec, execDigestCompare, hg]
  refine ⟨_, if_pos ⟨hcr, hon, .inr he⟩, ?_, ?_⟩
  · refine (State.foldl_keeps (·.lam.digCells) (fun u p => (u.digLocated_keeps _ _ p).1) _ _).trans ((lamSent_lamEmit _ _ _ _ _ _).digCells.trans ?_)
    exact State.ite_keeps (·.lam.digCells) (State.ite_keeps (·.lam.digCells) rfl rfl) (State.ite_keeps (·.lam.digCells) rfl rfl)
  · refine (State.foldl_keeps (·.itu) (fun u p => (u.digLocated_keeps _ _ p).2) _ _).trans ((lamSent_lamEmit _ _ _ _ _ _).itu.trans ?_)
    exact State.ite_keeps (·.itu) (State.ite_keeps (·.itu) rfl rfl) (State.ite_keeps (·.itu) rfl rfl)

theorem exec_digestCompare_of_none (h : s.digGroup cohort step lo hi = [] ∨ s.isCrown = false) :
    exec (.digestCompare cohort step lo hi) s = .next s := by
  simp only [exec, execDigestCompare]
  split
  next => rfl
  next x l hg => exact if_neg fun hc => by simp [hg, hc.1] at h

end Close

/-! The vote of the COMPLETE replicas (R310). -/

section Rank
variable {all : List (Nat × Nat)} {x y : Nat × Nat}

/-- Two values share the list. -/
theorem count_add_count_le (h : x ≠ y) : all.count x + all.count y ≤ all.length := by
  induction all with
  | nil => rfl
  | cons a l ih =>
    have : ¬ (a = x ∧ a = y) := fun ⟨hx, hy⟩ => h (hx.symm.trans hy)
    simp only [List.count_cons, List.length_cons, beq_iff_eq]
    split <;> split <;> first | omega | simp_all

/-- The value of a majority passes, every other value fails. -/
theorem digRank_of_majority (h2 : 2 ≤ all.count x) (hm : all.length < 2 * all.count x) : digRank all x = 1 :=
  if_pos (by simp [h2, hm])

theorem digRank_of_minority (h2 : 2 ≤ all.count y) (hm : all.length < 2 * all.count y) (hne : x ≠ y) : digRank all x = 2 := by
  have hy : y ∈ all := List.count_pos_iff.mp (by omega)
  have hx := count_add_count_le (all := all) hne
  refine (if_neg ?_).trans (if_pos (List.any_eq_true.mpr ⟨y, hy, by simp [h2, hm]⟩))
  simp only [Bool.and_eq_true, decide_eq_true_eq]
  omega

end Rank

/-- Settles O27: each row of the digest cells by the case of its test that the clause names; the vote by counting. -/
theorem digestCellsGatherAndCompare : Obligations.DigestCellsGatherAndCompare := by
  unfold Obligations.DigestCellsGatherAndCompare
  refine ⟨?partialRx, ?noPartial, ?joins, ?twice, ?first, ?merge, ?close, ?closeCrown, ?early, ?compare, ?noCompare, ?majority, ?minority, ?alone⟩
  case partialRx => exact fun e r s h0 ht => if_pos ⟨h0, ht⟩
  case noPartial => exact fun e r s h => if_neg fun hc => h.elim hc.1 fun ht => ht hc.2
  case joins => exact fun s c d src n => State.digInput_of_joins
  case twice => exact fun s c d src n => State.digInput_of_twice
  case first => exact fun s c src n => State.digInput_of_first
  case merge => exact fun a b => ⟨rfl, rfl, rfl, rfl, rfl⟩
  case close =>
    exact fun c r st lo hi s x hf hc hon hd hcr => (exec_digestCellClose_of_due hf hc hon hd).trans
      (congrArg Host.Outcome.next (if_neg (by simp [hcr])))
  case closeCrown =>
    exact fun c r st lo hi s x hf hc hon hd hcr => (exec_digestCellClose_of_due hf hc hon hd).trans (congrArg Host.Outcome.next (if_pos hcr))
  case early => exact fun c r st lo hi s x => exec_digestCellClose_of_early
  case compare => exact fun c st lo hi s x l hg hcr hon _ he => exec_digestCompare_of_due hg hcr hon he
  case noCompare => exact fun c st lo hi s => exec_digestCompare_of_none
  case majority => exact fun all x => digRank_of_majority
  case minority => exact fun all x y => digRank_of_minority
  case alone => exact fun x => by simp [digRank]

end Sys2Proof.Machine
end


section
/-! PROOFS. The Gauntlet of an ITU: items staged and run, canary tiles and slices (R322 to R329, R335). -/

namespace Sys2Proof.Machine

/-! A word of a list cut to words. -/

theorem nth_map_word (l : List Nat) (k : Nat) : nth (l.map (· % 2 ^ 32)) k = nth l k % 2 ^ 32 := by
  rw [nth, nth, List.getD_eq_getElem?_getD, List.getElem?_map, List.getD_eq_getElem?_getD]
  cases l[k]? <;> rfl

theorem bits_word (v lo w : Nat) (h : lo + w ≤ 32) : bits (v % 2 ^ 32) lo w = bits v lo w := by
  rw [bits, bits, Nat.shiftRight_eq_div_pow, Nat.shiftRight_eq_div_pow, show 32 = lo + (32 - lo) by omega, Nat.pow_add, Nat.mod_mul_right_div_self]
  exact Nat.mod_mod_of_dvd _ (Nat.pow_dvd_pow 2 (by omega))

theorem State.ri_setGnt (s : State) (v : Gnt) (F : Fld) (i j : Nat) : (s.setGnt v).ri F i j = s.ri F i j := rfl

/-! An item is staged, refused or run (R322, R323, R325). -/

section Run
variable {s : State} {off : Nat} {bs : List Nat} {c : GntItem}

theorem State.opGntStage_of_first (hon : s.ipdOn 3 = true) (hlen : off + bs.length ≤ 131072) (hst : s.ri I.GNT_STAT_STATE = 0) (h0 : off = 0) :
    s.opGntStage off bs = (((s.wi I.GNT_STAT_STATE 1).wi I.GNT_BUF_LEVEL bs.length).setGnt { s.itu.gnt with buf := bs }, {}) := by
  subst h0
  simp only [State.opGntStage, hon, hst, if_neg hlen.not_gt]
  simp [State.setGnt]

theorem State.opGntStage_of_long (hon : s.ipdOn 3 = true) (hlen : 131072 < off + bs.length) : s.opGntStage off bs = (s, { status := St.badParam }) :=
  (if_neg (by simp [hon])).trans (if_pos hlen)

theorem State.opGntStage_of_busy (hon : s.ipdOn 3 = true) (hlen : off + bs.length ≤ 131072) (hst : 2 ≤ s.ri I.GNT_STAT_STATE) :
    s.opGntStage off bs = (s, { status := St.busy }) :=
  (if_neg (by simp [hon])).trans ((if_neg hlen.not_gt).trans (if_pos hst))

/-- The state in which an accepted item is the engine's (R322). -/
def State.gntTaken (s : State) (c : GntItem) : State :=
  (((s.setGnt { buf := s.itu.gnt.buf, cur := c }).wi I.GNT_CUR_ITEM c.item).wi I.GNT_CUR_PART (bits (nth c.entry 0) 18 4)).wi I.GNT_CUR_PKG_ID c.pkg

theorem State.opGntRun_of_canary (hon : s.ipdOn 3 = true) (hr : s.gntRefused c.entry = false) (hk : bits (nth c.entry 0) 0 2 ≠ 1) :
    s.opGntRun c = (((s.gntTaken c).gntState 4).setPins { s.itu.pins with cnry := some (bits (nth c.entry 0) 4 6) }, {}) :=
  (if_neg (by simp [hon])).trans ((if_neg (by simp [hr])).trans (if_neg fun h => hk (beq_iff_eq.mp h)))

theorem State.opGntRun_of_slice (hon : s.ipdOn 3 = true) (hr : s.gntRefused c.entry = false) (hk : bits (nth c.entry 0) 0 2 = 1)
    (hf : s.ri I.LDG_STAT_FROZEN = 0) :
    s.opGntRun c = ((((s.gntTaken c).wi I.GNT_MISMATCH 0).gntState 2).wi I.LDG_TOK_ASK_TR (s.gntRaise c.entry), {}) := by
  have hf' : (((s.gntTaken c).wi I.GNT_MISMATCH 0).gntState 2).ri I.LDG_STAT_FROZEN = 0 := by
    simp (disch := decide) only [State.gntState, State.gntTaken, State.ri_setGnt, State.ri_wi_ne, hf]
  exact (if_neg (by simp [hon])).trans ((if_neg (by simp [hr])).trans ((if_pos (beq_iff_eq.mpr hk)).trans (if_neg (not_not_intro hf'))))

theorem State.opGntRun_of_refused (hon : s.ipdOn 3 = true) (hr : s.gntRefused c.entry = true) :
    s.opGntRun c = ((s.wi I.GNT_STAT_REFUSED 1).ii I.GNT_CNT_REFUSED, { status := St.busy }) :=
  (if_neg (by simp [hon])).trans (if_pos hr)

end Run

/-! How an item ends. -/

theorem State.gntIdle_shows (s : State) : s.gntIdle.ri I.GNT_STAT_STATE = 0 ∧ s.gntIdle.itu.pins = s.itu.pins ∧ s.gntIdle.itu.gnt.buf = [] := by
  refine ⟨?_, rfl, rfl⟩
  simp (disch := decide) only [State.gntIdle, State.gntState, State.ri_setGnt, State.ri_wi_ne, State.ri_wi_self]
  rfl

theorem ItuSent.pins {s t : State} (h : ItuSent s t) : t.itu.pins = s.itu.pins := by rw [h.1]

/-- A canary's end frees the engine, whatever its result (R323, R335). -/
theorem State.canaryEnd_shows (s : State) (r : Nat) : (s.canaryEnd r false).ri I.GNT_STAT_STATE = 0 ∧
    (s.canaryEnd r false).itu.pins.cnry = none ∧ (s.canaryEnd r false).itu.gnt.buf = [] := by
  unfold State.canaryEnd
  extract_lets g c s1 s2 d s3 body i p s4
  obtain ⟨h1, h2, h3⟩ := (s4.ituOffer (s4.gntRec 0x0B0 body)).1.gntIdle_shows
  exact ⟨h1, congrArg IPins.cnry (h2.trans (ituSent_ituOffer _ _).pins), h3⟩

section Beat
variable {s : State} {d : Nat}

/-- The engine after a beat of a canary tile. -/
def State.canaryBeat (s : State) (d : Nat) : State :=
  s.setGnt { s.itu.gnt with beats := s.itu.gnt.beats + 1, crc := crcFeed 3 s.itu.gnt.crc (leBytes 128 d) }

theorem exec_canaryOutputBeat_inner (h : s.canaryRuns = true) : exec (.canaryOutputBeat d false) s = .next (s.canaryBeat d) :=
  (if_pos h).trans (if_neg Bool.false_ne_true)

theorem exec_canaryOutputBeat_last (h : s.canaryRuns = true) : exec (.canaryOutputBeat d true) s = .next
    ((s.canaryBeat d).canaryEnd (if (s.canaryBeat d).itu.gnt.beats = bits ((s.canaryBeat d).gntWord 7) 0 11 ∧
      (s.canaryBeat d).itu.gnt.crc = (s.canaryBeat d).gntExpect then 0 else 1) false).pdTryAll :=
  (if_pos h).trans (if_pos rfl)

end Beat

/-- Settles O28: each row of the Gauntlet's items and canary tiles by the case of its test that the clause names. -/
theorem gauntletItemsAreStagedAndRun : Obligations.GauntletItemsAreStagedAndRun := by
  unfold Obligations.GauntletItemsAreStagedAndRun
  refine ⟨?stage, ?long, ?busy, ?off, ?canary, ?slice, ?refused, ?notStaged, ?beat, ?pass, ?fail, ?idle, ?timeout, ?ends⟩
  case stage =>
    intro h off bs s hon hlen hst h0
    refine cmdItu_of_eq ((State.opGntStage_of_first hon (by rwa [List.length_map]) hst h0).trans ?_)
    rw [List.length_map]
  case long =>
    exact fun h off bs s hon hlen => cmdItu_of_eq (State.opGntStage_of_long hon (by rwa [List.length_map]))
  case busy =>
    exact fun h off bs s hon hlen hst => cmdItu_of_eq (State.opGntStage_of_busy hon (by rwa [List.length_map]) hst)
  case off => exact fun h off bs s hoff => cmdItu_of_eq (if_pos (by simp [hoff]))
  case canary =>
    intro h item pkg load rt e s hon hr hk
    have hw (lo w : Nat) (hle : lo + w ≤ 32) : bits (nth (e.map (· % 2 ^ 32)) 0) lo w = bits (nth e 0) lo w := by
      rw [nth_map_word, bits_word _ _ _ hle]
    refine ⟨_, cmdItu_of_eq (State.opGntRun_of_canary hon hr (by rwa [hw _ _ (by decide)])), ?_, ?_, rfl, ?_, rfl⟩
    · simp (disch := decide) only [State.ri_setPins, State.gntState, State.ri_setGnt, State.ri_wi_self]
      rfl
    · exact congrArg (fun b => ({ s.itu.pins with cnry := some b } : IPins)) (hw _ _ (by decide))
    · simp (disch := decide) only [State.ri_setPins, State.gntState, State.gntTaken, State.ri_setGnt, State.ri_wi_ne, State.ri_wi_self]
      exact Nat.mod_mod _ _
  case slice =>
    intro h item pkg load rt e s hon hr hk hf
    refine ⟨_, cmdItu_of_eq (State.opGntRun_of_slice hon hr (by rwa [nth_map_word, bits_word _ _ _ (by decide)]) hf), ?_, ?_, ?_, rfl⟩
    · simp (disch := decide) only [State.gntState, State.ri_setGnt, State.ri_wi_ne, State.ri_wi_self]
      rfl
    · simp (disch := decide) only [State.gntState, State.ri_setGnt, State.ri_wi_ne, State.ri_wi_self]
      rfl
    · exact State.ri_wi_self _ _ _ _ _
  case refused => exact fun h item pkg load rt e s hon hr => cmdItu_of_eq (State.opGntRun_of_refused hon hr)
  case notStaged => exact fun s e h => by simp [State.gntRefused, h]
  case beat => exact fun d s => exec_canaryOutputBeat_inner
  case pass =>
    rintro d s u hr rfl hb hc
    exact (exec_canaryOutputBeat_last hr).trans (congrArg (fun r => Host.Outcome.next ((s.canaryBeat d).canaryEnd r false).pdTryAll) (if_pos ⟨hb, hc⟩))
  case fail =>
    rintro d s u hr rfl h
    exact (exec_canaryOutputBeat_last hr).trans (congrArg (fun r => Host.Outcome.next ((s.canaryBeat d).canaryEnd r false).pdTryAll)
      (if_neg fun hc => h.elim (absurd hc.1) (absurd hc.2)))
  case idle => exact fun d l s h => ⟨if_neg (by simp [h]), if_neg (by simp [h])⟩
  case timeout => exact fun s h hd => if_pos (by rw [h]; exact decide_eq_true hd)
  case ends => exact State.canaryEnd_shows

end Sys2Proof.Machine
end


section
/-! PROOFS. Slices of self-test: power, save, run, restore, and their limits (R325 to R329). -/

namespace Sys2Proof.Machine

section Slice
variable {s : State} {w : List (List Nat)}

theorem State.ri_gntState_self (st : Nat) (h : st < 8) : (s.gntState st).ri I.GNT_STAT_STATE = st := by
  rw [State.gntState, State.ri_setGnt, State.ri_wi_self]
  exact Nat.mod_eq_of_lt h

theorem State.ri_gntState_ne (st : Nat) (F : Fld) (h : F.key 0 0 ≠ I.GNT_STAT_STATE.key 0 0) : (s.gntState st).ri F = s.ri F :=
  State.ri_wi_ne _ _ _ _ _ _ _ _ h

/-- A save or a restore that fails names which by the state it is in (R325). -/
theorem State.srFail_of_save (h : s.ri I.GNT_STAT_STATE = 3) : s.srFail = ((s.ii I.ITU_CNT_SR_TO).wi I.ITU_FAULT_SR_TO 1).sliceEnd 2 2 false := by
  have h' : ((s.ii I.ITU_CNT_SR_TO).wi I.ITU_FAULT_SR_TO 1).ri I.GNT_STAT_STATE = 3 := by
    simp (disch := decide) only [State.ri_wi_ne, State.ri_ii_ne, h]
  exact congrArg (fun c => State.sliceEnd ((s.ii I.ITU_CNT_SR_TO).wi I.ITU_FAULT_SR_TO 1) 2 c false) (if_pos h')

theorem State.srFail_of_restore (h : s.ri I.GNT_STAT_STATE = 5) : s.srFail = ((s.ii I.ITU_CNT_SR_TO).wi I.ITU_FAULT_SR_TO 1).sliceEnd 2 3 false := by
  have h' : ((s.ii I.ITU_CNT_SR_TO).wi I.ITU_FAULT_SR_TO 1).ri I.GNT_STAT_STATE = 5 := by
    simp (disch := decide) only [State.ri_wi_ne, State.ri_ii_ne, h]
  exact congrArg (fun c => State.sliceEnd ((s.ii I.ITU_CNT_SR_TO).wi I.ITU_FAULT_SR_TO 1) 2 c false) (if_neg (by simp [h']))

/-- The acknowledge of a save, and of a restore. -/
theorem exec_srAck_of_save {err : Bool} (h : s.ri I.GNT_STAT_STATE = 3) : exec (.srAck err) s =
    if err then .next s.srFail else .next ((s.setPins { s.itu.pins with sr := none }).gntState 4) := if_pos h

theorem exec_srAck_of_restore {err : Bool} (h : s.ri I.GNT_STAT_STATE = 5) : exec (.srAck err) s =
    if err then .next s.srFail else if s.itu.gnt.cause ≠ 0 then .next (s.sliceEnd 2 s.itu.gnt.cause false)
      else .next (s.sliceEnd (if s.ri I.GNT_MISMATCH = 0 then 0 else 1) 0 false) :=
  (if_neg (by simp [h])).trans (if_pos h)

theorem exec_srAck_of_other {err : Bool} (h3 : s.ri I.GNT_STAT_STATE ≠ 3) (h5 : s.ri I.GNT_STAT_STATE ≠ 5) : exec (.srAck err) s = .next s :=
  (if_neg h3).trans (if_neg h5)

/-- The slice's raise is there at the slot boundary (R325, R329). -/
theorem exec_slicePowerReady_of_slot (h2 : s.ri I.GNT_STAT_STATE = 2) (h0 : s.ri I.LDG_TOK_ASK_TR = 0) (hs : s.slotSince s.itu.gnt.since = true) :
    exec .slicePowerReady s = .next ((s.gntWaited.gntState 3).srReq 0) :=
  if_pos ⟨h2, h0.le.trans (Nat.zero_le _), by rw [if_pos h0]; exact hs⟩

theorem exec_slicePowerTimeout_of_due {a : Ann} (h2 : s.ri I.GNT_STAT_STATE = 2) (ha : s.itu.mains.cur = some a)
    (hd : s.ri I.GNT_WAIT_MC * a.length ≤ (s.itu.clk.ns - s.itu.gnt.since) * 2 ^ 32) :
    exec .slicePowerTimeout s = .next (s.gntWaited.sliceEnd 2 1 false) := by
  simp only [exec, execSlicePowerTimeout, ha]
  exact if_pos ⟨h2, hd⟩

theorem State.sliceRuns_iff : s.sliceRuns = true ↔ s.ri I.GNT_STAT_STATE = 4 ∧ s.gntSlice = true := by
  rw [State.sliceRuns, Bool.and_eq_true, beq_iff_eq]

/-! An abort, by the state the engine is in (R328). -/

theorem State.gntAbort_of_idle (h : s.ri I.GNT_STAT_STATE = 0) : s.gntAbort w = s := by simp only [State.gntAbort, h]
theorem State.gntAbort_of_staged (h : s.ri I.GNT_STAT_STATE = 1) : s.gntAbort w = s.gntIdle := by simp only [State.gntAbort, h]
theorem State.gntAbort_of_wait (h : s.ri I.GNT_STAT_STATE = 2) : s.gntAbort w = s.gntWaited.sliceEnd 2 6 false := by
  simp only [State.gntAbort, h]
theorem State.gntAbort_of_run (h : s.sliceRuns = true) : s.gntAbort w = (s.sliceCompare w).sliceRestore 6 := by
  obtain ⟨h4, hsl⟩ := State.sliceRuns_iff.mp h
  simp only [State.gntAbort, h4, hsl, if_true]

end Slice

/-- Settles O29: each row of a slice by the state of the engine that the clause names. -/
theorem slicesRunBetweenSaveAndRestore : Obligations.SlicesRunBetweenSaveAndRestore := by
  unfold Obligations.SlicesRunBetweenSaveAndRestore
  refine ⟨?ready, ?notReady, ?late, ?notLate, ?saved, ?pass, ?fail, ?skipped, ?saveErr, ?restoreErr, ?noAck, ?timeout, ?ends, ?overtime, ?noRun,
    ?abortWait, ?abortRun, ?abortStaged, ?abortIdle⟩
  case ready =>
    refine fun s h2 h0 hs => .of_eq (exec_slicePowerReady_of_slot h2 h0 hs) ⟨?_, rfl, rfl, rfl⟩
    exact s.gntWaited.ri_gntState_self 3 (by decide)
  case notReady => exact fun s h => if_neg fun hc => h.elim (fun hn => hn hc.1) fun hlt => hlt.not_ge hc.2.1
  case late => exact fun s a => exec_slicePowerTimeout_of_due
  case notLate => exact fun s h => if_neg fun hc => h hc.1
  case saved => exact fun s h => exec_srAck_of_save h
  case pass =>
    exact fun s h hc hm => (exec_srAck_of_restore h).trans ((if_neg Bool.false_ne_true).trans ((if_neg (not_not_intro hc)).trans
      (congrArg (fun r => Host.Outcome.next (s.sliceEnd r 0 false)) (if_pos hm))))
  case fail =>
    exact fun s h hc hm => (exec_srAck_of_restore h).trans ((if_neg Bool.false_ne_true).trans ((if_neg (not_not_intro hc)).trans
      (congrArg (fun r => Host.Outcome.next (s.sliceEnd r 0 false)) (if_neg hm))))
  case skipped => exact fun s h hc => (exec_srAck_of_restore h).trans ((if_neg Bool.false_ne_true).trans (if_pos hc))
  case saveErr => exact fun s h => (exec_srAck_of_save h).trans (congrArg Host.Outcome.next (State.srFail_of_save h))
  case restoreErr => exact fun s h => (exec_srAck_of_restore h).trans (congrArg Host.Outcome.next (State.srFail_of_restore h))
  case noAck => exact fun s e h3 h5 => ⟨exec_srAck_of_other h3 h5, if_neg fun hc => hc.1.elim h3 h5⟩
  case timeout => exact fun s h hd => if_pos ⟨h, hd⟩
  case ends =>
    intro w s h
    have e : exec (.slicePatternEnd w) s = .next ((s.sliceCompare w).sliceRestore 0) := if_pos h
    refine .of_eq e ⟨?_, rfl, rfl, ?_, rfl, rfl⟩
    · exact (s.sliceCompare w).gntRan.ri_gntState_self 5 (by decide)
    · exact (s.sliceCompare w).gntRan.ri_gntState_ne 5 _ (by decide)
  case overtime => exact fun w s h hd => if_pos (by rw [h]; exact decide_eq_true hd)
  case noRun => exact fun w s h => ⟨if_neg (by simp [h]), if_neg (by simp [h])⟩
  case abortWait => exact fun iss w s ha h => (ha.next (·.gntAbort w)).trans (congrArg Host.Outcome.next (State.gntAbort_of_wait h))
  case abortRun => exact fun iss w s ha h => (ha.next (·.gntAbort w)).trans (congrArg Host.Outcome.next (State.gntAbort_of_run h))
  case abortStaged => exact fun iss w s ha h => (ha.next (·.gntAbort w)).trans (congrArg Host.Outcome.next (State.gntAbort_of_staged h))
  case abortIdle => exact fun iss w s ha h => (ha.next (·.gntAbort w)).trans (congrArg Host.Outcome.next (State.gntAbort_of_idle h))

end Sys2Proof.Machine
end


section
/-! PROOFS. Packages of the Gauntlet and suspects (R319, R320, R332 to R334). -/

namespace Sys2Proof.Machine

theorem State.rl_setGntF (s : State) (g : GntF) (F : Fld) (i j : Nat) : (s.setGntF g).rl F i j = s.rl F i j := rfl

/-! Packages. -/

section Package
variable {s : State} {base len off : Nat} {bs : List Nat} {p : Bool}

theorem State.opGauntletLoad_of_free (hc : s.isCrown = true) (hr : s.lam.gnt.retiring = none) (hl : s.lam.gnt.loading = none) :
    s.opGauntletLoad base len = ((s.setGntF { s.lam.gnt with loading := some (base, len), shadow := none }).wl L.GNTF_STAT_SHADOW 1, {}) :=
  (if_neg (by simp [hc])).trans (if_neg (by simp [hr, hl]))

theorem State.opGauntletLoad_of_busy (hc : s.isCrown = true) (h : s.lam.gnt.retiring ≠ none ∨ s.lam.gnt.loading ≠ none) :
    s.opGauntletLoad base len = (s, { status := St.busy }) := by
  refine (if_neg (by simp [hc])).trans (if_pos ?_)
  simpa [Option.isSome_iff_ne_none] using h

/-- Bytes of a package are stored in the free half, and the shadow is being filled (R320). -/
theorem State.opGntPush_of_fits (hr : s.lam.gnt.retiring = none) (hl : off + bs.length ≤ 2 ^ 28) : ∃ g,
    s.opGntPush off bs = ((((s.ddrPut (s.storeHalf s.lam.gnt.freeHalf + off) bs).setGntF g).wl L.GNTF_STAT_SHADOW 1).wl L.GNTF_PKG_SHADOW_ID 0, {}) :=
  ⟨_, (if_neg (by simp [hr])).trans (if_neg hl.not_gt)⟩

theorem exec_packageCheckDone_of_bad (hl : s.lam.gnt.loading = some (base, len)) (hst : s.pkgStatus base len p ≠ 1) :
    exec (.packageCheckDone p) s = .next (((s.wl L.GNTF_STAT_LOAD_STATUS (s.pkgStatus base len p)).setGntF
      { s.lam.gnt with loading := none, shadow := none }).wl L.GNTF_STAT_SHADOW 3) := by
  simp only [exec, execPackageCheckDone, hl]
  exact if_neg hst

theorem exec_packageCheckDone_of_good (hl : s.lam.gnt.loading = some (base, len)) (hst : s.pkgStatus base len p = 1) (hc : s.isCrown = false) :
    exec (.packageCheckDone p) s = .next ((((s.wl L.GNTF_STAT_LOAD_STATUS 1).setGntF
      { s.lam.gnt with loading := none, shadow := some ⟨s.imgAt base len, s.lam.gnt.freeHalf⟩ }).wl L.GNTF_STAT_SHADOW 2).wl
      L.GNTF_PKG_SHADOW_ID (pkgId (s.imgAt base len))) := by
  simp only [exec, execPackageCheckDone, hl, hst, if_true]
  refine congrArg Host.Outcome.next (if_neg ?_)
  simp (disch := decide) only [State.isCrown, State.role, State.rl_wl_ne, State.rl_setGntF]
  exact Bool.eq_false_iff.mp hc

end Package

/-! An entry of a suspect at its Tray (R332). -/

section Suspect
variable {s : State} {q : Nat} {e : Susp}

/-- The observation registers of port q as the entry gives them. -/
def State.obsShown (s : State) (q : Nat) (e : Susp) : State :=
  (((s.wl L.OBS_SUSPECT (b2n e.suspect) q).wl L.OBS_TBIN e.tbin q).wl L.OBS_LOAD e.load q).wl L.OBS_PASSES e.passes q

theorem State.opGntSuspect_snd (h0 : s.role = 0) : (s.opGntSuspect q e).2 = {} := by
  rw [State.opGntSuspect, if_neg (not_not_intro h0)]

/-- What OBS_DUE, the step of the retest and the port's progress do not say is as the entry gives it. -/
theorem State.opGntSuspect_keeps {β : Type} (get : State → β) (h0 : s.role = 0) (hd : ∀ u v, get (State.wl u L.OBS_DUE v q) = get u)
    (hr : ∀ u v, get (State.wl u L.GNTF_RETEST_STEP v q) = get u) (hg : ∀ u p, get (State.setGport u q p) = get u) :
    get (s.opGntSuspect q e).1 = get (s.obsShown q e) := by
  rw [State.opGntSuspect, if_neg (not_not_intro h0)]
  have due : ∀ u : State, get (if e.due then u.wl L.OBS_DUE 1 q else u) = get u := fun u => State.ite_keeps get (hd _ _) rfl
  extract_lets a g b c g'
  have hb : get b = get a := State.ite_keeps get (due a) ((hg _ _).trans (hd _ _))
  have hc : get c = get a := State.ite_keeps get ((hr _ _).trans hb) hb
  exact State.ite_keeps get ((hg _ _).trans hc) hc

theorem State.rl_opGntSuspect (h0 : s.role = 0) (F : Fld) (hd : F.key q 0 ≠ L.OBS_DUE.key q 0) (hr : F.key q 0 ≠ L.GNTF_RETEST_STEP.key q 0) :
    (s.opGntSuspect q e).1.rl F q = (s.obsShown q e).rl F q :=
  State.opGntSuspect_keeps (State.rl · F q) h0 (fun _ _ => State.rl_wl_ne _ _ _ _ _ _ _ _ hd) (fun _ _ => State.rl_wl_ne _ _ _ _ _ _ _ _ hr)
    fun _ _ => rfl

theorem State.due_opGntSuspect (h0 : s.role = 0) (hs : e.suspect = false) : (s.opGntSuspect q e).1.rl L.OBS_DUE q = 0 := by
  simp only [State.opGntSuspect, if_neg (not_not_intro h0), hs, Bool.false_and, Bool.false_eq_true, if_false]
  exact State.rl_wl_self _ _ _ _ _

/-- The registers of an entry of two words hold its fields whole. -/
theorem State.obsShown_shows (w : List Nat) : (s.obsShown q (Susp.ofWords w)).rl L.OBS_SUSPECT q = b2n (Susp.ofWords w).suspect ∧
    (s.obsShown q (Susp.ofWords w)).rl L.OBS_TBIN q = (Susp.ofWords w).tbin ∧
    (s.obsShown q (Susp.ofWords w)).rl L.OBS_LOAD q = (Susp.ofWords w).load ∧
    (s.obsShown q (Susp.ofWords w)).rl L.OBS_PASSES q = (Susp.ofWords w).passes := by
  refine ⟨?_, ?_, ?_, ?_⟩
  · simp (disch := decide) only [State.obsShown, State.rl_wl_word, State.rl_wl_self]
    exact b2n_mod_two _
  · simp (disch := decide) only [State.obsShown, State.rl_wl_word, State.rl_wl_self]
    exact Nat.mod_eq_of_lt (bits_lt _ _ _)
  · simp (disch := decide) only [State.obsShown, State.rl_wl_word, State.rl_wl_self]
    exact Nat.mod_eq_of_lt (bits_lt _ _ _)
  · simp (disch := decide) only [State.obsShown, State.rl_wl_self]
    exact Nat.mod_eq_of_lt (bits_lt _ _ _)

theorem exec_retestAbandon_of_late {l : List Nat} {f : Nat} (hl : (s.gport q).retest = some l) (hf : (s.gport q).firstLaunch = some f)
    (hd : f + s.rl L.GNTF_CFG_RETEST_STEPS < s.rl L.GNTF_STEP q) : exec (.retestAbandon q) s =
      .next ((s.setGport q { s.gport q with retest := none, firstLaunch := none }).wl L.OBS_DUE 1 q) := by
  simp only [exec, execRetestAbandon, hl, hf]
  exact if_pos hd

end Suspect

/-- Settles O30: each row of the packages and of the suspects by the case of its test that the clause names. -/
theorem packagesAndSuspects : Obligations.PackagesAndSuspects := by
  unfold Obligations.PackagesAndSuspects
  refine ⟨?load, ?loadBusy, ?loadTarget, ?push, ?pushBusy, ?good, ?bad, ?notLoading, ?suspect, ?suspectTarget, ?abandon, ?noRetest, ?set,
    ?setTarget, ?clear, ?clearNone⟩
  case load => exact fun h b n s hc hr hl => cmdLam_of_eq (State.opGauntletLoad_of_free hc hr hl)
  case loadBusy => exact fun h b n s hc hb => cmdLam_of_eq (State.opGauntletLoad_of_busy hc hb)
  case loadTarget => exact fun h b n s hc => cmdLam_of_eq (if_pos (by simp [hc]))
  case push =>
    intro h off n bs s h0 hr ho hn hl
    have hlen : ((bs.map (· % 256)).take n).length = n := by simp [hn]
    obtain ⟨g, e⟩ := State.opGntPush_of_fits (bs := (bs.map (· % 256)).take n) hr (by rwa [hlen])
    refine ⟨(s.opGntPush off ((bs.map (· % 256)).take n)).1, ?_, ?_⟩
    · refine (congrArg (fun t : State => (.next (t.cmdLam { h with opcode := 0x39 } fun s => s.opGntPush (off % 2 ^ 32)
        ((bs.map (· % 256)).take n)) : Out)) (if_pos h0)).trans (cmdLam_of_eq ?_)
      rw [Nat.mod_eq_of_lt (by omega), e]
    · rw [e]
      refine ⟨?_, State.rl_wl_self _ _ _ _ _, rfl, s.itu_ddrPut _ _⟩
      simp (disch := decide) only [State.rl_wl_ne, State.rl_wl_self]
      rfl
  case pushBusy =>
    intro h off n bs s h0 hr
    refine (congrArg (fun t : State => (.next (t.cmdLam { h with opcode := 0x39 } fun s => s.opGntPush (off % 2 ^ 32)
      ((bs.map (· % 256)).take n)) : Out)) (if_pos h0)).trans (cmdLam_of_eq (if_pos ?_))
    exact Option.isSome_iff_ne_none.mpr hr
  case good =>
    intro p b n s hl hst hc
    refine .of_eq (exec_packageCheckDone_of_good hl hst hc) ⟨?_, ?_, rfl, rfl, rfl⟩
    · exact (State.rl_wl_ne _ _ _ _ _ _ _ _ (by decide)).trans (State.rl_wl_self _ _ _ _ _)
    · refine (State.rl_wl_ne _ _ _ _ _ _ _ _ (by decide)).trans ((State.rl_wl_ne _ _ _ _ _ _ _ _ (by decide)).trans ?_)
      exact s.rl_wl_self L.GNTF_STAT_LOAD_STATUS 1 0 0
  case bad => exact fun p b n s => exec_packageCheckDone_of_bad
  case notLoading => exact fun p s h => by simp only [exec, execPackageCheckDone, h]
  case suspect =>
    intro h q w s h0
    have due (F : Fld) (h1 : F.s1 = 0x10) (h2 : F.s2 = 0) (hb : 8 * F.addr + F.lo < 8 * L.OBS_DUE.addr + L.OBS_DUE.lo) :
        (s.opGntSuspect (q % 16) (Susp.ofWords w)).1.rl F (q % 16) = (s.obsShown (q % 16) (Susp.ofWords w)).rl F (q % 16) :=
      State.rl_opGntSuspect h0 F (Fld.key_ne_of_base _ _ _ _ h1 h2 hb.ne)
        (Fld.key_ne_of_base _ _ _ _ h1 h2 (hb.trans (by decide)).ne)
    obtain ⟨hs, ht, hl, hp⟩ := s.obsShown_shows (q := q % 16) w
    refine ⟨(s.opGntSuspect (q % 16) (Susp.ofWords w)).1, cmdLam_of_eq (Prod.ext rfl (State.opGntSuspect_snd h0)), ?_, ?_, ?_, ?_, ?_, ?_⟩
    · exact (due _ rfl rfl (by decide)).trans hs
    · exact (due _ rfl rfl (by decide)).trans ht
    · exact (due _ rfl rfl (by decide)).trans hl
    · exact (due _ rfl rfl (by decide)).trans hp
    · exact State.due_opGntSuspect h0
    · exact State.opGntSuspect_keeps State.itu h0 (fun _ _ => rfl) (fun _ _ => rfl) fun _ _ => rfl
  case suspectTarget => exact fun h q w s h0 => cmdLam_of_eq (if_pos h0)
  case abandon => exact fun q s l f => exec_retestAbandon_of_late
  case noRetest => exact fun q s h => by simp only [exec, execRetestAbandon, h]
  case set => exact fun h tb ld s hc => cmdLam_of_eq (if_neg (by simp [hc]))
  case setTarget => exact fun h tb ld s hc => cmdLam_of_eq (if_pos (by simp [hc]))
  case clear => exact fun h s hc hs => cmdLam_of_eq ((if_neg (by simp [hc])).trans (if_pos hs))
  case clearNone => exact fun h s hc hs => cmdLam_of_eq ((if_neg (by simp [hc])).trans (if_neg (by rw [hs]; exact Bool.false_ne_true)))

end Sys2Proof.Machine
end


section
/-! PROOFS. Barrier cells, references and stragglers (R228 to R235, R243). -/

namespace Sys2Proof.Machine

theorem LamSent.det {s t : State} (h : LamSent s t) (q : Nat) : t.det q = s.det q := by rw [State.det, h.1]; rfl
theorem LamSent.mc {s t : State} (h : LamSent s t) : t.mc .lam = s.mc .lam := by rw [h.1]; rfl
theorem State.det_setDet_self (s : State) (q : Nat) (v : DetPort) : (s.setDet q v).det q = v := getD_setNth_self ..

/-! An input of a barrier cell (R229, R230). -/

section Merge
variable {s : State} {c k leaf : Nat} {b : Bar} {src : Src}

theorem State.barMerge_of_twice {x : BarCell} (hf : s.findBar c k = some x) (ht : s.now .lam ≤ x.x + s.barClose)
    (hl : x.ins.any (fun i => i.1 == leaf) = true) : s.barMerge c k leaf b src = (s.il L.STAT_CNT_DUP, false) := by
  simp only [State.barMerge, hf]
  exact (if_neg ht.not_gt).trans (if_pos hl)

theorem State.barMerge_of_first (hf : s.findBar c k = none) (hc : s.barClosed c k = false) (ht : s.now .lam ≤ b.xMin + s.barClose)
    (hr : s.cellsScalar < 4096) :
    s.barMerge c k leaf b src = ((s.putBar { cohort := c, coll := k, ins := [(leaf, b)] }).il L.STAT_CNT_UPD, true) := by
  simp only [State.barMerge, hf]
  exact (if_neg fun h => h.elim (by simp [hc]) ht.not_gt).trans (if_pos hr)

/-- Two non-empty inputs joined: the later last entry is the one whose die is named. -/
theorem Bar.merge_shows {a b : Bar} (ha : a.n ≠ 0) (hb : b.n ≠ 0) : (a.merge b).n = a.n + b.n ∧ (a.merge b).eMin = min a.eMin b.eMin ∧
    (a.merge b).eMax = max a.eMax b.eMax ∧ (a.merge b).xMin = min a.xMin b.xMin ∧ (a.merge b).xMax = max a.xMax b.xMax ∧
    (a.merge b).e2nd = max (min a.eMax b.eMax) (max a.e2nd b.e2nd) ∧
    (a.merge b).arg = if b.eMax < a.eMax ∨ (a.eMax = b.eMax ∧ a.arg < b.arg) then a.arg else b.arg := by
  rw [Bar.merge, if_neg hb, if_neg ha]
  refine ⟨rfl, rfl, ?_, rfl, rfl, rfl, ?_⟩
  · simp only [Bool.or_eq_true, Bool.and_eq_true, decide_eq_true_eq]
    split <;> omega
  · simp only [Bool.or_eq_true, Bool.and_eq_true, decide_eq_true_eq]

end Merge

/-! A cell closes (R230, R231). -/

section Close
variable {s : State}

theorem exec_barrierCellClose_of_due {c k : Nat} {x : BarCell} (hf : s.findBar c k = some x) (hd : x.x + s.barClose ≤ s.now .lam)
    (hon : s.stragOn = true) : exec (.barrierCellClose c k) s = .next (s.closeBar x) := by
  simp only [exec, execBarrierCellClose, hf]
  exact if_pos ⟨hd, hon⟩

/-- The cell is out of the open ones and remembered before anything is sent; what is sent leaves both lists. -/
theorem State.closeBar_keeps {β : Type} (get : State → β) (c : BarCell) (hs : ∀ {a b : State}, LamSent a b → get b = get a)
    (hl : ∀ a : State, get (a.il L.DET_CNT_UNSCORED) = get a)
    (hc : ∀ (a : State) n e f, get { a with lam := { a.lam with tagSeq := n, egress := e }, freeN := f } = get a) :
    ∃ l, get (s.closeBar c) = get { s.dropBar c.cohort c.coll with lam := { (s.dropBar c.cohort c.coll).lam with
      barDone := l ++ [(c.cohort, c.coll, s.lam.clk.ns)] } } := by
  unfold State.closeBar
  extract_lets s1 kept lam s2 b b' scored ws s3
  refine ⟨kept, ?_⟩
  have h3 : get s3 = get s2 := hs (lamSent_lamRec ..)
  refine State.ite_keeps get ?_ h3
  obtain ⟨n, e, f, h⟩ := (if scored then s3 else s3.il L.DET_CNT_UNSCORED).cmdDown_eq .kids 0x28 4 c.cohort ws none
  rw [h, hc]
  exact State.ite_keeps get h3 ((hl s3).trans h3)

theorem State.closeBar_shows (c : BarCell) :
    (s.closeBar c).lam.barCells = s.lam.barCells.filter (fun d => !(d.cohort == c.cohort && d.coll == c.coll)) ∧
      (c.cohort, c.coll, s.lam.clk.ns) ∈ (s.closeBar c).lam.barDone ∧ (s.closeBar c).itu = s.itu := by
  refine ⟨?_, ?_, ?_⟩
  · obtain ⟨l, h⟩ := State.closeBar_keeps (s := s) (·.lam.barCells) c (fun h => by rw [h.1]) (fun _ => rfl) fun _ _ _ _ => rfl
    exact h
  · obtain ⟨l, h⟩ := State.closeBar_keeps (s := s) (·.lam.barDone) c (fun h => by rw [h.1]) (fun _ => rfl) fun _ _ _ _ => rfl
    rw [h]
    exact List.mem_append_right _ (List.mem_singleton_self _)
  · obtain ⟨l, h⟩ := State.closeBar_keeps (s := s) (·.itu) c LamSent.itu (fun _ => rfl) fun _ _ _ _ => rfl
    exact h

end Close

/-! A verdict said again, and entries that expire (R232, R243). -/

section Port
variable (s : State) (q : Nat)

theorem State.stragVerdict_shows : ((s.stragVerdict q).det q).saidMc = s.mc .lam ∧ ((s.stragVerdict q).det q).strag = (s.det q).strag ∧
    (s.stragVerdict q).itu = s.itu := by
  unfold State.stragVerdict
  extract_lets t k s1
  have h : LamSent s s1 := lamSent_lamEmit _ _ _ _ _ _
  have hd : ((s1.setDet q { s1.det q with saidMc := s1.mc .lam }).il L.DET_CNT_VERDICT).det q = { s1.det q with saidMc := s1.mc .lam } :=
    s1.det_setDet_self q _
  rw [hd]
  exact ⟨h.mc, by rw [← h.det q], h.itu⟩

theorem exec_pendingExpiry_of_port (hq : q < 16) : exec (.pendingExpiry q) s = .next ((s.setDet q { s.det q with
    pend := (s.det q).pend.filter fun p => !decide (p.x + s.rl L.DET_HOLD_MS * 1000000 ≤ s.now .lam) }).il L.DET_CNT_EXPIRED
      ((s.det q).pend.filter fun p => decide (p.x + s.rl L.DET_HOLD_MS * 1000000 ≤ s.now .lam)).length) := if_pos hq

end Port

/-- Settles O32: each row of the barrier cells and of the stragglers by the case of its test that the clause names. -/
theorem barrierCellsAndStragglers : Obligations.BarrierCellsAndStragglers := by
  unfold Obligations.BarrierCellsAndStragglers
  refine ⟨?partialRx, ?noPartial, ?twice, ?first, ?merge, ?close, ?noCell, ?closed, ?refOn, ?refOff, ?refTarget, ?refDomain, ?early,
    ?again, ?notAgain, ?expire, ?noPort, ?qref, ?qrefKept, ?qrefTarget, ?qrefDomain⟩
  case partialRx => exact fun e r s h0 ht hon => (if_pos ⟨h0, ht⟩).trans (congrArg Host.Outcome.next (if_pos hon))
  case noPartial =>
    intro e r s h
    show execBarPartialArrival e r s = _
    rw [execBarPartialArrival]
    split
    next hc => exact congrArg Host.Outcome.next (if_neg (by simp [h.resolve_left hc.1]))
    next => rfl
  case twice => exact fun s c k leaf b src x => State.barMerge_of_twice
  case first => exact fun s c k leaf b src => State.barMerge_of_first
  case merge => exact fun a b => Bar.merge_shows
  case close => exact fun c k s x => exec_barrierCellClose_of_due
  case noCell => exact fun c k s h => by simp only [exec, execBarrierCellClose, h]
  case closed => exact fun s c => State.closeBar_shows c
  case refOn =>
    exact fun h w s h0 hp hon => cmdLam_of_eq ((if_neg (not_not_intro h0)).trans ((if_neg (by simp [hp])).trans
      (congrArg (fun t : State => (t, ({} : CmdRes))) (if_pos hon))))
  case refOff =>
    exact fun h w s h0 hp hon => cmdLam_of_eq ((if_neg (not_not_intro h0)).trans ((if_neg (by simp [hp])).trans
      (congrArg (fun t : State => (t, ({} : CmdRes))) (if_neg (by simp [hon])))))
  case refTarget => exact fun h w s h0 => cmdLam_of_eq (if_pos h0)
  case refDomain => exact fun h w s h0 hp => cmdLam_of_eq ((if_neg (not_not_intro h0)).trans (if_pos (by simp [hp])))
  case early => exact fun s t h => if_pos h
  case again => exact fun q s hq hst hd => .of_eq (if_pos ⟨hq, hst, hd⟩) (s.stragVerdict_shows q)
  case notAgain => exact fun q s h => if_neg fun hc => h.elim hc.1.not_ge hc.2.2.not_gt
  case expire =>
    intro q s hq
    refine .of_eq (exec_pendingExpiry_of_port s q hq) ⟨(congrArg DetPort.pend (s.det_setDet_self q _)).trans ?_, rfl⟩
    exact List.filter_congr fun p _ => decide_not.symm.trans (decide_eq_decide.mpr not_le)
  case noPort => exact fun q s hq => if_neg hq.not_gt
  case qref => exact fun h w s h0 hp => cmdLam_of_eq ((if_neg (not_not_intro h0)).trans (if_neg (by simp [hp])))
  case qrefKept => exact fun s w => ⟨_, rfl, rfl, rfl, rfl, rfl, rfl, rfl, rfl⟩
  case qrefTarget => exact fun h w s h0 => cmdLam_of_eq (if_pos h0)
  case qrefDomain => exact fun h w s h0 hp => cmdLam_of_eq ((if_neg (not_not_intro h0)).trans (if_pos (by simp [hp])))

end Sys2Proof.Machine
end


section
/-! PROOFS. The ledger's buckets in the Lamulo: reports, fills, sums and strands (R344 to R347, R352, R354). -/

namespace Sys2Proof.Machine

/-! What the shared operations leave. -/

section Keeps
variable (s : State)

theorem State.ldg_ldgRefresh : s.ldgRefresh.lam.ldg = s.lam.ldg := rfl
theorem State.itu_ldgRefresh : s.ldgRefresh.itu = s.itu := rfl
theorem State.ldgPort_ldgRefresh (q : Nat) : s.ldgRefresh.ldgPort q = s.ldgPort q := rfl
theorem State.ldgPort_setLdgPort_self (q : Nat) (p : LdgPort) : (s.setLdgPort q p).ldgPort q = p := getD_setNth_self ..
theorem State.ldgPort_setLdgPort_ne (q k : Nat) (p : LdgPort) (h : k ≠ q) : (s.setLdgPort q p).ldgPort k = s.ldgPort k := getD_setNth_ne _ _ _ _ _ h

/-- The registers of the ports stand above those that a refresh brings up to date. -/
theorem State.rl_ldgRefresh (F : Fld) (i j : Nat) (h : 8 * 0x30054 ≤ F.key i j) : s.ldgRefresh.rl F i j = s.rl F i j := by
  have ne (G : Fld) (hG : G.key 0 0 < 8 * 0x30054) : F.key i j ≠ G.key 0 0 := (hG.trans_le h).ne'
  rw [State.ldgRefresh]
  simp only [State.rl_wl_ne _ _ _ _ _ _ _ _ (ne L.LDGF_ENV (by decide)), State.rl_wl_ne _ _ _ _ _ _ _ _ (ne L.LDGF_SUM_LEVEL (by decide)),
    State.rl_wl_ne _ _ _ _ _ _ _ _ (ne L.LDGF_SUM_FLOOR (by decide)), State.rl_wl_ne _ _ _ _ _ _ _ _ (ne L.LDGF_SUM_CEIL (by decide)),
    State.rl_wl_ne _ _ _ _ _ _ _ _ (ne L.LDGF_SUM_MEAN (by decide)), State.rl_wl_ne _ _ _ _ _ _ _ _ (ne L.LDGF_LIVE (by decide)),
    State.rl_wl_ne _ _ _ _ _ _ _ _ (ne L.LDGF_FROZEN (by decide)), State.rl_wl_ne _ _ _ _ _ _ _ _ (ne L.LDGF_HELD_UP (by decide)),
    State.rl_wl_ne _ _ _ _ _ _ _ _ (ne L.LDGF_HELD_DN (by decide)), State.rl_wl_ne _ _ _ _ _ _ _ _ (ne L.LDGF_STAT_STRANDED (by decide))]

variable {s} in
/-- Whether the ledger runs is not said by its own registers. -/
theorem State.ldgOn_congr {t : State} (h : ∀ F : Fld, F.key 0 0 < 8 * 0x30004 → t.rl F = s.rl F) (hm : t.lam.mzc = s.lam.mzc) :
    t.ldgOn = s.ldgOn := by
  simp only [State.ldgOn, State.pdOn, State.isStandby, State.role, h L.LDGF_CTL_ENABLE (by decide), h L.PD_STAT (by decide),
    h L.LAM_STRAP_ROLE (by decide), h L.LAM_STRAP_STANDBY (by decide), hm]

/-- The spending that a report shows changes the ledger alone: the baseline of the port, and the node's sums (R347). -/
theorem State.countSpent_eq (q : Nat) (p : LdgPort) (ws : List Nat) : ∃ g b, s.countSpent q p ws = s.setLdg g ∧
    g.ports.getD q {} = { s.ldgPort q with base := b } := by
  unfold State.countSpent
  extract_lets lv tr qd base
  clear_value base
  cases base with
  | none => exact ⟨_, some (lv, tr), rfl, getD_setNth_self ..⟩
  | some b => exact ⟨_, some (lv, tr), rfl, getD_setNth_self ..⟩

end Keeps

/-! A report of a die (R345, R347). -/

section Report
variable (s : State) (q : Nat) (ws : List Nat)

/-- The registers of a port show its report. -/
def State.reportShown : State :=
  ((((((s.wl L.LDGF_PORT_LEVEL (bits (nth ws 1) 0 16) q).wl L.LDGF_PORT_LIVE (b2n (bits (nth ws 5) 0 2 == 1)) q).wl L.LDGF_PORT_FROZEN
    (b2n (bits (nth ws 5) 2 7 != 0)) q).wl L.LDGF_PORT_TOK_UP (bits (nth ws 4) 0 8) q).wl L.LDGF_PORT_TOK_DN (bits (nth ws 4) 8 8) q).wl
    L.LDGF_PORT_TOK_TR (bits (nth ws 4) 16 8) q).il L.LDGF_CNT_FORFEIT_W (bits (nth ws 5) 14 8 * bits (nth ws 7) 0 16)

theorem Fld.port_ne_forfeit (F : Fld) (h : 0x30100 ≤ F.addr) : F.key q 0 ≠ L.LDGF_CNT_FORFEIT_W.key 0 0 := by
  simp only [Fld.key, L.LDGF_CNT_FORFEIT_W]
  omega

theorem State.reportShown_level : (s.reportShown q ws).rl L.LDGF_PORT_LEVEL q = bits (nth ws 1) 0 16 := by
  rw [State.reportShown, State.rl_il_ne _ _ _ _ _ _ _ _ (Fld.port_ne_forfeit _ _ (by decide))]
  simp (disch := decide) only [State.rl_wl_word, State.rl_wl_self]
  exact Nat.mod_eq_of_lt (bits_lt _ _ _)
theorem State.reportShown_live : (s.reportShown q ws).rl L.LDGF_PORT_LIVE q = b2n (bits (nth ws 5) 0 2 == 1) := by
  rw [State.reportShown, State.rl_il_ne _ _ _ _ _ _ _ _ (Fld.port_ne_forfeit _ _ (by decide))]
  simp (disch := decide) only [State.rl_wl_word, State.rl_wl_self]
  exact b2n_mod_two _
theorem State.reportShown_tokUp : (s.reportShown q ws).rl L.LDGF_PORT_TOK_UP q = bits (nth ws 4) 0 8 := by
  rw [State.reportShown, State.rl_il_ne _ _ _ _ _ _ _ _ (Fld.port_ne_forfeit _ _ (by decide))]
  simp (disch := decide) only [State.rl_wl_word, State.rl_wl_self]
  exact Nat.mod_eq_of_lt (bits_lt _ _ _)
theorem State.reportShown_tokDn : (s.reportShown q ws).rl L.LDGF_PORT_TOK_DN q = bits (nth ws 4) 8 8 := by
  rw [State.reportShown, State.rl_il_ne _ _ _ _ _ _ _ _ (Fld.port_ne_forfeit _ _ (by decide))]
  simp (disch := decide) only [State.rl_wl_word, State.rl_wl_self]
  exact Nat.mod_eq_of_lt (bits_lt _ _ _)

/-- The registers below the ledger's do not change. -/
theorem State.reportShown_below (F : Fld) (h : F.key 0 0 < 8 * 0x30004) : (s.reportShown q ws).rl F = s.rl F := by
  have port (G : Fld) (hG : 0x30100 ≤ G.addr) : F.key 0 0 ≠ G.key q 0 := by
    simp only [Fld.key] at h ⊢
    omega
  rw [State.reportShown, State.rl_il_ne _ _ _ _ _ _ _ _ (h.trans (by decide)).ne]
  simp only [State.rl_wl_ne _ _ _ _ _ _ _ _ (port L.LDGF_PORT_LEVEL (by decide)), State.rl_wl_ne _ _ _ _ _ _ _ _ (port L.LDGF_PORT_LIVE (by decide)),
    State.rl_wl_ne _ _ _ _ _ _ _ _ (port L.LDGF_PORT_FROZEN (by decide)), State.rl_wl_ne _ _ _ _ _ _ _ _ (port L.LDGF_PORT_TOK_UP (by decide)),
    State.rl_wl_ne _ _ _ _ _ _ _ _ (port L.LDGF_PORT_TOK_DN (by decide)), State.rl_wl_ne _ _ _ _ _ _ _ _ (port L.LDGF_PORT_TOK_TR (by decide))]

variable {s q ws} in
/-- A report is taken: shown in the port's registers and kept as its last; then it is answered where the ledger runs. -/
theorem State.reportRx_of_report (hm : ldgIs ws 1 8 = true) (h0 : s.role = 0) : ∃ (u : State) (p : LdgPort) (b : Bool),
    s.reportRx q ws = (if s.ldgOn then u.answer q p ws b else u).ldgRefresh ∧ u.ldgPort q = p ∧ p.rep = ws ∧
      p.seq = (s.ldgPort q).seq ∧ u.itu = s.itu ∧ ∀ F i, u.rl F i = (s.reportShown q ws).rl F i := by
  have e : s.reportRx q ws = _ := (if_neg (by simp [hm])).trans (if_neg (not_not_intro h0))
  rw [e]
  extract_lets p qd done applied fz lv d s1 s2 s3 s4 s5 src pp u
  obtain ⟨g, b, he, hg⟩ := s4.countSpent_eq q p ws
  have h5 : s5 = s4.setLdg g := he
  have hregs : ∀ F i, u.rl F i = (s.reportShown q ws).rl F i := by
    intro F i
    show s5.rl F i = _
    rw [h5]
    rfl
  have hon : u.ldgOn = s.ldgOn :=
    State.ldgOn_congr (fun F hF => (hregs F 0).trans (s.reportShown_below q ws F hF)) (by
      show s5.lam.mzc = _
      rw [h5]
      rfl)
  refine ⟨u, pp, applied, by rw [hon], State.ldgPort_setLdgPort_self _ _ _, rfl, ?_, ?_, hregs⟩
  · have hp : s5.ldgPort q = { s4.ldgPort q with base := b } := (congrArg (fun t : State => t.ldgPort q) h5).trans hg
    show (s5.ldgPort q).seq = _
    rw [hp]
    rfl
  · show s5.itu = _
    rw [h5]
    rfl

variable {s q ws} in
/-- The answer to a report leaves the port's registers, and numbers the grant (R345). -/
theorem State.answer_shows {p : LdgPort} {b : Bool} : (s.answer q p ws b).rl L.LDGF_PORT_LEVEL q = s.rl L.LDGF_PORT_LEVEL q ∧
    ((s.answer q p ws b).ldgPort q).seq = (p.seq + 1) % 65536 ∧ (s.answer q p ws b).itu = s.itu := by
  unfold State.answer
  extract_lets why frozen clears ends k give qd g tok up dn seq msg s1 src s2 k'
  refine ⟨?_, ?_, rfl⟩
  · have ne (G : Fld) (h1 : G.s1 = 0) (h2 : G.s2 = 0) (hG : G.addr < 0x30100) (hl : G.lo < 8) : L.LDGF_PORT_LEVEL.key q 0 ≠ G.key 0 0 := by
      simp only [Fld.key, L.LDGF_PORT_LEVEL, h1, h2]
      omega
    refine (State.rl_il_ne _ _ _ _ _ _ _ _ (ne L.LDGF_CNT_GRANT rfl rfl (by decide) (by decide))).trans ?_
    refine (State.rl_wl_ne _ _ _ _ _ _ _ _ (ne L.LDGF_LEVEL_DN rfl rfl (by decide) (by decide))).trans ?_
    exact State.rl_wl_ne _ _ _ _ _ _ _ _ (ne L.LDGF_LEVEL_UP rfl rfl (by decide) (by decide))
  · exact congrArg LdgPort.seq (State.ldgPort_setLdgPort_self _ _ _)

end Report

/-! Fills (R344), sums of children (R346), strands (R346) and the division of credit. -/

section Fill
variable {s : State} {ws : List Nat}

theorem State.fillRx_of_fill (hm : ldgIs ws 3 4 = true) (hr : s.role ≠ 3) (hon : s.ldgOn = true) : s.fillRx ws =
    if nth ws 3 = s.mc32 .lam ∧ s.lam.ldg.divMc ≠ some (s.mc .lam)
    then ((s.ldgAdd (nth ws 1) (nth ws 2)).setLdg { (s.ldgAdd (nth ws 1) (nth ws 2)).lam.ldg with fillSeq := ldgSeq ws }).ldgDivide
    else ((s.ldgAdd (nth ws 1) (nth ws 2)).setLdg { (s.ldgAdd (nth ws 1) (nth ws 2)).lam.ldg with fillSeq := ldgSeq ws }).ldgRefresh :=
  (if_neg (by simp [hm])).trans (if_neg fun h => h.elim hr (by simp [hon]))

/-- Credit for which the burst has room is added whole (R344). -/
theorem State.rl_addCredit {s : State} {lv bu : Fld} {n : Nat} (hw : lv.width = 32) (h : s.rl lv + n ≤ s.rl bu) (hb : s.rl bu < 2 ^ 32)
    (hne : lv.key 0 0 ≠ L.LDGF_CNT_FORFEIT_W.key 0 0) (hf : s.rl L.LDGF_CNT_FORFEIT_W < 2 ^ 32) :
    let t := (s.wl lv (s.rl lv + min n (s.rl bu - s.rl lv))).il L.LDGF_CNT_FORFEIT_W (n - min n (s.rl bu - s.rl lv))
    t.rl lv = s.rl lv + n ∧ t.rl L.LDGF_CNT_FORFEIT_W = s.rl L.LDGF_CNT_FORFEIT_W := by
  have hmin : min n (s.rl bu - s.rl lv) = n := by omega
  simp only [hmin, Nat.sub_self]
  constructor
  · rw [State.rl_il_ne _ _ _ _ _ _ _ _ hne, State.rl_wl_self, hw]
    exact Nat.mod_eq_of_lt (by omega)
  · rw [State.rl_il_self, State.rl_wl_ne _ _ _ _ _ _ _ _ hne.symm, Nat.add_zero]
    have hs : satN 32 (s.rl L.LDGF_CNT_FORFEIT_W) = s.rl L.LDGF_CNT_FORFEIT_W := Nat.min_eq_left (by omega)
    exact (congrArg (· % 2 ^ 32) hs).trans (Nat.mod_eq_of_lt hf)

theorem State.sumRx_of_sum {p : Nat} (hm : ldgIs ws 4 14 = true) (hr : s.role ≠ 0) (hon : s.ldgOn = true) : ∃ c : LdgChild,
    s.sumRx p ws = (s.setLdg { s.lam.ldg with kids := s.lam.ldg.kids.filter (fun k => k.port != p) ++ [c] }).ldgRefresh ∧
      c.port = p ∧ c.sum = ws ∧ c.sumMc = s.mc .lam ∧ c.lostMc = none := by
  refine ⟨_, (if_neg (by simp [hm])).trans (if_neg fun h => h.elim hr (by simp [hon])), ?_, rfl, rfl, rfl⟩
  show ((s.lam.ldg.kids.find? fun c => c.port == p).getD { port := p }).port = p
  cases hf : s.lam.ldg.kids.find? fun c => c.port == p with
  | none => rfl
  | some c => exact beq_iff_eq.mp (List.find?_some (p := fun c : LdgChild => c.port == p) hf)

theorem exec_strandExpiry_of_due {c m : Nat} (h0 : s.role = 0) (hl : (s.ldgPort c).lostMc = some m)
    (hd : m + s.rl L.LDGF_DIE_STRAND_MC ≤ s.mc .lam) : ∃ r, exec (.strandExpiry c) s =
      .next (s.setLdgPort c { s.ldgPort c with lostMc := none, pend := [], rep := r }).ldgRefresh := by
  refine ⟨_, (if_pos h0).trans (if_pos ?_)⟩
  simp only [hl]
  exact decide_eq_true hd

theorem exec_strandExpiry_of_early {c m : Nat} (h0 : s.role = 0) (hl : (s.ldgPort c).lostMc = some m)
    (hd : s.mc .lam < m + s.rl L.LDGF_DIE_STRAND_MC) : exec (.strandExpiry c) s = .next s := by
  refine (if_pos h0).trans (if_neg ?_)
  simp only [hl, decide_eq_true_eq]
  exact hd.not_ge

theorem exec_strandExpiry_of_present {c : Nat} (h0 : s.role = 0) (hl : (s.ldgPort c).lostMc = none) : exec (.strandExpiry c) s = .next s := by
  refine (if_pos h0).trans (if_neg ?_)
  simp only [hl, Bool.false_eq_true, not_false_eq_true]

/-- At a Tray the level is shared among the ports whose dies are LIVE (R345). -/
theorem State.ldgDivide_of_tray (h0 : s.role = 0) : s.ldgDivide = (s.setLdg { s.lam.ldg with
    divMc := some (s.mc .lam)
    shareUp := if (s.lam.ldg.ports.filter LdgPort.live).length = 0 then 0 else s.rl L.LDGF_LEVEL_UP / (s.lam.ldg.ports.filter LdgPort.live).length
    shareDn := if (s.lam.ldg.ports.filter LdgPort.live).length = 0 then 0
      else s.rl L.LDGF_LEVEL_DN / (s.lam.ldg.ports.filter LdgPort.live).length }).ldgRefresh := if_pos h0

end Fill

/-- Settles O33: each row of the ledger's node by the case of its test that the clause names. -/
theorem ledgerNodesTakeReportsAndFills : Obligations.LedgerNodesTakeReportsAndFills := by
  unfold Obligations.LedgerNodesTakeReportsAndFills
  refine ⟨?report, ?answered, ?badReport, ?notTray, ?divide, ?refresh, ?badFill, ?noFill, ?add, ?sum, ?badSum, ?noSum, ?strand, ?early,
    ?present, ?fillWait, ?notYet, ?share⟩
  case report =>
    intro q w s hm h0 hoff
    obtain ⟨u, p, b, e, hp, hrep, -, hitu, hregs⟩ := State.reportRx_of_report (q := q % 16) hm h0
    have er : s.reportRx (q % 16) w = u.ldgRefresh := e.trans (congrArg State.ldgRefresh (if_neg (by simp [hoff])))
    have hr (F : Fld) (hF : 0x30100 ≤ F.addr) : u.ldgRefresh.rl F (q % 16) = (s.reportShown (q % 16) w).rl F (q % 16) :=
      (u.rl_ldgRefresh F _ _ (by simp only [Fld.key]; omega)).trans (hregs F _)
    refine .of_eq (congrArg Host.Outcome.next er) ⟨?_, ?_, ?_, ?_, by rw [State.ldgPort_ldgRefresh, hp, hrep],
      u.itu_ldgRefresh.trans hitu⟩
    · exact (hr _ (by decide)).trans (s.reportShown_level _ _)
    · exact (hr _ (by decide)).trans (s.reportShown_tokUp _ _)
    · exact (hr _ (by decide)).trans (s.reportShown_tokDn _ _)
    · exact (hr _ (by decide)).trans (s.reportShown_live _ _)
  case answered =>
    intro q w s hm h0 hon
    obtain ⟨u, p, b, e, -, -, hseq, hitu, hregs⟩ := State.reportRx_of_report (q := q % 16) hm h0
    have er : s.reportRx (q % 16) w = (u.answer (q % 16) p w b).ldgRefresh := e.trans (congrArg State.ldgRefresh (if_pos hon))
    obtain ⟨h1, h2, h3⟩ := State.answer_shows (s := u) (q := q % 16) (ws := w) (p := p) (b := b)
    refine .of_eq (congrArg Host.Outcome.next er) ⟨?_, by rw [State.ldgPort_ldgRefresh, h2, hseq],
      (State.itu_ldgRefresh _).trans (h3.trans hitu)⟩
    exact (State.rl_ldgRefresh _ _ _ _ (by simp only [Fld.key, L.LDGF_PORT_LEVEL]; omega)).trans
      (h1.trans ((hregs _ _).trans (s.reportShown_level _ _)))
  case badReport => exact fun q w s hm => congrArg Host.Outcome.next (if_pos (by simp [hm]))
  case notTray => exact fun q w s hm h0 => congrArg Host.Outcome.next ((if_neg (by simp [hm])).trans (if_pos h0))
  case divide =>
    exact fun w s hm hr hon hw hd => congrArg Host.Outcome.next ((State.fillRx_of_fill hm hr hon).trans (if_pos ⟨hw, hd⟩))
  case refresh =>
    exact fun w s hm hr hon hw => congrArg Host.Outcome.next ((State.fillRx_of_fill hm hr hon).trans (if_neg fun h => hw h.1))
  case badFill => exact fun w s hm => congrArg Host.Outcome.next (if_pos (by simp [hm]))
  case noFill =>
    exact fun w s hm h => congrArg Host.Outcome.next ((if_neg (by simp [hm])).trans (if_pos (h.imp_right fun h => by simp [h])))
  case add =>
    intro s up dn hup hdn hbu hbd hf
    let t := (s.wl L.LDGF_LEVEL_UP (s.rl L.LDGF_LEVEL_UP + min up (s.rl L.LDGF_BURST_UP - s.rl L.LDGF_LEVEL_UP))).il L.LDGF_CNT_FORFEIT_W
      (up - min up (s.rl L.LDGF_BURST_UP - s.rl L.LDGF_LEVEL_UP))
    have keep (F : Fld) (h1 : F.key 0 0 ≠ L.LDGF_LEVEL_UP.key 0 0) (h2 : F.key 0 0 ≠ L.LDGF_CNT_FORFEIT_W.key 0 0) : t.rl F = s.rl F :=
      (State.rl_il_ne _ _ _ _ _ _ _ _ h2).trans (State.rl_wl_ne _ _ _ _ _ _ _ _ h1)
    have hlv : t.rl L.LDGF_LEVEL_DN = s.rl L.LDGF_LEVEL_DN := keep _ (by decide) (by decide)
    have hbu' : t.rl L.LDGF_BURST_DN = s.rl L.LDGF_BURST_DN := keep _ (by decide) (by decide)
    obtain ⟨h1, h2⟩ := State.rl_addCredit (s := s) (n := up) (lv := L.LDGF_LEVEL_UP) (bu := L.LDGF_BURST_UP) rfl hup hbu (by decide) hf
    obtain ⟨h3, h4⟩ := State.rl_addCredit (s := t) (n := dn) (lv := L.LDGF_LEVEL_DN) (bu := L.LDGF_BURST_DN) rfl (by rwa [hlv, hbu'])
      (by rwa [hbu']) (by decide) (h2.trans_lt hf)
    refine ⟨?_, h3.trans (by rw [hlv]), h4.trans h2⟩
    exact (State.rl_il_ne _ _ _ _ _ _ _ _ (by decide)).trans ((State.rl_wl_ne _ _ _ _ _ _ _ _ (by decide)).trans h1)
  case sum =>
    intro p w s hm hr hon
    obtain ⟨c, e, h1, h2, h3, h4⟩ := State.sumRx_of_sum (p := p) hm hr hon
    refine .of_eq (congrArg Host.Outcome.next e) ⟨⟨c, List.mem_append_right _ (List.mem_singleton_self c), h1, h2, h3, h4⟩, ?_, rfl⟩
    show (s.lam.ldg.kids.filter (fun k => k.port != p) ++ [c]).filter (fun k => k.port != p) = _
    simp [h1]
  case badSum => exact fun p w s hm => congrArg Host.Outcome.next (if_pos (by simp [hm]))
  case noSum =>
    exact fun p w s hm h => congrArg Host.Outcome.next ((if_neg (by simp [hm])).trans (if_pos (h.imp_right fun h => by simp [h])))
  case strand =>
    intro c m s h0 hl hd
    obtain ⟨r, e⟩ := exec_strandExpiry_of_due h0 hl hd
    refine .of_eq e ⟨?_, ?_, fun k hk => ?_, State.itu_ldgRefresh _⟩
    · rw [State.ldgPort_ldgRefresh, State.ldgPort_setLdgPort_self]
    · rw [State.ldgPort_ldgRefresh, State.ldgPort_setLdgPort_self]
    · rw [State.ldgPort_ldgRefresh, State.ldgPort_setLdgPort_ne _ _ _ _ hk]
  case early => exact fun c m s => exec_strandExpiry_of_early
  case present => exact fun c s => exec_strandExpiry_of_present
  case fillWait =>
    intro s a ha hr hon hd hlate
    simp only [exec, execFillWaitTimeout, ha]
    exact if_pos ⟨hr, hon, hd, hlate⟩
  case notYet =>
    intro s a ha hearly
    simp only [exec, execFillWaitTimeout, ha]
    exact if_neg fun h => hearly.not_ge h.2.2.2
  case share =>
    intro s h0
    rw [State.ldgDivide_of_tray h0, State.ldg_ldgRefresh, State.itu_ldgRefresh]
    exact ⟨rfl, rfl, rfl⟩

end Sys2Proof.Machine
end


section
/-! PROOFS. The forest engine's passes, faults, loads and banks (R261 to R263, R267, R269, R271, R273 to R276). -/

namespace Sys2Proof.Machine

section Slot
variable (s : State) (i : Nat)

theorem State.fslot_setFslot_self (f : FSlot) : (s.setFslot i f).fslot i = f := getD_setNth_self ..
theorem State.fslot_setFslot_ne (j : Nat) (f : FSlot) (h : i ≠ j) : (s.setFslot j f).fslot i = s.fslot i := getD_setNth_ne _ _ _ _ _ h
theorem State.rl_setFslot (f : FSlot) (F : Fld) (j k : Nat) : (s.setFslot i f).rl F j k = s.rl F j k := rfl
theorem LamSent.fslot {s t : State} (h : LamSent s t) : t.fslot i = s.fslot i := by rw [h.1]; rfl

/-- A slot but for what the round robin counts in it. -/
def State.fslotRest : FSlot := { s.fslot i with deficit := 0 }

/-- The round robin gives slots their weights, and changes nothing else (R269). -/
theorem State.nextSeg_keeps {β : Type} (get : State → β)
    (h : ∀ (u : State) j d, get (u.setFslot j { u.fslot j with deficit := d }) = get u) : get s.nextSeg.2 = get s := by
  unfold State.nextSeg
  extract_lets c need
  split
  next => rfl
  next r _ =>
    extract_lets t ready l
    refine State.foldl_keeps get ?_ _ s
    exact fun u j => h u j _

theorem State.pickSeg_keeps {β : Type} (get : State → β) (h : ∀ (u : State) j d, get (u.setFslot j { u.fslot j with deficit := d }) = get u)
    (hr : ∀ (u : State) r l, get { u with lam := { u.lam with fst := { u.lam.fst with run := r, last := l } } } = get u) :
    get s.pickSeg = get s := by
  rw [State.pickSeg]
  split
  · rfl
  · have hn := s.nextSeg_keeps get h
    split
    next j s' e =>
      rw [e] at hn
      split
      · exact (hr _ _ _).trans hn
      · rfl
    next => rfl

theorem State.fslotRest_deficit (u : State) (j : Nat) (d : Int) : (u.setFslot j { u.fslot j with deficit := d }).fslotRest i = u.fslotRest i := by
  by_cases h : i = j
  · subst h
    rw [State.fslotRest, u.fslot_setFslot_self]
    rfl
  · rw [State.fslotRest, u.fslot_setFslot_ne i j _ h]
    rfl

theorem State.fslotRest_pickSeg : s.pickSeg.fslotRest i = s.fslotRest i :=
  s.pickSeg_keeps (·.fslotRest i) (fun u j d => State.fslotRest_deficit i u j d) fun _ _ _ => rfl

end Slot

/-! Passes (R269, R271). -/

section Pass
variable {s : State} {i c : Nat} {p : FPass}

theorem exec_forestPassStart_of_next {v : FVec} {l : List FVec} (hi : i < 64) (hr : s.lam.fst.run = none) (hn : s.nextSeg.1 = some i)
    (hp : (s.fslot i).pass = none) (hb : s.batch i = v :: l) : exec (.forestPassStart i) s =
      .next { s.nextSeg.2 with lam := { s.nextSeg.2.lam with fst := { s.nextSeg.2.lam.fst with
        slots := setNth {} s.nextSeg.2.lam.fst.slots i { s.nextSeg.2.fslot i with
          pass := some { vecs := v :: l, swaps := v.swaps }
          queue := (s.nextSeg.2.fslot i).queue.drop (l.length + 1) }
        run := some i
        last := i } } } := by
  show execForestPassStart i s = _
  rw [execForestPassStart, if_pos ⟨hi, hr, hn, hp⟩]
  simp only [hb]
  rfl

theorem exec_forestSegmentEnd_of_running (hp : (s.fslot i).pass = some p) (hr : s.lam.fst.run = some i) : exec (.forestSegmentEnd i c) s =
    .next (State.pickSeg { s with lam := { s.lam with fst := { s.lam.fst with
      slots := setNth {} s.lam.fst.slots i { s.fslot i with pass := some { p with done := p.done + 1 }, deficit := (s.fslot i).deficit - c }
      run := none } } }) := by
  simp only [exec, execForestSegmentEnd, hp]
  exact if_pos hr

theorem exec_forestSegmentEnd_of_other (h : (s.fslot i).pass = none ∨ s.lam.fst.run ≠ some i) : exec (.forestSegmentEnd i c) s = .next s := by
  simp only [exec, execForestSegmentEnd]
  split
  next p hp => exact if_neg (h.resolve_left (by simp [hp]))
  next => rfl

theorem exec_forestPassEnd_of_done {b : FBank} (hp : (s.fslot i).pass = some p) (hb : s.fbank i p.swaps = some b) (hd : b.segs ≤ p.done)
    (hc : s.treesClean i b = true) : ∃ u : State,
      u = p.vecs.foldl (fun t x => t.scoreVec i b (s.imgAt b.base b.img.length != b.img) x) s ∧
      exec (.forestPassEnd i) s = .next (u.setFslot i { u.fslot i with pass := none }).pickSeg := by
  refine ⟨_, rfl, ?_⟩
  simp only [exec, execForestPassEnd, hp, hb]
  exact if_pos ⟨hd, hc⟩

end Pass

/-! A fault (R273). -/

section Fault
variable {s : State} {i k : Nat}

/-- The slot and the status of the engine as a fault leaves them, before its record and the next segment. -/
def State.faulted (s : State) (i n : Nat) (r : Option Nat) : State :=
  ((({ s with lam := { s.lam with fst := { s.lam.fst with
      slots := setNth {} s.lam.fst.slots i { s.fslot i with pass := none, retiring := none, queue := [] }
      run := r } } } : State).il L.FST_CNT_FAULT_DROP n).wl L.FST_STAT_FAULT 1).wl L.FST_SLOT_STAT_STATE fstFault i

theorem State.fslot_faulted (n : Nat) (r : Option Nat) :
    (s.faulted i n r).fslot i = { s.fslot i with pass := none, retiring := none, queue := [] } := getD_setNth_self ..

theorem exec_forestFault_of_running (hi : i < 64) (hk : k < 3) (hst : s.rl L.FST_SLOT_STAT_STATE i = 1 ∨ s.rl L.FST_SLOT_STAT_STATE i = 2) :
    ∃ n r c, exec (.forestFault i k) s = .next ((s.faulted i n r).forestEvent i 1 k 0 c).pickSeg :=
  ⟨_, _, _, if_pos ⟨hi, hk, hst⟩⟩

end Fault

/-! Loads and banks (R274 to R276). -/

section Load
variable {s : State} {i b n : Nat} {p : Bool}

theorem State.opForestLoad_of_free (hon : s.forestOn = true) (hr : (s.fslot i).retiring = none) (hl : (s.fslot i).loading = none) :
    s.opForestLoad i b n = (((s.setFslot i { s.fslot i with shadow := none, loading := some (b, n) }).wl L.FST_SLOT_STAT_SHADOW 1 i).wl
      L.FST_SLOT_MODEL_SHADOW 0 i, {}) := (if_neg (by simp [hon])).trans (if_neg (by simp [hr, hl]))

theorem State.opForestLoad_of_busy (hon : s.forestOn = true) (h : (s.fslot i).retiring ≠ none ∨ (s.fslot i).loading ≠ none) :
    s.opForestLoad i b n = (s, { status := St.busy }) := by
  refine (if_neg (by simp [hon])).trans (if_pos ?_)
  simpa [Option.isSome_iff_ne_none] using h

/-- Pinning changes where a bank's trees lie, not its image. -/
theorem State.pin_keeps (s : State) (x : FBank) : (s.pin x).img = x.img ∧ (s.pin x).base = x.base := by
  unfold State.pin
  extract_lets room keep n
  split
  · exact ⟨rfl, rfl⟩
  · exact ⟨rfl, rfl⟩

theorem exec_forestLoadDone_of_bad (hl : (s.fslot i).loading = some (b, n)) (hst : s.loadStatus b n p ≠ 1) : exec (.forestLoadDone i p) s =
    .next (((s.wl L.FST_SLOT_STAT_LOAD_STATUS (s.loadStatus b n p) i).setFslot i
      { s.fslot i with loading := none, shadow := none }).wl L.FST_SLOT_STAT_SHADOW 3 i) := by
  simp only [exec, execForestLoadDone, hl]
  exact if_neg hst

theorem exec_forestLoadDone_of_good (hl : (s.fslot i).loading = some (b, n)) (hst : s.loadStatus b n p = 1) :
    ∃ x : FBank, x.img = s.imgAt b n ∧ x.base = b ∧ exec (.forestLoadDone i p) s =
      .next ((((s.wl L.FST_SLOT_STAT_LOAD_STATUS 1 i).setFslot i { s.fslot i with loading := none, shadow := some x }).wl
        L.FST_SLOT_STAT_SHADOW 2 i).wl L.FST_SLOT_MODEL_SHADOW (s.imgAt b n).model i) := by
  let t := s.wl L.FST_SLOT_STAT_LOAD_STATUS 1 i
  have hk := t.pin_keeps { img := s.imgAt b n, base := b }
  refine ⟨if t.rl L.FST_SLOT_CFG_PIN i = 1 then t.pin { img := s.imgAt b n, base := b } else { img := s.imgAt b n, base := b }, ?_, ?_, ?_⟩
  · split
    · exact hk.1
    · rfl
  · split
    · exact hk.2
    · rfl
  · simp only [exec, execForestLoadDone, hl, hst, if_true]
    rfl

end Load

/-- Settles O34: each row of the forest engine by the case of its test that the clause names. -/
theorem forestPassesFaultsAndLoads : Obligations.ForestPassesFaultsAndLoads := by
  unfold Obligations.ForestPassesFaultsAndLoads
  refine ⟨?passStart, ?noPass, ?segEnd, ?noSeg, ?passEnd, ?noEnd, ?age, ?fault, ?noFault, ?resume, ?noResume, ?quarters, ?noQuarters, ?load,
    ?loadBusy, ?loadOff, ?good, ?bad, ?notLoading, ?release, ?noRelease⟩
  case passStart =>
    intro i s v l hi hr hn hp hb
    have hf : ({ s.nextSeg.2 with lam := { s.nextSeg.2.lam with fst := { s.nextSeg.2.lam.fst with
        slots := setNth {} s.nextSeg.2.lam.fst.slots i { s.nextSeg.2.fslot i with
          pass := some { vecs := v :: l, swaps := v.swaps }
          queue := (s.nextSeg.2.fslot i).queue.drop (l.length + 1) }
        run := some i
        last := i } } } : State).fslot i = { s.nextSeg.2.fslot i with
          pass := some { vecs := v :: l, swaps := v.swaps }
          queue := (s.nextSeg.2.fslot i).queue.drop (l.length + 1) } := getD_setNth_self ..
    refine .of_eq (exec_forestPassStart_of_next hi hr hn hp hb) ⟨rfl, rfl, by rw [hf], by rw [hf], ?_, ?_⟩
    · exact s.nextSeg_keeps State.itu fun _ _ _ => rfl
    · exact s.nextSeg_keeps (·.lam.regs) fun _ _ _ => rfl
  case noPass =>
    exact fun i s h => if_neg fun ⟨hi, hr, _, hp⟩ => h.elim hi.not_ge fun h => h.elim (absurd hr) (absurd hp)
  case segEnd =>
    intro i c s p hp hr
    refine ⟨_, exec_forestSegmentEnd_of_running hp hr, ?_, ?_, rfl, rfl⟩
    · exact congrArg FSlot.pass (getD_setNth_self ..)
    · exact congrArg FSlot.deficit (getD_setNth_self ..)
  case noSeg => exact fun i c s => exec_forestSegmentEnd_of_other
  case passEnd => exact fun i s p b => exec_forestPassEnd_of_done
  case noEnd => exact fun i s h => by simp only [exec, execForestPassEnd, h]
  case age =>
    intro i s
    refine .of_eq (t := ((s.setFslot i _).il L.FST_CNT_AGED _).il L.FST_SLOT_CNT_DROP _ i) rfl ⟨?_, rfl⟩
    refine (congrArg FSlot.queue (s.fslot_setFslot_self i _)).trans ?_
    exact List.filter_congr fun v _ => decide_not.symm.trans (decide_eq_decide.mpr not_lt)
  case fault =>
    intro i k s hi hk hst
    obtain ⟨n, r, c, e⟩ := exec_forestFault_of_running hi hk hst
    have hs : LamSent (s.faulted i n r) ((s.faulted i n r).forestEvent i 1 k 0 c) := lamSent_lamEmit _ _ _ _ _ _
    have hrest := (State.fslotRest_pickSeg ((s.faulted i n r).forestEvent i 1 k 0 c) i).trans
      (congrArg (fun f : FSlot => { f with deficit := 0 }) ((hs.fslot i).trans (State.fslot_faulted n r)))
    have hrl (F : Fld) (j : Nat) : (((s.faulted i n r).forestEvent i 1 k 0 c).pickSeg).rl F j =
        ((s.faulted i n r).forestEvent i 1 k 0 c).rl F j := State.pickSeg_keeps _ (·.rl F j) (fun _ _ _ => rfl) fun _ _ _ => rfl
    refine .of_eq e ⟨?_, ?_, ?_, ?_, ?_, ?_, ?_⟩
    · rw [hrl, hs.rl _ _ _ (by simp only [Fld.key, L.FST_SLOT_STAT_STATE, L.STAT_CNT_ADMIT_REFUSED]; omega)]
      exact State.rl_wl_self _ _ _ _ _
    · rw [hrl, hs.rl _ _ _ (by decide), State.faulted,
        State.rl_wl_ne _ _ _ _ _ _ _ _ (by simp only [Fld.key, L.FST_SLOT_STAT_STATE, L.FST_STAT_FAULT]; omega)]
      exact State.rl_wl_self _ _ _ _ _
    · exact congrArg FSlot.pass hrest
    · exact congrArg FSlot.queue hrest
    · exact congrArg FSlot.retiring hrest
    · exact (congrArg FSlot.active hrest :)
    · exact (State.pickSeg_keeps _ State.itu (fun _ _ _ => rfl) fun _ _ _ => rfl).trans hs.itu
  case noFault => exact fun i k s h => if_neg fun ⟨_, _, hst⟩ => by rcases hst with hst | hst <;> simp [hst, fstRun, fstSuspended] at h
  case resume => exact fun iss v s ha h => (ha.next (·.fstResume (v % 64))).trans (congrArg Host.Outcome.next (if_pos h))
  case noResume => exact fun iss v s ha h => (ha.next (·.fstResume (v % 64))).trans (congrArg Host.Outcome.next (if_neg h))
  case quarters =>
    intro iss v s ha he ho hp
    refine (ha.next (·.fstQuarters (v % 16))).trans (congrArg Host.Outcome.next (if_pos ⟨he, ho, ?_⟩))
    simp only [Bool.not_eq_true', List.any_eq_false, List.mem_filter, List.mem_range]
    exact fun n hn => by simp [hp n hn.1]
  case noQuarters =>
    exact fun iss v s ha h => (ha.next (·.fstQuarters (v % 16))).trans
      (congrArg Host.Outcome.next (if_neg fun hc => h.elim (absurd hc.1) (absurd hc.2.1)))
  case load => exact fun h i b n s hon hr hl => cmdLam_of_eq (State.opForestLoad_of_free hon hr hl)
  case loadBusy => exact fun h i b n s hon hb => cmdLam_of_eq (State.opForestLoad_of_busy hon hb)
  case loadOff => exact fun h i b n s hoff => cmdLam_of_eq (if_pos (by simp [hoff]))
  case good =>
    intro i p s b n hi hl hst
    obtain ⟨x, hx, hb, e⟩ := exec_forestLoadDone_of_good hl hst
    have hf := (s.wl L.FST_SLOT_STAT_LOAD_STATUS 1 i).fslot_setFslot_self i { s.fslot i with loading := none, shadow := some x }
    refine .of_eq e ⟨?_, ?_, congrArg FSlot.loading hf, ⟨x, congrArg FSlot.shadow hf, hx, hb⟩, (congrArg FSlot.active hf :), rfl⟩
    · simp (disch := decide) only [State.rl_wl_word, State.rl_wl_self]
      rfl
    · simp (disch := decide) only [State.rl_wl_word, State.rl_setFslot, State.rl_wl_self]
      rfl
  case bad => exact fun i p s b n => exec_forestLoadDone_of_bad
  case notLoading => exact fun i p s h => by simp only [exec, execForestLoadDone, h]
  case release => exact fun i s hr hi => if_pos ⟨Option.isSome_iff_ne_none.mpr hr, hi⟩
  case noRelease =>
    exact fun i s h => if_neg fun hc => by rcases h with h | h <;> simp [h] at hc

end Sys2Proof.Machine
end


section
/-! PROOFS. Link states of Ikisa Link (R166, R183 to R186). -/

namespace Sys2Proof.Machine

/-! The end of a link. -/

section End
variable (s : State) (sd : Side) (q : Nat)

theorem State.port_setPort_self (p : IklPort) : (s.setPort q p).port q = p := getD_setNth_self ..
theorem State.port_setPort_ne (k : Nat) (p : IklPort) (h : k ≠ q) : (s.setPort q p).port k = s.port k := getD_setNth_ne _ _ _ _ _ h
theorem State.le_setLe_self (e : LinkEnd) : (s.setLe sd q e).le sd q = e := by
  cases sd with
  | itu => rfl
  | lam => exact congrArg IklPort.link (s.port_setPort_self q _)
theorem State.now_setLe (e : LinkEnd) : (s.setLe sd q e).now sd = s.now sd := by cases sd <;> rfl
theorem State.rl_setLe_lam (e : LinkEnd) (F : Fld) (i j : Nat) : (s.setLe .lam q e).rl F i j = s.rl F i j := rfl
theorem State.ri_setLe_itu (e : LinkEnd) (F : Fld) (i j : Nat) : (s.setLe .itu q e).ri F i j = s.ri F i j := rfl
theorem State.lt_of_lkEnd (h : s.lkEnd .lam q = true) : q < 16 := of_decide_eq_true (Bool.and_eq_true_iff.mp h).2

end End

/-! What a port that comes up leaves: the ITU, the clock and the state of the link (R157, R185). -/

/-- t is s but for what is neither the ITU, the Lamulo's clock nor the link state of port q. -/
structure PortKept (q : Nat) (s t : State) : Prop where
  itu : t.itu = s.itu
  clk : t.lam.clk = s.lam.clk
  state : t.rl L.LNK_STAT_STATE q = s.rl L.LNK_STAT_STATE q

namespace PortKept
variable {q : Nat} {s t u : State}

theorem refl (s : State) : PortKept q s s := ⟨rfl, rfl, rfl⟩
theorem trans (h : PortKept q s t) (k : PortKept q t u) : PortKept q s u := ⟨k.itu.trans h.itu, k.clk.trans h.clk, k.state.trans h.state⟩
theorem wl (h : PortKept q s t) (F : Fld) (v i j : Nat) (hk : L.LNK_STAT_STATE.key q 0 ≠ F.key i j) : PortKept q s (t.wl F v i j) :=
  h.trans ⟨rfl, rfl, State.rl_wl_ne _ _ _ _ _ _ _ _ hk⟩
theorem sent (h : PortKept q s t) (hs : LamSent t u) (hq : q < 16) : PortKept q s u :=
  h.trans ⟨hs.itu, hs.clk, hs.rl _ _ _ (by simp only [Fld.key, L.LNK_STAT_STATE, L.STAT_CNT_ADMIT_REFUSED]; omega)⟩
theorem setPort (h : PortKept q s t) (p : IklPort) : PortKept q s (t.setPort q p) := h.trans ⟨rfl, rfl, rfl⟩
theorem setDet (h : PortKept q s t) (d : DetPort) : PortKept q s (t.setDet q d) := h.trans ⟨rfl, rfl, rfl⟩

/-- A word of the port's block other than its state. -/
theorem word (h : PortKept q s t) (F : Fld) (v : Nat) (h1 : F.s1 = 0x1000) (h2 : F.s2 = 0)
    (hb : 8 * L.LNK_STAT_STATE.addr + L.LNK_STAT_STATE.lo ≠ 8 * F.addr + F.lo) : PortKept q s (t.wl F v q) :=
  h.wl F v q 0 (Fld.key_ne_of_base _ _ _ _ h1.symm h2.symm hb)

theorem sweepAlign (h : PortKept q s t) (hq : q < 16) : PortKept q s (t.sweepAlign q) := by
  unfold State.sweepAlign
  split
  next p hp =>
    extract_lets m
    split
    · exact h
    · exact h.wl _ _ _ _ (by simp only [Fld.key, L.LNK_STAT_STATE, L.GNTF_SWEEP_DONE]; omega)
  next => exact h

theorem toItu (h : PortKept q s t) (p : Pkt) : PortKept q s (t.toItu q p) := by
  unfold State.toItu
  split
  · exact h.setPort _
  · exact h.trans ⟨rfl, rfl, State.rl_il_word _ _ _ _ _ _ rfl rfl (by decide)⟩

theorem dieCmd (h : PortKept q s t) (op : Nat) (ps : List Nat) : PortKept q s (t.dieCmd q op ps) := by
  have hp : PortKept q t (t.ownPkt op 0 (t.dieId q) true ps none).1 := by
    rw [State.ownPkt, State.signPkt]
    split
    · exact ⟨rfl, rfl, rfl⟩
    · exact ⟨rfl, rfl, rfl⟩
  exact (h.trans hp).toItu _

theorem ldgActive (h : PortKept q s t) : PortKept q s (t.ldgActive q) := h.trans ⟨rfl, rfl, rfl⟩

theorem portActive (h : PortKept q s t) (hq : q < 16) : PortKept q s (t.portActive q) := by
  unfold State.portActive
  extract_lets +onlyGivenNames s1 p r s2
  have h1 : PortKept q s s1 := ((h.word L.LNK_STAT_PORT 2 rfl rfl (by decide)).word L.LNK_STAT_UNOBSERVED 0 rfl rfl (by decide)).word
    L.LNK_CTL_REPAIR 0 rfl rfl (by decide)
  have h2 : PortKept q s ((s2.ldgActive q).sweepAlign q) := (h1.setPort _).ldgActive.sweepAlign hq
  exact h2.dieCmd _ _

theorem upLam (h : PortKept q s t) (hq : q < 16) (fmt : Nat × Nat) (valid degraded : Bool) : PortKept q s (t.upLam q fmt valid degraded) := by
  unfold State.upLam
  extract_lets +onlyGivenNames p rj s1 p1 s2
  have h2 : PortKept q s s2 := (h.sent (lamSent_lamRec ..) hq).setPort _
  clear_value rj
  cases rj with
  | none => exact h2.portActive hq
  | some c => exact ((h2.word L.LNK_STAT_PORT 1 rfl rfl (by decide)).setDet _).setPort _

end PortKept

/-! Negotiation (R186). -/

section Hello
variable {s : State} {sd : Side} {q v mx mn c f k : Nat} {va de : Bool}

/-- Formats that both ends have, with the first check, agree on the highest. -/
theorem agree_of_common (h2 : 2 ≤ mx) (h16 : mx < 16) (hn : mn ≤ min 3 mx) (hc : bitAt c 0 = true) : agree (mx % 16) (mn % 16) c = some (min 3 mx, 0) := by
  rw [agree, Nat.mod_eq_of_lt h16, Nat.mod_eq_of_lt (show mn < 16 by omega)]
  exact (if_neg (by omega)).trans (if_pos hc)

/-- The peer's HELLO in the port's registers (R186). -/
def State.peerShown (s : State) (q v mx mn c : Nat) : State :=
  (((s.wl L.LNK_PEER_IKL_VER v q).wl L.LNK_PEER_MAX_FMT mx q).wl L.LNK_PEER_MIN_FMT mn q).wl L.LNK_PEER_CHECKS c q

theorem exec_helloRx_of_some {a : Nat × Nat} (he : s.lkEnd sd q = true) (h3 : s.lkState sd q = 3)
    (ha : agree (mx % 16) (mn % 16) c = some a) : ∃ u : State, u.now sd = s.now sd ∧
      exec (.helloRx sd q v mx mn c) s = .next (u.setLe sd q { u.le sd q with agreed := some a }) := by
  cases sd with
  | itu =>
    refine ⟨s.wi I.ILNK_PEER (v % 256 ||| mx % 16 <<< 8 ||| mn % 16 <<< 12 ||| c % 4 <<< 16), rfl, ?_⟩
    show execHelloRx .itu q v mx mn c s = _
    rw [execHelloRx, if_pos ⟨he, h3⟩, ha]
  | lam =>
    refine ⟨s.peerShown q v mx mn c, rfl, ?_⟩
    show execHelloRx .lam q v mx mn c s = _
    rw [execHelloRx, if_pos ⟨he, h3⟩, ha]
    rfl

theorem exec_helloRx_of_none (he : s.lkEnd .lam q = true) (h3 : s.lkState .lam q = 3) (h2 : mx < 2) :
    exec (.helloRx .lam q v mx mn c) s = .next (((s.peerShown q v mx mn c).setLe .lam q
      { (s.peerShown q v mx mn c).le .lam q with agreed := none }).wl L.LNK_STAT_NO_COMMON 1 q) := by
  have ha : agree (mx % 16) (mn % 16) c = none := if_pos (by omega)
  show execHelloRx .lam q v mx mn c s = _
  rw [execHelloRx, if_pos ⟨he, h3⟩, ha]
  rfl

/-- The end of a link as the state of UP finds its registers (R186). -/
def State.linkUpRegs (s : State) (sd : Side) (q f k : Nat) : State :=
  ((s.enterLk sd q 4).lw sd q I.ILNK_STAT_FMT L.LNK_STAT_FMT f).lw sd q I.ILNK_STAT_CHECK L.LNK_STAT_CHECK k

theorem exec_readyRx_of_itu (h3 : s.lkState .itu q = 3) (hr : s.itu.link.readySent = true) (ha : s.itu.link.agreed = some (f, k)) :
    exec (.readyRx .itu q f k va de) s = .next
      (((s.linkUpRegs .itu q f k).upItu.setLe .itu q (s.itu.link.up .itu s.itu.clk.ns (f, k))).after .itu) := if_pos ⟨rfl, h3, hr, ha⟩

theorem exec_readyRx_of_lam (he : s.lkEnd .lam q = true) (h3 : s.lkState .lam q = 3) (hr : (s.port q).link.readySent = true)
    (ha : (s.port q).link.agreed = some (f, k)) : exec (.readyRx .lam q f k va de) s = .next
      (((s.linkUpRegs .lam q f k).upLam q (f, k) va de).setLe .lam q
        ((s.port q).link.up .lam (((s.linkUpRegs .lam q f k).upLam q (f, k) va de).now .lam) (f, k))) := if_pos ⟨he, h3, hr, ha⟩

theorem State.linkUpRegs_state : (s.linkUpRegs .lam q f k).rl L.LNK_STAT_STATE q = 4 := by
  rw [State.linkUpRegs, State.enterLk]
  simp (disch := decide) only [State.lw, State.rl_setLe_lam, State.rl_wl_word, State.rl_wl_self]
  rfl

theorem State.linkUpRegs_state_itu : (s.linkUpRegs .itu q f k).ri I.ILNK_STAT_STATE = 4 := by
  rw [State.linkUpRegs, State.enterLk]
  simp (disch := decide) only [State.lw, State.ri_setLe_itu, State.ri_wi_ne, State.ri_wi_self]
  rfl

end Hello

/-! A link leaves UP (R184, R185). -/

section Down
variable {s : State} {q : Nat}

theorem LamSent.port {t : State} (h : LamSent s t) (p : Nat) : t.port p = s.port p := by rw [h.1]; rfl

theorem State.rl_setPort (s : State) (p : Nat) (v : IklPort) (F : Fld) (i j : Nat) : (s.setPort p v).rl F i j = s.rl F i j := rfl
theorem State.rl_setDet (s : State) (p : Nat) (v : DetPort) (F : Fld) (i j : Nat) : (s.setDet p v).rl F i j = s.rl F i j := rfl
theorem State.rl_ldgLost (s : State) (p : Nat) (F : Fld) (i j : Nat) : (s.ldgLost p).rl F i j = s.rl F i j := rfl

/-- The Tray's part of an exit from UP: the cause, a record, and the port unobserved (R185). -/
theorem State.downLam_of_up (k : Nat) (n : Bool) : ∃ u d p, LamSent (s.wl L.LNK_STAT_DOWN_CAUSE k q) u ∧ p.link = (s.port q).link ∧
    s.downLam q k true n = ((((u.wl L.LNK_STAT_PORT 0 q).wl L.LNK_STAT_UNOBSERVED 1 q).ldgLost q).setDet q d).setPort q p := by
  unfold State.downLam
  extract_lets s1 p inj s2 s3 d s4 r p'
  have hs : LamSent s1 s2 := lamSent_lamRec ..
  refine ⟨s2, _, _, hs, ?_, if_pos rfl⟩
  exact (congrArg IklPort.link (hs.port q) :)

/-- The end of a port as an exit from UP leaves it: what has come whole stays (R185). -/
def LinkEnd.dropped (e : LinkEnd) (now : Nat) : LinkEnd :=
  { downFrom := now, negoSaid := e.negoSaid && false, injected := e.injected, squelch := e.squelch, withhold := e.withhold, got := e.got }

/-- The registers and the end of a port whose link is down (R183). -/
def State.linkDropped (u : State) (q : Nat) : State :=
  ((((u.setLe .lam q ((u.le .lam q).dropped (u.now .lam))).wl L.LNK_STAT_FMT 0 q).wl L.LNK_STAT_CHECK 0 q).enterLk .lam q 0).wl
    L.LNK_STAT_BLOCK_LOCK 0 q

theorem State.linkDown_lam_of_up (k : Nat) (h : s.rl L.LNK_STAT_STATE q = 4) :
    s.linkDown .lam q k = ((s.il L.LNK_CNT_DOWN 1 q).downLam q k true false).linkDropped q := by
  have hst : s.lkState .lam q = 4 := h
  simp only [State.linkDown, hst]
  rfl

theorem State.le_enterLk (u : State) (sd : Side) (q v : Nat) : (u.enterLk sd q v).le sd q = { u.le sd q with since := u.now sd } := by
  cases sd with
  | itu => rfl
  | lam => exact State.le_setLe_self _ .lam q _

theorem State.le_linkDropped (u : State) (q : Nat) :
    (u.linkDropped q).le .lam q = { (u.le .lam q).dropped (u.now .lam) with since := u.now .lam } := by
  have h := (((u.setLe .lam q ((u.le .lam q).dropped (u.now .lam))).wl L.LNK_STAT_FMT 0 q).wl L.LNK_STAT_CHECK 0 q).le_enterLk .lam q 0
  exact h.trans (congrArg (fun e : LinkEnd => { e with since := u.now .lam }) (u.le_setLe_self .lam q _))

/-- What the registers and the end of the port say after an exit from UP. -/
theorem State.linkDown_lam_shows (k : Nat) (hq : q < 16) (h : s.rl L.LNK_STAT_STATE q = 4) : (s.linkDown .lam q k).rl L.LNK_STAT_STATE q = 0 ∧
    (s.linkDown .lam q k).rl L.LNK_STAT_FMT q = 0 ∧ (s.linkDown .lam q k).rl L.LNK_STAT_PORT q = 0 ∧
    (s.linkDown .lam q k).rl L.LNK_STAT_UNOBSERVED q = 1 ∧ (s.linkDown .lam q k).rl L.LNK_STAT_DOWN_CAUSE q = k % 2 ^ L.LNK_STAT_DOWN_CAUSE.width ∧
    ((s.linkDown .lam q k).port q).link.got = (s.port q).link.got ∧ ((s.linkDown .lam q k).port q).link.unacked = [] ∧
    (s.linkDown .lam q k).itu = s.itu := by
  obtain ⟨u, d, p, hs, hp, e⟩ := State.downLam_of_up (s := s.il L.LNK_CNT_DOWN 1 q) (q := q) k false
  rw [State.linkDown_lam_of_up k h, e]
  have hl := State.le_linkDropped (((((u.wl L.LNK_STAT_PORT 0 q).wl L.LNK_STAT_UNOBSERVED 1 q).ldgLost q).setDet q d).setPort q p) q
  have hg : (State.le (((((u.wl L.LNK_STAT_PORT 0 q).wl L.LNK_STAT_UNOBSERVED 1 q).ldgLost q).setDet q d).setPort q p) .lam q) = p.link :=
    congrArg IklPort.link (State.port_setPort_self _ q p)
  refine ⟨?_, ?_, ?_, ?_, ?_, ?_, congrArg LinkEnd.unacked hl, hs.itu⟩
  · simp (disch := decide) only [State.linkDropped, State.enterLk, State.lw, State.rl_setLe_lam, State.rl_wl_word, State.rl_wl_self]
    rfl
  · simp (disch := decide) only [State.linkDropped, State.enterLk, State.lw, State.rl_setLe_lam, State.rl_wl_word, State.rl_wl_self]
    rfl
  · simp (disch := decide) only [State.linkDropped, State.enterLk, State.lw, State.rl_setLe_lam, State.rl_setPort, State.rl_setDet,
      State.rl_ldgLost, State.rl_wl_word, State.rl_wl_self]
    rfl
  · simp (disch := decide) only [State.linkDropped, State.enterLk, State.lw, State.rl_setLe_lam, State.rl_setPort, State.rl_setDet,
      State.rl_ldgLost, State.rl_wl_word, State.rl_wl_self]
    rfl
  · simp (disch := decide) only [State.linkDropped, State.enterLk, State.lw, State.rl_setLe_lam, State.rl_setPort, State.rl_setDet,
      State.rl_ldgLost, State.rl_wl_word]
    exact (hs.rl _ _ _ (by simp only [Fld.key, L.LNK_STAT_DOWN_CAUSE, L.STAT_CNT_ADMIT_REFUSED]; omega)).trans (State.rl_wl_self _ _ _ _ _)
  · exact (congrArg LinkEnd.got hl).trans ((congrArg LinkEnd.got hg).trans (congrArg LinkEnd.got hp))

end Down

/-- Settles O36: each row of a link end by the state and the time that the clause names. -/
theorem linkEndsTrainAndLeaveUp : Obligations.LinkEndsTrainAndLeaveUp := by
  unfold Obligations.LinkEndsTrainAndLeaveUp
  refine ⟨?start, ?noStart, ?disabled, ?lockItu, ?lockLam, ?trainLate, ?noTrain, ?settle, ?noSettle, ?hello, ?helloNone, ?noHello, ?readyItu,
    ?readyLam, ?noReady, ?negoLate, ?noNego, ?los, ?lockLossItu, ?lockLossLam, ?silent, ?notSilent, ?aligned, ?skewed, ?unpaired, ?noAlign,
    ?retrainLam, ?retrainItu, ?enable, ?stays, ?leaves, ?down⟩
  case start => exact fun sd q s he h0 hf hen => if_pos ⟨he, h0, hf, hen⟩
  case noStart =>
    exact fun sd q s h => if_neg fun ⟨he, h0, hf, _⟩ => h.elim (fun h => by simp [h] at he) fun h => h.elim (absurd h0) hf.not_gt
  case disabled => exact fun q s h => if_neg fun ⟨_, _, _, hen⟩ => hen.elim (fun h => by cases h) fun h1 => by simp [h] at h1
  case lockItu => exact fun q s h => if_pos ⟨rfl, h⟩
  case lockLam => exact fun q s he h => if_pos ⟨he, h⟩
  case trainLate => exact fun sd q s he h hf => if_pos ⟨he, h, hf⟩
  case noTrain => exact fun sd q s h => ⟨if_neg fun hc => h hc.2.1, if_neg fun hc => h hc.2⟩
  case settle => exact fun sd q s he h hf => if_pos ⟨he, h, hf⟩
  case noSettle => exact fun sd q s h => if_neg fun ⟨_, h2, hf⟩ => h.elim (absurd h2) hf.not_gt
  case hello =>
    intro sd q v mx mn c s he h3 h2 h16 hn hc
    obtain ⟨u, hu, e⟩ := exec_helloRx_of_some (v := v) he h3 (agree_of_common h2 h16 hn hc)
    exact .of_eq e ⟨congrArg LinkEnd.agreed (u.le_setLe_self sd q _), (u.now_setLe sd q _).trans hu⟩
  case helloNone =>
    intro q v mx mn c s he h3 h2
    refine .of_eq (exec_helloRx_of_none he h3 h2) ⟨congrArg LinkEnd.agreed (State.le_setLe_self _ .lam q _), State.rl_wl_self _ _ _ _ _, ?_, rfl⟩
    simp (disch := decide) only [State.peerShown, State.rl_setLe_lam, State.rl_wl_word, State.rl_wl_self]
    exact Nat.mod_eq_of_lt (show mx < 16 by omega)
  case noHello => exact fun sd q v mx mn c s h => if_neg fun hc => h hc.2
  case readyItu =>
    intro q f c v d s h3 hr ha
    refine ⟨_, exec_readyRx_of_itu h3 hr ha, ?_, rfl, rfl, rfl⟩
    exact State.linkUpRegs_state_itu
  case readyLam =>
    intro q f c v d s he h3 hr ha
    have hk : PortKept q (s.linkUpRegs .lam q f c) ((s.linkUpRegs .lam q f c).upLam q (f, c) v d) := (PortKept.refl _).upLam (s.lt_of_lkEnd q he) _ _ _
    refine .of_eq (exec_readyRx_of_lam he h3 hr ha) ⟨hk.state.trans State.linkUpRegs_state, ?_, hk.itu⟩
    refine (State.le_setLe_self _ .lam q _).trans ?_
    exact congrArg (fun k : Clock => (s.port q).link.up .lam k.ns (f, c)) hk.clk
  case noReady =>
    exact fun sd q f c v d s h => if_neg fun ⟨_, h3, hr, ha⟩ => h.elim (absurd h3) fun h => h.elim (fun h => by simp [h] at hr) (absurd ha)
  case negoLate => exact fun sd q s he h hf => if_pos ⟨he, h, hf⟩
  case noNego => exact fun sd q s h => if_neg fun ⟨_, h3, hf⟩ => h.elim (absurd h3) hf.not_gt
  case los => exact fun sd q l s he => if_pos he
  case lockLossItu => exact fun q l s => if_pos (c := s.lkEnd .itu q = true) (e := .next s) rfl
  case lockLossLam => exact fun q l s he => if_pos he
  case silent => exact fun sd q s he hf => if_pos ⟨he, hf⟩
  case notSilent => exact fun sd q s hf => if_neg fun hc => hc.2.not_gt hf
  case aligned => exact fun sd q k s he h4 hk => (if_pos ⟨he, h4⟩).trans ((if_pos rfl).trans (if_neg hk.not_gt))
  case skewed => exact fun sd q k s he h4 hk => (if_pos ⟨he, h4⟩).trans ((if_pos rfl).trans (if_pos hk))
  case unpaired =>
    exact fun sd q k s he h4 hm => (if_pos ⟨he, h4⟩).trans ((if_neg Bool.false_ne_true).trans (if_pos (Nat.succ_le_succ hm)))
  case noAlign => exact fun sd q k p s h => if_neg fun hc => h hc.2
  case retrainLam => exact fun iss q s ha he => ha.next_and he (·.leaveUp .lam q 6)
  case retrainItu => exact fun iss s ha => ha.next (·.leaveUp .itu 0 6)
  case enable =>
    exact fun iss q s ha he h0 => (ha.next_and (decide_eq_true (s.lt_of_lkEnd q he)) (·.setLnkEnable q true)).trans
      (congrArg Host.Outcome.next ((if_pos rfl).trans (if_neg (by simp [h0]))))
  case stays => exact fun sd q k s h => if_neg h
  case leaves => exact fun sd q k s h => if_pos h
  case down => exact fun q k s hq h => State.linkDown_lam_shows k hq h

end Sys2Proof.Machine
end


section
/-! PROOFS. Cells and link blocks of Ikisa Link, and records handed to it (R167 to R175, R187). -/

namespace Sys2Proof.Machine

/-! What an end in UP sends (R167, R172). -/

section Send
variable {s : State} {sd : Side} {q v k : Nat}

theorem State.cellTx_of_time {o : List Nat} (h : (s.le sd q).timeCell = some o) :
    s.cellTx sd q = s.setLe sd q { s.le sd q with timeCell := none, wire := o } := by
  simp only [State.cellTx, h]

/-- With nothing due before it, the ITU sends a new cell of the first channel that has items and credit. -/
theorem State.cellTx_itu_of_new (ht : s.itu.link.timeCell = none) (hm : s.itu.link.mainsCells = []) (hl : s.linkDue .itu q = none)
    (hr : s.itu.link.replay = []) (hu : s.itu.link.unacked.length < 512) (h3 : s.ri I.ILNK_STAT_FMT = 3)
    (hv : (vcOrder .itu).find? (fun v => decide ((s.itu.link.tx.getD v {}).items ≠ []) && (s.itu.link.tx.getD v {}).may) = some v) :
    s.cellTx .itu q = s.setLe .itu q (s.itu.link.newCell v) := by
  have hf : (s.lr .itu q I.ILNK_STAT_FMT L.LNK_STAT_FMT == 2) = false := by rw [State.lr, h3]; rfl
  simp only [State.cellTx, State.le, State.feedCmd, ht, hm, hl, hr, hf, Bool.false_and, Bool.not_false, Bool.and_true, if_neg hu.not_ge]
  split
  next w hw => rw [Option.some.inj (hw.symm.trans hv)]
  next hw => exact absurd (hw.symm.trans hv) (by simp)

/-- A LINK block that the end may send goes out; below SETTLE none does. -/
theorem exec_linkBlockTx_of_down (h : s.lkEnd sd q = false ∨ s.lkState sd q < 2) : exec (.linkBlockTx sd q k v) s = .next s := by
  by_cases he : s.lkEnd sd q = true
  case neg => exact if_pos (by simp [he])
  have h2 : s.lkState sd q < 2 := h.resolve_left (by simp [he])
  refine (if_neg (by simp [he])).trans ?_
  split
  next => exact if_neg h2.not_ge
  next => exact if_neg fun hc => by omega
  next => exact if_neg (by omega)
  next => exact if_neg fun hc => by omega
  next => exact if_neg (by omega)
  next =>
    split
    next => exact if_neg (by omega)
    next => rfl
  next => rfl

theorem exec_linkBlockTx_credit (he : s.lkEnd sd q = true) (h4 : s.lkState sd q = 4) (hw : (s.le sd q).withhold = none) (hv : v < 8) :
    exec (.linkBlockTx sd q 1 v) s = .next
      (s.setLe sd q ((s.le sd q).linkSent (1 ||| v <<< 4 ||| ((s.le sd q).rx.getD v {}).freed % 4096 <<< 8))) := by
  refine (if_neg (by simp [he])).trans (if_pos ⟨h4, hv, ?_⟩)
  rw [hw]
  rfl

end Send

/-! A cell received (R168, R170). -/

section Receive
variable {s : State} {sd : Side} {q : Nat} {o : List Nat}

theorem State.cellRx_of_bad (hv : bits (ofLeBytes (o.take 4)) 0 3 ≠ 7) (hc : cellOk (s.le sd q).chk o = false) :
    s.cellRx sd q o = (s.li sd q I.ILNK_CNT_CELL_BAD L.LNK_CNT_CELL_BAD).setLe sd q (s.le sd q).gap :=
  (if_neg hv).trans (if_pos (by simp [hc]))

theorem State.cellRx_of_gap (hv : bits (ofLeBytes (o.take 4)) 0 3 ≠ 7) (hc : cellOk (s.le sd q).chk o = true)
    (hq : bits (ofLeBytes (o.take 4)) 12 12 ≠ (s.le sd q).rxSeq) : s.cellRx sd q o = s.setLe sd q (s.le sd q).gap :=
  (if_neg hv).trans ((if_neg (by simp [hc])).trans (if_pos hq))

theorem State.cellRx_of_next {v f : Nat} (ev : v = bits (ofLeBytes (o.take 4)) 0 3) (ef : f = bits (ofLeBytes (o.take 4)) 4 7) (hv : v ≠ 7)
    (hc : cellOk (s.le sd q).chk o = true) (hq : bits (ofLeBytes (o.take 4)) 12 12 = (s.le sd q).rxSeq) (hin : vcInward sd v = true)
    (hf : f < 120 ∨ f = 127) : s.cellRx sd q o = (s.setLe sd q { s.le sd q with
      rxSeq := ((s.le sd q).rxSeq + 1) % 4096, naked := false, nakDue := false, ackCnt := (s.le sd q).ackCnt + 1 }).takeCell
        sd q v f ((o.drop 4).take 120) := by
  subst ev ef
  refine (if_neg hv).trans ((if_neg (by simp [hc])).trans ((if_neg (not_not_intro hq)).trans (if_neg ?_)))
  simp only [hin, Bool.not_true, Bool.false_or, Bool.and_eq_true, decide_eq_true_eq]
  omega

end Receive

/-! NAK, ACK and CREDIT blocks received (R170, R171). -/

section Blocks
variable {s : State} {sd : Side} {q c : Nat}

theorem exec_nakRx_of_other (he : s.lkEnd sd q = true) (h4 : s.lkState sd q = 4) (hn : ((s.lkBlock sd q).le sd q).nakSeq ≠ c) :
    exec (.nakRx sd q c) s = .next ((s.lkBlock sd q).setLe sd q { (s.lkBlock sd q).le sd q with
      nakSeq := c, nakCnt := 1, replay := ((s.lkBlock sd q).le sd q).unacked.dropWhile (fun x => x.1 != c) }) := by
  show execNakRx sd q c s = _
  rw [execNakRx, if_pos ⟨he, h4⟩]
  simp only [if_neg (fun h : ((s.lkBlock sd q).le sd q).nakSeq = c ∧ 0 < ((s.lkBlock sd q).le sd q).nakCnt => hn h.1)]
  rfl

theorem exec_nakRx_of_eighth (he : s.lkEnd sd q = true) (h4 : s.lkState sd q = 4) (hn : ((s.lkBlock sd q).le sd q).nakSeq = c)
    (h7 : 7 ≤ ((s.lkBlock sd q).le sd q).nakCnt) : exec (.nakRx sd q c) s = .next ((s.lkBlock sd q).leaveUp sd q 4) := by
  refine (if_pos ⟨he, h4⟩).trans (if_pos ?_)
  rw [if_pos ⟨hn, by omega⟩]
  omega

end Blocks

/-! Hand-over (R47, R175, R187). -/

section Handover
variable {s : State} {v : Nat} {r : Rec}

theorem State.handover_of_fresh {l : List Rec} (hv : v < 4) (hq : s.itu.txq.q v = r :: l) (ho : s.tooOld r = false) :
    s.handover v = ({ s with itu := { s.itu with txq := s.itu.txq.setQ v l } } : State).handRec v r := by
  simp only [State.handover, if_neg (show v ≠ 5 by omega), hq, List.takeWhile_cons, List.dropWhile_cons, ho, Bool.false_eq_true, if_false,
    List.foldl_nil]

theorem State.handover_ledger {m : List Nat} {l : List (List Nat)} (hf : s.ri I.ILNK_STAT_FMT ≠ 2) (hq : s.itu.txq.ledger = m :: l) :
    s.handover 5 = { s with itu := { s.itu with txq := { s.itu.txq with ledger := l }, link := s.itu.link.push 5 (wordsToBytes m) } } := by
  simp only [State.handover, if_true, hq, if_neg hf]

/-- The record as it goes on the wire: DIE, ALIVE and the trailer set (R175). -/
def State.handed (s : State) (v : Nat) (r : Rec) : Rec :=
  { r with
    fmt := s.ri I.ILNK_STAT_FMT, die := s.ri I.ITU_DIE_ID_ID, alive := nth s.itu.txq.alive v
    trailer := Rec.trailerOf { r with fmt := s.ri I.ILNK_STAT_FMT, die := s.ri I.ITU_DIE_ID_ID, alive := nth s.itu.txq.alive v } }

theorem State.handRec_of_plain (hf : s.ri I.ILNK_STAT_FMT = 3) (ht : r.typ ≠ 0x010) : s.handRec v r =
    { s with itu := { s.itu with
      txq := { s.itu.txq with alive := setNth 0 s.itu.txq.alive v ((nth s.itu.txq.alive v + 1) % 256) }
      link := s.itu.link.push v (s.handed v r).wire } } := by
  simp only [State.handRec, if_neg (show ¬(s.ri I.ILNK_STAT_FMT = 2 ∧ (!hasFmt2 r.typ) = true) by omega), if_neg ht]
  rfl

end Handover

/-- Settles O37: each row of a link's cells, blocks and records by the case of its test that the clause names. -/
theorem cellsBlocksAndHandover : Obligations.CellsBlocksAndHandover := by
  unfold Obligations.CellsBlocksAndHandover
  refine ⟨?tx, ?noTx, ?time, ?newCell, ?credit, ?ack, ?nak, ?hello, ?align, ?noBlock, ?rx, ?noRx, ?bad, ?gapped, ?taken, ?naked, ?firstGap,
    ?nakOther, ?nakEighth, ?acked, ?ackUnknown, ?credited, ?noCredit, ?notUp, ?handRecord, ?handLedger, ?noHand, ?handed, ?fmtDrop⟩
  case tx => exact fun sd q s he h4 => if_pos ⟨he, h4⟩
  case noTx => exact fun sd q s h => if_neg fun hc => h.elim (fun h => by simp [h] at hc) (absurd hc.2)
  case time => exact fun sd q s o => State.cellTx_of_time
  case newCell => exact fun q s v => State.cellTx_itu_of_new
  case credit =>
    rintro sd q k v s he h4 hw hv rfl
    exact exec_linkBlockTx_credit he h4 hw hv
  case ack => exact fun sd q v s he h4 => (if_neg (by simp [he])).trans (if_pos h4)
  case nak => exact fun sd q v s he h4 hd => (if_neg (by simp [he])).trans (if_pos ⟨h4, hd⟩)
  case hello => exact fun sd q v s he h3 => (if_neg (by simp [he])).trans (if_pos h3)
  case align => exact fun sd q v s he h2 => (if_neg (by simp [he])).trans (if_pos h2)
  case noBlock => exact fun sd q k v s => exec_linkBlockTx_of_down
  case rx => exact fun sd q o b s he h4 => if_pos ⟨he, h4⟩
  case noRx => exact fun sd q o b s h => if_neg fun hc => h.elim (fun h => by simp [h] at hc) (absurd hc.2)
  case bad => exact fun sd q o s => State.cellRx_of_bad
  case gapped => exact fun sd q o s => State.cellRx_of_gap
  case taken => exact fun sd q o s v f => State.cellRx_of_next
  case naked => exact fun e h => if_pos h
  case firstGap => exact fun e h => if_neg (by simp [h])
  case nakOther =>
    rintro sd q c s e he h4 rfl hn
    exact exec_nakRx_of_other he h4 hn
  case nakEighth =>
    rintro sd q c s e he h4 rfl hn h7
    exact exec_nakRx_of_eighth he h4 hn h7
  case acked =>
    rintro sd q c s e he h4 rfl hin
    exact ⟨_, (if_pos ⟨he, h4⟩).trans (if_pos hin), rfl, rfl, rfl, rfl⟩
  case ackUnknown => exact fun sd q c s he h4 hout => (if_pos ⟨he, h4⟩).trans (if_neg (by simp [hout]))
  case credited =>
    rintro sd q v n s e he h4 hv rfl
    exact if_pos ⟨he, h4, hv⟩
  case noCredit => exact fun sd q v n s hv => if_neg fun hc => hv.not_gt hc.2.2
  case notUp => exact fun sd q c s h => ⟨if_neg fun hc => h hc.2, if_neg fun hc => h hc.2, if_neg fun hc => h hc.2.1⟩
  case handRecord =>
    exact fun v s r l hv h4 hid hm hq ho => (if_pos ⟨.inl hv, h4, hid, hm⟩).trans (congrArg Host.Outcome.next (State.handover_of_fresh hv hq ho))
  case handLedger =>
    exact fun s m l h4 hid hm hf hq => (if_pos ⟨.inr rfl, h4, hid, hm⟩).trans (congrArg Host.Outcome.next (State.handover_ledger hf hq))
  case noHand =>
    exact fun v s h => if_neg fun ⟨_, h4, hid, hm⟩ => h.elim (absurd h4) fun h => h.elim (absurd hid) fun h => Bool.false_ne_true (h.symm.trans hm)
  case handed =>
    intro v s r hf ht
    refine ⟨s.handed v r, rfl, rfl, rfl, hf, rfl, rfl, rfl, ?_, ?_⟩
    · rw [State.handRec_of_plain hf ht]
    · rw [State.handRec_of_plain hf ht]
  case fmtDrop => exact fun v s r hf ht => if_pos ⟨hf, by simp [ht]⟩

end Sys2Proof.Machine
end


section
/-! PROOFS. Time messages of the links, margins, rehearsed faults and CRC units (R177 to R183, R188 to R190). -/

namespace Sys2Proof.Machine

/-! Time messages (R181). -/

section Time
variable {s : State} {q x t f : Nat}

theorem exec_timeSyncTx_of_first (hok : s.txOk q = true) (ha : (s.port q).exchAt = none) : exec (.timeSyncTx q t f) s = .next
    (State.timeDue (s.setPort q { s.port q with exch := ((s.port q).exch + 1) % 256, exchAt := some s.lam.clk.ns,
                                                exchs := (s.port q).exchs ++ [(((s.port q).exch + 1) % 256, s.lam.clk.ns)] }) .lam q
      ([1, ((s.port q).exch + 1) % 256, 0, 0] ++ tsOctets (qts t f + s.rl L.IKL_LAT_TX q) ++ [0, 0] ++
        leBytes 4 (s.rl L.IKL_TIME_ASYM q) ++ leBytes 4 (s.rl L.IKL_TIME_PERIOD q))) := by
  simp only [exec, execTimeSyncTx, ha, hok]
  exact if_pos rfl

theorem exec_timeSyncTx_of_early {a : Nat} (ha : (s.port q).exchAt = some a) (he : s.now .lam - a < s.rl L.IKL_TIME_PERIOD q) :
    exec (.timeSyncTx q t f) s = .next s := by
  simp only [exec, execTimeSyncTx, ha]
  refine if_neg fun h => he.not_ge ?_
  exact of_decide_eq_true (Bool.and_eq_true_iff.mp h).2

theorem exec_timeDreqRx_of_known {y : Nat × Nat} (hy : (s.port q).exchs.find? (fun z => z.1 == x % 256) = some y) (hok : s.txOk q = true) :
    exec (.timeDreqRx q x t f) s = .next
      (State.timeDue (s.setPort q { s.port q with exchs := (s.port q).exchs.filter (fun z => z.1 != y.1) }) .lam q
        ([3, x % 256, 0, 0] ++ tsOctets (ofS 64 ((qts t f : Int) - s.rl L.IKL_LAT_RX q)))) := by
  simp only [exec, execTimeDreqRx, hy]
  exact if_pos hok

theorem exec_timeDrespRx_of_known {y : Exch} (h0 : s.ri I.ILNK_STAT_SETTLING = 0) (h4 : s.ri I.ILNK_STAT_STATE = 4)
    (hy : s.itu.exchs.find? (fun z => z.exch == x % 256 && decide (s.now .itu - z.at0 < 200000)) = some y) : exec (.timeDrespRx x t f) s = .next
      ((State.measure { s with itu := { s.itu with exchs := s.itu.exchs.filter (fun z => z.exch != y.exch) } } .itu 0 (y.meas t f)).after .itu) := by
  refine (if_neg (by simp [h0])).trans ((if_neg (not_not_intro h4)).trans ?_)
  rw [hy]

theorem exec_timeDrespRx_of_unknown (h0 : s.ri I.ILNK_STAT_SETTLING = 0)
    (hy : s.itu.exchs.find? (fun z => z.exch == x % 256 && decide (s.now .itu - z.at0 < 200000)) = none) :
    exec (.timeDrespRx x t f) s = .next s := by
  show execTimeDrespRx x t f s = _
  rw [execTimeDrespRx, if_neg (by simp [h0]), hy]
  split
  next => rfl
  next => rfl

end Time

/-! Margins (R188). -/

section Margin
variable {q : Nat}

/-- A lane's test changes which lanes are known to be low, and makes a record at most. -/
theorem State.marginLane_keeps {β : Type} (get : State → β) (s : State) (l fin h w : Nat)
    (hp : ∀ (u : State) e, get (u.setPort q { u.port q with lowEye := e }) = get u) (hs : ∀ {a b : State}, LamSent a b → get b = get a) :
    get (s.marginLane q l fin h w) = get s := by
  unfold State.marginLane
  extract_lets mh mw p said
  refine State.ite_keeps get (State.ite_keeps get rfl ?_) (State.ite_keeps get (hp s _) rfl)
  exact (hs (lamSent_lamEmit ..)).trans (hp s _)

/-- The eyes of a lane of both ends in the registers of the link (R188). -/
def State.eyesShown (s : State) (q l : Nat) (a b : Nat × Nat) : State :=
  ((((((s.wi I.ILNK_EYE_H b.1 l).wi I.ILNK_EYE_W b.2 l).wl L.LNK_EYE_H_LOCAL a.1 q l).wl L.LNK_EYE_W_LOCAL a.2 q l).wl
    L.LNK_EYE_H_PEER b.1 q l).wl L.LNK_EYE_W_PEER b.2 q l)

/-- A lane's part of a sweep: its eyes are shown and tested. -/
def State.marginOf (s : State) (q l : Nat) (a b : Nat × Nat) : State :=
  ((s.eyesShown q l a b).marginLane q l 0 a.1 a.2).marginLane q l 1 b.1 b.2

theorem State.rl_marginOf (s : State) (l : Nat) (a b : Nat × Nat) (hq : q < 16) (F : Fld) (j : Nat) (h1 : F.s1 = 0x1000)
    (hj : F.addr + F.s2 * j < 0x50000) (hF : F.lo < 32) : (s.marginOf q l a b).rl F q j = (s.eyesShown q l a b).rl F q j := by
  have hk : F.key q j ≠ L.STAT_CNT_ADMIT_REFUSED.key 0 0 := by
    simp only [Fld.key, L.STAT_CNT_ADMIT_REFUSED, h1]
    omega
  have lane (u : State) (fin h w : Nat) : (u.marginLane q l fin h w).rl F q j = u.rl F q j :=
    u.marginLane_keeps (·.rl F q j) l fin h w (fun _ _ => rfl) fun h => h.rl _ _ _ hk
  exact (lane _ _ _ _).trans (lane _ _ _ _)

theorem State.marginAt_marginOf (s : State) (l : Nat) (a b : Nat × Nat) : ((s.marginOf q l a b).port q).marginAt = (s.port q).marginAt := by
  have lane (u : State) (fin h w : Nat) : ((u.marginLane q l fin h w).port q).marginAt = (u.port q).marginAt :=
    u.marginLane_keeps (fun u => (u.port q).marginAt) l fin h w (fun u e => by rw [State.port_setPort_self])
      fun h => congrArg IklPort.marginAt (h.port q)
  exact (lane _ _ _ _).trans (lane _ _ _ _)

theorem exec_marginSweep_of_due {s : State} {own peer : List (Nat × Nat)} (hok : s.txOk q = true)
    (hd : s.rl L.LNK_MARGIN_PERIOD q * 1000000 ≤ s.now .lam - (s.port q).marginAt) : exec (.marginSweep q own peer) s =
      .next (((s.setPort q { s.port q with marginAt := s.now .lam }).marginOf q 0 (own.getD 0 (0, 0)) (peer.getD 0 (0, 0))).marginOf q 1
        (own.getD 1 (0, 0)) (peer.getD 1 (0, 0))) := by
  have hc : (s.txOk q && decide (s.rl L.LNK_MARGIN_PERIOD q * 1000000 ≤ s.now .lam - (s.port q).marginAt)) = true :=
    Bool.and_eq_true_iff.mpr ⟨hok, decide_eq_true hd⟩
  show execMarginSweep q own peer s = _
  rw [execMarginSweep, if_pos hc]
  rfl

end Margin

/-! Rehearsed faults (R189, R190). -/

section Inject
variable {s : State} {q t0 : Nat}

/-- The condition under which a fault is due. -/
def State.injDue (s : State) : Prop :=
  s.role = 0 ∧ 0 < s.rl L.INJ_CFG_PERIOD_MC ∧ s.rl L.INJ_CFG_KIND ≠ 0 ∧ s.slotsOk .lam = true ∧ s.mc .lam % s.rl L.INJ_CFG_PERIOD_MC = 0 ∧
    s.lam.mains.slot = s.rl L.INJ_CFG_SLOT + 1 ∧ s.lam.injMc ≠ some (s.mc .lam)

theorem exec_faultInjection_of_due {ts : List Nat} (hd : s.injDue) (hn : s.injNext = some q) : exec (.faultInjection ts) s =
    if s.injSkip q ts then .next (State.il { s with lam := { s.lam with injPort := q, injMc := some (s.mc .lam) } } L.INJ_CNT_SKIPPED)
    else .next ((State.inject { s with lam := { s.lam with injPort := q, injMc := some (s.mc .lam) } } q (s.rl L.INJ_CFG_KIND)).il
      L.INJ_CNT_DONE) := by
  unfold State.injDue at hd
  show execFaultInjection ts s = _
  rw [execFaultInjection, if_pos hd, hn]

theorem exec_faultInjection_of_off {ts : List Nat} (h : s.role ≠ 0 ∨ s.rl L.INJ_CFG_PERIOD_MC = 0 ∨ s.rl L.INJ_CFG_KIND = 0 ∨ s.injNext = none) :
    exec (.faultInjection ts) s = .next s := by
  show execFaultInjection ts s = _
  rw [execFaultInjection]
  split
  next hd =>
    obtain ⟨h0, hp, hk, -⟩ := hd
    rw [((h.resolve_left (not_not_intro h0)).resolve_left hp.ne').resolve_left hk]
  next => rfl

/-- A bound of an injection has passed. -/
def State.passed (s : State) (o : Option Nat) : Bool := match o with | some t => decide (t ≤ s.now .lam) | none => false

/-- The end of the port once the bounds that have passed are gone (R189). -/
def State.injEnded (s : State) (e : LinkEnd) : LinkEnd :=
  let e := if s.passed e.withhold then { e with withhold := none, rx := e.rx.map fun r => { r with due := true } } else e
  if s.passed e.squelch then { e with squelch := none } else e

theorem exec_injectionEnd_of_port (hq : q < 16) : exec (.injectionEnd q) s = .next (s.setLe .lam q (s.injEnded (s.port q).link)) := if_pos hq

theorem State.passed_of_le (h : t0 ≤ s.lam.clk.ns) : s.passed (some t0) = true := decide_eq_true h

theorem State.injEnded_squelch {e : LinkEnd} (he : e.squelch = some t0) (h : t0 ≤ s.lam.clk.ns) : (s.injEnded e).squelch = none := by
  have hp : s.passed e.squelch = true := by rw [he]; exact State.passed_of_le h
  by_cases hw : s.passed e.withhold = true
  · simp only [State.injEnded, hw, hp, if_true]
  · simp only [State.injEnded, hw, hp, if_true, Bool.false_eq_true, if_false]

theorem State.injEnded_withhold {e : LinkEnd} (he : e.withhold = some t0) (h : t0 ≤ s.lam.clk.ns) :
    (s.injEnded e).withhold = none ∧ ∀ r ∈ (s.injEnded e).rx, r.due = true := by
  have hp : s.passed e.withhold = true := by rw [he]; exact State.passed_of_le h
  have hd : ∀ r ∈ e.rx.map fun r => { r with due := true }, r.due = true := by simp
  by_cases hs : s.passed e.squelch = true
  · simp only [State.injEnded, hs, hp, if_true]
    exact ⟨trivial, hd⟩
  · simp only [State.injEnded, hs, hp, if_true, Bool.false_eq_true, if_false]
    exact ⟨trivial, hd⟩

end Inject

/-! CRC units (R177, R178). -/

theorem crcWidth_le (sel : Nat) : crcWidth sel ≤ 64 := by
  rw [crcWidth]
  split
  · decide
  · split <;> decide

section Crc
variable (s : State) (u v : Nat)

/-- The value of a Lamulo's unit just set, within its width. -/
theorem State.lcrcVal_setLcrcVal : (s.setLcrcVal u v).lcrcVal u = v % 2 ^ crcWidth (s.rl L.CRC_SEL u) := by
  have hlt : v % 2 ^ crcWidth (s.rl L.CRC_SEL u) < 2 ^ 64 :=
    (Nat.mod_lt _ (Nat.two_pow_pos _)).trans_le (Nat.pow_le_pow_right (by decide) (crcWidth_le _))
  generalize hx : v % 2 ^ crcWidth (s.rl L.CRC_SEL u) = x at hlt
  rw [State.lcrcVal, State.setLcrcVal, hx]
  simp (disch := decide) only [State.rl_wl_word, State.rl_wl_self]
  show x % 2 ^ 32 % 2 ^ 32 + 2 ^ 32 * (x / 2 ^ 32 % 2 ^ 32) = x
  omega

theorem State.sel_setLcrcVal : (s.setLcrcVal u v).rl L.CRC_SEL u = s.rl L.CRC_SEL u := by
  rw [State.setLcrcVal]
  simp (disch := decide) only [State.rl_wl_word]

end Crc

/-- Settles O38: each row of the links' time messages, margins, faults and CRC units by the case of its test that the clause names. -/
theorem timeMarginsAndCrcUnits : Obligations.TimeMarginsAndCrcUnits := by
  unfold Obligations.TimeMarginsAndCrcUnits
  refine ⟨?sync, ?syncEarly, ?syncDown, ?settling, ?syncRx, ?syncRxDown, ?dreq, ?dreqUnknown, ?dresp, ?drespUnknown, ?drespSettling, ?voidItu,
    ?voidLam, ?margin, ?noMargin, ?injected, ?skipped, ?noFault, ?squelch, ?withhold, ?noPort, ?selItu, ?selLam, ?dataItu, ?dataLam, ?noUnit⟩
  case sync =>
    intro q t f s hok ha
    have hp := s.port_setPort_self q { s.port q with exch := ((s.port q).exch + 1) % 256, exchAt := some s.lam.clk.ns,
                                                     exchs := (s.port q).exchs ++ [(((s.port q).exch + 1) % 256, s.lam.clk.ns)] }
    exact ⟨_, exec_timeSyncTx_of_first hok ha, congrArg IklPort.exch hp, congrArg IklPort.exchAt hp, rfl, rfl⟩
  case syncEarly => exact fun q t f a s => exec_timeSyncTx_of_early
  case syncDown => exact fun q t f s hok => if_neg (by simp [hok])
  case settling => exact fun x t1 f1 a t2 f2 t3 f3 s h => if_pos h
  case syncRx => exact fun x t1 f1 a t2 f2 t3 f3 s h0 h4 => (if_neg (by simp [h0])).trans (if_neg (not_not_intro h4))
  case syncRxDown => exact fun x t1 f1 a t2 f2 t3 f3 s h0 h4 => (if_neg (by simp [h0])).trans (if_pos h4)
  case dreq => exact fun q x t4 f4 s y => exec_timeDreqRx_of_known
  case dreqUnknown => exact fun q x t4 f4 s h => by simp only [exec, execTimeDreqRx, h]
  case dresp => exact fun x t4 f4 s y => exec_timeDrespRx_of_known
  case drespUnknown => exact fun x t4 f4 s => exec_timeDrespRx_of_unknown
  case drespSettling => exact fun x t4 f4 s h => if_pos h
  case voidItu =>
    intro q s
    refine .of_eq (t := State.ii { s with itu := { s.itu with exchs := _ } } I.ILNK_CNT_TIME_LOST _) rfl ⟨?_, rfl, rfl⟩
    exact List.filter_congr fun x _ => decide_not.symm.trans (decide_eq_decide.mpr not_le)
  case voidLam =>
    intro q s he
    have e : exec (.timeExchangeVoid .lam q) s = _ := if_pos he
    refine .of_eq e ⟨(congrArg IklPort.exchs (s.port_setPort_self q _)).trans ?_, rfl⟩
    exact List.filter_congr fun x _ => decide_not.symm.trans (decide_eq_decide.mpr not_le)
  case margin =>
    intro q own peer s hok hd
    have hq : q < 16 := s.lt_of_lkEnd q (Bool.and_eq_true_iff.mp hok).1
    refine .of_eq (exec_marginSweep_of_due hok hd) ⟨?_, ?_, ?_, ?_⟩
    · rw [State.marginAt_marginOf, State.marginAt_marginOf, State.port_setPort_self]
      rfl
    · rw [State.rl_marginOf _ _ _ _ hq _ _ rfl (by decide) (by decide), State.eyesShown]
      simp (disch := decide) only [State.rl_wl_word, State.rl_wl_self]
    · rw [State.rl_marginOf _ _ _ _ hq _ _ rfl (by decide) (by decide), State.eyesShown]
      simp (disch := decide) only [State.rl_wl_self]
    · have ne (F : Fld) (h1 : F.s1 = 0x1000) (h2 : F.s2 = 4) (ha : F.addr = 0x40140) (hl : F.lo < 32) :
          L.LNK_EYE_H_LOCAL.key q 0 ≠ F.key q 1 := by
        simp only [Fld.key, L.LNK_EYE_H_LOCAL, h1, h2, ha]
        omega
      rw [State.rl_marginOf _ _ _ _ hq _ _ rfl (by decide) (by decide), State.eyesShown,
        State.rl_wl_ne _ _ _ _ _ _ _ _ (ne L.LNK_EYE_W_PEER rfl rfl rfl (by decide)),
        State.rl_wl_ne _ _ _ _ _ _ _ _ (ne L.LNK_EYE_H_PEER rfl rfl rfl (by decide)),
        State.rl_wl_ne _ _ _ _ _ _ _ _ (ne L.LNK_EYE_W_LOCAL rfl rfl rfl (by decide)),
        State.rl_wl_ne _ _ _ _ _ _ _ _ (ne L.LNK_EYE_H_LOCAL rfl rfl rfl (by decide)), State.rl_wi, State.rl_wi,
        State.rl_marginOf _ _ _ _ hq _ _ rfl (by decide) (by decide), State.eyesShown]
      simp (disch := decide) only [State.rl_wl_word, State.rl_wl_self]
  case noMargin =>
    intro q own peer s h
    refine if_neg fun hc => ?_
    obtain ⟨hok, hd⟩ := Bool.and_eq_true_iff.mp hc
    exact h.elim (fun h => Bool.false_ne_true (h.symm.trans hok)) fun h => (of_decide_eq_true hd).not_gt h
  case injected =>
    exact fun ts s q h0 hp hk ho hm hs hi hn hsk => (exec_faultInjection_of_due ⟨h0, hp, hk, ho, hm, hs, hi⟩ hn).trans (if_neg (by simp [hsk]))
  case skipped =>
    exact fun ts s q h0 hp hk ho hm hs hi hn hsk => (exec_faultInjection_of_due ⟨h0, hp, hk, ho, hm, hs, hi⟩ hn).trans (if_pos hsk)
  case noFault => exact fun ts s => exec_faultInjection_of_off
  case squelch =>
    intro q t0 s hq ht h
    have hl := s.le_setLe_self .lam q (s.injEnded (s.port q).link)
    exact .of_eq (exec_injectionEnd_of_port hq) ⟨(congrArg LinkEnd.squelch hl).trans (State.injEnded_squelch ht h), rfl, rfl⟩
  case withhold =>
    intro q t0 s hq ht h
    have hl : ((s.setLe .lam q (s.injEnded (s.port q).link)).port q).link = _ := s.le_setLe_self .lam q (s.injEnded (s.port q).link)
    obtain ⟨h1, h2⟩ := State.injEnded_withhold ht h
    exact .of_eq (exec_injectionEnd_of_port hq) ⟨(congrArg LinkEnd.withhold hl).trans h1, by rw [hl]; exact h2, rfl, rfl⟩
  case noPort => exact fun q s hq => if_neg hq.not_gt
  case selItu => exact fun iss u v s hu ha => ha.next_and (decide_eq_true hu) (·.crcSelW .itu u v)
  case selLam =>
    intro iss u v s hu ha
    refine .of_eq (ha.next_and (decide_eq_true hu) (·.crcSelW .lam u v)) ⟨?_, ?_, rfl⟩
    · refine (State.sel_setLcrcVal _ _ _).trans ((State.rl_wl_self _ _ _ _ _).trans ?_)
      exact Nat.mod_mod _ 4
    · refine (State.lcrcVal_setLcrcVal _ _ _).trans ?_
      rw [State.rl_wl_self]
      exact congrArg (fun w => crcInit (v % 4) % 2 ^ crcWidth w) (Nat.mod_mod _ 4)
  case dataItu => exact fun iss u d b s hu ha => ha.next_and (decide_eq_true hu) (·.crcDataW .itu u d b)
  case dataLam => exact fun iss u d b s hu ha => ha.next_and (decide_eq_true hu) (·.crcDataW .lam u d b)
  case noUnit =>
    intro sd iss u v s hu ha
    show execCrcSelWrite sd iss u v s = _
    rw [execCrcSelWrite, ha.guard]
    exact if_neg (by simp [hu])

end Sys2Proof.Machine
end


section
/-! PROOFS. Frames of the Ethernet ports, gates, the loss of a port and the change of a parent (R346, R359 to R366, R369 to R372). -/

namespace Sys2Proof.Machine

section Port
variable (s : State) (p : Nat)

theorem State.ep_setEp_self (e : EthPort) : (s.setEp p e).ep p = e := getD_setNth_self ..

/-- The channel of a frame after one change of its state. -/
theorem EthPort.ch_setCh_self (e : EthPort) (c : Nat) (h : EthChan) : (e.setCh c h).ch c = h := getD_setNth_self ..

theorem State.police_of_uncredited (c : Nat) (f : Frame) (hc : 4 ≤ c) : s.police p c f = (s, true) := if_pos (.inl hc)

theorem State.restartRx_of_same {f : Frame} (h : f.restart = false) : s.restartRx p f = s.setEp p { s.ep p with estab := true } := by
  rw [State.restartRx, h]
  rfl

end Port

/-! Frames received (R360 to R362). -/

section Received
variable {s : State} {p : Nat} {f : Frame}

theorem sdiff16_self (a : Nat) : sdiff16 a a = 0 := by
  rw [sdiff16, sub_self]
  decide

/-- A frame that does not start its sequence anew goes by its distance alone. -/
theorem State.frameRx_of_near (h : f.fseq = 0 → sdiff16 f.fseq ((s.ep p).ch f.chan).rxSeq = 0) : s.frameRx p f =
    if sdiff16 f.fseq ((s.ep p).ch f.chan).rxSeq = 0 then s.frameTake p f.chan f
    else if sdiff16 f.fseq ((s.ep p).ch f.chan).rxSeq < 0 ∨ ((s.ep p).ch f.chan).naked then s
    else (s.setEp p ((s.ep p).setCh f.chan { (s.ep p).ch f.chan with naked := true })).sendNak p f.chan := by
  have far : (f.fseq == 0 && (decide (sdiff16 f.fseq ((s.ep p).ch f.chan).rxSeq < -(chanBuffer f.chan : Int)) ||
      decide ((chanBuffer f.chan : Int) < sdiff16 f.fseq ((s.ep p).ch f.chan).rxSeq))) = false := by
    by_cases h0 : f.fseq = 0
    · rw [h h0]
      simp
    · simp [h0]
  rw [State.frameRx, far]
  rfl

theorem State.frameTake_of_link (hc : 4 ≤ f.chan) (hr : s.portRole p ≠ 3) (hi : f.items = []) : s.frameTake p f.chan f =
    (s.setEp p ((s.ep p).setCh f.chan { (s.ep p).ch f.chan with
      rxSeq := (f.fseq + 1) % 65536, naked := false, rxFreed := (((s.ep p).ch f.chan).rxFreed + 1) % 65536 })).freeFrames := by
  have held : (true && s.portRole p == 3) = false := by simp [hr]
  rw [State.frameTake, State.police_of_uncredited s p f.chan f hc, hi]
  simp only [held]
  rfl

theorem exec_ethFrameRx_of_credited (hp : p < 24) (hl : s.lineRate p ≠ 0) (h0 : s.portRole p ≠ 0) (h5 : s.portRole p < 5) (hc : f.chan < 6)
    (hr : f.restart = false) :
    exec (.ethFrameRx p f false) s = .next (((s.setEp p { s.ep p with estab := true }).frameAcks p f).frameRx p f) := by
  show execEthFrameRx p f false s = _
  rw [execEthFrameRx, if_neg (by omega), if_neg (by decide), if_neg (by omega), if_neg (by omega), State.restartRx_of_same _ _ hr]

theorem exec_ethFrameRx_of_bad (hp : p < 24) (hl : s.lineRate p ≠ 0) (h0 : s.portRole p ≠ 0) (h5 : s.portRole p < 5) :
    exec (.ethFrameRx p f true) s = .next (s.il L.ETH_CNT_FCS 1 p) := by
  show execEthFrameRx p f true s = _
  rw [execEthFrameRx, if_neg (by omega), if_pos rfl]

/-- The port that a LINK frame has shown to be live. -/
def State.linkSeen (s : State) (p : Nat) : State :=
  ((s.wl L.ETH_PORT_STAT_UP 1 p).wl L.ETH_PORT_STAT_LIVE 1 p).setEp p
    { s.ep p with lastLink := s.now .lam, liveFrom := some ((s.ep p).liveFrom.getD (s.now .lam)) }

theorem State.linkSeen_shows : (s.linkSeen p).rl L.ETH_PORT_STAT_UP p = 1 ∧ (s.linkSeen p).rl L.ETH_PORT_STAT_LIVE p = 1 ∧
    ((s.linkSeen p).ep p).lastLink = s.lam.clk.ns ∧ (s.linkSeen p).itu = s.itu := by
  have hup : (s.linkSeen p).rl L.ETH_PORT_STAT_UP p = ((s.wl L.ETH_PORT_STAT_UP 1 p).wl L.ETH_PORT_STAT_LIVE 1 p).rl L.ETH_PORT_STAT_UP p := rfl
  have hep : (s.linkSeen p).ep p = _ := State.ep_setEp_self _ p _
  refine ⟨?_, State.rl_wl_self _ _ _ _ _, by rw [hep]; rfl, rfl⟩
  simp (disch := decide) only [hup, State.rl_wl_word, State.rl_wl_self]
  rfl

theorem exec_ethLinkFrameRx_of_live (hp : p < 24) (hc : f.chan = 6) (h0 : s.portRole p ≠ 0) (h5 : s.portRole p ≠ 5)
    (hl : s.rl L.ETH_PORT_STAT_LIVE p = 1) : exec (.ethLinkFrameRx p f) s =
      if f.nak then .next (((s.linkSeen p).ethCredit p f.credit).ethNak p ((f.ack.map (·.1)).getD 6) f.fseq)
      else .next (((s.linkSeen p).ethCredit p f.credit).ethAck p f.ack).failbackTry := by
  have ask : (s.rl L.ETH_PORT_STAT_LIVE p == 0 && s.upPort == some p) = false := by simp [hl]
  show execEthLinkFrameRx p f s = _
  rw [execEthLinkFrameRx, if_neg (by omega), ask]
  rfl

end Received

/-! Frames sent and the gates (R365, R366). -/

section Sent
variable {s : State} {p : Nat}

theorem exec_ethFrameTx : exec (.ethFrameTx p) s = if s.spread.portLive p then
    .next (State.pickFrame p (sendOrder.map (fun c => (c, true)) ++ sendOrder.map (fun c => (c, false))) s.spread).freeFrames
    else .next s.spread := rfl

theorem State.endsInTime_of_off (c n : Nat) (h : s.rl L.GATE_CTL_EN p = 0) : s.endsInTime p c n = true := by
  rw [State.endsInTime, State.gateCloses, if_pos h]

theorem State.gateOpen_of_off (c : Nat) (h : s.rl L.GATE_CTL_EN p = 0) : s.gateOpen p c = true := by
  rw [State.gateOpen, h]
  rfl

theorem State.shapeOk_of_off (c n : Nat) (h : EthChan) (hr : s.rl L.SHP_RATE p c = 0) : s.shapeOk p c n h = true := by
  rw [State.shapeOk, hr]
  rfl

/-- With no gate and no shaper the first candidate is sent. -/
theorem State.pickFrame_of_free {c : Nat} {l : List (Nat × Bool)} {f : Frame} {h : EthChan} (hc : s.candidate p c false = some (f, h))
    (hg : s.rl L.GATE_CTL_EN p = 0) (hr : s.rl L.SHP_RATE p c = 0) : State.pickFrame p ((c, false) :: l) s =
      (s.setEp p ((s.ep p).setCh c { s.shapeTake p c (s.frameLen p f.items) (s.shaped p c h) with waited := false })).emitFrame p f := by
  simp only [State.pickFrame, hc, State.gateOpen_of_off c hg, State.shapeOk_of_off c _ _ hr, State.endsInTime_of_off c _ hg, Bool.not_true,
    Bool.or_false, Bool.false_eq_true, if_false, if_true]

theorem exec_gateEntryChange_of_free (hp : p < 24) (hm : s.lam.mains.cur = none) : exec (.gateEntryChange p) s =
    if s.rl L.GATE_STAT_ENTRY p + 1 < s.gclLen p ∧ (s.ep p).gateAt + s.gcl p (s.rl L.GATE_STAT_ENTRY p) / 256 ≤ s.now .lam then
      .next (s.setGate p (s.rl L.GATE_STAT_ENTRY p + 1) ((s.ep p).gateAt + s.gcl p (s.rl L.GATE_STAT_ENTRY p) / 256))
    else .next s := by
  show execGateEntryChange p s = _
  rw [execGateEntryChange, if_neg hp.not_ge, hm]

end Sent

/-! Loss of a port and the change of a parent (R346, R369 to R372). -/

section Parent
variable {s : State} {p t0 : Nat}

theorem State.portLost_shows (s : State) (p : Nat) : (s.portLost p true).rl L.ETH_PORT_STAT_UP p = 0 ∧
    (s.portLost p true).rl L.ETH_PORT_STAT_LIVE p = 0 ∧ (s.portLost p false).rl L.ETH_PORT_STAT_UP p = s.rl L.ETH_PORT_STAT_UP p := by
  have hlost : (s.portLost p true).rl L.ETH_PORT_STAT_UP p =
      ((s.wl L.ETH_PORT_STAT_UP 0 p).wl L.ETH_PORT_STAT_LIVE 0 p).rl L.ETH_PORT_STAT_UP p := rfl
  have hkept : (s.portLost p false).rl L.ETH_PORT_STAT_UP p = (s.wl L.ETH_PORT_STAT_LIVE 0 p).rl L.ETH_PORT_STAT_UP p := rfl
  refine ⟨?_, (State.rl_wl_self _ _ _ _ _).trans (Nat.zero_mod _), ?_⟩
  · simp (disch := decide) only [hlost, State.rl_wl_word, State.rl_wl_self, Nat.zero_mod]
  · simp (disch := decide) only [hkept, State.rl_wl_word]

theorem State.failover_of_primary (k : Nat) (h1 : s.portRole p = 1) (h : s.lam.eth.onSec = false) : s.failover p k = s.moveParent true k :=
  if_pos ⟨h1, by simp [h]⟩

theorem State.failover_of_other (k : Nat) (h : s.portRole p ≠ 1 ∨ s.lam.eth.onSec = true) : s.failover p k = s :=
  if_neg fun hc => h.elim (· hc.1) fun h => by simp [h] at hc

theorem State.opParentSet_of_other {m n : Nat} {b : Bool} (h1 : s.roleAt 1 = some m) (h2 : s.roleAt 2 = some n) (hc : s.isCrown = false)
    (hb : s.lam.eth.onSec ≠ b) : s.opParentSet b = (s.moveParent b 2, {}) := by
  rw [State.opParentSet, h1, h2]
  exact (if_neg (by simp [hc])).trans (if_neg hb)

theorem State.opParentSet_of_alone (b : Bool) (h : s.roleAt 1 = none ∨ s.roleAt 2 = none) :
    s.opParentSet b = (s, { status := St.badParam }) := by
  rw [State.opParentSet]
  split
  next h1 h2 => exact absurd h (by simp [h1, h2])
  next => rfl

theorem exec_failback_of_due (h1 : s.roleAt 1 = some p) (hl : (s.ep p).liveFrom = some t0) (hs : s.lam.eth.onSec = true)
    (hf : s.lam.eth.failback = none) (hd : s.rl L.EGR_FAILBACK_MS ≤ msSince (s.now .lam) t0) : exec .failback s =
      if s.conservative .lam ∨ s.prepared then .next (s.il L.EGR_CNT_FAILBACK_REFUSED)
      else .next (State.failbackTry { s with lam := { s.lam with eth := { s.lam.eth with failback := some (s.now .lam) } } }) := by
  show execFailback s = _
  simp only [execFailback, h1, hl]
  exact if_pos ⟨hs, hf, hd⟩

theorem exec_failback_of_primary (h : s.roleAt 1 = none ∨ s.lam.eth.onSec = false) : exec .failback s = .next s := by
  show execFailback s = _
  rw [execFailback]
  split
  next h1 =>
    split
    next => exact if_neg fun hc => Bool.false_ne_true ((h.resolve_left (by simp [h1])).symm.trans hc.1)
    next => rfl
  next => rfl

theorem exec_failbackAckTimeout_of_due (hf : s.lam.eth.failback = some t0) (hd : 2000000 ≤ s.lam.clk.ns - t0) :
    exec .failbackAckTimeout s = .next (s.moveParent false 3) := by
  show execFailbackAckTimeout s = _
  rw [execFailbackAckTimeout, hf]
  exact if_pos hd

theorem exec_failbackAckTimeout_of_none (hf : s.lam.eth.failback = none) : exec .failbackAckTimeout s = .next s := by
  show execFailbackAckTimeout s = _
  rw [execFailbackAckTimeout, hf]

end Parent

/-- Settles O39: each row of the Ethernet ports by the case of its test that the clause names. -/
theorem ethernetFramesAndPortLoss : Obligations.EthernetFramesAndPortLoss := by
  unfold Obligations.EthernetFramesAndPortLoss
  refine ⟨?frame, ?bad, ?noFrame, ?inOrder, ?seen, ?gap, ?take, ?send, ?noSend, ?pick, ?link, ?noLink, ?ack, ?nak, ?noLinkRx, ?gate, ?noGate,
    ?pause, ?noPause, ?los, ?noLos, ?live, ?noLive, ?lost, ?failover, ?noFailover, ?parent, ?noParent, ?change, ?noChange, ?failbackRefused,
    ?failback, ?noFailback, ?ackTimeout, ?noAckTimeout, ?child, ?noChild⟩
  case frame => exact fun p f s => exec_ethFrameRx_of_credited
  case bad => exact fun p f s => exec_ethFrameRx_of_bad
  case noFrame => exact fun p f b s h => if_pos h
  case inOrder =>
    intro p f s h _
    have hd : sdiff16 f.fseq ((s.ep p).ch f.chan).rxSeq = 0 := by rw [← h, sdiff16_self]
    exact (State.frameRx_of_near fun _ => hd).trans (if_pos hd)
  case seen => exact fun p f s h0 hd => (State.frameRx_of_near fun h => absurd h h0).trans ((if_neg hd.ne).trans (if_pos (.inl hd)))
  case gap => exact fun p f s h0 hd hn => (State.frameRx_of_near fun h => absurd h h0).trans ((if_neg hd.ne').trans (if_pos (.inr hn)))
  case take => exact fun p f s => State.frameTake_of_link
  case send => exact fun p s h => exec_ethFrameTx.trans (if_pos h)
  case noSend => exact fun p s h => exec_ethFrameTx.trans (if_neg (by simp [h]))
  case pick => exact fun p l s f h hc hg hr => ⟨_, State.pickFrame_of_free hc hg hr, rfl, rfl⟩
  case link => exact fun p s hp hl h0 h5 => if_neg (by omega)
  case noLink => exact fun p s h => if_pos h
  case ack =>
    exact fun p f s hp hc h0 h5 hn hl => ⟨_, (exec_ethLinkFrameRx_of_live hp hc h0 h5 hl).trans (if_neg (by simp [hn])), State.linkSeen_shows⟩
  case nak =>
    intro p f s hp hc h0 h5 hn hl
    obtain ⟨hup, -, hlast, hitu⟩ := s.linkSeen_shows (p := p)
    exact ⟨_, (exec_ethLinkFrameRx_of_live hp hc h0 h5 hl).trans (if_pos hn), hup, hlast, hitu⟩
  case noLinkRx => exact fun p f s h => if_pos h
  case gate => exact fun p s hp hm he ht => (exec_gateEntryChange_of_free hp hm).trans (if_pos ⟨he, ht⟩)
  case noGate =>
    intro p s h
    by_cases hp : 24 ≤ p
    · exact if_pos hp
    · obtain ⟨hm, hlen⟩ := h.resolve_left hp
      exact (exec_gateEntryChange_of_free (not_le.mp hp) hm).trans (if_neg fun hc => hlen.not_gt hc.1)
  case pause => exact fun p s hp => if_pos hp
  case noPause => exact fun p s hp => if_neg hp.not_gt
  case los => exact fun p s hp hr => if_pos ⟨hp, hr⟩
  case noLos => exact fun p s h => if_neg (by omega)
  case live => exact fun p s hp hr hl hd => if_pos ⟨hp, hr, hl, hd⟩
  case noLive => exact fun p s h => if_neg fun ⟨_, _, hl, hd⟩ => h.elim (· hl) (hd.not_gt ·)
  case lost => exact fun p s _ => s.portLost_shows p
  case failover => exact fun s p h1 h k => State.failover_of_primary k h1 h
  case noFailover => exact fun s p h k => State.failover_of_other k h
  case parent => exact fun h b s m n h1 h2 hc hb => cmdLam_of_eq (State.opParentSet_of_other h1 h2 hc hb)
  case noParent => exact fun h b s hn => cmdLam_of_eq (State.opParentSet_of_alone b hn)
  case change => exact fun p r s hp hr ht => .of_eq (if_pos ⟨hp, hr, ht⟩) ⟨rfl, rfl, rfl, rfl⟩
  case noChange => exact fun p r s h => if_neg fun ⟨_, hr, ht⟩ => h.elim (· hr) (· ht)
  case failbackRefused => exact fun s p t0 h1 hl hs hf hd hc => (exec_failback_of_due h1 hl hs hf hd).trans (if_pos hc)
  case failback => exact fun s p t0 h1 hl hs hf hd hc hp => (exec_failback_of_due h1 hl hs hf hd).trans (if_neg (by simp [hc, hp]))
  case noFailback => exact fun s => exec_failback_of_primary
  case ackTimeout => exact fun s t0 => exec_failbackAckTimeout_of_due
  case noAckTimeout => exact fun s => exec_failbackAckTimeout_of_none
  case child => exact fun p s hp hr => if_pos ⟨hp, hr, rfl⟩
  case noChild => exact fun p s hr => ⟨if_neg fun h => hr h.2.1, if_neg fun h => hr h.2.1⟩

end Sys2Proof.Machine
end


section
/-! PROOFS. A record of its own port fails the model's trailer check (R175, R193): `Rec.trailerOf` seeds with
`r.die % 2 ^ 17 <<< 15`, in which the shift binds tighter than `%`, so that the seed holds DIE unshifted, while `trailCheck` seeds
with the port's id shifted by 15. -/

namespace Sys2Proof.Machine

/-- A record of die 1 but for its trailer. -/
def untrailedRec : Rec := { fmt := 3, cls := 0, typ := 0x001, len := 1, die := 1, gen := 0, short := 0, body := [] }

/-- A record with the trailer that the model gives it. -/
def Rec.trailed (r : Rec) : Rec := { r with trailer := r.trailerOf }

theorem Rec.trailer_trailed (r : Rec) : r.trailed.trailer = r.trailed.trailerOf := rfl

/-- At the port of die 1 the trailer of a record of die 1 reads as that of another die. -/
theorem trailCheck_untrailedRec : trailCheck 1 untrailedRec.trailed = .mismatch := by decide +kernel

/-- Refutes O40: the clause on the trailer check fails for a record of die 1, whose trailer is seeded with DIE unshifted. -/
theorem not_recordsArriveAndNodesRejoin : ¬ Obligations.RecordsArriveAndNodesRejoin := by
  unfold Obligations.RecordsArriveAndNodesRejoin
  rintro ⟨-, -, -, -, -, good, -⟩
  have h : trailCheck 1 untrailedRec.trailed = .good := good _ rfl (Rec.trailer_trailed _) (by decide) (by decide)
  exact absurd (trailCheck_untrailedRec.symm.trans h) (by decide)

end Sys2Proof.Machine
end


section
/-! PROOFS. Register words read and written by commands and by accesses (R4, R11, R12, R385 to R388). -/

namespace Sys2Proof.Machine

section Word
variable {s t : State} {sd : Side} {iss : Issuer} {a d b : Nat}

theorem Allowed.readWord (h : Allowed s sd iss a false 0) : s.readWord sd iss a = s.readOpen sd iss a := by
  rw [State.readWord, h.guard]
  rfl

/-- A word that an issuer may write, each field of it, takes the write at once. -/
theorem State.writeWord_of_allowed (hd : sd = .itu → digOwn a = false) (h : s.guard sd iss a true (s.wordAuth sd a) = (s, true))
    (hf : s.fieldShort sd iss.auth a d (strbMask b) = false) (hp : iss.path ≠ .pcie) :
    s.writeWord sd iss a d b = (s.putWord sd iss a d (strbMask b) false true).after sd := by
  have hown : ¬(sd = .itu ∧ digOwn a = true) := fun ⟨hs, hda⟩ => Bool.false_ne_true ((hd hs).symm.trans hda)
  have hpcie : ¬(iss.path = .pcie ∧ ((s.fieldsAt sd a).any fun f => f.1.acc == .rwc && bits (strbMask b) f.1.lo f.1.width != 0) = true) :=
    fun hc => hp hc.1
  simp only [State.writeWord, if_neg hown, h, hf, Bool.not_true, Bool.false_eq_true, if_false]
  rw [if_neg hpcie]

theorem State.writeServe_of_allowed (h : Allowed s .lam iss a true (s.wordAuth .lam a)) : s.writeServe iss a d b = (s.writeWord .lam iss a d b).serve := by
  rw [State.writeServe, h.guard]
  rfl

end Word

/-! A field of a word written (R4, R12). -/

section Field
variable {s : State} {sd : Side} {iss : Issuer} {a w m i j : Nat} {F : Fld} {c : Bool}

theorem State.putField_of_unwritable (h : F.acc = .ro ∨ F.acc = .rc) : s.putField sd iss a w m c (F, i, j) = s := by
  rw [State.putField]
  refine State.ite_keeps id rfl (State.ite_keeps id rfl ?_)
  rcases h with h | h
  · simp only [h, id]
  · simp only [h, id]

theorem State.putField_of_uncommitted (h : F.acc = .rwc) : s.putField sd iss a w m false (F, i, j) = s := by
  rw [State.putField]
  refine State.ite_keeps id rfl (State.ite_keeps id rfl ?_)
  simp only [h]
  rfl

theorem State.putField_of_w1c (h : F.acc = .w1c) (hm : bits m F.lo F.width ≠ 0) (ha : fieldAuth sd F a ≤ authLvl iss.auth) :
    s.putField sd iss a w m c (F, i, j) = s.setReg sd F i j
      (s.fieldVal sd F i j ^^^ (s.fieldVal sd F i j &&& (bits w F.lo F.width &&& bits m F.lo F.width))) := by
  rw [State.putField]
  simp only [h]
  exact (if_neg hm).trans (if_neg (by simp [ha]))

theorem State.putField_of_short (h : authLvl iss.auth < fieldAuth sd F a) : s.putField sd iss a w m false (F, i, j) = s := by
  rw [State.putField]
  exact State.ite_keeps id rfl (if_pos (by simp [h]))

end Field

/-! The register commands (R385, R388). -/

section Command
variable {s : State} {sd : Side} {h : CmdHdr} {sp a n b : Nat} {d : List Nat} {ws : List (Nat × Nat × Nat)}

theorem exec_regRead_of_here (hok : regParamOk h sp n = true) (hh : regHere sd sp = true) : exec (.regRead sd h sp a n) s = .next
    (State.reply (s.readWords sd (cmdIssuer sd h) (a / 4 * 4) n).2 sd { h with opcode := 2 }
      { data := (s.readWords sd (cmdIssuer sd h) (a / 4 * 4) n).1 }) := by
  have hop : s.opRegRead sd h sp a n = _ := if_neg (by simp [hok])
  show execRegRead sd h sp a n s = _
  rw [execRegRead, hop, hok, hh]
  rfl

theorem exec_regRead_of_bad (hok : regParamOk h sp n = false) :
    exec (.regRead sd h sp a n) s = .next (s.reply sd { h with opcode := 2 } { status := St.badParam }) := by
  have hop : s.opRegRead sd h sp a n = (s, { status := St.badParam }) := if_pos (by simp [hok])
  show execRegRead sd h sp a n s = _
  rw [execRegRead, hop, hok]
  rfl

theorem exec_regWrite_itu (hh : regParamOk h sp n = false ∨ sp = 0) :
    exec (.regWrite .itu h sp a n b d) s = .next (s.regWrite .itu h sp a n b d (s.now .itu)) := by
  refine if_neg fun hc => ?_
  obtain ⟨hok, hn⟩ := Bool.and_eq_true_iff.mp hc
  rcases hh with hh | rfl
  · exact Bool.false_ne_true (hh.symm.trans hok)
  · exact absurd hn (by decide)

theorem exec_regWrite_lam : exec (.regWrite .lam h 1 a n b d) s = .next (s.regWrite .lam h 1 a n b d (s.now .lam)).serve :=
  if_neg fun hc => absurd (Bool.and_eq_true_iff.mp hc).2 (by decide)

theorem regParamOk_opcode (h : CmdHdr) (k sp n : Nat) : regParamOk { h with opcode := k } sp n = regParamOk h sp n := rfl

theorem State.regWrite_of_bad (since : Nat) (hok : regParamOk h sp n = false) :
    s.regWrite sd h sp a n b d since = s.reply sd { h with opcode := 3 } { status := St.badParam } :=
  if_pos (by rw [regParamOk_opcode, hok]; rfl)

/-- Outside a transaction the words are written at once (R388). -/
theorem State.regWrite_of_now (since : Nat) (hok : regParamOk h sp n = true) (ht : h.inTxn = false)
    (hw : ws = (regWords a n b d).filter (fun w => w.2.2 != 0)) (hl : sd = .itu → ws.any (fun w => !s.loaderOk { h with opcode := 3 } w.1) = false) :
    s.regWrite sd h sp a n b d since =
      State.reply (s.regWriteNow sd { h with opcode := 3 } ws).1 sd { h with opcode := 3 } (s.regWriteNow sd { h with opcode := 3 } ws).2 := by
  have hload : ¬(sd = .itu ∧ ws.any (fun w => !s.loaderOk { h with opcode := 3 } w.1 || (h.inTxn && (stcPlaceOf .itu w.1).isSome)) = true) := by
    rintro ⟨hs, ha⟩
    simp only [ht, Bool.false_and, Bool.or_false] at ha
    exact Bool.false_ne_true ((hl hs).symm.trans ha)
  subst hw
  exact (if_neg (by rw [regParamOk_opcode, hok]; decide)).trans ((if_neg hload).trans (if_pos (by simp [ht])))

end Command

/-- Settles O41: an access or a command by the test it meets, a field by its access code and its authority. -/
theorem registerWordsAreReadAndWritten : Obligations.RegisterWordsAreReadAndWritten := by
  unfold Obligations.RegisterWordsAreReadAndWritten
  refine ⟨?read, ?noRead, ?expiry, ?writeItu, ?writeLam, ?word, ?noWord, ?unwritable, ?uncommitted, ?w1c, ?short, ?readItu, ?readLam, ?readBad,
    ?notHere, ?cmdItu, ?cmdLam, ?notInTxn, ?writeBad⟩
  case read =>
    intro sd iss a s h
    exact congrArg (fun r : Nat × State => (.next { r.2 with rdata := [r.1] } : Out)) h.readWord
  case noRead => exact fun sd iss a s t => exec_registerRead_of_refused
  case expiry => exact fun p s => rfl
  case writeItu => exact fun iss a d b s => rfl
  case writeLam => exact fun iss a d b s h => congrArg Host.Outcome.next (State.writeServe_of_allowed h)
  case word => exact fun s sd iss a d b => State.writeWord_of_allowed
  case noWord => exact fun s sd iss a d b t hd h => Refused.writeWord h hd d b
  case unwritable => exact fun s sd iss a w m c F i j => State.putField_of_unwritable
  case uncommitted => exact fun s sd iss a w m F i j => State.putField_of_uncommitted
  case w1c => exact fun s sd iss a w m c F i j => State.putField_of_w1c
  case short => exact fun s sd iss a w m c F i j h hc => hc ▸ State.putField_of_short h
  case readItu => exact fun h a n s hok => exec_regRead_of_here hok rfl
  case readLam => exact fun h a n s hok => exec_regRead_of_here hok rfl
  case readBad => exact fun sd h sp a n s => exec_regRead_of_bad
  case notHere => exact fun sd h sp a n b d s hok hh => ⟨if_pos (by simp [hok, hh]), if_pos (by simp [hok, hh])⟩
  case cmdItu =>
    exact fun h a n b d s ws hok ht hw hl =>
      (exec_regWrite_itu (.inr rfl)).trans (congrArg Host.Outcome.next (State.regWrite_of_now _ hok ht hw fun _ => hl))
  case cmdLam =>
    exact fun h a n b d s ws hok ht hw =>
      exec_regWrite_lam.trans (congrArg (fun u : State => (.next u.serve : Out)) (State.regWrite_of_now _ hok ht hw nofun))
  case notInTxn => exact fun s sd h ws h => if_pos h
  case writeBad =>
    exact fun h sp a n b d s hok =>
      (exec_regWrite_itu (.inl hok)).trans (congrArg Host.Outcome.next (State.regWrite_of_bad _ hok))

end Sys2Proof.Machine
end


section
/-! PROOFS. Admission, changes of banks and the staging of writes (R201, R276, R320, R383, R391). -/

namespace Sys2Proof.Machine

/-! Admission (R201). -/

section Admission
variable {s : State} {c : Nat}

/-- The bucket that ADMIT_SET gives a class: full. -/
def State.admitBucket (s : State) (c rate burst : Nat) : Bucket :=
  { s.itu.txq.bkt.getD c Bucket.none with rate := rate % 2 ^ 32, burst := burst % 2 ^ 24, level := burst % 2 ^ 24 * 1000000, at0 := s.now .itu }

/-- The ITU with a class's bucket replaced. -/
def State.setAdmit (s : State) (c : Nat) (b : Bucket) : State :=
  { s with itu := { s.itu with txq := { s.itu.txq with bkt := setNth Bucket.none s.itu.txq.bkt c b } } }

theorem State.bucket_setAdmit_self (b : Bucket) : (s.setAdmit c b).itu.txq.bkt.getD c Bucket.none = b := getD_setNth_self ..

theorem State.opAdmitSet_of_class (hc : c < 3) (r b : Nat) : s.opAdmitSet c r b = (s.setAdmit c (s.admitBucket c r b), {}) := if_neg hc.not_ge

theorem State.opAdmitGet_of_class (hc : c < 3) : s.opAdmitGet c = (s, { data :=
    let b := (s.itu.txq.bkt.getD c Bucket.none).refill s.itu.clk.ns; [b.rate, b.burst, b.level / 1000000] }) := if_neg hc.not_ge

end Admission

/-! Bank changes (R276, R320). -/

section Banks
variable {s : State} {h : CmdHdr} {i : Nat}

theorem State.bankSwap_of_txn {o since : Nat} (ht : h.inTxn = true) (h0 : o = 0 → s.forestOn = true) (h1 : o = 1 → fleetTxn h.txn = true) :
    s.bankSwap h o i since = s.stageAns .lam ⟨{ h with opcode := 4 }, [o % 2 ||| i % 64 <<< 1]⟩ since []
      [(o % 2, if o % 2 = 1 then 0 else i % 64)] := by
  refine (if_neg (by simp [ht])).trans ((if_neg ?_).trans (if_neg ?_))
  · exact fun ⟨ho, hf⟩ => by simp [h0 ho] at hf
  · exact fun ⟨ho, hf⟩ => by simp [h1 ho] at hf

theorem State.bankSwap_of_tray {since : Nat} (ht : h.inTxn = true) (hf : fleetTxn h.txn = false) :
    s.bankSwap h 1 i since = s.lamReply { h with opcode := 4 } { status := St.fleetField } :=
  (if_neg (by simp [ht])).trans ((if_neg (by simp)).trans (if_pos ⟨rfl, by simp [hf]⟩))

theorem State.forestUnload_of_on {since : Nat} (ht : h.inTxn = true) (hf : s.forestOn = true) : s.forestUnload h i since =
    s.stageAns .lam ⟨{ h with opcode := 0x31 }, [i % 64]⟩ since [] [(2, i % 64)] := (if_neg (by simp [ht])).trans (if_neg (by simp [hf]))

theorem State.forestUnload_of_off {since : Nat} (ht : h.inTxn = true) (hf : s.forestOn = false) : s.forestUnload h i since =
    s.lamReply { h with opcode := 0x31 } { status := St.domainOff } := (if_neg (by simp [ht])).trans (if_pos (by simp [hf]))

end Banks

/-! Staging (R391). -/

section Staging
variable {s : State} {h : CmdHdr} {ws : List (Nat × Nat × Nat)}

theorem State.stageLam_of_refused {sw : List (Nat × Nat)} {st : Nat} (hr : s.stageRefuse h = some st) : s.stageLam h ws sw = (s, some st) := by
  rw [State.stageLam, hr]

/-- The transaction that alone has words here takes more while there is room. -/
theorem State.stageLam_of_room {sw : List (Nat × Nat)} {g : Stg} (hr : s.stageRefuse h = none) (hb : s.retiring = false) (hg : s.lam.ctl.stg = [g])
    (ht : g.txn = h.txn) (hn : s.stagedCount + (stageAll g.words ws).length - g.words.length ≤ 16384) : s.stageLam h ws sw =
      (s.putStg { g with words := stageAll g.words ws, swaps := g.swaps ++ sw.filter fun x => !g.swaps.contains x }, some St.ok) := by
  have own : s.stgOf h.txn = some g := by simp [State.stgOf, hg, ht]
  rw [State.stageLam, hr, own, hg]
  refine (if_neg (by simp [ht, hb])).trans ?_
  exact if_neg (by simpa using hn)

theorem State.stageItu_of_other {g : Stg} (hg : s.itu.txn.stg = some g) (ht : g.txn ≠ h.txn) : s.stageItu h ws = (s, none) := by
  rw [State.stageItu, hg]
  exact if_pos ht

theorem State.stageItu_of_own {g : Stg} (hg : s.itu.txn.stg = some g) (ht : g.txn = h.txn) (hv : g.voted = false) (hw : g.wdog = false)
    (hn : (stageAll g.words ws).length ≤ 256) : s.stageItu h ws =
      ({ s with itu := { s.itu with txn := { s.itu.txn with stg := some { g with words := stageAll g.words ws } } } }, some St.ok) := by
  rw [State.stageItu, hg]
  exact (if_neg (not_not_intro ht)).trans ((if_neg (by simp [hv])).trans ((if_neg (by simp [hw])).trans (if_neg hn.not_gt)))

end Staging

/-- Settles O42: each command by its class, object or transaction, a staging by what is staged before it. -/
theorem admissionBanksAndStaging : Obligations.AdmissionBanksAndStaging := by
  unfold Obligations.AdmissionBanksAndStaging
  refine ⟨?nop, ?set, ?get, ?noClass, ?swapForest, ?swapGauntlet, ?swapOutside, ?swapTray, ?unload, ?unloadOff, ?unloadOutside, ?refused, ?room,
    ?other, ?own⟩
  case nop => exact fun h s => ⟨rfl, rfl⟩
  case set =>
    intro h c r b s hc
    have hb : (s.setAdmit c (s.admitBucket c r b)).itu.txq.bkt.getD c Bucket.none = s.admitBucket c r b := State.bucket_setAdmit_self _
    refine ⟨_, cmdItu_of_eq (State.opAdmitSet_of_class hc r b), ?_⟩
    rw [hb]
    exact ⟨rfl, rfl, rfl, rfl, rfl, rfl⟩
  case get => exact fun h c s b hc hb => hb ▸ cmdItu_of_eq (State.opAdmitGet_of_class hc)
  case noClass => exact fun h c r b s hc => ⟨cmdItu_of_eq (if_pos hc), cmdItu_of_eq (if_pos hc)⟩
  case swapForest =>
    intro h i s ht hf
    refine congrArg Host.Outcome.next ((State.bankSwap_of_txn (o := 0) ht (fun _ => hf) nofun).trans ?_)
    rw [Nat.zero_mod, Nat.zero_or]
    rfl
  case swapGauntlet => exact fun h i s ht hf => congrArg Host.Outcome.next (State.bankSwap_of_txn ht nofun fun _ => hf)
  case swapOutside => exact fun h o i s ht => congrArg Host.Outcome.next (if_pos (by simp [ht]))
  case swapTray => exact fun h i s ht hf => congrArg Host.Outcome.next (State.bankSwap_of_tray ht hf)
  case unload => exact fun h i s ht hf => congrArg Host.Outcome.next (State.forestUnload_of_on ht hf)
  case unloadOff => exact fun h i s ht hf => congrArg Host.Outcome.next (State.forestUnload_of_off ht hf)
  case unloadOutside => exact fun h i s ht => congrArg Host.Outcome.next (if_pos (by simp [ht]))
  case refused => exact fun s h ws sw st => State.stageLam_of_refused
  case room => exact fun s h ws sw g => State.stageLam_of_room
  case other => exact fun s h ws g => State.stageItu_of_other
  case own =>
    intro s h ws g hg ht hv hw hn
    rw [State.stageItu_of_own hg ht hv hw hn]
    exact ⟨rfl, rfl, rfl⟩

end Sys2Proof.Machine
end


section
/-! PROOFS. Command packets, the rings of the host, and replies that are merged (R67, R69, R378 to R383, R400). -/

namespace Sys2Proof.Machine

/-! The checks of a packet (R378 to R381). -/

section Packet
variable {s u v : State} {ws : List Nat} {p : Pkt} {e : Entry}

theorem State.cmdRx_of_form {st : Nat} (h : formStatus (Pkt.ofWords ws) ws = some st) :
    s.cmdRx .fleet ws = (s.il L.CMD_CNT_RX).cmdRefuse (Pkt.ofWords ws).hdr st := by
  have hp : (s.il L.CMD_CNT_RX).stampTray .fleet (Pkt.ofWords ws) = Pkt.ofWords ws := rfl
  simp only [State.cmdRx, hp, h]

theorem State.cmdRx_of_refused {st : Nat} (h : formStatus (Pkt.ofWords ws) ws = none)
    (hv : (s.il L.CMD_CNT_RX).cmdVerify .fleet (Pkt.ofWords ws) = (v, some st)) : s.cmdRx .fleet ws = v.cmdRefuse (Pkt.ofWords ws).hdr st := by
  have hp : (s.il L.CMD_CNT_RX).stampTray .fleet (Pkt.ofWords ws) = Pkt.ofWords ws := rfl
  simp only [State.cmdRx, hp, h, hv]

theorem State.cmdRx_of_verified (h : formStatus (Pkt.ofWords ws) ws = none)
    (hv : (s.il L.CMD_CNT_RX).cmdVerify .fleet (Pkt.ofWords ws) = (v, none)) : s.cmdRx .fleet ws =
      if sdiff16 (Pkt.ofWords ws).hdr.epoch ((s.il L.CMD_CNT_RX).rl L.CFG_EPOCH) < 0 then v.cmdRefuse (Pkt.ofWords ws).hdr St.staleEpoch
      else v.cmdRoute .fleet (Pkt.ofWords ws) := by
  have hp : (s.il L.CMD_CNT_RX).stampTray .fleet (Pkt.ofWords ws) = Pkt.ofWords ws := rfl
  simp only [State.cmdRx, hp, h, hv]

theorem State.cmdVerify_of_tray (ha : p.hdr.auth = 1) : u.cmdVerify .fleet p = (u.denied p.hdr, some St.denied) := by
  rw [State.cmdVerify, if_neg Entry.noConfusion, if_pos ha, if_neg Entry.noConfusion]

theorem State.cmdVerify_of_badTag {k : List Nat} (ha : p.hdr.auth = 2) (hk : u.fleetKey = some k) (ht : p.hdr.tag ≠ p.tagOf k) :
    u.cmdVerify .fleet p = (((u.il L.CMD_CNT_AUTH_FAIL).wl L.CMDQ_STAT_AUTH_FAIL 1).denied p.hdr, some St.authFail) := by
  have ha1 : ¬p.hdr.auth = 1 := by simp [ha]
  rw [State.cmdVerify, if_neg Entry.noConfusion, if_neg ha1, hk]
  exact if_pos (by simp [ht])

theorem State.cmdRoute_of_denied (ha : p.hdr.auth = 1) (ho : opFleet p.hdr.opcode = true) : s.cmdRoute e p = s.cmdDenied p.hdr :=
  if_pos (by simp [ha, ho])

theorem State.cmdRoute_of_mode (ha : p.hdr.auth = 2) (hm : (opModes p.hdr.opcode).contains p.hdr.amode = false) :
    s.cmdRoute e p = s.cmdRefuse p.hdr St.badTarget := (if_neg (by simp [ha])).trans (if_pos (by rw [hm]; rfl))

theorem State.cmdRoute_of_nop (ha : p.hdr.auth = 2) (ho : p.hdr.opcode = 1) (hm : p.hdr.amode = 2) (ht : p.hdr.inTxn = false)
    (hn : p.hdr.target % 2 ^ 19 = s.nodeNo) : s.cmdRoute e p = s.lamReply { p.hdr with opcode := 1 } {} := by
  have listed : (opModes p.hdr.opcode).contains p.hdr.amode = true := by
    rw [ho, hm]
    decide
  refine (if_neg (by simp [ha])).trans ((if_neg (by rw [listed]; decide)).trans ((if_neg (by simp [ho])).trans ?_))
  simp only [ht, hm, hn, Bool.false_eq_true, if_false, if_true, State.lamOp, ho]
  rfl

theorem formStatus_of_version (h : p.hdr.pver ≠ 1) : formStatus p ws = some St.badPacket := if_pos (.inl h)

theorem lt_of_mem_opModes (op : Nat) : ∀ m ∈ opModes op, m < 7 := by
  unfold opModes
  split <;> decide

end Packet

/-! The rings of the host (R400). -/

section Rings
variable {s : State}

theorem State.ringServe_of_idle (n : Nat)
    (h : s.rl L.CMDQ_CTL_ENABLE = 0 ∨ s.rl L.CMDQ_HEAD = s.rl L.CMDQ_TAIL ∨ s.replyRoom ≤ s.lam.replies.length) : State.ringServe n s = s := by
  cases n with
  | zero => rfl
  | succ n =>
    refine if_neg fun ⟨hon, hne, hroom, _⟩ => ?_
    rcases h with h | h | h
    · omega
    · exact hne h
    · exact h.not_gt hroom

theorem exec_replyRingWrite_stores {b : List Nat} {l : List (List Nat)} (hl : s.lam.replies = b :: l) (hroom : s.replyRoom ≠ 0) (hok : s.ddrOk = true) :
    ∃ (u : State) (a v : Nat) (bs : List Nat), u = { s with lam := { s.lam with replies := l, seq := (s.lam.seq + 1) % 2 ^ 32 } } ∧
      exec .replyRingWrite s =
        .next (((u.ddrPut a bs).wl L.RPLQ_TAIL ((s.rl L.RPLQ_TAIL + 1) % (u.ddrPut a bs).rl L.RPLQ_SLOTS)).raiseVec v).serve := by
  simp only [exec, execReplyRingWrite, hl]
  exact ⟨_, _, _, _, rfl, if_neg (by simp [hroom, hok])⟩

/-- A register of the rings is left by what stores the reply and raises the vector. -/
theorem State.rl_ringWrite (u : State) (a v n : Nat) (bs : List Nat) (F : Fld) (ha : 0x9008 ≤ F.addr)
    (hF : F.key 0 0 < L.DDR_CNT_POISON_CLEARED.key 0 0) (hne : F.key 0 0 ≠ L.RPLQ_TAIL.key 0 0) :
    (((u.ddrPut a bs).wl L.RPLQ_TAIL n).raiseVec v).rl F = u.rl F :=
  (State.rl_raiseVec _ _ _ _ _ ha).trans ((State.rl_wl_ne _ _ _ _ _ _ _ _ hne).trans (u.rl_ddrPut_of_lt _ _ _ _ _ hF))

end Rings

/-! Replies that are merged (R382). -/

section Merged
variable {s : State} {w : Bool × Nat} {b : List Nat} {m : Merge}

theorem State.replyRx_of_merge (hm : s.mergeOf (replyHdr b).origin (replyHdr b).issuer (replyHdr b).cmdId = some m) : s.replyRx w b =
    if m.wait.contains w then s.putMerge (m.hear w (nth b 3 % 2 ^ 18) (nth b 4 % 2 ^ 18) (replyFail b) (nth b 7) (b.drop 8)) else s := by
  simp only [State.replyRx, hm]

theorem exec_cmdMergeTimeout_of_merge {o i c : Nat} (hm : s.mergeOf o i c = some m) :
    exec (.cmdMergeTimeout o i c) s = if m.due ≤ s.now .lam then .next (s.mergeLate m) else .next s := by
  simp only [exec, execCmdMergeTimeout, hm]

theorem exec_cmdMergeTimeout_of_none {o i c : Nat} (hm : s.mergeOf o i c = none) : exec (.cmdMergeTimeout o i c) s = .next s := by
  simp only [exec, execCmdMergeTimeout, hm]

theorem State.replyRoute_of_host {h : CmdHdr} (ho : h.origin = s.nodeNo) (hi : h.issuer = 0) (ha : h.auth = 1) :
    s.replyRoute h b = { s with lam := { s.lam with replies := s.lam.replies ++ [b] } } :=
  (if_neg (by simp [hi])).trans (if_pos ⟨ho, hi, .inl ha⟩)

end Merged

/-- Settles O43: a packet by the first check of R381 that it fails, the rings by what waits, a reply by the merge that awaits it. -/
theorem commandPacketsRingsAndReplies : Obligations.CommandPacketsRingsAndReplies := by
  unfold Obligations.CommandPacketsRingsAndReplies
  refine ⟨?rx, ?rxItu, ?child, ?form, ?denied, ?badTag, ?stale, ?routed, ?trayFleet, ?mode, ?nop, ?version, ?modes, ?annLam, ?annItu, ?tail,
    ?ringIdle, ?ringTakes, ?replyWrite, ?noReplyWrite, ?reply, ?merged, ?notAwaited, ?late, ?notLate, ?noMerge, ?complete, ?silentLam, ?silentItu,
    ?host⟩
  case rx => exact fun e ws s => rfl
  case rxItu => exact fun e ws s => rfl
  case child => exact fun q ws s => rfl
  case form => exact fun ws st s => State.cmdRx_of_form
  case denied => exact fun ws s p hp h ha => by subst hp; exact State.cmdRx_of_refused h (State.cmdVerify_of_tray ha)
  case badTag => exact fun ws s p k u hp h ha hu hk ht => by subst hp hu; exact State.cmdRx_of_refused h (State.cmdVerify_of_badTag ha hk ht)
  case stale => exact fun ws s p u hp h hu hv hs => by subst hp hu; exact (State.cmdRx_of_verified h hv).trans (if_pos hs)
  case routed => exact fun ws s p u v hp h hu hv hs => by subst hp hu; exact (State.cmdRx_of_verified h hv).trans (if_neg hs.not_gt)
  case trayFleet => exact fun s e p => State.cmdRoute_of_denied
  case mode => exact fun s e p => State.cmdRoute_of_mode
  case nop => exact fun s e p => State.cmdRoute_of_nop
  case version => exact fun h ws hh hv => by subst hh; exact formStatus_of_version hv
  case modes => exact fun op => .inr (lt_of_mem_opModes op)
  case annLam => exact fun h a s => rfl
  case annItu => exact fun h a s => rfl
  case tail => exact fun iss v s h => congrArg Host.Outcome.next (State.writeServe_of_allowed h)
  case ringIdle => exact fun n s => State.ringServe_of_idle n
  case ringTakes => exact fun n s hon hne hroom hok => if_pos ⟨hon, hne, hroom, hok⟩
  case replyWrite =>
    intro s b l hl hroom hok hoff
    obtain ⟨u, a, v, bs, hu, e⟩ := exec_replyRingWrite_stores hl hroom hok
    generalize hn : (s.rl L.RPLQ_TAIL + 1) % (u.ddrPut a bs).rl L.RPLQ_SLOTS = n at e
    have hidle : (((u.ddrPut a bs).wl L.RPLQ_TAIL n).raiseVec v).rl L.CMDQ_CTL_ENABLE = 0 := by
      rw [State.rl_ringWrite _ _ _ _ _ _ (by decide) (by decide) (by decide), hu]
      exact hoff
    have hslots : (u.ddrPut a bs).rl L.RPLQ_SLOTS = s.rl L.RPLQ_SLOTS := by
      rw [State.rl_ddrPut_of_lt _ _ _ _ _ _ (by decide), hu]
      rfl
    obtain ⟨h1, h2, h3⟩ := State.replies_ddrPut u a bs
    obtain ⟨k1, k2, k3⟩ := State.replies_raiseVec ((u.ddrPut a bs).wl L.RPLQ_TAIL n) v
    rw [State.serve, State.ringServe_of_idle _ (.inl hidle)] at e
    refine .of_eq e ⟨k1.trans (h1.trans ?_), k2.trans (h2.trans ?_), ?_, k3.trans (h3.trans ?_)⟩
    · rw [hu]
    · rw [hu]
    · rw [State.rl_raiseVec _ _ _ _ _ (by decide), State.rl_wl_self, ← hn, hslots]
    · rw [hu]
  case noReplyWrite => exact fun s => exec_replyRingWrite_of_none
  case reply => exact fun d p b s => rfl
  case merged => exact fun w b s m h hh hm hw => by subst hh; exact (State.replyRx_of_merge hm).trans (if_pos hw)
  case notAwaited => exact fun w b s m h hh hm hw => by subst hh; exact (State.replyRx_of_merge hm).trans (if_neg (by rw [hw]; decide))
  case late => exact fun o i c s m hm hd => (exec_cmdMergeTimeout_of_merge hm).trans (if_pos hd)
  case notLate => exact fun o i c s m hm hd => (exec_cmdMergeTimeout_of_merge hm).trans (if_neg hd.not_ge)
  case noMerge => exact fun o i c s => exec_cmdMergeTimeout_of_none
  case complete => exact fun s m hw => if_pos hw
  case silentLam =>
    exact fun s h r hm hn hst => (State.lamReply_of_alone hm (by rw [hst]; rfl)).trans (if_pos (by rw [silent, hn, hst]; rfl))
  case silentItu => exact fun s h r hn hst => (State.ituReply_of_ok hst).trans (if_pos hn)
  case host => exact fun s h b => State.replyRoute_of_host

end Sys2Proof.Machine
end


section
/-! PROOFS. Stitch images and contexts: loaded, started, stopped and asked after (R404, R413, R418 to R420). -/

namespace Sys2Proof.Machine

/-! A context's registers, in either part. -/

section Registers
variable {s : State} {sd : Side} {c : Nat}

/-- A field of a context is left by the write of another one. -/
theorem State.rx_wx_word (F G F' G' : Fld) (v : Nat) (h1 : F'.s1 = F.s1) (h2 : F'.s2 = F.s2) (hF : 8 * F'.addr + F'.lo ≠ 8 * F.addr + F.lo)
    (k1 : G'.s1 = G.s1) (k2 : G'.s2 = G.s2) (hG : 8 * G'.addr + G'.lo ≠ 8 * G.addr + G.lo) :
    (s.wx sd F G v c).rx sd F' G' c = s.rx sd F' G' c :=
  s.rx_wx_ne _ _ _ _ _ _ _ _ (Fld.key_ne_of_base _ _ _ _ h1 h2 hF) (Fld.key_ne_of_base _ _ _ _ k1 k2 hG)

theorem State.rx_unwait (F G : Fld) (n : Nat) : (s.unwait sd c).rx sd F G n = s.rx sd F G n := by
  simp only [State.unwait, State.rx_setCtx, State.rx_setStc]

theorem State.ctx_unwait : (s.unwait sd c).ctx sd c = { s.ctx sd c with wait := .none } := by
  rw [State.unwait, State.ctx_setCtx]
  cases sd <;> rfl

/-- A context in RUN with an instruction to issue and budget left stays as it is. -/
theorem State.stcGoOn_of_room (hr : s.ctxState sd c = 1) (hp : (s.ctx sd c).pc < (s.ctx sd c).nInstr)
    (hb : (s.ctx sd c).spent < s.rx sd I.STC_CTX_BUDGET L.STC_CTX_BUDGET c) : s.stcGoOn sd c = s :=
  (if_neg (not_not_intro hr)).trans ((if_neg hp.not_ge).trans (if_neg hb.not_ge))

end Registers

/-! Images put in the store and loaded (R418, R419). -/

section Load
variable {s : State} {sd : Side} {k off : Nat} {start : Bool}

/-- What a load meets first: the domain, the enable, and a context that may be loaded. -/
theorem State.opStitchLoad_of_off (hp : s.ipdOn 4 = false) : s.opStitchLoad .itu k start off = (s, { status := St.domainOff }) :=
  if_pos ⟨rfl, by simp [hp]⟩

theorem not_off_of_on (hd : sd = .itu → s.ipdOn 4 = true) : ¬(sd = .itu ∧ (!s.ipdOn 4) = true) := fun ⟨hs, hp⟩ => by simp [hd hs] at hp

theorem State.opStitchLoad_of_disabled (hd : sd = .itu → s.ipdOn 4 = true) (h : s.stcOn sd = false ∨ stcContexts sd ≤ k) :
    s.opStitchLoad sd k start off = (s, { status := St.stcDisabled }) :=
  (if_neg (not_off_of_on hd)).trans (if_pos (h.imp_left fun h => by simp [h]))

section Enabled
variable (hd : sd = .itu → s.ipdOn 4 = true) (hon : s.stcOn sd = true) (hk : k < stcContexts sd)
include hd hon hk

theorem State.opStitchLoad_of_running (h0 : s.ctxState sd k ≠ 0) (h6 : s.ctxState sd k ≠ 6) :
    s.opStitchLoad sd k start off = (s, { status := St.stcRunning }) :=
  (if_neg (not_off_of_on hd)).trans ((if_neg (by simp [hon, hk])).trans (if_pos ⟨h0, h6⟩))

variable (hi : s.ctxState sd k = 0 ∨ s.ctxState sd k = 6) {a : Nat} {m : StcImage} (ha : a = s.stcBase + off) (hm : m = s.stcImage a)
include hi ha hm

theorem State.opStitchLoad_of_badImage (hok : m.ok sd off = false) : s.opStitchLoad sd k start off = (s, { status := St.stcBadImage }) := by
  subst hm ha
  exact (if_neg (not_off_of_on hd)).trans ((if_neg (by simp [hon, hk])).trans ((if_neg (by omega)).trans (if_pos (by rw [hok]; rfl))))

/-- The part of a load after the checks of the image's form. -/
theorem State.opStitchLoad_of_image (hok : m.ok sd off = true) : s.opStitchLoad sd k start off =
    match s.sigCheck 20 (s.lam.ddr.read ddrDefault (a + m.size) 128) (s.lam.ddr.read ddrDefault a m.size) with
    | .key => (s, { status := St.stcSigKey })
    | .fail => (s, { status := St.stcSigFail })
    | .ok =>
      if !stcProgOk sd m.nInstr 0 (s.ddrWords (a + 64) m.nInstr) then (s, { status := St.stcBadInstr })
      else if s.stcNoRoom sd k m.nInstr then (s, { status := St.stcNoRoom })
      else (if start then (s.stcInstall sd k a m).stcStart sd k else s.stcInstall sd k a m, {}) := by
  subst hm ha
  refine (if_neg (not_off_of_on hd)).trans ((if_neg (by simp [hon, hk])).trans ((if_neg (by omega)).trans ((if_neg (by rw [hok]; decide)).trans ?_)))
  rfl

theorem State.opStitchLoad_of_sigKey (hok : m.ok sd off = true)
    (hs : s.sigCheck 20 (s.lam.ddr.read ddrDefault (a + m.size) 128) (s.lam.ddr.read ddrDefault a m.size) = .key) :
    s.opStitchLoad sd k start off = (s, { status := St.stcSigKey }) := by rw [State.opStitchLoad_of_image hd hon hk hi ha hm hok, hs]

theorem State.opStitchLoad_of_sigFail (hok : m.ok sd off = true)
    (hs : s.sigCheck 20 (s.lam.ddr.read ddrDefault (a + m.size) 128) (s.lam.ddr.read ddrDefault a m.size) = .fail) :
    s.opStitchLoad sd k start off = (s, { status := St.stcSigFail }) := by rw [State.opStitchLoad_of_image hd hon hk hi ha hm hok, hs]

theorem State.opStitchLoad_of_signed (hok : m.ok sd off = true)
    (hs : s.sigCheck 20 (s.lam.ddr.read ddrDefault (a + m.size) 128) (s.lam.ddr.read ddrDefault a m.size) = .ok) :
    s.opStitchLoad sd k start off =
      if !stcProgOk sd m.nInstr 0 (s.ddrWords (a + 64) m.nInstr) then (s, { status := St.stcBadInstr })
      else if s.stcNoRoom sd k m.nInstr then (s, { status := St.stcNoRoom })
      else (if start then (s.stcInstall sd k a m).stcStart sd k else s.stcInstall sd k a m, {}) := by
  rw [State.opStitchLoad_of_image hd hon hk hi ha hm hok, hs]

end Enabled

/-- What a verified image leaves of its context. -/
theorem State.stcInstall_shows (s : State) (sd : Side) (c a : Nat) (m : StcImage) :
    ((s.stcInstall sd c a m).ctx sd c).nInstr = m.nInstr ∧ ((s.stcInstall sd c a m).ctx sd c).entry = m.entry ∧
    (s.stcInstall sd c a m).ctxState sd c = 0 ∧ (s.stcInstall sd c a m).rx sd I.STC_CTX_STAT_LOADED L.STC_CTX_STAT_LOADED c = 1 ∧
    (s.stcInstall sd c a m).rx sd I.STC_CTX_STAT_CAUSE L.STC_CTX_STAT_CAUSE c = 0 := by
  unfold State.stcInstall
  extract_lets +onlyGivenNames prog data t mem s1 k s2 s3 s4
  have hctx : (s4.setCtxState sd c 0).ctx sd c = { k with nInstr := m.nInstr, entry := m.entry } := by
    simp only [State.setCtxState, s4, s3, s2, State.ctx_wx, State.ctx_setCtx]
  rw [hctx]
  refine ⟨rfl, rfl, State.ctxState_setCtxState _ _ _ 0, ?_, ?_⟩
  · simp (disch := decide) only [State.setCtxState, s4, s3, State.rx_wx_word, State.rx_wx_self]
    cases sd <;> rfl
  · simp (disch := decide) only [State.setCtxState, s4, State.rx_wx_word, State.rx_wx_self]
    exact Nat.zero_mod _

theorem StcImage.bounds_of_ok {m : StcImage} (h : m.ok sd off = true) : m.entry < m.nInstr ∧ 1 ≤ m.nInstr ∧ m.nInstr ≤ stcStore sd ∧
    m.nData ≤ stcMem sd ∧ 256 ≤ m.budget ∧ off + m.size + 128 ≤ 16777216 := by
  simp only [StcImage.ok, Bool.and_eq_true, decide_eq_true_eq] at h
  obtain ⟨⟨⟨⟨⟨⟨⟨⟨⟨⟨⟨-, h1⟩, hst⟩, -⟩, hmem⟩, -⟩, hent⟩, -⟩, hbud⟩, -⟩, -⟩, hsize⟩ := h
  exact ⟨hent, h1, hst, hmem, hbud, hsize⟩

end Load

/-! Contexts started and stopped (R404). -/

section Run
variable {s : State} {sd : Side} {c : Nat}

/-- A context that has an instruction to issue and budget left starts in RUN, with its registers cleared. -/
theorem State.stcStart_shows (he : (s.ctx sd c).entry < (s.ctx sd c).nInstr)
    (hb : (s.ctx sd c).spent < s.rx sd I.STC_CTX_BUDGET L.STC_CTX_BUDGET c) :
    (s.stcStart sd c).ctxState sd c = 1 ∧ ((s.stcStart sd c).ctx sd c).pc = (s.ctx sd c).entry ∧
    ((s.stcStart sd c).ctx sd c).x = List.replicate 16 0 ∧ ((s.stcStart sd c).ctx sd c).latch = none ∧
    ((s.stcStart sd c).stc sd).mem = (s.stc sd).mem ∧ (s.stcStart sd c).rx sd I.STC_CTX_STAT_LAST L.STC_CTX_STAT_LAST c = 0 := by
  unfold State.stcStart
  extract_lets s1 k s2
  have hk : k = { s.ctx sd c with wait := .none } := State.ctx_unwait
  have hs2 : s2.ctx sd c = { nInstr := k.nInstr, entry := k.entry, held := k.held, spent := k.spent, refillAt := k.refillAt } := State.ctx_setCtx ..
  generalize hu : ((s2.setPc sd c k.entry).setLast sd c 0).setCtxState sd c 1 = u
  have hstate : u.ctxState sd c = 1 := hu ▸ State.ctxState_setCtxState _ _ _ 1
  have hctx : u.ctx sd c = { s2.ctx sd c with pc := k.entry } := by
    rw [← hu]
    simp only [State.setCtxState, State.setLast, State.setPc, State.ctx_wx, State.ctx_setCtx]
  have hbudget : u.rx sd I.STC_CTX_BUDGET L.STC_CTX_BUDGET c = s.rx sd I.STC_CTX_BUDGET L.STC_CTX_BUDGET c := by
    rw [← hu]
    simp (disch := decide) only [State.setCtxState, State.setLast, State.setPc, s2, s1, State.rx_wx_word, State.rx_setCtx, State.rx_unwait]
  have hgo : u.stcGoOn sd c = u := by
    refine State.stcGoOn_of_room hstate ?_ ?_
    · rw [hctx, hs2, hk]
      exact he
    · rw [hbudget, hctx, hs2, hk]
      exact hb
  rw [hgo, hctx, hs2, hk]
  refine ⟨hstate, rfl, rfl, rfl, ?_, ?_⟩
  · rw [← hu]
    simp only [State.setCtxState, State.setLast, State.setPc, State.setCtx, State.unwait, s2, s1, State.stc_wx, State.stc_setStc]
  · rw [← hu]
    simp (disch := decide) only [State.setCtxState, State.setLast, State.rx_wx_word, State.rx_wx_self]
    exact Nat.zero_mod _

theorem State.stcStop_of_running (h0 : s.ctxState sd c ≠ 0) (h6 : s.ctxState sd c ≠ 6) (cause : Nat) : s.stcStop sd c cause =
    ((s.unwait sd c).setCtxState sd c 0).wx sd I.STC_CTX_STAT_CAUSE L.STC_CTX_STAT_CAUSE cause c := if_neg (by omega)

theorem State.stcStop_shows {cause : Nat} (hc : cause < 16) (h0 : s.ctxState sd c ≠ 0) (h6 : s.ctxState sd c ≠ 6) :
    (s.stcStop sd c cause).ctxState sd c = 0 ∧ ((s.stcStop sd c cause).ctx sd c).wait = .none ∧
    (s.stcStop sd c cause).rx sd I.STC_CTX_STAT_CAUSE L.STC_CTX_STAT_CAUSE c = cause := by
  rw [State.stcStop_of_running h0 h6]
  refine ⟨?_, ?_, ?_⟩
  · simp (disch := decide) only [State.ctxState, State.setCtxState, State.rx_wx_word, State.rx_wx_self]
    exact Nat.zero_mod _
  · simp only [State.setCtxState, State.ctx_wx, State.ctx_unwait]
  · rw [State.rx_wx_self]
    cases sd <;> exact Nat.mod_eq_of_lt hc

end Run

/-! The stitch commands of either part. -/

section Command
variable {s t : State} {h : CmdHdr} {l : Bool} {sd : Side} {k : Nat}

theorem cmdStc_of_eq {op : State → State × CmdRes} {r : CmdRes} (e : op s = (t, r)) :
    (.next (s.cmdStc h l op) : Out) = .next (t.reply (stcPlace l) h r) := by
  cases l with
  | false => exact cmdItu_of_eq e
  | true => exact cmdLam_of_eq e

theorem State.opStitchStart_of_loaded (hd : sd = .itu → s.ipdOn 4 = true) (hon : s.stcOn sd = true) (hk : k < stcContexts sd)
    (hl : s.rx sd I.STC_CTX_STAT_LOADED L.STC_CTX_STAT_LOADED k = 1) : s.opStitchStart sd k = (s.stcStart sd k, {}) :=
  (if_neg (not_off_of_on hd)).trans ((if_neg (by simp [hon, hk])).trans (if_neg (by omega)))

theorem State.opStitchStart_of_empty (hd : sd = .itu → s.ipdOn 4 = true) (hon : s.stcOn sd = true) (hk : k < stcContexts sd)
    (hl : s.rx sd I.STC_CTX_STAT_LOADED L.STC_CTX_STAT_LOADED k = 0) : s.opStitchStart sd k = (s, { status := St.stcNoProgram }) :=
  (if_neg (not_off_of_on hd)).trans ((if_neg (by simp [hon, hk])).trans (if_pos hl))

theorem State.opStitchStart_of_disabled (hd : sd = .itu → s.ipdOn 4 = true) (h : s.stcOn sd = false ∨ stcContexts sd ≤ k) :
    s.opStitchStart sd k = (s, { status := St.stcDisabled }) :=
  (if_neg (not_off_of_on hd)).trans (if_pos (h.imp_left fun h => by simp [h]))

theorem State.opStitchStop_of_on (hd : sd = .itu → s.ipdOn 4 = true) (hon : s.stcOn sd = true) (hk : k < stcContexts sd) :
    s.opStitchStop sd k = (s.stcStop sd k 2, {}) := (if_neg (not_off_of_on hd)).trans (if_neg (by simp [hon, hk]))

theorem State.opStitchStop_of_disabled (hd : sd = .itu → s.ipdOn 4 = true) (h : s.stcOn sd = false ∨ stcContexts sd ≤ k) :
    s.opStitchStop sd k = (s, { status := St.stcDisabled }) :=
  (if_neg (not_off_of_on hd)).trans (if_pos (h.imp_left fun h => by simp [h]))

theorem State.opStitchQuery_of_context (hd : sd = .itu → s.ipdOn 4 = true) (hk : k < stcContexts sd) :
    s.opStitchQuery sd k = (s, { result := s.ctxStat sd k }) := (if_neg (not_off_of_on hd)).trans (if_neg hk.not_ge)

end Command

/-- Settles O46: each command by the first of its checks that fails, a context by what the load, the start and the stop leave of it. -/
theorem stitchImagesLoadAndRun : Obligations.StitchImagesLoadAndRun := by
  unfold Obligations.StitchImagesLoadAndRun
  refine ⟨?put, ?noPut, ?load, ?noLoad, ?installed, ?started, ?start, ?noProgram, ?stop, ?disabled, ?stopped, ?query, ?off, ?bounds⟩
  case put => exact fun h off bs s hb => cmdLam_of_eq (if_neg (by rw [List.length_map]; exact hb.not_gt))
  case noPut => exact fun h off bs s hb => cmdLam_of_eq (if_pos (by rw [List.length_map]; exact hb))
  case load =>
    intro h c l b off s sd k a m hsd hk ha hm hd hon hlt hi hok hs hp hr
    subst hsd hk
    refine cmdLam_of_eq ((State.opStitchLoad_of_signed hd hon hlt hi ha hm hok hs).trans ?_)
    exact (if_neg (by rw [hp]; decide)).trans (if_neg (by rw [hr]; decide))
  case noLoad =>
    intro h c l b off s sd k a m st hsd hk ha hm hst
    subst hsd hk
    suffices e : s.opStitchLoad (stcPlace l) (c % 32) b off = (s, { status := st }) from cmdLam_of_eq e
    rcases hst with ⟨hs, hp, rfl⟩ | ⟨hd, hon, rfl⟩ | ⟨hd, hon, hlt, ⟨h0, h6, rfl⟩ | ⟨hi, ⟨hok, rfl⟩ | ⟨hok, hsig⟩⟩⟩
    · rw [hs]
      exact State.opStitchLoad_of_off hp
    · exact State.opStitchLoad_of_disabled hd hon
    · exact State.opStitchLoad_of_running hd hon hlt h0 h6
    · exact State.opStitchLoad_of_badImage hd hon hlt hi ha hm hok
    · rcases hsig with ⟨hsig, rfl⟩ | ⟨hsig, rfl⟩ | ⟨hsig, ⟨hp, rfl⟩ | ⟨hp, hr, rfl⟩⟩
      · exact State.opStitchLoad_of_sigKey hd hon hlt hi ha hm hok hsig
      · exact State.opStitchLoad_of_sigFail hd hon hlt hi ha hm hok hsig
      · exact (State.opStitchLoad_of_signed hd hon hlt hi ha hm hok hsig).trans (if_pos (by rw [hp]; rfl))
      · exact (State.opStitchLoad_of_signed hd hon hlt hi ha hm hok hsig).trans ((if_neg (by rw [hp]; decide)).trans (if_pos hr))
  case installed => exact fun sd c a m s _ => s.stcInstall_shows sd c a m
  case started => exact fun sd c s _ => State.stcStart_shows
  case start => exact fun h c l s sd k hsd hk hd hon hlt hl => by subst hsd hk; exact cmdStc_of_eq (State.opStitchStart_of_loaded hd hon hlt hl)
  case noProgram => exact fun h c l s sd k hsd hk hd hon hlt hl => by subst hsd hk; exact cmdStc_of_eq (State.opStitchStart_of_empty hd hon hlt hl)
  case stop => exact fun h c l s sd k hsd hk hd hon hlt => by subst hsd hk; exact cmdStc_of_eq (State.opStitchStop_of_on hd hon hlt)
  case disabled =>
    exact fun h c l s sd hsd hd hon => by
      subst hsd
      exact ⟨cmdStc_of_eq (State.opStitchStart_of_disabled hd hon), cmdStc_of_eq (State.opStitchStop_of_disabled hd hon)⟩
  case stopped => exact fun sd c cause s _ => State.stcStop_shows
  case query => exact fun h c l s sd hsd hd hlt => by subst hsd; exact cmdStc_of_eq (State.opStitchQuery_of_context hd hlt)
  case off =>
    intro h c s hp
    have hoff : stcPlace false = .itu ∧ (!s.ipdOn 4) = true := ⟨rfl, by rw [hp]; rfl⟩
    exact ⟨cmdStc_of_eq (l := false) (if_pos hoff), cmdStc_of_eq (l := false) (if_pos hoff), cmdStc_of_eq (l := false) (if_pos hoff),
      fun _ => cmdStc_of_eq (l := false) (if_pos hoff), cmdStc_of_eq (l := false) (if_pos hoff)⟩
  case bounds => exact fun off sd m => StcImage.bounds_of_ok

end Sys2Proof.Machine
end


section
/-! PROOFS. Slot buffers through commands and registers, and the stop and enable bits of the stitch contexts (R413, R421, R424). -/

namespace Sys2Proof.Machine

section Slot
variable {s : State} {sd : Side} {n v : Nat}

theorem State.slotPop_of_full (h : s.slotFull sd n = true) : s.slotPop sd n = (some (s.slotData sd n), (s.slotEmpty sd n).stcSettle sd) := if_pos h
theorem State.slotPop_of_empty (h : s.slotFull sd n = false) : s.slotPop sd n = (none, s) := if_neg (by simp [h])
theorem State.slotPush_of_full (h : s.slotFull sd n = true) : s.slotPush sd n v = (false, s) := if_pos h
theorem State.slotPush_of_empty (h : s.slotFull sd n = false) : s.slotPush sd n v = (true, (s.slotFill sd n v).stcSettle sd) := if_neg (by simp [h])

section Command
variable (hd : sd = .itu → s.ipdOn 4 = true) (hn : n < stcSlots sd)
include hd hn

theorem State.opSlotWrite_of_push : s.opSlotWrite sd n v = ((s.slotPush sd n v).2, { status := if (s.slotPush sd n v).1 then St.ok else St.stcSlotFull }) :=
  (if_neg (not_off_of_on hd)).trans (if_neg hn.not_ge)

theorem State.opSlotRead_of_full (h : s.slotFull sd n = true) : s.opSlotRead sd n =
    ((s.slotEmpty sd n).stcSettle sd, { data := [s.slotData sd n % 2 ^ 32, s.slotData sd n / 2 ^ 32] }) := by
  rw [State.opSlotRead, if_neg (not_off_of_on hd), if_neg hn.not_ge, State.slotPop_of_full h]

theorem State.opSlotRead_of_empty (h : s.slotFull sd n = false) : s.opSlotRead sd n = (s, { status := St.stcSlotEmpty }) := by
  rw [State.opSlotRead, if_neg (not_off_of_on hd), if_neg hn.not_ge, State.slotPop_of_empty h]

end Command

theorem State.readSlotLo_of_full (p : Path) (h : s.slotFull sd n = true) : s.readSlotLo sd p n = (s.slotData sd n % 2 ^ 32,
    ((s.slotEmpty sd n).stcSettle sd).setLatch p (slotAddr sd n) [(slotAddr sd n + 4, s.slotData sd n / 2 ^ 32)]
      (((s.slotEmpty sd n).stcSettle sd).now sd)) := by rw [State.readSlotLo, State.slotPop_of_full h]

theorem State.readSlotLo_of_empty (p : Path) (h : s.slotFull sd n = false) :
    s.readSlotLo sd p n = (0, s.ix sd I.SLOT_CNT_EMPTY_READ L.SLOT_CNT_EMPTY_READ) := by rw [State.readSlotLo, State.slotPop_of_empty h]

theorem exec_slotDataLoRead_of_allowed {iss : Issuer} (ha : Allowed s sd iss (slotAddr sd n) false 0) (hn : n < stcSlots sd) :
    exec (.slotDataLoRead sd iss n) s = .next { (s.readSlotLo sd iss.path n).2 with rdata := [(s.readSlotLo sd iss.path n).1] } := by
  show execSlotDataLoRead sd iss n s = _
  rw [execSlotDataLoRead, ha.guard]
  exact if_pos (by simp [hn])

theorem exec_slotDataHiWrite_of_allowed {iss : Issuer} (ha : Allowed s sd iss (slotAddr sd n + 4) true 0) (hn : n < stcSlots sd) :
    exec (.slotDataHiWrite sd iss n v) s = .next (s.writeSlotHi sd iss.path n v) := by
  show execSlotDataHiWrite sd iss n v s = _
  rw [execSlotDataHiWrite, ha.guard]
  exact if_pos (by simp [hn])

/-- A held low word is not of the slots. -/
theorem State.slotFull_dropHold (p : Path) (a : Nat) : (s.dropHold p a).slotFull sd n = s.slotFull sd n := by cases sd <;> rfl

theorem State.writeSlotHi_of_empty {p : Path} {lo : Nat} (h : s.slotFull sd n = false) (hl : s.heldLow p (slotAddr sd n) = some lo) :
    s.writeSlotHi sd p n v =
      ((s.dropHold p (slotAddr sd n)).slotFill sd n (lo % 2 ^ 32 + v % 2 ^ 32 * 2 ^ 32)).stcSettle sd := by
  rw [State.writeSlotHi, hl, State.slotPush_of_empty ((s.slotFull_dropHold p _).trans h)]
  rfl

theorem State.writeSlotHi_of_full {p : Path} (h : s.slotFull sd n = true) :
    s.writeSlotHi sd p n v = (s.dropHold p (slotAddr sd n)).ix sd I.SLOT_CNT_DROP L.SLOT_CNT_DROP := by
  rw [State.writeSlotHi, State.slotPush_of_full ((s.slotFull_dropHold p _).trans h)]
  rfl

end Slot

theorem State.stcStopMask_zero (s : State) (sd : Side) : s.stcStopMask sd 0 = s :=
  foldl_eq_self fun c _ => if_neg (by simp [bitAt])

theorem State.setStcEnable_zero {s : State} (h : s.rl L.STC_CTL_ENABLE = 1) : s.setStcEnable (b2n false) = (s.wl L.STC_CTL_ENABLE 0).stcDisable .lam :=
  if_pos ⟨rfl, h⟩

theorem State.setStcEnable_one (s : State) : s.setStcEnable (b2n true) = s.wl L.STC_CTL_ENABLE 1 := if_neg fun h => absurd h.1 (by decide)

/-- Settles O47: a slot by whether it is full, the stop and enable bits by their value. -/
theorem stitchSlotsAndControlRegisters : Obligations.StitchSlotsAndControlRegisters := by
  unfold Obligations.StitchSlotsAndControlRegisters
  refine ⟨?write, ?writeFull, ?read, ?readEmpty, ?noSlot, ?stopItu, ?stopLam, ?noStop, ?enable, ?disable, ?lo, ?loEmpty, ?hi, ?hiFull⟩
  case write =>
    intro h n l v s sd hsd hd hn hf
    subst hsd
    refine cmdStc_of_eq ((State.opSlotWrite_of_push hd hn).trans ?_)
    rw [State.slotPush_of_empty hf]
    rfl
  case writeFull =>
    intro h n l v s sd hsd hd hn hf
    subst hsd
    refine cmdStc_of_eq ((State.opSlotWrite_of_push hd hn).trans ?_)
    rw [State.slotPush_of_full hf]
    rfl
  case read => exact fun h n l s sd hsd hd hn hf => by subst hsd; exact cmdStc_of_eq (State.opSlotRead_of_full hd hn hf)
  case readEmpty => exact fun h n l s sd hsd hd hn hf => by subst hsd; exact cmdStc_of_eq (State.opSlotRead_of_empty hd hn hf)
  case noSlot =>
    exact fun h n l v s sd hsd hd hn => by
      subst hsd
      exact ⟨cmdStc_of_eq ((if_neg (not_off_of_on hd)).trans (if_pos hn)), cmdStc_of_eq ((if_neg (not_off_of_on hd)).trans (if_pos hn))⟩
  case stopItu => exact fun iss m s ha => ha.next (·.stcStopMask .itu m)
  case stopLam => exact fun iss m s ha => ha.next (·.stcStopMask .lam m)
  case noStop => exact fun sd s => s.stcStopMask_zero sd
  case enable => exact fun iss s ha => (ha.next (·.setStcEnable (b2n true))).trans (congrArg Host.Outcome.next s.setStcEnable_one)
  case disable => exact fun iss s ha h => (ha.next (·.setStcEnable (b2n false))).trans (congrArg Host.Outcome.next (State.setStcEnable_zero h))
  case lo =>
    intro sd iss n s ha hn hf
    refine ⟨_, ?_, rfl⟩
    rw [exec_slotDataLoRead_of_allowed ha hn, State.readSlotLo_of_full _ hf]
  case loEmpty =>
    intro sd iss n s ha hn hf
    rw [exec_slotDataLoRead_of_allowed ha hn, State.readSlotLo_of_empty _ hf]
  case hi => exact fun sd iss n v lo s ha hn hf hl =>
    (exec_slotDataHiWrite_of_allowed ha hn).trans (congrArg Host.Outcome.next (State.writeSlotHi_of_empty hf hl))
  case hiFull => exact fun sd iss n v s ha hn hf =>
    (exec_slotDataHiWrite_of_allowed ha hn).trans (congrArg Host.Outcome.next (State.writeSlotHi_of_full hf))

end Sys2Proof.Machine
end


section
/-! PROOFS. Control flow of a stitch context (R404, R406 to R408): NOP, HALT, branches, and what a row does where its opcode does not stand. -/

namespace Sys2Proof.Machine

section Flow
variable {s : State} {sd : Side} {c w op : Nat}

/-- A context that issues is in RUN. -/
theorem State.Issues.run (h : s.Issues sd c op w) : s.ctxState sd c = 1 := by
  obtain ⟨hready, -⟩ := h
  simp only [State.stcReady, Bool.and_eq_true, beq_iff_eq] at hready
  exact hready.2

theorem State.ctxState_issued (s : State) (sd : Side) (c : Nat) : (s.issued sd c).ctxState sd c = s.ctxState sd c := by
  simp (disch := decide) only [State.ctxState, State.issued, State.setPc, State.rx_wx_word, State.rx_setCtx]
  rw [State.rx_ix_ne, State.rx_setCtx]
  · exact Fld.key_ne_of_base _ _ _ _ rfl rfl (by decide)
  · exact Fld.key_ne_of_base _ _ _ _ rfl rfl (by decide)

/-- HALT stops its context, which does not go on. -/
theorem exec_halt_of_issues (h : s.Issues sd c 0x00 w) : exec (.halt sd c) s = .next
    ((((s.issued sd c).unwait sd c).setCtxState sd c 0).wx sd I.STC_CTX_STAT_CAUSE L.STC_CTX_STAT_CAUSE 1 c) := by
  have hrun : (s.issued sd c).ctxState sd c = 1 := (s.ctxState_issued sd c).trans h.run
  have h0 : (s.issued sd c).ctxState sd c ≠ 0 := by omega
  have h6 : (s.issued sd c).ctxState sd c ≠ 6 := by omega
  have hstop := (State.stcStop_shows (cause := 1) (by decide) h0 h6).1
  refine congrArg Host.Outcome.next ((State.stcIssue_of_issues _ _ _ _ _ _ h).trans ?_)
  rw [State.stcGoOn_of_not_run _ _ _ (by rw [hstop]; decide), State.stcStop_of_running h0 h6]

/-- A jump from an issued instruction counts from the instruction's own index. -/
theorem State.stcJump_issued_of_nonneg {off : Int} (h : 0 ≤ (s.ctx sd c).pc + off) :
    (s.issued sd c).stcJump sd c off = (s.issued sd c).setPc sd c ((s.ctx sd c).pc + off).toNat := by
  have ht : (((s.issued sd c).ctx sd c).pc : Int) - 1 + off = (s.ctx sd c).pc + off := by
    rw [State.ctx_issued]
    push_cast
    omega
  rw [State.stcJump, ht]
  exact if_pos h

theorem State.stcJump_issued_of_neg {off : Int} (h : (s.ctx sd c).pc + off < 0) : (s.issued sd c).stcJump sd c off =
    ((s.issued sd c).free.2.setPc sd c (ofS 14 ((s.ctx sd c).pc + off))).stcFault sd c 4 (s.issued sd c).free.1 := by
  have ht : (((s.issued sd c).ctx sd c).pc : Int) - 1 + off = (s.ctx sd c).pc + off := by
    rw [State.ctx_issued]
    push_cast
    omega
  rw [State.stcJump, ht]
  exact if_neg h.not_ge

/-- Instruction i of opcode op jumps by off where g of xD and xA holds. -/
def State.Jumps (s : State) (sd : Side) (c w : Nat) (i : Instr) (op : Nat) (g : Nat → Nat → Bool) (off : Int) : Prop :=
  s.Issues sd c op w → exec i s = .next ((if g ((s.ctx sd c).reg (iD w)) ((s.ctx sd c).reg (iA w)) then (s.issued sd c).stcJump sd c off
    else s.issued sd c).stcGoOn sd c)

theorem State.jumps_of_stcB {i : Instr} {g : Nat → Nat → Bool} (hi : exec i s = .next (s.stcB sd c op g)) : s.Jumps sd c w i op g (imm18S w) := by
  intro h
  rw [hi, State.stcB, State.stcIssue_of_issues _ _ _ _ _ _ h, State.reg_issued, State.reg_issued]

theorem State.jumps_jmp : s.Jumps sd c w (.jmp sd c) 0x1B (fun _ _ => true) (imm22S w) :=
  fun h => congrArg Host.Outcome.next (State.stcIssue_of_issues _ _ _ _ _ _ h)

/-- A jump taken or not, by where it leads. -/
theorem State.Jumps.cases {i : Instr} {g : Nat → Nat → Bool} {off : Int} (hj : s.Jumps sd c w i op g off) (h : s.Issues sd c op w) :
    (g ((s.ctx sd c).reg (iD w)) ((s.ctx sd c).reg (iA w)) = false → exec i s = .next ((s.issued sd c).stcGoOn sd c)) ∧
    (g ((s.ctx sd c).reg (iD w)) ((s.ctx sd c).reg (iA w)) = true → 0 ≤ (s.ctx sd c).pc + off →
      exec i s = .next (((s.issued sd c).setPc sd c ((s.ctx sd c).pc + off).toNat).stcGoOn sd c)) ∧
    (g ((s.ctx sd c).reg (iD w)) ((s.ctx sd c).reg (iA w)) = true → (s.ctx sd c).pc + off < 0 →
      exec i s = .next (((((s.issued sd c).free.2).setPc sd c (ofS 14 ((s.ctx sd c).pc + off))).stcFault sd c 4
        (s.issued sd c).free.1).stcGoOn sd c)) := by
  refine ⟨fun hg => ?_, fun hg ht => ?_, fun hg ht => ?_⟩
  · rw [hj h, if_neg (by simp [hg])]
  · rw [hj h, if_pos hg, State.stcJump_issued_of_nonneg ht]
  · rw [hj h, if_pos hg, State.stcJump_issued_of_neg ht]

/-- The state in which the record of a fault is made (R404, R417). -/
def State.stcFaulted (s : State) (sd : Side) (c cause : Nat) : State :=
  let s := ((s.unwait sd c).setCtxState sd c 6).wx sd I.STC_CTX_STAT_CAUSE L.STC_CTX_STAT_CAUSE cause c
  s.wx sd I.STC_STAT_FAULT L.STC_STAT_FAULT (s.rx sd I.STC_STAT_FAULT L.STC_STAT_FAULT ||| 2 ^ c)

/-- A record made leaves the stitch contexts. -/
theorem LamSent.ctx {t : State} (h : LamSent s t) : t.ctx .lam c = s.ctx .lam c := by rw [h.1]; rfl
theorem ItuSent.ctx {t : State} (h : ItuSent s t) : t.ctx .itu c = s.ctx .itu c := by rw [h.1]; rfl

theorem State.stcFault_reads (s : State) (sd : Side) (c cause w : Nat) (h6 : cause ≠ 6) : (s.stcFault sd c cause w).ctx sd c = (s.stcFaulted sd c cause).ctx sd c ∧
    ∀ F G : Fld, F.key c 0 ≠ I.ILNK_CNT_Q_REFUSED.key 0 0 → G.key c 0 ≠ L.STAT_CNT_ADMIT_REFUSED.key 0 0 →
      (s.stcFault sd c cause w).rx sd F G c = (s.stcFaulted sd c cause).rx sd F G c := by
  cases sd with
  | lam =>
    have h : LamSent (s.stcFaulted .lam c cause) (s.stcFault .lam c cause w) := lamSent_lamEmit ..
    exact ⟨h.ctx, fun F G _ hG => h.rl _ _ _ hG⟩
  | itu =>
    have e : s.stcFault .itu c cause w = _ := if_neg h6
    have h : ItuSent (s.stcFaulted .itu c cause) (s.stcFault .itu c cause w) := by
      rw [e]
      exact ituSent_ituEmit ..
    exact ⟨h.ctx, fun F G hF _ => h.ri _ _ _ hF⟩

/-- A field of context c is left by what the fault does to the summary of faults and its record. -/
theorem State.rx_stcFault {cause : Nat} (h6 : cause ≠ 6) (hlt : c < stcContexts sd) (F G : Fld) (f1 : F.s1 = 0x40) (f2 : F.addr = 0x8108)
    (g1 : G.s1 = 0x40) (g2 : G.addr = 0x130108) (hF : F.lo < 32) (hG : G.lo < 32) : (s.stcFault sd c cause w).rx sd F G c =
      (((s.unwait sd c).setCtxState sd c 6).wx sd I.STC_CTX_STAT_CAUSE L.STC_CTX_STAT_CAUSE cause c).rx sd F G c := by
  have hc : c < 32 := hlt.trans_le (by cases sd <;> decide)
  refine ((s.stcFault_reads sd c cause w h6).2 F G ?_ ?_).trans (State.rx_wx_ne _ _ _ _ _ _ _ _ _ ?_ ?_)
  · simp only [Fld.key, I.ILNK_CNT_Q_REFUSED, f1, f2]
    omega
  · simp only [Fld.key, L.STAT_CNT_ADMIT_REFUSED, g1, g2]
    omega
  · simp only [Fld.key, I.STC_STAT_FAULT, f1, f2]
    omega
  · simp only [Fld.key, L.STC_STAT_FAULT, g1, g2]
    omega

theorem State.stcFault_shows {cause : Nat} (hlt : c < stcContexts sd) (h6 : cause ≠ 6) (hc : cause < 16) :
    (s.stcFault sd c cause w).ctxState sd c = 6 ∧ ((s.stcFault sd c cause w).ctx sd c).wait = .none ∧
    (s.stcFault sd c cause w).rx sd I.STC_CTX_STAT_CAUSE L.STC_CTX_STAT_CAUSE c = cause := by
  refine ⟨(State.rx_stcFault h6 hlt _ _ rfl rfl rfl rfl (by decide) (by decide)).trans ?_, ?_,
    (State.rx_stcFault h6 hlt _ _ rfl rfl rfl rfl (by decide) (by decide)).trans ?_⟩
  · simp (disch := decide) only [State.rx_wx_word]
    exact State.ctxState_setCtxState _ _ _ 6
  · rw [(s.stcFault_reads sd c cause w h6).1]
    simp only [State.stcFaulted, State.setCtxState, State.ctx_wx, State.ctx_unwait]
  · rw [State.rx_wx_self]
    cases sd <;> exact Nat.mod_eq_of_lt hc

end Flow

/-! Rows whose opcode does not stand at the context's PC. -/

section Rows
variable {s : State} {sd : Side} {c : Nat}

/-- Instruction i is the issue of opcode op by context c. -/
def State.IssueRow (s : State) (sd : Side) (c : Nat) (i : Instr) (op : Nat) : Prop := ∃ f, exec i s = .next (s.stcIssue sd c op f)

/-- Such a row has no effect of its own unless a good word of its opcode stands before a context that is ready. -/
theorem State.IssueRow.idle {i : Instr} {op : Nat} (h : s.IssueRow sd c i op) : (s.stcReady sd c = false → exec i s = .next s) ∧
    (s.stcReady sd c = true → stcWordOk sd (s.stcWord sd c) = false → exec i s = .next (s.stcFault sd c 3 (s.stcWord sd c))) ∧
    (s.stcReady sd c = true → stcWordOk sd (s.stcWord sd c) = true → iOp (s.stcWord sd c) ≠ op → exec i s = .next s) := by
  obtain ⟨f, e⟩ := h
  rw [e]
  exact ⟨fun hr => congrArg Host.Outcome.next (s.stcIssue_not_ready sd c op f hr),
    fun hr hw => congrArg Host.Outcome.next (s.stcIssue_bad_word sd c op f hr hw),
    fun _ hw ho => congrArg Host.Outcome.next (s.stcIssue_other sd c op f ho hw)⟩

/-- Every row of a table is the issue of its opcode where the first and the others are. -/
theorem forall_mem_cons_pair {α β : Type} {P : α → β → Prop} {a : α} {b : β} {l : List (α × β)} (h : P a b) (hl : ∀ i o, (i, o) ∈ l → P i o) :
    ∀ i o, (i, o) ∈ (a, b) :: l → P i o := by
  intro i o hm
  rcases List.mem_cons.mp hm with e | hm
  · obtain ⟨rfl, rfl⟩ := e
    exact h
  · exact hl i o hm

/-- Every row of a table is the issue of its opcode. -/
def State.IssueRows (s : State) (sd : Side) (c : Nat) (l : List (Instr × Nat)) : Prop := ∀ i op, (i, op) ∈ l → s.IssueRow sd c i op

theorem State.stcF_eq_stcIssue (s : State) (sd : Side) (c op : Nat) (g : Nat → Nat → Nat) : s.stcF sd c op g = s.stcIssue sd c op fun w s =>
    s.setX sd c (iD w) (g ((s.ctx sd c).reg (iA w) % 2 ^ 32) ((s.ctx sd c).reg (iB w) % 2 ^ 32)) := rfl

theorem State.IssueRows.nil : s.IssueRows sd c [] := fun _ _ h => absurd h List.not_mem_nil

theorem State.IssueRows.cons {i : Instr} {op : Nat} {l : List (Instr × Nat)} {f : Nat → State → State}
    (h : exec i s = .next (s.stcIssue sd c op f)) (hl : s.IssueRows sd c l) : s.IssueRows sd c ((i, op) :: l) := forall_mem_cons_pair ⟨f, h⟩ hl

/-- The same of an FP32 instruction. -/
theorem State.IssueRows.fp32 {i : Instr} {op : Nat} {l : List (Instr × Nat)} {g : Nat → Nat → Nat} (h : exec i s = .next (s.stcF sd c op g))
    (hl : s.IssueRows sd c l) : s.IssueRows sd c ((i, op) :: l) := hl.cons (h.trans (congrArg Host.Outcome.next (s.stcF_eq_stcIssue sd c op g)))

end Rows

/-- A Lamulo has no RDC and no CRC, an ITU no RDT (R408). -/
theorem iOp_ne_of_lam {w : Nat} (h : stcWordOk .lam w = true) : iOp w ≠ 0x26 ∧ iOp w ≠ 0x2A :=
  ⟨fun ho => by simp [stcWordOk, ho] at h, fun ho => by simp [stcWordOk, ho] at h⟩

theorem iOp_ne_of_itu {w : Nat} (h : stcWordOk .itu w = true) : iOp w ≠ 0x27 := fun ho => by simp [stcWordOk, ho] at h

/-- Settles O49: NOP, HALT and the jumps by their effect on the issued state, every other row by why it does not issue. -/
theorem stitchControlFlow : Obligations.StitchControlFlow := by
  unfold Obligations.StitchControlFlow
  refine ⟨?nop, ?halt, ?jumps, ?pc, ?rows, ?ituRows, ?rdt, ?lamWords, ?ituWords, ?fault⟩
  case nop => exact fun sd c s w h => congrArg Host.Outcome.next (State.stcIssue_of_issues _ _ _ _ _ _ h)
  case halt => exact fun sd c s w => exec_halt_of_issues
  case jumps =>
    intro sd c s w i op g off h hi
    suffices rows : ∀ i op (p : (Nat → Nat → Bool) × Int), (i, op, p) ∈ _ → s.Jumps sd c w i op p.1 p.2 from
      State.Jumps.cases (rows i op (g, off) hi) h
    exact forall_mem_cons_row (State.jumps_of_stcB rfl) <| forall_mem_cons_row (State.jumps_of_stcB rfl) <|
      forall_mem_cons_row (State.jumps_of_stcB rfl) <| forall_mem_cons_row State.jumps_jmp fun _ _ _ h => absurd h List.not_mem_nil
  case pc =>
    intro sd c v s
    rw [State.setPc, State.ctx_wx, State.ctx_setCtx]
  case rows =>
    intro sd c s i op hi
    refine State.IssueRow.idle ((?_ : s.IssueRows sd c _) i op hi)
    exact .cons rfl <| .cons rfl <| .cons rfl <| .cons rfl <| .cons rfl <| .cons rfl <| .cons rfl <| .cons rfl <| .cons rfl <| .cons rfl <|
      .cons rfl <| .cons rfl <| .cons rfl <| .cons rfl <| .cons rfl <| .cons rfl <|
      .fp32 rfl <| .fp32 rfl <| .fp32 rfl <| .fp32 rfl <| .fp32 rfl <| .fp32 rfl <|
      .cons rfl <| .cons rfl <| .cons rfl <| .cons rfl <| .cons rfl <| .cons rfl <| .cons rfl <| .cons rfl <| .cons rfl <| .cons rfl <|
      .cons rfl <| .cons rfl <| .cons rfl <| .cons rfl <| .cons rfl <| .cons rfl <| .nil
  case ituRows =>
    intro c s i op hi
    exact State.IssueRow.idle ((.cons rfl <| .cons rfl .nil : s.IssueRows .itu c _) i op hi)
  case rdt => exact fun c s h => congrArg Host.Outcome.next (s.stcIssue_not_ready .lam c 0x27 _ h)
  case lamWords => exact fun w => iOp_ne_of_lam
  case ituWords => exact fun w => iOp_ne_of_itu
  case fault => exact fun sd c cause w s => State.stcFault_shows

end Sys2Proof.Machine
end


section
/-! PROOFS. Waits of stitch contexts: begun, met, timed out, and budgets refilled (R409 to R412). -/

namespace Sys2Proof.Machine

section Wait
variable {s : State} {sd : Side} {c w n : Nat}

/-- WAITS leaves its context in WAITS, which does not go on. -/
theorem exec_waits_of_issues (h : s.Issues sd c 0x24 w) : exec (.waits sd c) s = .next
    (((s.issued sd c).setCtx sd c { (s.issued sd c).ctx sd c with
      wait := .slot (bits w 0 6) (bits w 6 4) (bitAt w 10) none, since := s.now sd }).setCtxState sd c 2) := by
  refine congrArg Host.Outcome.next ((State.stcIssue_of_issues _ _ _ _ _ _ h).trans ?_)
  rw [State.stcGoOn_of_not_run _ _ _ (by rw [State.ctxState_setCtxState]; decide), State.now_issued]

theorem exec_waitsRelease_of_met {sl d t k e : Nat} {ph : Bool} (hw : (s.ctx sd c).wait = .slot sl d ph (some (t, k, e))) :
    exec (.waitsRelease sd c) s = if sd = .lam ∨ e + s.itu.par.tapLat + 1 ≤ s.itu.smp.cyc then
      .next ((s.setCtx sd c { s.ctx sd c with latch := some (t, k, e) }).stcResume sd c) else .next s := by
  show execWaitsRelease sd c s = _
  rw [execWaitsRelease, hw]

/-- A wait for a slot that no boundary has met ends in no way. -/
theorem exec_waits_of_unmet {sl d : Nat} {ph : Bool} (hw : (s.ctx sd c).wait = .slot sl d ph none) :
    exec (.waitsRelease sd c) s = .next s ∧ exec (.waittRelease sd c) s = .next s ∧ exec (.slotWaitTimeout sd c) s = .next s := by
  refine ⟨?_, ?_, ?_⟩
  · simp only [exec, execWaitsRelease, hw]
  · simp only [exec, execWaittRelease, hw]
  · simp only [exec, execSlotWaitTimeout, hw]

/-- The time that a stall on slot n may take has passed (R412). -/
abbrev State.stallDue (s : State) (sd : Side) (c n : Nat) : Prop :=
  s.rx sd I.SLOT_CFG_TO_US L.SLOT_CFG_TO_US n * 1000 ≤ s.now sd - (s.ctx sd c).since

theorem exec_slotWaitTimeout_of_read {d : Nat} (hw : (s.ctx sd c).wait = .read n d) (h : s.stallDue sd c n) : exec (.slotWaitTimeout sd c) s =
    .next ((((s.setX sd c d 0).setLast sd c 1).ix sd I.STC_CNT_EMPTY_TO L.STC_CNT_EMPTY_TO c).stcResume sd c) := by
  show execSlotWaitTimeout sd c s = _
  rw [execSlotWaitTimeout, hw]
  exact if_pos (decide_eq_true h)

theorem exec_slotWaitTimeout_of_write {v : Nat} (hw : (s.ctx sd c).wait = .write n v) (h : s.stallDue sd c n) : exec (.slotWaitTimeout sd c) s =
    .next (((s.setLast sd c 2).ix sd I.STC_CNT_FULL L.STC_CNT_FULL c).stcResume sd c) := by
  show execSlotWaitTimeout sd c s = _
  rw [execSlotWaitTimeout, hw]
  exact if_pos (decide_eq_true h)

theorem exec_slotWaitTimeout_of_early (hw : (∃ d, (s.ctx sd c).wait = .read n d) ∨ (∃ v, (s.ctx sd c).wait = .write n v)) (h : ¬s.stallDue sd c n) :
    exec (.slotWaitTimeout sd c) s = .next s := by
  show execSlotWaitTimeout sd c s = _
  rcases hw with ⟨d, hw⟩ | ⟨v, hw⟩
  · rw [execSlotWaitTimeout, hw]
    exact if_neg fun hd => h (of_decide_eq_true hd)
  · rw [execSlotWaitTimeout, hw]
    exact if_neg fun hd => h (of_decide_eq_true hd)

/-- A refill clears what is spent, and a context in BUDGET runs again (R409). -/
theorem State.stcRefill_shows (s : State) (sd : Side) (c : Nat) :
    (s.stcRefill sd c).ctx sd c = { s.ctx sd c with spent := 0, refillAt := s.now sd } ∧
      (s.stcRefill sd c).ctxState sd c = if s.ctxState sd c = 5 then 1 else s.ctxState sd c := by
  unfold State.stcRefill
  extract_lets k u
  have hs : u.ctxState sd c = s.ctxState sd c := State.rx_setCtx ..
  rw [hs]
  constructor
  · exact (State.ite_keeps (·.ctx sd c) (State.ctx_wx ..) rfl).trans (State.ctx_setCtx ..)
  · split
    · exact State.ctxState_setCtxState _ _ _ 1
    · exact hs

/-- A context that resumes with an instruction to issue and budget left is in RUN. -/
theorem State.stcResume_shows (hp : (s.ctx sd c).pc < (s.ctx sd c).nInstr)
    (hb : (s.ctx sd c).spent < s.rx sd I.STC_CTX_BUDGET L.STC_CTX_BUDGET c) :
    (s.stcResume sd c).ctxState sd c = 1 ∧ ((s.stcResume sd c).ctx sd c).wait = .none := by
  have hctx : ((s.unwait sd c).setCtxState sd c 1).ctx sd c = { s.ctx sd c with wait := .none } := (State.ctx_wx ..).trans State.ctx_unwait
  have hstate : ((s.unwait sd c).setCtxState sd c 1).ctxState sd c = 1 := State.ctxState_setCtxState _ _ _ 1
  have hbudget : ((s.unwait sd c).setCtxState sd c 1).rx sd I.STC_CTX_BUDGET L.STC_CTX_BUDGET c = s.rx sd I.STC_CTX_BUDGET L.STC_CTX_BUDGET c := by
    simp (disch := decide) only [State.setCtxState, State.rx_wx_word, State.rx_unwait]
  rw [State.stcResume, State.stcGoOn_of_room hstate (by rw [hctx]; exact hp) (by rw [hbudget, hctx]; exact hb), hctx]
  exact ⟨hstate, rfl⟩

end Wait

/-- Settles O51: each row by what its context waits for, and whether that has come. -/
theorem stitchWaitsBeginAndEnd : Obligations.StitchWaitsBeginAndEnd := by
  unfold Obligations.StitchWaitsBeginAndEnd
  refine ⟨?waits, ?release, ?early, ?unmet, ?read, ?write, ?notDue, ?refill, ?noRefill, ?resume⟩
  case waits => exact fun sd c s w => exec_waits_of_issues
  case release => exact fun sd c s sl d ph t n e hw h => (exec_waitsRelease_of_met hw).trans (if_pos h)
  case early => exact fun c s sl d ph t n e hw h => (exec_waitsRelease_of_met hw).trans (if_neg fun hc => hc.elim nofun h.not_ge)
  case unmet => exact fun sd c s sl d ph => exec_waits_of_unmet
  case read => exact fun sd c s n d => exec_slotWaitTimeout_of_read
  case write => exact fun sd c s n v => exec_slotWaitTimeout_of_write
  case notDue => exact fun sd c s n hw h => exec_slotWaitTimeout_of_early hw h.not_ge
  case refill => exact fun sd c s hc hs hd => ⟨_, if_pos ⟨hc, by simp [hs], hd⟩, s.stcRefill_shows sd c⟩
  case noRefill =>
    exact fun sd c s h => if_neg fun ⟨_, hs, hd⟩ => h.elim (fun h => by simp [h] at hs) fun h => h.not_ge hd
  case resume => exact fun sd c s _ => State.stcResume_shows

end Sys2Proof.Machine
end


section
/-! PROOFS. What stitch contexts read, the CRC units, EMIT and PUTV (R405, R407, R408, R414 to R416). -/

namespace Sys2Proof.Machine

/-! What an issued instruction finds in the registers. -/

section Issued
variable {s : State} {sd : Side} {c w : Nat}

theorem State.ri_issued (F : Fld) (n : Nat) (h1 : F.key n 0 ≠ I.STC_CTX_PC.key c 0) (h2 : F.key n 0 ≠ I.STC_CNT_INSTR.key c 0) :
    (s.issued .itu c).ri F n = s.ri F n := (State.ri_wi_ne _ _ _ _ _ _ _ _ h1).trans (State.ri_ii_ne _ _ _ _ _ _ _ _ h2)

theorem State.rl_issued (F : Fld) (n : Nat) (h1 : F.key n 0 ≠ L.STC_CTX_PC.key c 0) (h2 : F.key n 0 ≠ L.STC_CNT_INSTR.key c 0) :
    (s.issued .lam c).rl F n = s.rl F n := (State.rl_wl_ne _ _ _ _ _ _ _ _ h1).trans (State.rl_il_ne _ _ _ _ _ _ _ _ h2)

theorem State.owner_issued : (s.issued .itu c).owner c = s.owner c :=
  State.ri_issued _ _ (Fld.key_ne_of_base _ _ _ _ rfl rfl (by decide)) (Fld.key_ne_of_base _ _ _ _ rfl rfl (by decide))

/-- A field of the partitions' status words, whose places are those of no field of the contexts. -/
theorem State.ri_part_issued (F : Fld) (n : Nat) (ha : F.addr = 0x5900) (h1 : F.s1 = 0x20) (hl : F.lo < 32) : (s.issued .itu c).ri F n = s.ri F n := by
  refine State.ri_issued _ _ ?_ ?_
  · simp only [Fld.key, I.STC_CTX_PC, ha, h1]
    omega
  · simp only [Fld.key, I.STC_CNT_INSTR, ha, h1]
    omega

theorem State.cuff_issued : (s.issued .itu c).ri I.PART_STAT_CUFF ((s.issued .itu c).owner c) = s.ri I.PART_STAT_CUFF (s.owner c) := by
  rw [State.owner_issued, State.ri_part_issued _ _ rfl rfl (by decide)]

theorem State.stcMemAt_issued (a : Nat) : (s.issued sd c).stcMemAt sd c a = s.stcMemAt sd c a := by rw [State.stcMemAt, State.mem_issued]; rfl

theorem State.latch_issued : ((s.issued sd c).ctx sd c).latch = (s.ctx sd c).latch := by rw [State.ctx_issued]

theorem State.trkInUse_issued (i : Nat) : (s.issued .lam c).trkInUse i = s.trkInUse i := by
  have hr (F : Fld) (hF : F.key 0 0 < L.STC_CTX_PC.key 0 0) : (s.issued .lam c).rl F = s.rl F := by
    refine State.rl_issued _ _ (Nat.ne_of_lt (hF.trans_le ?_)) (Nat.ne_of_lt (hF.trans_le ?_))
    · simp only [Fld.key, L.STC_CTX_PC]
      omega
    · simp only [Fld.key, L.STC_CTX_PC, L.STC_CNT_INSTR]
      omega
  rw [State.trkInUse, hr _ (by decide), hr _ (by decide)]
  rfl

/-- The system values do not depend on what the issue counts. -/
theorem State.sysValue_issued (k : Nat) : (s.issued sd c).sysValue sd c k = s.sysValue sd c k := by
  have hmc : (s.issued sd c).mc sd = s.mc sd := by cases sd <;> rfl
  have hgen : (if sd = .itu then (s.issued sd c).ri I.PART_STAT_GEN ((s.issued sd c).owner c) else 0) =
      if sd = .itu then s.ri I.PART_STAT_GEN (s.owner c) else 0 := by
    cases sd with
    | itu => rw [State.owner_issued, State.ri_part_issued _ _ rfl rfl (by decide)]
    | lam => rfl
  have hlast : (s.issued sd c).rx sd I.STC_CTX_STAT_LAST L.STC_CTX_STAT_LAST c = s.rx sd I.STC_CTX_STAT_LAST L.STC_CTX_STAT_LAST c := by
    cases sd with
    | itu => exact State.ri_issued _ _ (Fld.key_ne_of_base _ _ _ _ rfl rfl (by decide)) (Fld.key_ne_of_base _ _ _ _ rfl rfl (by decide))
    | lam => exact State.rl_issued _ _ (Fld.key_ne_of_base _ _ _ _ rfl rfl (by decide)) (Fld.key_ne_of_base _ _ _ _ rfl rfl (by decide))
  have hepoch : (s.issued sd c).rx sd I.CUFF_EPOCH L.CFG_EPOCH = s.rx sd I.CUFF_EPOCH L.CFG_EPOCH := by
    cases sd with
    | itu =>
      refine State.ri_issued _ _ ?_ ?_
      · simp only [Fld.key, I.CUFF_EPOCH, I.STC_CTX_PC]
        omega
      · simp only [Fld.key, I.CUFF_EPOCH, I.STC_CNT_INSTR]
        omega
    | lam =>
      refine State.rl_issued _ _ ?_ ?_
      · simp only [Fld.key, L.CFG_EPOCH, L.STC_CTX_PC]
        omega
      · simp only [Fld.key, L.CFG_EPOCH, L.STC_CNT_INSTR]
        omega
  simp only [State.sysValue, State.now_issued, State.latch_issued, hmc, hgen, hlast, hepoch]

theorem State.sysValue_of_ge {k : Nat} (h : 9 ≤ k) : s.sysValue sd c k = 0 := by
  obtain ⟨k, rfl⟩ := Nat.exists_eq_add_of_le' h
  rfl

end Issued

/-! Reads (R407, R408). -/

section Reads
variable {s : State} {c w : Nat}

theorem exec_rdc_of_issues (h : s.Issues .itu c 0x26 w) : exec (.rdc c) s = .next (((s.issued .itu c).setX .itu c (iD w)
    (s.rdc (((s.ctx .itu c).reg (iA w) + bits w 0 12) % 4096) (bitAt w 12))).stcGoOn .itu c) := by
  refine congrArg Host.Outcome.next ((State.stcIssue_of_issues _ _ _ _ _ _ h).trans ?_)
  rw [State.reg_issued]
  rfl

/-- The word of a tracker that RDT reads: a copy of a tracker in use, else 0. -/
theorem exec_rdt_of_word (h : s.Issues .lam c 0x27 w) (hn : bits w 0 7 < 96) : exec (.rdt c) s = .next (((s.issued .lam c).setX .lam c (iD w)
    (if (s.ctx .lam c).reg (iA w) < 2 ^ 21 ∧ s.trkInUse ((s.ctx .lam c).reg (iA w)) = true then
      nth ((s.issued .lam c).trkSnapCopy ((s.ctx .lam c).reg (iA w))).lam.trkSnap (bits w 0 7) else 0)).stcGoOn .lam c) := by
  refine congrArg Host.Outcome.next ((State.stcIssue_of_issues _ _ _ _ _ _ h).trans ?_)
  rw [State.reg_issued, if_neg hn.not_ge, State.trkInUse_issued]

theorem exec_rdt_of_free (h : s.Issues .lam c 0x27 w) (hn : 96 ≤ bits w 0 7) : exec (.rdt c) s = .next
    (((s.issued .lam c).free.2.setX .lam c (iD w) ((s.issued .lam c).free.1 % 2 ^ 32)).stcGoOn .lam c) := by
  refine congrArg Host.Outcome.next ((State.stcIssue_of_issues _ _ _ _ _ _ h).trans ?_)
  rw [if_pos hn]

theorem exec_rdw_of_issues {sd : Side} (h : s.Issues sd c 0x28 w) : exec (.rdw sd c) s = .next
    ((((s.issued sd c).stcRead sd c (4 * (((s.ctx sd c).reg (iA w) + imm18 w) % 2 ^ 64))).2.setX sd c (iD w)
      (((s.issued sd c).stcRead sd c (4 * (((s.ctx sd c).reg (iA w) + imm18 w) % 2 ^ 64))).1 % 2 ^ 32)).stcGoOn sd c) := by
  refine congrArg Host.Outcome.next ((State.stcIssue_of_issues _ _ _ _ _ _ h).trans ?_)
  rw [State.reg_issued]

theorem exec_sys_of_issues {sd : Side} (h : s.Issues sd c 0x29 w) :
    exec (.sys sd c) s = .next (((s.issued sd c).setX sd c (iD w) (s.sysValue sd c (bits w 0 4))).stcGoOn sd c) := by
  refine congrArg Host.Outcome.next ((State.stcIssue_of_issues _ _ _ _ _ _ h).trans ?_)
  rw [State.sysValue_issued]

theorem exec_crc_of_issues (h : s.Issues .itu c 0x2A w) : exec (.crc c) s = .next
    ((if bitAt w 6 then (s.issued .itu c).crcSel (bits w 0 2) ((s.ctx .itu c).reg (iD w) % 4)
    else if bitAt w 5 then (s.issued .itu c).setX .itu c (iD w) ((s.issued .itu c).crcResult (bits w 0 2))
    else (s.issued .itu c).crcPut (bits w 0 2) (leBytes (bits w 2 3 + 1) ((s.ctx .itu c).reg (iD w)))).stcGoOn .itu c) := by
  refine congrArg Host.Outcome.next ((State.stcIssue_of_issues _ _ _ _ _ _ h).trans ?_)
  rw [State.reg_issued]

theorem State.latches_stcRead (s : State) (sd : Side) (c a : Nat) : (s.stcRead sd c a).2.latches = s.latches := by
  rw [State.stcRead]
  split
  · rfl
  · rfl

end Reads

/-! EMIT (R415, R416). -/

section Emit
variable {s : State} {sd : Side} {c w : Nat}

/-- The payload of a record taken from words that the local memory has. -/
theorem State.emitWords_of_mem (s : State) (sd : Side) (c a n : Nat) (h : a + n ≤ stcMem sd) : s.emitWords sd c a n =
    ((List.range n).flatMap (fun k => [s.stcMemAt sd c (a + k) % 2 ^ 32, s.stcMemAt sd c (a + k) / 2 ^ 32]), s) := by
  induction n generalizing a with
  | zero => rfl
  | succ n ih =>
    have hm : stcMem sd ≤ 8192 := by cases sd <;> decide
    have hlt : a < stcMem sd := by omega
    have hnext : (a + 1) % 2 ^ 64 = a + 1 := Nat.mod_eq_of_lt (by omega)
    have hk (k : Nat) : a + 1 + k = a + (k + 1) := by omega
    rw [State.emitWords, if_pos hlt, hnext, ih (a + 1) (by omega), List.range_succ_eq_map, List.flatMap_cons, List.flatMap_map]
    simp only [hk]
    rfl

theorem State.emitWords_issued (a n : Nat) (h : a + n ≤ stcMem sd) : (s.issued sd c).emitWords sd c a n =
    ((List.range n).flatMap (fun k => [s.stcMemAt sd c (a + k) % 2 ^ 32, s.stcMemAt sd c (a + k) / 2 ^ 32]), s.issued sd c) := by
  rw [State.emitWords_of_mem _ _ _ _ _ h]
  simp only [State.stcMemAt_issued]

theorem exec_emit_of_cuff (h : s.Issues .itu c 0x2C w) (hc : s.ri I.PART_STAT_CUFF (s.owner c) = 1) :
    exec (.emit .itu c) s = .next (((s.issued .itu c).setLast .itu c 11).stcGoOn .itu c) := by
  refine congrArg Host.Outcome.next ((State.stcIssue_of_issues _ _ _ _ _ _ h).trans ?_)
  exact congrArg (State.stcGoOn · .itu c) (if_pos (State.cuff_issued.trans hc))

/-- SHORT of a record: that of the context's latch, or the local time. -/
def State.emitShort (s : State) (sd : Side) (c w : Nat) : Nat :=
  short (if bitAt w 13 then ((s.ctx sd c).latch.getD (0, 0, 0)).1 else s.now sd)

theorem State.emitShort_issued : (s.issued sd c).emitShort sd c w = s.emitShort sd c w := by
  rw [State.emitShort, State.latch_issued, State.now_issued]
  rfl

theorem exec_emit_itu {ws : List Nat} (h : s.Issues .itu c 0x2C w) (hc : s.ri I.PART_STAT_CUFF (s.owner c) ≠ 1)
    (hw : (s.issued .itu c).emitWords .itu c ((s.ctx .itu c).reg (iA w)) (2 * bits w 5 8) = (ws, s.issued .itu c)) :
    exec (.emit .itu c) s = .next (((s.issued .itu c).stcOffer c ((s.issued .itu c).ituRec (bits w 3 2) (0x0F0 + bits w 0 3) (s.owner c)
      (s.emitShort .itu c w) ws)).stcGoOn .itu c) := by
  refine congrArg Host.Outcome.next ((State.stcIssue_of_issues _ _ _ _ _ _ h).trans (congrArg (State.stcGoOn · .itu c) ?_))
  refine (if_neg fun h => hc (State.cuff_issued.symm.trans h)).trans ?_
  rw [State.reg_issued, hw, State.owner_issued, ← State.emitShort_issued]
  rfl

theorem exec_emit_lam {ws : List Nat} (h : s.Issues .lam c 0x2C w)
    (hw : (s.issued .lam c).emitWords .lam c ((s.ctx .lam c).reg (iA w)) (2 * bits w 5 8) = (ws, s.issued .lam c)) {r : State × Bool}
    (hr : r = (s.issued .lam c).lamRec (bits w 3 2) (0x0F0 + bits w 0 3) (s.issued .lam c).nodeId ((s.issued .lam c).rl L.STAT_NODE_GEN)
      (s.emitShort .lam c w) ws) :
    exec (.emit .lam c) s = .next ((if r.2 then (r.1.setLast .lam c 0).il L.STC_CNT_EMIT 1 c
      else (r.1.setLast .lam c 6).il L.STC_CNT_REFUSED 1 c).stcGoOn .lam c) := by
  refine congrArg Host.Outcome.next ((State.stcIssue_of_issues _ _ _ _ _ _ h).trans (congrArg (State.stcGoOn · .lam c) ?_))
  rw [State.reg_issued, hw, hr, ← State.emitShort_issued]
  rfl

end Emit

/-! PUTV (R414). -/

section Putv
variable {s : State} {c w chan v t n k : Nat}

theorem exec_putv_itu (h : s.Issues .itu c 0x2B w) : exec (.putv .itu c) s = .next (((s.issued .itu c).putvItu c
    (((s.ctx .itu c).reg (iA w) + bits w 0 12) % 4096) ((s.ctx .itu c).reg (iD w) % 2 ^ 32)).stcGoOn .itu c) := by
  refine congrArg Host.Outcome.next ((State.stcIssue_of_issues _ _ _ _ _ _ h).trans (congrArg (State.stcGoOn · .itu c) ?_))
  rw [State.reg_issued, State.reg_issued]

theorem exec_putv_lam (h : s.Issues .lam c 0x2B w) : exec (.putv .lam c) s = .next (((s.issued .lam c).putvLam c
    (((s.ctx .lam c).reg (iA w) + bits w 0 12) % 4096) ((s.ctx .lam c).reg (iD w) % 2 ^ 32) (bits w 12 4)).stcGoOn .lam c) := by
  refine congrArg Host.Outcome.next ((State.stcIssue_of_issues _ _ _ _ _ _ h).trans (congrArg (State.stcGoOn · .lam c) ?_))
  rw [State.reg_issued, State.reg_issued]

theorem State.putvItu_of_cuff (hc : s.ri I.PART_STAT_CUFF (s.owner c) = 1) : (s.issued .itu c).putvItu c chan v = (s.issued .itu c).setLast .itu c 11 :=
  if_pos (State.cuff_issued.trans hc)

theorem State.putvItu_of_noLatch (hc : s.ri I.PART_STAT_CUFF (s.owner c) ≠ 1) (hl : (s.ctx .itu c).latch = none) :
    (s.issued .itu c).putvItu c chan v = (s.issued .itu c).setLast .itu c 9 := by
  rw [State.putvItu, if_neg fun h => hc (State.cuff_issued.symm.trans h), State.latch_issued, hl]

theorem State.putvItu_of_latch (hc : s.ri I.PART_STAT_CUFF (s.owner c) ≠ 1) (hl : (s.ctx .itu c).latch = some (t, n, k)) {u : State}
    (hu : u = (s.issued .itu c).stcOffer c ((s.issued .itu c).ituRec 1 0x0F0 (s.owner c) (short t) [chan ||| c <<< 12, v, n / 64 % 2 ^ 32, n % 64])) :
    (s.issued .itu c).putvItu c chan v = if s.itu.stc.published.contains (chan, n) then ((s.issued .itu c).setLast .itu c 8).ii I.STC_CNT_VAL_DUP 1 c
      else if u.ri I.STC_CTX_STAT_LAST c = 0 then u.setStc .itu { u.itu.stc with published := u.itu.stc.published ++ [(chan, n)] } else u := by
  rw [State.putvItu, if_neg fun h => hc (State.cuff_issued.symm.trans h), State.latch_issued, hl, hu, State.owner_issued]
  rfl

theorem State.role_issued : (s.issued .lam c).role = s.role := by
  refine State.rl_issued _ _ ?_ ?_
  · simp only [Fld.key, L.LAM_STRAP_ROLE, L.STC_CTX_PC]
    omega
  · simp only [Fld.key, L.LAM_STRAP_ROLE, L.STC_CNT_INSTR]
    omega

theorem State.putvLam_of_role {q : Nat} (h : s.role ≠ 0) : (s.issued .lam c).putvLam c chan v q = (s.issued .lam c).setLast .lam c 10 := by
  exact if_pos (by rw [State.role_issued]; exact h)

theorem State.putvLam_of_noLatch {q : Nat} (h : s.role = 0) (hl : (s.ctx .lam c).latch = none) :
    (s.issued .lam c).putvLam c chan v q = (s.issued .lam c).setLast .lam c 9 := by
  rw [State.putvLam, State.role_issued, if_neg (not_not_intro h), State.latch_issued, hl]

theorem State.putvLam_of_dup {q : Nat} (h : s.role = 0) (hl : (s.ctx .lam c).latch = some (t, n, k)) (hp : (4096 * q + chan, n) ∈ s.lam.stc.published) :
    (s.issued .lam c).putvLam c chan v q = ((s.issued .lam c).setLast .lam c 8).il L.STC_CNT_VAL_DUP 1 c := by
  rw [State.putvLam, State.role_issued, if_neg (not_not_intro h), State.latch_issued, hl]
  exact if_pos (List.contains_iff_mem.mpr hp)

/-- The state in which a Tray's new value is published. -/
def State.published (s : State) (c key n : Nat) : State :=
  ((s.issued .lam c).setLast .lam c 0).setStc .lam { (s.issued .lam c).lam.stc with published := s.lam.stc.published ++ [(key, n)] }

/-- What a Tray's new value does: it is taken by the cells of its port where the brim binds one. -/
theorem State.putvLam_of_new {q : Nat} {u : State} (hu : u = s.published c (4096 * q + chan) n) (h : s.role = 0)
    (hl : (s.ctx .lam c).latch = some (t, n, k)) (hp : (4096 * q + chan, n) ∉ s.lam.stc.published) :
    (s.issued .lam c).putvLam c chan v q = match u.brimLookup q (short t) with
      | some (entry, epoch) => u.free.2.stitchValue q chan v t (n / 64 % 2 ^ 32) (n % 64) entry epoch
          { die := u.dieId q, cls := 1, typ := 0x0F0, seq := u.free.1 % 2 ^ 32, short := short t }
      | none => u := by
  have hc : ¬(s.issued .lam c).lam.stc.published.contains (4096 * q + chan, n) = true := fun h => hp (List.contains_iff_mem.mp h)
  subst hu
  rw [State.putvLam, State.role_issued, if_neg (not_not_intro h), State.latch_issued, hl]
  exact if_neg hc

end Putv

/-- Settles O52: each row by its issue, what it reads by what the issue leaves, a value or record by its first refusal. -/
theorem stitchReadsRecordsAndValues : Obligations.StitchReadsRecordsAndValues := by
  unfold Obligations.StitchReadsRecordsAndValues
  refine ⟨?rdc, ?rdtUnused, ?rdt, ?rdtFree, ?rdw, ?beyond, ?latches, ?sys, ?crcSel, ?crcResult, ?crcPut, ?emitCuff, ?emitItu, ?emitLam, ?putvCuff,
    ?putvNoLatch, ?putvDup, ?putv, ?putvRole, ?putvLamNoLatch, ?putvLamDup, ?putvLam⟩
  case rdc => exact fun c s w i h hi => by subst hi; exact exec_rdc_of_issues h
  case rdtUnused =>
    intro c s w h hn hu
    rw [exec_rdt_of_word h hn, if_neg fun ⟨hlt, hin⟩ => hu.elim hlt.not_ge fun hu => Bool.false_ne_true (hu.symm.trans hin)]
  case rdt =>
    intro c s w i h hi hn hlt hin
    subst hi
    rw [exec_rdt_of_word h hn, if_pos ⟨hlt, hin⟩]
  case rdtFree => exact fun c s w => exec_rdt_of_free
  case rdw => exact fun sd c s w a h ha => by subst ha; exact exec_rdw_of_issues h
  case beyond => exact fun c a s ha => if_pos ⟨rfl, ha⟩
  case latches => exact fun sd c a s => s.latches_stcRead sd c a
  case sys =>
    intro sd c s w h
    refine ⟨_, exec_sys_of_issues h, ?_⟩
    have value {k : Nat} (hk : bits w 0 4 = k) : s.sysValue sd c (bits w 0 4) = s.sysValue sd c k := congrArg _ hk
    exact ⟨value, value, value, value, value, value, value, value, value, State.sysValue_of_ge⟩
  case crcSel => exact fun c s w h h6 => by rw [exec_crc_of_issues h, if_pos h6]
  case crcResult => exact fun c s w h h6 h5 => by rw [exec_crc_of_issues h, if_neg (by simp [h6]), if_pos h5]
  case crcPut => exact fun c s w h h6 h5 => by rw [exec_crc_of_issues h, if_neg (by simp [h6]), if_neg (by simp [h5])]
  case emitCuff => exact fun c s w => exec_emit_of_cuff
  case emitItu =>
    intro c s w ws sh a h hc ha hn hws hsh
    subst ha hws hsh
    exact exec_emit_itu h hc (State.emitWords_issued _ _ hn)
  case emitLam =>
    intro c s w ws sh a r h ha hn hws hsh hr
    subst ha hws hsh
    exact exec_emit_lam h (State.emitWords_issued _ _ hn) hr
  case putvCuff => exact fun c s w h hc => by rw [exec_putv_itu h, State.putvItu_of_cuff hc]
  case putvNoLatch => exact fun c s w h hc hl => by rw [exec_putv_itu h, State.putvItu_of_noLatch hc hl]
  case putvDup =>
    intro c s w chan t n k h hc hch hl hp
    subst hch
    rw [exec_putv_itu h, State.putvItu_of_latch hc hl rfl, if_pos (List.contains_iff_mem.mpr hp)]
  case putv =>
    intro c s w chan t n k u h hc hch hl hp hu
    subst hch
    rw [exec_putv_itu h, State.putvItu_of_latch hc hl hu, if_neg fun hc => hp (List.contains_iff_mem.mp hc)]
  case putvRole => exact fun c s w h hr => by rw [exec_putv_lam h, State.putvLam_of_role hr]
  case putvLamNoLatch => exact fun c s w h hr hl => by rw [exec_putv_lam h, State.putvLam_of_noLatch hr hl]
  case putvLamDup =>
    intro c s w key t n k h hr hl hk hp
    subst hk
    rw [exec_putv_lam h, State.putvLam_of_dup hr hl hp]
  case putvLam =>
    intro c s w key t n k u h hr hl hk hp hu
    have hchan : key % 4096 = ((s.ctx .lam c).reg (iA w) + bits w 0 12) % 4096 := by omega
    rw [hchan]
    subst hk
    exact (exec_putv_lam h).trans (congrArg (fun u : State => (.next (u.stcGoOn .lam c) : Out)) (State.putvLam_of_new hu hr hl hp))

end Sys2Proof.Machine
end


section
/-! PROOFS. The recorder's commands, its freeze and its erases (R439, R440, R442). -/

namespace Sys2Proof.Machine

/-! Recording leaves the clock. -/

section Clock
variable (s : State) (o : RecOffer)

theorem State.clk_recPut : (s.recPut o).lam.clk = s.lam.clk := State.ite_keeps (·.lam.clk) rfl rfl

theorem State.clk_recLose (why : Nat) : (s.recLose why).lam.clk = s.lam.clk :=
  State.ite_keeps (·.lam.clk) rfl (State.ite_keeps (·.lam.clk) rfl rfl)

theorem State.clk_recEnter : (s.recEnter o).lam.clk = s.lam.clk := by
  unfold State.recEnter
  extract_lets +onlyGivenNames st r w t1 t2 t3
  have h1 : t1.lam.clk = s.lam.clk := State.ite_keeps (·.lam.clk) rfl (s.clk_recPut _)
  have h2 : t2.lam.clk = s.lam.clk := (State.clk_recPut _ _).trans h1
  have h3 : t3.lam.clk = s.lam.clk := by
    unfold t3
    split
    · exact h2
    · exact h2
  refine State.ite_keeps (·.lam.clk) (s.clk_recLose 1) (State.ite_keeps (·.lam.clk) (s.clk_recLose 2) (State.ite_keeps (·.lam.clk) (s.clk_recLose 0)
    (State.ite_keeps (·.lam.clk) (s.clk_recLose 0) ?_)))
  show (ite _ _ _ : State).lam.clk = _
  exact State.ite_keeps (·.lam.clk) h3 h3

theorem State.clk_recDrain : s.recDrain.lam.clk = s.lam.clk := by
  unfold State.recDrain
  split
  · rfl
  · refine (State.foldl_keeps (·.lam.clk) State.clk_recEnter _ _).trans ?_
    exact State.ite_keeps (·.lam.clk) (State.clk_recEnter _ _) rfl

end Clock

/-! The commands (R439, R440, R442). -/

section Command
variable {s : State}

theorem State.inRec_of_on (h : s.pdOn 2 = true) (f : State → State × CmdRes) : s.inRec f = f s := if_pos h

theorem State.opRecRead_of_bad {off n : Nat} (h2 : s.pdOn 2 = true) (h : n < 4 ∨ 3840 < n ∨ n % 4 ≠ 0 ∨ 65536 * s.recSectors < off + n) :
    s.opRecRead off n = (s, { status := St.badParam }) := (State.inRec_of_on h2 _).trans (if_pos h)

theorem State.opRecRead_of_range {off n : Nat} (h2 : s.pdOn 2 = true) (hl : 4 ≤ n) (hh : n ≤ 3840) (h4 : n % 4 = 0)
    (hr : off + n ≤ 65536 * s.recSectors) : s.opRecRead off n =
      if s.recState = 5 ∨ s.recState = 6 then (s, { status := St.busy }) else (s, { data := bytesToWords (s.norRead off n) }) :=
  (State.inRec_of_on h2 _).trans (if_neg (by omega))

/-- The state in which a freeze begins. -/
def State.freezing (s : State) : State := (s.recDrain.wl L.REC_STAT_STATE 3).setRcd { s.recDrain.lam.rcd with frozen := some (s.recDrain.now .lam) }

theorem State.opRecFreeze_of_running (h2 : s.pdOn 2 = true) (h : s.recState = 2) : s.opRecFreeze true = (s.freezing, {}) :=
  (State.inRec_of_on h2 _).trans ((if_pos rfl).trans (if_pos h))

theorem State.freezing_shows (s : State) : s.freezing.recState = 3 ∧ s.freezing.lam.rcd.frozen = some s.lam.clk.ns ∧ s.freezing.itu = s.itu :=
  ⟨s.recDrain.rl_wl_self L.REC_STAT_STATE 3 0 0, congrArg (fun k : Clock => some k.ns) s.clk_recDrain, (fr_recDrain (fp := { lam := true }) rfl (.refl _ s)).itu rfl⟩

theorem State.opRecFreeze_of_other (h2 : s.pdOn 2 = true) (h : s.recState ≠ 2) : s.opRecFreeze true = (s, {}) :=
  (State.inRec_of_on h2 _).trans ((if_pos rfl).trans (if_neg h))

theorem State.opRecFreeze_false (h2 : s.pdOn 2 = true) : s.opRecFreeze false = (s.unfreeze, {}) :=
  (State.inRec_of_on h2 _).trans (if_neg Bool.false_ne_true)

theorem State.unfreeze_of_frozen (h : s.recState = 3) (hl : s.lam.rcd.lost = (0, 0, 0)) :
    s.unfreeze = ((s.wl L.REC_STAT_STATE 2).setRcd { s.lam.rcd with frozen := none }).flushTry := (if_pos h).trans (if_pos hl)

theorem exec_recFreezeTimeout_of_frozen {t : Nat} (h : s.lam.rcd.frozen = some t) :
    exec .recFreezeTimeout s = if s.rl L.REC_FREEZE_MS * 1000000 ≤ s.now .lam - t then .next s.unfreeze else .next s := by
  show execRecFreezeTimeout s = _
  rw [execRecFreezeTimeout, h]

theorem exec_recFreezeTimeout_of_not_due
    (h : s.lam.rcd.frozen = none ∨ (∃ t, s.lam.rcd.frozen = some t ∧ s.lam.clk.ns - t < s.rl L.REC_FREEZE_MS * 1000000)) :
    exec .recFreezeTimeout s = .next s := by
  rcases h with h | ⟨t, h, ht⟩
  · show execRecFreezeTimeout s = _
    rw [execRecFreezeTimeout, h]
  · exact (exec_recFreezeTimeout_of_frozen h).trans (if_neg ht.not_ge)

/-- The state in which the log of the next LOG_ID is begun. -/
def State.newLog (s : State) : State :=
  let s' := (s.wl L.REC_LOG_ID ((s.rl L.REC_LOG_ID + 1) % 65536)).journalAdd 3 0 ((s.rl L.REC_LOG_ID + 1) % 65536) s.recSeq
  s'.setRcd { s'.lam.rcd with clearing := true }

/-- A journal entry is no register. -/
theorem State.rl_journalAdd (s : State) (op sec id seq : Nat) (F : Fld) : (s.journalAdd op sec id seq).rl F = s.rl F :=
  State.ite_keeps (·.rl F) rfl rfl

theorem State.newLog_shows (s : State) : s.newLog.rl L.REC_LOG_ID = (s.rl L.REC_LOG_ID + 1) % 65536 % 2 ^ L.REC_LOG_ID.width ∧
    s.newLog.lam.rcd.clearing = true ∧ s.newLog.itu = s.itu :=
  ⟨(State.rl_journalAdd ..).trans (State.rl_wl_self ..), rfl, State.ite_keeps (·.itu) rfl rfl⟩

theorem State.opRecClear_of_idle (h2 : s.pdOn 2 = true) (h3 : s.recState ≠ 3) (hs : 2 ≤ s.recState) (he : s.rl L.REC_STAT_ERASING = 0) :
    s.opRecClear = (s.newLog.eraseAll.eraseStart, {}) := (State.inRec_of_on h2 _).trans (if_neg (by omega))

theorem State.opRecClear_of_busy (h2 : s.pdOn 2 = true) (h : s.recState = 3 ∨ s.recState < 2 ∨ s.rl L.REC_STAT_ERASING = 1) :
    s.opRecClear = (s, { status := St.busy }) := (State.inRec_of_on h2 _).trans (if_pos (by omega))

theorem State.opRecNote_of_text {b : Bool} {t : List Nat} (h2 : s.pdOn 2 = true) (hn : t ≠ []) (hl : t.length ≤ 1024) :
    s.opRecNote b t = ((s.recOffer { kind := 5, flush := if b then some 4 else none, payload := t }).flushTry, {}) :=
  (State.inRec_of_on h2 _).trans (if_neg fun h => h.elim hn hl.not_gt)

end Command

/-! Erases (R440). -/

section Erase
variable {s : State} {t x : Nat} {l : List (Nat × Nat)} {ok : Bool}

theorem exec_norEraseDone_of_idle (h : s.lam.rcd.erases = [] ∨ s.rl L.REC_STAT_ERASING = 0) : exec (.norEraseDone ok) s = .next s := by
  show execNorEraseDone ok s = _
  rw [execNorEraseDone]
  split
  next => rfl
  next he => exact if_pos (h.resolve_left (by rw [he]; exact List.cons_ne_nil _ _))

theorem exec_norEraseDone_of_erasing (h : s.lam.rcd.erases = (t, x) :: l) (he : s.rl L.REC_STAT_ERASING = 1) :
    exec (.norEraseDone ok) s = .next (if l = [] then
      (if ok then (s.setRcd { s.lam.rcd with erases := l }).erased t x else (s.setRcd { s.lam.rcd with erases := l }).norError t).erasesDone
      else (if ok then (s.setRcd { s.lam.rcd with erases := l }).erased t x else
        (s.setRcd { s.lam.rcd with erases := l }).norError t).eraseStart) := by
  show execNorEraseDone ok s = _
  rw [execNorEraseDone, h]
  exact if_neg (by simp [he])

end Erase

/-- Settles O55: each command by the domain and then its own test, a freeze and an erase by what waits for its end. -/
theorem recorderCommandsAndErases : Obligations.RecorderCommandsAndErases := by
  unfold Obligations.RecorderCommandsAndErases
  refine ⟨?read, ?badRead, ?busyRead, ?off, ?freeze, ?noFreeze, ?thaw, ?notFrozen, ?unfreeze, ?timeout, ?noTimeout, ?flush, ?clear, ?busyClear,
    ?eraseAll, ?note, ?badNote, ?noErase, ?nextErase, ?lastErase⟩
  case read =>
    exact fun h off n s h2 hl hh h4 hr h5 h6 => cmdLam_of_eq ((State.opRecRead_of_range h2 hl hh h4 hr).trans (if_neg (by omega)))
  case badRead => exact fun h off n s h2 hb => cmdLam_of_eq (State.opRecRead_of_bad h2 hb)
  case busyRead => exact fun h off n s h2 hl hh h4 hr hb => cmdLam_of_eq ((State.opRecRead_of_range h2 hl hh h4 hr).trans (if_pos hb))
  case off =>
    exact fun h s hoff => ⟨fun _ _ => cmdLam_of_eq (State.inRec_of_off hoff _), fun _ => cmdLam_of_eq (State.inRec_of_off hoff _),
      cmdLam_of_eq (State.inRec_of_off hoff _), cmdLam_of_eq (State.inRec_of_off hoff _), fun _ _ => cmdLam_of_eq (State.inRec_of_off hoff _)⟩
  case freeze => exact fun h s h2 hs => ⟨_, cmdLam_of_eq (State.opRecFreeze_of_running h2 hs), s.freezing_shows⟩
  case noFreeze => exact fun h s h2 hs => cmdLam_of_eq (State.opRecFreeze_of_other h2 hs)
  case thaw => exact fun h s h2 => cmdLam_of_eq (State.opRecFreeze_false h2)
  case notFrozen => exact fun s h => if_neg h
  case unfreeze => exact fun s => State.unfreeze_of_frozen
  case timeout => exact fun s t h hd => (exec_recFreezeTimeout_of_frozen h).trans (if_pos hd)
  case noTimeout => exact fun s => exec_recFreezeTimeout_of_not_due
  case flush => exact fun h s h2 => cmdLam_of_eq (State.inRec_of_on h2 _)
  case clear => exact fun h s h2 h3 hs he => ⟨_, cmdLam_of_eq (State.opRecClear_of_idle h2 h3 hs he), s.newLog_shows⟩
  case busyClear => exact fun h s h2 hb => cmdLam_of_eq (State.opRecClear_of_busy h2 hb)
  case eraseAll => exact fun s => ⟨rfl, rfl, rfl⟩
  case note => exact fun h b t s h2 hn hl => cmdLam_of_eq (State.opRecNote_of_text h2 hn hl)
  case badNote => exact fun h b t s h2 hb => cmdLam_of_eq ((State.inRec_of_on h2 _).trans (if_pos hb))
  case noErase => exact fun ok s => exec_norEraseDone_of_idle
  case nextErase => exact fun s t x p l h he => ⟨exec_norEraseDone_of_erasing h he, exec_norEraseDone_of_erasing h he⟩
  case lastErase => exact fun s t x h he => ⟨exec_norEraseDone_of_erasing h he, exec_norEraseDone_of_erasing h he⟩

end Sys2Proof.Machine
end


section
/-! PROOFS. Straps, boot, position and keys (R448, R449, R453 to R457). -/

namespace Sys2Proof.Machine

/-! The rising edge of POR_N (R448, R453). -/

section Rise
variable (s : State) (role : Nat) (standby prov bootAlt : Bool)

/-- The straps sampled, the node number and the reset values of the role written: what the boot ROM finds. -/
def State.risen : State :=
  ((s.sampled (role % 4) standby prov bootAlt).wl L.LAM_NODE (s.sampled (role % 4) standby prov bootAlt).nodeNo).roleResets (role % 4)

theorem State.logs_risen : Logs bootFlds (s.sampled (role % 4) standby prov bootAlt) (s.risen role standby prov bootAlt) :=
  ((Logs.refl _ _).wlBoot _).roleResets _

theorem nth_of_lt_four {a b c d k : Nat} {f : Nat → Nat} (hk : k < 4) (h0 : f 0 = a) (h1 : f 1 = b) (h2 : f 2 = c) (h3 : f 3 = d) :
    nth [a, b, c, d] k = f k := by
  obtain rfl | rfl | rfl | rfl : k = 0 ∨ k = 1 ∨ k = 2 ∨ k = 3 := by omega
  · exact h0.symm
  · exact h1.symm
  · exact h2.symm
  · exact h3.symm

theorem State.rl_roleResets_merge (hr : role < 4) : (s.roleResets role).rl L.CMD_MERGE_US = 1000 * (role + 1) := by
  simp (disch := decide) only [State.roleResets, State.rl_wl_ne, State.rl_wl_self]
  rw [nth_of_lt_four (f := fun k => 1000 * (k + 1)) hr rfl rfl rfl rfl]
  exact Nat.mod_eq_of_lt (by simp only [L.CMD_MERGE_US]; omega)

theorem State.rl_roleResets_close (hr : role < 4) : (s.roleResets role).rl L.DIGF_CLOSE_MS = 2000 + 2 * role := by
  simp only [State.roleResets, State.rl_wl_self]
  rw [nth_of_lt_four (f := fun k => 2000 + 2 * k) hr rfl rfl rfl rfl]
  exact Nat.mod_eq_of_lt (by simp only [L.DIGF_CLOSE_MS]; omega)

theorem b2n_eq_ite (b : Bool) : b2n b = if b then 1 else 0 := by cases b <;> rfl

theorem State.rl_risen_role : (s.risen role standby prov bootAlt).rl L.LAM_STRAP_ROLE = role % 4 :=
  ((s.logs_risen ..).rl _ 0 0 (by decide)).trans ((s.rl_sampled_role ..).trans (Nat.mod_mod ..))

theorem State.rl_risen_prov : (s.risen role standby prov bootAlt).rl L.LAM_STRAP_PROV = if prov then 1 else 0 :=
  ((s.logs_risen ..).rl _ 0 0 (by decide)).trans ((s.rl_sampled_prov ..).trans (b2n_eq_ite _))

theorem State.rl_risen_bootAlt : (s.risen role standby prov bootAlt).rl L.LAM_STRAP_BOOT_ALT = if bootAlt then 1 else 0 :=
  ((s.logs_risen ..).rl _ 0 0 (by decide)).trans ((s.rl_sampled_bootAlt ..).trans (b2n_eq_ite _))

theorem State.rl_risen_standby : (s.risen role standby prov bootAlt).rl L.LAM_STRAP_STANDBY =
    if standby = true ∧ role % 4 = 3 then 1 else 0 := by
  refine ((s.logs_risen ..).rl _ 0 0 (by decide)).trans ((s.rl_sampled_standby ..).trans ((b2n_eq_ite _).trans ?_))
  simp only [Bool.and_eq_true, beq_iff_eq]

end Rise

/-! The boot ROM's choice (R455, R456). -/

section Boot
variable (s : State)

theorem State.rl_bootImage (image version : Nat) : (s.bootImage image version).rl L.LAM_BOOT_STATE = 1 ∧
    (s.bootImage image version).rl L.LAM_BOOT_IMAGE = image % 2 ^ L.LAM_BOOT_IMAGE.width := by
  constructor
  · simp (disch := decide) only [State.bootImage, State.rl_wl_ne, State.rl_wl_self]
    rfl
  · simp (disch := decide) only [State.bootImage, State.rl_wl_ne, State.rl_wl_self]

variable {s}

/-- Both images valid and the first the newer: it starts. -/
theorem State.bootChoose_of_first_newer {a b : State × Nat × Nat} (ea : s.imageCheck s.lam.brd.nor 0 = a)
    (eb : a.1.imageCheck a.1.lam.brd.nor 0x1000000 = b) (ha : a.2.1 = 0) (hb : b.2.1 = 0) (h : a.2.2 > b.2.2) :
    s.bootChoose = b.1.bootImage 0 a.2.2 := by
  have hp : (decide (a.2.2 < b.2.2) || (a.2.2 == b.2.2 && b.1.rl L.LAM_STRAP_BOOT_ALT == 1)) = false := by
    rw [Bool.or_eq_false_iff, decide_eq_false_iff_not, Bool.and_eq_false_iff, beq_eq_false_iff_ne]
    exact ⟨Nat.lt_asymm h, .inl (Nat.ne_of_gt h)⟩
  unfold State.bootChoose
  rw [ea]
  dsimp only
  rw [eb, if_pos ⟨ha, hb⟩, hp, if_neg Bool.false_ne_true]

/-- No image valid: recovery. -/
theorem State.bootChoose_of_none {a b : State × Nat × Nat} (ea : s.imageCheck s.lam.brd.nor 0 = a)
    (eb : a.1.imageCheck a.1.lam.brd.nor 0x1000000 = b) (ha : a.2.1 ≠ 0) (hb : b.2.1 ≠ 0) :
    s.bootChoose = b.1.wl L.LAM_BOOT_STATE 2 := by
  unfold State.bootChoose
  rw [ea]
  dsimp only
  rw [eb, if_neg fun h => ha h.1, if_neg ha, if_neg hb]

theorem State.bootRun_of_valid (h : s.rl L.LAM_BOOT_STATE = 2) (hc : (s.imageCheck s.lam.brd.sram 0).2.1 = 0) :
    s.bootRun = (s.imageCheck s.lam.brd.sram 0).1.bootImage 2 (s.imageCheck s.lam.brd.sram 0).2.2 :=
  (if_pos h).trans (if_pos hc)

theorem State.bootRun_of_bad (h : s.rl L.LAM_BOOT_STATE = 2) (hc : (s.imageCheck s.lam.brd.sram 0).2.1 ≠ 0) :
    s.bootRun = (s.imageCheck s.lam.brd.sram 0).1.wl L.LAM_BOOT_LAST_CHECK (s.imageCheck s.lam.brd.sram 0).2.1 :=
  (if_pos h).trans (if_neg hc)

end Boot

/-! POR_N going low (R453). -/

section Assert
variable (s : State)

/-- The Lamulo at reset, with the keys and the NOR flash that it keeps. -/
def State.atPor : State :=
  { s with lam := { bkt := lamBuckets, keys := s.lam.keys, brd := { nor := s.lam.brd.nor } },
           latches := s.latches.filter (fun (x : Latch) => x.path != Path.pcie && x.path != Path.cmd),
           holds := s.holds.filter fun (x : Hold) => x.path != Path.pcie && x.path != Path.cmd }

theorem exec_porNAssert : exec .porNAssert s = .next ((((s.atPor.wl L.KEY_STAT_PROG (s.rl L.KEY_STAT_PROG)).wl L.KEY_REVOKE
    (s.rl L.KEY_REVOKE)).wl L.FLEET_KEY_PROG (s.rl L.FLEET_KEY_PROG)).wl L.KEY_MIN_FW (s.rl L.KEY_MIN_FW)) := rfl

theorem State.keptKeys_read (t : State) (a b c d : Nat) :
    ((((t.wl L.KEY_STAT_PROG a).wl L.KEY_REVOKE b).wl L.FLEET_KEY_PROG c).wl L.KEY_MIN_FW d).rl L.KEY_STAT_PROG = a % 2 ^ L.KEY_STAT_PROG.width ∧
    ((((t.wl L.KEY_STAT_PROG a).wl L.KEY_REVOKE b).wl L.FLEET_KEY_PROG c).wl L.KEY_MIN_FW d).rl L.KEY_REVOKE = b % 2 ^ L.KEY_REVOKE.width ∧
    ((((t.wl L.KEY_STAT_PROG a).wl L.KEY_REVOKE b).wl L.FLEET_KEY_PROG c).wl L.KEY_MIN_FW d).rl L.KEY_MIN_FW = d % 2 ^ L.KEY_MIN_FW.width := by
  simp (disch := decide) only [State.rl_wl_ne, State.rl_wl_self, and_self]

end Assert

/-! Position (R449). -/

section Position
variable {s : State} {row rack tray : Nat}

/-- The position written, the node number not yet. -/
def State.placed (s : State) (row rack tray : Nat) : State := ((s.wl L.LAM_POS_ROW row).wl L.LAM_POS_RACK rack).wl L.LAM_POS_TRAY tray

theorem State.setPos_of_idle (hp : ∀ p, p < 24 → s.portRole p = 0) (hq : ∀ q, q < 16 → s.rl L.LNK_CTL_ENABLE q = 0) :
    s.setPos row rack tray = (s.placed row rack tray).wl L.LAM_NODE (s.placed row rack tray).nodeNo := by
  refine if_pos ?_
  simpa only [Bool.and_eq_true, List.all_eq_true, List.mem_range, beq_iff_eq] using And.intro hp hq

theorem State.setPos_of_busy (h : (∃ p, p < 24 ∧ s.portRole p ≠ 0) ∨ (∃ q, q < 16 ∧ s.rl L.LNK_CTL_ENABLE q ≠ 0)) :
    s.setPos row rack tray = s := by
  refine if_neg ?_
  simp only [Bool.and_eq_true, List.all_eq_true, List.mem_range, beq_iff_eq]
  rintro ⟨hp, hq⟩
  rcases h with ⟨p, hlt, hne⟩ | ⟨q, hlt, hne⟩
  · exact hne (hp p hlt)
  · exact hne (hq q hlt)

theorem State.placed_read (s : State) : (s.placed row rack tray).rl L.LAM_POS_ROW = row % 2 ^ L.LAM_POS_ROW.width ∧
    (s.placed row rack tray).rl L.LAM_POS_RACK = rack % 2 ^ L.LAM_POS_RACK.width ∧
    (s.placed row rack tray).rl L.LAM_POS_TRAY = tray % 2 ^ L.LAM_POS_TRAY.width := by
  simp (disch := decide) only [State.placed, State.rl_wl_ne, State.rl_wl_self, and_self]

end Position

/-! Keys (R457). -/

section Keys
variable {s : State} {auth : Auth} {k : Nat}

/-- What KEY_PROG_DATA holds. -/
def State.keyData (s : State) : List Nat := wordsToBytes ((List.range 24).map fun i => s.rl L.KEY_PROG_DATA i)

/-- A slot that takes the first n bytes of KEY_PROG_DATA. -/
def State.keyed (s : State) (k n : Nat) : State := { s with lam := { s.lam with keys := s.lam.keys ++ [(k, s.keyData.take n)] } }

theorem State.keyProg_of_public (hf : s.key k = none) (hk : k < 28) (hp : s.rl L.LAM_STRAP_PROV = 1) :
    s.keyProg auth k = (s.keyed k 96).wl L.KEY_STAT_PROG (s.rl L.KEY_STAT_PROG ||| 1 <<< k) :=
  (if_neg (by simp [hf])).trans ((if_pos hk).trans (if_pos (by simp [hp])))

theorem State.keyProg_of_fleet (hf : s.key k = none) (hl : 32 ≤ k) (hh : k < 48) (hp : s.rl L.LAM_STRAP_PROV = 1 ∨ auth = .fleet) :
    s.keyProg auth k = (s.keyed k 32).wl L.FLEET_KEY_PROG (s.rl L.FLEET_KEY_PROG ||| 1 <<< (k - 32)) :=
  (if_neg (by simp [hf])).trans ((if_neg (by omega)).trans ((if_pos ⟨hl, hh⟩).trans
    (if_pos (by simpa only [Bool.or_eq_true, beq_iff_eq] using hp))))

theorem State.keyProg_of_refused (h : (s.key k).isSome = true ∨ 48 ≤ k ∨ 28 ≤ k ∧ k < 32 ∨
    s.rl L.LAM_STRAP_PROV ≠ 1 ∧ (k < 28 ∨ auth ≠ .fleet)) : s.keyProg auth k = s := by
  unfold State.keyProg
  extract_lets data prov put
  split_ifs with hset hpub hprov hfleet hmay
  case pos => rfl
  case pos =>
    obtain hs | hk | hk | hp := h
    · exact absurd hs hset
    · omega
    · omega
    · exact absurd (beq_iff_eq.mp hprov) hp.1
  case neg => rfl
  case pos =>
    obtain hs | hk | hk | ⟨hp, hl⟩ := h
    · exact absurd hs hset
    · omega
    · omega
    · rcases Bool.or_eq_true_iff.mp hmay with hm | hm
      · exact absurd (beq_iff_eq.mp hm) hp
      · exact absurd (beq_iff_eq.mp hm) (hl.resolve_left hpub)
  case neg => rfl
  case neg => rfl

end Keys

/-- Settles O56: the straps and the role's reset values are read back from the writes of the edge; the boot and the keys follow the
tests of the model one by one. -/
theorem bootPositionAndKeys : Obligations.BootPositionAndKeys := by
  unfold Obligations.BootPositionAndKeys
  refine ⟨?rise, ?high, ?first, ?neither, ?low, ?run, ?notRecovery, ?place, ?placeBusy, ?keyPublic, ?keyFleet, ?keyRefused, ?revoke⟩
  case rise =>
    intro role sb pv ba s h
    have hr : role % 4 < 4 := Nat.mod_lt _ (by decide)
    exact ⟨s.risen role sb pv ba, if_neg (by simp [h]), s.rl_risen_role .., s.rl_risen_prov .., s.rl_risen_bootAlt ..,
      s.rl_risen_standby .., rfl, rfl, rfl, State.rl_roleResets_merge _ _ hr, State.rl_roleResets_close _ _ hr⟩
  case high => exact fun role sb pv ba s h => exec_porNRise_of_high role sb pv ba h
  case first =>
    intro s ha hb h
    rw [State.bootChoose_of_first_newer rfl rfl ha hb h]
    exact State.rl_bootImage _ 0 _
  case neither =>
    intro s ha hb
    rw [State.bootChoose_of_none rfl rfl ha hb]
    exact State.rl_wl_self ..
  case low =>
    intro s
    obtain ⟨h1, h2, h3⟩ := s.atPor.keptKeys_read (s.rl L.KEY_STAT_PROG) (s.rl L.KEY_REVOKE) (s.rl L.FLEET_KEY_PROG) (s.rl L.KEY_MIN_FW)
    exact ⟨_, exec_porNAssert s, rfl, rfl, rfl, rfl, rfl, h1, h2, h3⟩
  case run =>
    intro iss s ha h
    refine ⟨_, ha.next (·.bootRun), fun hc => ?_, fun hc => State.bootRun_of_bad h hc⟩
    rw [State.bootRun_of_valid h hc]
    exact State.rl_bootImage _ 2 _
  case notRecovery => exact fun iss s ha h => (ha.next (·.bootRun)).trans (congrArg Host.Outcome.next (if_neg h))
  case place =>
    intro iss r k t s ha hp hq
    obtain ⟨h1, h2, h3⟩ := s.placed_read (row := r) (rack := k) (tray := t)
    exact ⟨_, (ha.next (·.setPos r k t)).trans (congrArg Host.Outcome.next (State.setPos_of_idle hp hq)), h1, h2, h3, rfl⟩
  case placeBusy =>
    exact fun iss r k t s ha h => (ha.next (·.setPos r k t)).trans (congrArg Host.Outcome.next (State.setPos_of_busy h))
  case keyPublic =>
    rintro iss k s d ha hf rfl hk hp
    exact (ha.next (·.keyProg iss.auth k)).trans (congrArg Host.Outcome.next (State.keyProg_of_public hf hk hp))
  case keyFleet =>
    rintro iss k s d ha hf rfl hl hh hp
    exact (ha.next (·.keyProg iss.auth k)).trans (congrArg Host.Outcome.next (State.keyProg_of_fleet hf hl hh hp))
  case keyRefused =>
    exact fun iss k s ha h => (ha.next (·.keyProg iss.auth k)).trans (congrArg Host.Outcome.next (State.keyProg_of_refused h))
  case revoke => exact fun iss v s ha => ha.next fun s => s.wl L.KEY_REVOKE (s.rl L.KEY_REVOKE ||| v % 2 ^ 28)

end Sys2Proof.Machine
end


section
/-! PROOFS. Power domains of a Lamulo (R450 to R452), its thermal trip and its watchdog (R468, R469). -/

namespace Sys2Proof.Machine

/-! What PD_CTL asks for (R451). -/

section Ask
variable {s : State}

/-- A request for the domains already asked for changes none and is refused none. -/
theorem State.pdDecide_self (s : State) (v ref : Nat) (l : List Nat) : s.pdDecide v l (v, ref) = (v, ref) := by
  induction l with
  | nil => rfl
  | cons n l ih => exact (if_pos (.inl rfl)).trans ih

theorem State.setPdCtl_of_granted {v : Nat} (h : (s.pdDecide v (List.range 20) (s.rl L.PD_CTL, 0)).2 = 0) :
    s.setPdCtl v = (s.wl L.PD_CTL ((s.pdDecide v (List.range 20) (s.rl L.PD_CTL, 0)).1 ||| 7)).pdRetarget := if_pos h

theorem State.setPdCtl_of_refused {v : Nat} {d : Nat × Nat} {u : State} (hd : d = s.pdDecide v (List.range 20) (s.rl L.PD_CTL, 0))
    (h : d.2 ≠ 0) (hu : u = (s.wl L.PD_CTL (d.1 ||| 7)).pdRetarget) :
    s.setPdCtl v = (u.wl L.PD_REFUSED (u.rl L.PD_REFUSED ||| d.2)).boardEvent 5 d.2 0 := by
  subst hu hd
  exact if_neg h

/-- No domain is pending. -/
theorem find?_bitAt_zero (l : List Nat) : l.find? (fun n => bitAt 0 n) = none :=
  List.find?_eq_none.mpr fun n _ => by simp only [bitAt, Nat.zero_testBit, Bool.false_eq_true, not_false_iff]

theorem exec_domainSwitchDone_of_pending {n : Nat} (h : (List.range 20).find? (fun k => bitAt (s.rl L.PD_BUSY) k) = some n) :
    exec .domainSwitchDone s = if 20000 ≤ s.now .lam - s.lam.pdFrom then
      .next (State.pdRetarget ((State.lamLose (s.wl L.PD_STAT (setBits (s.rl L.PD_STAT) n 1 (b2n !s.pdOn n))) n).wl L.PD_BUSY 0))
    else .next s := by
  show execDomainSwitchDone s = _
  unfold execDomainSwitchDone
  dsimp only
  rw [h]

theorem exec_domainSwitchDone_of_none (h : s.rl L.PD_BUSY = 0) : exec .domainSwitchDone s = .next s := by
  show execDomainSwitchDone s = _
  unfold execDomainSwitchDone
  dsimp only
  rw [h, find?_bitAt_zero]

theorem exec_domainSwitchDone_of_early (h : s.lam.clk.ns - s.lam.pdFrom < 20000) : exec .domainSwitchDone s = .next s := by
  cases hf : (List.range 20).find? (fun k => bitAt (s.rl L.PD_BUSY) k) with
  | some n => exact (exec_domainSwitchDone_of_pending hf).trans (if_neg (Nat.not_le.mpr h))
  | none =>
    show execDomainSwitchDone s = _
    unfold execDomainSwitchDone
    dsimp only
    rw [hf]

theorem b2n_not (b : Bool) : b2n (!b) = if b then 0 else 1 := by cases b <;> rfl

end Ask

/-! What a domain that goes off loses (R451). -/

section Lose

/-- A store kept to some of its keys reads there as before, and elsewhere its default. -/
theorem Sparse.get_filter_key {α : Type} (d : α) (f : Nat → Bool) (m : List (Nat × α)) (k : Nat) :
    Sparse.get d (m.filter fun p => f p.1) k = if f k = true then Sparse.get d m k else d := by
  induction m with
  | nil => simp only [List.filter_nil, Sparse.get, ite_self]
  | cons p m ih =>
    obtain ⟨k', v⟩ := p
    by_cases hk : k' = k
    · subst hk
      cases hf : f k' with
      | true => simp [hf, Sparse.get]
      | false => simp only [List.filter_cons, hf, Bool.false_eq_true, if_false, ih]
    · cases hf : f k' with
      | true => simp only [List.filter_cons, hf, if_true, Sparse.get, hk, if_false, ih]
      | false => simp only [List.filter_cons, hf, Bool.false_eq_true, if_false, ih, Sparse.get, hk]

/-- Its registers, where the domain runs no engine and holds no memory. -/
theorem State.regs_lamLose (s : State) {n : Nat} (h17 : n ≠ 17) (h3 : n ≠ 3) (h4 : n ≠ 4) :
    (s.lamLose n).lam.regs = s.lam.regs.filter fun p => lamDomain (p.1 / 8) != n := by
  unfold State.lamLose
  extract_lets fresh t a l e l' t'
  have ht : t = s := if_neg h17
  have hl : l'.regs = l.regs := by dsimp only [l']; split <;> rfl
  rw [if_neg h3, if_neg h4]
  exact hl.trans (by dsimp only [l]; rw [ht])

/-- A register reads zero once its domain is off, and as before while another is. -/
theorem State.get_lamLose (s : State) {n : Nat} (k : Nat) (h17 : n ≠ 17) (h3 : n ≠ 3) (h4 : n ≠ 4) :
    Sparse.get 0 (s.lamLose n).lam.regs k = if lamDomain (k / 8) = n then 0 else Sparse.get 0 s.lam.regs k := by
  rw [s.regs_lamLose h17 h3 h4, Sparse.get_filter_key 0 (fun k => lamDomain (k / 8) != n)]
  by_cases h : lamDomain (k / 8) = n
  · rw [if_pos h, if_neg (by simp [h])]
  · rw [if_neg h, if_pos (by simp [h])]

end Lose

/-! The pins, which nothing of that moves (R468). -/

section Pins
variable (s : State) (r n : Nat)

theorem State.pins_ddrPut (a : Nat) (bs : List Nat) : (s.ddrPut a bs).lam.pins = s.lam.pins := by
  rw [State.ddrPut_eq, State.countPoison, State.countCut_eq]
  rfl

theorem State.pins_raiseVec (v : Nat) : (s.raiseVec v).lam.pins = s.lam.pins := State.ite_keeps (·.lam.pins) rfl rfl

theorem State.pins_cmpShow : s.cmpShow.lam.pins = s.lam.pins := by
  refine State.foldl_keeps (·.lam.pins) ?_ _ s
  exact fun _ _ => rfl

theorem State.pins_endDesc (d : CmpRun) (st : Nat) : (s.endDesc r d st).lam.pins = s.lam.pins := by
  unfold State.endDesc
  extract_lets a s1 s2 c c' i o s3 s4 s5 s6 s7 s8
  have h2 : s2.lam.pins = s.lam.pins := (State.pins_ddrPut _ _ _).trans (s.pins_ddrPut _ _)
  have h6 : s6.lam.pins = s2.lam.pins := State.ite_keeps (·.lam.pins) rfl rfl
  have h8 : s8.lam.pins = s2.lam.pins := State.ite_keeps (·.lam.pins) ((State.pins_raiseVec _ _).trans h6) h6
  exact s8.pins_cmpShow.trans (h8.trans h2)

theorem State.pins_ringAbort : (s.ringAbort r).lam.pins = s.lam.pins := by
  unfold State.ringAbort
  split
  · exact s.pins_endDesc _ _ _
  · rfl

theorem State.pins_lamLose : (s.lamLose n).lam.pins = s.lam.pins := by
  unfold State.lamLose
  extract_lets fresh t a l e l' t'
  have ht : t.lam.pins = s.lam.pins := State.ite_keeps (·.lam.pins) ((State.pins_ringAbort _ 1).trans (s.pins_ringAbort 0)) rfl
  have hl : t'.lam.pins = t.lam.pins := by dsimp only [t', l']; split <;> rfl
  exact State.ite_keeps (·.lam.pins) (hl.trans ht) (State.ite_keeps (·.lam.pins) (hl.trans ht) (hl.trans ht))

theorem State.itu_lamLose : (s.lamLose n).itu = s.itu := (fr_lamLose (fp := { lam := true, ddr := true }) n rfl rfl (.refl _ s)).itu rfl

end Pins

/-! The thermal trip (R468). -/

section Trip
variable (s : State)

/-- Every domain that can be off loses its state. -/
def State.losePowered (s : State) : State :=
  ((List.range 20).drop 3).foldl (fun s n => if s.pdOn n then s.lamLose n else s) s

theorem State.pins_losePowered : s.losePowered.lam.pins = s.lam.pins :=
  State.foldl_keeps (·.lam.pins) (fun s n => State.ite_keeps (·.lam.pins) (s.pins_lamLose n) rfl) _ s

theorem State.itu_losePowered : s.losePowered.itu = s.itu :=
  State.foldl_keeps (·.itu) (fun s n => State.ite_keeps (·.itu) (s.itu_lamLose n) rfl) _ s

/-- The trip's alarms, before the domains go off. -/
def State.tripAlarms (s : State) : State :=
  let t := (s.lamFault L.LAM_FAULT_THERM).recFault 3 (s.rl L.LAM_TEMP) 0
  if t.ethCarries then t.boardEvent 3 (t.rl L.LAM_TEMP) 0 else t

theorem State.logs_tripAlarms : Logs [L.LAM_FAULT_THERM] s s.tripAlarms := by
  have h : Logs [L.LAM_FAULT_THERM] s ((s.lamFault L.LAM_FAULT_THERM).recFault 3 (s.rl L.LAM_TEMP) 0) :=
    (((Logs.refl _ s).wl List.mem_cons_self 1).lamFault).recFault _ _ _
  exact (h.boardEvent _ _ _).ite h

/-- THERMTRIP_N driven low. -/
def State.tripped (s : State) : State := { s with lam := { s.lam with pins := { s.lam.pins with thermTripN := false } } }

theorem State.pins_trip : s.tripped.tripAlarms.losePowered.lam.pins = { s.lam.pins with thermTripN := false } :=
  (State.pins_losePowered _).trans s.tripped.logs_tripAlarms.pins

theorem State.itu_trip : s.tripped.tripAlarms.losePowered.itu = s.itu :=
  (State.itu_losePowered _).trans s.tripped.logs_tripAlarms.itu

variable {s} {t : Nat}

theorem exec_thermalTrip_of_hot (h : 440 < toS 10 t) (hp : s.lam.pins.thermTripN = true) :
    exec (.thermalTrip t) s = .next ((((s.wl L.LAM_TEMP t).tripped.tripAlarms.losePowered.wl L.PD_CTL 7).wl L.PD_STAT 7).wl L.PD_BUSY 0) :=
  if_pos ⟨h, hp⟩

theorem exec_thermalTrip_of_not (h : ¬ (440 < toS 10 t ∧ s.lam.pins.thermTripN = true)) :
    exec (.thermalTrip t) s = .next (s.wl L.LAM_TEMP t) := if_neg h

theorem State.tripDomains (u : State) : (((u.wl L.PD_CTL 7).wl L.PD_STAT 7).wl L.PD_BUSY 0).rl L.PD_CTL = 7 ∧
    (((u.wl L.PD_CTL 7).wl L.PD_STAT 7).wl L.PD_BUSY 0).rl L.PD_STAT = 7 ∧
    (((u.wl L.PD_CTL 7).wl L.PD_STAT 7).wl L.PD_BUSY 0).rl L.PD_BUSY = 0 := by
  simp (disch := decide) only [State.rl_wl_ne, State.rl_wl_self]
  decide

end Trip

/-- Settles O57: a request is decided domain by domain; a domain that goes off loses the registers of its own addresses, and the
trip takes every domain off without moving another pin. -/
theorem powerDomainsAreSwitched : Obligations.PowerDomainsAreSwitched := by
  unfold Obligations.PowerDomainsAreSwitched
  refine ⟨?granted, ?refused, ?same, ?done, ?early, ?zero, ?kept, ?trip, ?wdog⟩
  case granted =>
    rintro iss v s d ha rfl h
    exact (ha.next (·.setPdCtl (v % 2 ^ 20))).trans (congrArg Host.Outcome.next (State.setPdCtl_of_granted h))
  case refused =>
    exact fun iss v s d u ha hd h hu =>
      (ha.next (·.setPdCtl (v % 2 ^ 20))).trans (congrArg Host.Outcome.next (State.setPdCtl_of_refused hd h hu))
  case same => exact fun s => s.pdDecide_self _ 0 _
  case done =>
    intro s n hf h
    rw [exec_domainSwitchDone_of_pending hf, b2n_not]
    exact if_pos h
  case early => exact fun s h => h.elim exec_domainSwitchDone_of_none exec_domainSwitchDone_of_early
  case zero => exact fun s k h => (s.get_lamLose k (by decide) (by decide) (by decide)).trans (if_pos h)
  case kept => exact fun s n k h17 h3 h4 h _ => (s.get_lamLose k h17 h3 h4).trans (if_neg h)
  case trip =>
    intro s t
    by_cases h : 440 < toS 10 t ∧ s.lam.pins.thermTripN = true
    case pos =>
      refine ⟨_, exec_thermalTrip_of_hot h.1 h.2, fun hn => ?_, fun _ _ => ?_⟩
      · rcases hn with hn | hn
        · exact absurd h.1 (Int.not_lt.mpr hn)
        · exact absurd (h.2.symm.trans hn) (by decide)
      · obtain ⟨h1, h2, h3⟩ := (s.wl L.LAM_TEMP t).tripped.tripAlarms.losePowered.tripDomains
        exact ⟨(s.wl L.LAM_TEMP t).pins_trip, h1, h2, h3, (s.wl L.LAM_TEMP t).itu_trip⟩
    case neg => exact ⟨_, exec_thermalTrip_of_not h, fun _ => rfl, fun h1 h2 => absurd ⟨h1, h2⟩ h⟩
  case wdog => exact fun k s => rfl

end Sys2Proof.Machine
end


section
/-! PROOFS. DDR training, the patrol scrub, bytes stored, and the windows of the PCIe endpoint (R459, R461 to R464). -/

namespace Sys2Proof.Machine

/-! Training and the patrol scrub (R459, R462). -/

section Train
variable {s : State} {l : Nat} {e : Ecc}

theorem execPatrolScrub_of_lt (h : 64 * l < s.ddrSize) (intervened last : Bool) : exec (.patrolScrub l e intervened last) s =
    let t := if intervened then { (s.ddrLine l e).1 with lam := { (s.ddrLine l e).1.lam with poison := s.lam.poison } } else (s.ddrLine l e).1
    .next (if last then t.wl L.DDR_SCRUB_PASS ((t.rl L.DDR_SCRUB_PASS (s.ddrChan (64 * l)) + 1) % 2 ^ 32) (s.ddrChan (64 * l)) else t) :=
  if_neg (Nat.not_le.mpr h)

end Train

/-! Bytes stored (R461). -/

section Bytes
variable (s : State) (a : Nat) (bs : List Nat) (k : Nat)

theorem State.byte_ddrPut_in (h : k < bs.length) : Memory.byte ddrDefault (s.ddrPut a bs).lam.ddr (a + k) = nth bs k % 256 := by
  rw [State.ddr_ddrPut, Memory.byte_write_in _ _ _ _ h, nth, List.getD_eq_getElem _ _ h]

theorem State.byte_ddrPut_out (h : k < a ∨ a + bs.length ≤ k) :
    Memory.byte ddrDefault (s.ddrPut a bs).lam.ddr k = Memory.byte ddrDefault s.lam.ddr k := by
  rw [State.ddr_ddrPut, Memory.byte_write_out _ _ _ _ h]

end Bytes

/-! The window BAR2 (R456, R464). -/

section Window
variable {s : State} {o n : Nat} {bs : List Nat}

/-- The address that an offset of the window names once firmware runs. -/
def State.winAddr (s : State) (o : Nat) : Nat := s.rl L.DDR_WIN_BASE_LO + 2 ^ 32 * s.rl L.DDR_WIN_BASE_HI + o

/-- A window whose n bytes at o lie in memory. -/
def State.winOk (s : State) (o n : Nat) : Prop := s.ddrRange (s.winAddr o) n = true ∧ o + n ≤ 2 ^ 30

theorem State.winBad_iff : (!s.ddrRange (s.winAddr o) n || decide (2 ^ 30 < o + n)) = true ↔ ¬ s.winOk o n := by
  simp only [State.winOk, Bool.or_eq_true, Bool.not_eq_true', decide_eq_true_eq, not_and_or, Bool.not_eq_true, Nat.not_le]

/-- Firmware runs: writes. -/
theorem execBar2Access_write_run (h : s.rl L.LAM_BOOT_STATE = 1) (hw : s.winOk o bs.length) :
    exec (.bar2Access true o n bs) s = .next (s.ddrPut (s.winAddr o) bs) := by
  refine (if_neg (by omega)).trans ((if_neg (not_not.mpr h)).trans ((if_neg ?_).trans (if_pos rfl)))
  exact fun hbad => State.winBad_iff.mp hbad hw

theorem execBar2Access_write_bad (h : s.rl L.LAM_BOOT_STATE = 1) (hw : ¬ s.winOk o bs.length) :
    exec (.bar2Access true o n bs) s = .next (s.il L.DDR_CNT_WIN_BAD) :=
  (if_neg (by omega)).trans ((if_neg (not_not.mpr h)).trans (if_pos (State.winBad_iff.mpr hw)))

/-- Firmware runs: reads. -/
theorem execBar2Access_read_run (h : s.rl L.LAM_BOOT_STATE = 1) (hw : s.winOk o n) : exec (.bar2Access false o n bs) s =
    if s.poisoned (s.winAddr o) n then .next { s.il L.DDR_CNT_PCIE_POISON with rdata := bytesToWords (List.replicate n 0) }
    else .next { s with rdata := bytesToWords (s.ddrBytes (s.winAddr o) n) } := by
  refine (if_neg (by omega)).trans ((if_neg (not_not.mpr h)).trans ((if_neg ?_).trans (if_neg Bool.false_ne_true)))
  exact fun hbad => State.winBad_iff.mp hbad hw

theorem execBar2Access_read_bad (h : s.rl L.LAM_BOOT_STATE = 1) (hw : ¬ s.winOk o n) : exec (.bar2Access false o n bs) s =
    .next { s.il L.DDR_CNT_WIN_BAD with rdata := bytesToWords (List.replicate n 0) } :=
  (if_neg (by omega)).trans ((if_neg (not_not.mpr h)).trans (if_pos (State.winBad_iff.mpr hw)))

/-- Recovery: the window is the SRAM. -/
theorem execBar2Access_write_sram (h : s.rl L.LAM_BOOT_STATE = 2) : exec (.bar2Access true o n bs) s =
    if 2 ^ 24 < o + bs.length then .next s else .next (s.setBrd { s.lam.brd with sram := s.lam.brd.sram.write norDefault o bs }) :=
  if_pos h

theorem execBar2Access_read_sram (h : s.rl L.LAM_BOOT_STATE = 2) (hr : o + n ≤ 2 ^ 24) : exec (.bar2Access false o n bs) s =
    .next { s with rdata := bytesToWords (s.lam.brd.sram.read norDefault o n) } :=
  (if_pos h).trans ((if_neg (Nat.not_lt.mpr hr)).trans (if_neg Bool.false_ne_true))

end Window

/-! The reset of the endpoint (R463). -/

section Endpoint
variable (s : State)

/-- Every entry of a list of the MSI-X table cleared. -/
def State.clearVecs (s : State) (l : List Nat) : State := l.foldl (fun s i => s.wl L.MSI_X_table 0 i) s

theorem State.vec_key {i k : Nat} (h : i ≠ k) : L.MSI_X_table.key i 0 ≠ L.MSI_X_table.key k 0 := by
  simp only [Fld.key, L.MSI_X_table]
  omega

theorem State.rl_clearVecs_mem {l : List Nat} {i : Nat} (h : i ∈ l ∨ s.rl L.MSI_X_table i = 0) : (s.clearVecs l).rl L.MSI_X_table i = 0 := by
  induction l generalizing s with
  | nil => exact h.resolve_left List.not_mem_nil
  | cons k l ih =>
    refine ih (s.wl L.MSI_X_table 0 k) ?_
    by_cases hk : i = k
    · subst hk
      exact .inr ((s.rl_wl_self ..).trans (Nat.zero_mod _))
    · rw [State.rl_wl_ne _ _ _ _ _ _ _ _ (State.vec_key hk)]
      exact h.imp_left fun hm => (List.mem_cons.mp hm).resolve_left hk

theorem State.pending_key (i j : Nat) (hi : i < 256) : L.MSI_X_table.key i 0 ≠ L.MSI_X_pending_bits.key j 0 := by
  simp only [Fld.key, L.MSI_X_table, L.MSI_X_pending_bits]
  omega

variable (l : List Nat)

/-- Those entries and the pending bits cleared. -/
def State.vecsReset : State := ((s.clearVecs l).wl L.MSI_X_pending_bits 0 0).wl L.MSI_X_pending_bits 0 1

/-- The reads and writes that the endpoint held dropped. -/
def State.pathReset : State :=
  { s with latches := s.latches.filter (fun l => l.path != .pcie), holds := s.holds.filter fun l => l.path != .pcie }

theorem exec_perstN : exec .perstN s = .next (s.vecsReset (List.range 256)).pathReset := rfl

theorem State.rl_vecsReset (hl : ∀ i, i ∈ l → i < 256) : (s.vecsReset l).rl L.MSI_X_pending_bits 0 = 0 ∧
    (s.vecsReset l).rl L.MSI_X_pending_bits 1 = 0 ∧ ∀ i, i ∈ l → (s.vecsReset l).rl L.MSI_X_table i = 0 := by
  refine ⟨?_, State.rl_wl_self .., fun i hi => ?_⟩
  · exact (State.rl_wl_ne _ _ _ _ _ _ _ _ (by decide)).trans (State.rl_wl_self ..)
  · exact (State.rl_wl_ne _ _ _ _ _ _ _ _ (State.pending_key i 1 (hl i hi))).trans
      ((State.rl_wl_ne _ _ _ _ _ _ _ _ (State.pending_key i 0 (hl i hi))).trans (s.rl_clearVecs_mem (.inl hi)))

/-- Nothing but registers of the Lamulo. -/
theorem State.vecsReset_keeps : (s.vecsReset l).itu = s.itu ∧ (s.vecsReset l).lam.brd = s.lam.brd ∧ (s.vecsReset l).lam.ddr = s.lam.ddr :=
  ⟨State.foldl_keeps (·.itu) (f := fun s i => s.wl L.MSI_X_table 0 i) (fun _ _ => rfl) l s,
    State.foldl_keeps (·.lam.brd) (f := fun s i => s.wl L.MSI_X_table 0 i) (fun _ _ => rfl) l s,
    State.foldl_keeps (·.lam.ddr) (f := fun s i => s.wl L.MSI_X_table 0 i) (fun _ _ => rfl) l s⟩

/-- What the row leaves. -/
theorem State.pathReset_shows (hl : ∀ i, i ∈ l → i < 256) : (s.vecsReset l).pathReset.itu = s.itu ∧
    (s.vecsReset l).pathReset.rl L.MSI_X_pending_bits 0 = 0 ∧ (s.vecsReset l).pathReset.rl L.MSI_X_pending_bits 1 = 0 ∧
    (∀ i, i ∈ l → (s.vecsReset l).pathReset.rl L.MSI_X_table i = 0) ∧ (∀ x, x ∈ (s.vecsReset l).pathReset.latches → x.path ≠ .pcie) ∧
    (s.vecsReset l).pathReset.lam.brd = s.lam.brd ∧ (s.vecsReset l).pathReset.lam.ddr = s.lam.ddr := by
  obtain ⟨h0, h1, ht⟩ := s.rl_vecsReset l hl
  obtain ⟨hi, hb, hd⟩ := s.vecsReset_keeps l
  exact ⟨hi, h0, h1, ht, fun x hx => bne_iff_ne.mp (List.mem_filter.mp hx).2, hb, hd⟩

end Endpoint

/-- Settles O59: what a store of bytes leaves comes from the laws of the byte memories, and each access of the window meets one case
of its state and range. -/
theorem ddrAndPcieWindows : Obligations.DdrAndPcieWindows := by
  unfold Obligations.DdrAndPcieWindows
  refine ⟨?enable, ?trained, ?untrained, ?scrub, ?pass, ?intervened, ?stored, ?outside, ?run, ?recovery, ?other, ?perst⟩
  case enable => exact fun iss s ha => ⟨ha.next (·.setDdr true), ha.next (·.setDdr false)⟩
  case trained => exact fun m s h => if_pos h
  case untrained => exact fun m s h => if_neg h
  case scrub => exact fun l e s h => execPatrolScrub_of_lt h false false
  case pass =>
    rintro l e s c h rfl
    exact execPatrolScrub_of_lt h false true
  case intervened => exact fun l e s h => ⟨_, execPatrolScrub_of_lt h true false, rfl⟩
  case stored => exact fun a bs s k h => s.byte_ddrPut_in a bs k h
  case outside => exact fun a bs s k h => s.byte_ddrPut_out a bs k h
  case run =>
    rintro o n bs s a h rfl
    refine ⟨fun hr hl => execBar2Access_write_run h ⟨hr, hl⟩, fun hr hl hp => ?_, fun hr hl hp => ?_, fun hbad => ?_, fun hbad => ?_⟩
    · exact (execBar2Access_read_run h ⟨hr, hl⟩).trans (if_neg (Bool.eq_false_iff.mp hp))
    · exact (execBar2Access_read_run h ⟨hr, hl⟩).trans (if_pos hp)
    · exact execBar2Access_write_bad h fun hw => hbad.elim (fun hr => Bool.false_ne_true (hr.symm.trans hw.1)) (Nat.not_lt.mpr hw.2)
    · exact execBar2Access_read_bad h fun hw => hbad.elim (fun hr => Bool.false_ne_true (hr.symm.trans hw.1)) (Nat.not_lt.mpr hw.2)
  case recovery =>
    exact fun o n bs s h => ⟨fun hw => (execBar2Access_write_sram h).trans (if_neg (Nat.not_lt.mpr hw)),
      execBar2Access_read_sram h, fun hw => (execBar2Access_write_sram h).trans (if_pos hw)⟩
  case other => exact fun o n bs s h1 h2 => (if_neg h2).trans (if_pos h1)
  case perst =>
    intro s
    obtain ⟨hi, h0, h1, ht, hx, hb, hd⟩ := s.pathReset_shows (List.range 256) fun _ => List.mem_range.mp
    exact ⟨_, exec_perstN s, hi, h0, h1, fun i h => ht i (List.mem_range.mpr h), hx, hb, hd⟩

end Sys2Proof.Machine
end
